-- ==== Sys2Proof/Word.lean ====
section
/-! DEFINITION. The word and byte types of the model, little-endian numbers, exact energies and times. -/

namespace Sys2Proof

/-- A host-visible register (R7). -/
abbrev Word := BitVec 32

/-- One byte. -/
abbrev Byte := BitVec 8

/-- A point of time or a length of time in nanoseconds. -/
abbrev Nanos := Nat

end Sys2Proof
end

