-- ==== Sys2Proof/Syntax.lean ====
section
/-! DEFINITION. The commands of the block: one constructor per row of spec/opcode_table.json, with the operands that
the sender of the command gives. A row that something outside the model decides (a reading, an acknowledge, a coded size)
carries that fact as an operand. -/

namespace Sys2Proof

/-- A mailbox: a slot 0 to 63 of BAR0, or a management mailbox 0 or 1. -/
inductive Mbox where
  | slot (n : Nat)
  | mgmt (m : Nat)
deriving DecidableEq, Repr

/-- A host read of BAR0: its offset and its bytes (R8). -/
structure HostRead where
  addr : Nat
  len  : Nat
deriving DecidableEq, Repr

/-- The training of one pseudo-channel (R501, R503, R518): the step of 3 to 6 whose limit it misses, 0 for none; the reference codes;
the read and write delay of each DQ bit; and the bits that arrive inverted in step 7: the access of the two patterns' 2²¹, its
beat of 16, and a mask of DQ bits. -/
structure PcTraining where
  failStep : Nat
  readRef  : Nat
  writeRef : Nat
  delays   : List (Nat × Nat)
  flips    : List (Nat × Nat × BitVec 32)
deriving DecidableEq, Repr

/-- What the board and the silicon do during a boot (R92, R99, R103–R106, R501, R623). -/
structure BootEnv where
  /-- Every rail monitor already reads below 10 % (R92). -/
  discharged  : Bool
  /-- The crystal is qualified in time. -/
  crystal     : Bool
  /-- Which of the nine addresses of R97 acknowledge. -/
  pmbusAck    : List Bool
  /-- Every rail reaches 95 % in time. -/
  railsRise   : Bool
  pllsLock    : Bool
  /-- Comparators that R623 finds failed. -/
  comparators : BitVec 4
  /-- The images of the recovery flash: first stage and Nimlek (R69). -/
  flash       : List (List (BitVec 8))
  /-- For each stack the step of R501, 1 or 2, at which its test port fails; 0 for none. -/
  stackFail   : List Nat
  /-- Soft repairs still unused in each stack, from the test port. -/
  sppr        : List Nat
  /-- What training meets per pseudo-channel; one that is not listed passes every step. -/
  pchans      : List PcTraining
deriving DecidableEq, Repr

/-- What the control port of a sensor does with a transfer (R284, R289). -/
structure ScpFacts where
  /-- The transfer can start within 10 ms. -/
  starts  : Bool
  /-- 0: acknowledged; else the failure code of R289. -/
  failure : Nat
  /-- The register reached, for failure 2. -/
  reached : Nat
  /-- Bytes read, most significant byte of each register first. -/
  data    : List (BitVec 8)
deriving DecidableEq, Repr

/-- An eye-margin scan: openings of the upper, middle and lower eye, horizontal in 1/64 UI and vertical in mV (R258). -/
structure EyeFacts where
  h : List Nat
  v : List Nat
deriving DecidableEq, Repr

/-- What a lane's receiver sees at one slip offset of the search: the sync header h0 h1 and the sixteen payload bytes of a block,
and how many of the 288 blocks that the search waits for are training words of that form (R233, R247). -/
structure Candidate where
  header : BitVec 2
  bytes  : List (BitVec 8)
  run    : Nat
deriving DecidableEq, Repr

/-- What training meets on one physical lane (R246, R247). -/
structure LaneFacts where
  signal   : Bool
  cdrLock  : Bool
  /-- The offsets in the order that the search tries them. -/
  seen     : List Candidate
  /-- When a training count arrives, in slip units after the earliest time (R235). -/
  delay    : Nat
  /-- Consecutive valid sync headers within 1 ms in SCRAMBLE and in PRECODE. -/
  headers  : Nat
  preHeaders : Nat
  /-- The smallest eye at each CTLE setting from 0 dB, and the eyes once the taps have adapted (R243). -/
  sweep    : List Nat
  eyes     : EyeFacts
  /-- Time that the lane's equaliser takes to converge, in µs (R243). -/
  eqMicros : Nat
  ffePre   : Int
  ffePost  : Int
  dfe      : Int
deriving DecidableEq, Repr

/-- A training of a shroud, or a part of one. -/
structure TrainFacts where
  /-- Which LTC write of this part, counted from 0, is refused or not answered. -/
  noAck   : Option Nat
  lanes   : List LaneFacts
  /-- The training has not come further than this many states beyond QUIET when the command ends; 7 is ACTIVE. -/
  upTo    : Nat
  /-- Duration from LTC_STATE = TRAIN to ACTIVE or FAILED. -/
  micros  : Nat
deriving DecidableEq, Repr

/-- A search on live traffic: time in RELOCK, and for each physical lane the consecutive valid sync headers at each offset in the
order tried (R250). -/
structure RelockFacts where
  ns   : Nat
  runs : List (List Nat)
deriving DecidableEq, Repr

/-- The ALIGN blocks of one period: whether they arrive in one deskewed block with one count (R237), and the bits and errors that a
loopback has counted so far, should the period end it (R249). -/
structure AlignPeriod where
  inStep : Bool
  bits   : Nat
  errors : Nat
deriving DecidableEq, Repr

/-- What comes with a loss of lock: whether the CDR of logical lane 0 has lost its lock, the search that follows when its end is
known, and the bits and errors that a loopback has counted so far (R249). -/
structure LockLoss where
  cdr    : Bool
  relock : Option RelockFacts
  bits   : Nat
  errors : Nat
deriving DecidableEq, Repr


/-- A long packet as the line assembler has it at its end (R266, R274). -/
structure LongPacket where
  vc       : Nat
  dataType : Nat
  line     : Nat
  payload  : List (BitVec 8)
  trailer  : BitVec 32
  /-- An errored block lay inside the packet. -/
  errored  : Bool
  /-- All its units arrived before the next control block. -/
  complete : Bool
deriving DecidableEq, Repr

/-- A tile of the job's input whose first read mismatched (R32, R506, R508). -/
structure TileMiss where
  /-- Logical address of the first access at fault (R508). -/
  addr     : Nat
  second   : Bool
  eccUncorr : Bool
  bits     : Nat
  /-- The reads agree, so the tag-plane entry is at fault (R508). -/
  tagFault : Bool
  /-- Logical addresses of the further accesses that differed or carried an ECC indication (R508). -/
  others   : List Nat
deriving DecidableEq, Repr

/-- A slice segment as a decoder core finds it: the CTUs that it covers in decoding order, whether it is dependent, whether it belongs to a
second picture of the access unit, whether its header parses with parameter sets that are there and undamaged, the CTUs decoded before a
syntax element out of range or a CABAC end that is out of place, and the first entry of RefPicList0 (R432 to R434). -/
structure DecSlice where
  ctus      : List Nat
  dependent : Bool
  second    : Bool
  header    : Bool
  bad       : Option Nat
  list0     : Option Int
deriving DecidableEq, Repr

/-- What a decoder core finds in an access unit (R427 to R442): its profile, level and formats, its headers, and the samples that it
decodes. The types of its NAL units are read from its bytes; `slices` are those of its VCL NAL units in order. -/
structure DecFacts where
  sizeKnown  : Bool
  profile    : Nat
  level      : Nat
  /-- chroma_format_idc, and the bit depths of luma and chroma. -/
  chroma     : Nat
  depth      : Nat
  depthC     : Nat
  width      : Nat
  height     : Nat
  dpb        : Nat
  /-- Accesses that the core asks for: whether it is a write, the first address and the bytes (R431). -/
  accesses   : List (Bool × Nat × Nat)
  slices     : List DecSlice
  /-- A parameter set of the access unit is damaged (R432). -/
  badSet     : Bool
  poc        : Int
  sliceType  : Nat
  /-- POCs that the reference picture set names, and those in the reference lists. -/
  rps        : List Int
  lists      : List Int
  /-- Tiles of stored pictures that were read: POC and tile. -/
  refTiles   : List (Int × Nat)
  /-- CTU size. -/
  ctu        : Nat
  /-- 0 no hash SEI, 1 matches, 2 differs. -/
  hash       : Nat
  vui        : List Nat
  micros     : Nat
  outputFlag : Bool
  /-- no_output_of_prior_pics_flag; stored pictures that wait for output at most; the latency limit in pictures, 0 for none. -/
  noPrior    : Bool
  reorder    : Nat
  latency    : Nat
  /-- Samples decoded: Y, Cb and Cr, by rows. -/
  planes     : List (List (List Nat))
deriving DecidableEq, Repr

/-- What a Barrel job works with: the input bytes that host memory gives, and what the compressor's search makes of them (R474, R477):
the DEFLATE code words of this job in order, each a value and its bits, least significant first; the input consumed; and the match that
is pending. A decompress job uses the input alone. -/
structure BrlFacts where
  input     : List (BitVec 8)
  words     : List (Nat × Nat)
  consumed  : Nat
  matchLen  : Nat
  matchDist : Nat
deriving DecidableEq, Repr

/-- A prediction unit that an HEVC core tries: the reference picture, by its place among those of the picture, and its block (R405). -/
structure PuFacts where
  ref : Nat
  x   : Nat
  y   : Nat
  w   : Nat
  h   : Nat
deriving DecidableEq, Repr

/-- What an engine's run depends on that the model does not compute. -/
structure JobFacts where
  misses   : List TileMiss
  hwFault  : Bool
  /-- Logical addresses at which reads that are not tile reads carried an uncorrectable ECC indication (R506). -/
  ecc      : List Nat
  /-- Coded size of the row at each step, finest first (JPEG XS, R412); for HEVC the slice header bytes alone (R413). -/
  sizes    : List Nat
  /-- Per CTU: coded size at each QP 0 to 51, and at the floor step last (HEVC, R413). -/
  ctus     : List (List Nat)
  /-- Bytes of the coded row at the step chosen. -/
  coded    : List (BitVec 8)
  /-- HEVC: the prediction units tried, and the luma of the row's reconstruction. -/
  pus      : List PuFacts
  recon    : List (List Nat)
  /-- Tiles of reference pictures that an HEVC core reads: the reference, by its place among those of the picture, and the tile. -/
  refTiles : List (Nat × Nat)
  dec      : Option DecFacts
  brl      : Option BrlFacts
deriving DecidableEq, Repr

/-- Rail telemetry of 10 ms (R198): energy of each rail group in µJ, of group 0 that of VDD_CORE and VDD_SRAM, none when incomplete,
and mean package power in mW. -/
structure Telemetry where
  groups : List (Option Rat)
  packageMw : Nat
deriving DecidableEq, Repr

/-- A PTP message (R565–R567). -/
structure PtpMsg where
  /-- 0 Sync, 1 Delay_Req, 2 Pdelay_Req, 3 Pdelay_Resp, 8 Follow_Up, 9 Delay_Resp, 10 Pdelay_Resp_Follow_Up, 11 Announce; others ignored. -/
  kind     : Nat
  domain   : Nat
  twoStep  : Bool
  seq      : Nat
  source   : List (BitVec 8)
  /-- Origin, receive or request-receipt timestamp, ns. -/
  stamp    : Int
  /-- correctionField, ns. -/
  correction : Int
  gm       : List (BitVec 8)
  clockClass : Nat
  accuracy : Nat
  variance : Nat
  priority1 : Nat
  priority2 : Nat
  stepsRemoved : Nat
deriving DecidableEq, Repr

/-- An Ethernet frame received (R536). -/
structure EthFrame where
  fcsOk : Bool
  /-- Addressed to the port's unicast MAC address or a PTP multicast address. -/
  ours  : Bool
  ptp   : Option PtpMsg
deriving DecidableEq, Repr

/-- One evaluation of the health logic (R615, R622): the on-die readings in 1/64 °C, the expected offsets g of the
firmware's thermal model, and the comparators above their thresholds. -/
structure HealthFacts where
  temps : List Int
  g     : List Int
  tripped : BitVec 4
deriving DecidableEq, Repr

/-- A remote channel measurement (R613, R685): open or short, and ΔV in nV or R in mΩ. -/
structure RemoteFacts where
  fault : Bool
  value : Nat
deriving DecidableEq, Repr

/-- The slowest process monitor, its count and its target (R629). -/
structure AvsFacts where
  slowest : Nat
  count   : Nat
  target  : Nat
deriving DecidableEq, Repr

/-- What a targeted test found (R646): the bit errors of the march or of the loopback, or the failing BIST signatures, in classes 1 to
4, in class 1 those of each DQ bit; in class 5 whether the core's own self-test failed. Classes 2 and 6 also rest on the last eye or
margin scan. -/
structure TestFacts where
  fail   : Bool
  result : Nat
  dq     : List Nat
deriving DecidableEq, Repr

/-- An NVMe completion (R456, R461, R466): the command, its status field, DNR, retryable, the fatal signs, and for an
admin or identify command its words. -/
structure NvmeFacts where
  cmd     : Nat
  ok      : Bool
  statusField : Nat
  dnr     : Bool
  retryable : Bool
  cfs     : Bool
  dw0     : BitVec 32
  dw1     : BitVec 32
  /-- Identify Controller: NVM command set, number of namespaces, largest transfer in bytes, and CAP.MQES; Identify Namespace: LBA
  size, 0 for one that is not active. -/
  nvmSet  : Bool
  nn      : Nat
  lbaSize : Nat
  mdts    : Nat
  mqes    : Nat
deriving DecidableEq, Repr

/-- A link that has trained (R525, R534): rate code, width, FLIT mode and training time. -/
structure LinkFacts where
  rate   : Nat
  width  : Nat
  flit   : Bool
  micros : Nat
deriving DecidableEq, Repr

/-- The endpoint's link and what the host's enumeration sets (R525–R529). -/
structure EpFacts where
  link   : LinkFacts
  bme    : Bool
  mse    : Bool
  msixEn : Bool
  fnMask : Bool
deriving DecidableEq, Repr

/-- A margin scan of a flex port, per lane: timing in 1/64 UI and voltage in mV (R546). -/
structure MarginFacts where
  timing  : List Nat
  voltage : List Nat
deriving DecidableEq, Repr

/-- How a host-memory transfer ended (R528): all of it, or the bytes done before the stop; tiles that failed; data that
came from the host. -/
structure DmaFacts where
  complete : Bool
  bytes    : Nat
  misses   : List TileMiss
  /-- As JobFacts.ecc. -/
  ecc      : List Nat
  data     : List (BitVec 8)
  /-- Luma samples by the SPS in force, when an access unit has been copied in and one is found (R443). -/
  luma     : Option Nat
deriving DecidableEq, Repr

/-- What the always-on domain measured while FURLED (R624, R625). -/
structure CoolFacts where
  /-- 10 s of cooling have held and the copy of R93 is complete. -/
  dwellMet : Bool
  peak     : Int
  coolingMs : Nat
deriving DecidableEq, Repr

/-- Every row of spec/opcode_table.json. -/
inductive Instr where
  | doorbell (hi : Bool) (v : Word)
  | slotRelease (hi : Bool) (v : Word)
  | slotWrite (addr : Nat) (data : List Byte)
  | rw1cClear (addr : Nat) (v : Word) (hwSets : Word)
  /-- A host read of BAR0, of any width (R8). -/
  | loWordRead (r : HostRead)
  | baseSecLoRead (base : Nat)
  | glbHalyardFire (v : Word)
  | registerWrite (addr : Nat) (data : List Byte)
  | mgmtFrame (mosi : List Byte) (readLen : Nat)
  | mgDoorbell (v : Word)
  | mgRelease (v : Word)
  | mgFurlRelease (v : Word) (cool : CoolFacts) (env : BootEnv)
  | sessionOpen (b : Mbox)
  | sessionClose (b : Mbox)
  | sessionHeartbeat (b : Mbox)
  | devInfo (b : Mbox)
  | devReset (b : Mbox)
  | sessionOrphans (b : Mbox)
  | eventMask (b : Mbox)
  | primaryClaim (b : Mbox)
  | mgmtImageBegin (b : Mbox)
  | mgmtImageData (b : Mbox)
  | mgmtImageEnd (b : Mbox)
  | cfgStageBegin (b : Mbox)
  | cfgStageBlock (b : Mbox)
  | cfgStageDiscard (b : Mbox)
  | cfgValidate (b : Mbox)
  | cfgCommit (b : Mbox)
  | cfgRollback (b : Mbox)
  | cfgStatus (b : Mbox)
  | cfgReadBlock (b : Mbox)
  | nrgCostRead (b : Mbox)
  | nrgTrace (b : Mbox)
  | nrgEstimate (b : Mbox)
  | slRetrain (b : Mbox)
  | slEyeScan (b : Mbox)
  | slLoopback (b : Mbox)
  | slTrainLog (b : Mbox)
  | scpRead (b : Mbox) (f : ScpFacts)
  | scpWrite (b : Mbox) (f : ScpFacts)
  | capStart (b : Mbox)
  | capStop (b : Mbox)
  | capTrigger (b : Mbox)
  | capSnap (b : Mbox)
  | capRelease (b : Mbox)
  | capFrameRecord (b : Mbox)
  | capRead (b : Mbox)
  | capCounters (b : Mbox)
  | encForceIrap (b : Mbox)
  | encPictureRecord (b : Mbox)
  | decSubmit (b : Mbox)
  | decFlush (b : Mbox)
  | decRestart (b : Mbox)
  | decRelease (b : Mbox)
  | decRecord (b : Mbox)
  | decRead (b : Mbox)
  | recStart (b : Mbox)
  | recStop (b : Mbox)
  | recGrant (b : Mbox)
  | recRevoke (b : Mbox)
  | recReport (b : Mbox)
  | recAck (b : Mbox)
  | recAdmin (b : Mbox)
  | recIo (b : Mbox)
  | recPortReset (b : Mbox)
  | brlOpen (b : Mbox)
  | brlSubmit (b : Mbox)
  | brlClose (b : Mbox)
  | brlReadContext (b : Mbox)
  | memLocate (b : Mbox)
  | memTrainLog (b : Mbox)
  | memRetired (b : Mbox)
  | flxLinkInfo (b : Mbox)
  | flxMargin (b : Mbox)
  | flxRetrain (b : Mbox)
  | timRead (b : Mbox)
  | timSet (b : Mbox)
  | timPtpStatus (b : Mbox)
  | trsMuster (b : Mbox)
  | trsCert (b : Mbox)
  | trsOwnerEnrol (b : Mbox)
  | trsFwBegin (b : Mbox)
  | trsFwData (b : Mbox)
  | trsFwEnd (b : Mbox)
  | trsFwActivate (b : Mbox)
  | trsFwConfirm (b : Mbox)
  | trsSvnCommit (b : Mbox)
  | trsRecipients (b : Mbox)
  | trsDebugChallenge (b : Mbox)
  | trsDebugUnlock (b : Mbox)
  | hltSensors (b : Mbox)
  | hltFurlLog (b : Mbox)
  | hltAgeing (b : Mbox)
  | obsSelftest (b : Mbox)
  | obsErrHistory (b : Mbox)
  | obsRetired (b : Mbox)
  | obsUnretire (b : Mbox)
  | obsVector (b : Mbox)
  | obsHalyardArm (b : Mbox)
  | obsHalyardFire (b : Mbox)
  | vddAonRise
  | supplyLoss (aon : Bool)
  | pwrokRise (bootsel : BitVec 3) (mgmtAddr : BitVec 2) (env : BootEnv)
  | pwrokFall
  | sysResetNFall (lowNs : Nat)
  | sysResetNRise (env : BootEnv)
  | perstNFall (lowNs : Nat)
  | perstNRise
  | hotReset
  | dlDown
  | flr
  | dStateChange (d3 : Bool)
  | msixUnmask (vector : Nat)
  | refclkStop
  | crystalLoss (env : BootEnv)
  | trefInLoss
  | trefInRestore
  | trigInEdge (pin : Nat) (rising : Bool) (holdNs : Nat)
  | halyardInEdge (holdNs : Nat)
  | ppsInEdge (rising : Bool)
  | genlockInEdge
  | pmb1Alert (status : List (Nat × Nat))
  | furlVote (cause source : Nat)
  | furlEntryEnd
  | furlRestart (cool : CoolFacts) (env : BootEnv)
  | droop (region : Nat)
  | ethFrameRx (port : Nat) (f : EthFrame)
  | oslFs (shroud vc : Nat) (number : Word)
  | oslFe (shroud vc : Nat) (number : Word)
  | oslLine (shroud : Nat) (p : LongPacket)
  | oslLs (shroud vc line : Nat)
  | oslLe (shroud vc line : Nat)
  | oslStat (shroud vc : Nat) (value : Word)
  | oslEmbedded (shroud : Nat) (p : LongPacket)
  | oslUser (shroud : Nat) (p : LongPacket)
  | hdrCrc (shroud : Nat) (cut : Option LongPacket)
  | orphan (shroud : Nat)
  | badHead (shroud : Nat) (cut : Option LongPacket)
  | alignBlock (shroud : Nat) (period : AlignPeriod) (precode : BitVec 16)
  | slLockLost (shroud : Nat) (lanes : BitVec 16) (f : LockLoss)
  | slHdrErrBurst (shroud lane count : Nat)
  | shroudTrain (shroud : Nat) (t : TrainFacts)
  | shroudTrainTimeout (shroud : Nat)
  | relockTimeout (shroud : Nat)
  | periodicEyeScan
  | loopbackEnd (shroud bits errors : Nat)
  | scpWaitTimeout (sensor : Nat)
  | ledgerTick
  | leakageRefresh
  | telemetryRead (t : Telemetry)
  | telemetryStale (segment address group : Nat)
  | jobStart (master : Nat)
  | jobComplete (tag : Nat) (f : JobFacts)
  | jobRetire (tag : Nat)
  | headTimeout (stream : Nat)
  | frameTimeout (ctx : Nat)
  | armTimeout
  | globalBlockApply
  | probationLimit
  | cfgPersistDone (ok : Bool) (status : Nat)
  | completionPost (session : Nat)
  | msixMessageSend (vector : Nat)
  | sessionExpired (session : Nat)
  | openSlotTimeout (slot : Nat)
  | watchdogExpiry (env : BootEnv)
  | warmResetEntry (env : BootEnv)
  | xtalFail
  | railTimeout
  | pllLockFail
  | railDischarge
  | refresh (pc : Nat)
  | timingRetune
  | stackReading (stack : Nat) (temp : Int)
  | stackUnread (stack : Nat)
  | healthEval (f : HealthFacts)
  | remoteChannelRead (channel : Nat) (f : RemoteFacts)
  | railMonitorRead (channel mv : Nat)
  | avsUpdate (f : AvsFacts)
  | ageingUpdate
  | powerMapReadVout (readings : List (Nat × Nat))
  | powerRampTimeout (entry : Nat)
  | healthClockWrite
  | selftestStart (test : Nat)
  | selftestEnd (test : Nat) (f : TestFacts)
  | selftestRunTimeout (test : Nat) (f : TestFacts)
  | halyardPendingFire
  | timeMatch (m : Nat)
  | tbvCadenceEdge
  | tbvServoUpdate
  | announceReceiptTimeout (base : Nat)
  | ppsInLoss
  | genlockInLoss
  | crystalCorrection
  | xtalStale
  | ppsOutPulse
  | segmentTimeClose (stream : Nat)
  | manifestSigned
  | nvmeCompletion (port : Nat) (f : NvmeFacts)
  | nvmeCommandTimeout (port : Nat)
  | controllerResetDone (port : Nat) (ok : Bool)
  | linkActive (port : Nat) (f : LinkFacts)
  | portRetryDetect (port : Nat)
  | l1Entry (port : Nat)
  | ethSignalLoss (port : Nat)
  | recoveryTimeout (port : Nat)
  | flexMarginScan
  | lut3dLoaded (unit : Nat)
  | decodeBudgetExpiry (tag : Nat) (f : DecFacts)
  | hostDmaDone (b : Mbox) (f : DmaFacts)
  | hdrField (shroud : Nat)
  | badControl (shroud : Nat)
  | eyeScanDone (shroud lane : Nat) (f : EyeFacts)
  | flexMarginDone (yard slot : Nat) (f : MarginFacts)
  | ethLinkUp (port micros : Nat)
  | endpointLinkActive (f : EpFacts)
  | rootPortLinkDown (port : Nat)
  | pcieRecoveryEntry (port : Nat)
  | flxLinkErrors (yard slot correctable uncorrectable : Nat)
  | sramParityError (master bank : Nat)
  | engineLogicFault (master : Nat)
  | lockstepMismatch (pair : Nat)
  | ptpMessageInterval (base kind : Nat)
  | tbvResidualZero
  | perstOutNRelease (port : Nat)
  | crystalRunsAgain
  | railsDischarged
  | firstLineDue (stream : Nat)
deriving DecidableEq, Repr

end Sys2Proof
end

