-- ==== Sys2Proof/WellFormed.lean ====
section
/-! DEFINITION. Which commands can be sent at all: every number that names a part of the block is one the block has, and
every value fits the width that the spec gives it. -/

namespace Sys2Proof

/-- A mailbox that exists (R111, R141). -/
def Mbox.wf : Mbox → Bool
  | .slot n => n < 64
  | .mgmt m => m < 2

/-- A long packet on a virtual channel of R266, of 1 to 65,536 bytes; the data type is a byte of the header (R268), and the line number
15 bits (R263). -/
def LongPacket.wf (p : LongPacket) : Bool :=
  p.vc < 16 && p.dataType < 256 && p.line < 32768 && p.payload.length ≤ 65536 && 0 < p.payload.length

/-- Taps within half the main cursor, in 1/128, and one CTLE setting for each dB from 0 to 15 (R242). -/
def LaneFacts.wf (f : LaneFacts) : Bool :=
  f.sweep.length == 16 && f.ffePre.natAbs ≤ 64 && f.ffePost.natAbs ≤ 64 && f.dfe.natAbs ≤ 64

/-- The training facts of one shroud name its 16 lanes (R218). -/
def TrainFacts.wf (t : TrainFacts) : Bool := t.lanes.length == 16 && t.lanes.all LaneFacts.wf

/-- A shroud of R233. -/
def isShroud (n : Nat) : Bool := n < 56

/-- A drive port: 28 slots of yards 1 to 7 (R455). -/
def isPort (n : Nat) : Bool := n < 28

/-- An Ethernet port: 8 lanes at 100 Gb/s, or 2 ports at 400 Gb/s (R523). -/
def isEth (p : Nat) : Bool := p < 8

/-- Yards 0 to 7 with four slots each (R522). -/
def isYardSlot (y k : Nat) : Bool := y < 8 && k < 4

/-- Well-formedness of a command. -/
def Instr.wf : Instr → Bool
  | .doorbell _ _ | .slotRelease _ _ | .glbHalyardFire _ | .mgDoorbell _ | .mgRelease _ | .mgFurlRelease _ _ _ => true
  | .slotWrite a d | .registerWrite a d => a + d.length ≤ 0x10000000
  | .rw1cClear a _ _ => a % 4 == 0 && a < 0x10000000
  | .loWordRead r => 0 < r.len && r.addr + r.len ≤ 0x10000000
  | .baseSecLoRead b => b < 6
  | .mgmtFrame _ _ => true
  | .sessionOpen b | .sessionClose b | .sessionHeartbeat b | .devInfo b | .devReset b | .sessionOrphans b
  | .eventMask b | .primaryClaim b | .mgmtImageBegin b | .mgmtImageData b | .mgmtImageEnd b | .cfgStageBegin b
  | .cfgStageBlock b | .cfgStageDiscard b | .cfgValidate b | .cfgCommit b | .cfgRollback b | .cfgStatus b
  | .cfgReadBlock b | .nrgCostRead b | .nrgTrace b | .nrgEstimate b | .slRetrain b | .slEyeScan b | .slLoopback b
  | .slTrainLog b | .scpRead b _ | .scpWrite b _ | .capStart b | .capStop b | .capTrigger b | .capSnap b
  | .capRelease b | .capFrameRecord b | .capRead b | .capCounters b | .encForceIrap b | .encPictureRecord b
  | .decSubmit b | .decFlush b | .decRestart b | .decRelease b | .decRecord b | .decRead b | .recStart b | .recStop b
  | .recGrant b | .recRevoke b | .recReport b | .recAck b | .recAdmin b | .recIo b | .recPortReset b | .brlOpen b
  | .brlSubmit b | .brlClose b | .brlReadContext b | .memLocate b | .memTrainLog b | .memRetired b | .flxLinkInfo b
  | .flxMargin b | .flxRetrain b | .timRead b | .timSet b | .timPtpStatus b | .trsMuster b | .trsCert b
  | .trsOwnerEnrol b | .trsFwBegin b | .trsFwData b | .trsFwEnd b | .trsFwActivate b | .trsFwConfirm b
  | .trsSvnCommit b | .trsRecipients b | .trsDebugChallenge b | .trsDebugUnlock b | .hltSensors b | .hltFurlLog b
  | .hltAgeing b | .obsSelftest b | .obsErrHistory b | .obsRetired b | .obsUnretire b | .obsVector b
  | .obsHalyardArm b | .obsHalyardFire b | .hostDmaDone b _ => b.wf
  | .vddAonRise | .supplyLoss _ | .pwrokRise _ _ _ | .pwrokFall | .sysResetNFall _ | .sysResetNRise _
  | .perstNFall _ | .perstNRise | .hotReset | .dlDown | .flr | .dStateChange _ => true
  | .msixUnmask v => v < 256
  | .refclkStop | .crystalLoss _ | .trefInLoss | .trefInRestore => true
  | .trigInEdge p _ _ => p < 4
  | .halyardInEdge _ | .ppsInEdge _ | .genlockInEdge | .pmb1Alert _ => true
  | .furlVote c _ => 0 < c && c < 256
  | .furlEntryEnd | .furlRestart _ _ => true
  | .droop r => r < 8
  | .ethFrameRx p _ => isEth p
  | .oslFs sh vc _ | .oslFe sh vc _ | .oslStat sh vc _ => isShroud sh && vc < 16
  | .oslLs sh vc l | .oslLe sh vc l => isShroud sh && vc < 16 && l < 32768
  | .oslLine sh p | .oslEmbedded sh p | .oslUser sh p => isShroud sh && p.wf
  | .hdrCrc sh c | .badHead sh c => isShroud sh && (match c with | some p => p.wf | none => true)
  | .orphan sh | .alignBlock sh _ _ | .slLockLost sh _ _ | .shroudTrainTimeout sh | .relockTimeout sh
  | .loopbackEnd sh _ _ | .hdrField sh | .badControl sh => isShroud sh
  | .slHdrErrBurst sh l _ | .eyeScanDone sh l _ => isShroud sh && l < 16
  | .shroudTrain sh t => isShroud sh && t.wf
  | .periodicEyeScan => true
  | .scpWaitTimeout n => n < 16
  | .ledgerTick | .leakageRefresh | .telemetryRead _ => true
  | .telemetryStale _ _ g => g < 4
  | .jobStart m => m < 256
  | .jobComplete t _ | .jobRetire t | .decodeBudgetExpiry t _ => t < 4096
  | .headTimeout n | .segmentTimeClose n | .firstLineDue n => n < 32
  | .frameTimeout c => c < 64
  | .armTimeout | .globalBlockApply | .probationLimit | .cfgPersistDone _ _ => true
  | .completionPost n | .sessionExpired n => n < 16
  | .msixMessageSend v => v < 256
  | .openSlotTimeout n => n < 64
  | .watchdogExpiry _ | .warmResetEntry _ | .xtalFail | .railTimeout | .pllLockFail | .railDischarge => true
  | .refresh p => p < 128
  | .timingRetune => true
  | .stackReading k _ | .stackUnread k => k < 4
  | .healthEval _ => true
  | .remoteChannelRead c _ => c < 12
  | .railMonitorRead c _ => c < 24
  | .avsUpdate _ | .ageingUpdate | .powerMapReadVout _ => true
  | .powerRampTimeout e => e < 15
  | .healthClockWrite => true
  | .selftestStart _ | .selftestEnd _ _ | .selftestRunTimeout _ _ | .halyardPendingFire => true
  | .timeMatch m => m < 4
  | .tbvCadenceEdge | .tbvServoUpdate => true
  | .announceReceiptTimeout b | .ptpMessageInterval b _ => b < 5
  | .ppsInLoss | .genlockInLoss | .crystalCorrection | .xtalStale | .ppsOutPulse | .manifestSigned => true
  | .nvmeCompletion p _ | .nvmeCommandTimeout p | .controllerResetDone p _ | .linkActive p _ | .portRetryDetect p
  | .l1Entry p | .recoveryTimeout p | .rootPortLinkDown p | .perstOutNRelease p => isPort p
  | .ethSignalLoss p | .ethLinkUp p _ => isEth p
  | .pcieRecoveryEntry p => isPort p || p == 28
  | .flexMarginScan => true
  | .lut3dLoaded u => u < 16
  | .flexMarginDone y k _ | .flxLinkErrors y k _ _ => isYardSlot y k
  | .endpointLinkActive _ => true
  | .sramParityError m _ | .engineLogicFault m => m < 256
  | .lockstepMismatch p => p < 2
  | .tbvResidualZero | .crystalRunsAgain | .railsDischarged => true

end Sys2Proof
end

