-- ==== Sys2Proof/Decode.lean ====
section
/-! DEFINITION. No row of the opcode table gives bits: a command of this block is an access, an event or a record, and no
word spells one. -/

namespace Sys2Proof

/-- The command that a word of the opcode table's bits spells: none, since no row of the table gives bits. -/
def decodeTableWord (_nbits _w : Nat) : Option Instr := none

end Sys2Proof
end

