-- ==== Sys2Proof/Config.lean ====
section
/-! DEFINITION. What one unit or one standard fixes and the spec does not give: uninterpreted constants. No one of them
has a body, so no statement can rest on a value of theirs. -/

namespace Sys2Proof.Config

/-- Free values: the n-th value that the spec leaves open in a run (assumption 2). -/
opaque freeNat : Nat → Nat

/-- Free choices: the n-th choice that the spec leaves open in a run (assumption 2). -/
opaque freeBool : Nat → Bool

/-- The code that a Mash job finds at a row and column of the frame outside the bands that it reads, in its n-th draw: R366 and R370
name sites beyond the rows that R365 and R384 let it read (assumption 4). -/
opaque beyondSupport : Nat → Nat → Nat → Nat

/-- The natural logarithm of 0, which R347 asks for where a magnitude is 0 and does not state. -/
opaque lnOfZero : Rat

/-- Byte i of fuse field f as manufactured (R577): 0 ROOT_HASH, 1 SERIAL, 2 SUBSYS, 3 STEPPING (assumption 3). -/
opaque fuse : Nat → Nat → Byte

/-- The unit's leakage L at 100 °C and 0.80 V in mW, from the fuses (R630). -/
opaque leakageMw : Nat

/-- The contents of the non-volatile store as delivered: 0 first stage, 1 Nimlek image, 2 identity certificate. -/
opaque factory : Nat → List Byte

/-- The response P of the physically unclonable function, followed by SEED: the secret that Cask alone reads (R582). -/
opaque pufSeed : List Byte

/-- ML-DSA-87 key generation of FIPS 204: the public key of seed ξ (R575). -/
opaque dsaKeyGen : List Byte → List Byte

/-- ML-DSA-87 signature in the hedged mode: of seed ξ, over a message, with the n-th random value. -/
opaque dsaSign : List Byte → List Byte → Nat → List Byte

/-- ML-DSA-87 verification: public key, message, signature. -/
opaque dsaVerify : List Byte → List Byte → List Byte → Bool

/-- ML-KEM-1024 encapsulation to a key with the n-th random value: shared secret and ciphertext. -/
opaque kemEncaps : List Byte → Nat → List Byte × List Byte

/-- The n-th 32 bytes of Cask's entropy source. -/
opaque entropy : Nat → List Byte

/-- Whether a level of ISO/IEC 21122-2 admits a picture of this width and height at this bits per pixel × 16 and frame rate. -/
opaque xsLevelAdmits : Nat → Nat → Nat → Nat → Bool

/-- The Ppih of a JPEG XS profile of R402: 1 Main 422.10, 2 Main 444.12, 3 High 444.12, 4 the CFA profile. -/
opaque ppih : Nat → Nat

/-- The levels and sublevels of ISO/IEC 21122-2 but for the unrestricted ones, lowest first, each with its code. -/
opaque xsLevels : List Nat
opaque xsSublevels : List Nat

/-- Whether a level admits a width, height and frame rate, and a sublevel a level and bits per pixel × 16. -/
opaque xsLevelFits : Nat → Nat → Nat → Nat → Bool
opaque xsSublevelFits : Nat → Nat → Nat → Bool

/-- A sample of a motion-search pyramid from the 8-bit luma samples that it covers (R405). -/
opaque pyramidSample : List Nat → Nat

/-- The SATD of a block of differences, row by row (R405). -/
opaque satd : List (List Int) → Nat

/-- λ × vector bits of a vector in quarter samples at a QP (R405). -/
opaque vectorCost : Nat → Int → Int → Nat

/-- Whether the profile of ISO/IEC 21122-2 that R402 names admits these wavelet levels, NL,x and NL,y, for a source. -/
opaque xsProfileAdmits : Nat → Nat → Nat → Bool

/-- The choice the firmware makes among n possibilities that the spec leaves to it, at its k-th such choice (assumption 2). -/
opaque pick : Nat → Nat → Nat

/-- Jobs that the queue of an engine holds, less one, where the spec gives no depth: Barrel, Cask, recorder, streamer, decoder
and self-test (R203). -/
opaque queueDepth : Nat → Nat

/-- The logical address of the descriptor of the job with this number (R659). -/
opaque descriptor : Nat → Nat

/-- The clockIdentity and port numbers of the device's PTP ports (R565). -/
opaque portIdentity : Nat → List Byte

/-- The ST 352 payload identifier of a link mode, a link of it and frames per second (R472): the spec gives no bytes of it. -/
opaque st352 : Nat → Nat → Nat → List Byte

end Sys2Proof.Config
end

