-- ==== Sys2Proof/Machine/Types.lean ====
section
/-! DEFINITION. The records that State is made of, for the board, the mailboxes, the generations and the ledger. -/

namespace Sys2Proof.Machine

/-- A memory in canonical form: addresses strictly rising, no entry equal to 0, which is what an unlisted address reads as. -/
abbrev Mem := List (Nat × Byte)

/-! ## Board, power, reset and boot (chapters 02 and 03) -/

/-- The board conditions of R61. -/
inductive Condition where
  | absent | unpowered | reset | furled | running
deriving DecidableEq, Repr

/-- Where the boot stands (R102–R106): the four waiting points are those at which a row of the table may stop it. -/
inductive BootStage where
  | idle
  | waitDischarge
  | waitXtal
  | waitRails
  | waitPll
  | waitFirstStage
  | waitNimlek
  | stopped
  | running
deriving DecidableEq, Repr

/-- The groups of outputs of R66 that hold a level once their party has first driven them. MGMT_MISO is driven only within
a frame, and open-drain ALERT_N and THERMTRIP_N have levels of their own. -/
inductive PinGroup where
  | pwrEn | pmbus (segment : Nat) | bootSpi
  /-- SREF output of a group of four shrouds; the control port and FSYNC_OUT of a sensor. -/
  | sref (group : Nat) | scp (sensor : Nat) | fsync (sensor : Nat)
  | lanes (yard : Nat) | gpio (pin : Nat) | ppsOut | halyardOut | alert | tdo
deriving DecidableEq, Repr

/-- The always-on domain, the pins and the boot. -/
structure Power where
  condition     : Condition
  vddAon        : Bool
  vddio         : Bool
  pwrok         : Bool
  sysResetN     : Bool
  perstN        : Bool
  /-- The straps as sampled at the last rising edge of PWROK (R72). -/
  bootsel       : BitVec 3
  mgmtAddr      : BitVec 2
  /-- The cause that the next PWROK edge records (R87). -/
  coldCause     : Byte
  /-- The boot that comes is that of a cold reset. -/
  bootCold      : Bool
  resetCause    : Byte
  warmCount     : Nat
  linkResets    : BitVec 32
  bootCode      : Byte
  bootStage     : BootStage
  env           : BootEnv
  /-- The PWR_EN pins that are driven high (R97, R101). -/
  pwrEn         : List Bool
  /-- The groups of outputs that have been driven since RESET (R66); every other one is high-impedance (R62). -/
  driven        : List PinGroup
  /-- The source that each SREF output gives, as in R254; 0 off (R81, R241). -/
  sref          : List Nat
  thermtripLow  : Bool
  xtalQualified : Bool
  /-- The always-on domain runs from the crystal (R78). -/
  aonOnXtal     : Bool
  pllLocked     : Bool
  railsUp       : Bool
  vout          : List Nat
  /-- The Mast part of the boot ROM, the first stage or Nimlek runs. -/
  mastRuns      : Bool
  watchdogOn    : Bool
  /-- A warm reset by command that waits for the open manifests (R91): its cause and when it was asked. -/
  warmPending   : Option (Byte × Nanos)
  /-- TBM when PERST_N fell (R153). -/
  perstFallTbm  : Nanos
  orphanedCount : Nat
  /-- LINK_RESET_SEEN waits for PERST_N to rise (R136). -/
  linkOwed      : Bool
  crystalRuns   : Bool
  fellBack      : Bool
  bootSource    : Nat
  heartbeat     : BitVec 32
  /-- Nanoseconds since VDD_AON rose, as the always-on domain counts them. -/
  aonNs         : Nanos
  /-- The always-on log buffer, at most 64 KiB (R89, R93, R624). -/
  aonLog        : List Byte
deriving DecidableEq, Repr

/-! ## Mailboxes, sessions and rings (chapter 04) -/

/-- The slot states of R112. -/
inductive SlotState where
  | idle | rung | busy | held
deriving DecidableEq, Repr

/-- One mailbox slot; its bytes are in the message memory. -/
structure Slot where
  st        : SlotState
  owner     : Option Nat
  /-- The session has closed: the slot is granted to nobody once it is IDLE (R133). -/
  closing   : Bool
  /-- Its session has expired: doorbells are rejected SESSION_INVALID until the slot is granted again (R132). -/
  expired   : Bool
  /-- When an open slot took its completion (R114). -/
  heldSince : Nanos
  /-- The session whose doorbell rang it, and the doorbell's number in the order of ringing (R117). -/
  user      : Option Nat
  rang      : Nat
  /-- The session has been opened anew since the doorbell: at which doorbell, and the number that the former session expects. -/
  former    : Option (Nat × BitVec 32)
deriving DecidableEq, Repr

/-- One host session (R128–R134). -/
structure Session where
  isOpen     : Bool
  /-- Its SESSION_CLOSE has been executed, and waits for room in the ring (R116, R145). -/
  closing    : Bool
  primary    : Bool
  expected   : BitVec 32
  heartbeat  : Nat
  lastTaken  : Nanos
  lastSeq    : BitVec 32
  prod       : Nat
  cons       : Nat
  /-- PHASE of the next record written (R127). -/
  phase      : Bool
deriving DecidableEq, Repr

/-- One management mailbox (R141). -/
structure MgBox where
  st       : SlotState
  expected : BitVec 32
  cpl      : List Byte
deriving DecidableEq, Repr

/-- A command that the firmware has taken: its header (R118) and payload. -/
structure Cmd where
  box     : Mbox
  opcode  : Nat
  flags   : Nat
  session : Nat
  seq     : BitVec 32
  len     : Nat
  target  : Nat
  ctx     : Nat
  cookie  : List Byte
  payload : List Byte
deriving DecidableEq, Repr

/-- A command with its ACCEPTED completion posted, whose final completion a later step posts. `orphan`: its session has closed. -/
structure ExecCmd where
  cmd    : Cmd
  orphan : Bool
  /-- What the command waits for, as its own row says (a port, a job, a generation). -/
  key    : Nat
  args   : List Nat
  /-- A link reset has stopped its host transfer (R528, R542). -/
  cut    : Bool
deriving DecidableEq, Repr

/-- A completion that waits for room in its ring (R127). -/
structure WaitCpl where
  cmd      : Cmd
  orphan   : Bool
  status   : Nat
  result   : List Byte
  response : Option (List Byte)
  final    : Bool
  /-- The first completion of its command (R129). -/
  first    : Bool
deriving DecidableEq, Repr

/-- The 32-byte completion record of R125, as kept in the orphan log with the session's ID (R150). -/
structure Orphan where
  session : Nat
  bytes   : List Byte
deriving DecidableEq, Repr

/-- An image that arrives over a management mailbox (R152). -/
structure ImageIn where
  kind  : Nat
  total : Nat
  data  : List Byte
deriving DecidableEq, Repr

/-- The mailboxes, rings and sessions. -/
structure Ncp where
  slots      : List Slot
  sessions   : List Session
  mg         : List MgBox
  /-- Bytes of the slots and rings at their BAR0 offsets, and of MB0 and MB1 at 2³² + their management location. -/
  mem        : Mem
  rejectBits : BitVec 64
  lastRejectSlot   : Nat
  lastRejectReason : Nat
  writesIgnored    : Nat
  doorbellsRejected : Nat
  exec       : List ExecCmd
  waiting    : List WaitCpl
  orphans    : List Orphan
  eqProd     : Nat
  eqCons     : Nat
  eqPhase    : Bool
  eqLost     : BitVec 32
  /-- Events lost since the last EVENTS_LOST (R153). -/
  eqLostSince : Nat
  eventMask  : BitVec 32
  intSummary : BitVec 32
  globalCause : BitVec 32
  imageIn    : Option ImageIn
  fwVersion  : Bool
  /-- Doorbells accepted so far. -/
  rings      : Nat
deriving DecidableEq, Repr

/-! ## Configuration generations (chapter 05) -/

/-- A configuration block: its header fields (R154) and its payload. -/
structure Block where
  type    : Nat
  version : Nat
  target  : Nat
  flags   : Nat
  payload : List Byte
deriving DecidableEq, Repr

/-- A block of the STAGED generation whose chunks are still arriving (R184). -/
structure Partial where
  header : Block
  total  : Nat
deriving DecidableEq, Repr

/-- A generation: its number and its blocks, sorted by type and target (R159). -/
structure Gen where
  number     : Nat
  blocks     : List Block
  incomplete : List Partial
deriving DecidableEq, Repr

/-- An affected context whose apply point has come, and the frames that it has landed since (R174). -/
structure Landed where
  ctx      : Nat
  frames   : Nat
  sinceTbm : Nanos
  /-- The context has captured during probation. -/
  captured : Bool
deriving DecidableEq, Repr

/-- Probation of R174. -/
structure Probation where
  frames   : Nat
  limitMs  : Nat
  startTbm : Nanos
  landed   : List Landed
  affected : List Nat
deriving DecidableEq, Repr

/-- The contexts whose apply point comes now start their probation. -/
def Probation.reach (p : Probation) (cs : List Nat) (t : Nanos) : Probation :=
  let new := cs.filter (fun c => p.affected.contains c && !p.landed.any (·.ctx == c))
  let fresh (c : Nat) : Landed := { ctx := c, frames := 0, sinceTbm := t, captured := false }
  { p with landed := p.landed ++ new.map fresh }

/-- What arms a generation: CFG_COMMIT, CFG_ROLLBACK or an automatic rollback (R162). -/
inductive ArmKind where
  | commit | rollback
  /-- Automatic rollback: the failed number, the R175 row and the context. -/
  | auto (failed row ctx : Nat)
deriving DecidableEq, Repr

/-- The generations and what applies them. -/
structure Cfg where
  staged    : Option Gen
  armed     : Option Gen
  live      : Option Gen
  previous  : Option Gen
  armKind   : ArmKind
  armTbm    : Nanos
  armTimeoutMs : Nat
  persistReq : Bool
  /-- The type and target of every changed block of the ARMED generation that has not applied. -/
  unapplied : List (Nat × Nat)
  /-- The shadow copies latched at the apply points (R181). -/
  inForce   : List Block
  probation : Option Probation
  /-- Generations whose persist copies are to be written, the one being written first (R179). -/
  persisting : List Gen
deriving DecidableEq, Repr

/-- The ARMED generation failed while still ARMED: the blocks of the LIVE one return to force (R176). -/
def Cfg.undoing (c : Cfg) : Bool :=
  match c.armed, c.armKind with
  | some g, .auto failed _ _ => g.number == failed
  | _, _ => false

/-- The generation whose changed blocks are taking effect: the ARMED one, or the LIVE one where an ARMED one has failed. -/
def Cfg.arming (c : Cfg) : Option Gen :=
  match c.armed with
  | some g => if c.undoing then c.live else some g
  | none => none

/-! ## The energy ledger (chapter 06) -/

/-- One window of the trace that NRG_TRACE returns (R216). -/
structure TraceEntry where
  window   : Nat
  credit   : Nat
  baseline : Nat
  charges  : List Nat
  reef     : Nat
  debt     : Bool
  closed   : Bool
  stopped  : Bool
  bank     : Nat
  carry    : Int
  admitted : Nat
deriving DecidableEq, Repr

/-- The ledger. Energies are exact numbers of µJ, powers of mW; the registers show them rounded down. -/
structure Ledger where
  started    : Bool
  window     : Nat
  bank       : Rat
  carry      : Rat
  pEff       : Rat
  reefAtTick : Nat
  debt       : Bool
  stopped    : Bool
  credit     : Rat
  baseline   : Rat
  charges    : List Rat
  served     : List (BitVec 32)
  deferred   : List (BitVec 32)
  refused    : List (BitVec 32)
  waited     : List (BitVec 32)
  reasons    : List (BitVec 32)
  /-- Correction factors in force, and those that apply from the next tick (R198). -/
  factors    : List Rat
  nextFactors : List Rat
  /-- Energy charged to each rail group since the last telemetry reading, in µJ (M_g of R198). -/
  chargedGroup : List Rat
  /-- When each rail group's telemetry was last read. -/
  telemetryTbm : List Nanos
  staleGroups : List Bool
  measuredMw : Nat
  leakage    : Rat
  /-- Bytes landed since the last tick, tag-plane entries included. -/
  landedBytes : Nat
  /-- Bits received since the last tick by lanes that have stopped receiving since (R191). -/
  rxBits     : Rat
  trace      : List TraceEntry
  refusalsSince : List Nat
  lastRefusalEvent : Option Nanos
  lastOverrunEvent : Option Nanos
deriving DecidableEq, Repr

/-! ## Sensor lanes (chapter 07) -/

/-- The shroud states of R245. -/
inductive ShroudSt where
  | off | quiet | cdr | align | ident | scramble | eq | precode | active | relock | test | failed
deriving DecidableEq, Repr

/-- One physical lane of a shroud: the fields of its SLN registers and of its training log. -/
structure Lane where
  signal    : Bool
  cdrLock   : Bool
  blockLock : Bool
  logical   : Option Nat
  inverted  : Bool
  precodes  : Bool
  slip      : Nat
  ctle      : Nat
  ffePre    : Int
  ffePost   : Int
  dfe       : Int
  hdrErr    : BitVec 32
  lockLoss  : Nat
  eyeH      : Nat
  eyeV      : Nat
  /-- When the last eye scan was taken (R252). -/
  scanTbm   : Option Nanos
  prbsErr   : Nat
  /-- Training log: slip offset found, candidates tried and form (R259). -/
  foundSlip : Option Nat
  candidates : Nat
  form      : Nat
  /-- The training word that the last search found (R232, R247). -/
  word      : Option (List Byte)
  retired   : Bool
  /-- When a burst of this lane was last logged (R251). -/
  burstTbm  : Option Nanos
  /-- An eye-margin scan of the lane runs (R252). -/
  scanning  : Bool
deriving DecidableEq, Repr

/-- One shroud, with its landing FIFO. -/
structure Shroud where
  st         : ShroudSt
  failReason : Nat
  /-- The SHROUD_SET entry in force, 32 bytes, or none. -/
  entry      : Option (List Byte)
  lanes      : List Lane
  permuted   : Bool
  anyInverted : Bool
  skew       : Nat
  deskewErr  : Nat
  /-- The last ALIGN period was out of step (R237). -/
  deskewRun  : Bool
  trainUs    : Nat
  relocks    : Nat
  trainings  : Nat
  badControl : Nat
  passes     : Nat
  /-- When RELOCK was entered, latest first (R250). -/
  relockTbm  : List Nanos
  lastBurstEvent : Option Nanos
  /-- The lane under loopback. -/
  testLane   : Option Nat
  /-- When the training that has not ended began, and when it wrote LTC_STATE = TRAIN (R246, R248). -/
  trainTbm   : Option Nanos
  trainAt    : Option Nanos
  /-- When the lanes began to receive, or were last charged for it (R191). -/
  rxTbm      : Nanos
  fifoPeak   : Nat
  fifoLevel  : Nat
  fifoDropped : Nat
  /-- When lines were dropped, newest first, and when the level was last brought up to date. -/
  fifoDrops  : List Nanos
  fifoTbm    : Nanos
  lastFifoHigh : Option Nanos
  lastFifoOverflow : Option Nanos
deriving DecidableEq, Repr

/-! ## Sensor link and landing (chapters 08 and 09) -/

/-- A time of a base: seconds, nanoseconds and fraction in units of 2⁻³² ns, as one number of 2⁻³² ns. -/
abbrev BaseTime := Int

/-- The record of a frame (R310), with what the device latched for it at FS (R43). -/
structure Frame where
  seq        : BitVec 32
  number     : BitVec 32
  ctx        : Nat
  mode       : Nat
  state      : Nat
  reason     : Nat
  slot       : Option Nat
  addr       : Nat
  tagBase    : Nat
  genNumber  : Nat
  linkFlags  : BitVec 32
  landFlags  : BitVec 32
  outcome    : BitVec 32
  created    : Nat
  retired    : Nat
  /-- A job of the frame has had an outcome. -/
  hasOutcome : Bool
  trigIndex  : Int
  /-- Times of the opening FS and of the close on TBM, in units of 2⁻³² ns. -/
  fsTbm      : Nat
  fsBase     : BaseTime
  closeTbm   : Nat
  timeBase   : Nat
  closeCause : Nat
  embedBytes : Nat
  width      : Nat
  height     : Nat
  depth      : Nat
  pad        : Nat
  slotSize   : Nat
  /-- The per-context blocks latched at FS. -/
  blocks     : List Block
  jobsPending : Nat
  reads      : Nat
  /-- FIRST for the temporal reference, and whether a changed 0x0201 or 0x0301 block applied at its FS (R335). -/
  first      : Bool
  genReset   : Bool
  finalCounted : Bool
  /-- The firmware has still to create jobs of the frame (R299). -/
  creating   : Bool
  /-- Its RAW units exist, or need not (R452). -/
  rawMade    : Bool
  /-- RAW units and records that still need the slot (R461). -/
  holds      : Nat
  /-- The landed frame before it in its context: sequence, FS on TBM in 2⁻³² ns, link flags (R335). -/
  prev       : Option (BitVec 32 × Nat × BitVec 32)
  /-- The memory ranges that the frame's blocks lay out, latched at FS: use and first address (R44). -/
  ranges     : List (Nat × Nat)
  /-- Its context's ring has been laid out anew since: the frame frees as R299 decides, whatever its mode (R683). -/
  oldRing    : Bool
deriving DecidableEq, Repr

/-- A frame that is open at the line assembler. -/
structure OpenFrame where
  ctx       : Nat
  vc        : Nat
  number    : BitVec 32
  /-- TBM of its opening, from which the frame timeout runs (R272). -/
  openTbm   : Nanos
  /-- Landing sequence; none for a discarded frame (R307). -/
  seq       : Option (BitVec 32)
  lands     : Bool
  fsFrom    : List Nat
  feFrom    : List Nat
  /-- Bit n: row n has arrived. -/
  rowsIn    : Nat
  /-- Bit n: row n was filled with the pad value as missing (R273, R275). -/
  rowsPad   : Nat
  bands     : Nat
  /-- Link flags so far, and the LINK_CONTEXT latched at FS. -/
  flags     : BitVec 32
  link      : List Byte
  embedBytes : Nat
  userBytes : Nat
deriving DecidableEq, Repr

/-- One sensor: its line assembler, its control port and the SLK counters. -/
structure Sensor where
  openFrames : List OpenFrame
  /-- Closed frames: virtual channel and frame number (R272, STRAY). -/
  lastClosed : List (Nat × BitVec 32)
  lastFs     : BitVec 32
  lastStat   : BitVec 32
  hdrCrc     : Nat
  payloadCrc : Nat
  badHead    : Nat
  hdrField   : Nat
  noFrame    : Nat
  stray      : Nat
  orphan     : BitVec 32
  marker     : Nat
  unbound    : Nat
  shortLines : Nat
  longLines  : Nat
  shortFrames : Nat
  flagged    : Nat
  scpErr     : Nat
  /-- 0 off, 1 idle, 2 busy, 3 fault. -/
  portState  : Nat
  /-- The SENSOR_SET entry in force, 16 bytes. -/
  entry      : Option (List Byte)
  railsUp    : Bool
  statEvents : List Nanos
  lsPending  : List (Nat × Nat × Nat)
  lastLine   : List (Nat × Nat × Nat)
  /-- Host transfers that wait for the port, and since when (R284). -/
  scpWait    : List (Cmd × Nanos)
  /-- The SENSOR_SET entry that FSYNC_OUT follows: the one in force from its first cadence edge on (R286). -/
  fsyncOn    : Option (List Byte)
deriving DecidableEq, Repr

/-- The capture states of R293. -/
inductive CapSt where
  | stopped | running | postTrigger | frozen
deriving DecidableEq, Repr

/-- One context. -/
structure Context where
  st          : CapSt
  startPending : Bool
  stopPending : Bool
  nextSeq     : BitVec 32
  /-- Frames that hold a slot. -/
  frames      : List Frame
  refusalLog  : List Frame
  /-- Slots of the ring, its base address, slot size and tag base. -/
  slotCount   : Nat
  ringBase    : Nat
  slotSize    : Nat
  tagBase     : Nat
  lastSlot    : Option Nat
  slotsWritten : Nat
  wrapped     : Bool
  /-- Frames landed since the ring last started (R303). -/
  landedSince : Nat
  snapLeft    : Nat
  snapOpen    : Nat
  snapFirst   : BitVec 32
  snapLanded  : Nat
  /-- A trigger waits for the next frame to open: its time and source (R303). -/
  trigWait    : Option (Nanos × Nat)
  trigSeq     : Option (BitVec 32)
  postLeft    : Nat
  counts      : List (BitVec 32)
  firstNext   : Bool
  lastFlaggedEvent : Option Nanos
  lastRefusingEvent : Option Nanos
  refusedSince : Nat
  flaggedSince : Nat
  latestRefused : BitVec 32
  /-- A BURST ring has frozen and its RAW units are still to be created (R452). -/
  drain       : Bool
deriving DecidableEq, Repr

/-! ## Jobs (chapter 01) and the developer (chapters 10 and 11) -/

/-- What a job does (R34). -/
inductive JobKind where
  | steepBand | flicker | mashBand | xsRow | hevcRow | decPicture | barrel | caskUnit | caskManifest | recWrite | outUnit
  | selftest | migration
deriving DecidableEq, Repr

/-- The life of a job (R35); a RETIRED job has left the list. -/
inductive JobSt where
  | pending | issued | running | complete
deriving DecidableEq, Repr

/-- One job. -/
structure Job where
  id       : Nat
  kind     : JobKind
  st       : JobSt
  cls      : Nat
  ctx      : Option Nat
  frame    : BitVec 32
  /-- The generation whose parameters the job uses (R43). -/
  gen      : Nat
  /-- Band, row, picture, unit or stripe number, as the kind says. -/
  unit     : Nat
  /-- The encoding, output, decode stream, Barrel context or recording stream concerned. -/
  object   : Nat
  /-- The streams the unit goes to, with its sequence number in each (R45). -/
  streams  : List (Nat × Nat)
  /-- The jobs that must have ended first (R42), and those that must have retired first. -/
  deps     : List Nat
  depsRetired : List Nat
  /-- Cost kinds and units (R196). -/
  units    : List (Nat × Nat)
  deadline : Option Nanos
  pendingTbm : Nanos
  pendingWindow : Nat
  waits    : Nat
  tag      : Option Nat
  engine   : Nat
  startTbm : Nanos
  /-- When an engine took it from its queue (R35, R430). -/
  runTbm   : Nanos
  /-- When it became COMPLETE. -/
  endTbm   : Nanos
  status   : Nat
  outcome  : BitVec 32
  /-- Its BURST frame has been superseded (R21). -/
  superseded : Bool
  /-- Its frame's record counts it, and its slot waits for it (R299, R310). -/
  counted  : Bool
  args     : List Nat
  data     : List Byte
deriving DecidableEq, Repr

/-- One engine: its running job, its queue and what its last job was. -/
structure Engine where
  master   : Nat
  queue    : List Nat
  running  : Option Nat
  jobs     : BitVec 32
deriving DecidableEq, Repr

/-- An output frame that a frame holds (R386): its output, its index among the B frames, the row map, the tile rows whose
job has ended, and the reads and sendings that keep it. -/
structure OutFrame where
  out     : Nat
  index   : Nat
  missing : Nat
  ended   : Nat
  reads   : Nat
deriving DecidableEq, Repr

/-- The Steep and Mash progress of one frame, from which its records are made (R350, R388). The frame is as it was when its
first job was created. Bitmaps have bit b for band b. -/
structure FrameDev where
  ctx        : Nat
  seq        : BitVec 32
  frame      : Frame
  /-- Steep bands whose jobs are created, have ended, and have retired; the lost ones. -/
  steepMade  : Nat
  steepEnded : Nat
  steepRetired : Nat
  steepLost  : Nat
  steepOutcome : Option (BitVec 32)
  dynamic    : Nat
  unconcealed : Nat
  clipped    : Nat
  overrange  : Nat
  underrange : Nat
  tilesReset : Nat
  resetCause : Nat
  /-- A band had no valid reference through cause 6. -/
  bandReset  : Bool
  motionSum  : Rat
  motionTiles : Nat
  substituted : Nat
  workFrame  : Option Nat
  /-- Its output frames have been claimed (R386). -/
  claimed    : Bool
  mashMade   : Nat
  mashEnded  : Nat
  mashRetired : Nat
  mashLost   : Nat
  mashOutcome : Option (BitVec 32)
  rowsWritten : Nat
  rowsMissing : Nat
  clipMarked : Nat
  reconstructed : Nat
  nonFinite  : Nat
  meanSums   : List Rat
  meanCounts : List Nat
  mashSubst  : Nat
  /-- Spans of the scaler grid whose pixels the record has counted: row, first column, number (R388). -/
  scanned    : List (Nat × Nat × Nat)
  outFrames  : List OutFrame
  /-- Host reads of the working frame or reference that run. -/
  reads      : Nat
deriving DecidableEq, Repr

/-- One flicker series or profile under collection (R343–R345). -/
structure FlickTap where
  sums     : List Nat
  counts   : List Nat
deriving DecidableEq, Repr

/-- What a frame has in a ring of 256 frames: its place, and the bytes. -/
structure RingItem where
  seq   : BitVec 32
  slot  : Nat
  bytes : List Byte
deriving DecidableEq, Repr

/-- A ring of 256 frames, oldest overwritten first (R351, R389): the place that is written next, and what it holds, newest first. -/
structure FrameRing where
  next  : Nat
  items : List RingItem
deriving DecidableEq, Repr

/-- Steep's state of one context. -/
structure SteepCtx where
  blocks     : List Block
  rowTap     : FlickTap
  series     : FlickTap
  seriesFirst : BitVec 32
  seriesFirstTbm : Nat
  seriesLastTbm : Nat
  seriesFrames : Nat
  strideSum  : Nat
  strideCount : Nat
  frameCounter : Nat
  /-- Band jobs of the last frames that completed OK: sequence and band (R335, cause 6). -/
  bandsOk    : List (BitVec 32 × Nat)
  /-- Address of a reference buffer, and the frame that wrote it last (R351). -/
  refWrites  : List (Nat × BitVec 32)
  /-- The last landed frame: sequence, FS on TBM in 2⁻³² ns, link flags. -/
  lastLanded : Option (BitVec 32 × Nat × BitVec 32)
  /-- 64-byte Steep records, flicker records and row profiles by frame. -/
  records    : FrameRing
  flickers   : FrameRing
  profiles   : FrameRing
  lastFinalSeq : BitVec 32
  lastUnconcealed : Nat
  lastDynamic : Nat
  lastResetCause : Nat
  refValid   : Bool
  resets     : BitVec 32
  rowResult  : Nat
  rowFreq    : Nat
  rowAmp     : Nat
  rowPhase   : Nat
  frmResult  : Nat
  frmFreq    : Nat
  frmAmp     : Nat
  frmPhase   : Nat
deriving DecidableEq, Repr

/-- Mash's state of one context. -/
structure MashCtx where
  records    : FrameRing
  done       : List (BitVec 32)
  missing    : BitVec 32
  lastSeq    : BitVec 32
  lastClipped : Nat
  nonFinite  : BitVec 32
deriving DecidableEq, Repr

/-- The state of a 3D LUT unit (MSH_LUT3D_u). -/
structure LutUnit where
  st      : Nat
  ctx     : Nat
  lut     : Nat
  table   : List Byte
deriving DecidableEq, Repr

/-! ## Encodings (chapter 12) and decode streams (chapter 13) -/

/-- Marker segments of a JPEG XS codestream: what opens and closes a picture, and the header of a slice (R398). -/
inductive XsMarker where
  | soc | cap | pih | cdt | wgt | cts | crg | slh (row : Nat) | eoc
deriving DecidableEq, Repr

/-- NAL units of an HEVC picture (R404); a slice segment carries the number of its CTU row. -/
inductive NalKind where
  | aud | vps | sps | pps | slice (row : Nat) | pictureHash
deriving DecidableEq, Repr

/-- What an HEVC core works with in a row (R404, R405): the row of the source as it codes it, luma, Cb and Cr; the rows of the two
pyramid levels and of the reconstruction; the vectors kept at level 1, by CTU and reference; the final vectors in quarter samples. -/
structure RowWork where
  source  : List (List Nat) × List (List Nat) × List (List Nat)
  level1  : List (List Nat)
  level2  : List (List Nat)
  recon   : List (List Nat)
  kept    : List (List (List (Int × Int)))
  vectors : List (PuFacts × Int × Int)
deriving DecidableEq, Repr

/-- A picture kept as a reference: its reconstruction and its pyramid (R405, R406). -/
structure RefPicture where
  number : Nat
  poc    : Nat
  anchor : Bool
  /-- Where its reconstruction lies in the encoding's memory (R684). -/
  place  : Option Nat
  recon  : List (List Nat)
  level1 : List (List Nat)
  level2 : List (List Nat)
deriving DecidableEq, Repr

/-- What an HEVC stream's hrd_parameters say (R415): cbr_flag, bit rate in kb/s and CPB size in kb. -/
structure Hrd where
  cbr     : Bool
  bitRate : Nat
  cpbSize : Nat
deriving DecidableEq, Repr

/-- What the headers of a picture signal (R402, R404): for JPEG XS the profile's Ppih, the level, the sublevel and the colour transform;
for HEVC profile, level and tier, bit depth, chroma format and sample location, the Mash output's encoding and matrix, the range flag,
the hrd_parameters where they are written, and the frame rate. -/
inductive Signals where
  | absent
  | xs (ppih level sublevel transform : Nat)
  | hevc (profile level tier depth chroma : Nat) (chromaLoc : Nat) (colour : Nat × Nat) (full : Bool) (hrd : Option Hrd) (rate : Nat)
deriving DecidableEq, Repr

/-- One row of an open picture. -/
structure EncRow where
  issued   : Bool
  allow    : Nat
  step     : Nat
  size     : Nat
  /-- The job exists; it has ended; it has retired. -/
  made     : Bool
  ended    : Bool
  retired  : Bool
  floored  : Bool
  lost     : Bool
  missing  : Bool
  status   : Nat
  /-- JPEG XS: Q and R of its step, and the marker segments that its unit carries (R398, R403). HEVC: its NAL units, and what its core
  worked with. -/
  quant    : Nat × Nat
  markers  : List XsMarker
  nals     : List NalKind
  work     : RowWork
deriving DecidableEq, Repr

/-- A picture of an encoding, from the creation of its row jobs until its record is final. -/
structure Picture where
  number   : Nat
  seq      : BitVec 32
  /-- Its first row has been issued: B, q_p and the estimates are fixed. -/
  begun    : Bool
  type     : Nat
  refresh  : Nat
  poc      : Nat
  budget   : Int
  target   : Nat
  qp       : Nat
  flooredAt : Bool
  /-- Σ e_k(q_p), exact, and the rows' estimates at q_p (R410). -/
  estSum   : Rat
  ests     : List Rat
  rows     : List EncRow
  /-- The jobs of the rows, and the coding number of every picture that it references. -/
  jobs     : List Nat
  firstUnit : Nat
  outcome  : Option (BitVec 32)
  /-- Later pictures reference it. -/
  isRef    : Bool
  ctx      : Nat
  /-- The source frame's blocks, and its entry. -/
  blocks   : List Block
  entry    : List Byte
  signals  : Signals
  /-- HEVC: where its reconstruction lies in the encoding's memory. -/
  place    : Option Nat
deriving DecidableEq, Repr

/-- One encoding (R397). -/
structure Encoding where
  ctx      : Option Nat
  codec    : Nat
  entry    : List Byte
  /-- A generation has removed or replaced it: its number, and the first frame that it no longer codes (R44). -/
  replaced : Option (Nat × BitVec 32)
  /-- The encoder block and the block of the source's Mash output that the last picture planned used (R407, R423). -/
  used     : Option (List Byte × List Byte)
  /-- The encoder block of the last picture begun: V, the estimates and the targets are its own (R408, R423). -/
  begun    : Option (List Byte)
  /-- Target of a picture by its type: I, P, B (R408). -/
  targets  : List Nat
  next     : Nat
  reservoir : Int
  /-- Size and step of each row, by picture type, in the last picture that coded it above the floor (R410). -/
  history  : List (List (Option (Nat × Nat)))
  /-- CPB fullness at the next removal, for HRD (R411, R415). -/
  cpb      : Rat
  /-- Pictures whose record is not final, in coding order. -/
  pics     : List Picture
  /-- HEVC: the pictures of the GOP that later ones may reference, the newest in coding order first. -/
  refs     : List RefPicture
  /-- Source frames that wait, in output order (R406). -/
  waiting  : List (BitVec 32)
  /-- Position of the next picture in its intra period, in output order. -/
  gopPos   : Nat
  refresh  : Nat
  /-- POC of the next picture in output order. -/
  poc      : Nat
  records  : List (Nat × List Byte)
  lastType : Nat
  lastStep : Nat
  lastPicture : Nat
  lastReservoir : Int
  lastSize : Nat
  exhausted : BitVec 32
  floored  : BitVec 32
  lost     : BitVec 32
  lastExhaustEvent : Option Nanos
  lastLimitEvent : Option Nanos
deriving DecidableEq, Repr

/-- A picture in a decode stream's store. -/
structure Stored where
  poc      : Int
  slot     : Option Nat
  picture  : Nat
  /-- Still to be output (R438). -/
  needed   : Bool
  isRef    : Bool
  /-- A substitute that R436 made; pictures decoded since, for the latency limit of the bumping process. -/
  made     : Bool
  waits    : Nat
  /-- Its entry of the decoded picture store (R431). -/
  entry    : Option Nat
  width    : Nat
  height   : Nat
  planes   : List (List (List Nat))
deriving DecidableEq, Repr

/-- The samples of a decoded picture. -/
structure Decoded where
  width  : Nat
  height : Nat
  planes : List (List (List Nat))
deriving DecidableEq, Repr

/-- One decode stream. -/
structure DecStream where
  entry    : Option (List Byte)
  /-- Number of the next submission, and where the input ring takes its next byte. -/
  next     : Nat
  ringPos  : Nat
  store    : List Stored
  /-- Output frames: 0 free, 1 in use by the decoder, 2 output and held; reads that run; released while read. -/
  slots    : List Nat
  slotReads : List Nat
  slotReleased : List Bool
  outNumber : Nat
  records  : List (Nat × List Byte)
  /-- The next picture starts a coded video sequence; RASL pictures of the last IRAP picture are skipped (R437). -/
  awaitIrap : Bool
  skipRasl : Bool
  lastPicture : Nat
  /-- The last picture of each size that was decoded, and that ended DECODED (R434, R436). -/
  recent   : List Decoded
  good     : List Decoded
  refused  : BitVec 32
  concealed : BitVec 32
  refusedSince : Nat
  lastRefusedEvent : Option Nanos
deriving DecidableEq, Repr

/-! ## Streams, takes, outputs and Barrel (chapter 14), seal segments (chapter 18) -/

/-- An extent grant (R458). -/
structure Grant where
  id      : Nat
  isSeal  : Bool
  port    : Nat
  nsid    : Nat
  first   : Nat
  count   : Nat
  /-- LBAs consumed from the start. -/
  used    : Nat
  faulted : Bool
deriving DecidableEq, Repr

/-- A unit in a reorder stage (R45–R48): its sequence number, its job and what has become of it. -/
structure StreamUnit where
  seq      : Nat
  job      : Nat
  done     : Bool
  /-- Released as a gap with this status; 0 is no gap. -/
  gap      : Nat
  bytes    : List Byte
  status   : Nat
  frame    : BitVec 32
  picture  : Nat
  row      : Nat
  rows     : Nat
  /-- FS of its frame, or output time, on TBM in 2⁻³² ns. -/
  fsTbm    : Nat
  deadline : Option Nanos
deriving DecidableEq, Repr

/-- One record of the take on its way to the drives (R453): its kind, the unit it carries, an OPEN record's payload as it was at
REC_START (R454), the Cask job that processes it, its first take byte and length once it has been absorbed. -/
structure TakeRec where
  index   : Nat
  kind    : Nat
  unit    : Option StreamUnit
  opened  : List Byte
  job     : Nat
  sealed  : Bool
  first   : Nat
  len     : Nat
deriving DecidableEq, Repr

/-- One Write of a stripe or seal record: at most 1 MiB, within one grant. -/
structure Piece where
  job   : Nat
  grant : Nat
  lba   : Nat
  lbas  : Nat
  off   : Nat
  len   : Nat
  /-- 0 to be written, 1 written, 2 durable, 3 under a Flush. -/
  st    : Nat
  flush : Nat
  /-- Its job was refused, and has been created again (R682). -/
  again : Bool
deriving DecidableEq, Repr

/-- One stripe, or one seal record, that is being written or waits for its Flush or report (R460, R461, R598). -/
structure Stripe where
  index     : Nat
  isSeal    : Bool
  port      : Nat
  pieces    : List Piece
  data      : List Byte
  relocated : Bool
  final     : Bool
  /-- The rotation under which it was placed: how many members took part. -/
  stride    : Nat
deriving DecidableEq, Repr

/-- A seal record waiting to be signed or written (R598–R603). -/
structure SealRec where
  index  : Nat
  kind   : Nat
  bytes  : List Byte
  signed : Bool
  placed : Bool
deriving DecidableEq, Repr

/-- The open segment of a take (R596, R597). -/
structure Segment where
  index     : Nat
  firstByte : Nat
  bytes     : Nat
  hashes    : List (List Byte)
  tags      : List (List Byte)
  /-- Bytes absorbed into the open chunk, and the same bytes as they were written. -/
  chunk     : List Byte
  written   : List Byte
  discs     : List (List Byte)
  gen       : Nat
  digest    : List Byte
  tbmFirst  : Nanos
  tbmLast   : Nanos
  baseFirst : BaseTime
  baseLast  : BaseTime
deriving DecidableEq, Repr

/-- The stream states of REC_S_STATUS. -/
inductive RecSt where
  | idle | running | stopping | stalled | failed
deriving DecidableEq, Repr

/-- One stream, recording or output. -/
structure Stream where
  /-- The STREAM_SET entry in force, 64 bytes. -/
  entry     : Option (List Byte)
  st        : RecSt
  stallCause : Nat
  nextUnit  : Nat
  units     : List StreamUnit
  /-- When the head unit became the head (R48). -/
  headSince : Nanos
  late      : BitVec 32
  takeOpen  : Bool
  take      : Nat
  takeBytes : Nat
  lastResult : Nat × Nat
  recIndex  : Nat
  recs      : List TakeRec
  /-- Take bytes as written that no stripe holds yet, and the next stripe's number. -/
  buffer    : List Byte
  nextStripe : Nat
  dataUnits : Nat
  gaps      : BitVec 32
  takeGaps  : Nat
  encrypted : Bool
  keyId     : Nat
  stripes   : List Stripe
  lastMember : Option Nat
  durable   : Nat
  stopAtFs  : Bool
  /-- The first frame that feeds the take, and the first that no longer does (R468). -/
  startSeq  : BitVec 32
  stopSeq   : Option (BitVec 32)
  grants    : List Grant
  segment   : Option Segment
  segIndex  : Nat
  sealRecs  : List SealRec
  sealIndex : Nat
  /-- The CLOSE record exists. -/
  closing   : Bool
  sinceFlush : List (Nat × Nat)
  lastReportsEvent : Option Nanos
  lastLowEvent : Option Nanos
  /-- REC_GRANT_LOW has been raised for the fall below 16 stripes (R467). -/
  low       : Bool
  /-- Take bytes formed over the last second, newest first: when and how many (R467, EGRESS). -/
  formed    : List (Nanos × Nat)
  lastGapEvent : Option Nanos
  /-- When its gap rows of the last second were sent (R486). -/
  gapTimes  : List Nanos
  repeats   : Nat
  drops     : Nat
  /-- Source frames, or decoded pictures, whose first unit has been released: key, FS or output time on TBM in 2⁻³² ns, and the
  bitmap of the units released; newest last. -/
  ready     : List (Nat × Nat × Nat)
  /-- The one being sent and its next tile row, and the last one sent. -/
  sending   : Option (Nat × Nat)
  lastSent  : Option Nat
  /-- RTP timestamp of the last cadence edge (R471). -/
  stamp     : Nat
  /-- A recipient list for the next take (R605). -/
  recipients : List (List Byte)
deriving DecidableEq, Repr

/-- The drive port states of R455. -/
inductive DriveSt where
  | absent | init | ready | resetting | failed
deriving DecidableEq, Repr

/-- One NVMe command outstanding. -/
structure NvmeCmd where
  id     : Nat
  /-- 1 Write, 2 Flush, 3 Read, 4 Write Zeroes, 5 admin of the host, 6 Identify Controller, 7 Identify Namespace. -/
  op     : Nat
  stream : Nat
  isSeal : Bool
  job    : Nat
  nsid   : Nat
  tbm    : Nanos
  tries  : Nat
deriving DecidableEq, Repr

/-- One drive port. -/
structure Drive where
  st       : DriveSt
  cmds     : List NvmeCmd
  resets   : Nat
  timeouts : Nat
  retries  : Nat
  /-- Namespaces that the controller has, and those identified so far, each with its LBA size (R456). -/
  nn       : Nat
  formats  : List (Nat × Nat)
  mdts     : Nat
  /-- Entries of the I/O queue pair (R456). -/
  ioQueue  : Nat
  idleSince : Nanos
deriving DecidableEq, Repr

/-- What the decompressor reads next (R475): the gzip or zlib header, gzip's optional fields, the padding before a byte boundary (before
the stored length, or before the trailer), and the parts of a block. -/
inductive InfPhase where
  | zlibHead | gzipHead | extraLen | extra (left : Nat) | fileName | comment | headerCrc
  | block | pad (trailer : Bool) | storedLen | stored (left : Nat)
  | dynSizes | codeLens (left : Nat) | lens | lensExtra (sym : Nat)
  | symbols | lenExtra (sym : Nat) | dist | distExtra (sym : Nat)
  | check | isize | done | failed (error : Nat)
deriving DecidableEq, Repr

/-- The decompressor of a Barrel context. It takes the stream bit by bit, so that what it has read of a field or a code word stands in
`acc` and `got`. -/
structure Inflate where
  wrapper : Nat
  phase   : InfPhase
  acc     : Nat
  got     : Nat
  /-- Bits of the stream consumed. -/
  pos     : Nat
  /-- BFINAL of the open block, and its type. -/
  final   : Bool
  block   : Nat
  /-- FLG of a gzip header and the CRC of its bytes. -/
  flags   : Nat
  headCrc : BitVec 32
  /-- HLIT and HDIST counts, code lengths gathered so far, and the code lengths of the open block's three codes. -/
  sizes   : Nat × Nat
  lens    : List Nat
  clCode  : List Nat
  litCode : List Nat
  distCode : List Nat
  /-- The last 32,768 bytes decoded, newest first, all bytes decoded, and their check value. -/
  window  : List Byte
  total   : Nat
  check   : BitVec 32
  /-- Length of the match whose distance is read, and the rest of a match copy. -/
  matchLen : Nat
  left    : Nat
  dist    : Nat
  /-- Bytes of this job, newest first, and how many it may write. -/
  made    : List Byte
  room    : Nat
deriving DecidableEq, Repr

/-- One Barrel context: the fields of its record header (R478). -/
structure BrlCtx where
  isOpen   : Bool
  mode     : Nat
  wrapper  : Nat
  level    : Nat
  st       : Nat
  error    : Nat
  bits     : Nat
  bitValue : Nat
  check    : Nat
  outcome  : BitVec 32
  totalIn  : Nat
  totalOut : Nat
  consumed : Nat
  produced : Nat
  matchLen : Nat
  matchDist : Nat
  lookahead : Nat
  block    : Nat
  jobs     : Nat
  pending  : Bool
  /-- Compress: code words not yet emitted, each a value and its bits; whether the trailer is among what has been; and the input
  consumed that no emitted word codes, the pending match and the lookahead (R477). -/
  queue    : List (Nat × Nat)
  trailer  : Bool
  held     : List Byte
  /-- The decompressor. For a compress context it has read what has been emitted, so that it holds the tables of the open block. -/
  inf      : Inflate
deriving DecidableEq, Repr

/-! ## Capture memory (chapter 15) -/

/-- One valid page-table entry (R490): logical page, physical page, map, region kind and the page of a running migration. -/
structure PageEntry where
  logical   : Nat
  physical  : Nat
  map       : Nat
  kind      : Nat
  migrateTo : Option Nat
deriving DecidableEq, Repr

/-- A logical range that the firmware has given out: its owner (a kind of use and a number), first page and pages. -/
structure Region where
  use   : Nat
  owner : Nat
  first : Nat
  pages : Nat
  kind  : Nat
deriving DecidableEq, Repr

/-- What a pattern generator produces (R502): PRBS7, 15 or 31, walking ones, or the programmable pattern. -/
inductive Pattern where
  | prbs (n : Nat)
  | walking
  | word
deriving DecidableEq, Repr

/-- A pattern generator: its pattern, the seed of each DQ bit, and the 512-bit pattern. -/
structure PatGen where
  kind  : Pattern
  seeds : List Nat
  word  : List Byte
deriving DecidableEq, Repr

/-- One pseudo-channel. -/
structure PChan where
  ready     : Bool
  retired   : Bool
  hot       : Bool
  refreshes : BitVec 32
  activates : BitVec 32
  eccCorr   : Nat
  eccUncorr : Nat
  landerPeak : Nat
  /-- Rows that are open, by bank index (R496). -/
  rows      : List (Nat × Nat)
  /-- The pattern generator and the comparator's error counters, one per DQ bit (R502). -/
  gen       : PatGen
  dqErrors  : List Nat
  /-- Training log (R518): last step passed, result, reference codes, and the delays and step 7 errors of each DQ bit. -/
  trainStep : Nat
  trainFail : Bool
  refs      : Nat × Nat
  delays    : List (Nat × Nat)
  trainErrs : List Nat
  retuned   : Nat
deriving DecidableEq, Repr

/-- One HBM3 stack. -/
structure Stack where
  /-- 0 OFF, 1 TRAINING, 2 READY, 3 RETIRED, 4 RETIRE_PENDING. -/
  st        : Nat
  failStep  : Nat
  hot       : Bool
  temp      : Int
  sppr      : Nat
  spares    : List Nat
  eccCorr   : BitVec 32
  eccUncorr : BitVec 32
  /-- Pages that wait for a spare (R513). -/
  waiting   : List Nat
deriving DecidableEq, Repr

/-- A page migration in progress (R512). -/
structure Migration where
  stack    : Nat
  page     : Nat
  target   : Nat
  job      : Nat
  retireOld : Bool
deriving DecidableEq, Repr

/-- Capture memory and its controller. -/
structure MemCtl where
  hbm      : List Stack
  pchans   : List PChan
  table    : List PageEntry
  regions  : List Region
  /-- Bytes of capture memory by logical address. -/
  bytes    : Mem
  migrations : List Migration
  tileFirst : Nat
  tileSecond : Nat
  fences   : BitVec 32
  unmapped : BitVec 32
  landerHold : Nat
  lastUnmapped : Option Nanos
  maps     : List Nat
deriving DecidableEq, Repr

/-! ## Flex lanes (chapter 16) -/

/-- The endpoint of yard 0; the codes are those of R538. -/
structure Endpoint where
  st     : Nat
  rate   : Nat
  width  : Nat
  flit   : Bool
  bme    : Bool
  mse    : Bool
  msixEn : Bool
  fnMask : Bool
  d3     : Bool
  corr   : Nat
  uncorr : Nat
  replay : BitVec 32
  trainUs : Nat
  margin : Nat × Nat
  marginTbm : Option Nanos
  lastErrEvent : Option Nanos
  /-- A margin scan of the link runs (R540). -/
  scanning : Bool
deriving DecidableEq, Repr

/-- One MSI-X vector: its table entry, its pending bit and what R127 holds back. -/
structure Vec where
  addr    : BitVec 64
  data    : Word
  masked  : Bool
  pendingBit : Bool
  lastSent : Option Nanos
  owed    : Bool
deriving DecidableEq, Repr

/-- One slot of a yard: a root port that starts there, or an Ethernet lane. -/
structure FlexPort where
  st       : Nat
  rate     : Nat
  width    : Nat
  degraded : Bool
  perstHeld : Bool
  port     : Option Nat
  rxErr    : BitVec 32
  uncorr   : Nat
  linkDowns : Nat
  rxErrors : Nat
  rxDropped : Nat
  margin   : Nat × Nat
  marginTbm : Option Nanos
  scanning : Bool
  trainUs  : Nat
  retrainFails : Nat
  retried  : Bool
  holdSince : Nanos
  lastErrEvent : Option Nanos
deriving DecidableEq, Repr

/-- One yard, 1 to 7. -/
structure Yard where
  mode   : Nat
  entry  : Option (List Byte)
  pll    : Bool
  ports  : List FlexPort
  sdiActive : BitVec 16
deriving DecidableEq, Repr

/-! ## Time bases (chapter 17) -/

/-- The base states of R552. -/
inductive BaseSt where
  | off | unset | free | acquiring | locked | holdover
deriving DecidableEq, Repr

/-- The PTP data of a base (R573). -/
structure PtpState where
  master     : Bool
  parent     : List Byte
  grandmaster : List Byte
  clockClass : Nat
  accuracy   : Nat
  variance   : Nat
  priority1  : Nat
  priority2  : Nat
  steps      : Nat
  /-- Foreign masters: announce, times heard up to 2, and TBM in ns when last heard. -/
  foreign    : List (List Byte)
  pathDelay  : Int
  haveDelay  : Bool
  /-- Sync waiting for its Follow_Up: its sequence and its arrival. -/
  syncSeq    : Nat
  syncArrival : Int
  /-- Delay_Req or Pdelay_Req sent: its sequence and departure. -/
  reqSeq     : Nat
  reqSent    : Int
  /-- Master-to-device difference of the last Sync (t2 − t1), ns. -/
  lastMs     : Int
  syncs      : BitVec 32
  announces  : BitVec 32
  txSeq      : Nat
deriving DecidableEq, Repr

/-- One time base: its time in units of 2⁻³² ns, its servo and its registers. -/
structure Base where
  st       : BaseSt
  entry    : Option (List Byte)
  time     : Int
  /-- Rate adjustment a, exact. -/
  rate     : Rat
  integral : Rat
  theta    : Int
  goodRun  : Nat
  taken    : Bool
  lastUpdate : Option Nanos
  /-- Rate adjustments of the last 16 s of updates, newest first. -/
  history  : List (Nanos × Rat)
  steps    : Nat
  residual : Rat
  /-- Whole periods and step that wait for TBV's next cadence edge (R568). -/
  toApply  : Option Rat
  /-- Δ of the re-phases that the edge completes (R570). -/
  rephased : Rat
  lastEdge : Int
  ptp      : PtpState
  /-- The SEC_HI, NS and FRAC latched by the last SEC_LO read (R551). -/
  latch    : Int
deriving DecidableEq, Repr

/-- The time domain. -/
structure Time where
  /-- TBM in units of 2⁻³² ns. -/
  tbm      : Nat
  tbmLatch : Nat
  bases    : List Base
  /-- Crystal correction k. -/
  k        : Rat
  onTref   : Bool
  trefSelected : Bool
  trefLost : Bool
  xtalStale : Bool
  xtalTemp : Int
  xtalTbm  : Option Nanos
  /-- TIME_GLOBAL in force, 48 bytes. -/
  global   : Option (List Byte)
  ppsLost  : Bool
  genlockLost : Bool
deriving DecidableEq, Repr

/-! ## Trust (chapter 18) -/

/-- An image of a slot of the non-volatile store: its bytes and whether R580 has passed it. -/
structure Image where
  bytes    : List Byte
  verified : Bool
deriving DecidableEq, Repr

/-- An image slot, A or B. -/
structure ImgSlot where
  first  : Option Image
  nimlek : Option Image
deriving DecidableEq, Repr

/-- The fuses (R577). -/
structure Fuses where
  rootHash  : List Byte
  serial    : List Byte
  subsys    : Word
  lifecycle : Nat
  svn       : Nat
  owners    : List (List Byte)
  ownerUsed : List Bool
  stepping  : Byte
  /-- The leakage L of R630 in mW. -/
  leakage   : Nat
deriving DecidableEq, Repr

/-- One fuse, or the bit of one, that the firmware programs (R593): the next SVN bit, bit k of OWNER_j, OWNER_USED bit j, or the
LIFECYCLE bit. -/
inductive FuseStep where
  | svn (v : Nat)
  | hashBit (j k : Nat)
  | used (j : Nat)
  | lifecycle
deriving DecidableEq, Repr

/-- What a programming is for: TRS_SVN_COMMIT from an old version to a new one, or TRS_OWNER_ENROL of a key in slot j. -/
inductive FuseGoal where
  | svn (old new : Nat)
  | enrol (j : Nat) (key : List Byte)
deriving DecidableEq, Repr

/-- A programming under way: the command that it completes, what it is for, and the fuse bits still to come. -/
structure FuseWork where
  cmd   : Cmd
  goal  : FuseGoal
  steps : List FuseStep
deriving DecidableEq, Repr

/-- Trust state of one run. -/
structure Trust where
  /-- The Tamuarel root public key, as the header of the verified first stage carried it (R579, R580). -/
  rootKey   : List Byte
  mFs       : List Byte
  mFw       : List Byte
  fwVersion : Word
  fsSvn     : Nat
  fwSvn     : Nat
  certs     : List (List Byte)
  keysReady : Bool
  debugUnlocked : Bool
  challenge : Option (List Byte × Nanos)
  signatures : BitVec 32
  sealPeak  : Nat
  /-- When TRS_SEAL_BEHIND was last raised. -/
  lastBehind : Option Nanos
  /-- Streams whose closed manifests wait for Cask, in closing order. -/
  sealQueue : List Nat
  runningSlot : Nat
  tried     : Bool
  /-- Staging of an image: kind, total and bytes so far. -/
  staging   : Option (Nat × Nat × List Byte)
  /-- Fuses that the firmware programs, one bit at a time (R593). -/
  fusing    : Option FuseWork
deriving DecidableEq, Repr

/-! ## Health (chapter 19) -/

/-- One remote temperature channel. -/
structure Remote where
  mode   : Nat
  valid  : Bool
  temp   : Int
  /-- Consecutive valid readings at or above the furl threshold. -/
  hits   : Nat
deriving DecidableEq, Repr

/-- One rail monitor channel. -/
structure Rail where
  mv       : Nat
  set      : Nat
  fault    : Bool
  /-- When the reading left ±5 %, left ±10 % and came back within ±5 %. -/
  out5     : Option Nanos
  out10    : Option Nanos
  back     : Option Nanos
  reef     : Bool
deriving DecidableEq, Repr

/-- The power-map entry states of HLT_POWER_e. -/
inductive PwrSt where
  | off | ramping | on | fault
deriving DecidableEq, Repr

/-- One power-map entry. -/
structure PwrEntry where
  entry  : Option (List Byte)
  st     : PwrSt
  vout   : Nat
  badReads : Nat
  /-- The entry's owner is called for (R632). -/
  wanted : Bool
  /-- When READ_VOUT first read 95 %, while the settle time runs. -/
  settled : Option Nanos
  /-- When it began to ramp (R633). -/
  rampTbm : Nanos
  /-- The LIVE generation when the entry's fault arose (R633). -/
  faultGen : Nat
deriving DecidableEq, Repr

/-- The health logic. -/
structure Health where
  sensors   : List Int
  suspect   : List Bool
  strikes   : List Nat
  good      : List Nat
  degraded  : Bool
  dieTemp   : Int
  dieRise   : Int
  /-- Zone temperatures of the last second, newest first: the four stacks and the die, one list per evaluation; none while a
  zone has no reading. -/
  history   : List (Nanos × List (Option Int))
  stackTemp : List Int
  stackTbm  : List (Option Nanos)
  stackUnread : List Bool
  stackHits : List Nat
  levels    : List Nat
  remoteLevels : List Nat
  reef      : Nat
  earlyReef : Bool
  lastExceed : Nanos
  furlPending : Bool
  alertLow  : Bool
  comparatorsFailed : BitVec 4
  comparatorsTripped : BitVec 4
  dieFurl   : Nat
  hbmFurl   : Nat
  remotes   : List Remote
  rails     : List Rail
  droops    : List (Nat × List Nanos)
  lastDroopEvent : Option Nanos
  vcore     : Nat
  avsRatio  : Nat
  avsSlowest : Nat
  avsLimit  : Bool
  avsHighRun : Nat
  lastRaise : Option Nanos
  power     : List PwrEntry
  /-- HEALTH_POLICY in force, 208 bytes. -/
  policy    : Option (List Byte)
  ageing    : Rat
  ageWrite  : Nanos
  furlCause : Nat
  furlSource : Nat
  furlTotal : Nat
  latched   : Bool
  furlTbm   : Nanos
  /-- When the automatic restarts that R624 counts happened, on the always-on domain's own clock. -/
  restarts  : List Nat
  /-- Automatic restarts in the 3,600 s before the last furl (R624). -/
  furlRecent : Nat
deriving DecidableEq, Repr

/-! ## Faults, self-test and observability (chapter 20) -/

/-- A location (R641) without its reserved bytes. -/
structure Loc where
  kind   : Nat
  unit   : Nat
  sub    : Nat
  bank   : Nat
  row    : Nat
  column : Nat
deriving DecidableEq, Repr

/-- One error-log entry (R643). -/
structure ErrEntry where
  seq     : Nat
  cls     : Nat
  outcome : Nat
  flags   : Nat
  loc     : Loc
  tbm     : Nanos
  clock   : Nat
  count   : Nat
  master  : Nat
  tag     : Nat
  ctx     : Nat
  detail  : Nat
  result  : Nat
deriving DecidableEq, Repr

/-- A queued or running targeted test (R646, R647). -/
structure Test where
  cls      : Nat
  loc      : Loc
  entries  : List Nat
  running  : Bool
  since    : Nanos
deriving DecidableEq, Repr

/-- A performance counter (R656). -/
structure Counter where
  value    : BitVec 48
  overflow : Bool
  frozen   : BitVec 48
  frozenOvf : Bool
  /-- Its OBS_SET entry, 16 bytes. -/
  entry    : Option (List Byte)
deriving DecidableEq, Repr

/-- A histogram unit (R658). -/
structure Hist where
  bins   : List Nat
  frozen : List Nat
  kind   : Nat
  master : Nat
  classes : Nat
deriving DecidableEq, Repr

/-- One snapshot record (R654). -/
structure Snap where
  seq     : BitVec 32
  block   : Nat
  index   : Nat
  sources : Nat
  valid   : Bool
  tbm     : Nanos
  words   : List Word
deriving DecidableEq, Repr

/-- Faults and observability. -/
structure Obs where
  /-- Queued and running targeted tests, oldest first. -/
  tests     : List Test
  classCount : List (BitVec 32)
  halSeq    : BitVec 32
  halPending : Option (Nat × Nat)
  halLast   : Option Nanos
  halMerged : Nat
  snpSources : Nat
  snpSeq    : BitVec 32
  banks     : List (List Snap)
  counters  : List Counter
  hists     : List Hist
  freezeSeq : BitVec 32
  sampleNo  : BitVec 32
  sampleCount : Nat
  samples   : List (Nat × List Byte)
  /-- OBS_SET in force. -/
  set       : Option (List Byte)
  matches_  : List (Option (Nat × Int))
  /-- Event code of vectors 22 to 255, by vector (OBS_VECTOR). -/
  vectors   : List (Nat × Nat)
deriving DecidableEq, Repr

/-- The non-volatile store and the always-on log (R89). -/
structure Nv where
  fuses      : Fuses
  bootCount  : Nat
  slotA      : ImgSlot
  slotB      : ImgSlot
  /-- The slot the A/B record names (0 A, 1 B), and a trial: 0 none, 1 TRIAL, 2 TRIED, of the other slot. -/
  abSlot     : Nat
  trial      : Nat
  highestGen : Nat
  persist    : List (Option Gen)
  newest     : Nat
  policyCounter : Nat
  ownerKey   : List Byte
  identityCert : List Byte
  errLog     : List ErrEntry
  errSeq     : Nat
  retired    : List (Loc × Nat × Nat)
  /-- Locations with a LASTING outcome, each with its class and the health clock (R648). -/
  lastings   : List (Loc × Nat × Nat)
  repairs    : List (Nat × Nat × Nat × Nat × Nat)
  retiredPages : List (Nat × Nat)
  retirePending : List (Nat × Nat)
  retiredStacks : List (Nat × Nat)
  /-- The kinds and keys of MEM_RETIRED's entries in order of recording, 16 bytes each. -/
  memLog     : List (List Byte)
  ageing     : Rat
  healthClock : Nat
  furlLog    : List (List Byte)
  fallback   : Bool
  takeNumbers : List Nat
  reports    : List (List (List Byte))
  reportSeq  : List Nat
  manifestHash : List (List Byte)
  /-- The base of the health clock, kept by the always-on domain (R642). -/
  clockBase  : Nat
  /-- The copy of the always-on log buffer that a furl left (R93). -/
  aonLogCopy : List Byte
deriving DecidableEq, Repr

end Sys2Proof.Machine
end

