-- ==== Sys2Proof/Machine/State.lean ====
section
/-! DEFINITION. The state of the block: every register, FIFO, buffer, counter, mode and pin that the spec gives it, the
queue of waiting commands, and the state after reset. -/

namespace Sys2Proof.Machine

/-- Faults. None is raised: every event the spec describes has an effect that the state holds. -/
inductive Fault where
  /-- Raised by no command; kept so that the type is not empty. Safe. -/
  | none
deriving DecidableEq, Repr

/-- Refusals. -/
inductive Refusal where
  /-- Answered by exec's arm of a command that has no meaning yet. Safe: nothing is proved of it. -/
  | notModelled (mnemonic : String)
deriving DecidableEq, Repr

/-- The common command codes that a sensor control port issues in I3C mode (R281). -/
inductive Ccc where
  | setdasa (static dynamic : Nat)
  | disec | rstdaa
deriving DecidableEq, Repr

/-- What leaves the device in a step (the model's own record of it, newest first; the spec's pins and links). -/
inductive OutMsg where
  /-- An MSI-X message: vector, address and data. -/
  | msix (vector : Nat) (addr : BitVec 64) (data : Word)
  /-- Data that a host read returns. -/
  | readData (addr : Nat) (data : List Byte)
  /-- Bytes on MGMT_MISO, and nothing for a frame that leaves it high-impedance. -/
  | miso (data : List Byte)
  /-- A write on a sensor control port: the sensor's port, target address, first register and data. -/
  | scp (sensor addr reg : Nat) (data : List Byte)
  /-- An I3C common command code on a sensor control port (R281). -/
  | ccc (sensor : Nat) (code : Ccc)
  | fsync (sensor : Nat) (delayNs widthNs : Nat)
  | ppsOut (widthNs : Nat)
  | halyardOut
  /-- A unit of an output stream: stream, sequence and how it was sent (0 released, 1 repeated, 2 black). -/
  | lines (stream row how : Nat)
  | rtp (stream stamp : Nat)
  /-- The ST 352 payload identifier of one link of an SDI output (R472). -/
  | payloadId (stream link : Nat) (data : List Byte)
  /-- An NVMe command: its blocks, and the bytes of a Write. -/
  | nvme (port id op nsid lba lbas : Nat) (data : List Byte)
  /-- An admin command of the host (R457): its submission queue entry but for bytes 24 to 39, the data pointer, which is the device's;
  and the data that goes with it. -/
  | nvmeAdmin (port id : Nat) (entry data : List Byte)
  | ptp (base kind seq : Nat) (stamp : Int)
  /-- An Announce of a TRANSMITTER: clockClass, clockAccuracy, timeSource, priority1 and priority2 (R565). -/
  | announce (base seq cls accuracy source priority1 priority2 : Nat)
  /-- Host memory written by the device. -/
  | hostWrite (addr : Nat) (data : List Byte)
  /-- Host memory to be read. -/
  | hostRead (addr len : Nat)
  | pmbus (segment addr mv : Nat)
  /-- A PWR_EN pin driven high or released, so long after the step begins (R91, R97). -/
  | pwrEn (pin : Nat) (high : Bool) (afterNs : Nat)
  | thermtrip
deriving DecidableEq, Repr

/-- The whole state. -/
structure State where
  power    : Power
  ncp      : Ncp
  cfg      : Cfg
  ledger   : Ledger
  shrouds  : List Shroud
  sensors  : List Sensor
  ctxs     : List Context
  dev      : List FrameDev
  steep    : List SteepCtx
  mash     : List MashCtx
  luts     : List LutUnit
  cacheHits : BitVec 32
  cacheMisses : BitVec 32
  /-- Corrected tiles of the band cache, newest first: context, frame and tile (R384). -/
  bandCache : List (Nat × BitVec 32 × Nat)
  jobs     : List Job
  nextJob  : Nat
  engines  : List Engine
  encs     : List Encoding
  decs     : List DecStream
  streams  : List Stream
  drives   : List Drive
  nextNvme : Nat
  nextGrant : Nat
  egress   : List (Nanos × Nat)
  brl      : List BrlCtx
  brlErrors : BitVec 32
  mem      : MemCtl
  ep       : Endpoint
  vecs     : List Vec
  yards    : List Yard
  time     : Time
  trust    : Trust
  health   : Health
  obs      : Obs
  nv       : Nv
  /-- High words latched by low-word reads (R9), by the BAR0 offset of the low word. -/
  latches  : List (Nat × Word)
  /-- The model's own: how many free values have been drawn, and what has left the device. -/
  free     : Nat
  outs     : List OutMsg
  pending  : List Instr
deriving DecidableEq, Repr

/-! ## Reset values -/

def zeros (n : Nat) : List Byte := List.replicate n 0

def BootEnv.none : BootEnv :=
  { discharged := false, crystal := false, pmbusAck := [], railsRise := false, pllsLock := false, comparators := 0,
    flash := [], stackFail := [], sppr := [], pchans := [] }

/-- The device after VDD_AON and VDDIO_18 have risen, with PWROK still low: condition RESET (R61). -/
def Power.reset : Power :=
  { condition := .reset, vddAon := true, vddio := true, pwrok := false, sysResetN := true, perstN := false,
    bootsel := 0, mgmtAddr := 0, coldCause := 0x01, bootCold := true, resetCause := 0, warmCount := 0, linkResets := 0, bootCode := 0,
    bootStage := .idle, env := BootEnv.none, pwrEn := List.replicate 16 false, driven := [], sref := List.replicate 14 0, thermtripLow := false,
    xtalQualified := false, aonOnXtal := false, pllLocked := false, railsUp := false, vout := List.replicate 9 0,
    mastRuns := false, watchdogOn := false, warmPending := none, perstFallTbm := 0,
    orphanedCount := 0, linkOwed := false, crystalRuns := true, fellBack := false, bootSource := 0, heartbeat := 0, aonNs := 0,
    aonLog := [] }

def Slot.reset : Slot := { st := .idle, owner := none, closing := false, expired := false, heldSince := 0, user := none, rang := 0, former := none }

def Session.reset : Session :=
  { isOpen := false, closing := false, primary := false, expected := 0, heartbeat := 0, lastTaken := 0, lastSeq := 0, prod := 0, cons := 0,
    phase := true }

/-- MG_CPL reads 0 before the first completion (assumption 33). -/
def MgBox.reset : MgBox := { st := .idle, expected := 0, cpl := zeros 32 }

def Ncp.reset : Ncp :=
  { slots := List.replicate 64 Slot.reset, sessions := List.replicate 16 Session.reset,
    mg := List.replicate 2 MgBox.reset, mem := [], rejectBits := 0, lastRejectSlot := 0, lastRejectReason := 0,
    writesIgnored := 0, doorbellsRejected := 0, exec := [], waiting := [], orphans := [], eqProd := 0, eqCons := 0,
    eqPhase := true, eqLost := 0, eqLostSince := 0, eventMask := 0, intSummary := 0, globalCause := 0, imageIn := none,
    fwVersion := false, rings := 0 }

def Cfg.reset : Cfg :=
  { staged := none, armed := none, live := none, previous := none, armKind := .commit, armTbm := 0,
    armTimeoutMs := 0, persistReq := false, unapplied := [], inForce := [],
    probation := none, persisting := [] }

def Ledger.reset : Ledger :=
  { started := false, window := 0, bank := 0, carry := 0, pEff := 0, reefAtTick := 0, debt := false, stopped := false,
    credit := 0, baseline := 0, charges := List.replicate 7 0, served := List.replicate 7 0,
    deferred := List.replicate 7 0, refused := List.replicate 7 0, waited := List.replicate 7 0,
    reasons := List.replicate 5 0, factors := List.replicate 4 1, nextFactors := List.replicate 4 1, chargedGroup := List.replicate 4 0,
    telemetryTbm := List.replicate 4 0, staleGroups := List.replicate 4 false, measuredMw := 0,
    leakage := 0, landedBytes := 0, rxBits := 0, trace := [], refusalsSince := List.replicate 5 0,
    lastRefusalEvent := none, lastOverrunEvent := none }

def Lane.reset : Lane :=
  { signal := false, cdrLock := false, blockLock := false, logical := none, inverted := false, precodes := false,
    slip := 0, ctle := 0, ffePre := 0, ffePost := 0, dfe := 0, hdrErr := 0, lockLoss := 0, eyeH := 0, eyeV := 0,
    scanTbm := none, prbsErr := 0, foundSlip := none, candidates := 0, form := 0, word := none, retired := false, burstTbm := none,
    scanning := false }

def Shroud.reset : Shroud :=
  { st := .off, failReason := 0, entry := none, lanes := List.replicate 16 Lane.reset, permuted := false,
    anyInverted := false, skew := 0, deskewErr := 0, deskewRun := false, trainUs := 0, relocks := 0, trainings := 0,
    badControl := 0, passes := 0, relockTbm := [], lastBurstEvent := none, testLane := none, trainTbm := none, trainAt := none, rxTbm := 0, fifoPeak := 0,
    fifoLevel := 0, fifoDropped := 0, fifoDrops := [], fifoTbm := 0, lastFifoHigh := none, lastFifoOverflow := none }

def Sensor.reset : Sensor :=
  { openFrames := [], lastClosed := [], lastFs := 0, lastStat := 0, hdrCrc := 0, payloadCrc := 0, badHead := 0,
    hdrField := 0, noFrame := 0, stray := 0, orphan := 0, marker := 0, unbound := 0, shortLines := 0, longLines := 0,
    shortFrames := 0, flagged := 0, scpErr := 0, portState := 0, entry := none, railsUp := false, statEvents := [],
    lsPending := [], lastLine := [], scpWait := [], fsyncOn := none }

def Context.reset : Context :=
  { st := .stopped, startPending := false, stopPending := false, nextSeq := 0, frames := [], refusalLog := [],
    slotCount := 0, ringBase := 0, slotSize := 0, tagBase := 0, lastSlot := none, slotsWritten := 0, wrapped := false,
    landedSince := 0, snapLeft := 0, snapOpen := 0, snapFirst := 0, snapLanded := 0, trigWait := none, trigSeq := none,
    postLeft := 0, counts := List.replicate 16 0, firstNext := true, lastFlaggedEvent := none,
    lastRefusingEvent := none, refusedSince := 0, flaggedSince := 0, latestRefused := 0, drain := false }

def FrameRing.reset : FrameRing := { next := 0, items := [] }

def SteepCtx.reset : SteepCtx :=
  { blocks := [], rowTap := { sums := [], counts := [] }, series := { sums := [], counts := [] }, seriesFirst := 0,
    seriesFirstTbm := 0, seriesLastTbm := 0, seriesFrames := 0, strideSum := 0, strideCount := 0, frameCounter := 0,
    bandsOk := [], refWrites := [], lastLanded := none,
    records := FrameRing.reset, flickers := FrameRing.reset, profiles := FrameRing.reset, lastFinalSeq := 0, lastUnconcealed := 0,
    lastDynamic := 0, lastResetCause := 0, refValid := false, resets := 0, rowResult := 7, rowFreq := 0, rowAmp := 0,
    rowPhase := 0, frmResult := 7, frmFreq := 0, frmAmp := 0, frmPhase := 0 }

def MashCtx.reset : MashCtx :=
  { records := FrameRing.reset, done := List.replicate 4 0, missing := 0, lastSeq := 0,
    lastClipped := 0, nonFinite := 0 }

def LutUnit.reset : LutUnit := { st := 0, ctx := 0, lut := 0, table := [] }

/-- The engines of R49: Steep, Mash, JPEG XS, HEVC encoder, HEVC decoder, Barrel, Cask, recorder, output streamer. -/
def engineMasters : List Nat :=
  List.range' 0x40 8 ++ List.range' 0x48 8 ++ List.range' 0x50 12 ++ [0x5C, 0x5D] ++ List.range' 0x60 4 ++
    [0x64, 0x68, 0x69, 0x78]

def Engine.reset (m : Nat) : Engine := { master := m, queue := [], running := none, jobs := 0 }

def Encoding.reset : Encoding :=
  { ctx := none, codec := 0, entry := [], replaced := none, used := none, begun := none, targets := [], next := 0, reservoir := 0, history := [[], [], []], cpb := 0, pics := [],
    refs := [], waiting := [], gopPos := 0, refresh := 0, poc := 0, records := [], lastType := 0,
    lastStep := 0, lastPicture := 0, lastReservoir := 0, lastSize := 0, exhausted := 0, floored := 0, lost := 0,
    lastExhaustEvent := none, lastLimitEvent := none }

def DecStream.reset : DecStream :=
  { entry := none, next := 0, ringPos := 0, store := [], slots := [], slotReads := [], slotReleased := [], outNumber := 0, records := [],
    awaitIrap := false, skipRasl := false, lastPicture := 0, recent := [], good := [], refused := 0, concealed := 0, refusedSince := 0,
    lastRefusedEvent := none }

def Stream.reset : Stream :=
  { entry := none, st := .idle, stallCause := 0, nextUnit := 0, units := [], headSince := 0, late := 0,
    takeOpen := false, take := 0, takeBytes := 0, lastResult := (0, 0), recIndex := 0, recs := [], buffer := [], nextStripe := 0, dataUnits := 0,
    gaps := 0, takeGaps := 0, encrypted := false, keyId := 0, stripes := [], lastMember := none, durable := 0,
    stopAtFs := false, startSeq := 0, stopSeq := none, grants := [], segment := none, segIndex := 0, sealRecs := [], sealIndex := 0,
    closing := false, sinceFlush := [], lastReportsEvent := none, lastLowEvent := none, low := false, formed := [],
    lastGapEvent := none, gapTimes := [], repeats := 0, drops := 0, ready := [], sending := none,
    lastSent := none, stamp := 0, recipients := [] }

def Drive.reset : Drive :=
  { st := .absent, cmds := [], resets := 0, timeouts := 0, retries := 0, nn := 0, formats := [], mdts := 0, ioQueue := 0, idleSince := 0 }

/-- The decompressor of a context that has been opened with a wrapper (R473). -/
def Inflate.start (wrapper : Nat) : Inflate :=
  { wrapper := wrapper, phase := if wrapper = 1 then .zlibHead else if wrapper = 2 then .gzipHead else .block, acc := 0, got := 0, pos := 0,
    final := false, block := 0xFF, flags := 0, headCrc := 0, sizes := (0, 0), lens := [], clCode := [], litCode := [], distCode := [],
    window := [], total := 0, check := if wrapper = 1 then 1 else 0, matchLen := 0, left := 0, dist := 0, made := [], room := 0 }

def BrlCtx.reset : BrlCtx :=
  { isOpen := false, mode := 0, wrapper := 0, level := 0, st := 0xFF, error := 0, bits := 0, bitValue := 0, check := 0,
    outcome := 0, totalIn := 0, totalOut := 0, consumed := 0, produced := 0, matchLen := 0, matchDist := 0,
    lookahead := 0, block := 0xFF, jobs := 0, pending := false, queue := [], trailer := false, held := [], inf := Inflate.start 0 }

def PChan.reset : PChan :=
  { ready := false, retired := false, hot := false, refreshes := 0, activates := 0, eccCorr := 0, eccUncorr := 0,
    landerPeak := 0, rows := [], gen := { kind := .walking, seeds := [], word := [] }, dqErrors := [], trainStep := 0, trainFail := false,
    refs := (0, 0), delays := [], trainErrs := [], retuned := 0 }

def Stack.reset : Stack :=
  { st := 0, failStep := 0, hot := false, temp := 0, sppr := 0, spares := [], eccCorr := 0, eccUncorr := 0,
    waiting := [] }

def MemCtl.reset : MemCtl :=
  { hbm := List.replicate 4 Stack.reset, pchans := List.replicate 128 PChan.reset, table := [], regions := [],
    bytes := [], migrations := [], tileFirst := 0, tileSecond := 0, fences := 0, unmapped := 0, landerHold := 0,
    lastUnmapped := none, maps := [0, 1, 1, 2, 3] }

def Endpoint.reset : Endpoint :=
  { st := 1, rate := 0, width := 0, flit := false, bme := false, mse := false, msixEn := false, fnMask := false,
    d3 := false, corr := 0, uncorr := 0, replay := 0, trainUs := 0, margin := (0, 0), marginTbm := none,
    lastErrEvent := none, scanning := false }

/-- A vector of the MSI-X table after reset: masked, as the PCI Express Base Specification has it. -/
def Vec.reset : Vec :=
  { addr := 0, data := 0, masked := true, pendingBit := false, lastSent := none, owed := false }

def FlexPort.reset : FlexPort :=
  { st := 0, rate := 0, width := 0, degraded := false, perstHeld := false, port := none, rxErr := 0, uncorr := 0,
    linkDowns := 0, rxErrors := 0, rxDropped := 0, margin := (0, 0), marginTbm := none, scanning := false, trainUs := 0,
    retrainFails := 0, retried := false, holdSince := 0, lastErrEvent := none }

def Yard.reset : Yard :=
  { mode := 0, entry := none, pll := false, ports := List.replicate 4 FlexPort.reset, sdiActive := 0 }

def PtpState.reset : PtpState :=
  { master := false, parent := zeros 10, grandmaster := zeros 8, clockClass := 0, accuracy := 0, variance := 0,
    priority1 := 0, priority2 := 0, steps := 0, foreign := [], pathDelay := 0, haveDelay := false, syncSeq := 0,
    syncArrival := 0, reqSeq := 0, reqSent := 0, lastMs := 0, syncs := 0, announces := 0, txSeq := 0 }

def Base.reset : Base :=
  { st := .off, entry := none, time := 0, rate := 0, integral := 0, theta := 0, goodRun := 0, taken := false,
    lastUpdate := none, history := [], steps := 0, residual := 0, toApply := none, rephased := 0, lastEdge := 0,
    ptp := PtpState.reset, latch := 0 }

def Time.reset : Time :=
  { tbm := 0, tbmLatch := 0, bases := List.replicate 5 Base.reset, k := 0, onTref := false, trefSelected := false,
    trefLost := false, xtalStale := false, xtalTemp := 0, xtalTbm := none, global := none, ppsLost := false,
    genlockLost := false }

def Trust.reset : Trust :=
  { rootKey := [], mFs := zeros 64, mFw := zeros 64, fwVersion := 0, fsSvn := 0, fwSvn := 0, certs := [[], []], keysReady := false,
    debugUnlocked := false, challenge := none, signatures := 0, sealPeak := 0, lastBehind := none, sealQueue := [], runningSlot := 0,
    tried := false, staging := none, fusing := none }

def Remote.reset : Remote := { mode := 0, valid := false, temp := 0, hits := 0 }

def Rail.reset : Rail := { mv := 0, set := 0, fault := false, out5 := none, out10 := none, back := none, reef := false }

def PwrEntry.reset : PwrEntry := { entry := none, st := .off, vout := 0, badReads := 0, wanted := false, settled := none, rampTbm := 0, faultGen := 0 }

def Health.reset : Health :=
  { sensors := List.replicate 48 0, suspect := List.replicate 48 false, strikes := List.replicate 48 0,
    good := List.replicate 48 0, degraded := false, dieTemp := 0, dieRise := 0, history := [],
    stackTemp := List.replicate 4 0, stackTbm := List.replicate 4 none, stackUnread := List.replicate 4 false,
    stackHits := List.replicate 4 0, levels := List.replicate 5 0, remoteLevels := List.replicate 12 0, reef := 0,
    earlyReef := false, lastExceed := 0, furlPending := false, alertLow := false, comparatorsFailed := 0,
    comparatorsTripped := 0, dieFurl := 108, hbmFurl := 100, remotes := List.replicate 12 Remote.reset,
    rails := List.replicate 24 Rail.reset, droops := List.replicate 8 (0, []), lastDroopEvent := none, vcore := 800,
    avsRatio := 0, avsSlowest := 0, avsLimit := false, avsHighRun := 0, lastRaise := none,
    power := List.replicate 15 PwrEntry.reset, policy := none, ageing := 0,
    ageWrite := 0, furlCause := 0, furlSource := 0, furlTotal := 0, latched := false, furlTbm := 0, restarts := [],
    furlRecent := 0 }

def Counter.reset : Counter := { value := 0, overflow := false, frozen := 0, frozenOvf := false, entry := none }

def Hist.reset : Hist :=
  { bins := List.replicate 32 0, frozen := List.replicate 32 0, kind := 0, master := 0xFF, classes := 0 }

def Obs.reset : Obs :=
  { tests := [], classCount := List.replicate 10 0, halSeq := 0, halPending := none, halLast := none, halMerged := 0,
    snpSources := 0, snpSeq := 0, banks := [[], []], counters := List.replicate 512 Counter.reset,
    hists := List.replicate 16 Hist.reset, freezeSeq := 0, sampleNo := 0, sampleCount := 0, samples := [], set := none,
    matches_ := List.replicate 4 none, vectors := [] }

/-- The fuses of a delivered unit: SHIPPED, security version 0, no owner (assumption 3). -/
def Fuses.reset : Fuses :=
  { rootHash := List.ofFn fun i : Fin 64 => Config.fuse 0 i.val,
    serial := List.ofFn fun i : Fin 8 => Config.fuse 1 i.val,
    subsys := 0x72001F3C, lifecycle := 1, svn := 0, owners := List.replicate 3 (zeros 64),
    ownerUsed := [false, false, false], stepping := Config.fuse 3 0, leakage := Config.leakageMw }

/-- The non-volatile store of a delivered unit (assumption 3). -/
def Nv.reset : Nv :=
  { fuses := Fuses.reset, bootCount := 0,
    slotA := { first := some { bytes := Config.factory 0, verified := true },
               nimlek := some { bytes := Config.factory 1, verified := true } },
    slotB := { first := none, nimlek := none }, abSlot := 0, trial := 0, highestGen := 0, persist := [none, none],
    newest := 0, policyCounter := 0, ownerKey := [], identityCert := Config.factory 2, errLog := [], errSeq := 0,
    retired := [], lastings := [], repairs := [], retiredPages := [], retirePending := [], retiredStacks := [], memLog := [],
    ageing := 0, healthClock := 0, furlLog := [], fallback := false, takeNumbers := List.replicate 32 0,
    reports := List.replicate 32 [], reportSeq := List.replicate 32 0,
    manifestHash := List.replicate 32 (zeros 64), clockBase := 0, aonLogCopy := [] }

/-- The machine right after reset: VDD_AON and VDDIO_18 have risen, PWROK is low, and every register has the reset value
that the spec gives it. -/
def State.reset : State :=
  { power := Power.reset, ncp := Ncp.reset, cfg := Cfg.reset, ledger := Ledger.reset,
    shrouds := List.replicate 56 Shroud.reset, sensors := List.replicate 16 Sensor.reset,
    ctxs := List.replicate 64 Context.reset, dev := [], steep := List.replicate 64 SteepCtx.reset,
    mash := List.replicate 64 MashCtx.reset, luts := List.replicate 16 LutUnit.reset, cacheHits := 0, cacheMisses := 0,
    bandCache := [], jobs := [], nextJob := 1, engines := engineMasters.map Engine.reset,
    encs := List.replicate 32 Encoding.reset, decs := List.replicate 4 DecStream.reset,
    streams := List.replicate 32 Stream.reset, drives := List.replicate 28 Drive.reset, nextNvme := 0, nextGrant := 1,
    egress := [], brl := List.replicate 64 BrlCtx.reset, brlErrors := 0, mem := MemCtl.reset, ep := Endpoint.reset,
    vecs := List.replicate 256 Vec.reset, yards := List.replicate 7 Yard.reset, time := Time.reset,
    trust := Trust.reset, health := Health.reset, obs := Obs.reset, nv := Nv.reset, latches := [], free := 0, outs := [],
    pending := [] }

end Sys2Proof.Machine
end

