-- ==== Sys2Proof/Machine/Ops.lean ====
section
/-! DEFINITION. The operations every chapter shares: byte strings and little-endian fields, the sparse memory in its
canonical form, the free values, the time stamps, and updates of one part of the state. -/

namespace Sys2Proof.Machine

open Sys2Proof

/-! ## Byte strings (R4, R6) -/

/-- The n low bytes of a number, least significant first. -/
def le : Nat → Nat → List Byte
  | 0, _ => []
  | n + 1, v => BitVec.ofNat 8 v :: le n (v / 256)

/-- The number a little-endian byte string spells. -/
def leNat : List Byte → Nat
  | [] => 0
  | b :: bs => b.toNat + 256 * leNat bs

/-- An unsigned little-endian field; bytes past the end of the string read 0. -/
def fld (p : List Byte) (off n : Nat) : Nat := leNat ((p.drop off).take n)

/-- A two's complement field. -/
def sfld (p : List Byte) (off n : Nat) : Int :=
  let v := fld p off n
  if v < 2 ^ (8 * n - 1) then v else (v : Int) - 2 ^ (8 * n)

/-- A sub-string, 0 where the string ends early. -/
def sub (p : List Byte) (off n : Nat) : List Byte :=
  let q := (p.drop off).take n
  q ++ List.replicate (n - q.length) 0

/-- An integer as an n-byte two's complement field. -/
def leInt (n : Nat) (v : Int) : List Byte := le n (v % (2 ^ (8 * n) : Int)).toNat

/-- The string cut or filled with zeros to n bytes. -/
def fit (n : Nat) (p : List Byte) : List Byte := sub p 0 n

/-- Overwrite the bytes of a string from an offset on. -/
def put (p : List Byte) (off : Nat) (d : List Byte) : List Byte :=
  p.take off ++ d ++ p.drop (off + d.length)

/-- Whether every byte from an offset on, n of them, is 0. -/
def allZero (p : List Byte) (off n : Nat) : Bool := ((p.drop off).take n).all (· == 0)

/-- Offset of the first non-zero byte of a reserved range, if any (R3). -/
def firstNonZero (p : List Byte) : List (Nat × Nat) → Option Nat
  | [] => none
  | (off, n) :: rest => if allZero p off n then firstNonZero p rest else some off

/-- Bit n of a number. -/
def bit (v n : Nat) : Bool := v.testBit n

/-- Bits [hi:lo] of a number. -/
def bits (v hi lo : Nat) : Nat := (v / 2 ^ lo) % 2 ^ (hi + 1 - lo)

/-- 1 for true. -/
def b2n (b : Bool) : Nat := if b then 1 else 0

/-- Saturating add. -/
def sat (width v : Nat) : Nat := min v (2 ^ width - 1)

def satInc (width v : Nat) : Nat := sat width (v + 1)

/-- The bitmap of a list of flags, bit n for element n. -/
def bitmap : List Bool → Nat
  | [] => 0
  | b :: bs => b2n b + 2 * bitmap bs

/-- The set bits of a number below n, ascending. -/
def setBits (n v : Nat) : List Nat := (List.range n).filter (fun i => v.testBit i)

/-- How many bits below n are set. -/
def popCount (n v : Nat) : Nat := (setBits n v).length

/-- Rounded up division, and rounding up to a multiple. -/
def ceilDiv (a b : Nat) : Nat := (a + b - 1) / b

def roundUp (a b : Nat) : Nat := ceilDiv a b * b

/-- The nearest integer to a rational number, halves away from zero. -/
def roundRat (q : Rat) : Int := if q < 0 then -((-q + 1 / 2).floor) else (q + 1 / 2).floor

/-- The natural number below a rational number. -/
def floorNat (q : Rat) : Nat := q.floor.toNat

/-! ## Lists -/

/-- Change the element at an index; nothing past the end. -/
def upd {α : Type} (l : List α) (i : Nat) (f : α → α) : List α := l.modify i f

/-- Numbered elements. -/
def numbered {α : Type} (l : List α) : List (Nat × α) := (List.range l.length).zip l

/-- The least element of a list by a key, first among equals. -/
def leastBy {α : Type} (key : α → Nat) : List α → Option α
  | [] => none
  | a :: as =>
    match leastBy key as with
    | none => some a
    | some b => if key b < key a then some b else some a

/-- Stable insertion sort by an order. -/
def insertBy {α : Type} (lt : α → α → Bool) (a : α) : List α → List α
  | [] => [a]
  | b :: bs => if lt b a then b :: insertBy lt a bs else a :: b :: bs

def sortBy {α : Type} (lt : α → α → Bool) : List α → List α
  | [] => []
  | a :: as => insertBy lt a (sortBy lt as)

/-- Remove repeats, keeping the first of each. -/
def nub {α : Type} [DecidableEq α] : List α → List α
  | [] => []
  | a :: as => a :: (nub as).filter (· ≠ a)

/-- Apply a function a number of times. -/
def iter {α : Type} : Nat → (α → α) → α → α
  | 0, _, a => a
  | n + 1, f, a => iter n f (f a)

/-- Fold a change of the state over a list, first element first. -/
def each {α σ : Type} (l : List α) (f : α → σ → σ) (s : σ) : σ := l.foldl (fun s a => f a s) s

/-! ## Sparse memory -/

/-- The canonical form: addresses strictly rising, no entry equal to 0, which an unlisted address reads as. -/
def Mem.wf : Mem → Bool
  | [] => true
  | [(_, b)] => b != 0
  | (a, b) :: (a', b') :: m => b != 0 && decide (a < a') && Mem.wf ((a', b') :: m)

/-- One byte. -/
def Mem.read : Mem → Nat → Byte
  | [], _ => 0
  | (a, b) :: m, x => if a = x then b else Mem.read m x

/-- Store one byte, keeping the canonical form. -/
def Mem.write : Mem → Nat → Byte → Mem
  | [], x, v => if v = 0 then [] else [(x, v)]
  | (a, b) :: m, x, v =>
    if x < a then (if v = 0 then (a, b) :: m else (x, v) :: (a, b) :: m)
    else if x = a then (if v = 0 then m else (x, v) :: m)
    else (a, b) :: Mem.write m x v

/-- Consecutive bytes. -/
def Mem.readN (m : Mem) : Nat → Nat → List Byte
  | _, 0 => []
  | x, n + 1 => Mem.read m x :: Mem.readN m (x + 1) n

/-- Store consecutive bytes. -/
def Mem.writeN (m : Mem) : Nat → List Byte → Mem
  | _, [] => m
  | x, v :: vs => Mem.writeN (Mem.write m x v) (x + 1) vs

/-- Clear a range to 0. -/
def Mem.clear (m : Mem) (lo n : Nat) : Mem := m.filter (fun c => c.1 < lo || lo + n ≤ c.1)

/-! ## Free values (assumption 2) -/

/-- Draw a number that the spec leaves open. -/
def State.drawNat (s : State) : Nat × State := (Config.freeNat s.free, { s with free := s.free + 1 })

/-- Draw a choice that the spec leaves open. -/
def State.drawBool (s : State) : Bool × State := (Config.freeBool s.free, { s with free := s.free + 1 })

/-- The firmware's choice of one of n possibilities that the spec leaves to it; a single one is no choice. -/
def State.pick (s : State) (n : Nat) : Nat × State :=
  if n ≤ 1 then (0, s) else (Config.pick n s.free % n, { s with free := s.free + 1 })

/-- A choice among listed candidates. -/
def State.choose {α : Type} (s : State) (l : List α) : Option α × State :=
  let (k, s) := s.pick l.length
  (l[k]?, s)

/-! ## Time stamps (R310, R126) -/

/-- TBM in whole nanoseconds. -/
def State.now (s : State) : Nanos := s.time.tbm / 2 ^ 32

/-- A time in the layout of R310, from units of 2⁻³² ns. -/
def timeField (t : Int) : List Byte :=
  let n := t.toNat
  let ns := n / 2 ^ 32
  le 8 (ns / 1000000000) ++ le 4 (ns % 1000000000) ++ le 2 (n / 2 ^ 16 % 2 ^ 16) ++ le 2 0

/-- A time of whole nanoseconds in the layout of R310. -/
def nanosField (t : Nanos) : List Byte := timeField ((t : Int) * 2 ^ 32)

/-- TBM now, in the layout of R310. -/
def State.tbmField (s : State) : List Byte := timeField s.time.tbm

/-- Milliseconds and microseconds in nanoseconds. -/
def ms (n : Nat) : Nanos := n * 1000000
def us (n : Nat) : Nanos := n * 1000
def sec (n : Nat) : Nanos := n * 1000000000

/-- Whether an event that is raised at most once in a span may be raised now. -/
def State.mayRaise (s : State) (last : Option Nanos) (span : Nanos) : Bool :=
  match last with
  | none => true
  | some t => decide (t + span ≤ s.now)

/-! ## Updates of one part -/

def State.updPower (s : State) (f : Power → Power) : State := { s with power := f s.power }
def State.updNcp (s : State) (f : Ncp → Ncp) : State := { s with ncp := f s.ncp }
def State.updCfg (s : State) (f : Cfg → Cfg) : State := { s with cfg := f s.cfg }
def State.updLedger (s : State) (f : Ledger → Ledger) : State := { s with ledger := f s.ledger }
def State.updMem (s : State) (f : MemCtl → MemCtl) : State := { s with mem := f s.mem }
def State.updEp (s : State) (f : Endpoint → Endpoint) : State := { s with ep := f s.ep }
def State.updTime (s : State) (f : Time → Time) : State := { s with time := f s.time }
def State.updTrust (s : State) (f : Trust → Trust) : State := { s with trust := f s.trust }
def State.updHealth (s : State) (f : Health → Health) : State := { s with health := f s.health }
def State.updObs (s : State) (f : Obs → Obs) : State := { s with obs := f s.obs }
def State.updNv (s : State) (f : Nv → Nv) : State := { s with nv := f s.nv }

/-- A group of outputs is driven from now on (R66). -/
def State.drivePins (s : State) (g : PinGroup) : State :=
  s.updPower fun p => { p with driven := if p.driven.contains g then p.driven else p.driven ++ [g] }

/-- A group of outputs goes high-impedance again (R62, R100, R285). -/
def State.releasePins (s : State) (g : PinGroup) : State := s.updPower fun p => { p with driven := p.driven.filter (· != g) }

def State.out (s : State) (o : OutMsg) : State := { s with outs := o :: s.outs }

def State.updShroud (s : State) (n : Nat) (f : Shroud → Shroud) : State := { s with shrouds := upd s.shrouds n f }
def State.updSensor (s : State) (n : Nat) (f : Sensor → Sensor) : State := { s with sensors := upd s.sensors n f }
def State.updCtx (s : State) (n : Nat) (f : Context → Context) : State := { s with ctxs := upd s.ctxs n f }
def State.updSteep (s : State) (n : Nat) (f : SteepCtx → SteepCtx) : State := { s with steep := upd s.steep n f }
def State.updMash (s : State) (n : Nat) (f : MashCtx → MashCtx) : State := { s with mash := upd s.mash n f }
def State.updEnc (s : State) (n : Nat) (f : Encoding → Encoding) : State := { s with encs := upd s.encs n f }
def State.updDec (s : State) (n : Nat) (f : DecStream → DecStream) : State := { s with decs := upd s.decs n f }
def State.updStream (s : State) (n : Nat) (f : Stream → Stream) : State := { s with streams := upd s.streams n f }
def State.updDrive (s : State) (n : Nat) (f : Drive → Drive) : State := { s with drives := upd s.drives n f }
def State.updBrl (s : State) (n : Nat) (f : BrlCtx → BrlCtx) : State := { s with brl := upd s.brl n f }
def State.updBase (s : State) (n : Nat) (f : Base → Base) : State :=
  { s with time := { s.time with bases := upd s.time.bases n f } }
def State.updHbm (s : State) (n : Nat) (f : Stack → Stack) : State :=
  { s with mem := { s.mem with hbm := upd s.mem.hbm n f } }
def State.updPc (s : State) (n : Nat) (f : PChan → PChan) : State :=
  { s with mem := { s.mem with pchans := upd s.mem.pchans n f } }
def State.updVec (s : State) (n : Nat) (f : Vec → Vec) : State := { s with vecs := upd s.vecs n f }
def State.updSlot (s : State) (n : Nat) (f : Slot → Slot) : State :=
  { s with ncp := { s.ncp with slots := upd s.ncp.slots n f } }
def State.updSession (s : State) (n : Nat) (f : Session → Session) : State :=
  { s with ncp := { s.ncp with sessions := upd s.ncp.sessions n f } }
def State.updMg (s : State) (n : Nat) (f : MgBox → MgBox) : State :=
  { s with ncp := { s.ncp with mg := upd s.ncp.mg n f } }

/-- Slot k of yard y, 1 to 7, or of the root ports by number (R532: port = 4 (y − 1) + k). -/
def State.updPort (s : State) (y k : Nat) (f : FlexPort → FlexPort) : State :=
  { s with yards := upd s.yards (y - 1) (fun yd => { yd with ports := upd yd.ports k f }) }

def State.shroud (s : State) (n : Nat) : Shroud := s.shrouds.getD n Shroud.reset
def State.sensor (s : State) (n : Nat) : Sensor := s.sensors.getD n Sensor.reset
def State.ctx (s : State) (n : Nat) : Context := s.ctxs.getD n Context.reset
def State.stp (s : State) (n : Nat) : SteepCtx := s.steep.getD n SteepCtx.reset
def State.msh (s : State) (n : Nat) : MashCtx := s.mash.getD n MashCtx.reset
def State.enc (s : State) (n : Nat) : Encoding := s.encs.getD n Encoding.reset
def State.dec (s : State) (n : Nat) : DecStream := s.decs.getD n DecStream.reset
def State.stream (s : State) (n : Nat) : Stream := s.streams.getD n Stream.reset
def State.drive (s : State) (n : Nat) : Drive := s.drives.getD n Drive.reset
def State.brlCtx (s : State) (n : Nat) : BrlCtx := s.brl.getD n BrlCtx.reset
def State.base (s : State) (n : Nat) : Base := s.time.bases.getD n Base.reset
def State.hbm (s : State) (n : Nat) : Stack := s.mem.hbm.getD n Stack.reset
def State.pchan (s : State) (n : Nat) : PChan := s.mem.pchans.getD n PChan.reset
def State.vec (s : State) (n : Nat) : Vec := s.vecs.getD n Vec.reset
def State.slot (s : State) (n : Nat) : Slot := s.ncp.slots.getD n Slot.reset
def State.session (s : State) (n : Nat) : Session := s.ncp.sessions.getD n Session.reset
def State.mg (s : State) (n : Nat) : MgBox := s.ncp.mg.getD n MgBox.reset
def State.yard (s : State) (y : Nat) : Yard := s.yards.getD (y - 1) Yard.reset
def State.port (s : State) (y k : Nat) : FlexPort := (s.yard y).ports.getD k FlexPort.reset

/-- Nimlek runs: boot codes 0x60 and above below 0xE0, or 0xF0 (R105, R142). -/
def State.nimlek (s : State) : Bool :=
  let c := s.power.bootCode.toNat
  (0x60 ≤ c && c < 0xE0) || c == 0xF0

/-- FW_READY: the boot code is 0xF0. -/
def State.fwReady (s : State) : Bool := s.power.bootCode == 0xF0

/-- The condition RUNNING of R61. -/
def State.running (s : State) : Bool := s.power.condition == .running

end Sys2Proof.Machine
end

