-- ==== Sys2Proof/Machine/Operands.lean ====
section
/-! DEFINITION. The operands of a command: its header and payload as they lie in a mailbox (R111, R118), the checks of
R122 that every command shares, and the blocks of a generation by type and target (R154, R159). -/

namespace Sys2Proof

/-- Where a mailbox's bytes lie in the message memory: BAR0 for a slot (R109), the management space for MB0 and MB1 (R140). -/
def Mbox.base : Mbox → Nat
  | .slot n => 0x100000 + n * 0x4000
  | .mgmt m => 2 ^ 32 + 0x10000 + m * 0x4000

/-- The slot field of a completion record (R125). -/
def Mbox.code : Mbox → Nat
  | .slot n => n
  | .mgmt m => 0xF0 + m

/-- Slots 60 to 63 are open slots (R111). -/
def Mbox.isOpen : Mbox → Bool
  | .slot n => 60 ≤ n
  | .mgmt _ => false

def Mbox.isMgmt : Mbox → Bool
  | .slot _ => false
  | .mgmt _ => true

/-- The largest payload of the mailbox (R111). -/
def Mbox.limit (b : Mbox) : Nat := if b.isOpen then 16320 else 16352

end Sys2Proof

namespace Sys2Proof.Machine

open Sys2Proof

/-! ## Mailboxes -/

def State.boxSt (s : State) : Mbox → SlotState
  | .slot n => (s.slot n).st
  | .mgmt m => (s.mg m).st

def State.setBox (s : State) (b : Mbox) (st : SlotState) : State :=
  match b with
  | .slot n => s.updSlot n (fun x => { x with st := st })
  | .mgmt m => s.updMg m (fun x => { x with st := st })

/-- Bytes of a mailbox. -/
def State.boxBytes (s : State) (b : Mbox) (off n : Nat) : List Byte := s.ncp.mem.readN (b.base + off) n

/-- The command that lies in a mailbox (R118). A payload length above the mailbox's limit reads no payload. -/
def State.cmdIn (s : State) (b : Mbox) : Cmd :=
  let h := s.boxBytes b 0 32
  let len := fld h 12 4
  { box := b, opcode := fld h 0 2, flags := fld h 2 2, session := fld h 4 1, seq := BitVec.ofNat 32 (fld h 8 4),
    len := len, target := fld h 16 4, ctx := fld h 20 4, cookie := sub h 24 8,
    payload := if len ≤ b.limit then s.boxBytes b 32 len else [] }

/-! ## Status codes (R124) -/

def stOk : Nat := 0x0000
def stAccepted : Nat := 0x0001
def stBadOpcode : Nat := 0x0101
def stBadLength : Nat := 0x0102
def stBadField : Nat := 0x0103
def stBadSequence : Nat := 0x0104
def stLiveLocked : Nat := 0x0201
def stNoStaged : Nat := 0x0202
def stNoPrevious : Nat := 0x0203
def stValidationFailed : Nat := 0x0204
def stNotAuthorised : Nat := 0x0301
def stSignatureInvalid : Nat := 0x0302
def stRollbackBlocked : Nat := 0x0303
def stBusy : Nat := 0x0401
def stRefusedBudget : Nat := 0x0402
def stRefusedHeat : Nat := 0x0403
def stRefusedQuota : Nat := 0x0404
def stRefusedDeadline : Nat := 0x0405
def stMissingRef : Nat := 0x0406
def stBudgetExhausted : Nat := 0x0407
def stHwFault : Nat := 0x0501
def stSelftestFailed : Nat := 0x0502

/-! ## The form of a command: what the checks of R122 need to know of it -/

/-- Which context ID a command carries (R118). -/
inductive CtxKind where
  | one | none
deriving DecidableEq, Repr

/-- Which lengths between the least and the greatest a command's row allows (R122). -/
inductive LenRule where
  | any
  /-- One of two lengths. -/
  | oneOf (a b : Nat)
  /-- A count in the payload says how many entries of `step` bytes follow the first `base`; a count outside `least` to `most` is a
  field at fault, which R122 tests later. -/
  | entries (off size least most base step : Nat)
deriving DecidableEq, Repr

/-- The length that the command requires, where it has another (R123). -/
def LenRule.fault (r : LenRule) (p : List Byte) (len : Nat) : Option Nat :=
  match r with
  | .any => none
  | .oneOf a b => if len = a ∨ len = b then none else some b
  | .entries off size least most base step =>
    let k := fld p off size
    if least ≤ k ∧ k ≤ most ∧ len ≠ base + step * k then some (base + step * k) else none

/-- A command's row in its chapter's table. Reserved ranges are offsets in the payload. -/
structure Form where
  op     : Nat
  host   : Bool := true
  inOpen : Bool := false
  mgmt   : Bool := false
  /-- Also served by the boot ROM and the first stage (R142). -/
  rom    : Bool := false
  lo     : Nat := 0
  hi     : Nat := 0
  lens   : LenRule := .any
  ctx    : CtxKind := .none
  /-- The command flags that the chapter defines, as a mask of the flags field. -/
  flags  : Nat := 0
  /-- R121 applies; a chapter may give the field another meaning. -/
  target : Bool := true
  reserved : List (Nat × Nat) := []
  /-- Reserved flag bits: offset and size of a field of the payload, and the mask of its reserved bits. -/
  reservedBits : List (Nat × Nat × Nat) := []
deriving DecidableEq, Repr

/-- Every opcode of NCP 3.2, in the order of the chapters. -/
def opcodes : List Nat :=
  [0x0101, 0x0102, 0x0103, 0x0104, 0x0105, 0x0106, 0x0107, 0x0108, 0x0110, 0x0111, 0x0112,
   0x0201, 0x0202, 0x0203, 0x0204, 0x0205, 0x0206, 0x0207, 0x0208,
   0x0301, 0x0302, 0x0303, 0x0304, 0x0320, 0x0321,
   0x0401, 0x0402, 0x0403, 0x0404, 0x0405, 0x0406, 0x0407, 0x0408] ++
  [0x0501, 0x0502, 0x0503, 0x0504, 0x0505, 0x0506, 0x0507, 0x0508, 0x0509,
   0x0601, 0x0602, 0x0603,
   0x0701, 0x0702, 0x0703, 0x0704, 0x0705, 0x0706, 0x0707, 0x0708, 0x0709, 0x070A, 0x070B, 0x070C,
   0x0801, 0x0802, 0x0803, 0x0820, 0x0821, 0x0822] ++
  [0x0901, 0x0902, 0x0903, 0x0904, 0x0905, 0x0906, 0x0907,
   0x0A01, 0x0A02, 0x0A03, 0x0A04, 0x0A05, 0x0A06,
   0x0B01, 0x0B02, 0x0B03, 0x0B04, 0x0C01, 0x0C02, 0x0D01, 0x0D02, 0x0D03, 0x0E01, 0x0E02, 0x0E03]

/-- The offset of the first reserved field, or field with a reserved bit, that is not 0 (R3, R122). -/
def Form.reservedFault (f : Form) (p : List Byte) : Option Nat :=
  let bytes := (firstNonZero p f.reserved).toList ++ (f.reservedBits.filter (fun r => fld p r.1 r.2.1 &&& r.2.2 != 0)).map (·.1)
  leastBy id bytes

/-- The first header field that R122 faults with BAD_FIELD, in message order. -/
def Cmd.headerFault (c : Cmd) (hdr : List Byte) (f : Form) : Option Nat :=
  if c.flags &&& (0xFFFF ^^^ (1 ||| f.flags)) != 0 then some 2
  else if !allZero hdr 5 3 then some 5
  else
    let ctxOk := match f.ctx with
      | .one => c.ctx < 64
      | .none => c.ctx == 0xFFFFFFFF
    if !ctxOk then some 20
    else (f.reservedFault c.payload).map (· + 32)

/-! ## Blocks of a generation (R154, R159) -/

/-- The block of a type and target in a list of blocks. -/
def blockIn (bs : List Block) (type target : Nat) : Option Block :=
  bs.find? (fun b => b.type == type && b.target == target)

/-- Its payload. -/
def payloadIn (bs : List Block) (type target : Nat) : Option (List Byte) := (blockIn bs type target).map (·.payload)

/-- Target of a global block (R154). -/
def globalTarget : Nat := 0xFFFF

/-- The payload of the block in force, as its shadow copy latched it (R181). -/
def State.inForce (s : State) (type target : Nat) : Option (List Byte) := payloadIn s.cfg.inForce type target

def State.globalBlock (s : State) (type : Nat) : Option (List Byte) := s.inForce type globalTarget

/-- Entries of a fixed size in a payload, from an offset on. -/
def entriesFrom (p : List Byte) (off size n : Nat) : List (List Byte) :=
  (List.range n).map (fun k => sub p (off + size * k) size)

/-- The LIVE generation's number, 0 when none is LIVE (R148). -/
def State.liveNumber (s : State) : Nat := match s.cfg.live with | some g => g.number | none => 0

end Sys2Proof.Machine
end

