-- ==== Sys2Proof/Machine/Geometry.lean ====
section
/-! DEFINITION. Sizes that follow from configuration blocks: tiles (R22–R26), slots (R296), developer memory (R684), encodings
(R397, R409, R422), decode streams (R445) and the rates of landing (R315). -/

namespace Sys2Proof.Machine

open Sys2Proof

/-- A context's blocks in a list of blocks: the payload of a type. -/
abbrev CtxBlocks := Nat → Option (List Byte)

def ctxBlocks (bs : List Block) (c : Nat) : CtxBlocks := fun type => payloadIn bs type c

/-! ## Frames and landing -/

def linkWidth (p : List Byte) : Nat := fld p 4 2
def linkHeight (p : List Byte) : Nat := fld p 6 2
def linkDepth (p : List Byte) : Nat := fld p 2 1 - 0x20
def linkPad (p : List Byte) : Nat := fld p 8 2
def linkEmbed (p : List Byte) : Nat := fld p 16 4
def lineBytes (p : List Byte) : Nat := linkWidth p * linkDepth p / 8

def tilesX (w : Nat) : Nat := ceilDiv w 64
def tilesY (h : Nat) : Nat := ceilDiv h 16

/-- Raw tiles of a frame (R24). -/
def rawTiles (p : List Byte) : Nat := tilesX (linkWidth p) * tilesY (linkHeight p)

/-- Bytes of a frame's raw tiles. -/
def rawBytes (p : List Byte) : Nat := rawTiles p * 128 * linkDepth p

def embedArea (p : List Byte) : Nat := roundUp (linkEmbed p) 64

/-- The slot size S (R296). -/
def slotSize (p : List Byte) : Nat := roundUp (rawBytes p + embedArea p) 4096

def quotaBytes (l : List Byte) : Nat := fld l 4 4 * 1048576

/-- Slots of a ring from LINK_CONTEXT and LANDING_CONTEXT. -/
def slotCount (p l : List Byte) : Nat := if slotSize p = 0 then 0 else quotaBytes l / slotSize p

/-- Configured ingest rate in bytes per 1,000 s (R315). -/
def ingestMilli (p l : List Byte) : Nat := (rawBytes p + embedArea p) * fld l 12 4

/-- Frame period in ns, exact. -/
def framePeriod (l : List Byte) : Rat := 1000000000000 / (fld l 12 4 : Nat)

/-! ## binary32 (R329, R362) -/

/-- The exact value of a finite binary32 pattern; none for NaN and infinities. -/
def f32Value (w : Nat) : Option Rat :=
  let e := bits w 30 23
  let m := bits w 22 0
  let mag : Rat := if e = 0 then (m : Nat) / (2 : Rat) ^ 149
    else if 150 ≤ e then ((2 ^ 23 + m) * 2 ^ (e - 150) : Nat) else ((2 ^ 23 + m : Nat) : Rat) / (2 : Rat) ^ (150 - e)
  if e = 255 then none else some (if bit w 31 then -mag else mag)

/-- A binary32 field of a payload. -/
def f32 (p : List Byte) (off : Nat) : Option Rat := f32Value (fld p off 4)

def f32D (p : List Byte) (off : Nat) : Rat := (f32 p off).getD 0

/-! ## Developer memory (R342, R684) -/

def coreOf (b : CtxBlocks) : List Byte := (b 0x0301).getD []
def steepOn (b : CtxBlocks) (flag : Nat) : Bool := bit (fld (coreOf b) 0 1) flag
def steepEnabled (b : CtxBlocks) : Bool := (b 0x0301).isSome && steepOn b 0
def cfaPeriod (core : List Byte) : Nat := 2 ^ fld core 1 1
def workFrames (core : List Byte) : Nat := if fld core 26 1 = 0 then 2 else fld core 26 1
def mashEnabled (b : CtxBlocks) : Bool := match b 0x0401 with | some m => bit (fld m 0 1) 0 | none => false

/-- Entries of MASH_OUTPUT. -/
def mashEntries (b : CtxBlocks) : List (List Byte) :=
  match b 0x0402 with
  | some p => entriesFrom p 8 128 (fld p 0 4)
  | none => []

def mashEntry (b : CtxBlocks) (o : Nat) : Option (List Byte) := (mashEntries b).find? (fun e => fld e 0 1 == o)

def outWidth (e : List Byte) : Nat := fld e 28 2
def outHeight (e : List Byte) : Nat := fld e 30 2
def outFrames (e : List Byte) : Nat := if fld e 9 1 = 0 then 2 else fld e 9 1

/-- Tile width and height of a pixel format (R26, R381), and its bytes per pixel. -/
def fmtTile : Nat → Nat × Nat × Nat
  | 1 => (64, 16, 2)
  | 2 => (64, 8, 4)
  | _ => (32, 8, 8)

def outTilesX (e : List Byte) : Nat := ceilDiv (outWidth e) (fmtTile (fld e 1 1)).1
def outTilesY (e : List Byte) : Nat := ceilDiv (outHeight e) (fmtTile (fld e 1 1)).2.1
def outTiles (e : List Byte) : Nat := outTilesX e * outTilesY e

/-- An item rounded up to whole tiles, each with its tag-plane entry. -/
def tiled (bytes : Nat) : Nat := ceilDiv bytes 2048 * 2052

def mapTypes : List Nat := [0x0302, 0x0303, 0x0304]

def mapBytes (b : CtxBlocks) : Nat := (mapTypes.map (fun t => match b t with | some p => tiled p.length | none => 0)).sum

/-- The 2,048-byte tiles that hold `n` entries of 2 bytes from an offset of a payload on. -/
def tilesOver (off n : Nat) : List Nat :=
  if n = 0 then [] else List.range' (off / 2048) ((off + 2 * n - 1) / 2048 + 1 - off / 2048)

/-- Tiles of the maps that band `k` of a frame uses (R359): block type and tile. The offsets of its rows and of all columns, the
defects on its rows, and the gain knots around it. -/
def mapTiles (b : CtxBlocks) (w h k : Nat) : List (Nat × Nat) :=
  let rows := min 16 (h - 16 * k)
  let last := 16 * k + rows - 1
  let flag (n : Nat) : Bool := bit (fld (coreOf b) 0 1) n
  let offs := if flag 5 then tilesOver (8 + 2 * (16 * k)) rows ++ tilesOver (8 + 2 * h) w else []
  let defs := match b 0x0303 with
    | some p => if flag 4 then (List.range (fld p 0 4)).filterMap (fun i =>
        let row := fld p (8 + 4 * i) 4 / 65536
        if 16 * k ≤ row && row ≤ last && rows != 0 then some ((8 + 4 * i) / 2048) else none) else []
    | none => []
  let gains := match b 0x0304 with
    | some p =>
      if flag 6 then
        let (cell, kc, kr) := (2 ^ fld p 0 1, fld p 2 2, fld p 4 2)
        let js := List.range' (16 * k / cell) (last / cell + 2 - 16 * k / cell)
        (List.range (fld (coreOf b) 2 1)).flatMap (fun q => js.flatMap (fun j => tilesOver (16 + 2 * ((q * kr + j) * kc)) kc))
      else []
    | none => []
  nub (offs.map (fun t => (0x0302, t)) ++ defs.map (fun t => (0x0303, t)) ++ gains.map (fun t => (0x0304, t)))

/-- Bytes of the map tiles that a band reads, with their tag-plane entries. -/
def mapTraffic (b : CtxBlocks) (w h k : Nat) : Nat := ((mapTiles b w h k).filter (fun u => (b u.1).isSome)).length * 2052

/-- Flicker forms of STEEP_FLICKER: 0 within-frame, 1 across-frame. -/
def flickOn (b : CtxBlocks) (form : Nat) : Bool := match b 0x0305 with | some p => bit (fld p 0 1) form | none => false
def seriesLength (p : List Byte) : Nat := if fld p 12 4 = 0 then 4096 else fld p 12 4

/-- Steep's developer memory of a context. -/
def steepMemory (b : CtxBlocks) : Nat :=
  match b 0x0201 with
  | none => 0
  | some link =>
    let tiles := rawTiles link
    let profile := ceilDiv (linkHeight link) (cfaPeriod (coreOf b)) * 8
    (if steepEnabled b then workFrames (coreOf b) * tiles * 2052 + tiled (256 * 64) else 0) +
    (if (b 0x0301).isSome && steepOn b 2 then 2 * tiles * 2052 else 0) + mapBytes b +
    (if flickOn b 0 then tiled profile + tiled (256 * profile) else 0) +
    (if flickOn b 1 then tiled (2 * seriesLength ((b 0x0305).getD []) * 8) else 0) +
    (if flickOn b 0 || flickOn b 1 then tiled (256 * 128) else 0)

/-- Mash's developer memory of a context. -/
def mashMemory (b : CtxBlocks) : Nat :=
  ((mashEntries b).map (fun e => outFrames e * (outTiles e * 2052) + tiled (ceilDiv (outTilesY e) 8))).sum +
    (if mashEnabled b then tiled (256 * 64) else 0)

/-! ## Encodings (R397, R398, R408, R409, R422) -/

/-- ENC_XS and ENC_HEVC entries of a context. -/
def xsEntries (b : CtxBlocks) : List (List Byte) :=
  match b 0x0501 with | some p => entriesFrom p 8 32 (fld p 0 4) | none => []

def hevcEntries (b : CtxBlocks) : List (List Byte) :=
  match b 0x0502 with | some p => entriesFrom p 8 32 (fld p 0 4) | none => []

/-- Picture size of an encoding's source: photosites of the frame, or pixels of the Mash output. -/
def encSize (b : CtxBlocks) (e : List Byte) : Nat × Nat :=
  if fld e 1 1 = 0 then match b 0x0201 with | some p => (linkWidth p, linkHeight p) | none => (0, 0)
  else match mashEntry b (fld e 1 1 - 1) with | some o => (outWidth o, outHeight o) | none => (0, 0)

/-- Source rows of one row of an encoding: 2^NLy component lines, twice that for source 0; 64 for HEVC (R398). -/
def encRowLines (codec : Nat) (e : List Byte) : Nat :=
  if codec = 1 then 64 else if fld e 1 1 = 0 then 2 ^ (fld e 3 1 + 1) else 2 ^ fld e 3 1

def encRows (b : CtxBlocks) (codec : Nat) (e : List Byte) : Nat := ceilDiv (encSize b e).2 (encRowLines codec e)

/-- Pixels, photosites or luma samples of a row. -/
def encRowPixels (b : CtxBlocks) (codec : Nat) (e : List Byte) (k : Nat) : Nat :=
  let (w, h) := encSize b e
  w * min (encRowLines codec e) (h - k * encRowLines codec e)

/-- Floor size of a row of P pixels (R409). -/
def floorSize (p : Nat) : Nat := ceilDiv p 128 + 64

def encFloorSum (b : CtxBlocks) (codec : Nat) (e : List Byte) : Nat :=
  ((List.range (encRows b codec e)).map (fun k => floorSize (encRowPixels b codec e k))).sum

/-- Target bytes of a JPEG XS picture. -/
def xsTarget (b : CtxBlocks) (e : List Byte) : Nat :=
  let (w, h) := encSize b e
  fld e 4 2 * (w * h) / 128

/-- Frame rate in 1/1000 fps of a context. -/
def frameRate (b : CtxBlocks) : Nat := match b 0x0203 with | some l => fld l 12 4 | none => 0

/-- HEVC target of a picture type, 0 I, 1 P, 2 B (R408): mN × weight / W_g, rounded down. -/
def hevcTarget (b : CtxBlocks) (e : List Byte) (type : Nat) : Nat :=
  let n := fld e 6 2
  let m := fld e 5 1
  let anchors := ceilDiv (n - 1) (m + 1)
  let np := anchors
  let nb := n - 1 - np
  let wg := 4 + 2 * np + nb
  let weight := if type = 0 then 4 else if type = 1 then 2 else 1
  if frameRate b = 0 then 0 else fld e 8 4 * 1000 * 1000 * n * weight / (8 * frameRate b * wg)

/-- HEVC reference and pyramid memory of an encoding: (references + M + 1) × ow × oh × 4.3125 bytes. -/
def hevcMemory (b : CtxBlocks) (e : List Byte) : Nat :=
  let (w, h) := encSize b e
  (fld e 16 1 + fld e 5 1 + 1) * w * h * 69 / 16

/-! ## Decode streams (R445) and staging rings (R462, R480) -/

/-- Tile columns of an output frame. R445's W_t = max width / 64 is its part of a tile where the width is no multiple of 64. -/
def decTilesX (e : List Byte) : Nat := ceilDiv (fld e 4 2) 64
def decTilesY (e : List Byte) : Nat := ceilDiv (fld e 6 2) 8
def decStoreBytes (e : List Byte) : Nat := (fld e 8 1 + 1) * (fld e 4 2 * fld e 6 2) * 33 / 8
/-- Bytes of the output frames as R445 counts them: a width of no whole tiles counts as its part of one. -/
def decFrameBytes (e : List Byte) : Nat := ceilDiv (fld e 9 1 * fld e 4 2 * decTilesY e * 2052) 64

/-- Bytes that the store and the output frames take as they are laid out, a part of a tile as a whole one; a store entry is laid out as an
output frame is (DESIGN CHOICE: R445 gives sizes and no layout; assumption 38). -/
def decAreaBytes (e : List Byte) : Nat := decTilesX e * decTilesY e * 2052
def decStoreArea (e : List Byte) : Nat := max (roundUp (decStoreBytes e) 2048) ((fld e 8 1 + 1) * decAreaBytes e)
def decMemory (e : List Byte) : Nat := fld e 12 4 * 1024 + decStoreBytes e + decFrameBytes e

/-- Whether R462 asks for a staging ring, and its bytes. -/
def needsRing (e : List Byte) : Bool := fld e 1 1 == 0 && (fld e 2 1 == 0 || bit (fld e 8 2) 1)

def flushQuantum (e : List Byte) : Nat := (if fld e 20 4 = 0 then 64 else fld e 20 4) * 1048576

def stagingBytes (e : List Byte) : Nat :=
  if fld e 1 1 != 0 then 0 else if fld e 24 4 = 0 then (if needsRing e then 1024 * 1048576 else 0) else fld e 24 4 * 1048576

end Sys2Proof.Machine
end

