-- ==== Sys2Proof/Machine/Real.lean ====
section
/-! DEFINITION. The functions of a real variable that rules and the standards they name use (R14, R347, R378, R410, R630, R631, R685):
2 to a power, natural logarithm, square root, sine, cosine and the angle of a point. Each is summed from its series in fixed point with
160 fractional bits, well beyond every format that the spec rounds to (assumption 19). -/

namespace Sys2Proof.Machine

open Sys2Proof

/-- 2 to an integer power. -/
def twoPow (e : Int) : Rat := if 0 ≤ e then ((2 ^ e.toNat : Nat) : Rat) else 1 / ((2 ^ (-e).toNat : Nat) : Rat)

/-- The exponent e with 2^e ≤ |q| < 2^(e+1), for q not 0. -/
def expOf (q : Rat) : Int :=
  let e : Int := (q.num.natAbs.log2 : Int) - q.den.log2
  if |q| < twoPow e then e - 1 else e

/-- One in fixed point, and a number to and from fixed point. -/
def fixOne : Int := 2 ^ 160
def toFix (q : Rat) : Int := (q * (fixOne : Rat)).floor
def ofFix (n : Int) : Rat := (n : Rat) / (fixOne : Rat)

def fixMul (a b : Int) : Int := a * b / fixOne

/-- A series from its first term: term k + 1 comes from term k by `next`, and `weight` says what term k adds. -/
def series (terms : Nat) (first : Int) (next weight : Nat → Int → Int) : Int :=
  ((List.range terms).foldl (fun (a : Int × Int) k => (a.1 + weight k a.2, next k a.2)) (0, first)).1

/-- z + z³/3 + z⁵/5 + … for |z| ≤ 1/3: the area tangent. -/
def artanhFix (z : Int) : Int := series 60 z (fun _ x => fixMul (fixMul x z) z) (fun k x => x / (2 * (k : Int) + 1))

/-- z − z³/3 + z⁵/5 − … for |z| ≤ 1/2: the arc tangent. -/
def arctanFix (z : Int) : Int := series 90 z (fun _ x => -(fixMul (fixMul x z) z)) (fun k x => x / (2 * (k : Int) + 1))

def ln2Fix : Int := 2 * artanhFix (fixOne / 3)

/-- π, by Machin's formula. -/
def piFix : Int := 16 * arctanFix (fixOne / 5) - 4 * arctanFix (fixOne / 239)

/-- The natural logarithm of x; 0 for an x not above 0, which no rule asks for. -/
def lnR (x : Rat) : Rat :=
  if x ≤ 0 then 0
  else
    let e := expOf x
    let m := x / twoPow e
    ofFix (2 * artanhFix (toFix ((m - 1) / (m + 1))) + e * ln2Fix)

/-- 2 to the power x. -/
def exp2R (x : Rat) : Rat :=
  let n := x.floor
  let t := fixMul (toFix (x - n)) ln2Fix
  ofFix (series 50 fixOne (fun k y => fixMul y t / ((k : Int) + 1)) (fun _ y => y)) * twoPow n

/-- The square root of x; exact where x is the square of a fraction whose numerator and denominator are squares. -/
def sqrtR (x : Rat) : Rat :=
  if x ≤ 0 then 0
  else
    let n := x.num.natAbs
    let d := x.den
    if n.sqrt * n.sqrt = n ∧ d.sqrt * d.sqrt = d then (n.sqrt : Rat) / (d.sqrt : Nat)
    else
      let k := 160 + (if expOf x < 0 then (-(expOf x)).toNat else 0)
      ((x * ((4 ^ k : Nat) : Rat)).floor.toNat.sqrt : Rat) / ((2 ^ k : Nat) : Rat)

/-- Sine and cosine of an angle of 0 to 2π in fixed point. -/
def sinFix (t : Int) : Int :=
  series 60 t (fun k x => -(fixMul (fixMul x t) t / ((2 * (k : Int) + 2) * (2 * (k : Int) + 3)))) (fun _ x => x)

def cosFix (t : Int) : Int :=
  series 60 fixOne (fun k x => -(fixMul (fixMul x t) t / ((2 * (k : Int) + 1) * (2 * (k : Int) + 2)))) (fun _ x => x)

/-- Sine and cosine of 2π x. -/
def sinTurn (x : Rat) : Rat := ofFix (sinFix (fixMul (toFix (x - x.floor)) (2 * piFix)))
def cosTurn (x : Rat) : Rat := ofFix (cosFix (fixMul (toFix (x - x.floor)) (2 * piFix)))

/-- The arc tangent of t from 0 to 1, as a part of a turn: the angle is halved once. -/
def arctanTurn (t : Rat) : Rat := ofFix (2 * arctanFix (toFix (t / (1 + sqrtR (1 + t * t))))) / ofFix (2 * piFix)

/-- The angle of (x, y) in turns, from 0 to 1; 0 for the origin. -/
def argTurn (x y : Rat) : Rat :=
  if x = 0 ∧ y = 0 then 0
  else
    let a := |x|
    let b := |y|
    let first := if b ≤ a then arctanTurn (b / a) else 1 / 4 - arctanTurn (a / b)
    let half := if x < 0 then 1 / 2 - first else first
    if y < 0 then 1 - half else half

end Sys2Proof.Machine
end

