-- ==== Sys2Proof/Machine/Float.lean ====
section
/-! DEFINITION. IEEE 754 arithmetic that Steep and Mash use (R329, R362). A finite binary32 value is its exact rational; the
infinities are ±2¹²⁸ and NaN is 2¹²⁹, which no finite value reaches, and −0 is −2⁻²⁰⁰, which lies nearer to 0 than any other value:
its sign is that of the number, and `fval` is what it stands for. Every operation rounds to nearest even. -/

namespace Sys2Proof.Machine

/-- The nearest integer, ties to even. -/
def nearestEven (q : Rat) : Int :=
  let f := q.floor
  let r := q - f
  if r < 1 / 2 then f else if 1 / 2 < r then f + 1 else if f % 2 = 0 then f else f + 1

/-- Rounding to a format with p significant bits and least exponent emin of the last place. -/
def roundTo (p : Nat) (emin : Int) (q : Rat) : Rat :=
  if q = 0 then 0
  else
    let u := twoPow (max (expOf q - (p - 1 : Nat)) emin)
    nearestEven (q / u) * u

/-- Positive infinity and NaN. -/
def fInf : Rat := twoPow 128
def fNaN : Rat := twoPow 129

/-- Negative zero, and the number that a value stands for. -/
def fNegZero : Rat := -twoPow (-200)
def fval (v : Rat) : Rat := if v = fNegZero then 0 else v

/-- Zero with the sign of a number. -/
def zeroLike (q : Rat) : Rat := if q < 0 then fNegZero else 0

/-- The binary32 value nearest to an exact number; one that rounds beyond the largest finite value is an infinity, and one that
rounds to zero keeps its sign. -/
def r32 (q : Rat) : Rat :=
  let v := roundTo 24 (-149) q
  if fInf ≤ v then fInf else if v ≤ -fInf then -fInf else if v = 0 then zeroLike q else v

def isNaN (v : Rat) : Bool := v == fNaN

/-- An infinity or NaN. -/
def infinite (v : Rat) : Bool := decide (fInf ≤ |v|)

def fneg (a : Rat) : Rat := if isNaN a then fNaN else if fval a = 0 then (if a < 0 then 0 else fNegZero) else -a
def fabs (a : Rat) : Rat := if isNaN a then fNaN else |fval a|

/-- a < b, which is false of NaN. -/
def flt (a b : Rat) : Bool := !isNaN a && !isNaN b && decide (fval a < fval b)

/-- A zero sum is negative only where both terms are. -/
def fadd (a b : Rat) : Rat :=
  if isNaN a || isNaN b then fNaN
  else if infinite a then (if infinite b && a != b then fNaN else a)
  else if infinite b then b
  else if fval a + fval b = 0 then (if a < 0 ∧ b < 0 then fNegZero else 0)
  else r32 (fval a + fval b)

def fsub (a b : Rat) : Rat := fadd a (fneg b)

/-- Whether a product or quotient is negative. -/
def opposite (a b : Rat) : Bool := decide (a < 0) != decide (b < 0)

def signed (neg : Bool) (v : Rat) : Rat := if neg then fneg v else v

def fmul (a b : Rat) : Rat :=
  if isNaN a || isNaN b then fNaN
  else if infinite a || infinite b then (if fval a = 0 || fval b = 0 then fNaN else signed (opposite a b) fInf)
  else signed (opposite a b) (r32 |fval a * fval b|)

def fdiv (a b : Rat) : Rat :=
  if isNaN a || isNaN b || (infinite a && infinite b) || (fval a = 0 && fval b = 0) then fNaN
  else if infinite b then signed (opposite a b) 0
  else if infinite a || fval b = 0 then signed (opposite a b) fInf
  else signed (opposite a b) (r32 |fval a / fval b|)

/-- The correctly rounded square root of a value not below 0. -/
def fsqrt (q : Rat) : Rat :=
  if q ≤ 0 then 0
  else if infinite q then q
  else
    let k := 40 + (if expOf q < 0 then (-(expOf q)).toNat else 0)
    let x := q * ((4 ^ k : Nat) : Rat)
    let n := x.floor.toNat
    let r := n.sqrt
    let v : Rat := (r : Rat) + (if ((r * r : Nat) : Rat) = x then 0 else 1 / 2)
    r32 (v / ((2 ^ k : Nat) : Rat))

/-- A clamp; NaN stays. -/
def clampR (lo hi q : Rat) : Rat := if isNaN q then q else if q < lo then lo else if hi < q then hi else q

/-- A binary32 field of a payload as an operand: a negative zero keeps its sign. -/
def f32S (p : List Byte) (off : Nat) : Rat := if fld p off 4 = 2 ^ 31 then fNegZero else f32D p off

/-- The binary32 pattern of a value. -/
def f32Bits (q : Rat) : Nat :=
  let v := if isNaN q then fNaN else r32 q
  let a := |v|
  let sgn : Nat := if v < 0 then 2 ^ 31 else 0
  if v = fNegZero ∨ v = 0 then sgn
  else if isNaN v then 255 * 2 ^ 23 + 2 ^ 22
  else if infinite v then sgn + 255 * 2 ^ 23
  else
    let e := expOf a
    if e < -126 then sgn + (a * twoPow 149).floor.toNat
    else sgn + (e + 127).toNat * 2 ^ 23 + ((a / twoPow e - 1) * ((2 ^ 23 : Nat) : Rat)).floor.toNat

/-- The binary16 pattern of a value, clamped to ±65,504; a zero has the sign of the value that rounds to it. -/
def f16Bits (q : Rat) : Nat :=
  let v := roundTo 11 (-24) (clampR (-65504) 65504 (fval q))
  let a := |v|
  let sgn : Nat := if q < 0 then 2 ^ 15 else 0
  if a = 0 then sgn
  else
    let e := expOf a
    if e < -14 then sgn + (a * twoPow 24).floor.toNat
    else sgn + (e + 15).toNat * 2 ^ 10 + ((a / twoPow e - 1) * ((2 ^ 10 : Nat) : Rat)).floor.toNat

end Sys2Proof.Machine
end

