-- ==== Sys2Proof/Machine/MashMath.lean ====
section
/-! DEFINITION. What a Mash engine computes (chapter 11): the operations of R361 on the pixels of one job. -/

namespace Sys2Proof.Machine

open Sys2Proof

/-- A value of a site or pixel channel, with its clip mark (R363, R368). -/
structure Val where
  v    : Rat
  clip : Bool

/-- A pixel: three channels, and how many values were replaced under R362 on the way. -/
structure Px where
  c       : List Val
  bad     : Nat
  changed : Bool

/-- What a Mash job reads: the frame's geometry and parameters, and its corrected codes by frame row and column. -/
structure MashIn where
  width  : Nat
  height : Nat
  steep  : List Byte
  core   : List Byte
  depth  : Nat
  /-- Codes of the bands that the job reads; free beyond them. -/
  code   : Nat → Nat → Nat
  /-- The value of a remosaiced site without a pair of sites of the wanted channel, which the spec does not state. -/
  noPair : Rat

/-- A NaN or an infinity that an operation has produced is replaced by 0 (R362). -/
def fin32 (v : Rat) : Rat := if infinite v then 0 else v

def Val.map2 (f : Rat → Rat → Rat) (a b : Val) : Val := { v := f a.v b.v, clip := a.clip || b.clip }
def Val.add := Val.map2 fadd
def Val.sub := Val.map2 fsub
def Val.scale (k : Rat) (a : Val) : Val := { a with v := fmul k a.v }
def Val.mean2 (a b : Val) : Val := (a.add b).scale (1 / 2)

/-- A row or column beyond the frame, reflected so that the CFA phase is kept (R365); columns as rows (assumption 4). -/
def reflect (p n : Nat) : Nat → Int → Nat
  | 0, i => (max 0 (min i (n - 1))).toNat
  | fuel + 1, i =>
    if i < 0 then reflect p n fuel (-i * (p - 1))
    else if (n : Int) ≤ i then reflect p n fuel ((n : Int) - 1 - (i - (n - 1)) * (p - 1))
    else i.toNat

namespace MashIn

def p (m : MashIn) : Nat := cfaPeriod m.steep
def method (m : MashIn) : Nat := fld m.core 1 1
def white (m : MashIn) : Rat := f32S m.core 8

/-- The plane of a site; plane 0 everywhere for p = 1 (R330). -/
def planeAt (m : MashIn) (r c : Nat) : Nat :=
  if m.p = 1 then 0 else fld m.steep 4 4 / 4 ^ (4 * (r % m.p) + c % m.p) % 4
def chanOf (m : MashIn) (q : Nat) : Nat := fld m.core 4 1 / 4 ^ q % 4

/-- The clip value of a plane: (L − K) / W. -/
def clipValue (m : MashIn) (q : Nat) : Rat :=
  let e := sub m.steep (32 + 20 * q) 20
  fdiv (fsub (fld e 16 2 : Nat) (f32S e 12)) m.white

def scaleOut (m : MashIn) : Rat :=
  if fld m.steep 20 4 = 0 then ((2 ^ (16 - m.depth) : Nat) : Rat) else f32S m.steep 20

/-- Linearisation (R363), before R362's replacement. -/
def linear (m : MashIn) (r c : Nat) : Val :=
  let y := m.code r c
  if y = 65535 then { v := m.clipValue (m.planeAt r c), clip := true }
  else { v := fdiv (fsub (y : Nat) (fld m.steep 18 2 : Nat)) (fmul m.scaleOut m.white), clip := false }

/-- The value that operation 1 leaves at a site. -/
def site (m : MashIn) (r c : Nat) : Val := let x := m.linear r c; { x with v := fin32 x.v }

/-- A site by signed place, reflected at the edges of a grid of some size. -/
def look (h w p : Nat) (f : Nat → Nat → Val) (r c : Int) : Val := f (reflect p h 4 r) (reflect p w 4 c)

def lookCh (h w p : Nat) (f : Nat → Nat → Nat) (r c : Int) : Nat := f (reflect p h 4 r) (reflect p w 4 c)

/-- Green at a red or blue site by EDGE, pass 1. -/
def edgeGreen (s : Int → Int → Val) (r c : Int) : Val :=
  let k := s r c
  let grad (a b x y : Val) : Rat := fadd (fabs (fsub a.v b.v)) (fabs (fsub (fsub (fmul 2 k.v) x.v) y.v))
  let est (a b x y : Val) : Val := (a.mean2 b).add ((((k.scale 2).sub x).sub y).scale (1 / 4))
  let gh := grad (s r (c - 1)) (s r (c + 1)) (s r (c - 2)) (s r (c + 2))
  let gv := grad (s (r - 1) c) (s (r + 1) c) (s (r - 2) c) (s (r + 2) c)
  let eh := est (s r (c - 1)) (s r (c + 1)) (s r (c - 2)) (s r (c + 2))
  let ev := est (s (r - 1) c) (s (r + 1) c) (s (r - 2) c) (s (r + 2) c)
  if flt gh gv then eh else if flt gv gh then ev else eh.mean2 ev

/-- A pixel of a period-2 grid by EDGE (R366). -/
def edge (s : Int → Int → Val) (ch : Int → Int → Nat) (r c : Int) : List Val :=
  let green (r c : Int) : Val := if ch r c = 1 then s r c else edgeGreen s r c
  let diff (r c : Int) : Val := (s r c).sub (green r c)
  (List.range 3).map (fun k =>
    if ch r c = k then s r c
    else if k = 1 then green r c
    else if ch r c = 1 then
      let d := if ch r (c - 1) = k then (diff r (c - 1)).mean2 (diff r (c + 1)) else (diff (r - 1) c).mean2 (diff (r + 1) c)
      (s r c).add d
    else
      let d := (((diff (r - 1) (c - 1)).add (diff (r - 1) (c + 1))).add (diff (r + 1) (c - 1))).add (diff (r + 1) (c + 1))
      (green r c).add (d.scale (1 / 4)))

/-- A pixel of a period-2 grid by BILINEAR (R366). -/
def bilinear (s : Int → Int → Val) (ch : Int → Int → Nat) (r c : Int) : List Val :=
  (List.range 3).map (fun k =>
    if ch r c = k then s r c
    else if k = 1 && ch r c != 1 then
      ((((s r (c - 1)).add (s r (c + 1))).add (s (r - 1) c)).add (s (r + 1) c)).scale (1 / 4)
    else if ch r (c - 1) = k then (s r (c - 1)).mean2 (s r (c + 1))
    else if ch (r - 1) c = k then (s (r - 1) c).mean2 (s (r + 1) c)
    else ((((s (r - 1) (c - 1)).add (s (r - 1) (c + 1))).add (s (r + 1) (c - 1))).add (s (r + 1) (c + 1))).scale (1 / 4))

/-- A remosaiced site of QUAD_FULL (R367): its own value, or the mean of the pair that differs less. -/
def remosaic (m : MashIn) (s : Int → Int → Val) (ch : Int → Int → Nat) (r c : Int) : Val :=
  let want := ch (2 * (r % 2)) (2 * (c % 2))
  if ch r c = want then s r c
  else
    let side (dr dc k : Int) : Option Val :=
      ([1, 2, 3].find? (fun (n : Int) => ch (r + k * n * dr) (c + k * n * dc) == want)).map
        (fun n => s (r + k * n * dr) (c + k * n * dc))
    let near (dr dc : Int) : Option (Val × Rat) :=
      match side dr dc (-1), side dr dc 1 with
      | some a, some b => some (a.mean2 b, fabs (fsub a.v b.v))
      | _, _ => none
    match near 0 1, near 1 0 with
    | some a, some b => if flt b.2 a.2 then b.1 else a.1
    | some a, none => a.1
    | none, some b => b.1
    | none, none => { v := m.noPair, clip := false }

/-- Rows and columns of the scaler grid (R365). -/
def gridH (m : MashIn) : Nat := if m.method = 3 then m.height / 2 else m.height
def gridW (m : MashIn) : Nat := if m.method = 3 then m.width / 2 else m.width
def gridP (m : MashIn) : Nat := if m.p = 4 then 2 else m.p

/-- Demosaic: camera RGB of a place of the scaler grid (R366, R367). -/
def camera (m : MashIn) (r c : Nat) : List Val :=
  let s := look m.height m.width m.p m.site
  let ch := lookCh m.height m.width m.p (fun r c => m.chanOf (m.planeAt r c))
  match m.method with
  | 0 => let v := m.site r c; [v, v, v]
  | 1 => bilinear s ch r c
  | 2 => edge s ch r c
  | 3 =>
    let block (r c : Nat) : Val :=
      (((m.site (2 * r) (2 * c)).add (m.site (2 * r) (2 * c + 1))).add
        ((m.site (2 * r + 1) (2 * c)).add (m.site (2 * r + 1) (2 * c + 1)))).scale (1 / 4)
    let bch (r c : Nat) : Nat := m.chanOf (m.planeAt (2 * r) (2 * c))
    edge (look m.gridH m.gridW 2 block) (lookCh m.gridH m.gridW 2 bch) r c
  | _ => edge (m.remosaic s ch) (fun r c => ch (2 * (r % 2)) (2 * (c % 2))) r c

def gainOf (m : MashIn) (k : Nat) : Rat := f32S m.core (12 + 4 * k)

/-- m_ch of R370: the lower clip value of the channel's planes, balanced. -/
def limitOf (m : MashIn) (k : Nat) : Rat :=
  let n := fld m.steep 2 1
  let vs := (if m.p = 1 then [0] else (List.range n).filter (fun q => m.chanOf q = k)).map m.clipValue
  fmul ((vs.tail).foldl min (vs.headD 0)) (m.gainOf k)

def count (vs : List Rat) : Nat := (vs.filter infinite).length

/-- White balance (R369). -/
def balanced (m : MashIn) (r c : Nat) : List Val × Nat :=
  let cam := m.camera r c
  let cam' := cam.map (fun (x : Val) => { x with v := fin32 x.v })
  let wb := cam'.mapIdx (fun k (x : Val) => x.scale (m.gainOf k))
  (wb.map (fun (x : Val) => { x with v := fin32 x.v }), count (cam.map (·.v)) + count (wb.map (·.v)))

/-- The nearest pixel with no clipped channel, among the same-colour sites within the radius (R370): least Chebyshev distance, then
first in raster order. -/
def donor (m : MashIn) (r c : Nat) : Option (List Val) :=
  let rad := if fld m.core 5 1 = 0 then 4 else fld m.core 5 1
  let q := m.gridP
  let offs (n : Nat) : List (Int × Int) :=
    ((List.range (2 * n + 1)).map (fun i => (List.range (2 * n + 1)).map (fun j => ((i : Int) - n, (j : Int) - n)))).flatten.filter
      (fun o => o.1.natAbs == n || o.2.natAbs == n)
  let all := ((List.range' 1 rad).map offs).flatten
  all.findSome? (fun o =>
    let r' := (r : Int) + o.1 * q
    let c' := (c : Int) + o.2 * q
    if r' < 0 || c' < 0 || (m.gridH : Int) ≤ r' || (m.gridW : Int) ≤ c' then none
    else
      let px := (m.balanced r'.toNat c'.toNat).1
      if px.any (·.clip) then none else some px)

/-- Highlight handling (R370). -/
def highlight (m : MashIn) (r c : Nat) : Px :=
  let (px, bad) := m.balanced r c
  let lim := (List.range 3).map m.limitOf
  if !px.any (·.clip) then { c := px, bad := bad, changed := false }
  else if fld m.core 2 1 = 0 then
    let l := (lim.tail).foldl min (lim.headD 0)
    { c := px.map (fun (x : Val) => { x with v := min x.v l }), bad := bad, changed := false }
  else
    let top := (lim.tail).foldl max (lim.headD 0)
    let flat := px.map (fun (x : Val) => { x with v := top })
    let free : List (Nat × Val) := (numbered px).filter (fun y => !y.2.clip)
    let out : List Val := match free, m.donor r c with
      | [], _ => flat
      | _, none => flat
      | f :: _, some n =>
        let u := if free.any (·.1 == 1) then 1
          else (free.foldl (fun (a : Nat × Val) y => if a.2.v < y.2.v then y else a) f).1
        let val (l : List Val) (k : Nat) : Rat := (l[k]?.map (·.v)).getD 0
        px.mapIdx (fun k (x : Val) =>
          if !x.clip then x
          else { x with v := max (lim.getD k 0) (fmul (val px u) (fdiv (val n k) (val n u))) })
    { c := out.map (fun (x : Val) => { x with v := fin32 x.v }), bad := bad + count (out.map (·.v)),
      changed := out.map (fun (x : Val) => fval x.v) != px.map (fun (x : Val) => fval x.v) }

/-- A 3 × 3 matrix and offsets on a triple. -/
def matrix (p : List Byte) (moff ooff : Nat) (v : List Rat) : List Rat :=
  (List.range 3).map (fun i =>
    let k (j : Nat) : Rat := fmul (f32S p (moff + 12 * i + 4 * j)) (v.getD j 0)
    fadd (fadd (fadd (k 0) (k 1)) (k 2)) (f32S p (ooff + 4 * i)))

/-- Working-space RGB (R371): values, values replaced, and whether RECONSTRUCT changed the pixel. -/
def working (m : MashIn) (r c : Nat) : List Rat × Nat × Bool :=
  let h := m.highlight r c
  let w := matrix m.core 24 60 (h.c.map (·.v))
  let f := w.map fin32
  (if bit (fld m.core 0 1) 1 then f.map (max 0) else f, h.bad + count w, h.changed)

/-! ## Crop and scale (R372, R373) -/

/-- The ratio of a crop size to an output size, and the bounds of output pixel j's interval. -/
def ratio (n size : Nat) : Rat := fdiv (n : Nat) (size : Nat)
def bound (s : Rat) (j : Nat) : Rat := fmul (j : Nat) s

/-- Weights of the grid pixels for output pixel j at ratio s over n input pixels, in binary32 (R362, R373). -/
def weights (s : Rat) (n j : Nat) : List (Nat × Rat) :=
  if 1 ≤ s then
    let lo := bound s j
    let hi := bound s (j + 1)
    let a := lo.floor.toNat
    let z := min n (hi.ceil.toNat)
    (List.range' a (z - a)).map (fun i => (i, fsub (min hi ((i : Nat) + 1)) (max lo (i : Nat))))
  else
    let x := clampR 0 ((n - 1 : Nat) : Rat) (fsub (fmul (fadd (j : Nat) (1 / 2)) s) (1 / 2))
    let i := x.floor.toNat
    let f := fsub x (i : Nat)
    if f = 0 then [(i, 1)] else [(i, fsub 1 f), (i + 1, f)]

/-- The weighted mean of some values: ascending, each operation rounded. -/
def mix (ws : List (Nat × Rat)) (f : Nat → Rat) : Rat :=
  fdiv (ws.foldl (fun a w => fadd a (fmul (f w.1) w.2)) 0) (ws.foldl (fun a w => fadd a w.2) 0)

def halve (m : MashIn) (n : Nat) : Nat := if m.method = 3 then n / 2 else n

/-- The crop on the scaler grid: x0, y0, width, height. -/
def crop (m : MashIn) (e : List Byte) : Nat × Nat × Nat × Nat :=
  (m.halve (fld e 12 4), m.halve (fld e 16 4), m.halve (fld e 20 4), m.halve (fld e 24 4))

/-- Output-grid RGB of a pixel of an output. -/
def scaled (m : MashIn) (e : List Byte) (r c : Nat) : List Rat :=
  let (x0, y0, w, h) := m.crop e
  let wx := weights (ratio w (outWidth e)) w c
  let wy := weights (ratio h (outHeight e)) h r
  (List.range 3).map (fun k => mix wy (fun i => mix wx (fun j => (m.working (y0 + i) (x0 + j)).1.getD k 0)))

/-! ## Output transforms (R374–R380) -/

/-- A 1D LUT table, 49,168 bytes (R375, R392). -/
def lut1 (t : List Byte) (v : List Rat) : List Rat :=
  let lo := f32S t 4
  let hi := f32S t 8
  v.mapIdx (fun k x =>
    let e (i : Nat) : Rat := f32S t (16 + 16384 * k + 4 * i)
    let u := clampR 0 4095 (fmul (fdiv (fsub x lo) (fsub hi lo)) 4095)
    let i := min u.floor.toNat 4094
    if isNaN u then fNaN else fadd (e i) (fmul (fsub u (i : Nat)) (fsub (e (i + 1)) (e i))))

/-- A 3D LUT (R376, R377, R393). -/
def lut3 (t : List Byte) (v : List Rat) : List Rat :=
  let ax (k : Nat) : Nat × Rat :=
    let x := fmul (clampR 0 1 (v.getD k 0)) 64
    let n := min x.floor.toNat 63
    (n, fsub x (n : Nat))
  let (i, fr) := ax 0
  let (j, fg) := ax 1
  let (k, fb) := ax 2
  (List.range 3).map (fun ch =>
    let pt (a b c : Nat) : Rat :=
      fdiv (fld t (16 + 6 * (((k + c) * 65 + (j + b)) * 65 + (i + a)) + 2 * ch) 2 : Nat) 65535
    let mix4 (w0 w1 w2 w3 p0 p1 p2 p3 : Rat) : Rat :=
      fadd (fadd (fadd (fmul w0 p0) (fmul w1 p1)) (fmul w2 p2)) (fmul w3 p3)
    let o := pt 0 0 0
    let z := pt 1 1 1
    if fg ≤ fr ∧ fb ≤ fg then mix4 (fsub 1 fr) (fsub fr fg) (fsub fg fb) fb o (pt 1 0 0) (pt 1 1 0) z
    else if fb ≤ fr ∧ fg ≤ fb then mix4 (fsub 1 fr) (fsub fr fb) (fsub fb fg) fg o (pt 1 0 0) (pt 1 0 1) z
    else if fr ≤ fb ∧ fg ≤ fr then mix4 (fsub 1 fb) (fsub fb fr) (fsub fr fg) fg o (pt 0 0 1) (pt 1 0 1) z
    else if fr ≤ fg ∧ fb ≤ fr then mix4 (fsub 1 fg) (fsub fg fr) (fsub fr fb) fb o (pt 0 1 0) (pt 1 1 0) z
    else if fb ≤ fg ∧ fr ≤ fb then mix4 (fsub 1 fg) (fsub fg fb) (fsub fb fr) fr o (pt 0 1 0) (pt 0 1 1) z
    else mix4 (fsub 1 fb) (fsub fb fg) (fsub fg fr) fr o (pt 0 0 1) (pt 0 1 1) z)

/-- x to the power y, for x not below 0. -/
def power (x y : Rat) : Rat := if x ≤ 0 then 0 else exp2R (y * (lnR x / lnR 2))

/-- The opto-electronic transfer function of ITU-R BT.709. -/
def bt709 (l : Rat) : Rat := if l < 18 / 1000 then 45 / 10 * l else 1099 / 1000 * power l (45 / 100) - 99 / 1000

/-- The inverse electro-optical transfer function of PQ in ITU-R BT.2100, of a luminance in cd/m². -/
def pqInverse (f : Rat) : Rat :=
  let y := power (f / 10000) (2610 / 16384)
  power ((3424 / 4096 + 2413 / 128 * y) / (1 + 2392 / 128 * y)) (2523 / 32)

/-- The opto-electronic transfer function of HLG in ITU-R BT.2100. -/
def hlg (x : Rat) : Rat :=
  let a : Rat := 17883277 / 100000000
  let b := 1 - 4 * a
  if x ≤ 1 / 12 then fsqrt (3 * x) else a * lnR (12 * x - b) + (1 / 2 - a * lnR (4 * a))

/-- The transfer encoding of a value (R378). -/
def encode (e : List Byte) (x : Rat) : Rat :=
  let k := fld e 3 1
  let scale : Rat := if fld e 32 4 = 0 then (if k = 2 then 100 else 1) else f32S e 32
  match k with
  | 0 => x
  | 1 => r32 (bt709 (clampR 0 1 x))
  | 2 => r32 (pqInverse (clampR 0 10000 (fmul x scale)))
  | _ => r32 (hlg (clampR 0 1 (fmul x scale)))

/-- The tables of the context that an output uses: 1D by index, 3D by index. -/
structure Tables where
  one   : Nat → Option (List Byte)
  three : Nat → Option (List Byte)

/-- R′G′B′ of an output pixel, with the values replaced under R362 in operations 7 to 12. -/
def primed (m : MashIn) (t : Tables) (e : List Byte) (r c : Nat) : List Rat × Nat :=
  let use (f : Option (List Byte)) (op : List Byte → List Rat → List Rat) (v : List Rat) : List Rat :=
    match f with | some x => op x v | none => v
  let step (v : List Rat × Nat) (f : List Rat → List Rat) : List Rat × Nat :=
    let w := f v.1
    (w.map fin32, v.2 + count w)
  let a := step ([], 0) (fun _ => m.scaled e r c)
  let a := step a (fun v => matrix e 36 72 v)
  let a := step a (use (t.one (fld e 6 1)) lut1)
  let a := step a (use (t.three (fld e 7 1)) lut3)
  let a := step a (use (t.one (fld e 8 1)) lut1)
  step a (fun v => v.map (encode e))

/-- K_R and K_B (R379). -/
def lumaK (e : List Byte) : Rat × Rat :=
  if fld e 4 1 = 0 then (2126 / 10000, 722 / 10000) else (2627 / 10000, 593 / 10000)

/-- Y′, Cb and Cr. -/
def ycc (e : List Byte) (v : List Rat) : Rat × Rat × Rat :=
  let (kr, kb) := lumaK e
  let kg := 1 - kr - kb
  let r := v.getD 0 0
  let g := v.getD 1 0
  let b := v.getD 2 0
  let y := fadd (fadd (fmul (r32 kr) r) (fmul (r32 kg) g)) (fmul (r32 kb) b)
  (y, fdiv (fsub b y) (r32 (2 * (1 - kb))), fdiv (fsub r y) (r32 (2 * (1 - kr))))

/-- Quantised, clamped and MSB-aligned code of a component (R379). -/
def quant (e : List Byte) (chroma : Bool) (x : Rat) : List Byte :=
  let n := fld e 2 1
  let x := if chroma then clampR (-1 / 2) (1 / 2) x else clampR 0 1 x
  let q : Rat := if fld e 5 1 = 0 then
      fmul ((2 ^ (n - 8) : Nat) : Rat) (if chroma then fadd (fmul 224 x) 128 else fadd (fmul 219 x) 16)
    else if chroma then fadd (fmul ((2 ^ n - 1 : Nat) : Rat) x) ((2 ^ (n - 1) : Nat) : Rat)
    else fmul ((2 ^ n - 1 : Nat) : Rat) x
  let v := (max 0 (min (nearestEven q) ((2 ^ n : Nat) - 1))).toNat
  le 2 (v * 2 ^ (16 - n))

/-- One pixel of a developed tile (R380–R382). -/
def packed (m : MashIn) (t : Tables) (e : List Byte) (r c : Nat) : List Byte :=
  let at_ (x : Nat) : Rat × Rat × Rat := ycc e (m.primed t e r (min x (outWidth e - 1))).1
  let v := (m.primed t e r c).1
  match fld e 1 1 with
  | 1 => quant e false (at_ c).1
  | 2 =>
    let k := c - c % 2
    let f (sel : Rat × Rat × Rat → Rat) : Rat :=
      fadd (fadd (fmul (1 / 4) (sel (at_ (k - 1)))) (fmul (1 / 2) (sel (at_ k)))) (fmul (1 / 4) (sel (at_ (k + 1))))
    (if c % 2 = 0 then quant e true (f (·.2.1)) else quant e true (f (·.2.2))) ++ quant e false (at_ c).1
  | 3 => quant e false (at_ c).1 ++ quant e true (at_ c).2.1 ++ quant e true (at_ c).2.2 ++ le 2 0
  | 4 => quant e false (v.getD 0 0) ++ quant e false (v.getD 1 0) ++ quant e false (v.getD 2 0) ++ le 2 0
  | _ => le 2 (f16Bits (v.getD 0 0)) ++ le 2 (f16Bits (v.getD 1 0)) ++ le 2 (f16Bits (v.getD 2 0)) ++ le 2 0

end MashIn

/-- One pixel of the zero-signal code (R382). -/
def zeroPixel (e : List Byte) (c : Nat) : List Byte :=
  let y := MashIn.quant e false 0
  let k := MashIn.quant e true 0
  match fld e 1 1 with
  | 1 => y
  | 2 => (if c % 2 = 0 then k else k) ++ y
  | 3 => y ++ k ++ k ++ le 2 0
  | 4 => y ++ y ++ y ++ le 2 0
  | _ => zeros 8

/-- The tiles of one tile row of an output from its pixels; positions beyond its size take the zero-signal code. -/
def tileRow (e : List Byte) (t : Nat) (px : Nat → Nat → List Byte) : List (List Byte) :=
  let (tw, th, _) := fmtTile (fld e 1 1)
  (List.range (outTilesX e)).map (fun i =>
    ((List.range (tw * th)).map (fun k =>
      let r := t * th + k / tw
      let c := i * tw + k % tw
      if r < outHeight e && c < outWidth e then px r c else zeroPixel e c)).flatten)

/-! ## Supports and anchors (R383) -/

/-- Halo rows of a demosaic method (R365). -/
def haloRows : Nat → Nat
  | 0 => 0
  | 1 | 2 => 2
  | _ => 4

/-- First and last frame row of the support of tile row t of an output. -/
def support (method height : Nat) (e : List Byte) (t : Nat) : Nat × Nat :=
  let th := (fmtTile (fld e 1 1)).2.1
  let half (n : Nat) : Nat := if method = 3 then n / 2 else n
  let y0 := half (fld e 16 4)
  let h := half (fld e 24 4)
  let s := MashIn.ratio h (outHeight e)
  let ws (j : Nat) : List Nat := (MashIn.weights s h j).map (·.1)
  let first := (ws (t * th)).headD 0
  let last := ((ws (min (t * th + th - 1) (outHeight e - 1))).getLast?).getD 0
  let k := if method = 3 then 2 else 1
  ((y0 + first) * k - haloRows method, min (height - 1) ((y0 + last) * k + (k - 1) + haloRows method))

/-- The band that anchors a tile row. -/
def anchorOf (method height : Nat) (e : List Byte) (t : Nat) : Nat := (support method height e t).2 / 16

/-- Tile rows that a band anchors. -/
def anchored (method height : Nat) (e : List Byte) (band : Nat) : List Nat :=
  (List.range (outTilesY e)).filter (fun t => anchorOf method height e t == band)

end Sys2Proof.Machine
end

