-- ==== Sys2Proof/Machine/Views.lean ====
section
/-! DEFINITION. What several chapters read from the state and from the blocks in force. -/

namespace Sys2Proof.Machine

open Sys2Proof

/-! ## Commands that execute (chapter 04) -/

/-- The executing commands of an opcode and key. -/
def State.executing (s : State) (op key : Nat) : List ExecCmd :=
  s.ncp.exec.filter (fun e => e.cmd.opcode == op && e.key == key)

/-! ## Contexts that capture -/

/-- A context captures: RUNNING or POST_TRIGGER. -/
def State.capturing (s : State) (c : Nat) : Bool := (s.ctx c).st == .running || (s.ctx c).st == .postTrigger

/-! ## Jobs and tags (chapter 01) -/

def State.engine (s : State) (m : Nat) : Engine := (s.engines.find? (fun e => e.master == m)).getD (Engine.reset m)

def State.job (s : State) (id : Nat) : Option Job := s.jobs.find? (fun j => j.id == id)

def State.tagsUsed (s : State) : List Nat := s.jobs.filterMap (·.tag)

def State.tagsFree (s : State) : Nat := 4096 - s.tagsUsed.length

def State.pendingJobs (s : State) : List Job := s.jobs.filter (fun j => j.st == .pending)

/-! ## Memory (chapter 15) -/

def pageBytes : Nat := 2097152

def State.retiredOf (s : State) (k : Nat) : Nat := (s.nv.retiredPages.filter (fun r => r.1 / 12288 == k)).length

/-! ## Streams and owner keys (chapters 14 and 18) -/

def Fuses.used (f : Fuses) (j : Nat) : Bool := f.ownerUsed.getD j false

/-- The highest OWNER_j written. -/
def Fuses.ownerSlot (f : Fuses) : Option Nat := [2, 1, 0].find? f.used

def Stream.ent (t : Stream) : List Byte := t.entry.getD []

def Stream.type (t : Stream) : Nat := fld t.ent 1 1

def Stream.srcKind (t : Stream) : Nat := fld t.ent 2 1

def Stream.isRecord (t : Stream) : Bool := t.entry.isSome && t.type == 0

/-! ## Ranges of a context (chapter 09) -/

/-- The range of a use that a context's blocks in force lay out: the one given out last. Owners are context + 64 × k. -/
def State.newest (s : State) (use c : Nat) : Option Region :=
  (s.mem.regions.filter (fun r => r.use == use && r.owner % 64 == c)).getLast?

/-- First address of that range. -/
def State.newestBase (s : State) (use c : Nat) : Nat := ((s.newest use c).map (fun r => r.first * pageBytes)).getD 0

/-- The base of a range that a frame latched. -/
def Frame.rangeBase (f : Frame) (use : Nat) : Nat := ((f.ranges.find? (·.1 == use)).map (·.2)).getD 0

/-! ## The ledger (chapter 06) -/

def State.factor (s : State) (g : Nat) : Rat := s.ledger.factors.getD g 1

def State.energyPolicy (s : State) : List Byte := (s.globalBlock 0x0C01).getD []

def pSustOf (policy : List Byte) : Nat := if fld policy 0 4 = 0 then 160000 else fld policy 0 4

/-- P_sust in mW. -/
def State.pSust (s : State) : Nat := pSustOf s.energyPolicy

/-- The bank limit: the default without a policy block. -/
def State.bankLimit (s : State) : Nat :=
  match s.globalBlock 0x0C01 with
  | some p => fld p 4 4
  | none => 2000000

/-- The bank cap in µJ. -/
def State.bankCap (s : State) : Nat := min s.bankLimit ((240000 - s.pSust) * 50)

/-- The bank lends nothing at reef 1 and 2 and when its limit is 0. -/
def State.bankOpen (s : State) : Bool := s.ledger.reefAtTick == 0 && s.bankLimit != 0

/-- Width and line rate in Mb/s of a shroud, from the SHROUD_SET entry in force (R219, R254). -/
def Shroud.width (sh : Shroud) : Nat := fld (sh.entry.getD []) 3 1

/-! ## Lanes and sensors (chapters 07 and 08) -/

/-- The entry of a sensor in a SHROUD_SET or of its shroud: fields of R254. -/
def Shroud.ent (sh : Shroud) : List Byte := sh.entry.getD []

def Shroud.sensorOf (sh : Shroud) : Nat := fld sh.ent 1 1

def Shroud.bond (sh : Shroud) : Nat := fld sh.ent 2 1

def Shroud.nrz (sh : Shroud) : Bool := fld sh.ent 4 1 == 1

/-- log₂ of a width. -/
def widthCode (w : Nat) : Nat := w.log2

/-- The sensor's address on its port: dynamic in I3C, static in the I²C modes (R281, R287). -/
def Sensor.address (x : Sensor) : Nat :=
  let e := x.entry.getD []
  if fld e 1 1 = 1 then fld e 3 1 else fld e 2 1

/-- The logical-to-physical map as the LMAP registers hold it: four bits each for logical lanes 0 to 15. -/
def Shroud.lmap (sh : Shroud) : List Nat :=
  (List.range 16).map (fun l => ((numbered sh.lanes).find? (fun p => p.2.logical == some l)).elim 0 (·.1))

def packNibbles (vs : List Nat) : Nat := vs.foldr (fun v acc => v % 16 + 16 * acc) 0

/-- Codes of R245. -/
def ShroudSt.code : ShroudSt → Nat
  | .off => 0 | .quiet => 1 | .cdr => 2 | .align => 3 | .ident => 4 | .scramble => 5 | .eq => 6 | .precode => 7
  | .active => 8 | .relock => 9 | .test => 0xA | .failed => 0xF

def State.shroudBits (s : State) (st : ShroudSt) : Nat := bitmap (s.shrouds.map (·.st == st))

/-- SREF sources 2 and 4 are spread (R254). -/
def Shroud.spread (sh : Shroud) : Bool := fld sh.ent 5 1 == 2 || fld sh.ent 5 1 == 4

def State.scanAge (s : State) (l : Lane) : Nat :=
  match l.scanTbm with
  | none => 0xFF
  | some t => sat 8 ((s.now - t) / sec 1)

/-! ## Contexts (chapter 09) -/

def Frame.closed (f : Frame) : Bool := f.state != 0

/-- The frame is open, or has jobs that are still to be created or retired. -/
def Frame.working (f : Frame) : Bool := f.state == 0 || f.jobsPending != 0 || f.creating

/-- A slot that this frame no longer keeps from a new one (R299, R306). -/
def Frame.isFree (f : Frame) : Bool :=
  f.closed && f.jobsPending == 0 && !f.creating && f.reads == 0 && f.holds == 0 && (((f.mode == 0 || f.oldRing) && f.state == 1) || f.state == 4)

def Context.slotAddr (x : Context) (k : Nat) : Nat := x.ringBase + k * x.slotSize

/-- A frame occupies some byte of slot k of the ring. -/
def Context.inSlot (x : Context) (k : Nat) (f : Frame) : Bool :=
  f.addr < x.slotAddr k + x.slotSize && x.slotAddr k < f.addr + f.slotSize

def Context.slotFree (x : Context) (k : Nat) : Bool := x.frames.all (fun f => !x.inSlot k f || f.isFree)

/-- Landed frames of the ring as it is laid out now, in BURST: what it holds (R303). -/
def Context.heldFrames (x : Context) : List Frame := x.frames.filter (fun f => f.mode == 1 && f.state == 1 && !f.oldRing)

def Context.freeSlots (x : Context) : List Nat := (List.range x.slotCount).filter x.slotFree

def State.landBlock (s : State) (c : Nat) : List Byte := (s.inForce 0x0203 c).getD []

def Context.snapOutstanding (x : Context) : Bool := x.snapLeft != 0 || x.snapOpen != 0

/-- Holding, in the sense of R307. -/
def State.holding (s : State) (c : Nat) : Bool :=
  let x := s.ctx c
  x.st == .postTrigger || x.st == .frozen || x.frames.any (fun f => f.mode == 2 && f.state == 1)

def CapSt.code : CapSt → Nat
  | .stopped => 0 | .running => 1 | .postTrigger => 2 | .frozen => 3

/-- Bands landed in the context's open frame. -/
def State.landedBands (s : State) (c : Nat) : Nat :=
  match (s.sensors.map (·.openFrames)).flatten.find? (fun o => o.ctx == c && o.seq.isSome) with
  | some o => o.bands
  | none => 0

/-! ## Steep (chapter 10) -/

def FrameDev.blk (d : FrameDev) : CtxBlocks := ctxBlocks d.frame.blocks d.ctx

def State.devOf (s : State) (c : Nat) (q : BitVec 32) : Option FrameDev := s.dev.find? (fun d => d.ctx == c && d.seq == q)

/-- A register that shows an engine: BUSY, a flag, a number in [29:24], the tag and the queue. -/
def State.engineWord (s : State) (m : Nat) (flag : Job → Bool) (num : Job → Nat) : Nat :=
  let e := s.engine m
  let q := e.queue.length
  match e.running.bind s.job with
  | some j => 2 ^ 31 + b2n (flag j) * 2 ^ 30 + num j % 64 * 2 ^ 24 + j.tag.getD 0 * 2 ^ 12 + q % 64
  | none => q % 64

def mib (bytes : Nat) : Nat := ceilDiv bytes 1048576

/-! ## Mash (chapter 11) -/

def FrameDev.mash (d : FrameDev) : List Byte := (d.blk 0x0401).getD []

def FrameDev.method (d : FrameDev) : Nat := fld d.mash 1 1

def FrameDev.outFrame (d : FrameDev) (o : Nat) : Option OutFrame := d.outFrames.find? (fun x => x.out == o)

/-- The tile rows that a band anchors: output entry and tile row. -/
def FrameDev.anchors (d : FrameDev) (b : Nat) : List (List Byte × Nat) :=
  ((mashEntries d.blk).map (fun e => (anchored d.method d.frame.height e b).map (fun t => (e, t)))).flatten

/-! ## The decoder (chapter 13) -/

def DecStream.ent (d : DecStream) : List Byte := d.entry.getD []

/-- Submissions of a stream whose final completion is outstanding; args: picture number, bytes, deadline + 1 or 0, job. -/
def State.submissions (s : State) (n : Nat) : List ExecCmd := s.executing 0x0A01 n

/-- Free output frames. -/
def DecStream.free (d : DecStream) : List Nat := ((numbered d.slots).filter (·.2 == 0)).map (·.1)

/-! ## Recording (chapter 14) -/

def Stream.members (t : Stream) : List Nat := (List.range (fld t.ent 16 1)).map (fun i => fld t.ent (32 + i) 1)

def State.memberReady (s : State) (p : Nat) : Bool := (s.drive p).st == .ready

/-- Entries of the report log that a stream holds. -/
def State.reportsHeld (s : State) (n : Nat) : Nat := (s.nv.reports.getD n []).length

/-- Bytes written to drives over the last second (REC_EGRESS, R467). -/
def State.egressBytes (s : State) : Nat := ((s.egress.filter (fun e => s.now < e.1 + sec 1)).map (·.2)).sum

def DriveSt.code : DriveSt → Nat
  | .absent => 0
  | .init => 1
  | .ready => 2
  | .resetting => 3
  | .failed => 4

/-! ## Recording and drives (chapter 14) -/

/-- The 8-byte slot entry k of a yard's entry. -/
def slotEntry (e : List Byte) (k : Nat) : List Byte := sub e (16 + 8 * k) 8

/-- The seal key is disabled: VENDOR, or debug unlocked (R578, R608). -/
def State.sealDisabled (s : State) : Bool := s.nv.fuses.lifecycle == 0 || s.trust.debugUnlocked

/-- Still outstanding. -/
def Grant.isOut (g : Grant) : Bool := g.used < g.count

def RecSt.code : RecSt → Nat
  | .idle => 0
  | .running => 1
  | .stopping => 2
  | .stalled => 3
  | .failed => 4

/-! ## Flex lanes (chapter 16) -/

def fxActive : Nat := 6

/-- The slot entry in force of a yard's slot. -/
def State.slotIn (s : State) (y k : Nat) : List Byte := slotEntry ((s.yard y).entry.getD []) k

def State.marginWord (s : State) (m : Nat × Nat) (t : Option Nanos) : Nat :=
  let age := match t with | some t => sat 8 ((s.now - t) / 1000000000) | none => 0xFF
  sat 8 m.1 * 2 ^ 16 + sat 8 (m.2 / 2) * 2 ^ 8 + age

/-- Lanes of a yard that are powered (R524, R537). -/
def State.powered (s : State) (y : Nat) : Nat :=
  let yd := s.yard y
  let lanes (k : Nat) : Nat :=
    let x := s.port y k
    if x.port.isNone then 0
    else
      let n := if yd.mode = 3 then x.width else if x.width ≠ 0 then x.width else fld (s.slotIn y k) 0 1
      (2 ^ n - 1) * 2 ^ (if yd.mode = 3 then k else 4 * k)
  if yd.mode = 4 then yd.sdiActive.toNat
  else ((List.range 4).map lanes).foldl (· ||| ·) 0 % 2 ^ 16

/-! ## Time bases (chapter 17) -/

def Base.ent (b : Base) : List Byte := b.entry.getD []

def Base.source (b : Base) : Nat := fld b.ent 1 1

def Base.role (b : Base) : Nat := fld b.ent 2 1

def Base.ethPort (b : Base) : Nat := fld b.ent 4 1

def Base.domain (b : Base) : Nat :=
  let d := fld b.ent 5 1
  if d = 0 && fld b.ent 3 1 = 1 then 127 else d

def BaseSt.code : BaseSt → Nat
  | .off => 0
  | .unset => 1
  | .free => 2
  | .acquiring => 3
  | .locked => 4
  | .holdover => 5

/-- The network base that TBV follows. -/
def State.follows (s : State) : Option Nat :=
  let b := s.base 4
  if b.entry.isSome && 4 ≤ b.source then some (b.source - 4) else none

/-- The state a base reports: a TBV that follows a base in HOLDOVER reports HOLDOVER (R552, R553). -/
def State.baseState (s : State) (b : Nat) : BaseSt :=
  if b = 4 then
    match s.follows with
    | some n => if (s.base n).st == .holdover then .holdover else (s.base 4).st
    | none => (s.base 4).st
  else (s.base b).st

def twos (width : Nat) (v : Int) : Nat := (v % (2 ^ width : Int)).toNat

/-- Saturating two's complement of 32 bits. -/
def satInt (v : Int) : Nat := twos 32 (max (-(2 ^ 31)) (min (2 ^ 31 - 1) v))

/-- The words of a latched time: seconds high, nanoseconds, fraction. -/
def latchSecHi (t : Int) : Nat := t.toNat / 2 ^ 32 / 1000000000 / 2 ^ 32 % 2 ^ 32

def latchNs (t : Int) : Nat := t.toNat / 2 ^ 32 % 1000000000

def latchFrac (t : Int) : Nat := t.toNat / 2 ^ 16 % 2 ^ 16

def secLo (t : Int) : Nat := t.toNat / 2 ^ 32 / 1000000000 % 2 ^ 32

/-! ## The power map (chapter 19) -/

def State.pwr (s : State) (e : Nat) : PwrEntry := s.health.power.getD e PwrEntry.reset

/-! ## GLB and MBX (chapter 04) -/

/-- Code of a slot state (R112). -/
def SlotState.code : SlotState → Nat
  | .idle => 0 | .rung => 1 | .busy => 2 | .held => 3

/-- GLB_STATUS.DEGRADED: a stack or another resource is retired, sensing is degraded (R616), or a comparator has failed (R623). -/
def State.degraded (s : State) : Bool :=
  s.mem.hbm.any (fun h => h.st == 3 || h.st == 4) || s.nv.retired.any (fun r => r.1.kind != 1) || s.health.degraded ||
    s.health.comparatorsFailed != 0

def State.openSessions (s : State) : Nat := (s.ncp.sessions.filter (·.isOpen)).length

/-- Fields of equal width packed from bit 0 up. -/
def packed (width : Nat) (vs : List Nat) : Nat := vs.foldr (fun v acc => v % 2 ^ width + 2 ^ width * acc) 0

/-! ## Health (chapter 19) -/

def State.healthPolicy (s : State) : List Byte := s.health.policy.getD []

/-- The remote-channel entry of a channel. -/
def State.remoteEntry (s : State) (c : Nat) : List Byte := sub s.healthPolicy (16 + 16 * c) 16

def State.droopsIn (s : State) (r : Nat) : List Nanos :=
  ((s.health.droops.getD r (0, [])).2).filter (fun t => decide (s.now < t + sec 1))

def State.hbmAge (s : State) (k : Nat) : Nat :=
  match s.health.stackTbm.getD k none with
  | some t => min 0xFF ((s.now - t) / 1000000)
  | none => 0xFF

/-- Automatic restarts within the last 3,600 s, on the always-on domain's own clock (R624). -/
def State.recentRestarts (s : State) : Nat :=
  (s.health.restarts.filter (fun t => decide (s.power.aonNs < t + sec 3600))).length

def PwrSt.code : PwrSt → Nat
  | .off => 0 | .ramping => 1 | .on => 2 | .fault => 3

def temp16 (t : Int) : Nat := leNat (leInt 2 t)

end Sys2Proof.Machine
end

