-- ==== Sys2Proof/Machine/Regs.lean ====
section
/-! DEFINITION. What every register reads, window by window, from the state that holds its fields. -/

namespace Sys2Proof.Machine

open Sys2Proof

/-! ## Memory (chapter 15) -/

def State.regStack (s : State) (k off : Nat) : Nat :=
  let h := s.hbm k
  match off with
  | 0x0 => h.st * 2 ^ 28 + h.failStep % 16 * 2 ^ 24 + b2n h.hot * 2 ^ 23 + leNat (leInt 1 (h.temp / 64)) * 256 + s.retiredOf k
  | 0x4 => h.eccCorr.toNat
  | 0x8 => h.eccUncorr.toNat
  | 0xC => (s.nv.repairs.filter (fun r => r.1 == k)).length % 2 ^ 16 * 2 ^ 16 + h.sppr % 2 ^ 16
  | _ => 0

def State.regPc (s : State) (p off : Nat) : Nat :=
  let x := s.pchan p
  match off with
  | 0x0 => (if x.retired then 2 else b2n x.ready) * 2 ^ 30 + b2n x.hot * 2 ^ 29 + x.landerPeak
  | 0x4 => x.refreshes.toNat
  | 0x8 => x.activates.toNat
  | 0xC => x.eccUncorr * 2 ^ 16 + x.eccCorr
  | _ => 0

/-- An HBM register by its offset. -/
def State.regHbm (s : State) (off : Nat) : Nat :=
  let ks (f : Stack → Bool) : Nat := bitmap (s.mem.hbm.map f)
  if off < 0x10000 then
    match off with
    | 0x00 => ks (fun h => h.st == 2 || h.st == 4) * 2 ^ 28 + ks (·.st == 3) * 2 ^ 24 + ks (·.hot) * 2 ^ 20 +
        bitmap ((List.range 4).map (fun k => s.nv.retirePending.any (·.1 == k))) * 2 ^ 16
    | 0x04 => s.nv.retiredPages.length * 2 ^ 16 + (s.mem.hbm.map (·.spares.length)).sum * 256 + s.mem.migrations.length
    | 0x08 => sat 16 s.nv.repairs.length * 2 ^ 16
    | 0x0C => s.mem.tileSecond * 2 ^ 16 + s.mem.tileFirst
    | 0x10 => s.mem.fences.toNat
    | 0x14 => s.mem.landerHold
    | 0x18 => s.mem.unmapped.toNat
    | _ => 0
  else if off < 0x20000 then
    (if (off - 0x10000) / 0x1000 < 4 then s.regStack ((off - 0x10000) / 0x1000) (off % 0x1000) else 0)
  else if (off - 0x20000) / 0x100 < 128 then s.regPc ((off - 0x20000) / 0x100) (off % 0x100)
  else 0

/-! ## The ledger (chapter 06) -/

/-- An NRG register by its offset. Exact amounts show rounded down (assumption 7). -/
def State.regNrg (s : State) (off : Nat) : Nat :=
  let l := s.ledger
  let w32 (x : List (BitVec 32)) (k : Nat) : Nat := (x.getD k 0).toNat
  if off == 0x00 then
    l.reefAtTick * 2 ^ 24 + b2n l.debt * 2 ^ 23 + b2n l.stopped * 2 ^ 22 + b2n (l.started && !s.bankOpen) * 2 ^ 21 +
      b2n (l.staleGroups.any id) * 2 ^ 20 + floorNat l.pEff % 2 ^ 18
  else if off == 0x08 then l.window % 2 ^ 32
  else if off == 0x0C then l.window / 2 ^ 32
  else if off == 0x10 then floorNat l.credit % 2 ^ 16 * 2 ^ 16 + floorNat l.baseline % 2 ^ 16
  else if off == 0x14 then floorNat l.bank % 2 ^ 21
  else if off == 0x18 then (if l.started then s.bankCap % 2 ^ 21 else 0)
  else if off == 0x1C then (l.carry.floor % 2 ^ 32).toNat
  else if off == 0x20 then s.pendingJobs.length % 2 ^ 15 * 2 ^ 16 + s.tagsFree
  else if 0x40 ≤ off && off < 0x5C then floorNat (l.charges.getD ((off - 0x40) / 4) 0) % 2 ^ 16
  else if 0x110 ≤ off && off < 0x170 then
    let c := (off - 0x100) / 16
    match off % 16 with
    | 0 => w32 l.served c
    | 4 => w32 l.deferred c
    | 8 => w32 l.refused c
    | _ => w32 l.waited c
  else if 0x184 ≤ off && off < 0x194 then w32 l.reasons ((off - 0x180) / 4)
  else if 0x200 ≤ off && off < 0x210 then floorNat (s.factor ((off - 0x200) / 4) * 4096)
  else if off == 0x210 then l.measuredMw % 2 ^ 18
  else if off == 0x214 then floorNat l.leakage % 2 ^ 18
  else 0

/-! ## Lanes and sensors (chapters 07 and 08) -/

/-- A lane's register. -/
def State.regLane (s : State) (l : Lane) (off : Nat) : Nat :=
  match off with
  | 0x00 => b2n l.signal * 2 ^ 31 + b2n l.cdrLock * 2 ^ 30 + b2n l.blockLock * 2 ^ 29 + b2n l.logical.isSome * 2 ^ 28 +
      b2n l.inverted * 2 ^ 27 + b2n l.precodes * 2 ^ 26 + (l.logical.getD 0) % 16 * 2 ^ 22 + l.slip % 256 * 256
  | 0x04 => l.ctle % 16 * 2 ^ 28 + leNat (leInt 1 l.ffePre) * 2 ^ 20 + leNat (leInt 1 l.ffePost) * 2 ^ 12 +
      leNat (leInt 1 l.dfe) * 2 ^ 4
  | 0x08 => l.hdrErr.toNat
  | 0x0C => l.lockLoss
  | 0x10 => l.eyeH * 2 ^ 16 + l.eyeV * 256 + s.scanAge l
  | 0x14 => l.prbsErr
  | _ => 0

/-- A shroud's register. -/
def State.regShroud (s : State) (sh : Shroud) (off : Nat) : Nat :=
  if off < 0x100 then
    match off with
    | 0x00 => sh.st.code * 2 ^ 28 + sh.failReason % 16 * 2 ^ 24 + sh.sensorOf % 16 * 2 ^ 20 + sh.bond % 64 * 2 ^ 14 +
        (if sh.entry.isSome then widthCode sh.width % 8 else 0) * 2 ^ 11 + b2n sh.nrz * 2 ^ 10 +
        b2n (sh.lanes.any (·.precodes)) * 2 ^ 9 + b2n sh.spread * 2 ^ 8 + b2n sh.permuted * 2 ^ 7 + b2n sh.anyInverted * 2 ^ 6
    | 0x04 => fld sh.ent 8 4 % 2 ^ 14
    | 0x08 => packNibbles (sh.lmap.take 8)
    | 0x0C => packNibbles (sh.lmap.drop 8)
    | 0x10 => bitmap (sh.lanes.map (·.precodes)) * 2 ^ 16 + bitmap (sh.lanes.map (·.inverted))
    | 0x14 => sh.deskewErr * 2 ^ 16 + sh.skew % 2 ^ 16
    | 0x18 => sh.trainUs % 2 ^ 32
    | 0x1C => sh.relocks * 2 ^ 24 + sh.trainings * 2 ^ 16 + sh.badControl
    | _ => 0
  else if off < 0x300 then s.regLane (sh.lanes.getD ((off - 0x100) / 0x20) Lane.reset) (off % 0x20)
  else 0

/-- An SLN register by its offset. -/
def State.regSln (s : State) (off : Nat) : Nat :=
  if off < 0x10000 then
    match off with
    | 0x0 => s.shroudBits .active % 2 ^ 32
    | 0x4 => s.shroudBits .active / 2 ^ 32
    | 0x8 => s.shroudBits .failed % 2 ^ 32
    | 0xC => s.shroudBits .failed / 2 ^ 32
    | _ => 0
  else
    let n := (off - 0x10000) / 0x1000
    if n < 56 then s.regShroud (s.shroud n) (off % 0x1000) else 0

/-- An SLK register by its offset. -/
def State.regSlk (s : State) (off : Nat) : Nat :=
  if off < 0x10000 then
    if off == 0 then bitmap (s.sensors.map (fun x => !x.openFrames.isEmpty)) else 0
  else if 16 ≤ (off - 0x10000) / 0x1000 then 0
  else
    let x := s.sensor ((off - 0x10000) / 0x1000)
    match off % 0x1000 with
    | 0x00 => (bitmap ((List.range 16).map (fun v => x.openFrames.any (fun o => o.vc == v)))) * 2 ^ 16 +
        (if x.scpWait.isEmpty then x.portState else 2) * 2 ^ 12 + fld (x.entry.getD []) 1 1 % 16 * 2 ^ 8 + x.address % 2 ^ 7
    | 0x04 => x.lastFs.toNat
    | 0x08 => x.lastStat.toNat
    | 0x0C => x.hdrCrc * 2 ^ 16 + x.payloadCrc
    | 0x10 => x.badHead * 2 ^ 24 + x.hdrField * 2 ^ 16 + x.noFrame * 2 ^ 8 + x.stray
    | 0x14 => x.orphan.toNat
    | 0x18 => x.marker * 2 ^ 16 + x.unbound
    | 0x1C => x.shortLines * 2 ^ 16 + x.longLines
    | 0x20 => x.shortFrames * 2 ^ 16 + x.flagged
    | 0x24 => x.scpErr
    | _ => 0

/-! ## Contexts (chapter 09) -/

def State.regCtxBlock (s : State) (c off : Nat) : Nat :=
  let x := s.ctx c
  let land := s.landBlock c
  if off == 0 then
    x.st.code * 2 ^ 30 + fld land 0 1 % 4 * 2 ^ 28 + fld land 1 1 % 8 * 2 ^ 25 + b2n x.stopPending * 2 ^ 24 +
      b2n x.snapOutstanding * 2 ^ 23 + b2n x.wrapped * 2 ^ 22 + b2n (s.holding c) * 2 ^ 21 + s.landedBands c % 2 ^ 16
  else if off == 4 then x.slotCount
  else if off == 8 then x.freeSlots.length
  else if off == 0xC then (if x.counts.getD 0 0 == 0 && x.nextSeq == 0 then 0 else (x.nextSeq - 1).toNat)
  else if off == 0x10 then (if x.st == .postTrigger then x.postLeft else 0)
  else if 0x40 ≤ off && off < 0x80 then (x.counts.getD ((off - 0x40) / 4) 0).toNat
  else 0

/-- A CTX register by its offset. -/
def State.regCtx (s : State) (off : Nat) : Nat :=
  let caps := bitmap ((List.range 64).map s.capturing)
  let holds := bitmap ((List.range 64).map s.holding)
  if off < 0x10000 then
    if off == 0 then caps % 2 ^ 32
    else if off == 4 then caps / 2 ^ 32
    else if off == 8 then holds % 2 ^ 32
    else if off == 0xC then holds / 2 ^ 32
    else if 0x100 ≤ off && off < 0x100 + 4 * 56 then
      let x := s.shroud ((off - 0x100) / 4)
      min 128 (x.fifoPeak / 1024) * 2 ^ 24 + x.fifoDropped
    else 0
  else if (off - 0x10000) / 0x1000 < 64 then s.regCtxBlock ((off - 0x10000) / 0x1000) (off % 0x1000)
  else 0

/-! ## Steep (chapter 10) -/

def State.regStp (s : State) (off : Nat) : Nat :=
  if off < 0x20 then s.engineWord (0x40 + off / 4) (fun j => j.kind == .flicker) (fun j => j.ctx.getD 0)
  else if off < 0x40 then (s.engine (0x40 + (off - 0x20) / 4)).jobs.toNat
  else if off = 0x40 then
    let held := (List.range 64).map (fun c => steepMemory (ctxBlocks s.cfg.inForce c) - mapBytes (ctxBlocks s.cfg.inForce c))
    let maps (g : Option Gen) : Nat := ((List.range 64).map (fun c => mapBytes (ctxBlocks ((g.map (·.blocks)).getD []) c))).sum
    mib (held.sum + maps s.cfg.live + maps s.cfg.armed) % 2 ^ 13
  else if 0x10000 ≤ off && (off - 0x10000) / 0x1000 < 64 then
    let c := (off - 0x10000) / 0x1000
    let b := ctxBlocks s.cfg.inForce c
    let core := coreOf b
    let x := s.stp c
    let on (k : Nat) : Nat := b2n (steepEnabled b && steepOn b k)
    let base := s.newestBase 2 c
    let held := (s.dev.filter (fun d => d.ctx == c && d.workFrame.isSome && d.frame.rangeBase 2 == base)).length
    match off % 0x1000 with
    | 0x000 => on 0 * 2 ^ 31 + on 1 * 2 ^ 30 + on 2 * 2 ^ 29 + b2n x.refValid * 2 ^ 28 + b2n (flickOn b 0) * 2 ^ 27 +
        b2n (flickOn b 1) * 2 ^ 26 + fld core 1 1 % 4 * 2 ^ 24 +
        (if steepEnabled b then workFrames core - held else 0) % 16 * 2 ^ 20 + x.lastResetCause % 16 * 2 ^ 16
    | 0x004 => x.lastFinalSeq.toNat
    | 0x008 => sat 16 x.lastUnconcealed * 2 ^ 16 + sat 16 x.lastDynamic
    | 0x00C => x.resets.toNat
    | 0x010 => x.rowResult * 2 ^ 29 + x.rowFreq % 2 ^ 25
    | 0x014 => x.rowPhase % 2 ^ 16 * 2 ^ 16 + x.rowAmp % 2 ^ 16
    | 0x018 => x.frmResult * 2 ^ 29 + x.frmFreq % 2 ^ 25
    | 0x01C => x.frmPhase % 2 ^ 16 * 2 ^ 16 + x.frmAmp % 2 ^ 16
    | _ => 0
  else 0

/-! ## Mash (chapter 11) -/

def State.regMshCtx (s : State) (c off : Nat) : Nat :=
  let b := ctxBlocks s.cfg.inForce c
  let m := (b 0x0401).getD []
  let x := s.msh c
  let outs := mashEntries b
  let o := (off % 16) / 4
  if off = 0 then
    b2n (mashEnabled b) * 2 ^ 31 + fld m 1 1 % 8 * 2 ^ 28 + fld m 2 1 % 2 * 2 ^ 27 + fld m 3 1 % 2 * 2 ^ 26 +
      bitmap ((List.range 4).map (fun o => outs.any (fun e => fld e 0 1 == o))) * 2 ^ 22
  else if off = 4 then x.lastSeq.toNat
  else if off = 8 then x.lastClipped % 2 ^ 32
  else if off = 0xC then x.nonFinite.toNat
  else if 0x10 ≤ off && off < 0x20 then
    match mashEntry b o with
    | some e =>
      let base := s.newestBase 5 c
      let held := (s.dev.filter (fun d => d.ctx == c && d.frame.rangeBase 5 == base && (d.outFrame o).isSome)).length
      (outFrames e - held) % 16 * 2 ^ 28 + fld e 1 1 * 2 ^ 20
    | none => 0
  else if 0x20 ≤ off && off < 0x30 then (x.done.getD o 0).toNat
  else if off = 0x30 then x.missing.toNat
  else 0

def State.regMsh (s : State) (off : Nat) : Nat :=
  if off < 0x20 then
    s.engineWord (0x48 + off / 4)
      (fun j => match s.devOf (j.ctx.getD 0) j.frame with | some d => !(d.anchors j.unit).isEmpty | none => false)
      (fun j => j.ctx.getD 0)
  else if off < 0x40 then (s.engine (0x48 + (off - 0x20) / 4)).jobs.toNat
  else if off = 0x40 then mib (((List.range 64).map (fun c => mashMemory (ctxBlocks s.cfg.inForce c))).sum) % 2 ^ 13
  else if off = 0x44 then (s.luts.filter (·.st == 0)).length
  else if off = 0x60 then s.cacheHits.toNat
  else if off = 0x64 then s.cacheMisses.toNat
  else if 0x80 ≤ off && off < 0xC0 then
    let u := s.luts.getD ((off - 0x80) / 4) LutUnit.reset
    u.st * 2 ^ 30 + u.ctx % 64 * 2 ^ 24 + u.lut % 4 * 2 ^ 22
  else if 0x10000 ≤ off && (off - 0x10000) / 0x1000 < 64 then s.regMshCtx ((off - 0x10000) / 0x1000) (off % 0x1000)
  else 0

/-! ## Barrel (chapter 14) -/

def State.regBrl (s : State) (off : Nat) : Nat :=
  if off < 0x10 then
    let e := s.engine (0x60 + off / 4)
    match e.running.bind s.job with
    | some j => 2 ^ 31 + j.object % 64 * 2 ^ 24 + j.tag.getD 0 * 2 ^ 12
    | none => 0
  else
    let m := bitmap (s.brl.map (·.isOpen))
    if off = 0x10 then m % 2 ^ 32 else if off = 0x14 then m / 2 ^ 32 else if off = 0x18 then s.brlErrors.toNat else 0

/-! ## The decoder (chapter 13) -/

def State.regDec (s : State) (off : Nat) : Nat :=
  if off < 8 then
    let e := s.engine (0x5C + off / 4)
    match e.running.bind s.job with
    | some j => 2 ^ 31 + j.object % 4 * 2 ^ 24 + j.tag.getD 0 * 2 ^ 12
    | none => 0
  else if 0x10 ≤ off && off < 0x18 then (s.engine (0x5C + (off - 0x10) / 4)).jobs.toNat
  else if off = 0x20 then mib ((s.decs.map (fun d => match d.entry with | some e => decMemory e | none => 0)).sum) % 2 ^ 13
  else if 0x10000 ≤ off && (off - 0x10000) / 0x1000 < 4 then
    let n := (off - 0x10000) / 0x1000
    let d := s.dec n
    match off % 0x1000 with
    | 0 => b2n d.entry.isSome * 2 ^ 31 + fld d.ent 1 1 % 2 * 2 ^ 30 + b2n (d.entry.isSome && d.store.isEmpty && d.awaitIrap) * 2 ^ 29 +
        (s.submissions n).length % 32 * 2 ^ 24 + d.free.length % 16 * 2 ^ 20 + d.store.length % 32 * 2 ^ 15
    | 4 => d.lastPicture
    | 8 => d.refused.toNat
    | 0xC => d.concealed.toNat
    | _ => 0
  else 0

/-! ## Encoders (chapter 12) -/

def State.regEncE (s : State) (e off : Nat) : Nat :=
  let x := s.enc e
  let ctx := x.ctx.getD 0
  match off with
  | 0x000 => b2n x.ctx.isSome * 2 ^ 31 + (if x.ctx.isSome then x.codec * 2 ^ 30 + fld x.entry 1 1 % 8 * 2 ^ 27 else 0) +
      b2n (x.refresh != 0) * 2 ^ 26 + b2n (!x.pics.isEmpty) * 2 ^ 25 + ctx % 64 * 2 ^ 19 + x.lastType % 4 * 2 ^ 17 + x.lastStep % 512
  | 0x004 => x.lastPicture
  | 0x008 => (x.lastReservoir % 2 ^ 32).toNat
  | 0x00C => x.lastSize % 2 ^ 32
  | 0x010 => x.exhausted.toNat
  | 0x014 => x.floored.toNat
  | 0x018 => x.lost.toNat
  | _ => 0

def State.regEnc (s : State) (off : Nat) : Nat :=
  if off < 0x30 then
    let m := 0x50 + off / 4
    let e := s.engine m
    match e.running.bind s.job with
    | some j => 2 ^ 31 + j.object % 32 * 2 ^ 24 + j.tag.getD 0 * 2 ^ 12 + e.queue.length
    | none => e.queue.length
  else if 0x40 ≤ off && off < 0x70 then (s.engine (0x50 + (off - 0x40) / 4)).jobs.toNat
  else if off = 0x80 then
    mib (((numbered s.encs).map (fun x => match x.2.ctx with
      | some c => if x.2.codec = 1 then hevcMemory (ctxBlocks s.cfg.inForce c) x.2.entry else 0
      | none => 0)).sum) % 2 ^ 12
  else if 0x10000 ≤ off && (off - 0x10000) / 0x1000 < 32 then s.regEncE ((off - 0x10000) / 0x1000) (off % 0x1000)
  else 0

/-! ## Recording and drives (chapter 14) -/

/-- A stream block. -/
def State.regRecStream (s : State) (n off : Nat) : Nat :=
  let t := s.stream n
  if off = 0x00 then
    t.st.code * 2 ^ 29 + t.type * 2 ^ 27 + t.srcKind * 2 ^ 25 +
      (if t.isRecord then (t.members.filter s.memberReady).length else 0) * 2 ^ 20 + t.stallCause * 2 ^ 16
  else if off = 0x04 then t.durable % 2 ^ 32
  else if off = 0x08 then t.durable / 2 ^ 32 % 2 ^ 32
  else if off = 0x0C then t.gaps.toNat
  else if off = 0x10 then s.reportsHeld n
  else if off = 0x14 then sat 16 t.repeats * 2 ^ 16 + sat 16 t.drops
  else if off = 0x18 then t.late.toNat
  else 0

/-- A port block. -/
def State.regRecPort (s : State) (p off : Nat) : Nat :=
  let d := s.drive p
  if off = 0x00 then
    d.st.code * 2 ^ 29 + (s.streams.filter (fun t => t.grants.any (fun g => g.port == p && g.isOut))).length * 2 ^ 24 +
      min 128 (d.cmds.filter (fun c => c.op < 5)).length
  else if off = 0x04 then d.resets * 2 ^ 24 + d.timeouts * 2 ^ 16 + d.retries
  else 0

/-- The REC window. -/
def State.regRec (s : State) (off : Nat) : Nat :=
  if off = 0x0000 then
    bitmap (s.streams.map (fun t => t.st == .running || t.st == .stopping || t.st == .stalled))
  else if off = 0x0004 then s.egressBytes / 1000000 % 2 ^ 20
  else if 0x10000 ≤ off && off < 0x30000 then s.regRecStream ((off - 0x10000) / 0x1000) (off % 0x1000)
  else if 0x40000 ≤ off && off < 0x40000 + 0x100 * 28 then s.regRecPort ((off - 0x40000) / 0x100) (off % 0x100)
  else 0

/-! ## Flex lanes (chapter 16) -/

def State.regEpStatus (s : State) : Nat :=
  let e := s.ep
  e.st * 2 ^ 28 + e.rate * 2 ^ 25 + e.width * 2 ^ 20 + b2n e.flit * 2 ^ 19 + b2n e.bme * 2 ^ 18 + b2n e.mse * 2 ^ 17 +
    b2n e.msixEn * 2 ^ 16 + b2n e.fnMask * 2 ^ 15 + (if e.d3 then 3 else 0) * 2 ^ 13

def State.regPortStatus (s : State) (y k : Nat) : Nat :=
  let x := s.port y k
  let sris := (s.yard y).mode == 2 && x.port.isSome && bit (fld (s.slotIn y k) 6 1) 0
  x.st * 2 ^ 28 + x.rate * 2 ^ 25 + x.width * 2 ^ 20 + b2n x.degraded * 2 ^ 19 + b2n sris * 2 ^ 18 + b2n x.perstHeld * 2 ^ 17 +
    x.port.getD 0xFF

def State.regFlxSlot (s : State) (y k off : Nat) : Nat :=
  let x := s.port y k
  if off = 0x00 then s.regPortStatus y k
  else if off = 0x04 then x.rxErr.toNat
  else if off = 0x08 then x.uncorr * 2 ^ 16 + x.linkDowns
  else if off = 0x0C then x.rxErrors * 2 ^ 16 + x.rxDropped
  else if off = 0x10 then s.marginWord x.margin x.marginTbm
  else if off = 0x14 then x.trainUs % 2 ^ 32
  else 0

/-- The FLX window. -/
def State.regFlx (s : State) (off : Nat) : Nat :=
  if off = 0x0000 then ((List.range' 1 7).map (fun y => (s.yard y).mode * 2 ^ (3 * y))).sum + 1
  else if off = 0x0004 then s.regEpStatus
  else if off = 0x0008 then s.ep.corr * 2 ^ 16 + s.ep.uncorr
  else if off = 0x000C then s.ep.replay.toNat
  else if 0x11000 ≤ off && off < 0x18000 then
    let y := (off - 0x10000) / 0x1000
    let o := off % 0x1000
    let yd := s.yard y
    if o = 0x000 then
      yd.mode * 2 ^ 29 + b2n yd.pll * 2 ^ 28 + bitmap ((List.range 4).map (fun k => (s.port y k).port.isSome && (s.port y k).st == fxActive)) * 2 ^ 24 +
        s.powered y
    else if o = 0x004 then yd.sdiActive.toNat * 2 ^ 16
    else if 0x100 ≤ o && o < 0x200 then s.regFlxSlot y ((o - 0x100) / 0x40) (o % 0x40)
    else 0
  else 0

/-! ## Time bases (chapter 17) -/

def State.regBase (s : State) (b off : Nat) : Nat :=
  let x := s.base b
  if off = 0x00 then
    (s.baseState b).code * 2 ^ 28 + x.source * 2 ^ 24 + x.role * 2 ^ 22 + x.ethPort * 2 ^ 19 +
      b2n (b == 4 && bit (fld x.ent 7 1) 0) * 2 ^ 18 + b2n (x.role == 1 && x.ptp.master) * 2 ^ 17 + x.domain * 2 ^ 8 + x.steps
  else if off = 0x04 then secLo x.time
  else if off = 0x08 then latchSecHi x.latch
  else if off = 0x0C then latchNs x.latch
  else if off = 0x10 then latchFrac x.latch
  else if off = 0x14 then satInt x.theta
  else if off = 0x18 then twos 32 (roundRat (x.rate * 1000000000000))
  else if off = 0x1C then twos 32 x.ptp.pathDelay
  else if off = 0x20 then (if b = 4 then twos 32 (roundRat x.residual) else 0)
  else 0

/-- The TIM window. -/
def State.regTim (s : State) (off : Nat) : Nat :=
  let t := s.time
  if off = 0x00 then
    b2n t.onTref * 2 ^ 31 + b2n t.trefLost * 2 ^ 30 + b2n t.xtalStale * 2 ^ 29 +
      ((List.range 5).map (fun b => (s.baseState b).code * 2 ^ (3 * b))).sum
  else if off = 0x04 then twos 32 (roundRat (t.k * 1000000000000))
  else if off = 0x08 then
    (match t.xtalTbm with | some x => sat 8 ((s.now - x) / 100000000) | none => 0xFF) * 2 ^ 24 + twos 16 t.xtalTemp
  else if off = 0x10 then secLo t.tbm
  else if off = 0x14 then latchSecHi t.tbmLatch
  else if off = 0x18 then latchNs t.tbmLatch
  else if off = 0x1C then latchFrac t.tbmLatch
  else if 0x10000 ≤ off && off < 0x15000 then s.regBase ((off - 0x10000) / 0x1000) (off % 0x1000)
  else 0

/-! ## GLB and MBX (chapter 04) -/

/-- A GLB register by its offset. -/
def State.regGlb (s : State) (off : Nat) : Nat :=
  let fw : Nat := if s.ncp.fwVersion then 0x03020302 else 0
  match off with
  | 0x00 => 0x72000000 + s.nv.fuses.stepping.toNat * 256
  | 0x04 => fw
  | 0x08 => s.power.bootCode.toNat * 2 ^ 24 + s.openSessions * 2 ^ 16 + b2n s.fwReady * 256 +
      b2n (s.ncp.sessions.any (·.primary)) * 2 + b2n s.degraded
  | 0x0C => sat 16 s.power.warmCount * 2 ^ 16 + s.power.resetCause.toNat
  | 0x10 => s.power.linkResets.toNat
  | 0x14 => s.power.heartbeat.toNat
  | 0x20 => s.ncp.intSummary.toNat
  | 0x24 => s.ncp.globalCause.toNat
  | 0x34 => s.obs.halSeq.toNat
  | _ => 0

/-- An MBX register by its offset. -/
def State.regMbx (s : State) (off : Nat) : Nat :=
  let n := s.ncp
  if 0x10 ≤ off && off < 0x20 then packed 2 ((List.range 16).map (fun j => (s.slot (4 * (off - 0x10) + j)).st.code))
  else if off == 0x28 then n.rejectBits.toNat % 2 ^ 32
  else if off == 0x2C then n.rejectBits.toNat / 2 ^ 32
  else if off == 0x30 then n.lastRejectSlot * 256 + n.lastRejectReason
  else if off == 0x34 then n.writesIgnored * 2 ^ 16 + n.doorbellsRejected
  else if 0x40 ≤ off && off < 0x80 then
    packed 8 ((List.range 4).map (fun j => (s.slot (off - 0x40 + j)).owner.getD 0xFF))
  else if 0x100 ≤ off && off < 0x180 then
    let q := s.session ((off - 0x100) / 8)
    if off % 8 == 0 then q.prod else q.cons
  else if off == 0x200 then n.eqProd
  else if off == 0x204 then n.eqCons
  else if off == 0x208 then n.eqLost.toNat
  else 0

/-- One MSI-X table word, or a word of the Pending Bit Array (R526). -/
def State.regMsix (s : State) (off : Nat) : Nat :=
  if off < 0x1000 then
    let v := s.vec (off / 16)
    match off % 16 with
    | 0 => v.addr.toNat % 2 ^ 32
    | 4 => v.addr.toNat / 2 ^ 32
    | 8 => v.data.toNat
    | _ => b2n v.masked
  else packed 1 ((List.range 32).map (fun j => b2n (s.vec (8 * (off - 0x1000) + j)).pendingBit))

/-! ## Health (chapter 19) -/

def State.regHltStatus (s : State) : Nat :=
  let h := s.health
  h.reef * 2 ^ 30 + b2n h.earlyReef * 2 ^ 29 + b2n h.furlPending * 2 ^ 28 + b2n h.alertLow * 2 ^ 27 + h.levels.getD 4 0 * 2 ^ 25 +
    packed 2 (h.levels.take 4) * 2 ^ 17 + (h.suspect.filter id).length * 2 ^ 11 + b2n h.degraded * 2 ^ 10 + b2n h.avsLimit * 2 ^ 9 +
    b2n (h.rails.any (·.fault)) * 2 ^ 8 + b2n (h.power.any (·.st == .fault)) * 2 ^ 7

/-- An HLT register by its offset. -/
def State.regHlt (s : State) (off : Nat) : Nat :=
  let h := s.health
  if off < 0x100 then
    match off with
    | 0x00 => s.regHltStatus
    | 0x04 => temp16 h.dieRise * 2 ^ 16 + temp16 h.dieTemp
    | 0x20 => bitmap h.suspect % 2 ^ 32
    | 0x24 => bitmap h.suspect / 2 ^ 32
    | 0x28 => h.comparatorsFailed.toNat * 2 ^ 28 + h.comparatorsTripped.toNat * 2 ^ 24 + h.hbmFurl * 256 + h.dieFurl
    | 0x2C => min 3 s.recentRestarts * 2 ^ 24 + sat 8 h.furlTotal * 2 ^ 16 + h.furlCause * 2 ^ 12 + h.furlSource % 16 * 2 ^ 8
    | o => if 0x10 ≤ o && o < 0x20 then s.hbmAge ((o - 0x10) / 4) * 2 ^ 24 + temp16 (h.stackTemp.getD ((o - 0x10) / 4) 0) else 0
  else if off < 0x1C0 then
    let n := (off - 0x100) / 4
    b2n (h.suspect.getD n false) * 2 ^ 31 + temp16 (h.sensors.getD n 0)
  else if 0x200 ≤ off && off < 0x230 then
    let c := (off - 0x200) / 4
    let r := h.remotes.getD c Remote.reset
    r.mode * 2 ^ 30 + b2n r.valid * 2 ^ 29 + b2n (fld (s.remoteEntry c) 2 1 != 0) * 2 ^ 28 + temp16 r.temp
  else if 0x300 ≤ off && off < 0x360 then
    let r := h.rails.getD ((off - 0x300) / 4) Rail.reset
    b2n r.fault * 2 ^ 31 + r.set * 2 ^ 16 + r.mv
  else if 0x400 ≤ off && off < 0x420 then
    let k := (off - 0x400) / 4
    sat 16 (s.droopsIn k).length * 2 ^ 16 + (h.droops.getD k (0, [])).1
  else if off = 0x500 then h.vcore * 2 ^ 20 + h.avsRatio * 2 ^ 10 + h.avsSlowest * 2 ^ 5
  else if off = 0x700 then floorNat h.ageing % 2 ^ 32
  else if off = 0x704 then floorNat h.ageing / 2 ^ 32 % 2 ^ 32
  else if 0x800 ≤ off && off < 0x83C then
    let x := s.pwr ((off - 0x800) / 4)
    x.st.code * 2 ^ 30 + x.vout % 2 ^ 16
  else 0

/-! ## Trust (chapter 18) -/

def State.regTrsStream (t : Stream) : Nat :=
  b2n t.takeOpen * 2 ^ 31 + b2n (t.takeOpen && t.encrypted) * 2 ^ 30 +
    (match t.segment with | some g => min g.index 0x7FFF * 2 ^ 9 + min g.hashes.length 256 | none => 0)

def State.regTrs (s : State) (off : Nat) : Nat :=
  let f := s.nv.fuses
  match off with
  | 0x0 =>
    f.lifecycle * 2 ^ 30 + f.svn * 2 ^ 23 +
      (if f.lifecycle == 2 then (match f.ownerSlot with | some j => j + 1 | none => 0) else 0) * 2 ^ 21 +
      s.trust.runningSlot * 2 ^ 20 + b2n s.trust.tried * 2 ^ 19 + b2n s.trust.debugUnlocked * 2 ^ 18 +
      b2n s.trust.keysReady * 2 ^ 17 + b2n s.sealDisabled * 2 ^ 16
  | 0x4 => s.nv.policyCounter
  | 0x8 => s.trust.signatures.toNat
  | 0xC => min s.trust.sealPeak 0xFFFF * 2 ^ 16 + min s.trust.sealQueue.length 0xFFFF
  | off => if 0x100 ≤ off && off < 0x180 then State.regTrsStream (s.stream ((off - 0x100) / 4)) else 0

/-! ## Observability (chapter 20) -/

/-- The 64 bytes of a snapshot record (R654). -/
def Snap.bytes (r : Snap) : List Byte :=
  le 4 r.seq.toNat ++ le 1 r.block ++ le 1 r.index ++ le 1 r.sources ++ le 1 (b2n r.valid) ++ nanosField r.tbm ++
    fit 40 ((r.words.map (fun w => le 4 w.toNat)).flatten)

/-- The word at an offset of a string of records; 0 past its end. -/
def wordAt (p : List Byte) (off : Nat) : Nat := fld p off 4

/-- The SNP window: the two banks from 0x1_0000 on. -/
def State.regSnp (s : State) (off : Nat) : Nat :=
  let o := s.obs
  if off = 0 then b2n o.halPending.isSome * 2 ^ 31 + o.snpSources % 64 * 2 ^ 24 + sat 16 o.halMerged
  else if off = 4 then o.snpSeq.toNat
  else if 0x10000 ≤ off && off < 0x20000 then
    match (o.banks.getD ((off - 0x10000) / 0x8000) [])[off % 0x8000 / 64]? with
    | some r => wordAt r.bytes (off % 64)
    | none => 0
  else 0

/-- A counter's 48 bits as its low and high words. -/
def ctrWord (v : BitVec 48) (ovf : Bool) (hi : Bool) : Nat :=
  if hi then b2n ovf * 2 ^ 31 + v.toNat / 2 ^ 32 else v.toNat % 2 ^ 32

/-- The PMC window. -/
def State.regPmc (s : State) (off : Nat) : Nat :=
  let o := s.obs
  let hi : Bool := off / 4 % 2 == 1
  if off < 0x1000 then let c := o.counters.getD (off / 8) Counter.reset; ctrWord c.value c.overflow hi
  else if off < 0x2000 then let c := o.counters.getD ((off - 0x1000) / 8) Counter.reset; ctrWord c.frozen c.frozenOvf hi
  else if 0x4000 ≤ off && off < 0x4800 then (o.hists.getD ((off - 0x4000) / 0x80) Hist.reset).bins.getD (off % 0x80 / 4) 0
  else if 0x5000 ≤ off && off < 0x5800 then (o.hists.getD ((off - 0x5000) / 0x80) Hist.reset).frozen.getD (off % 0x80 / 4) 0
  else if off = 0x6000 then o.freezeSeq.toNat
  else if off = 0x6004 then o.sampleNo.toNat
  else if 0x80000 ≤ off && off < 0xC0000 then
    match o.samples.find? (fun x => x.1 == (off - 0x80000) / 64) with
    | some x => wordAt x.2 (off % 64)
    | none => 0
  else 0

/-- The 16 bytes of a location (R641). -/
def Loc.bytes (l : Loc) : List Byte :=
  le 1 l.kind ++ le 1 l.unit ++ le 1 l.sub ++ le 1 l.bank ++ le 4 l.row ++ le 2 l.column ++ le 6 0

/-- The 64 bytes of an entry (R643). -/
def ErrEntry.bytes (e : ErrEntry) : List Byte :=
  le 4 e.seq ++ le 1 e.cls ++ le 1 e.outcome ++ le 2 e.flags ++
    e.loc.bytes ++ nanosField e.tbm ++ le 8 e.clock ++ le 1 e.count ++ le 1 e.master ++ le 2 e.tag ++ le 1 e.ctx ++ le 3 0 ++ le 4 e.detail ++
    le 4 e.result

/-- Retired locations of kinds. -/
def State.retiredKinds (s : State) (ks : List Nat) : Nat := (s.nv.retired.filter (fun r => ks.contains r.1.kind)).length

/-- The ERR window: the 256 newest entries from 0x1_0000 on. -/
def State.regErr (s : State) (off : Nat) : Nat :=
  let running := (s.obs.tests.filter (·.running)).length
  if off = 0 then (s.obs.tests.length - running) * 2 ^ 25 + running * 2 ^ 21
  else if off = 4 then
    s.retiredKinds [3, 4] % 2 ^ 7 * 2 ^ 25 + s.retiredKinds [2] % 2 ^ 10 * 2 ^ 15 + s.retiredKinds [6] % 2 ^ 6 * 2 ^ 9
  else if off = 8 then s.nv.errSeq % 2 ^ 32
  else if 0x44 ≤ off && off < 0x68 then (s.obs.classCount.getD ((off - 0x40) / 4) 0).toNat
  else if 0x10000 ≤ off && off < 0x14000 then
    match (s.nv.errLog.take 256).find? (fun e => e.seq % 256 == (off - 0x10000) / 64) with
    | some e => wordAt e.bytes (off % 64)
    | none => 0
  else 0

/-! ## BAR0 (R109) -/

/-- The word that an aligned read of BAR0 returns; a high word of R9 shows its live value here. -/
def State.regRead (s : State) (a : Nat) : Nat :=
  let o := a % 0x100000
  if a < 0x10000 then s.regGlb a
  else if a < 0x20000 then s.regMbx (a - 0x10000)
  else if 0x30000 ≤ a && a < 0x31020 then s.regMsix (a - 0x30000)
  else if 0x100000 ≤ a && a < 0x300000 then leNat (s.ncp.mem.readN a 4)
  else match a / 0x100000 with
    | 0x04 => s.regSnp o
    | 0x05 => s.regPmc o
    | 0x06 => s.regTim o
    | 0x07 => s.regHlt o
    | 0x08 => s.regNrg o
    | 0x09 => s.regErr o
    | 0x10 => s.regSln o
    | 0x11 => s.regSlk o
    | 0x12 => s.regCtx o
    | 0x13 => s.regStp o
    | 0x14 => s.regMsh o
    | 0x15 => s.regEnc o
    | 0x16 => s.regDec o
    | 0x17 => s.regRec o
    | 0x18 => s.regHbm o
    | 0x19 => s.regFlx o
    | 0x1A => s.regTrs o
    | 0x1B => s.regBrl o
    | _ => 0

/-- The low words of the pairs of R9. MBX_REJECT_LO and MBX_REJECT_HI are 64 bits of their own, not one 64-bit value, and are
no pair (assumption 33). -/
def isPairLow (a : Nat) : Bool :=
  [0x800008, 0x1000000, 0x1000008, 0x1200000, 0x1200008, 0x1B00010, 0x700020, 0x700700].contains a ||
  (0x1710000 ≤ a && a < 0x1730000 && a % 0x1000 == 4) || (0x500000 ≤ a && a < 0x502000 && a % 8 == 0)

/-- The latch of a pair, by its low word: the high word last latched, or its reset value (R9). -/
def State.latched (s : State) (lo : Nat) : Nat := ((s.latches.find? (·.1 == lo)).map (·.2.toNat)).getD 0

/-- What a read of an aligned word returns, a high word of a pair from its latch. -/
def State.readWord (s : State) (a : Nat) : Nat :=
  if 4 ≤ a && isPairLow (a - 4) then s.latched (a - 4) else s.regRead a

end Sys2Proof.Machine
end

