-- ==== Sys2Proof/Machine/Snapshot.lean ====
section
/-! DEFINITION. The records that a Halyard pulse latches (R654, R655). -/

namespace Sys2Proof.Machine

open Sys2Proof

/-- The open frame that a shroud lands: the one opened last among those it has delivered FS for. -/
def State.landingFrame (s : State) (n : Nat) : Option OpenFrame :=
  ((s.sensor (s.shroud n).sensorOf).openFrames.filter (fun o => o.lands && o.fsFrom.contains n)).getLast?

/-- Bytes in a landing FIFO now: what was stored less what has drained at 102.4 GB/s (R317). -/
def State.fifoNow (s : State) (sh : Shroud) : Nat := sh.fifoLevel - (s.now - sh.fifoTbm) * 1024 / 10

def State.snapShroud (s : State) (n : Nat) : List Nat :=
  let sh := s.shroud n
  let f := s.landingFrame n
  [s.regShroud sh 0x00, s.regShroud sh 0x14, s.regShroud sh 0x1C, s.regCtx (0x100 + 4 * n), s.fifoNow sh,
   (f.map (·.number.toNat)).getD 0, (f.map (fun o => popCount 65536 o.rowsIn)).getD 0]

def State.snapEngine (s : State) (m : Nat) : List Nat :=
  if m < 0x48 then [s.regStp (4 * (m - 0x40)), s.regStp (0x20 + 4 * (m - 0x40))]
  else if m < 0x50 then [s.regMsh (4 * (m - 0x48)), s.regMsh (0x20 + 4 * (m - 0x48))]
  else if m < 0x5C then [s.regEnc (4 * (m - 0x50)), s.regEnc (0x40 + 4 * (m - 0x50))]
  else if m < 0x60 then [s.regDec (4 * (m - 0x5C)), s.regDec (0x10 + 4 * (m - 0x5C))]
  else [s.regBrl (4 * (m - 0x60))]

/-- The queue depths of a pseudo-channel at the latch are open: the n-th free values (assumption 17). -/
def State.snapPc (s : State) (p n : Nat) : List Nat :=
  [s.regPc p 0x0, s.regPc p 0x4, s.regPc p 0x8, s.regPc p 0xC, Config.freeNat n % 33, Config.freeNat (n + 1) % 2 ^ 32]

def State.snapFlex (s : State) (i : Nat) : List Nat :=
  if i = 0 then [s.regEpStatus, s.regFlx 0x8, s.regFlx 0xC]
  else
    let y := (i - 1) / 4 + 1
    let k := (i - 1) % 4
    [s.regFlxSlot y k 0x00, s.regFlxSlot y k 0x04, s.regFlxSlot y k 0x08, s.regFlxSlot y k 0x0C]

/-- What the record of a block holds: block code, index, whether the block is powered, words. -/
def State.snapBlocks (s : State) : List (Nat × Nat × Bool × List Nat) :=
  (List.range 56).map (fun n => (0x01, n, true, s.snapShroud n)) ++
  (List.range 16).map (fun n =>
    (0x02, n, true, [0x00, 0x04, 0x0C, 0x10, 0x1C, 0x20].map (fun o => s.regSlk (0x10000 + 0x1000 * n + o)))) ++
  (List.range 64).map (fun c =>
    (0x03, c, true, ([0x00, 0x08, 0x0C, 0x10] ++ (List.range 6).map (fun k => 0x40 + 4 * k)).map (s.regCtxBlock c))) ++
  (List.range' 0x40 30 ++ List.range' 0x60 4).map (fun m => (0x04, m, true, s.snapEngine m)) ++
  (List.range 32).map (fun n =>
    (0x05, n, true, [0x00, 0x04, 0x08, 0x0C, 0x10, 0x14, 0x18].map (s.regRecStream n) ++ [State.regTrsStream (s.stream n)])) ++
  (List.range 128).map (fun p => (0x06, p, (s.pchan p).ready, s.snapPc p (s.free + 364 + 2 * p))) ++
  (List.range 29).map (fun i => (0x07, i, i == 0 || (s.yard ((i - 1) / 4 + 1)).mode != 0, s.snapFlex i)) ++
  [(0x08, 0, true, [0x00, 0x08, 0x0C, 0x10, 0x14, 0x1C, 0x20, 0x210, 0x214].map s.regNrg),
   (0x09, 0, true, ((List.range 5).map (fun b => [secLo (s.base b).time, latchNs (s.base b).time])).flatten),
   (0x0A, 0, true, [0x00, 0x04, 0x10, 0x14, 0x18, 0x1C, 0x500, 0x28].map s.regHlt),
   (0x0B, 0, true, [0x0, 0x8, 0xC].map s.regTrs),
   (0x0C, 0, true, [s.power.heartbeat.toNat, s.tagsUsed.length, s.pendingJobs.length, s.ncp.exec.length])]

/-- Records 0 to 363 of the bank (R655). Each block latches within 40 ns and 4 of its clock cycles; when, to the
nanosecond, is open (assumption 17). -/
def snapRecords (s : State) (seq : BitVec 32) (sources : Nat) : List Snap :=
  (numbered s.snapBlocks).map (fun p =>
    { seq := seq, block := p.2.1, index := p.2.2.1, sources := sources, valid := p.2.2.2.1,
      tbm := s.now + Config.freeNat (s.free + p.1) % 201, words := p.2.2.2.2.map (BitVec.ofNat 32) })

/-- Free values that one pulse uses. -/
def snapDraws : Nat := 364 + 2 * 128

end Sys2Proof.Machine
end

