-- ==== Sys2Proof/Machine/Events.lean ====
section
/-! DEFINITION. What the device raises on its own: MSI-X messages, events, Halyard pulses, counters and histograms, and
error-log entries (chapters 04, 16 and 20). -/

namespace Sys2Proof.Machine

open Sys2Proof

/-! ## MSI-X (R110, R127, R526, R527) -/

/-- The vector's message leaves, or its pending bit is set. The summary bit is set in either case. -/
def State.sendVector (s : State) (v : Nat) : State :=
  let s := if v < 22 then { s with ncp := { s.ncp with intSummary := s.ncp.intSummary ||| BitVec.ofNat 32 (2 ^ v) } } else s
  let vec := s.vec v
  let s := s.updVec v (fun x => { x with owed := false, lastSent := some s.now })
  if !s.ep.msixEn || s.ep.d3 then s
  else if vec.masked || s.ep.fnMask then s.updVec v (fun x => { x with pendingBit := true })
  else s.out (.msix v vec.addr vec.data)

/-- A source asks for its vector. A ring's vector, 1 to 17, is sent at most once per 2 µs, and one message covers all records
since (R127). -/
def State.askVector (s : State) (v : Nat) : State :=
  if v = 0 || 17 < v || s.mayRaise (s.vec v).lastSent (us 2) then s.sendVector v else s.updVec v (fun x => { x with owed := true })

/-- Set a bit of GLB_GLOBAL_CAUSE, the source of vector 0. -/
def State.setCause (s : State) (b : Nat) : State :=
  (s.updNcp fun n => { n with globalCause := n.globalCause ||| BitVec.ofNat 32 (2 ^ b) }).askVector 0

/-! ## The event ring (R126, R127, R151, R153) -/

/-- Source fields of R126. -/
def srcDevice : Nat := 0
def srcCtx (c : Nat) : Nat := 0x1000 + c
def srcStream (n : Nat) : Nat := 0x2000 + n
def srcMaster (m : Nat) : Nat := 0x3000 + m
def srcSession (n : Nat) : Nat := 0x4000 + n
def srcShroud (n : Nat) : Nat := 0x5000 + n
def srcYard (y : Nat) : Nat := 0x6000 + y
def srcPort (p : Nat) : Nat := 0x7000 + p

/-- The 32 bytes of an event record. -/
def eventRecord (code src : Nat) (t : Nanos) (phase : Bool) (body : List Byte) : List Byte :=
  le 2 code ++ le 2 src ++ le 8 (t / 1000000000) ++ le 4 (t % 1000000000 + b2n phase * 2 ^ 31) ++ fit 16 body

def eqBase : Nat := 0x280000
def eqSize : Nat := 16384

/-- The ring is full: the producer index + 1 equals the consumer index (R127). -/
def State.eqFull (s : State) : Bool := (s.ncp.eqProd + 1) % eqSize == s.ncp.eqCons

/-- Write one record and advance the producer index; PHASE inverts on each wrap. -/
def State.eqWrite (s : State) (code src : Nat) (body : List Byte) : State :=
  let n := s.ncp
  { s with ncp :=
    { n with mem := n.mem.writeN (eqBase + 32 * n.eqProd) (eventRecord code src s.now n.eqPhase body),
             eqProd := (n.eqProd + 1) % eqSize,
             eqPhase := if n.eqProd + 1 = eqSize then !n.eqPhase else n.eqPhase } }

/-- Space has returned: EVENTS_LOST goes before any newer event (R127, R153). -/
def State.eqOwed (s : State) : State :=
  if s.ncp.eqLostSince == 0 || s.eqFull then s
  else
    let s := s.eqWrite 0x0101 srcDevice (le 4 s.ncp.eqLostSince)
    (s.updNcp fun n => { n with eqLostSince := 0 }).askVector 17

/-- The event is suppressed by EVENT_MASK (R151). -/
def State.suppressed (s : State) (code : Nat) : Bool :=
  let g := code / 256
  2 ≤ g && g ≤ 14 && s.ncp.eventMask.toNat.testBit g

/-- Vectors 22 to 255 that OBS_VECTOR maps to the code (R664). -/
def State.codeVectors (s : State) (code : Nat) : List Nat := (s.obs.vectors.filter (·.2 = code)).map (·.1)

/-- Raise an event: record, or count it lost, and send the ring's vector and the vectors mapped to its code. A suppressed
event sends neither, but it still triggers Halyard where OBS_SET lists its code (assumption 33). -/
def State.post (s : State) (code src : Nat) (body : List Byte) : State :=
  if s.suppressed code then s
  else
    let s := s.eqOwed
    let s :=
      if s.eqFull then
        (s.updNcp fun n => { n with eqLost := n.eqLost + 1, eqLostSince := n.eqLostSince + 1 }).setCause 2
      else (s.eqWrite code src body).askVector 17
    each (s.codeVectors code) (fun v s => s.askVector v) s

/-! ## Halyard (R650–R652) -/

/-- OBS_SET in force; all zeros before any. -/
def State.obsSet (s : State) : List Byte := s.obs.set.getD []

/-- Whether OBS_SET enables a source of R650; the host source always is. -/
def State.halSource (s : State) (b : Nat) : Bool := b == 0 || (fld s.obsSet 4 4).testBit b

/-- Whether OBS_SET lists an event code as a firmware event (R660). -/
def State.halListed (s : State) (code : Nat) : Bool :=
  s.halSource 1 && code != 0 && (List.range 8).any (fun k => fld s.obsSet (48 + 2 * k) 2 == code)

/-- A pulse: the snapshot bank, the frozen copies, the sequence number, the interrupt, the event and the pin (R651). -/
def State.halPulse (s : State) (sources merged : Nat) : State :=
  let n := s.obs.halSeq + 1
  let o := s.obs
  let recs := snapRecords s n sources
  let s : State := { s with free := s.free + snapDraws, obs :=
    { o with halSeq := n, halLast := some s.now, halPending := none, snpSources := sources, snpSeq := n,
             banks := o.banks.set (n.toNat % 2) recs, freezeSeq := n,
             counters := o.counters.map (fun c => { c with frozen := c.value, frozenOvf := c.overflow }),
             hists := o.hists.map (fun h => { h with frozen := h.bins }) } }
  let s := if fld s.obsSet 10 1 == 1 then s.out .halyardOut else s
  let s := s.askVector 20
  let s := s.post 0x0904 srcDevice (le 4 n.toNat ++ le 4 sources ++ le 4 merged)
  if s.halListed 0x0904 then { s with obs := { s.obs with halPending := some (2, 0) } } else s

/-- A trigger of one source: a pulse, or the one pending trigger, into which later ones merge (R652). -/
def State.halTrigger (s : State) (source : Nat) : State :=
  match s.obs.halPending with
  | some (srcs, merged) =>
    { s with obs := { s.obs with halPending := some (srcs ||| 2 ^ source, merged + 1),
                                 halMerged := satInc 16 s.obs.halMerged } }
  | none =>
    if s.mayRaise s.obs.halLast (us 1) then s.halPulse (2 ^ source) 0
    else { s with obs := { s.obs with halPending := some (2 ^ source, 0) } }

/-- Raise an event; one whose code OBS_SET lists also triggers Halyard (R650 bit 1). -/
def State.raise (s : State) (code src : Nat) (body : List Byte) : State :=
  let s := s.post code src body
  if s.halListed code then s.halTrigger 1 else s

/-- An event that is raised at most once in a span, as some chapters limit theirs. -/
def State.raiseLimited (s : State) (last : Option Nanos) (span : Nanos) (code src : Nat) (body : List Byte)
    (mark : Option Nanos → State → State) : State :=
  if s.mayRaise last span then mark (some s.now) (s.raise code src body) else s

/-! ## Counters and histograms (R656–R658) -/

/-- What a counted event carries for the filters of R656. -/
structure Tagged where
  privilege : Option Nat := none
  master    : Option Nat := none
  addr      : Option Nat := none
  cls       : Option Nat := none
deriving DecidableEq, Repr

/-- The filters of a counter entry (R656, R661). -/
def passes (set e : List Byte) (t : Tagged) : Bool :=
  let inWindow (a k : Nat) : Bool :=
    bit (fld e 6 1) k && fld set (16 + 16 * k) 8 ≤ a && a ≤ fld set (24 + 16 * k) 8
  (match t.privilege with | some p => bit (fld e 3 1) p | none => fld e 3 1 == 7) &&
  (match t.master with | some m => fld e 4 1 == 0xFF || fld e 4 1 == m | none => fld e 4 1 == 0xFF) &&
  (match t.addr with | some a => fld e 6 1 == 0 || inWindow a 0 || inWindow a 1 | none => fld e 6 1 == 0) &&
  (match t.cls with | some c => bit (fld e 5 1) c | none => fld e 5 1 == 0x7F)

/-- One counter takes an amount; OVERFLOW is sticky. -/
def Counter.add (c : Counter) (n : Nat) : Counter :=
  { c with value := BitVec.ofNat 48 (c.value.toNat + n), overflow := c.overflow || decide (2 ^ 48 ≤ c.value.toNat + n) }

/-- The value passes from below a non-zero threshold to it or above, at once or after a wrap (R657). -/
def crosses (old n thr : Nat) : Bool :=
  thr != 0 && ((decide (old < thr) && decide (thr ≤ old + n)) || decide (2 ^ 48 + thr ≤ old + n))

/-- Count an event of R656 with an amount. -/
def State.count (s : State) (event n : Nat) (t : Tagged) : State :=
  if s.obs.set.isNone then s
  else
    let hit (c : Counter) : Bool :=
      match c.entry with
      | some e => fld e 2 1 == event && passes s.obsSet e t
      | none => false
    let crossed := s.obs.counters.any (fun c => hit c && crosses c.value.toNat n (fld (c.entry.getD []) 8 6))
    let s := { s with obs := { s.obs with counters := s.obs.counters.map (fun c => if hit c then c.add n else c) } }
    if crossed && s.halSource 5 then s.halTrigger 5 else s

/-- A counter whose entry selects an event. -/
def Counter.selects (c : Counter) (event : Nat) : Bool := c.entry.any (fun e => fld e 2 1 == event)

/-- Bytes of a link: those of the message, and a free number for headers and link messages (assumption 2). -/
def State.countLink (s : State) (event n : Nat) (t : Tagged) : State :=
  if s.obs.counters.any (·.selects event) then
    let (d, s) := s.drawNat
    s.count event (n + d) t
  else s

/-- Host memory that the host DMA writes (R528). -/
def State.dmaOut (s : State) (host : Nat) (data : List Byte) : State :=
  (s.out (.hostWrite host data)).countLink 0x0E data.length { privilege := some 0, master := some 0x6A }

/-- What leaves an Ethernet port, with as many of its bytes as the model holds. -/
def State.ethOut (s : State) (m : OutMsg) (n : Nat) : State := (s.out m).countLink 0x11 n { privilege := some 1 }

/-- Accesses whose addresses the model does not hold, and the link's register accesses and messages, add a free number to every
counter of their events (assumption 2). -/
def State.countOther (s : State) (events : List Nat) : State :=
  let hit (c : Counter) : Bool := events.any c.selects
  if !s.obs.counters.any hit then s
  else
    let more (i : Nat) (c : Counter) : Nat := if hit c then Config.freeNat (s.free + i) else 0
    let crossed := (s.obs.counters.zipIdx.any (fun p => crosses p.1.value.toNat (more p.2 p.1) (fld (p.1.entry.getD []) 8 6)))
    let s : State :=
      { s with free := s.free + 512, obs := { s.obs with counters := s.obs.counters.mapIdx (fun i c => c.add (more i c)) } }
    if crossed && s.halSource 5 then s.halTrigger 5 else s

/-- The bin of a latency (R658). -/
def histBin (ns : Nat) : Nat := if ns = 0 then 0 else min 31 ns.log2

/-- A latency for the histogram units of a kind. -/
def State.hist (s : State) (kind ns : Nat) (master cls : Option Nat) : State :=
  let ok (h : Hist) : Bool :=
    h.kind == kind &&
    (match master with | some m => h.master == 0xFF || h.master == m | none => h.master == 0xFF) &&
    (match cls with | some c => bit h.classes c | none => h.classes == 0x7F)
  { s with obs := { s.obs with hists := s.obs.hists.map (fun h =>
      if ok h then { h with bins := upd h.bins (histBin ns) (satInc 32) } else h) } }

/-! ## The error log (R640–R647) -/

def Loc.none : Loc := { kind := 0, unit := 0, sub := 0, bank := 0, row := 0, column := 0 }

/-- The same location: kind, unit, sub, bank and row agree (R642). -/
def Loc.same (a b : Loc) : Bool :=
  a.kind == b.kind && a.unit == b.unit && a.sub == b.sub && a.bank == b.bank && a.row == b.row

def Loc.ofBytes (p : List Byte) : Loc :=
  { kind := fld p 0 1, unit := fld p 1 1, sub := fld p 2 1, bank := fld p 3 1, row := fld p 4 4, column := fld p 8 2 }

/-- The health clock: its base plus TBM seconds (R642). -/
def State.healthClock (s : State) : Nat := s.nv.clockBase + s.now / 1000000000

/-- Flags of R643. -/
def efMerged : Nat := 1
def efDropped : Nat := 2
def efPartial : Nat := 4
def efRetired : Nat := 8
def efRepaired : Nat := 16
def efOnDemand : Nat := 32

/-- Outcomes of R644. -/
def ocPending : Nat := 0
def ocTransient : Nat := 1
def ocIntermittent : Nat := 2
def ocLasting : Nat := 3
def ocNotRun : Nat := 4
def ocLogOnly : Nat := 5

/-- Errors at a location in the 86,400 s that end now; on-demand entries do not count (R642, R664). -/
def State.errCount (s : State) (l : Loc) : Nat :=
  (s.nv.errLog.filter (fun e => e.loc.same l && !(bit e.flags 5) && decide (s.healthClock < e.clock + 86400))).length

def State.setErrEntry (s : State) (seq : Nat) (f : ErrEntry → ErrEntry) : State :=
  { s with nv := { s.nv with errLog := s.nv.errLog.map (fun e => if e.seq = seq then f e else e) } }

/-- An outcome has been decided: the entry is updated in place, with vector 21 and SELFTEST_DONE (R645). -/
def State.errUpdated (s : State) (seq : Nat) : State :=
  match s.nv.errLog.find? (fun e => e.seq == seq) with
  | none => s
  | some e =>
    (s.askVector 21).raise 0x0902 srcDevice (le 4 e.seq ++ le 1 e.outcome ++ le 1 0 ++ le 2 e.flags ++ le 4 e.result)

/-- The outcome of an entry of a test that passed (true), failed or did not run: R647's decide without R648. -/
def State.errDecide (s : State) (seq : Nat) (passed : Option Bool) (result extra : Nat) : State :=
  let s := s.setErrEntry seq (fun e =>
    { e with flags := e.flags ||| extra,
             result := if passed = none then 0 else result,
             outcome := match passed with
               | some false => ocLasting
               | none => ocNotRun
               | some true => if 3 ≤ e.count then ocIntermittent else ocTransient })
  s.errUpdated seq

/-- The physical page that holds the addresses of a row: pages of the same SID and rows of one stack (R492). -/
def Loc.page (l : Loc) : Nat := l.unit * 12288 + 3 * (l.row / 4) + l.bank / 16

/-- A retired engine or lander of a master ID, by itself or by one of its SRAM banks. -/
def State.unitRetired (s : State) (m : Nat) : Bool := s.nv.retired.any (fun r => (r.1.kind == 3 || r.1.kind == 4) && r.1.unit == m)

/-- The location is retired already: itself, or what it lies in, a page, a shroud or an engine (R509, R648, R649). -/
def State.isRetired (s : State) (l : Loc) : Bool :=
  s.nv.retired.any (fun r => r.1.same l) ||
    (match l.kind with
     | 1 => s.nv.retiredPages.any (fun r => r.1 == l.page)
     | 2 | 3 | 4 => s.unitRetired l.unit
     | _ => false)

/-- An error or a command asks for a scan at once: the eye of the lane, the margin of an ACTIVE port (R646). -/
def State.scanAtOnce (s : State) (l : Loc) : State :=
  if l.kind = 2 then s.updShroud l.unit fun x =>
    { x with lanes := upd x.lanes l.sub (fun y => { y with scanning := true }) }
  else if l.kind = 6 && l.unit = 0 then s.updEp fun e => { e with scanning := e.scanning || e.st == fxActive }
  else if l.kind = 6 then s.updPort l.unit l.sub fun x => { x with scanning := x.scanning || (x.port.isSome && x.st == fxActive) }
  else s

/-- What an error carries besides its class and location. -/
structure ErrInfo where
  detail : Nat := 0
  master : Nat := 0xFF
  tag    : Nat := 0xFFFF
  ctx    : Nat := 0xFF
  flags  : Nat := 0
deriving DecidableEq, Repr

/-- Write an entry: the log, ERR_CLASS, vector 21, ERR_LOGGED and the ERROR source of Halyard (R643, R645, R650). -/
def State.errWrite (s : State) (cls : Nat) (l : Loc) (i : ErrInfo) : State :=
  let seq := s.nv.errSeq + 1
  let counted := if bit i.flags 5 then 0 else 1
  let e : ErrEntry :=
    { seq := seq, cls := cls, outcome := if 7 ≤ cls then ocLogOnly else ocPending, flags := i.flags, loc := l,
      tbm := s.now, clock := s.healthClock,
      count := sat 8 (s.errCount l + counted),
      master := i.master, tag := i.tag, ctx := i.ctx, detail := i.detail, result := 0 }
  let s := { s with nv := { s.nv with errLog := (e :: s.nv.errLog).take 16384, errSeq := seq },
                    obs := { s.obs with classCount := upd s.obs.classCount cls (· + BitVec.ofNat 32 counted) } }
  let s := s.askVector 21
  let s := s.raise 0x0901 srcDevice (le 4 seq ++ le 1 cls ++ le 1 l.kind ++ le 1 l.unit ++ le 1 e.count)
  if s.halSource 3 && bit (fld s.obsSet 8 2) cls then s.halTrigger 3 else s

/-- R647 for a new error: retired already, joined to a test, dropped, or a new test queued. -/
def State.errQueue (s : State) (cls : Nat) (l : Loc) (seq : Nat) : State :=
  if s.isRetired l then
    (s.setErrEntry seq (fun e => { e with outcome := ocLasting, flags := e.flags ||| efRetired })).errUpdated seq
  else if s.obs.tests.any (fun t => t.loc.same l) then
    let s := s.setErrEntry seq (fun e => { e with flags := e.flags ||| efMerged })
    { s with obs := { s.obs with tests := s.obs.tests.map (fun t =>
        if t.loc.same l then { t with entries := t.entries ++ [seq] } else t) } }
  else if 64 ≤ (s.obs.tests.filter (fun t => !t.running)).length then
    let s := s.setErrEntry seq (fun e => { e with flags := e.flags ||| efDropped })
    s.errDecide seq none 0 0
  else
    let t : Test := { cls := cls, loc := l, entries := [seq], running := false, since := s.now }
    (s.updObs fun o => { o with tests := o.tests ++ [t] }).scanAtOnce l

/-- An error arrives (R640, R645, R647). -/
def State.logError (s : State) (cls : Nat) (l : Loc) (i : ErrInfo) : State :=
  let s := s.errWrite cls l i
  if 7 ≤ cls then s else s.errQueue cls l s.nv.errSeq

end Sys2Proof.Machine
end

