-- ==== Sys2Proof/Machine/Flags.lean ====
section
/-! DEFINITION. The words of flags: outcome words (R209), link flags (R276) and landing flags (R312). -/

namespace Sys2Proof.Machine

open Sys2Proof

/-! ## Outcome words (R207, R209, R210) -/

def outServed : Nat := 0
def outDeferred : Nat := 1
def outRefused : Nat := 2

/-- The word: OUTCOME, REASON, CLASS and WAITED, which saturates. -/
def outcomeWord (outcome reason cls waited : Nat) : BitVec 32 :=
  BitVec.ofNat 32 (outcome * 2 ^ 30 + reason * 2 ^ 27 + cls * 2 ^ 24 + sat 24 waited)

def owOutcome (w : BitVec 32) : Nat := w.toNat / 2 ^ 30
def owReason (w : BitVec 32) : Nat := w.toNat / 2 ^ 27 % 8
def owClass (w : BitVec 32) : Nat := w.toNat / 2 ^ 24 % 8
def owWaited (w : BitVec 32) : Nat := w.toNat % 2 ^ 24

/-- The worst of two: REFUSED over DEFERRED over SERVED, and within one outcome the larger WAITED (R210). -/
def worse (a b : BitVec 32) : BitVec 32 :=
  if owOutcome a < owOutcome b || (owOutcome a == owOutcome b && owWaited a < owWaited b) then b else a

/-- The outcome of an admitted job: SERVED at the first tick that considered it, else DEFERRED (R207). -/
def admittedWord (cls waits : Nat) : BitVec 32 :=
  outcomeWord (if waits = 0 then outServed else outDeferred) 0 cls waits

/-- Reasons of R209 and the status of each (R208). -/
def reasonStatus : Nat → Nat
  | 1 => stRefusedBudget
  | 2 => stRefusedHeat
  | 3 => stRefusedQuota
  | _ => stRefusedDeadline

def statusReason (st : Nat) : Nat :=
  if st = stRefusedBudget then 1 else if st = stRefusedHeat then 2 else if st = stRefusedQuota then 3
  else if st = stRefusedDeadline then 4 else 0

/-- A status that says the work was refused. -/
def isRefusal (st : Nat) : Bool := statusReason st != 0

/-! ## Link flags: bits of R276 -/

def lfShortLine : Nat := 1
def lfLongLine : Nat := 2
def lfShortFrame : Nat := 3
def lfLongFrame : Nat := 4
def lfNoFe : Nat := 5
def lfPayloadCrc : Nat := 6
def lfHeaderLost : Nat := 7
def lfLateLine : Nat := 8
def lfDupLine : Nat := 9
def lfFrameNumber : Nat := 10
def lfLinkLost : Nat := 11
def lfMisrouted : Nat := 12
def lfEmbedOverflow : Nat := 13

/-! ## Landing flags: bits of R312 -/

def gfJobsHeld : Nat := 0
def gfTrigger : Nat := 1
def gfShortPre : Nat := 2
def gfSuperseded : Nat := 3
def gfFifoOverflow : Nat := 4
def gfTileCheck : Nat := 5
def gfBaseUnset : Nat := 6
def gfTimeStep : Nat := 7

/-- Set a flag of a word. -/
def setFlag (w : BitVec 32) (b : Nat) : BitVec 32 := w ||| BitVec.ofNat 32 (2 ^ b)

def hasFlag (w : BitVec 32) (b : Nat) : Bool := w.getLsbD b

/-- Set a link flag: FLAGGED is set with it (R276). -/
def linkFlag (w : BitVec 32) (b : Nat) : BitVec 32 := setFlag (setFlag w b) 0

/-- The word with PADDED_ROWS in bits [31:16]. -/
def withPadded (w : BitVec 32) (rows : Nat) : BitVec 32 := BitVec.ofNat 32 (w.toNat % 2 ^ 16 + rows * 2 ^ 16)

end Sys2Proof.Machine
end

