-- ==== Sys2Proof/Machine/Jobs.lean ====
section
/-! DEFINITION. Jobs and engines (chapter 01): creation, tags, queues, running, completion, and the reorder limit. What a
job computes and what follows its end stands with its engine's chapter. -/

namespace Sys2Proof.Machine

open Sys2Proof

/-! ## Engines (R49) -/

/-- The masters that run jobs of a kind. -/
def JobKind.masters : JobKind → List Nat
  | .steepBand | .flicker => List.range' 0x40 8
  | .mashBand => List.range' 0x48 8
  | .xsRow => List.range' 0x50 4
  | .hevcRow => List.range' 0x54 8
  | .decPicture => [0x5C, 0x5D]
  | .barrel => List.range' 0x60 4
  | .caskUnit | .caskManifest => [0x64]
  | .recWrite => [0x68]
  | .outUnit => [0x69]
  | .selftest | .migration => [0x78]

/-- Depth of an engine's queue: 32 for Steep and Mash (R360, R396), 16 for an encoder core (R423); for the others the spec
gives none (assumption 2). -/
def queueDepth (m : Nat) : Nat :=
  if m < 0x50 then 32 else if m < 0x5C then 16 else Config.queueDepth m + 1

def State.updEngine (s : State) (m : Nat) (f : Engine → Engine) : State :=
  { s with engines := s.engines.map (fun e => if e.master = m then f e else e) }

def Loc.ofEngine (m : Nat) : Loc := { Loc.none with kind := 4, unit := m }

/-- An engine is quiesced for a targeted test of class 3 or 4 (R646). -/
def State.quiesced (s : State) (m : Nat) : Bool :=
  s.obs.tests.any (fun t => (t.cls == 3 || t.cls == 4) && t.loc.unit == m)

/-- Engines that can take one more job of the kind. -/
def State.roomFor (s : State) (k : JobKind) : List Nat :=
  k.masters.filter (fun m => !s.unitRetired m && !s.quiesced m && (s.engine m).queue.length < queueDepth m)

/-! ## The job list -/

def State.updJob (s : State) (id : Nat) (f : Job → Job) : State :=
  { s with jobs := s.jobs.map (fun j => if j.id = id then f j else j) }

def State.mapJobs (s : State) (f : Job → Job) : State := { s with jobs := s.jobs.map f }

def State.byTag (s : State) (t : Nat) : Option Job := s.jobs.find? (fun j => j.tag == some t)

/-- A job has ended: it is COMPLETE, or has left the list (R42). A refused job is COMPLETE until it retires. -/
def State.ended (s : State) (id : Nat) : Bool :=
  match s.job id with
  | none => true
  | some j => j.st == .complete

def State.retiredJob (s : State) (id : Nat) : Bool := (s.job id).isNone

/-- A new job of a kind with nothing else said. -/
def Job.make (k : JobKind) (cls : Nat) : Job :=
  { id := 0, kind := k, st := .pending, cls := cls, ctx := none, frame := 0, gen := 0, unit := 0, object := 0,
    streams := [], deps := [], depsRetired := [], units := [], deadline := none, pendingTbm := 0, pendingWindow := 0,
    waits := 0, tag := none, engine := 0xFF, startTbm := 0, runTbm := 0, endTbm := 0, status := 0, outcome := 0, superseded := false, counted := false, args := [],
    data := [] }

/-! ## Refusals (R205, R208) -/

/-- The maximum wait of C4 to C6 in ticks (R211). -/
def State.maxWait (s : State) (cls : Nat) : Nat :=
  let p := (s.globalBlock 0x0C01).getD []
  let v := fld p (8 + 4 * (cls - 4)) 4
  if v ≠ 0 then v else if cls = 6 then 200000 else 20000

/-- The reef level refuses the class HEAT (R205). -/
def heatRefuses (reef cls : Nat) : Bool := (reef == 1 && cls == 6) || (reef == 2 && 4 ≤ cls)

/-- The reason that refuses a job now, in the order of R208's table, without the creation limits. A change of reef level acts from
the tick on (R206). -/
def State.refusalReason (s : State) (j : Job) : Option Nat :=
  if 4 ≤ j.cls && s.maxWait j.cls ≤ j.waits then some 1
  else if heatRefuses s.ledger.reefAtTick j.cls then some 2
  else if j.superseded then some 3
  else match j.deadline with
    | some d => if d < s.now then some 4 else none
    | none => none

/-- A pending job ends REFUSED; it holds no tag and retires at once (R208, R299). -/
def State.refuseJob (s : State) (id reason : Nat) : State :=
  s.updJob id (fun j => { j with st := .complete, status := reasonStatus reason,
                                 outcome := outcomeWord outRefused reason j.cls j.waits })

/-- The pending list is full for the class (R208, at creation only). -/
def State.listFull (s : State) (cls : Nat) : Bool :=
  16384 ≤ s.pendingJobs.length ||
    (4 ≤ cls && 8192 ≤ (s.pendingJobs.filter (fun j => 4 ≤ j.cls)).length)

/-- Create a job: it becomes PENDING now, or is refused with 0 ticks waited. Answers its number. -/
def State.addJob (s : State) (j : Job) : Nat × State :=
  let id := s.nextJob
  let full := s.listFull j.cls
  let j := { j with id := id, pendingTbm := s.now, pendingWindow := s.ledger.window }
  let s := { s with jobs := s.jobs ++ [j], nextJob := id + 1 }
  let s := if full then s.refuseJob id 3 else
    match s.refusalReason j with
    | some r => s.refuseJob id r
    | none => s
  (id, s)

/-! ## The reorder limit (R47) -/

/-- Sequence number at the head of a stream's reorder stage: its first unit, or the next number when it is empty. -/
def Stream.head (t : Stream) : Nat :=
  match t.units with
  | u :: _ => u.seq
  | [] => t.nextUnit

def State.withinReorder (s : State) (j : Job) : Bool :=
  j.streams.all (fun p => (p.2 + 2 ^ 32 - (s.stream p.1).head) % 2 ^ 32 < 512)

/-- Originator of a job: 0 a host command, 1 the firmware (R656). -/
def Job.privilege (j : Job) : Nat := match j.kind with
  | .barrel | .decPicture => 0
  | _ => 1

/-- The 64 bytes of a precise sample of a retired job (R659); the address of its first access is not computed here. -/
def Job.sample (j : Job) (no first : Nat) : List Byte :=
  le 4 no ++ le 2 (j.tag.getD 0xFFFF) ++ le 1 j.engine ++ le 1 j.cls ++ le 1 (j.ctx.getD 0xFF) ++
    le 1 (b2n (j.privilege == 0) + 2 * b2n (!j.streams.isEmpty)) ++ le 2 j.status ++ le 4 j.outcome.toNat ++
    le 8 (Config.descriptor j.id) ++ le 8 first ++ nanosField j.startTbm ++ le 4 (sat 32 (j.endTbm - j.startTbm)) ++
    le 4 ((j.streams.head?.map (·.2)).getD 0) ++ le 4 (sat 32 (j.startTbm - j.pendingTbm)) ++ le 4 0

/-- Precise sampling at a job's retirement: every 2^k-th job that passes the filters (R659). -/
def State.sample (s : State) (j : Job) : State :=
  match s.obs.set with
  | none => s
  | some p =>
    let k := fld p 11 1
    let hit := (fld p 12 1 == 0xFF || fld p 12 1 == j.engine) && bit (fld p 13 1) j.cls
    if k = 0xFF || !hit then s
    else
      let n := s.obs.sampleCount + 1
      if n % 2 ^ k ≠ 0 then s.updObs fun o => { o with sampleCount := n }
      else
        let (first, s) := s.drawNat
        let no := s.obs.sampleNo + 1
        let slot := no.toNat % 4096
        s.updObs fun o =>
          { o with sampleCount := n, sampleNo := no,
                   samples := (slot, j.sample no.toNat first) :: o.samples.filter (·.1 ≠ slot) }

/-! ## Eligibility and admission (R203, R35, R36) -/

/-- The tag condition of R35 and R36. -/
def State.tagFor (s : State) (cls : Nat) : Bool :=
  if 4 ≤ cls then 1024 < s.tagsFree else 0 < s.tagsFree

/-- R203, but for what an engine's chapter adds to "its queue has room". -/
def State.eligibleCore (s : State) (j : Job) : Bool :=
  !(s.roomFor j.kind).isEmpty && j.deps.all s.ended && j.depsRetired.all s.retiredJob && s.tagFor j.cls &&
    s.withinReorder j

/-- Admit a job: a free tag, and the queue of one engine of its kind; the spec leaves both choices to the device
(assumption 2). -/
def State.letIn (s : State) (j : Job) : State :=
  let used := s.tagsUsed
  let (tag, s) := s.choose ((List.range 4096).filter (fun t => !used.contains t))
  let (m, s) := s.choose (s.roomFor j.kind)
  match tag, m with
  | some tag, some m =>
    let s := s.updJob j.id (fun j => { j with st := .issued, tag := some tag, engine := m, startTbm := s.now })
    let s := s.updEngine m (fun e => { e with queue := e.queue ++ [j.id] })
    let s := s.count 0x07 1 { privilege := some j.privilege, master := some m, cls := some j.cls }
    s.hist 2 (s.now - j.pendingTbm) (some m) (some j.cls)
  | _, _ => s

/-! ## Running and completing (R35, R41) -/

/-- Masters that run several jobs at once: the recorder, the output streamer and self-test. -/
def manyJobs (m : Nat) : Bool := m == 0x68 || m == 0x69 || m == 0x78

/-- The head of an idle engine's queue starts. -/
def State.startJob (s : State) (m : Nat) : Option Job × State :=
  let e := s.engine m
  match e.running, e.queue with
  | none, id :: rest =>
    match s.job id with
    | some j =>
      (some j, (s.updJob id (fun j => { j with st := .running, runTbm := s.now })).updEngine m (fun e =>
        { e with queue := rest, running := if manyJobs m then none else some id }))
    | none => (none, s)
  | _, _ => (none, s)

/-- The engine has finished a job: COMPLETE with a status; a superseded one with REFUSED_QUOTA (R21). -/
def State.completeJob (s : State) (j : Job) (status : Nat) : State :=
  let st := if j.superseded then stRefusedQuota else status
  let w := if j.superseded then outcomeWord outRefused 3 j.cls j.waits else admittedWord j.cls j.waits
  let s := s.updJob j.id (fun j => { j with st := .complete, status := st, outcome := w, endTbm := s.now })
  let s := s.updEngine j.engine (fun e => { e with running := none, jobs := e.jobs + 1 })
  let s := s.count 0x08 1 { privilege := some j.privilege, master := some j.engine, cls := some j.cls }
  s.hist 1 (s.now - j.startTbm) (some j.engine) (some j.cls)

/-- Queued jobs of a retired engine return to PENDING and keep their wait counts (R649). -/
def State.requeue (s : State) (m : Nat) : State :=
  let ids := (s.engine m).queue
  let s := s.updEngine m (fun e => { e with queue := [] })
  each ids (fun id s => s.updJob id (fun j => { j with st := .pending, tag := none, engine := 0xFF })) s

/-! ## Frames that jobs work on -/

/-- The record of a frame of a context that holds a slot. -/
def Context.frame (c : Context) (seq : BitVec 32) : Option Frame := c.frames.find? (fun f => f.seq == seq)

def State.frame (s : State) (c : Nat) (seq : BitVec 32) : Option Frame := (s.ctx c).frame seq

def State.updFrame (s : State) (c : Nat) (seq : BitVec 32) (f : Frame → Frame) : State :=
  s.updCtx c (fun x => { x with frames := x.frames.map (fun r => if r.seq = seq then f r else r),
                                refusalLog := x.refusalLog.map (fun r => if r.seq = seq then f r else r) })

/-- A BURST frame has been superseded: its slot is no longer its own (R21). -/
def Context.superseded (x : Context) (seq : BitVec 32) : Bool :=
  !x.frames.any (fun f => f.seq == seq) && x.refusalLog.any (fun f => f.seq == seq && f.state == 3)

/-- Create a job that serves a frame: the record counts it (R310). One of a superseded frame is refused QUOTA (R208). -/
def State.addFrameJob (s : State) (c : Nat) (seq : BitVec 32) (j : Job) : Nat × State :=
  let (id, s) := s.addJob { j with ctx := some c, frame := seq, superseded := (s.ctx c).superseded seq, counted := true }
  (id, s.updFrame c seq (fun f => { f with created := f.created + 1, jobsPending := f.jobsPending + 1 }))

/-- Create a job on a released unit: it carries the context of the unit's frame. Where it reads or holds the landing slot, the frame's
record counts it (R43, R299, R461; assumption 9). -/
def State.addUnitJob (s : State) (j : Job) : Nat × State :=
  let (id, s) := s.addJob j
  match j.ctx with
  | some c =>
    (id, if j.counted then s.updFrame c j.frame (fun f => { f with created := f.created + 1, jobsPending := f.jobsPending + 1 }) else s)
  | none => (id, s)

end Sys2Proof.Machine
end

