-- ==== Sys2Proof/Machine/Hash.lean ====
section
/-! DEFINITION. The published codes that the block computes over bytes: SHA3-512 of FIPS 202 (R160, R577), CRC-32C of
RFC 3720 (R31, R268) and the 16-bit CRC of a packet head (R264). -/

namespace Sys2Proof.Machine

open Sys2Proof

/-! ## Keccak-f[1600]: lane (x, y) at index x + 5 y -/

def keccakRot : List Nat :=
  [0, 1, 62, 28, 27, 36, 44, 6, 55, 20, 3, 10, 43, 25, 39, 41, 45, 15, 21, 8, 18, 2, 61, 56, 14]

def keccakRc : List (BitVec 64) :=
  [0x0000000000000001, 0x0000000000008082, 0x800000000000808A, 0x8000000080008000, 0x000000000000808B,
   0x0000000080000001, 0x8000000080008081, 0x8000000000008009, 0x000000000000008A, 0x0000000000000088,
   0x0000000080008009, 0x000000008000000A] ++
  [0x000000008000808B, 0x800000000000008B, 0x8000000000008089, 0x8000000000008003, 0x8000000000008002,
   0x8000000000000080, 0x000000000000800A, 0x800000008000000A, 0x8000000080008081, 0x8000000000008080,
   0x0000000080000001, 0x8000000080008008]

abbrev Lanes := Array (BitVec 64)

def Lanes.at (a : Lanes) (x y : Nat) : BitVec 64 := a.getD (x % 5 + 5 * (y % 5)) 0

def Lanes.make (f : Nat → Nat → BitVec 64) : Lanes :=
  ((List.range 25).map (fun i => f (i % 5) (i / 5))).toArray

def keccakRound (a : Lanes) (rc : BitVec 64) : Lanes :=
  let c := ((List.range 5).map (fun x => a.at x 0 ^^^ a.at x 1 ^^^ a.at x 2 ^^^ a.at x 3 ^^^ a.at x 4)).toArray
  let t := Lanes.make (fun x y => a.at x y ^^^ c.getD ((x + 4) % 5) 0 ^^^ (c.getD ((x + 1) % 5) 0).rotateLeft 1)
  let b := Lanes.make (fun x y =>
    let i := (x + 3 * y) % 5
    (t.at i x).rotateLeft (keccakRot.getD (i + 5 * x) 0))
  Lanes.make (fun x y =>
    let v := b.at x y ^^^ (~~~(b.at (x + 1) y) &&& b.at (x + 2) y)
    if x = 0 ∧ y = 0 then v ^^^ rc else v)

def keccakF (a : Lanes) : Lanes := keccakRc.foldl keccakRound a

/-- Absorb one block of 72 bytes. -/
def absorbBlock (a : Lanes) (p : List Byte) : Lanes :=
  keccakF (Lanes.make (fun x y =>
    let i := x + 5 * y
    if i < 9 then a.at x y ^^^ BitVec.ofNat 64 (fld p (8 * i) 8) else a.at x y))

/-- Absorb n whole blocks. -/
def absorbAll : Nat → List Byte → Lanes → Lanes
  | 0, _, a => a
  | n + 1, p, a => absorbAll n (p.drop 72) (absorbBlock a (p.take 72))

/-- SHA3-512 of a message. -/
def sha3 (m : List Byte) : List Byte :=
  let k := m.length % 72
  let padded := if k = 71 then m ++ [0x86] else m ++ [0x06] ++ List.replicate (70 - k) 0 ++ [0x80]
  let a := absorbAll (padded.length / 72) padded (Lanes.make (fun _ _ => 0))
  ((List.range 8).map (fun i => le 8 (a.getD i 0).toNat)).flatten

/-! ## CRCs -/

/-- One byte of the reflected CRC-32C, polynomial 0x1EDC_6F41. -/
def crc32cByte (c : BitVec 32) (b : Byte) : BitVec 32 :=
  iter 8 (fun c => if c.getLsbD 0 then (c >>> 1) ^^^ 0x82F63B78 else c >>> 1) (c ^^^ b.zeroExtend 32)

def crc32c (p : List Byte) : BitVec 32 := ~~~(p.foldl crc32cByte 0xFFFFFFFF)

/-- One byte of the reflected CRC-32 of RFC 1952, polynomial 0x04C1_1DB7; the register stands complemented. -/
def crc32Byte (c : BitVec 32) (b : Byte) : BitVec 32 :=
  iter 8 (fun c => if c.getLsbD 0 then (c >>> 1) ^^^ 0xEDB88320 else c >>> 1) (c ^^^ b.zeroExtend 32)

/-- A running CRC-32 over further bytes. -/
def crc32More (c : BitVec 32) (p : List Byte) : BitVec 32 := ~~~(p.foldl crc32Byte (~~~c))

/-- A running Adler-32 of RFC 1950 over further bytes. -/
def adlerMore (c : BitVec 32) (p : List Byte) : BitVec 32 :=
  let (a, b) := p.foldl (fun (x : Nat × Nat) y => let a := (x.1 + y.toNat) % 65521; (a, (x.2 + a) % 65521))
    (c.toNat % 65536, c.toNat / 65536)
  BitVec.ofNat 32 (b * 65536 + a)

/-- One byte of the CRC with polynomial 0x1021, most significant bit first. -/
def crc16Byte (c : BitVec 16) (b : Byte) : BitVec 16 :=
  iter 8 (fun c => if c.getLsbD 15 then (c <<< 1) ^^^ 0x1021 else c <<< 1) (c ^^^ (b.zeroExtend 16 <<< 8))

def crc16 (p : List Byte) : BitVec 16 := p.foldl crc16Byte 0xFFFF

end Sys2Proof.Machine
end

