-- ==== Sys2Proof/Machine/Mailbox.lean ====
section
/-! DEFINITION. How the firmware takes a command from a mailbox, checks it and completes it (chapter 04). -/

namespace Sys2Proof.Machine

open Sys2Proof

/-! ## Completions (R114, R115, R125, R127, R133) -/

/-- The 32 bytes of a completion record. -/
def cplRecord (c : Cmd) (status : Nat) (phase response : Bool) (result : List Byte) : List Byte :=
  le 4 c.seq.toNat ++ le 2 status ++ le 1 c.box.code ++ le 1 (b2n phase * 128 + b2n response) ++ fit 16 result ++ c.cookie

def cqBase (n : Nat) : Nat := 0x200000 + n * 0x8000
def cqSize : Nat := 1024

/-- The completion ring of a session is full (R127). -/
def State.cqFull (s : State) (n : Nat) : Bool := ((s.session n).prod + 1) % cqSize == (s.session n).cons

/-- The response overwrites the command: length, sequence number, data (R115). -/
def State.putResponse (s : State) (c : Cmd) (d : List Byte) : State :=
  s.updNcp fun n => { n with mem := n.mem.writeN c.box.base (le 4 d.length ++ le 4 c.seq.toNat ++ d) }

/-- The mailbox leaves BUSY: to HELD with a response in it, and to IDLE otherwise (R114). -/
def State.leaveBusy (s : State) (c : Cmd) (response : Option (List Byte)) : State :=
  match response with
  | some d => (s.putResponse c d).setBox c.box .held
  | none => s.setBox c.box .idle

/-- Post a completion that has room: in its ring, in MG_CPL, at the end of an open slot, or in the orphan log. PHASE of a
record that lies in no ring is open (assumption 2). -/
def State.postNow (s : State) (w : WaitCpl) : State :=
  let c := w.cmd
  let resp := w.final && w.response.isSome
  match c.box with
  | .mgmt m =>
    let (ph, s) := s.drawBool
    let s := s.updMg m (fun x => { x with cpl := cplRecord c w.status ph resp w.result })
    if w.final then s.leaveBusy c w.response else s
  | .slot n =>
    if w.orphan then
      let (ph, s) := s.drawBool
      let s := if w.final then
          let o : Orphan := { session := c.session, bytes := cplRecord c w.status ph false w.result }
          s.updNcp fun x => { x with orphans := (x.orphans ++ [o]).drop (x.orphans.length + 1 - 64) }
        else s
      if w.final then s.updSlot n (fun x => { x with st := .idle, owner := none, closing := x.expired }) else s
    else if c.box.isOpen then
      let (ph, s) := s.drawBool
      let s := s.updNcp fun x =>
        { x with mem := x.mem.writeN (c.box.base + 0x3FE0) (cplRecord c w.status ph resp w.result) }
      if w.final then (s.leaveBusy c w.response).updSlot n (fun x => { x with heldSince := s.now }) else s
    else
      let k := c.session
      let q := s.session k
      let s := s.updNcp fun x =>
        { x with mem := x.mem.writeN (cqBase k + 32 * q.prod) (cplRecord c w.status q.phase resp w.result) }
      let s := s.updSession k fun x =>
        { x with prod := (q.prod + 1) % cqSize, phase := if q.prod + 1 = cqSize then !q.phase else q.phase }
      let s := if w.final then s.leaveBusy c w.response else s
      if bit c.flags 0 then s else s.askVector (1 + k)

/-- Whether the completion goes to a host session's ring. -/
def WaitCpl.ring (w : WaitCpl) : Option Nat :=
  match w.cmd.box with
  | .slot n => if w.orphan || 60 ≤ n then none else some w.cmd.session
  | .mgmt _ => none

/-- Post a completion, or let it wait while its ring is full; its slot then stays BUSY (R127). -/
def State.postCpl (s : State) (w : WaitCpl) : State :=
  match w.ring with
  | some k =>
    if s.cqFull k || s.ncp.waiting.any (fun x => x.ring == some k) then
      s.updNcp fun n => { n with waiting := n.waiting ++ [w] }
    else s.postNow w
  | none => s.postNow w

/-- The session of the command has closed, or its slot was taken from it by a link reset (R133, R136). -/
def State.orphaned (s : State) (c : Cmd) : Bool :=
  match c.box with
  | .slot n => !c.box.isOpen && ((s.slot n).closing || (s.slot n).owner.isNone)
  | .mgmt _ => false

/-- The latency of kind 4 of R658, from the doorbell to the first completion. -/
def State.cmdLatency (s : State) (c : Cmd) : State :=
  match c.box with
  | .slot n => s.hist 4 (s.now - (s.slot n).heldSince) none none
  | .mgmt _ => s

/-- The first and final completion of a command. -/
def State.reply (s : State) (c : Cmd) (status : Nat) (result : List Byte) (response : Option (List Byte)) : State :=
  (s.cmdLatency c).postCpl
    { cmd := c, orphan := s.orphaned c, status := status, result := result, response := response, final := true,
      first := true }

/-- OK with a result and no response. -/
def State.ok (s : State) (c : Cmd) (result : List Byte) : State := s.reply c stOk result none

/-- BAD_FIELD with the offset in the message of the field at fault (R123); payload offsets count from 0x20. -/
def State.badField (s : State) (c : Cmd) (payloadOff : Nat) : State := s.reply c stBadField (le 4 (payloadOff + 32)) none

/-- BAD_LENGTH with the length required or the upper limit (R123). -/
def State.badLength (s : State) (c : Cmd) (n : Nat) : State := s.reply c stBadLength (le 4 n) none

/-- Any other status with no result. -/
def State.fail (s : State) (c : Cmd) (status : Nat) : State := s.reply c status [] none

/-- ACCEPTED: the slot stays BUSY, and a later step posts the final completion. -/
def State.accept (s : State) (c : Cmd) (key : Nat) (args : List Nat) : State :=
  let s := (s.cmdLatency c).postCpl
    { cmd := c, orphan := s.orphaned c, status := stAccepted, result := [], response := none, final := false,
      first := true }
  s.updNcp fun n => { n with exec := n.exec ++ [{ cmd := c, orphan := false, key := key, args := args, cut := false }] }

/-- The final completion of an executing command, which leaves the list. -/
def State.finish (s : State) (e : ExecCmd) (status : Nat) (result : List Byte) (response : Option (List Byte)) : State :=
  let s := s.updNcp fun n => { n with exec := n.exec.erase e }
  s.postCpl { cmd := e.cmd, orphan := s.orphaned e.cmd || e.orphan, status := status, result := result,
              response := response, final := true, first := false }

/-- Finish every executing command of an opcode and key. -/
def State.finishAll (s : State) (op key status : Nat) (result : List Byte) (response : Option (List Byte)) : State :=
  each (s.executing op key) (fun e s => s.finish e status result response) s

/-! ## Taking a command (R114, R121, R122, R128, R129, R141, R142) -/

/-- Whether the kind of session that sent the command may send it. -/
def State.mayCome (s : State) (c : Cmd) (f : Form) : Bool :=
  match c.box with
  | .mgmt _ => f.mgmt && (f.rom || s.nimlek)
  | .slot _ => if c.box.isOpen then f.inOpen else f.host

/-- The session, as it was opened, whose doorbell rang the slot: its ID, and for one that has been opened anew since, when that was. -/
def Slot.sender (sl : Slot) : Option Nat × Option Nat := (sl.user, sl.former.map (·.1))

def State.sender (s : State) (b : Mbox) : Option Nat × Option Nat :=
  match b with
  | .slot n => (s.slot n).sender
  | .mgmt _ => (none, none)

/-- Commands that have been taken and have posted no completion: one whose fuse bits are being programmed, and transfers that wait
for a sensor's control port (R284, R593). -/
def State.unanswered (s : State) : List Cmd :=
  (s.trust.fusing.map (·.cmd)).toList ++ s.sensors.flatMap (fun x => x.scpWait.map (·.1))

/-- An earlier command of the session has yet to post its first completion (R127, R129). -/
def State.firstWaits (s : State) (c : Cmd) : Bool :=
  !c.box.isMgmt && !c.box.isOpen &&
    ((!s.orphaned c && s.ncp.waiting.any (fun w => w.ring == some c.session && w.first)) ||
      s.unanswered.any (fun w => !w.box.isMgmt && !w.box.isOpen && s.sender w.box == s.sender c.box))

/-- The sequence check of R128 and R141: the next expected number, or none in an open slot. A slot that was RUNG when its session
closed keeps the closed session's number when the session is opened anew. -/
def State.expectedSeq (s : State) (c : Cmd) : Option (BitVec 32) :=
  match c.box with
  | .mgmt m => some (s.mg m).expected
  | .slot n =>
    if c.box.isOpen then none
    else match (s.slot n).former with
      | some (_, e) => some e
      | none => some (s.session c.session).expected

/-- The number expected next goes up by 1, in each slot that keeps it for a former session. -/
def State.advanceSeq (s : State) (c : Cmd) : State :=
  match c.box with
  | .mgmt m => s.updMg m (fun x => { x with expected := x.expected + 1 })
  | .slot n =>
    if c.box.isOpen then s
    else match (s.slot n).former with
      | some (g, e) => s.updNcp fun x => { x with slots := x.slots.map (fun sl =>
          if sl.sender = ((s.slot n).user, some g) then { sl with former := some (g, e + 1) } else sl) }
      | none => s.updSession c.session (fun x => { x with expected := x.expected + 1 })

/-- The command has been taken: BUSY, and the session's heartbeat starts again (R132). -/
def State.markTaken (s : State) (c : Cmd) : State :=
  let s := s.setBox c.box .busy
  match c.box with
  | .mgmt _ => s
  | .slot n =>
    if c.box.isOpen || (s.slot n).former.isSome then s
    else s.updSession c.session (fun x => { x with lastTaken := s.now, lastSeq := c.seq })

/-- The checks of R122 after the sequence check; `k` is the owning chapter's part. The session ID of a management command's
header is not checked (assumption 33). -/
def State.checkForm (s : State) (c : Cmd) (hdr : List Byte) (f : Form) (k : Cmd → State → State) : State :=
  if !s.mayCome c f then s.reply c stBadOpcode (le 2 c.opcode) none
  else if f.hi < c.len || c.box.limit < c.len || c.len < f.lo then
    s.badLength c (if f.lo = f.hi then f.lo else min f.hi c.box.limit)
  else match f.lens.fault c.payload c.len with
    | some n => s.badLength c n
    | none => match c.headerFault hdr f with
      | some off => s.reply c stBadField (le 4 off) none
      | none =>
        if f.target && c.target != 0 && c.target != s.liveNumber then
          s.reply c stValidationFailed (le 4 s.liveNumber ++ le 4 1) none
        else k c s

/-- The sequence check, then the rest. -/
def State.checkSeq (s : State) (c : Cmd) (k : State → State) : State :=
  match s.expectedSeq c with
  | none => k s
  | some e => if c.seq ≠ e then s.reply c stBadSequence (le 4 e.toNat) none else k (s.advanceSeq c)

/-- Somebody serves the mailbox: the boot ROM from code 0x10 for management, the firmware for the host (R135, R142). -/
def State.served (s : State) (b : Mbox) : Bool :=
  s.running && (if b.isMgmt then 0x10 ≤ s.power.bootCode.toNat else s.fwReady)

/-- The granted slots that a session has rung and that are still RUNG, in the order of their doorbells (R117). -/
def State.rungBy (s : State) (sender : Option Nat × Option Nat) : List Mbox :=
  let rung := (numbered s.ncp.slots).filter (fun p => p.2.st == .rung && p.2.sender == sender && p.1 < 60)
  (sortBy (fun p q => p.2.rang < q.2.rang) rung).map (fun p => .slot p.1)

/-- The RUNG mailboxes of the sender that rang this one, in the order of their doorbells. -/
def State.sisters (s : State) (b : Mbox) : List Mbox :=
  match b with
  | .mgmt m => if (s.mg m).st == .rung then [.mgmt m] else []
  | .slot n =>
    if b.isOpen then (if (s.slot n).st == .rung then [b] else [])
    else s.rungBy (s.slot n).sender

/-- The commands that a command's sender has rung after it. -/
def State.rungAfter (s : State) (c : Cmd) : List Mbox :=
  if c.box.isMgmt || c.box.isOpen then [] else s.rungBy (s.sender c.box)

/-- An opcode that no command has completes BAD_OPCODE (assumption 5). -/
def State.sweepOne (s : State) (b : Mbox) : State :=
  let c := s.cmdIn b
  if s.boxSt b != .rung || opcodes.contains c.opcode || !s.served b || s.firstWaits c then s
  else (s.markTaken c).checkSeq c (fun s => s.reply c stBadOpcode (le 2 c.opcode) none)

/-- The undefined opcodes that come before a sender's first defined one, in order (R117, R129). -/
def State.sweepList (s : State) (bs : List Mbox) : State :=
  each (bs.takeWhile (fun x => !opcodes.contains (s.cmdIn x).opcode)) (fun x s => s.sweepOne x) s

def State.sweep (s : State) (b : Mbox) : State := s.sweepList (s.sisters b)

/-- The mailbox is the one of its sender that the firmware takes next: the first to have been rung (R117, R129). -/
def State.isNext (s : State) (b : Mbox) : Bool := (s.sisters b).head? == some b

/-- The firmware takes the command in a mailbox: only a RUNG one of this opcode, the sender's next. -/
def State.take (s : State) (b : Mbox) (f : Form) (k : Cmd → State → State) : State :=
  let c := s.cmdIn b
  if s.boxSt b != .rung || c.opcode != f.op || !s.served b || s.firstWaits c || !s.isNext b then s
  else
    let hdr := s.boxBytes b 0 32
    ((s.markTaken c).checkSeq c (fun s => s.checkForm c hdr f k)).sweep b

/-! ## Doorbells and releases (R113, R114, R116, R117) -/

/-- The reason of R116, 0 when the doorbell is accepted. -/
def State.ringReason (s : State) (n : Nat) : Nat :=
  let sl := s.slot n
  let sess := fld (s.boxBytes (.slot n) 0 32) 4 1
  if !s.served (.slot n) then 1
  else if sl.st != .idle then 2
  else if 60 ≤ n then (if sess == 0xFF then 0 else 4)
  else match sl.owner with
    | none => if sl.closing then 5 else 3
    | some k =>
      if sess != k then 4
      else if sl.closing || (s.session k).closing || !(s.session k).isOpen then 5
      else 0

/-- Ring one slot. -/
def State.ring (s : State) (n : Nat) : State :=
  let r := s.ringReason n
  if r = 0 then
    let s := s.updSlot n (fun x => { x with st := .rung, heldSince := s.now, user := x.owner, rang := s.ncp.rings, former := none })
    (s.updNcp fun x => { x with rings := x.rings + 1 }).sweep (.slot n)
  else s.updNcp fun x =>
    { x with rejectBits := x.rejectBits ||| BitVec.ofNat 64 (2 ^ n), lastRejectSlot := n, lastRejectReason := r,
             doorbellsRejected := satInc 16 x.doorbellsRejected }

/-- A write to MBX_DB_LO or MBX_DB_HI, slots ascending. -/
def State.ringAll (s : State) (hi : Bool) (v : Word) : State :=
  each (setBits 32 v.toNat) (fun j s => s.ring (if hi then 32 + j else j)) s

/-- A write to MBX_RELEASE_LO or MBX_RELEASE_HI. -/
def State.releaseAll (s : State) (hi : Bool) (v : Word) : State :=
  each (setBits 32 v.toNat) (fun j s =>
    s.updSlot (if hi then 32 + j else j) (fun x => if x.st = .held then { x with st := .idle } else x)) s

/-- A write to MG_DOORBELL: a mailbox that is not IDLE, or that nobody serves, is not rung (R113, R114, R142). -/
def State.mgRing (s : State) (v : Nat) : State :=
  each (setBits 2 v) (fun m s =>
    if s.served (.mgmt m) && (s.mg m).st == .idle then (s.updMg m (fun x => { x with st := .rung })).sweep (.mgmt m)
    else s) s

/-- A write to MG_RELEASE. -/
def State.mgFree (s : State) (v : Nat) : State :=
  each (setBits 2 v) (fun m s => s.updMg m (fun x => if x.st = .held then { x with st := .idle } else x)) s

/-- A host write into the slots: stored while the slot is IDLE, else ignored and counted (R113). A write that spans two
slots acts on each. -/
def State.writeSlot (s : State) (n off : Nat) (d : List Byte) : State :=
  if (s.slot n).st = .idle then
    s.updNcp fun x => { x with mem := x.mem.writeN ((Mbox.slot n).base + off) d }
  else s.updNcp fun x => { x with writesIgnored := satInc 16 x.writesIgnored }

/-- The endpoint's link is up: ACTIVE, RECOVERY or LOW_POWER of R538. -/
def State.epUp (s : State) : Bool := s.running && (s.ep.st == 6 || s.ep.st == 7 || s.ep.st == 8)

/-- BAR0 is decoded: the endpoint's link is up and it is not in D3hot (R135, R529, R530). -/
def State.hostReaches (s : State) : Bool := s.epUp && !s.ep.d3

def execDoorbell (hi : Bool) (v : Word) (s : State) : Host.Outcome State Fault Refusal :=
  .next (if s.hostReaches then s.ringAll hi v else s)

def execSlotRelease (hi : Bool) (v : Word) (s : State) : Host.Outcome State Fault Refusal :=
  .next (if s.hostReaches then s.releaseAll hi v else s)

def execMgDoorbell (v : Word) (s : State) : Host.Outcome State Fault Refusal := .next (s.mgRing v.toNat)

def execMgRelease (v : Word) (s : State) : Host.Outcome State Fault Refusal :=
  .next (if s.running then s.mgFree v.toNat else s)

/-- A vector's spacing has passed: one message for every record since the last (R127). -/
def execMsixMessageSend (vector : Nat) (s : State) : Host.Outcome State Fault Refusal :=
  .next (if (s.vec vector).owed && s.mayRaise (s.vec vector).lastSent (us 2) then s.sendVector vector else s)

/-- The host unmasks a vector: a pending message is sent once (R527). Its summary bit was set when the source would have
sent it, and is not set again here (assumption 33). -/
def State.unmask (s : State) (v : Nat) : State :=
  let s := s.updVec v (fun x => { x with masked := false })
  if (s.vec v).pendingBit && s.ep.msixEn && !s.ep.fnMask && !s.ep.d3 then
    (s.updVec v (fun x => { x with pendingBit := false })).out (.msix v (s.vec v).addr (s.vec v).data)
  else s

def execMsixUnmask (vector : Nat) (s : State) : Host.Outcome State Fault Refusal :=
  .next (if s.hostReaches then s.unmask vector else s)

/-- 1 s after its completion an open slot that is HELD returns to IDLE (R114). -/
def execOpenSlotTimeout (slot : Nat) (s : State) : Host.Outcome State Fault Refusal :=
  .next <|
    if 60 ≤ slot && (s.slot slot).st == .held && decide ((s.slot slot).heldSince + sec 1 ≤ s.now) then s.updSlot slot (fun x => { x with st := .idle }) else s

end Sys2Proof.Machine
end

