-- ==== Sys2Proof/Machine/Session.lean ====
section
/-! DEFINITION. The device-and-session commands of group 0x01 but for image delivery (R145–R151), session expiry, and the
policy flags that some commands obey (R587). -/

namespace Sys2Proof.Machine

open Sys2Proof

/-- The flags of the TRUST_POLICY of the LIVE generation (R587, R589). -/
def State.policyFlags (s : State) : Nat :=
  match s.cfg.live with
  | some g => fld ((payloadIn g.blocks 0x0B01 globalTarget).getD []) 16 4
  | none => 0

/-! ## Closing a session (R132, R133) -/

/-- The session's slots: HELD ones return to IDLE, IDLE ones are granted to nobody, and the others once they are IDLE. A
doorbell after an expiry is rejected SESSION_INVALID until the slot is granted again (R132; assumption 6). -/
def Slot.close (sl : Slot) (n : Nat) (expired : Bool) : Slot :=
  if sl.owner ≠ some n then sl
  else match sl.st with
    | .idle | .held => { sl with st := .idle, owner := none, closing := expired, expired := expired }
    | .rung | .busy => { sl with closing := true, expired := expired }

/-- Final completions that still waited for room in the ring go to the orphan log. -/
def State.orphanWaiting (s : State) (n : Nat) : State :=
  let ws := s.ncp.waiting.filter (fun w => w.ring == some n)
  let s := s.updNcp fun x => { x with waiting := x.waiting.filter (fun w => w.ring != some n) }
  each ws (fun w s => s.postNow { w with orphan := true }) s

/-- Commands of the session that are still BUSY; their final completions will go to the orphan log. -/
def State.busyOf (s : State) (n : Nat) : Nat :=
  (s.ncp.slots.filter (fun sl => sl.owner == some n && sl.st == .busy)).length

/-- A session closes. The event mask stays as the primary session has set it (assumption 33). -/
def State.closeSession (s : State) (n : Nat) (expired : Bool) : State :=
  let busy := s.busyOf n
  let s := s.updNcp fun x => { x with slots := x.slots.map (fun sl => sl.close n expired) }
  let s := s.orphanWaiting n
  let s := s.updSession n (fun x => { x with isOpen := false, primary := false, closing := false })
  s.raise 0x0104 (srcSession n) (le 4 n ++ le 4 busy)

def formSessionOpen : Form :=
  { op := 0x0101, host := false, inOpen := true, lo := 16, hi := 16, reserved := [(3, 1), (14, 2)], reservedBits := [(1, 1, 0xFE)] }

/-- The slots SESSION_OPEN can grant: 0 to 59, IDLE and held by no session. -/
def State.freeSlots (s : State) : List Nat :=
  (List.range 60).filter (fun n => (s.slot n).owner.isNone && (s.slot n).st == .idle)

/-- A slot that the session's doorbell rang before it was opened anew keeps the number that its former self expects (R132). -/
def Slot.keepNumber (k at_ : Nat) (e : BitVec 32) (sl : Slot) : Slot :=
  if sl.user = some k ∧ (sl.st = .rung ∨ sl.st = .busy) ∧ sl.former = none then { sl with former := some (at_, e) } else sl

/-- Open session k with the slots given (R127, R128, R146). With the ring, its two indices start again at 0 (assumption 33). -/
def State.openSession (s : State) (k : Nat) (slots : List Nat) (primary : Bool) (heartbeat first : Nat) : State :=
  let (last, s) := s.drawNat
  let s := s.updNcp fun x => { x with slots := x.slots.map (Slot.keepNumber k x.rings (s.session k).expected) }
  let s := s.updSession k fun _ =>
    { isOpen := true, closing := false, primary := primary, expected := BitVec.ofNat 32 first,
      heartbeat := if heartbeat = 0 then 5000 else heartbeat, lastTaken := s.now, lastSeq := BitVec.ofNat 32 last,
      prod := 0, cons := 0, phase := true }
  let s := each slots (fun n s => s.updSlot n (fun x => { x with owner := some k, closing := false, expired := false })) s
  s.updNcp fun x => { x with mem := x.mem.clear (cqBase k) 0x8000 }

/-- With 0xFF while all 16 sessions are open, BUSY (assumption 33). -/
def sessionOpenBody (c : Cmd) (s : State) : State :=
  let p := c.payload
  let want := fld p 0 1
  let role := fld p 1 1
  let nslots := fld p 2 1
  let hb := fld p 4 4
  let ver := fld p 12 2
  let free := s.freeSlots
  let k := if want = 0xFF then (List.range 16).find? (fun k => !(s.session k).isOpen)
           else if (s.session want).isOpen then none else some want
  if 15 < want && want != 0xFF then s.badField c 0
  else if nslots == 0 || 60 < nslots then s.badField c 2
  else if hb != 0 && (hb < 100 || 60000 < hb) then s.badField c 4
  else if ver / 256 != 3 || 2 < ver % 256 then s.badField c 12
  else if free.isEmpty || (bit role 0 && s.ncp.sessions.any (·.primary)) then s.fail c stBusy
  else match k with
    | none => s.fail c stBusy
    | some k =>
      let slots := free.take nslots
      let map := slots.foldl (fun v n => v + 2 ^ n) 0
      let s := s.openSession k slots (bit role 0) hb (fld p 8 4)
      let s := s.raise 0x0103 (srcSession k) (le 1 k ++ le 1 role ++ le 6 0 ++ le 8 map)
      s.ok c (le 1 k ++ le 1 slots.length ++ le 2 0 ++ le 8 map ++ [3, 2, 3, 2])

def execSessionOpen (b : Mbox) (s : State) : Host.Outcome State Fault Refusal := .next (s.take b formSessionOpen sessionOpenBody)

def formSessionClose : Form := { op := 0x0102 }

/-- OK is posted before the session closes (R145); while the ring is full, the session is closing until it is posted (R116). From a
session that has closed meanwhile, it closes nothing. -/
def sessionCloseBody (c : Cmd) (s : State) : State :=
  let gone := s.orphaned c
  let s := s.ok c []
  if gone then s
  else if s.ncp.waiting.any (fun w => w.cmd = c) then s.updSession c.session (fun x => { x with closing := true })
  else s.closeSession c.session false

def execSessionClose (b : Mbox) (s : State) : Host.Outcome State Fault Refusal :=
  .next (s.take b formSessionClose sessionCloseBody)

/-- Space has come in a full ring: the oldest waiting completion of the session is posted (R127). -/
def execCompletionPost (session : Nat) (s : State) : Host.Outcome State Fault Refusal :=
  .next <|
    match s.ncp.waiting.find? (fun w => w.ring == some session) with
    | none => s
    | some w =>
      if s.cqFull session then s
      else
        let s := (s.updNcp fun n => { n with waiting := n.waiting.erase w }).postNow w
        let s := if w.cmd.opcode == 0x0102 && w.status == stOk then s.closeSession session false else s
        s.sweepList (s.rungBy (some session, none))

def formSessionHeartbeat : Form := { op := 0x0103 }

def sessionHeartbeatBody (c : Cmd) (s : State) : State :=
  s.ok c (le 8 (s.now / 1000000000) ++ le 4 (s.now % 1000000000) ++ le 4 s.liveNumber)

def execSessionHeartbeat (b : Mbox) (s : State) : Host.Outcome State Fault Refusal :=
  .next (s.take b formSessionHeartbeat sessionHeartbeatBody)

def formDevInfo : Form := { op := 0x0104, inOpen := true, mgmt := true, rom := true }

/-- The 32 bytes of R149. -/
def State.devInfo (s : State) : List Byte :=
  le 2 0x7200 ++ [s.nv.fuses.stepping] ++ le 1 s.power.bootSource ++
    (if s.nimlek then [3, 2, 3, 2] else [0, 0, 0, 0]) ++ fit 8 s.nv.fuses.serial ++ [s.power.bootCode, s.power.resetCause] ++
    le 1 (b2n s.power.fellBack) ++ le 1 (bitmap (s.mem.hbm.map (fun h => h.st == 2 || h.st == 4))) ++ le 4 s.nv.bootCount ++
    le 4 s.liveNumber ++ le 4 s.power.linkResets.toNat

def devInfoBody (c : Cmd) (s : State) : State := s.reply c stOk [] (some s.devInfo)

def execDevInfo (b : Mbox) (s : State) : Host.Outcome State Fault Refusal := .next (s.take b formDevInfo devInfoBody)

def formDevReset : Form := { op := 0x0105, mgmt := true, lo := 4, hi := 4 }

/-- A warm reset by command is asked for; a second one is ignored (R91, R94). -/
def State.askWarm (s : State) (cause : Byte) : State :=
  s.updPower fun p => { p with warmPending := if p.warmPending.isSome then p.warmPending else some (cause, s.now) }

def formSessionOrphans : Form := { op := 0x0106, mgmt := true }

def sessionOrphansBody (c : Cmd) (s : State) : State :=
  s.reply c stOk [] (some (le 4 s.ncp.orphans.length ++
    (s.ncp.orphans.map (fun o => le 1 o.session ++ le 7 0 ++ o.bytes)).flatten))

def execSessionOrphans (b : Mbox) (s : State) : Host.Outcome State Fault Refusal :=
  .next (s.take b formSessionOrphans sessionOrphansBody)

def formEventMask : Form := { op := 0x0107, lo := 4, hi := 4 }

/-- The session that sent the command is open, and is the primary one. -/
def State.fromPrimary (s : State) (c : Cmd) : Bool := !s.orphaned c && (s.session c.session).primary

/-- Only the primary session may set the mask: the role of another does not permit it (R124, R145). The role is tested before the
mask's bits (DESIGN CHOICE, assumption 10). -/
def eventMaskBody (c : Cmd) (s : State) : State :=
  let m := fld c.payload 0 4
  if !s.fromPrimary c then s.fail c stNotAuthorised
  else if m &&& 0xFFFF8003 != 0 then s.badField c 0
  else (s.updNcp fun n => { n with eventMask := BitVec.ofNat 32 m }).ok c []

def execEventMask (b : Mbox) (s : State) : Host.Outcome State Fault Refusal := .next (s.take b formEventMask eventMaskBody)

def formPrimaryClaim : Form := { op := 0x0108 }

/-- A session that has closed since it rang the command gains no role. -/
def primaryClaimBody (c : Cmd) (s : State) : State :=
  if s.ncp.sessions.any (·.primary) then s.fail c stBusy
  else if s.orphaned c then s.ok c []
  else (s.updSession c.session (fun x => { x with primary := true })).ok c []

def execPrimaryClaim (b : Mbox) (s : State) : Host.Outcome State Fault Refusal :=
  .next (s.take b formPrimaryClaim primaryClaimBody)

/-- No command of the session has been taken for twice its interval (R132). -/
def State.lapsed (s : State) (n : Nat) : Bool :=
  let q := s.session n
  q.isOpen && decide (q.lastTaken + ms (2 * q.heartbeat) ≤ s.now)

/-- The session expires (R132, R153). -/
def execSessionExpired (session : Nat) (s : State) : Host.Outcome State Fault Refusal :=
  .next <|
    if !s.lapsed session then s
    else
      let last := (s.session session).lastSeq
      let s := (s.closeSession session true).setCause 3
      s.raise 0x0102 (srcSession session) (le 4 session ++ le 4 last.toNat)

end Sys2Proof.Machine
end

