-- ==== Sys2Proof/Machine/Stage.lean ====
section
/-! DEFINITION. Generations as the host builds them: blocks, canonical form and digest (R154–R160), and the commands that
stage and read them (R182–R187). -/

namespace Sys2Proof.Machine

open Sys2Proof

/-! ## Block types (R156) -/

/-- Types of NCP 3.2, all of version 1: those of one context, and the global ones. -/
def contextTypes : List Nat :=
  [0x0201, 0x0203, 0x0301, 0x0302, 0x0303, 0x0304, 0x0305, 0x0401, 0x0402, 0x0403, 0x0404, 0x0405, 0x0406, 0x0407,
   0x0501, 0x0502, 0x0C02]

def globalTypes : List Nat :=
  [0x0101, 0x0202, 0x0601, 0x0701, 0x0801, 0x0901, 0x0A01, 0x0A02, 0x0B01, 0x0C01, 0x0D01, 0x0D02, 0x0E01]

/-- Whether a target fits the type (R157). -/
def targetOk (type target : Nat) : Bool :=
  (contextTypes.contains type && target < 64) || (globalTypes.contains type && target == globalTarget)

/-! ## Canonical form (R159, R160) -/

def Block.header (b : Block) : List Byte :=
  le 2 b.type ++ le 2 b.version ++ le 2 b.target ++ le 2 b.flags ++ le 4 b.payload.length ++ le 4 0

/-- The order of the canonical form: type, then target. -/
def Block.before (a b : Block) : Bool := a.type < b.type || (a.type == b.type && a.target < b.target)

def Block.isAt (b : Block) (type target : Nat) : Bool := b.type == type && b.target == target

/-- Bytes of the canonical form. -/
def canonLength (bs : List Block) : Nat := bs.foldl (fun n b => n + 16 + b.payload.length) 16

def Gen.length (g : Gen) : Nat := canonLength g.blocks

def Gen.canonical (g : Gen) : List Byte :=
  [0x4F, 0x55, 0x56, 0x47] ++ le 2 1 ++ le 2 0 ++ le 4 g.blocks.length ++ le 4 g.length ++
    (g.blocks.map (fun b => b.header ++ b.payload)).flatten

def Gen.digest (g : Gen) : List Byte := sha3 g.canonical

/-- Put a block into a list in canonical order, in place of one of its type and target. -/
def putBlock (bs : List Block) (b : Block) : List Block :=
  insertBy Block.before b (bs.filter (fun x => !x.isAt b.type b.target))

/-! ## Reserved fields of payloads (R3) -/

/-- Reserved fields of an entry, for entries of one size that follow a header. -/
def entryFields (len hdr size : Nat) (l : Nat → List (Nat × Nat)) : List (Nat × Nat) :=
  ((List.range ((len - hdr) / size)).map (fun k => (l (hdr + size * k)).map (fun r => (hdr + size * k + r.1, r.2)))).flatten

/-- The fields that the layout of a block type calls reserved, as offset and size, ascending; `len` is the whole payload's length
and `p` what has arrived of it. Bits that a layout gives as 0 without that word are left to validation (assumption 34). -/
def reservedIn (type : Nat) (p : List Byte) (len : Nat) : List (Nat × Nat) :=
  let entries (size : Nat) (l : List (Nat × Nat)) : List (Nat × Nat) := (4, 4) :: entryFields len 8 size (fun _ => l)
  match type with
  | 0x0101 => entries 32 [(15, 1), (20, 12)]
  | 0x0201 => [(20, 44)]
  | 0x0202 => [(4, 4)]
  | 0x0203 => [(16, 16)]
  | 0x0301 => (28, 4) :: (List.range 4).map (fun q => (32 + 20 * q + 18, 2))
  | 0x0302 | 0x0303 | 0x0801 => [(4, 4)]
  | 0x0304 => [(6, 10)]
  | 0x0305 => [(1, 1), (22, 2)]
  | 0x0401 => [(6, 2), (72, 24)]
  | 0x0402 => entries 128 [(10, 2), (84, 44)]
  | 0x0403 => entries 49168 [(1, 3), (12, 4)]
  | 0x0404 | 0x0405 | 0x0406 | 0x0407 => [(2, 14)]
  | 0x0501 => entries 32 [(20, 12)]
  | 0x0502 => entries 32 [(23, 9)]
  | 0x0601 => entries 32 [(10, 2), (24, 8)]
  | 0x0701 => (4, 4) :: entryFields len 8 64 (fun o => match fld p (o + 1) 1 with
      | 0 => [(11, 1), (18, 2), (60, 4)]
      | 1 | 2 => [(11, 1), (45, 19)]
      | 3 => [(11, 1), (18, 46)]
      | _ => [(11, 1)])
  | 0x0901 => entries 64 [(4, 2), (14, 2), (48, 16)]
  | 0x0A01 => [(37, 11)]
  | 0x0A02 => entries 64 [(14, 2), (40, 24)]
  | 0x0B01 => [(21, 3), (28, 4), (4723, 1)]
  | 0x0C01 => [(20, 4)]
  | 0x0C02 => [(12, 4)]
  | 0x0D01 => (11, 5) :: entryFields len 16 16 (fun _ => [(3, 1), (14, 2)])
  | 0x0D02 => entries 16 [(12, 4)]
  | 0x0E01 => [(2, 2), (14, 2)] ++ entryFields (min len 192) 64 8 (fun _ => [(3, 5)]) ++ entryFields len 192 16 (fun _ => [(7, 1)])
  | _ => []

/-! ## Staging -/

def formCfgStageBegin : Form := { op := 0x0201, lo := 8, hi := 8, reserved := [(4, 4)] }

/-- A generation begins (R183). A STAGED or ARMED generation gives BUSY before the base is looked at (DESIGN CHOICE, assumption
33). -/
def cfgStageBeginBody (c : Cmd) (s : State) : State :=
  let base := fld c.payload 0 4
  if s.cfg.staged.isSome || s.cfg.armed.isSome then s.fail c stBusy
  else if 1 < base || (base == 1 && s.cfg.live.isNone) then s.badField c 0
  else
    let n := s.nv.highestGen + 1
    let blocks := if base = 1 then (match s.cfg.live with | some g => g.blocks | none => []) else []
    let s := s.updNv fun x => { x with highestGen := n }
    let s := s.updCfg fun x => { x with staged := some { number := n, blocks := blocks, incomplete := [] } }
    s.ok c (le 4 n)

def execCfgStageBegin (b : Mbox) (s : State) : Host.Outcome State Fault Refusal :=
  .next (s.take b formCfgStageBegin cfgStageBeginBody)

def formCfgStageBlock : Form := { op := 0x0202, lo := 24, hi := 16352, target := false, reserved := [(4, 4), (20, 4)] }

/-- The block header in a CFG_STAGE_BLOCK payload, with no payload yet, and the length that it names. -/
def stagedHeader (p : List Byte) : Block × Nat :=
  ({ type := fld p 8 2, version := fld p 10 2, target := fld p 12 2, flags := fld p 14 2, payload := [] }, fld p 16 4)

/-- The first field of the block header that breaks R155 or R157, as an offset in the command's payload. -/
def headerBreaks (h : Block) (len : Nat) : Option Nat :=
  if !(contextTypes.contains h.type || globalTypes.contains h.type) then some 8
  else if h.version != 1 then some 10
  else if !targetOk h.type h.target then some 12
  else if 1 < h.flags then some 14
  else if len % 4 != 0 || 2097152 < len || (h.flags == 1 && len != 0) then some 16
  else none

/-- Put a chunk into the STAGED generation: the new generation, or the offset of the field at fault. The spec names no status for
a chunk that goes past the length, out of order or with another length: BAD_FIELD at 16, 0 or 8 (DESIGN CHOICE, assumption 33). -/
def stageChunk (g : Gen) (h : Block) (len off : Nat) (d : List Byte) : Gen ⊕ Nat :=
  let rest := g.incomplete.filter (fun x => !x.header.isAt h.type h.target)
  let done (p : List Byte) : Gen :=
    { g with blocks := putBlock g.blocks { h with payload := p }, incomplete := rest }
  let open_ (p : List Byte) : Gen :=
    { g with blocks := g.blocks.filter (fun x => !x.isAt h.type h.target),
             incomplete := { header := { h with payload := p }, total := len } :: rest }
  if len < off + d.length then .inr 16
  else if off = 0 then .inl (if d.length = len then done d else open_ d)
  else match g.incomplete.find? (fun x => x.header.isAt h.type h.target) with
    | none => .inr 0
    | some x =>
      if x.header.payload.length ≠ off then .inr 0
      else if x.total ≠ len then .inr 8
      else .inl (if off + d.length = len then done (x.header.payload ++ d) else open_ (x.header.payload ++ d))

/-- Bytes of the canonical form with every incomplete block at its full length. -/
def Gen.fullLength (g : Gen) : Nat := g.incomplete.foldl (fun n x => n + 16 + x.total) g.length

/-- What a chunk leaves of its block's payload. -/
def Gen.assembled (g : Gen) (h : Block) (off : Nat) (d : List Byte) : List Byte :=
  match g.incomplete.find? (fun x => x.header.isAt h.type h.target) with
  | some x => if off = 0 then d else x.header.payload ++ d
  | none => d

/-- Fields with reserved bits: offset, size and the bits; of the flags of TRUST_POLICY, [31:4] (R587). -/
def reservedBitsIn (type : Nat) : List (Nat × Nat × Nat) := if type = 0x0B01 then [(16, 4, 0xFFFFFFF0)] else []

/-- The first field of a block that the bytes of a chunk give a reserved byte or bit other than 0 (R3), as an offset in the
command's payload. -/
def chunkBreaks (type : Nat) (p : List Byte) (len off : Nat) : Option Nat :=
  let whole := (reservedIn type p len).find? (fun r => !allZero p (max off r.1) (r.1 + r.2 - max off r.1))
  let inBits := (reservedBitsIn type).find? (fun r => off < r.1 + r.2.1 && fld p r.1 r.2.1 &&& r.2.2 != 0)
  leastBy id ((whole.map (fun r => 24 + (r.1 - off))).toList ++ (inBits.map (fun r => 24 + (r.1 - off))).toList)

/-- A block is staged (R184). The target generation of the header, where it is not 0, names the generation that the block is for:
one that is not STAGED gives LIVE_LOCKED (R181). -/
def cfgStageBlockBody (c : Cmd) (s : State) : State :=
  let p := c.payload
  let (h, len) := stagedHeader p
  if c.target != 0 && !s.cfg.staged.any (fun g => g.number == c.target) then s.fail c stLiveLocked
  else match s.cfg.staged with
  | none => s.fail c stNoStaged
  | some g =>
    match headerBreaks h len with
      | some off => s.badField c off
      | none =>
        if h.flags == 1 then
          if fld p 0 4 != 0 then s.badField c 0
          else if c.len != 24 then s.badLength c 24
          else
            let g' : Gen := { g with blocks := g.blocks.filter (fun x => !x.isAt h.type h.target),
                                     incomplete := g.incomplete.filter (fun x => !x.header.isAt h.type h.target) }
            (s.updCfg fun x => { x with staged := some g' }).ok c []
        else match stageChunk g h len (fld p 0 4) (p.drop 24) with
          | .inr off => s.badField c off
          | .inl g' =>
            match chunkBreaks h.type (g.assembled h (fld p 0 4) (p.drop 24)) len (fld p 0 4) with
            | some off => s.badField c off
            | none =>
            if 4096 < g'.blocks.length + g'.incomplete.length then s.badField c 8
            else if 67108864 < g'.fullLength then s.fail c stRefusedQuota
            else (s.updCfg fun x => { x with staged := some g' }).ok c []

def execCfgStageBlock (b : Mbox) (s : State) : Host.Outcome State Fault Refusal :=
  .next (s.take b formCfgStageBlock cfgStageBlockBody)

def formCfgStageDiscard : Form := { op := 0x0203 }

def cfgStageDiscardBody (c : Cmd) (s : State) : State :=
  if s.cfg.staged.isNone then s.fail c stNoStaged else (s.updCfg fun x => { x with staged := none }).ok c []

def execCfgStageDiscard (b : Mbox) (s : State) : Host.Outcome State Fault Refusal :=
  .next (s.take b formCfgStageDiscard cfgStageDiscardBody)

/-! ## Reading -/

def formCfgStatus : Form := { op := 0x0207, mgmt := true }

/-- One 80-byte entry of R186. -/
def statusEntry (g : Option Gen) (unapplied : Nat) (withDigest : Bool) : List Byte :=
  match g with
  | none => zeros 80
  | some g => le 4 g.number ++ le 4 g.blocks.length ++ le 4 g.length ++ le 4 unapplied ++
      (if withDigest then g.digest else zeros 64)

/-- Frames of probation that remain: the most of any affected context that captures or has captured in it; 0xFFFF_FFFF when only
the time limit remains, 0 without probation (R174, R186). -/
def State.probationLeft (s : State) : Nat :=
  match s.cfg.probation with
  | none => 0
  | some p =>
    let count (c : Nat) : Option Landed := p.landed.find? (·.ctx == c)
    let asked := p.affected.filter (fun c => s.capturing c || (count c).any (·.captured))
    let lefts := asked.map (fun c => match count c with | some x => p.frames - x.frames | none => p.frames)
    if lefts.isEmpty then 0xFFFFFFFF else lefts.foldl max 0

def genNumber (g : Option Gen) : Nat := match g with | some g => g.number | none => 0

def State.persistNumber (s : State) (newest : Bool) : Nat :=
  genNumber ((s.nv.persist.getD (if newest then s.nv.newest else 1 - s.nv.newest) none))

def cfgStatusBody (c : Cmd) (s : State) : State :=
  s.reply c stOk [] (some (le 4 (s.nv.highestGen + 1) ++ le 4 (s.persistNumber true) ++ le 4 (s.persistNumber false) ++
    le 4 s.probationLeft ++ statusEntry s.cfg.staged 0 false ++ statusEntry s.cfg.armed s.cfg.unapplied.length true ++
    statusEntry s.cfg.live 0 true ++ statusEntry s.cfg.previous 0 true))

def execCfgStatus (b : Mbox) (s : State) : Host.Outcome State Fault Refusal :=
  .next (s.take b formCfgStatus cfgStatusBody)

def formCfgReadBlock : Form := { op := 0x0208, lo := 16, hi := 16, reserved := [(8, 4)] }

def State.genByNumber (s : State) (n : Nat) : Option Gen :=
  ([s.cfg.staged, s.cfg.armed, s.cfg.live, s.cfg.previous].filterMap id).find? (fun g => g.number == n)

/-- The spec gives no status for an offset beyond the block: BAD_FIELD at the offset (DESIGN CHOICE, assumption 33). -/
def cfgReadBlockBody (c : Cmd) (s : State) : State :=
  let p := c.payload
  match s.genByNumber (fld p 0 4) with
  | none => s.badField c 0
  | some g =>
    match blockIn g.blocks (fld p 4 2) (fld p 6 2) with
    | none => s.badField c 4
    | some b =>
      let off := fld p 12 4
      if b.payload.length < off then s.badField c 12
      else s.reply c stOk [] (some (b.header ++ (b.payload.drop off).take 16320))

def execCfgReadBlock (b : Mbox) (s : State) : Host.Outcome State Fault Refusal :=
  .next (s.take b formCfgReadBlock cfgReadBlockBody)

/-! ## Changed blocks and the automatic rollback (R163, R174–R176) -/

/-- Type and target of every block in which two generations differ, removals included, in canonical order. -/
def changedBlocks (old new : List Block) : List (Nat × Nat) :=
  let keys := sortBy (fun (a b : Nat × Nat) => a.1 < b.1 || (a.1 == b.1 && a.2 < b.2))
    (nub ((old ++ new).map (fun b => (b.type, b.target))))
  keys.filter (fun k => blockIn old k.1 k.2 != blockIn new k.1 k.2)

/-- Types of the 3D LUT blocks. -/
def lutTypes : List Nat := [0x0404, 0x0405, 0x0406, 0x0407]

/-- Each new 3D LUT of an ARMED generation starts to load into a free unit (R395). -/
def State.loadLuts (s : State) (bs : List Block) : State :=
  each (bs.filter (fun b => lutTypes.contains b.type)) (fun b s =>
    if s.luts.any (fun u => u.st != 0 && u.table == b.payload) then s
    else
      let (k, s) := s.choose ((List.range 16).filter (fun k => (s.luts.getD k LutUnit.reset).st == 0))
      match k with
      | some k =>
        let u : LutUnit := { st := 1, ctx := b.target, lut := b.type - 0x0404, table := b.payload }
        { s with luts := s.luts.set k u }
      | none => s) s

/-- Arm a generation: its changed blocks are those in which the blocks in force differ from it (R163). -/
def State.armGen (s : State) (g : Gen) (kind : ArmKind) (timeoutMs : Nat) : State :=
  let ch := changedBlocks s.cfg.inForce g.blocks
  let s := s.updCfg fun c =>
    { c with armed := some g, armKind := kind, armTbm := s.now, armTimeoutMs := timeoutMs, unapplied := ch }
  let s := s.loadLuts g.blocks
  s.raise 0x0201 srcDevice (le 4 g.number ++ le 4 ch.length)

/-- A fatal error of R175 during probation of an affected context whose apply point has come. The PREVIOUS generation is ARMED
again (R176), which leaves PREVIOUS empty (R161). While the failed generation is still ARMED it keeps that state until the blocks
of the LIVE one are back in force, and its commit completes HW_FAULT. Without an older generation the probation ends unpassed and
nothing is armed (assumption 8). The rollback has the arm timeout that was last set (DESIGN CHOICE, assumption 33). -/
def State.probationFail (s : State) (row ctx : Nat) : State :=
  match s.cfg.probation with
  | none => s
  | some p =>
    if !p.landed.any (·.ctx == ctx) then s
    else
      let s := s.updCfg fun c => { c with probation := none }
      match s.cfg.armed, s.cfg.live, s.cfg.previous with
      | some a, some g, _ =>
        let s := (s.finishAll 0x0205 0 stHwFault [] none).finishAll 0x0206 0 stHwFault [] none
        let s := s.updCfg fun c =>
          { c with armKind := .auto a.number row ctx, armTbm := s.now, unapplied := changedBlocks c.inForce g.blocks }
        s.loadLuts g.blocks
      | none, _, some g =>
        let failed := s.liveNumber
        (s.updCfg fun c => { c with previous := none }).armGen g (.auto failed row ctx) s.cfg.armTimeoutMs
      | _, _, _ => s

end Sys2Proof.Machine
end

