-- ==== Sys2Proof/Machine/MemoryCtl.lean ====
section
/-! DEFINITION. Capture memory (chapter 15): pages and address maps, the firmware's allocation, tile reads, repair,
retirement and migration, refresh, the HBM registers and the MEM commands. -/

namespace Sys2Proof.Machine

open Sys2Proof

/-! ## Pages and maps (R487–R493) -/

def State.pageOf (s : State) (addr : Nat) : Option PageEntry :=
  s.mem.table.find? (fun e => e.logical == addr / pageBytes)

/-- A location in the stacks. -/
structure Cell where
  page  : PageEntry
  stack : Nat
  pc    : Nat
  bank  : Nat
  row   : Nat
  col   : Nat
deriving DecidableEq, Repr

/-- The fields of offset bits [20:6] under a map: row, BA, BG, column, pseudo-channel (R493). -/
def mapFields (map off : Nat) : Nat × Nat × Nat × Nat × Nat :=
  let f (hi lo : Nat) : Nat := bits off hi lo
  match map with
  | 0 => (f 20 19, f 18 17, f 16 15, f 14 11, f 10 6)
  | 1 => (f 20 19, f 18 17, f 16 15, f 9 6, f 14 10)
  | 2 => (f 20 19, f 13 12, f 11 10, f 9 6, f 18 14)
  | _ => (f 15 14, f 13 12, f 11 10, f 9 6, f 20 16)

/-- Where an offset of a physical page lies (R488, R489, R492). -/
def cellOf (e : PageEntry) (off : Nat) : Cell :=
  let (row, ba, bg, col, pc) := mapFields e.map off
  let stack := e.physical / 12288
  let q := e.physical % 12288
  { page := e, stack := stack, pc := pc, bank := q % 3 * 16 + ba * 4 + bg, row := 4 * (q / 3) + row, col := col }

def State.locate (s : State) (addr : Nat) : Option Cell := (s.pageOf addr).map (fun e => cellOf e (addr % pageBytes))

/-- The location of an error (R641). -/
def Cell.loc (c : Cell) : Loc := { kind := 1, unit := c.stack, sub := c.pc, bank := c.bank, row := c.row, column := c.col }

/-- A request to an invalid page (R491). -/
def State.unmappedAt (s : State) (master addr : Nat) : State :=
  let s := s.updMem fun m => { m with unmapped := m.unmapped + 1 }
  s.raiseLimited s.mem.lastUnmapped (sec 1) 0x0D07 (srcMaster master) (le 8 addr)
    (fun t s => s.updMem fun m => { m with lastUnmapped := t })

/-! ## Open rows (R496) -/

/-- A request to a row of a bank: the bank's other open row is precharged, and the row is activated unless it is open. -/
def PChan.request (p : PChan) (bank row : Nat) : PChan :=
  if p.rows.contains (bank, row) then p
  else { p with rows := p.rows.filter (fun r => r.1 ≠ bank) ++ [(bank, row)], activates := p.activates + 1 }

/-- What an access of a master carries for the filters of R656: the job that it runs, if any. -/
def State.accessTag (s : State) (master addr : Nat) : Tagged :=
  match ((s.engine master).running).bind s.job with
  | some j => { privilege := some j.privilege, master := some master, addr := some addr, cls := some j.cls }
  | none =>
    { privilege := some (if master = 0x6A then 0 else 1), master := some master, addr := some addr,
      cls := if master < 0x40 then some 0 else none }

/-- One access of 64 bytes to a row, of which `n` bytes from `addr` on are meant: its row is activated unless it is open, and the
counters of R656 take it, and the histograms its latency, which is free (R658). `event` is 2 for a read and 3 for a write. -/
def State.access (s : State) (event master addr n : Nat) (c : Cell) : State :=
  let pc := c.stack * 32 + c.pc
  let t := s.accessTag master addr
  let s := (if (s.pchan pc).rows.contains (c.bank, c.row) then s else s.count 0x04 1 t).updPc pc fun p => p.request c.bank c.row
  let s := s.count event n t
  if event = 2 && s.obs.hists.any (fun h => h.kind == 3) then
    let (ns, s) := s.drawNat
    s.hist 3 ns (some master) t.cls
  else s

/-- The accesses of a master's request for n bytes; one to an invalid page is not performed (R491), and a write to a page that is being
copied goes to both physical pages (R512). Requests are taken in the order
in which the model performs them (assumption 37). -/
def State.reach (s : State) (event master addr n : Nat) : State :=
  each (List.range' (addr / 64) (if n = 0 then 0 else (addr + n - 1) / 64 + 1 - addr / 64)) (fun a s =>
    let first := max addr (64 * a)
    let n := min (addr + n) (64 * a + 64) - first
    match s.locate (64 * a) with
    | some c =>
      let s := s.access event master first n c
      match c.page.migrateTo with
      | some p => if event = 3 then s.access event master first n (cellOf { c.page with physical := p } (64 * a % pageBytes)) else s
      | none => s
    | none => s.unmappedAt master (64 * a)) s

/-- A copy passes through every row of a physical page: four rows of the 16 banks of its SID in each pseudo-channel (R492, R512). -/
def State.reachPage (s : State) (page : Nat) : State :=
  let q := page % 12288
  each (List.range 32) (fun pc s => s.updPc (page / 12288 * 32 + pc) fun p =>
    (List.range 64).foldl (fun p i => p.request (q % 3 * 16 + i % 16) (4 * (q / 3) + i / 16)) p) s

/-! ## Bytes -/

/-- Bytes of capture memory; an invalid page reads zeros. -/
def State.capRead (s : State) (addr n : Nat) : List Byte :=
  if (s.pageOf addr).isSome && (s.pageOf (addr + n - 1)).isSome then s.mem.bytes.readN addr n
  else (List.range n).map (fun i => if (s.pageOf (addr + i)).isSome then s.mem.bytes.read (addr + i) else 0)

/-- A master stores bytes; writes to an invalid page are discarded. -/
def State.capWrite (s : State) (master addr : Nat) (d : List Byte) : State :=
  let s := s.reach 3 master addr d.length
  if (s.pageOf addr).isSome && (s.pageOf (addr + d.length - 1)).isSome then
    s.updMem fun m => { m with bytes := m.bytes.writeN addr d }
  else each ((List.range d.length).zip d) (fun p s =>
    if (s.pageOf (addr + p.1)).isSome then s.updMem fun m => { m with bytes := m.bytes.write (addr + p.1) p.2 } else s) s

/-- Every page of a range is valid. -/
def State.mapped (s : State) (addr n : Nat) : Bool :=
  (List.range' (addr / pageBytes) (if n = 0 then 0 else (addr + n - 1) / pageBytes + 1 - addr / pageBytes)).all (fun l =>
    (s.pageOf (l * pageBytes)).isSome)

/-! ## Allocation (R494, R495): the firmware's choices are open (assumption 2) -/

/-- Uses of logical ranges: 0 landing ring, 1 its tag planes, 2 working frames, 3 reference buffers, 4 maps, 5 output frames,
6 encoder memory, 7 staging ring, 8 decode input ring, 9 decode store, 10 rings and tap buffers of R684, 11 the frame records and
refusal log of a context, 12 and 13 the record rings of an encoding and of a decode stream. -/
def State.regionOf (s : State) (use owner : Nat) : Option Region :=
  s.mem.regions.find? (fun r => r.use == use && r.owner == owner)

/-- First address of a range, 0 where there is none. -/
def State.regionBase (s : State) (use owner : Nat) : Nat := ((s.regionOf use owner).map (fun r => r.first * pageBytes)).getD 0

/-- Stacks trained and not retired; a retire-pending one runs on (R511). -/
def State.goodStacks (s : State) : List Nat :=
  (List.range 4).filter (fun k => (s.hbm k).st == 2 || (s.hbm k).st == 4)

/-- Physical pages of a stack that are neither mapped nor retired nor spare. -/
def State.freePages (s : State) (k : Nat) : List Nat :=
  (List.range' (k * 12288) 12288).filter (fun p =>
    !s.mem.table.any (fun e => e.physical == p || e.migrateTo == some p) && !(s.hbm k).spares.contains p &&
      !s.nv.retiredPages.any (fun r => r.1 == p))

/-- Map one logical page to a page of a stack. -/
def State.mapPage (s : State) (logical kind stack : Nat) : State :=
  let (p, s) := s.choose (s.freePages stack)
  match p with
  | some p => s.updMem fun m =>
      { m with table := m.table ++ [{ logical := logical, physical := p, map := m.maps.getD kind 3, kind := kind,
                                      migrateTo := none }] }
  | none => s

/-- Map some logical pages in rotation over the good stacks. -/
def State.mapPages (s : State) (first kind : Nat) (js : List Nat) : State :=
  let good := s.goodStacks
  each js (fun j s =>
    match good[j % good.length]? with
    | some k => s.mapPage (first + j) kind k
    | none => s) s

/-- Unmap pages of a range from an index on; their contents are gone. -/
def State.unmapFrom (s : State) (r : Region) (j : Nat) : State :=
  let gone (l : Nat) : Bool := r.first + j ≤ l && l < r.first + r.pages
  s.updMem fun m =>
    { m with table := m.table.filter (fun e => !gone e.logical),
             bytes := m.bytes.clear ((r.first + j) * pageBytes) ((r.pages - j) * pageBytes) }

/-- Starts at which a range of pages is free, but for what a region holds already. -/
def State.freeStarts (s : State) (pages : Nat) : List Nat :=
  (List.range (65536 - pages)).filter (fun f =>
    s.mem.regions.all (fun r => f + pages ≤ r.first || r.first + r.pages ≤ f))

/-- Pages that a region can hold where it lies: up to the next region, or to the end of the logical space. -/
def State.pagesAt (s : State) (r : Region) : Nat :=
  (s.mem.regions.filterMap (fun q => if r.first < q.first then some (q.first - r.first) else none)).foldl min (65536 - r.first)

/-- Give a use its range of bytes: an existing range keeps its start (R683) and grows or shrinks. One that another region stops
grows up to that region (DESIGN CHOICE: assumption 2). -/
def State.alloc (s : State) (use owner kind bytes : Nat) : State :=
  let pages := ceilDiv bytes pageBytes
  match s.regionOf use owner with
  | some r =>
    let pages := min pages (s.pagesAt r)
    let s := if pages < r.pages then s.unmapFrom r pages else s.mapPages r.first kind (List.range' r.pages (pages - r.pages))
    s.updMem fun m => { m with regions := m.regions.map (fun q => if q = r then { q with pages := pages } else q) }
  | none =>
    let (f, s) := s.choose (s.freeStarts pages)
    match f with
    | none => s
    | some f =>
      let s := s.updMem fun m =>
        { m with regions := m.regions ++ [{ use := use, owner := owner, first := f, pages := pages, kind := kind }] }
      s.mapPages f kind (List.range pages)

/-- Take a range back. -/
def State.release (s : State) (use owner : Nat) : State :=
  match s.regionOf use owner with
  | none => s
  | some r => (s.unmapFrom r 0).updMem fun m => { m with regions := m.regions.filter (· ≠ r) }

/-! ## Repair and retirement (R509–R513) -/

def State.tbmSeconds (s : State) : Nat := s.now / 1000000000

/-- A 16-byte entry of R519. -/
def memEntry (kind stack pc bank location time : Nat) : List Byte :=
  le 1 kind ++ le 1 stack ++ le 1 pc ++ le 1 bank ++ le 4 location ++ le 8 time

/-- The spare pages of a stack that are left. -/
def State.spares (s : State) (k : Nat) : List Nat := (s.hbm k).spares

/-- Retire a physical page that no valid entry maps; its logical page goes into the event. The page that would be the stack's
65th marks the stack retire-pending instead (R511). -/
def State.retirePage (s : State) (p : Nat) (logical : Nat) : State :=
  let k := p / 12288
  if s.nv.retiredPages.any (fun r => r.1 == p) then s
  else if 64 ≤ s.retiredOf k then
    if s.nv.retirePending.any (fun r => r.1 == k) then s
    else
      let s := s.updNv fun n =>
        { n with retirePending := n.retirePending ++ [(k, s.tbmSeconds)],
                 memLog := n.memLog ++ [memEntry 2 k 0xFF 0xFF 0 s.tbmSeconds] }
      (s.updHbm k fun h => { h with st := 4 }).raise 0x0D05 srcDevice (le 1 k)
  else
    let s := s.updNv fun n =>
      { n with retiredPages := n.retiredPages ++ [(p, s.tbmSeconds)],
               memLog := n.memLog ++ [memEntry 1 k 0xFF 0xFF p s.tbmSeconds] }
    s.raise 0x0D04 srcDevice (le 4 p ++ le 4 logical ++ le 1 (s.retiredOf k))

/-- A page holds live data while a valid entry maps a logical page to it (R513). -/
def State.liveEntry (s : State) (p : Nat) : Option PageEntry := s.mem.table.find? (fun e => e.physical == p)

/-- Whether the row's bank has an unused soft repair: one for each bank, and some left in the stack. -/
def State.canRepair (s : State) (l : Loc) : Bool :=
  0 < (s.hbm l.unit).sppr && !s.nv.repairs.any (fun r => r.1 == l.unit && r.2.1 == l.sub && r.2.2.1 == l.bank)

/-- Soft repair of a row, its contents restored. -/
def State.repairRow (s : State) (l : Loc) : State :=
  let s := s.updNv fun n =>
    { n with repairs := n.repairs ++ [(l.unit, l.sub, l.bank, l.row, s.tbmSeconds)],
             memLog := n.memLog ++ [memEntry 0 l.unit l.sub l.bank l.row s.tbmSeconds] }
  (s.updHbm l.unit fun h => { h with sppr := h.sppr - 1 }).raise 0x0D03 srcDevice
    (le 1 l.unit ++ le 1 l.sub ++ le 1 l.bank ++ le 1 0 ++ le 4 l.row)

/-- The migration job of a page: class C2, with a deadline 1 s after its creation; it reads and writes 2 MiB (R512). -/
def migrationJob (now p : Nat) : Job :=
  { Job.make .migration 2 with object := p, units := [(0x01, 2 * pageBytes)], deadline := some (now + sec 1) }

/-- Migrate a page to a spare one, if its stack runs no migration yet and has a spare; `retireOld` retires the old page when
the switch has happened. -/
def State.startMigration (s : State) (p : Nat) (retireOld : Bool) : State :=
  let k := p / 12288
  match s.liveEntry p, s.spares k with
  | some e, sp :: rest =>
    if s.mem.migrations.any (fun m => m.stack == k) then
      s.updHbm k fun h => { h with waiting := if h.waiting.contains p then h.waiting else h.waiting ++ [p] }
    else
      let (id, s) := s.addJob (migrationJob s.now p)
      let s := s.updHbm k fun h => { h with spares := rest }
      s.updMem fun m =>
        { m with table := m.table.map (fun x => if x = e then { x with migrateTo := some sp } else x),
                 migrations := m.migrations ++ [{ stack := k, page := p, target := sp, job := id, retireOld := retireOld }] }
  | some _, [] =>
    let s := s.updHbm k fun h => { h with waiting := if h.waiting.contains p then h.waiting else h.waiting ++ [p] }
    s.raise 0x0D06 srcDevice (le 1 k ++ le 1 (s.hbm k).waiting.length)
  | none, _ => if retireOld then s.retirePage p 0xFFFFFFFF else s

/-- The row's page is retired: at once when it holds no live data, else after its migration (R509, R513, R515). -/
def State.retireRowPage (s : State) (p : Nat) : State :=
  if s.mem.migrations.any (fun m => m.page == p) then
    s.updMem fun m => { m with migrations := m.migrations.map (fun x => if x.page = p then { x with retireOld := true } else x) }
  else s.startMigration p true

/-- A LASTING outcome of class 1: whether the row was repaired (R509, R648). -/
def State.memLasting (s : State) (l : Loc) : Bool × State :=
  if s.canRepair l then (true, s.repairRow l) else (false, s.retireRowPage l.page)

/-- The copy is complete: the entry switches to the new page; the next page waiting on the stack starts (R512). -/
def State.endMigration (s : State) (m : Migration) : State :=
  let logical := match s.liveEntry m.page with | some e => e.logical | none => 0xFFFFFFFF
  let s := (s.reachPage m.page).reachPage m.target
  let tag : Tagged := { privilege := some 1, master := some 0x78, addr := some (logical * pageBytes), cls := some 6 }
  let s := (s.count 0x02 pageBytes tag).count 0x03 pageBytes tag
  let s := s.updMem fun x =>
    { x with migrations := x.migrations.filter (· ≠ m), fences := x.fences + 1,
             table := x.table.map (fun e =>
               if e.physical = m.page then { e with physical := m.target, migrateTo := none } else e) }
  let s := if m.retireOld then s.retirePage m.page logical else s
  match (s.hbm m.stack).waiting with
  | p :: rest => (s.updHbm m.stack fun h => { h with waiting := rest }).startMigration p true
  | [] => s

/-- Pages that wait for retirement and hold live data no more are retired without migration (R513). -/
def State.retireWaiting (s : State) : State :=
  each (List.range 4) (fun k s =>
    each ((s.hbm k).waiting.filter (fun p => (s.liveEntry p).isNone)) (fun p s =>
      (s.updHbm k fun h => { h with waiting := h.waiting.filter (· ≠ p) }).retirePage p 0xFFFFFFFF) s) s

/-- A refused migration is created again at the next window (R512). -/
def State.againMigration (s : State) (m : Migration) : State :=
  let (id, s) := s.addJob (migrationJob s.now m.page)
  s.updMem fun x => { x with migrations := x.migrations.map (fun y => if y = m then { y with job := id } else y) }

/-! ## Tile reads that mismatch (R32, R506–R508) -/

/-- An uncorrectable ECC indication, counted for its stack and pseudo-channel (R506). -/
def State.eccAt (s : State) (c : Cell) : State :=
  (s.updHbm c.stack fun h => { h with eccUncorr := h.eccUncorr + 1 }).updPc (c.stack * 32 + c.pc) fun p =>
    { p with eccUncorr := satInc 16 p.eccUncorr }

/-- The uncorrectable ECC indications of reads that are not tile reads: each is counted and logged as class 1 at its row (R640). -/
def State.eccSeen (s : State) (l : List Nat) (i : ErrInfo) : State :=
  each l (fun a s => match s.locate a with | some c => (s.eccAt c).logError 1 c.loc i | none => s) s

/-- One tile that mismatched at a master's read: the counters, and a class 1 entry at each fault location: those of the accesses that
differed, or that of the tag-plane entry when the two reads agreed (R508). `quiet` for a job on a superseded frame (R21). -/
def State.tileMiss (s : State) (m : TileMiss) (tagAddr : Nat) (i : ErrInfo) (quiet : Bool) : State :=
  let s := s.updMem fun x => { x with tileFirst := satInc 16 x.tileFirst,
                                      tileSecond := if m.second then satInc 16 x.tileSecond else x.tileSecond }
  let s := s.count 0x0C 1 (s.accessTag i.master m.addr)
  each (if m.tagFault then [tagAddr] else m.addr :: m.others) (fun a s =>
    match s.locate a with
    | none => s
    | some c =>
      let s := if m.eccUncorr then s.eccAt c else s
      if quiet then s else s.logError 1 c.loc { i with detail := m.bits }) s

/-- The pad value as a whole raw tile's payload (R32). -/
def rawSubstitute (d pad : Nat) : List Byte := le (128 * d) (pad * ((2 ^ (d * 1024) - 1) / (2 ^ d - 1)))

/-! ## Pattern generator and comparator (R502) -/

/-- The second tap of the PRBS generators, the polynomials of ITU-T O.150 (PRESUMED; assumption 37): x⁷ + x⁶ + 1, x¹⁵ + x¹⁴ + 1 and
x³¹ + x²⁸ + 1. -/
def prbsTap (n : Nat) : Nat := if n = 31 then 28 else n - 1

def prbsNext (n r : Nat) : Nat := (2 * r + b2n (bit r (n - 1) != bit r (prbsTap n - 1))) % 2 ^ n

/-- The levels of the 32 DQ bits at a beat. -/
def PatGen.beat (g : PatGen) (t : Nat) : Nat :=
  match g.kind with
  | .prbs n => bitmap ((List.range 32).map (fun i => bit (Nat.repeat (prbsNext n) t (g.seeds.getD i 1)) (n - 1)))
  | .walking => 2 ^ (t % 32)
  | .word => fld g.word (4 * (t % 16)) 4

/-- The comparator counts each DQ bit at which a beat differs from what the generator produced. -/
def PChan.compare (p : PChan) (t got : Nat) : PChan :=
  let diff := p.gen.beat t ^^^ got
  { p with dqErrors := (List.range 32).map (fun i => sat 16 (p.dqErrors.getD i 0 + b2n (bit diff i))) }

/-- Step 7 of R501: 2²⁰ accesses of PRBS31 and as many of the programmable pattern, of which the listed beats arrive wrong. The seeds
and the pattern are the firmware's choice: free values. -/
def PChan.finalCheck (p : PChan) (flips : List (Nat × Nat × BitVec 32)) (seed word : Nat) : PChan :=
  let seeds := (List.range 32).map (fun i => seed / 2 ^ (31 * i) % 2 ^ 31)
  let run (p : PChan) (k : Pattern) (later : Bool) : PChan :=
    let p := { p with gen := { kind := k, seeds := seeds, word := le 64 word } }
    (flips.filter (fun x => decide (2 ^ 20 ≤ x.1) == later)).foldl (fun p x =>
      let t := 16 * (x.1 % 2 ^ 20) + x.2.1 % 16
      p.compare t (p.gen.beat t ^^^ x.2.2.toNat)) p
  run (run { p with dqErrors := List.replicate 32 0 } (.prbs 31) false) .word true

/-- A march test's errors stand in the comparator (R502); the test finds their sum. -/
def PChan.march (p : PChan) (dq : List Nat) : PChan := { p with dqErrors := (List.range 32).map (fun i => sat 16 (dq.getD i 0)) }

/-! ## Refresh and temperature (R498–R500) -/

/-- One refresh: every open row is precharged (R496), and a change of hot mode takes effect here. Between refreshes the activations
of requests that the model does not hold, the lander queue's depth, the holds and the corrected ECC indications advance by free
values within the bounds the spec sets (R317, R497; assumptions 2 and 37). -/
def State.refresh (s : State) (pc : Nat) : State :=
  let p := s.pchan pc
  if !p.ready || 128 ≤ pc then s
  else
    let (acts, s) := s.drawNat
    let (depth, s) := s.drawNat
    let (hold, s) := s.drawNat
    let (ecc, s) := s.drawNat
    let s := s.updPc pc fun x =>
      { x with rows := [], refreshes := x.refreshes + 1, hot := (s.hbm (pc / 32)).hot,
               activates := x.activates + BitVec.ofNat 32 acts, landerPeak := max x.landerPeak (depth % 33),
               eccCorr := sat 16 (x.eccCorr + ecc) }
    let s := s.updHbm (pc / 32) fun h => { h with eccCorr := h.eccCorr + BitVec.ofNat 32 ecc }
    let s := ((s.count 0x05 350 {}).count 0x06 (hold % 2001) { privilege := some 1, cls := some 0 }).countOther [0x02, 0x03, 0x04, 0x0B, 0x0E, 0x0F]
    s.updMem fun m => { m with landerHold := max m.landerHold (hold % 2001) }

def execRefresh (pc : Nat) (s : State) : Host.Outcome State Fault Refusal := .next (s.refresh pc)

/-- Every 1 ms each pseudo-channel's timing is retuned, at once after a refresh (R500). -/
def execTimingRetune (s : State) : Host.Outcome State Fault Refusal :=
  .next (s.updMem fun m => { m with pchans := m.pchans.map (fun p => if p.ready then { p with retuned := p.retuned + 1 } else p) })

/-- Hot mode is entered above 85 °C and left at or below 81 °C (R499). Temperatures are in 1/64 °C. -/
def State.hotMode (s : State) (k : Nat) (temp : Int) : State :=
  let h := s.hbm k
  let hot := if h.hot then decide (81 * 64 < temp) else decide (85 * 64 < temp)
  let s := s.updHbm k fun x => { x with temp := temp, hot := hot }
  if hot != h.hot then s.raise 0x0D02 srcDevice (le 1 k ++ le 1 (b2n hot) ++ leInt 1 (temp / 64)) else s

/-! ## Commands (R516–R519) -/

def formMemLocate : Form := { op := 0x0D01, lo := 8, hi := 8 }

/-- The result of R517. -/
def Cell.bytes (c : Cell) (off : Nat) : List Byte :=
  le 4 c.page.physical ++ le 1 c.page.map ++ le 1 (c.stack * 32 + c.pc) ++ le 1 c.bank ++ le 1 c.col ++ le 2 c.row ++
    le 1 c.page.kind ++ le 1 (b2n c.page.migrateTo.isSome) ++ le 4 off

def memLocateBody (c : Cmd) (s : State) : State :=
  let a := fld c.payload 0 8
  match s.locate a with
  | some x => s.ok c (x.bytes (a % pageBytes))
  | none => s.badField c 0

def execMemLocate (b : Mbox) (s : State) : Host.Outcome State Fault Refusal := .next (s.take b formMemLocate memLocateBody)

def formMemTrainLog : Form := { op := 0x0D02, mgmt := true, lo := 4, hi := 4, reserved := [(2, 2)] }

/-- The entry of R518. -/
def PChan.trainLog (p : PChan) : List Byte :=
  le 1 p.trainStep ++ le 1 (b2n p.trainFail) ++ le 1 p.refs.1 ++ le 1 p.refs.2 ++ le 4 0 ++
    ((List.range 32).map (fun i =>
      let d := p.delays.getD i (0, 0)
      le 1 d.1 ++ le 1 d.2 ++ le 2 (p.trainErrs.getD i 0))).flatten

def memTrainLogBody (c : Cmd) (s : State) : State :=
  let k := fld c.payload 0 1
  let p := fld c.payload 1 1
  if 4 ≤ k then s.badField c 0
  else if 32 ≤ p && p != 0xFF then s.badField c 1
  else
    let ps := if p = 0xFF then List.range 32 else [p]
    s.reply c stOk [] (some (ps.map (fun i => (s.pchan (32 * k + i)).trainLog)).flatten)

def execMemTrainLog (b : Mbox) (s : State) : Host.Outcome State Fault Refusal := .next (s.take b formMemTrainLog memTrainLogBody)

def formMemRetired : Form := { op := 0x0D03, mgmt := true, lo := 8, hi := 8, reserved := [(6, 2)] }

def memRetiredBody (c : Cmd) (s : State) : State :=
  let first := fld c.payload 0 4
  let n := fld c.payload 4 2
  if n = 0 || 1023 < n then s.badField c 4
  else
    let es := (s.nv.memLog.drop first).take n
    s.reply c stOk [] (some (le 4 es.length ++ le 4 0 ++ es.flatten))

def execMemRetired (b : Mbox) (s : State) : Host.Outcome State Fault Refusal := .next (s.take b formMemRetired memRetiredBody)

end Sys2Proof.Machine
end

