-- ==== Sys2Proof/Machine/Crypt.lean ====
section
/-! DEFINITION. The cipher of Cask (R595, R609): AES-256 of FIPS 197 in the Galois/Counter Mode of NIST SP 800-38D; and the input check
of FIPS 203. -/

namespace Sys2Proof.Machine

open Sys2Proof

/-! ## AES (FIPS 197) -/

/-- Multiplication by x modulo x⁸ + x⁴ + x³ + x + 1. -/
def xtime (a : Byte) : Byte := (a <<< 1) ^^^ (if a.getLsbD 7 then 0x1B else 0)

/-- A product in GF(2⁸). -/
def gfMul (a b : Byte) : Byte :=
  ((List.range 8).foldl (fun (s : Byte × Byte) i => (if b.getLsbD i then s.1 ^^^ s.2 else s.1, xtime s.2)) ((0 : Byte), a)).1

/-- The inverse: the power 254, which takes 0 to 0. -/
def gfInv (a : Byte) : Byte :=
  let sq (x : Byte) : Byte := gfMul x x
  (iter 6 (fun (s : Byte × Byte) => (gfMul s.1 (sq s.2), sq s.2)) (sq a, sq a)).1

def sboxOf (a : Byte) : Byte :=
  let b := gfInv a
  b ^^^ b.rotateLeft 1 ^^^ b.rotateLeft 2 ^^^ b.rotateLeft 3 ^^^ b.rotateLeft 4 ^^^ 0x63

def sbox : Array Byte := ((List.range 256).map (fun i => sboxOf (BitVec.ofNat 8 i))).toArray

def subByte (a : Byte) : Byte := sbox.getD a.toNat 0

def xorBytes (a b : List Byte) : List Byte := List.zipWith (· ^^^ ·) a b

/-- Round key words of a 256-bit key: 60 words of 4 bytes. -/
def aesKey (key : List Byte) : Array (List Byte) :=
  let first := ((List.range 8).map (fun i => sub key (4 * i) 4)).toArray
  ((List.range 52).foldl (fun (s : Array (List Byte) × Byte) k =>
    let i := k + 8
    let t := s.1.getD (i - 1) []
    let t1 := if i % 8 = 0 then xorBytes ((t.drop 1 ++ t.take 1).map subByte) [s.2, 0, 0, 0]
      else if i % 8 = 4 then t.map subByte else t
    (s.1.push (xorBytes (s.1.getD (i - 8) []) t1), if i % 8 = 0 then xtime s.2 else s.2)) (first, (1 : Byte))).1

def roundKey (w : Array (List Byte)) (r : Nat) : List Byte := ((List.range 4).map (fun i => w.getD (4 * r + i) [])).flatten

/-- Row r of the state moves left by r; the state stands column by column. -/
def shiftRows (s : List Byte) : List Byte :=
  (List.range 16).map (fun i => s.getD (i % 4 + 4 * ((i / 4 + i % 4) % 4)) 0)

def mixColumn (c : List Byte) : List Byte :=
  let a (i : Nat) : Byte := c.getD (i % 4) 0
  (List.range 4).map (fun i => xtime (a i) ^^^ (xtime (a (i + 1)) ^^^ a (i + 1)) ^^^ a (i + 2) ^^^ a (i + 3))

def mixColumns (s : List Byte) : List Byte := ((List.range 4).map (fun c => mixColumn (sub s (4 * c) 4))).flatten

/-- AES-256 of one block. -/
def aesBlock (w : Array (List Byte)) (block : List Byte) : List Byte :=
  let s := (List.range' 1 13).foldl (fun s r => xorBytes (mixColumns (shiftRows (s.map subByte))) (roundKey w r))
    (xorBytes block (roundKey w 0))
  xorBytes (shiftRows (s.map subByte)) (roundKey w 14)

/-! ## GCM (SP 800-38D) -/

/-- The number that bytes stand for, the first byte highest. -/
def beNat (d : List Byte) : Nat := leNat d.reverse

/-- A product of blocks; bit 0 of a block is its highest. -/
def ghashMul (x y : BitVec 128) : BitVec 128 :=
  ((List.range 128).foldl (fun (s : BitVec 128 × BitVec 128) i =>
    (if x.getMsbD i then s.1 ^^^ s.2 else s.1,
     (s.2 >>> 1) ^^^ (if s.2.getLsbD 0 then 0xE1000000000000000000000000000000 else 0))) ((0 : BitVec 128), y)).1

/-- GHASH over whole blocks. -/
def ghash (h : BitVec 128) (d : List Byte) : BitVec 128 :=
  (List.range (d.length / 16)).foldl (fun y i => ghashMul (y ^^^ BitVec.ofNat 128 (beNat (sub d (16 * i) 16))) h) 0

def blockBytes (v : Nat) : List Byte := (le 16 v).reverse

/-- Bytes under the key stream that follows the first counter block, whose last 4 bytes count. -/
def gctr (w : Array (List Byte)) (iv d : List Byte) : List Byte :=
  ((List.range (ceilDiv d.length 16)).map (fun i =>
    xorBytes (sub d (16 * i) (min 16 (d.length - 16 * i))) (aesBlock w (fit 12 iv ++ (le 4 (i + 2)).reverse)))).flatten

/-- AES-256-GCM with a 96-bit IV: ciphertext and the tag of 16 bytes. -/
def gcm (key iv aad plain : List Byte) : List Byte × List Byte :=
  let w := aesKey key
  let h := BitVec.ofNat 128 (beNat (aesBlock w (zeros 16)))
  let c := gctr w iv plain
  let whole (d : List Byte) : List Byte := fit (roundUp d.length 16) d
  let y := ghash h (whole aad ++ whole c ++ (le 8 (8 * aad.length)).reverse ++ (le 8 (8 * c.length)).reverse)
  (c, xorBytes (blockBytes y.toNat) (aesBlock w (fit 12 iv ++ [0, 0, 0, 1])))

/-! ## ML-KEM-1024 (FIPS 203) -/

/-- The check of an encapsulation key (7.2): its length, and 1,024 coefficients of 12 bits below q = 3,329. -/
def kemCheck (key : List Byte) : Bool :=
  key.length == 1568 && (List.range 1024).all (fun i => fld key (i / 2 * 3) 3 / 4096 ^ (i % 2) % 4096 < 3329)

end Sys2Proof.Machine
end

