-- ==== Sys2Proof/Machine/Seal.lean ====
section
/-! DEFINITION. Keys and sealed capture (chapter 18): key derivation, segments, chunks, manifests and the other seal
records. How seal records reach the drives stands with the recorder. -/

namespace Sys2Proof.Machine

open Sys2Proof

/-! ## Keys (R575, R576, R582, R583) -/

/-- The ASCII bytes of a label. -/
def label (t : String) : List Byte := t.toList.map (fun c => BitVec.ofNat 8 c.toNat)

def kdf (l : String) (x : List Byte) : List Byte := (sha3 (label l ++ x)).take 32

def uds : List Byte := sha3 Config.pufSeed

def State.cdi (s : State) : List Byte := sha3 (label "OUV7-CDI" ++ uds ++ s.trust.mFs ++ s.trust.mFw)

def idSeed : List Byte := kdf "OUV7-ID" uds
def State.aliasSeed (s : State) : List Byte := kdf "OUV7-ALIAS" s.cdi
def State.sealSeed (s : State) : List Byte := kdf "OUV7-SEAL" s.cdi

/-- A signature by Cask in the hedged mode: 4,627 bytes, counted. -/
def State.sign (s : State) (seed msg : List Byte) : List Byte × State :=
  let sig := fit 4627 (Config.dsaSign seed msg s.free)
  (sig, { s with free := s.free + 1, trust := { s.trust with signatures := s.trust.signatures + 1 } })

/-! ## The owner key (R578, R585) -/

def Fuses.owner (f : Fuses) (j : Nat) : List Byte := fit 64 (f.owners.getD j [])

/-- The owner key in force: the stored public key, checked against the fuse at every use. -/
def State.ownerKey (s : State) : Option (List Byte) :=
  match s.nv.fuses.ownerSlot with
  | some j => if s.nv.fuses.lifecycle == 2 && sha3 s.nv.ownerKey == s.nv.fuses.owner j then some s.nv.ownerKey else none
  | none => none

/-! ## STREAM_SET entries in force (R480) -/

def Stream.srcIndex (t : Stream) : Nat := fld t.ent 3 1
def Stream.ctxId (t : Stream) : Nat := fld t.ent 4 1
def Stream.proxy (t : Stream) : Bool := bit (fld t.ent 8 2) 0
def Stream.encrypt (t : Stream) : Bool := bit (fld t.ent 8 2) 1
def Stream.enable (t : Stream) : Bool := bit (fld t.ent 8 2) 2
def Stream.isOutput (t : Stream) : Bool := t.entry.isSome && t.type != 0
def Stream.headTimeoutMs (t : Stream) : Nat := if fld t.ent 6 2 = 0 then 100 else fld t.ent 6 2

/-- Classes of a stream's Cask and recorder jobs (R452). -/
def Stream.sealClass (t : Stream) : Nat := if t.proxy then 4 else 3
def Stream.writeClass (t : Stream) : Nat := if t.proxy then 4 else 2

/-! ## Segments and chunks (R596, R597, R604) -/

def chunkBytes : Nat := 16777216

/-- The time of a base now; 0 while it is OFF or UNSET. -/
def State.baseNow (s : State) (b : Nat) : BaseTime :=
  let x := s.base b
  if x.st == .off || x.st == .unset then 0 else x.time

/-- The time base of a context's LANDING_CONTEXT. -/
def State.ctxBase (s : State) (c : Nat) : Nat := fld ((s.inForce 0x0203 c).getD []) 1 1

/-- GCM of a chunk's plaintext so far: ciphertext and tag. -/
def State.cipher (s : State) (n : Nat) (seg chunk : Nat) (p : List Byte) : List Byte × List Byte :=
  let t := s.stream n
  gcm (Config.entropy t.keyId) (le 4 t.take ++ le 4 seg ++ le 4 chunk)
    ([0x4F, 0x55, 0x56, 0x45] ++ s.nv.fuses.serial ++ le 1 n ++ le 3 0) p

/-- A new segment. -/
def State.openSegment (s : State) (n first : Nat) (discs : List (List Byte)) : State :=
  let t := s.stream n
  let g : Gen := s.cfg.live.getD { number := 0, blocks := [], incomplete := [] }
  let seg : Segment :=
    { index := t.segIndex, firstByte := first, bytes := 0, hashes := [], tags := [], chunk := [], written := [], discs := discs,
      gen := g.number, digest := if s.cfg.live.isSome then g.digest else zeros 64, tbmFirst := s.time.tbm,
      tbmLast := s.time.tbm, baseFirst := s.baseNow (s.ctxBase t.ctxId), baseLast := s.baseNow (s.ctxBase t.ctxId) }
  s.updStream n fun x => { x with segment := some seg, segIndex := t.segIndex + 1 }

/-- The open chunk ends: its hash is over the bytes as written, and an encrypted one keeps its tag. -/
def State.closeChunk (s : State) (n : Nat) (g : Segment) : Segment :=
  if g.chunk.isEmpty then g
  else if (s.stream n).encrypted then
    let tag := (s.cipher n g.index g.hashes.length g.chunk).2
    { g with hashes := g.hashes ++ [sha3 g.written], tags := g.tags ++ [fit 16 tag], chunk := [], written := [] }
  else { g with hashes := g.hashes ++ [sha3 g.written], chunk := [], written := [] }

/-- The KEY record of the open take, if it has one. -/
def Stream.keyRecord (t : Stream) : Option (List Byte) := (t.sealRecs.find? (fun r => r.kind == 1)).map (·.bytes)

/-- Bytes 0 to L − 4,628 of a manifest (R600); the field `previous` and the signature come with the signing. -/
def State.manifestBody (s : State) (n : Nat) (g : Segment) (cause : Nat) (keyHash : List Byte) : List Byte :=
  let t := s.stream n
  let base := s.ctxBase t.ctxId
  let k := g.hashes.length
  let m := g.discs.length
  let len := 384 + 64 * k + (if t.encrypted then 16 * k else 0) + 48 * m + 4627
  let flags := b2n t.encrypted + 2 * b2n (g.index == 0) + 4 * b2n (cause == 2 || cause == 3)
  [0x4F, 0x55, 0x56, 0x53] ++ le 1 2 ++ le 1 1 ++ le 1 n ++ le 1 flags ++ le 4 len ++ le 4 t.take ++ le 4 g.index ++
    le 4 k ++ le 4 m ++ le 4 g.gen ++ le 8 g.firstByte ++ le 8 g.bytes ++ s.nv.fuses.serial ++ le 1 base ++
    le 1 s.nv.fuses.svn ++ le 1 cause ++ le 5 0 ++ timeField g.tbmFirst ++ timeField g.tbmLast ++
    timeField g.baseFirst ++ timeField g.baseLast ++ g.digest ++ s.trust.mFw ++ zeros 64 ++ keyHash ++ g.hashes.flatten ++
    (if t.encrypted then g.tags.flatten else []) ++ g.discs.flatten

/-- A seal record of the take, numbered from 0 (R598). -/
def State.addSealRec (s : State) (n kind : Nat) (bytes : List Byte) (signed : Bool) : State :=
  s.updStream n fun x =>
    { x with sealRecs := x.sealRecs ++ [{ index := x.sealIndex, kind := kind, bytes := bytes, signed := signed, placed := false }],
             sealIndex := x.sealIndex + 1 }

/-- SHA3-512 of the take's KEY record; zero when unencrypted. -/
def Stream.keyHash (t : Stream) : List Byte :=
  match t.keyRecord with
  | some r => sha3 r
  | none => zeros 64

/-- Cost units of the job that signs a manifest (R196): it reads what the record holds but its signature, and writes the whole. -/
def manifestUnits (body : List Byte) : List (Nat × Nat) := [(0x0A, 1), (0x01, 2 * body.length + 4627)]

/-- The segment closes: its manifest waits for Cask, whose job signs it (R597, R603). A segment that has absorbed nothing
leaves no manifest; discontinuities that it holds already go into the next, but for 16 that a 17th closes. One that closes behind another raises TRS_SEAL_BEHIND (assumption 14). -/
def State.closeSegment (s : State) (n cause : Nat) : State :=
  let t := s.stream n
  match t.segment with
  | none => s
  | some g =>
    if g.bytes = 0 && g.discs.isEmpty || g.bytes = 0 && cause != 4 then
      let s := s.updStream n fun x => { x with segment := none, segIndex := g.index }
      if g.discs.isEmpty then s else s.openSegment n g.firstByte g.discs
    else
      let s := s.updStream n fun x => { x with segment := none }
      let g := s.closeChunk n g
      let body := s.manifestBody n g cause t.keyHash
      let s := s.addSealRec n 2 body false
      let s := s.updTrust fun x =>
        { x with sealQueue := x.sealQueue ++ [n], sealPeak := max x.sealPeak (x.sealQueue.length + 1) }
      let s := (s.addJob { Job.make .caskManifest t.sealClass with object := n, units := manifestUnits body }).2
      if 2 ≤ s.trust.sealQueue.length then
        s.raiseLimited s.trust.lastBehind (sec 1) 0x0705 (srcStream n) (le 4 s.trust.sealQueue.length)
          (fun t s => s.updTrust fun x => { x with lastBehind := t })
      else s

/-- Absorb take bytes as they will be written: the bytes written, and the state. `fuel` bounds the chunks. -/
def State.absorb (s : State) (n : Nat) : Nat → List Byte → List Byte × State
  | 0, _ => ([], s)
  | fuel + 1, d =>
    if d.isEmpty then ([], s)
    else
      let t := s.stream n
      match t.segment with
      | none => (s.openSegment n (t.takeBytes) []).absorb n fuel d
      | some g =>
        let part := d.take (chunkBytes - g.chunk.length)
        let c := g.hashes.length
        let before := g.chunk
        let g1 : Segment :=
          { g with chunk := g.chunk ++ part, bytes := g.bytes + part.length,
                   tbmFirst := if g.bytes = 0 then s.time.tbm else g.tbmFirst, tbmLast := s.time.tbm,
                   baseFirst := if g.bytes = 0 then s.baseNow (s.ctxBase t.ctxId) else g.baseFirst,
                   baseLast := s.baseNow (s.ctxBase t.ctxId) }
        let out := if t.encrypted then
            fit part.length ((s.cipher n g.index c g1.chunk).1.drop before.length)
          else part
        let g1 : Segment := { g1 with written := g.written ++ out }
        let g2 := if g1.chunk.length = chunkBytes then s.closeChunk n g1 else g1
        let s := s.updStream n fun x => { x with segment := some g2, takeBytes := x.takeBytes + part.length }
        let s := if g2.hashes.length = 256 then s.closeSegment n 0 else s
        let (rest, s) := s.absorb n fuel (d.drop part.length)
        (out ++ rest, s)

/-- Absorb a record. -/
def State.absorbAll (s : State) (n : Nat) (d : List Byte) : List Byte × State :=
  s.absorb n (2 * (d.length / chunkBytes + 2)) d

/-- A time discontinuity, entered in every open segment; a 17th closes the segment and goes into the next (R597, R601). -/
def State.discontinuity (s : State) (base cause : Nat) (stepNs : Int) : State :=
  each (List.range 32) (fun n s =>
    match (s.stream n).segment with
    | none => s
    | some g =>
      let e := le 1 base ++ le 1 cause ++ le 6 0 ++ s.tbmField ++ leInt 8 stepNs ++ le 8 (g.firstByte + g.bytes) ++ le 8 0
      if g.discs.length < 16 then s.updStream n fun x => { x with segment := some { g with discs := g.discs ++ [e] } }
      else (s.closeSegment n 4).openSegment n (g.firstByte + g.bytes) [e]) s

/-- Close every open segment, for a new LIVE generation or a warm reset by command. -/
def State.closeSegments (s : State) (cause : Nat) : State :=
  each (List.range 32) (fun n s => s.closeSegment n cause) s

/-! ## Signing (R602, R603) -/

/-- The first manifest of a stream that waits for its signature. -/
def Stream.unsigned (t : Stream) : Option SealRec := t.sealRecs.find? (fun r => !r.signed)

/-- Cask signs the first manifest in closing order: `previous` is filled in, the hash chain moves on, and the recorder may
write it. -/
def State.signNext (s : State) : State :=
  match s.trust.sealQueue with
  | [] => s
  | n :: rest =>
    let s := s.updTrust fun x => { x with sealQueue := rest }
    match (s.stream n).unsigned with
    | none => s
    | some r =>
      let body := put r.bytes 256 (s.nv.manifestHash.getD n (zeros 64))
      let (sig, s) := s.sign s.sealSeed body
      let whole := body ++ sig
      let s := s.updStream n fun x =>
        { x with sealRecs := x.sealRecs.map (fun y => if y.index = r.index && y.kind = 2 then { y with bytes := whole, signed := true } else y) }
      s.updNv fun x => { x with manifestHash := x.manifestHash.set n (sha3 whole) }

/-! ## Certificates (R584), CERT and KEY records (R599, R604–R606) -/

/-- Lifecycle code, and bytes 0 to 2,735 of a key certificate. -/
def State.certBody (s : State) (kind : Nat) (subject : List Byte) : List Byte :=
  [0x4F, 0x55, 0x56, 0x43] ++ le 1 kind ++ le 1 s.nv.fuses.lifecycle ++ le 1 s.nv.fuses.svn ++ le 1 0 ++
    s.nv.fuses.serial ++ s.trust.mFs ++ s.trust.mFw ++ fit 2592 subject

/-- The identity key signs the alias and the seal certificate, at boot step 0x60 (R583). -/
def State.issueCerts (s : State) : State :=
  let a := s.certBody 1 (Config.dsaKeyGen s.aliasSeed)
  let (sa, s) := s.sign idSeed a
  let b := s.certBody 2 (Config.dsaKeyGen s.sealSeed)
  let (sb, s) := s.sign idSeed b
  s.updTrust fun t => { t with certs := [a ++ sa ++ zeros 5, b ++ sb ++ zeros 5], keysReady := true }

def State.certRecord (s : State) (n : Nat) : List Byte :=
  [0x4F, 0x55, 0x56, 0x53] ++ le 1 3 ++ le 1 1 ++ le 1 n ++ le 1 0 ++ le 4 14752 ++ le 4 (s.stream n).take ++
    fit 7368 s.nv.identityCert ++ fit 7368 (s.trust.certs.getD 1 [])

/-- One recipient's entry of the wrapped-key header. -/
def State.wrapFor (s : State) (n : Nat) (key header : List Byte) : List Byte × State :=
  let t := s.stream n
  let (shared, ct) := Config.kemEncaps key s.free
  let id := sha3 key
  let kek := kdf "OUV7-KEK" (shared ++ id ++ s.nv.fuses.serial ++ le 1 n ++ le 4 t.take)
  let (w, tag) := gcm kek (zeros 12) header (Config.entropy t.keyId)
  (id ++ fit 1568 ct ++ fit 32 w ++ fit 16 tag, { s with free := s.free + 1 })

def State.wrapAll (s : State) (n : Nat) (header : List Byte) : List (List Byte) → List Byte × State
  | [] => ([], s)
  | k :: ks =>
    let (e, s) := s.wrapFor n k header
    let (es, s) := s.wrapAll n header ks
    (e ++ es, s)

/-- The signed KEY record of an encrypted take. -/
def State.makeKeyRecord (s : State) (n : Nat) : List Byte × State :=
  let t := s.stream n
  let r := t.recipients.length
  let header := [0x4F, 0x55, 0x56, 0x53] ++ le 1 1 ++ le 1 1 ++ le 1 n ++ le 1 r ++ le 4 (48 + 1680 * r + 4627) ++
    le 4 t.take ++ s.nv.fuses.serial ++ le 4 s.liveNumber ++ le 4 0 ++ s.tbmField
  let (es, s) := s.wrapAll n header t.recipients
  let (sig, s) := s.sign s.sealSeed (header ++ es)
  (header ++ es ++ sig, s)

end Sys2Proof.Machine
end

