-- ==== Sys2Proof/Machine/Apply.lean ====
section
/-! DEFINITION. How the per-context blocks of an ARMED generation apply, and how it becomes LIVE (R44, R169–R176, R683). -/

namespace Sys2Proof.Machine

open Sys2Proof

/-! ## A generation becomes LIVE (R173, R174, R176, R179, R589, R597) -/

/-- A commit flagged PERSIST starts to write its copy: that of the generation still ARMED, or else of the LIVE one. -/
def State.startPersist (s : State) : State :=
  if s.cfg.persistReq then
    s.updCfg fun c => { c with persistReq := false, persisting := c.persisting ++ (c.armed.orElse (fun _ => c.live)).toList }
  else s

/-- Probation has passed, of the generation that is still ARMED or is LIVE (R174). -/
def State.probationPass (s : State) : State :=
  let s := s.updCfg fun c => { c with probation := none }
  (s.raise 0x0204 srcDevice (le 4 (genNumber (s.cfg.armed.orElse (fun _ => s.cfg.live))))).startPersist

/-- Every affected context that has captured during probation has landed N frames under the new generation; one that captures and
has not reached its apply point has landed none. -/
def Probation.met (p : Probation) (capturing : Nat → Bool) : Bool :=
  let caps := p.landed.filter (·.captured)
  let late := p.affected.filter (fun c => capturing c && !p.landed.any (·.ctx == c))
  !caps.isEmpty && late.isEmpty && caps.all (fun x => p.frames ≤ x.frames)

/-- The contexts under probation that capture now have captured in it. -/
def State.noteCaptured (s : State) : State :=
  match s.cfg.probation with
  | none => s
  | some p =>
    let note (x : Landed) : Landed := { x with captured := x.captured || s.capturing x.ctx }
    s.updCfg fun c => { c with probation := some { p with landed := p.landed.map note } }

/-- Whether probation has passed, by its frames or its time limit, whichever comes first. -/
def State.probationCheck (s : State) : State :=
  let s := s.noteCaptured
  match s.cfg.probation with
  | none => s
  | some p =>
    if p.met s.capturing || decide (p.startTbm + ms p.limitMs ≤ s.now) then s.probationPass else s

/-- The policy of a generation that becomes LIVE takes effect when it is not the one in effect (R589). -/
def State.policyLive (s : State) (before now : Option Gen) : State :=
  let pol (g : Option Gen) : Option (List Byte) := g.bind (fun g => payloadIn g.blocks 0x0B01 globalTarget)
  match pol now with
  | none => s
  | some p =>
    if pol before = some p then s
    else
      let n := fld p 4 4
      (s.updNv fun x => { x with policyCounter := max x.policyCounter n }).raise 0x0706 srcDevice (le 4 n ++ le 4 (fld p 16 4))

/-- Every changed block of the ARMED generation has applied. -/
def State.goLive (s : State) : State :=
  match s.cfg.armed with
  | none => s
  | some g =>
    if !s.cfg.unapplied.isEmpty then s
    else
      let old := s.cfg.live
      let kind := s.cfg.armKind
      match kind with
      | .commit | .rollback =>
        let s := s.updCfg fun c => { c with live := some g, previous := old, armed := none }
        let s := (s.raise 0x0202 srcDevice (le 4 g.number ++ le 4 (genNumber old))).policyLive old (some g)
        let s := s.closeSegments 5
        let s := (s.finishAll 0x0205 0 stOk [] none).finishAll 0x0206 0 stOk [] none
        if s.cfg.probation.isNone then s.startPersist else s.probationCheck
      | .auto failed row ctx =>
        let undo := s.cfg.undoing
        let now := if undo then old else some g
        let s := s.updCfg fun c => { c with live := now, previous := none, armed := none, persistReq := false }
        let s := s.raise 0x0205 srcDevice (le 4 failed ++ le 4 (genNumber now) ++ le 2 row ++ le 1 ctx)
        if undo then s
        else ((s.raise 0x0202 srcDevice (le 4 g.number ++ le 4 0)).policyLive old (some g)).closeSegments 5

/-! ## Rings and developer memory of a context (R44, R341, R683, R684) -/

/-- Uses whose ranges are laid out anew when their blocks change. -/
def layUses : List Nat := [1, 2, 3, 4, 5]

/-- A range of its own for the new blocks of a context. -/
def State.allocNew (s : State) (use c kind bytes : Nat) : State :=
  let used := s.mem.regions.filterMap (fun r => if r.use == use && r.owner % 64 == c then some (r.owner / 64) else none)
  let k := ((List.range (used.length + 1)).find? (fun k => !used.contains k)).getD 0
  s.alloc use (c + 64 * k) kind bytes

/-- Bytes from the ring's start to the end of the last frame that still holds a place in it. -/
def Context.extent (x : Context) : Nat := (x.frames.map (fun f => f.addr + f.slotSize - x.ringBase)).foldl max 0

/-- The frames of a ring that is laid out anew, or whose blocks are gone, are frames of an old ring (R683). -/
def Context.ageRing (x : Context) : Context :=
  { x with lastSlot := none, slotsWritten := 0, wrapped := false, frames := x.frames.map (fun f => { f with oldRing := true }) }

/-- The new ring of a context starts where the old one did, and is laid out by the new blocks, with as many of its slots as its range
holds (R683, R296). -/
def State.layRing (s : State) (c : Nat) : State :=
  match s.inForce 0x0201 c, s.inForce 0x0203 c with
  | some link, some land =>
    let x := s.ctx c
    let s := s.alloc 0 c 0 (max (quotaBytes land) (if x.frames.isEmpty then 0 else x.extent))
    let n := min (slotCount link land) (((s.regionOf 0 c).map (fun r => r.pages * pageBytes)).getD 0 / max 1 (slotSize link))
    let s := (s.allocNew 1 c 0 (n * rawTiles link * 4)).alloc 11 c 4 ((n + 256) * 128)
    let base := s.regionBase 0 c
    let tags := s.newestBase 1 c
    s.updCtx c fun x =>
      { x.ageRing with slotCount := n, slotSize := slotSize link, ringBase := base, tagBase := tags }
  | _, _ => (s.release 11 c).updCtx c fun x => { x.ageRing with slotCount := 0, slotSize := 0 }

/-- Bytes of working frames, reference buffers, maps and output frames of a context. -/
def workBytes (b : CtxBlocks) : Nat :=
  match b 0x0201 with
  | some link => if steepEnabled b then workFrames (coreOf b) * rawTiles link * 2052 else 0
  | none => 0

def refBytes (b : CtxBlocks) : Nat :=
  match b 0x0201 with
  | some link => if (b 0x0301).isSome && steepOn b 2 then 2 * rawTiles link * 2052 else 0
  | none => 0

def outBytes (b : CtxBlocks) : Nat := ((mashEntries b).map (fun e => outFrames e * outTiles e * 2052)).sum

/-- Offset of a map in the map range: the maps lie one after the other, tiles first and then their tag-plane entries. -/
def mapOffset (b : CtxBlocks) (type : Nat) : Nat :=
  ((mapTypes.filter (· < type)).map (fun t => match b t with | some p => tiled p.length | none => 0)).sum

/-- The master ID of Mast (R35). -/
def mastId : Nat := 0x70

/-- Write a map's tiles and their entries (R359). -/
def State.storeMap (s : State) (base : Nat) (p : List Byte) : State :=
  let n := ceilDiv p.length 2048
  let d := fit (n * 2048) p
  let tags := ((List.range n).map (fun i => le 4 (crc32c (sub d (2048 * i) 2048)).toNat)).flatten
  (s.capWrite mastId base d).capWrite mastId (base + n * 2048) tags

/-! ## The rings of R684 (R351, R389) -/

/-- A ring of 256 frames in developer memory. -/
inductive RingKind where
  | steep | mash | flicker | profile
deriving DecidableEq, Repr

/-- Bytes of a row profile, and of a frame's place in a ring. -/
def profileBytes (b : CtxBlocks) : Nat := ceilDiv (linkHeight ((b 0x0201).getD [])) (cfaPeriod (coreOf b)) * 8

def ringBytes (b : CtxBlocks) : RingKind → Nat
  | .steep | .mash => 64
  | .flicker => 128
  | .profile => profileBytes b

/-- Where a ring begins in its range: the rings lie one after the other, each with its tag-plane entries, and the tap buffers last. -/
def ringOffset : RingKind → Nat
  | .steep => 0
  | .mash => tiled (256 * 64)
  | .flicker => 2 * tiled (256 * 64)
  | .profile => 2 * tiled (256 * 64) + tiled (256 * 128)

/-- Bytes of a context's rings and tap buffers. -/
def ringsBytes (b : CtxBlocks) : Nat :=
  if !(steepEnabled b || mashEnabled b || flickOn b 0 || flickOn b 1) then 0
  else ringOffset .profile + (if flickOn b 0 then tiled (256 * profileBytes b) + tiled (profileBytes b) else 0) +
    (if flickOn b 1 then tiled (2 * seriesLength ((b 0x0305).getD []) * 8) else 0)

/-- Give a frame its place in a ring: the one that it has, or the next. -/
def FrameRing.put (r : FrameRing) (q : BitVec 32) (d : List Byte) : Nat × FrameRing :=
  match r.items.find? (fun x => x.seq == q) with
  | some x => (x.slot, { r with items := r.items.map (fun y => if y.seq = q then { y with bytes := d } else y) })
  | none => (r.next, { next := (r.next + 1) % 256,
                       items := { seq := q, slot := r.next, bytes := d } :: r.items.filter (fun x => x.slot != r.next) })

def FrameRing.find (r : FrameRing) (q : BitVec 32) : Option RingItem := r.items.find? (fun x => x.seq == q)

/-- A context's ring. -/
def State.frameRing (s : State) (c : Nat) : RingKind → FrameRing
  | .steep => (s.stp c).records
  | .mash => (s.msh c).records
  | .flicker => (s.stp c).flickers
  | .profile => (s.stp c).profiles

def State.setRing (s : State) (c : Nat) (k : RingKind) (r : FrameRing) : State :=
  match k with
  | .steep => s.updSteep c fun x => { x with records := r }
  | .mash => s.updMash c fun x => { x with records := r }
  | .flicker => s.updSteep c fun x => { x with flickers := r }
  | .profile => s.updSteep c fun x => { x with profiles := r }

/-- First address of a ring, its tiles, and the address of their tag-plane entries. -/
def State.ringAt (s : State) (c : Nat) (k : RingKind) : Nat × Nat × Nat :=
  let n := ceilDiv (256 * ringBytes (ctxBlocks s.cfg.inForce c) k) 2048
  let a := s.regionBase 10 c + ringOffset k
  (a, n, a + 2048 * n)

/-- A frame's bytes enter a ring, and with the tiles that they touch the entries of these (R28, R684). -/
def State.putRing (s : State) (c : Nat) (k : RingKind) (q : BitVec 32) (d : List Byte) : State :=
  let (slot, r) := (s.frameRing c k).put q d
  let s := s.setRing c k r
  if (s.regionOf 10 c).isNone then s
  else
    let (a, _, tags) := s.ringAt c k
    let lo := slot * ringBytes (ctxBlocks s.cfg.inForce c) k
    let s := s.capWrite mastId (a + lo) d
    each (List.range' (lo / 2048) (if d.isEmpty then 0 else (lo + d.length - 1) / 2048 + 1 - lo / 2048)) (fun i s =>
      s.capWrite mastId (tags + 4 * i) (le 4 (crc32c (s.capRead (a + 2048 * i) 2048)).toNat)) s

/-- Give a range its bytes; without any it is given back. -/
def State.sizeRange (s : State) (use owner kind bytes : Nat) : State :=
  if bytes = 0 then s.release use owner else s.alloc use owner kind bytes

/-- The rings of a context follow its blocks; profiles of another length are gone (PRESUMED, assumption 2). -/
def State.layRings (s : State) (c : Nat) : State :=
  let b := ctxBlocks s.cfg.inForce c
  (s.sizeRange 10 c 1 (ringsBytes b)).updSteep c fun x =>
    { x with profiles := { x.profiles with items := x.profiles.items.filter (fun i => i.bytes.length == profileBytes b) } }

/-- Give a context's developer memory its new ranges where their size or contents change. -/
def State.layDeveloper (s : State) (c : Nat) (types : List Nat) : State :=
  let b := ctxBlocks s.cfg.inForce c
  let hit (ts : List Nat) : Bool := types.any ts.contains
  let give (use bytes : Nat) (s : State) : State := if bytes = 0 then s else s.allocNew use c 1 bytes
  let s := if hit [0x0201, 0x0301, 0x0305, 0x0401] then s.layRings c else s
  let s := if hit [0x0201, 0x0301] then give 3 (refBytes b) (give 2 (workBytes b) s) else s
  let s := if hit mapTypes then
      let s := give 4 (mapBytes b) s
      let base := s.newestBase 4 c
      each mapTypes (fun t s => match b t with
        | some p => s.storeMap (base + mapOffset b t) p
        | none => s) s
    else s
  if hit [0x0402] then give 5 (outBytes b) s else s

/-- The frame still has work, or a read, that may use its ranges. -/
def Frame.busy (f : Frame) : Bool := f.working || f.reads != 0 || f.holds != 0

/-- Older ranges return to the firmware once no frame that latched them has work left; tag planes once none of their frames
holds a slot (R44, R683). -/
def State.freeOld (s : State) : State :=
  each s.mem.regions (fun r s =>
    let c := r.owner % 64
    let latched (f : Frame) : Bool := f.ranges.contains (r.use, r.first * pageBytes)
    let held := (s.ctx c).frames.any (fun f => latched f && (r.use == 1 || f.busy)) ||
      s.dev.any (fun d => d.ctx == c && latched d.frame)
    if layUses.contains r.use && s.newest r.use c != some r && !held then s.release r.use r.owner else s) s

/-- The ranges in force of a context. -/
def State.rangesOf (s : State) (c : Nat) : List (Nat × Nat) :=
  layUses.filterMap (fun u => (s.newest u c).map (fun r => (u, r.first * pageBytes)))

/-! ## Encodings (R397, R418, R423) -/

/-- Encodings of a context: number, codec and entry. -/
def encsOf (b : CtxBlocks) : List (Nat × Nat × List Byte) :=
  (xsEntries b).map (fun e => (fld e 0 1, 0, e)) ++ (hevcEntries b).map (fun e => (fld e 0 1, 1, e))

/-- A generation adds an encoding: it starts afresh; its counters of errors run on. -/
def Encoding.added (x : Encoding) (c codec : Nat) (e : List Byte) : Encoding :=
  { Encoding.reset with ctx := some c, codec := codec, entry := e, exhausted := x.exhausted, floored := x.floored,
                        lost := x.lost, lastExhaustEvent := x.lastExhaustEvent, lastLimitEvent := x.lastLimitEvent }

/-- Entry of the encodings that serves a frame: the encoding of that number, or one that a later generation has replaced (R44). -/
def State.encIndex (s : State) (f : Frame) (e : Nat) : Nat :=
  let serves (x : Nat × Encoding) : Bool := x.2.ctx == some f.ctx &&
    (match x.2.replaced with | some (n, q) => n == e && decide ((f.seq - q).toInt < 0) | none => false)
  let left (x : Nat × Encoding) : Nat := match x.2.replaced with | some (_, q) => (q - f.seq).toNat | none => 0
  match sortBy (fun a b => decide (left a < left b)) ((numbered s.encs).filter serves) with
  | x :: _ => x.1
  | [] => e

/-- A frame that latched the encoding has still to be given to it. -/
def State.encComes (s : State) (e : Nat) : Bool :=
  let x := s.enc e
  match x.ctx with
  | none => false
  | some c => (s.ctx c).frames.any (fun f =>
      f.creating && (encsOf (ctxBlocks f.blocks c)).any (fun y => s.encIndex f y.1 == e) &&
        !x.pics.any (fun p => p.seq == f.seq) && !x.waiting.contains f.seq && !x.records.any (fun r => fld r.2 4 4 == f.seq.toNat))

/-- An encoding leaves, or its number goes to another: while pictures of it are open it moves to an entry of its own, with its jobs and
its memory, until they have ended (R44). `upto`: the first frame that it no longer codes. -/
def State.setAside (s : State) (e : Nat) (upto : BitVec 32) : State :=
  let x := s.enc e
  let gone : Encoding := { Encoding.reset with exhausted := x.exhausted, floored := x.floored, lost := x.lost }
  if x.pics.isEmpty && x.waiting.isEmpty && !s.encComes e then ((s.updEnc e fun _ => gone).release 6 e).release 12 e
  else
    let free := ((numbered s.encs).find? (fun y => 32 ≤ y.1 && y.2.ctx.isNone)).map (·.1)
    let k := free.getD s.encs.length
    let old : Encoding := { x with replaced := some (e, upto), exhausted := 0, floored := 0, lost := 0 }
    let encs := if free.isSome then s.encs.set k old else s.encs ++ [old]
    let s : State := { s with encs := encs }
    let s := s.updEnc e fun _ => gone
    let s := s.mapJobs (fun j => if (j.kind == .xsRow || j.kind == .hevcRow) && j.object == e then { j with object := k } else j)
    s.updMem fun m => { m with regions := m.regions.map (fun r => if (r.use = 6 || r.use = 12) && r.owner = e then { r with owner := k } else r) }

/-- Replaced encodings whose last picture has ended return their memory; the number keeps their counters. -/
def State.freeEncs (s : State) : State :=
  each (List.range' 32 (s.encs.length - 32)) (fun k s =>
    let x := s.enc k
    match x.replaced with
    | none => s
    | some (e, _) =>
      if !x.pics.isEmpty || !x.waiting.isEmpty || s.encComes k then s
      else
        let s := ((s.updEnc k fun _ => Encoding.reset).release 6 k).release 12 k
        s.updEnc e fun y => { y with exhausted := y.exhausted + x.exhausted, floored := y.floored + x.floored, lost := y.lost + x.lost }) s

/-- The encodings of a context follow its blocks: those that leave are set aside, those that come start afresh. A number that another
context has taken already has been set aside then. -/
def State.layEncodings (s : State) (c : Nat) (before : List (Nat × Nat × List Byte)) : State :=
  let b := ctxBlocks s.cfg.inForce c
  let after := encsOf b
  let here := (s.ctx c).nextSeq
  let s := each before (fun (e, codec, _) s =>
    if after.any (fun y => y.1 == e && y.2.1 == codec) then s
    else if (s.enc e).ctx = some c then s.setAside e here
    else { s with encs := s.encs.map (fun x =>
      match x.replaced with
      | some (n, _) => if n = e && x.ctx = some c then { x with replaced := some (n, here) } else x
      | none => x) }) s
  each after (fun (e, codec, ent) s =>
    let same := before.any (fun y => y.1 == e && y.2.1 == codec) && (s.enc e).ctx == some c
    let s := if same then s.updEnc e fun x => { x with entry := ent }
      else
        let s := match (s.enc e).ctx with
          | some a => s.setAside e ((s.ctx a).nextSeq + 0x40000000)
          | none => s
        s.updEnc e fun x => x.added c codec ent
    (if codec = 1 then s.alloc 6 e 2 (hevcMemory b ent) else s).alloc 12 e 4 (256 * 64)) s

/-- The blocks in force with some of them taken from a generation. -/
def applyBlocks (force new : List Block) (keys : List (Nat × Nat)) : List Block :=
  keys.foldl (fun bs k =>
    let rest := bs.filter (fun x => !x.isAt k.1 k.2)
    match blockIn new k.1 k.2 with
    | some b => putBlock rest b
    | none => rest) force

/-- The keys of the ARMED generation that wait for a context. -/
def State.keysOf (s : State) (c : Nat) : List (Nat × Nat) :=
  s.cfg.unapplied.filter (fun k => contextTypes.contains k.1 && k.2 == c)

/-- A flicker series starts afresh (R345). -/
def SteepCtx.restartSeries (x : SteepCtx) : SteepCtx :=
  { x with series := { sums := [], counts := [] }, seriesFrames := 0, strideSum := 0, strideCount := 0 }

/-- Changed per-context blocks of one context apply. Answers the types that applied. -/
def State.applyKeys (s : State) (c : Nat) (keys : List (Nat × Nat)) : List Nat × State :=
  match s.cfg.arming with
  | none => ([], s)
  | some g =>
    if keys.isEmpty then ([], s)
    else
      let before := encsOf (ctxBlocks s.cfg.inForce c)
      let types := keys.map (·.1)
      let s := s.updCfg fun x =>
        { x with inForce := applyBlocks x.inForce g.blocks keys,
                 unapplied := x.unapplied.filter (fun k => !keys.contains k),
                 probation := x.probation.map (fun p => p.reach [c] s.now) }
      let s := if types.contains 0x0201 || types.contains 0x0203 then s.layRing c else s
      let s := (s.layDeveloper c types).layEncodings c before
      let s := if types.contains 0x0201 || types.contains 0x0305 then s.updSteep c SteepCtx.restartSeries else s
      (types, s)

def State.applyCtx (s : State) (c : Nat) : List Nat × State := s.applyKeys c (s.keysOf c)

/-- A context whose landing blocks are no longer in force. -/
def State.unboundCtx (s : State) (c : Nat) : Bool := (s.inForce 0x0201 c).isNone

end Sys2Proof.Machine
end

