-- ==== Sys2Proof/Machine/Ledger.lean ====
section
/-! DEFINITION. The energy ledger (chapter 06): costs, baseline, window pass and registers. The tick itself, which also
creates work, stands in Tick. Energies are exact numbers of µJ. -/

namespace Sys2Proof.Machine

open Sys2Proof

/-! ## Costs (R196) -/

/-- Default per-unit energies in fJ, kinds 0x00 to 0x0F. -/
def defaultCosts : List Nat :=
  [1200, 28000, 187500, 156250, 78125, 2000000, 1000000, 31250, 3000, 3000, 200000000000, 445000000000000,
   150000000000000, 50000000000000, 15000000000000000, 8000000000000000]

/-- Rail group of a kind; 0xFF for leakage. -/
def costGroup : Nat → Nat
  | 0x00 => 2
  | 0x01 | 0x0F => 1
  | 0x0B | 0x0C | 0x0D => 3
  | 0x10 => 0xFF
  | _ => 0

/-- Unit codes of R215. -/
def costUnit : Nat → Nat
  | 0x00 => 0
  | 0x01 | 0x07 | 0x08 | 0x09 => 1
  | 0x02 | 0x03 => 2
  | 0x04 | 0x05 | 0x06 => 3
  | 0x0A => 4
  | _ => 5

/-- Corrected energy in µJ of some units of a kind. -/
def State.energy (s : State) (kind : Nat) (units : Rat) : Rat :=
  units * (defaultCosts.getD kind 0 : Nat) / 1000000000 * s.factor (costGroup kind)

/-- The cost of a job. -/
def State.jobCost (s : State) (j : Job) : Rat := (j.units.map (fun u => s.energy u.1 (u.2 : Nat))).sum

/-! ## Policy (R190, R192, R193, R211) -/

/-- The scale of a reef level, in hundredths (R205). -/
def reefScale : Nat → Nat
  | 0 => 100
  | 1 => 75
  | _ => 45

/-- P_eff in mW. -/
def State.pEffNow (s : State) : Rat := (s.pSust : Rat) * (reefScale s.health.reef : Nat) / 100

/-! ## Baseline and C0 (R191, R197, R524) -/

/-- Lanes that count as kinds 0x0B, 0x0C and 0x0D: of a slot of a yard by its port's state (R524, R538). -/
def portLanes (mode : Nat) (p : FlexPort) : Nat × Nat × Nat :=
  let w := p.width
  if p.st = 6 then (w, 0, 0)
  else if p.st = 8 then (0, 0, w)
  else if mode = 3 && p.st = 0xA then (0, 0, w)
  else (0, 0, 0)

def addLanes (a b : Nat × Nat × Nat) : Nat × Nat × Nat := (a.1 + b.1, a.2.1 + b.2.1, a.2.2 + b.2.2)

def State.flexLanes (s : State) : Nat × Nat × Nat :=
  let ep := if s.ep.st = 6 then (s.ep.width, 0, 0) else if s.ep.st = 8 then (0, 0, s.ep.width) else (0, 0, 0)
  s.yards.foldl (fun acc y =>
    let acc := y.ports.foldl (fun acc p => addLanes acc (portLanes y.mode p)) acc
    addLanes acc (0, popCount 16 y.sdiActive.toNat, 0)) ep

/-- The per-group baseline in µJ of one window, leakage left out. -/
def State.baselineGroups (s : State) (lanes : Nat × Nat × Nat) : List Rat :=
  let t : Rat := 50 / 1000000
  [s.energy 0x0E t, s.energy 0x0F t, 0,
   s.energy 0x0B (t * lanes.1) + s.energy 0x0C (t * lanes.2.1) + s.energy 0x0D (t * lanes.2.2)]

/-- The leakage of one window: mW × 50 µs, in µJ. -/
def State.leakWindow (s : State) : Rat := s.ledger.leakage * 50 / 1000

def Shroud.rateMbps (sh : Shroud) : Nat :=
  let e := sh.entry.getD []
  if fld e 4 1 = 0 then 2 * fld e 8 4 else fld e 8 4

/-- Bits that the lanes of a shroud have received since they were last charged, up to a time. -/
def Shroud.received (sh : Shroud) (t : Nanos) : Rat :=
  if sh.st = .active then ((sh.width * sh.rateMbps * (t - sh.rxTbm) : Nat) : Rat) / 1000 else 0

/-- Bits received in the window just ended. -/
def State.bitsReceived (s : State) : Rat := s.ledger.rxBits + (s.shrouds.map (fun sh => sh.received s.now)).sum

/-- A shroud's lanes stop receiving, or are about to: what they have received is kept for the next tick. -/
def State.noteReceived (s : State) (n : Nat) : State :=
  (s.updLedger fun l => { l with rxBits := l.rxBits + (s.shroud n).received s.now }).updShroud n fun x => { x with rxTbm := s.now }

/-- The lanes have been charged for what they received. -/
def State.chargeReceived (s : State) : State :=
  { s with shrouds := s.shrouds.map (fun x => { x with rxTbm := s.now }), ledger := { s.ledger with rxBits := 0 } }

/-! ## The window (R204) -/

/-- What a pass carries from job to job. -/
structure Pass where
  avail    : Rat
  drawLeft : Rat
  bank     : Rat
  admitted : Nat
  stopped  : Bool
  halt     : Bool
  charges  : List Rat
  groups   : List Rat
deriving DecidableEq, Repr

/-- The µJ of a job by rail group, for M_g of R198. -/
def State.jobGroups (s : State) (j : Job) (gs : List Rat) : List Rat :=
  j.units.foldl (fun gs u => upd gs (costGroup u.1) (· + s.energy u.1 (u.2 : Nat))) gs

/-- One pending job in ledger order. -/
def passOne (eligible : State → Job → Bool) (letIn : Job → State → State) (id : Nat) (p : Pass × State) : Pass × State :=
  let (a, s) := p
  if a.halt || a.admitted == 2048 then p
  else match s.job id with
    | none => p
    | some j =>
      if j.st != .pending || !eligible s j then p
      else
        let cost := s.jobCost j
        if a.avail + min a.drawLeft a.bank < cost then
          if j.cls ≤ 3 then ({ a with stopped := true, halt := true }, s) else p
        else
          let take := max 0 (cost - a.avail)
          let a := { a with bank := a.bank - take, drawLeft := a.drawLeft - take, avail := a.avail - cost + take,
                            admitted := a.admitted + 1, charges := upd a.charges j.cls (· + cost),
                            groups := s.jobGroups j a.groups }
          let s := s.count 0x0D (floorNat cost) { privilege := some j.privilege, master := none, cls := some j.cls }
          (a, letIn j s)

/-- The rank of a class (R201). -/
def classRank (cls : Nat) : Nat := [0, 1, 2, 2, 3, 4, 5].getD cls 6

/-- The ledger order (R202). -/
def ledgerBefore (a b : Job) : Bool :=
  let key (j : Job) : List Nat :=
    [classRank j.cls] ++ (match j.deadline with | some d => [0, d] | none => [1, 0]) ++
      [if j.cls = 3 then 0 else 1, j.pendingTbm, j.ctx.getD 64, (j.streams.head?.map (·.2)).getD 0, j.id]
  let rec lt : List Nat → List Nat → Bool
    | x :: xs, y :: ys => x < y || (x == y && lt xs ys)
    | [], _ :: _ => true
    | _, [] => false
  lt (key a) (key b)

/-- The jobs that the tick which starts window w considers: those that became PENDING in an earlier window (R203). -/
def State.considered (s : State) : List Job := s.pendingJobs.filter (fun j => j.pendingWindow < s.ledger.window)

/-- Credit, carry, bank, baseline and C0 of the window, then the pass over the considered jobs (R191–R194, R204). Every job considered
and still pending has waited a tick, whatever kept it (R207). -/
def State.runWindow (s : State) (eligible : State → Job → Bool) (letIn : Job → State → State) : State :=
  let l := s.ledger
  let credit : Rat := l.pEff * 50 / 1000
  let cap : Rat := s.bankCap
  let kept := min l.carry (min credit (12000 - credit))
  let bank := if 0 < l.carry then min cap (l.bank + l.carry - kept) else l.bank
  let carry := if 0 < l.carry then kept else l.carry
  let lanes := s.flexLanes
  let baseG := s.baselineGroups lanes
  let baseline := baseG.sum + s.leakWindow
  let c0mem := s.energy 0x01 (l.landedBytes : Nat)
  let c0bits := s.energy 0x00 s.bitsReceived
  let avail := credit - baseline - (c0mem + c0bits) + carry
  let draw : Rat := if s.bankOpen then ((240000 - s.pSust : Nat) : Rat) * 50 / 1000 else 0
  let draw := max 0 (min draw (12000 - credit - max carry 0))
  let groups := upd (upd baseG 1 (· + c0mem)) 2 (· + c0bits)
  let p0 : Pass := { avail := avail, drawLeft := draw, bank := bank, admitted := 0, stopped := false,
                     halt := decide (avail < 0), charges := (c0mem + c0bits) :: List.replicate 6 0, groups := groups }
  let ids := (sortBy ledgerBefore s.considered).map (·.id)
  let (p, s) := ids.foldl (fun acc id => passOne eligible letIn id acc) (p0, s)
  let s := s.mapJobs (fun j =>
    if ids.contains j.id && j.st == .pending then { j with waits := j.waits + 1 } else j)
  let keep := p.stopped || decide (p.avail < 0)
  let bank' := if keep then p.bank else min cap (p.bank + p.avail)
  let carry' := if keep then p.avail else 0
  let debt := decide (carry' < 0)
  let e : TraceEntry :=
    { window := l.window, credit := floorNat credit, baseline := floorNat baseline, charges := p.charges.map floorNat,
      reef := l.reefAtTick, debt := debt, closed := !s.bankOpen, stopped := p.stopped, bank := floorNat bank',
      carry := carry'.floor, admitted := p.admitted }
  let s := s.updLedger fun x =>
    { x with bank := bank', carry := carry', debt := debt, stopped := p.stopped, credit := credit, baseline := baseline,
             charges := p.charges, landedBytes := 0, trace := (e :: x.trace).take 256,
             chargedGroup := List.zipWith (· + ·) x.chargedGroup p.groups }
  if debt then
    s.raiseLimited s.ledger.lastOverrunEvent (ms 100) 0x0801 srcDevice (le 8 l.window ++ leInt 4 carry'.floor)
      (fun t s => s.updLedger fun x => { x with lastOverrunEvent := t })
  else s

/-! ## Outcomes (R209, R210) -/

/-- Deliver an outcome word to the class counters, the context's counters and the frame record. -/
def State.deliver (s : State) (j : Job) (w : BitVec 32) : State :=
  let c := owClass w
  let waited := owWaited w
  let bump (l : List (BitVec 32)) (k n : Nat) : List (BitVec 32) := upd l k (· + BitVec.ofNat 32 n)
  let o := owOutcome w
  let s := s.updLedger fun x =>
    { x with served := bump x.served c (b2n (o == outServed)), deferred := bump x.deferred c (b2n (o == outDeferred)),
             refused := bump x.refused c (b2n (o == outRefused)), waited := bump x.waited c waited,
             reasons := if o == outRefused then bump x.reasons (owReason w) 1 else x.reasons,
             refusalsSince := if o == outRefused then upd x.refusalsSince (owReason w) (· + 1) else x.refusalsSince }
  let s := s.count 0x0A waited { privilege := some j.privilege, cls := some c }
  let s := if o == outRefused then s.count 0x09 1 { privilege := some j.privilege, cls := some c } else s
  match j.ctx with
  | none => s
  | some k =>
    let s := s.updCtx k fun x =>
      { x with counts := bump (if o == outRefused then bump x.counts (10 + owReason w) 1 else x.counts) 10 waited }
    s.updFrame k j.frame (fun f =>
      { f with outcome := if f.hasOutcome then worse f.outcome w else w, hasOutcome := true })

/-- NRG_REFUSALS, at most once per second while refusals occur (R218). -/
def State.refusalEvent (s : State) : State :=
  if s.ledger.refusalsSince.all (· == 0) || !s.mayRaise s.ledger.lastRefusalEvent (sec 1) then s
  else
    let body := ((s.ledger.refusalsSince.drop 1).map (fun n => le 4 n)).flatten
    (s.raise 0x0802 srcDevice body).updLedger fun x =>
      { x with refusalsSince := List.replicate 5 0, lastRefusalEvent := some s.now }

/-! ## Telemetry (R198, R199) -/

/-- The new correction factor of a group: kept within 0.5 and 2.0. -/
def newFactor (k measured charged : Rat) : Rat :=
  min (max (k * (1 + 1 / 4 * (measured / charged - 1))) (1 / 2)) 2

/-- The measured energy of a group over 10 ms: for group 0, that of VDD_CORE and VDD_SRAM less the leakage estimate (R198). -/
def State.measuredEnergy (s : State) (g : Nat) (e : Rat) : Rat := if g = 0 then e - 10 * s.ledger.leakage else e

/-- The firmware reads the rails; a new factor applies from the next tick. -/
def State.telemetry (s : State) (t : Telemetry) : State :=
  let one (g : Nat) (s : State) : State :=
    match t.groups.getD g none with
    | none => s
    | some e =>
      let m := s.ledger.chargedGroup.getD g 0
      s.updLedger fun x =>
        { x with nextFactors := if 0 < m then upd x.nextFactors g (fun k => newFactor k (s.measuredEnergy g e) m) else x.nextFactors,
                 telemetryTbm := x.telemetryTbm.set g s.now, staleGroups := x.staleGroups.set g false }
  let s := each [0, 1, 2, 3] one s
  s.updLedger fun x => { x with chargedGroup := List.replicate 4 0, measuredMw := t.packageMw }

def execTelemetryRead (t : Telemetry) (s : State) : Host.Outcome State Fault Refusal := .next (if s.nimlek then s.telemetry t else s)

/-- A rail's telemetry has not been read for 100 ms: its group's factor holds (R199). -/
def execTelemetryStale (segment address group : Nat) (s : State) : Host.Outcome State Fault Refusal :=
  .next <|
    if s.nimlek && decide (s.ledger.telemetryTbm.getD group 0 + ms 100 ≤ s.now) then
      (s.updLedger fun x => { x with staleGroups := x.staleGroups.set group true }).raise 0x0803 srcDevice
        (le 1 segment ++ le 1 address ++ le 1 group)
    else s

/-! ## Registers and commands -/

def formNrgCostRead : Form := { op := 0x0801, mgmt := true, lo := 4, hi := 4, reserved := [(1, 3)] }

/-- The 24 bytes of R215. -/
def State.costEntry (s : State) (k : Nat) : List Byte :=
  let leak := s.ledger.leakage * 1000000000000
  let g := costGroup k
  let dflt : Rat := if k = 0x10 then leak else (defaultCosts.getD k 0 : Nat)
  let f : Rat := if k = 0x10 then 1 else s.factor g
  le 1 k ++ le 1 g ++ le 2 (floorNat (f * 4096)) ++ le 1 (costUnit k) ++ le 3 0 ++ le 8 (floorNat dflt) ++
    le 8 (floorNat (dflt * f))

/-- One 40-byte entry of R216. -/
def TraceEntry.bytes (e : TraceEntry) : List Byte :=
  le 8 e.window ++ le 2 e.credit ++ le 2 e.baseline ++ (e.charges.map (fun x => le 2 x)).flatten ++ le 1 e.reef ++
    le 1 (b2n e.debt + 2 * b2n e.closed + 4 * b2n e.stopped) ++ le 4 e.bank ++ leInt 4 e.carry ++ le 2 e.admitted ++ le 2 0

end Sys2Proof.Machine
end

