-- ==== Sys2Proof/Machine/Lanes.lean ====
section
/-! DEFINITION. Sensor lanes and shrouds (chapter 07) and sensor control ports (chapter 08): training, relock, tests,
commands and the SLN registers. -/

namespace Sys2Proof.Machine

open Sys2Proof

/-! ## Entries in force -/

def Shroud.flag (sh : Shroud) (b : Nat) : Bool := bit (fld sh.ent 7 1) b
def Shroud.mask (sh : Shroud) : Nat := fld sh.ent 12 2

/-- Shrouds of a sensor. -/
def State.shroudsOf (s : State) (sensor : Nat) : List Nat :=
  (List.range 56).filter (fun n => (s.shroud n).entry.isSome && (s.shroud n).sensorOf == sensor)

/-- The LINK_CONTEXT in force of a context, and the contexts it binds to a sensor (R278). -/
def State.link (s : State) (c : Nat) : Option (List Byte) := s.inForce 0x0201 c

def State.ctxsOf (s : State) (sensor : Nat) : List Nat :=
  (List.range 64).filter (fun c => match s.link c with | some p => fld p 0 1 == sensor | none => false)

/-- Some context of the sensor is RUNNING or POST_TRIGGER. -/
def State.sensorCaptures (s : State) (sensor : Nat) : Bool := (s.ctxsOf sensor).any s.capturing

/-- The LIVE generation configures the shroud. -/
def genShroud (g : Option Gen) (n : Nat) : Option (List Byte) :=
  match g with
  | none => none
  | some g =>
    let p := (payloadIn g.blocks 0x0101 globalTarget).getD []
    (entriesFrom p 8 32 (fld p 0 4)).find? (fun e => fld e 0 1 == n)

/-! ## Sensor control ports as the firmware uses them (R66, R238, R281, R284) -/

def State.ltc (s : State) (sensor reg v : Nat) : State :=
  s.out (.scp sensor (s.sensor sensor).address reg [BitVec.ofNat 8 (v / 256), BitVec.ofNat 8 v])

/-- A failed transfer of the port: SCP_ERR and SLK_SCP_FAULT (R284, R290). -/
def State.scpFault (s : State) (sensor failure addr reg : Nat) (firmware : Bool) : State :=
  (s.updSensor sensor (fun x => { x with scpErr := satInc 16 x.scpErr, portState := 3 })).raise 0x0312 sensor
    (le 1 failure ++ le 1 addr ++ le 2 reg ++ le 1 (b2n firmware))

/-- A transfer of the firmware outside training: whether the sensor acknowledges it, and how it fails, are free (assumption 2). A
port that is off makes none: it is not driven (R66). -/
def State.fwTransfer (s : State) (sensor addr reg : Nat) (done : State → State) : State :=
  let (ack, s) := s.pick 2
  if (s.sensor sensor).portState = 0 then s
  else if ack = 0 then done s
  else
    let (k, s) := s.pick 4
    s.scpFault sensor (k + 1) addr reg true

def State.sendCcc (s : State) (n addr : Nat) (code : Ccc) : State := s.fwTransfer n addr 0 (fun s => s.out (.ccc n code))

def Sensor.mode (x : Sensor) : Nat := fld (x.entry.getD []) 1 1

/-- The port starts once its sensor is enabled and the sensor's rails are up, and shuts down when either ends. In I3C mode the
sensor is given its address with SETDASA, and DISEC follows; RSTDAA ends it (DESIGN CHOICE of the moment, assumption 35). -/
def State.portSync (s : State) (n : Nat) : State :=
  let x := s.sensor n
  let e := x.entry.getD []
  let on := x.railsUp && x.mode != 0
  if on && x.portState == 0 then
    let s := (s.drivePins (.scp n)).updSensor n fun x => { x with portState := 1 }
    if x.mode = 1 then (s.sendCcc n (fld e 2 1) (.setdasa (fld e 2 1) (fld e 3 1))).sendCcc n 0x7E .disec else s
  else if !on && x.portState != 0 then
    (if x.mode = 1 then s.sendCcc n 0x7E .rstdaa else s).updSensor n fun x => { x with portState := 0 }
  else s

/-- Each SREF output gives the source that the entries of its group select, once the rails of one of their sensors are up
(R66, R79, R241). -/
def State.srefSync (s : State) : State :=
  each (List.range 14) (fun g s =>
    let up := (List.range' (4 * g) 4).filter (fun n =>
      (s.shroud n).entry.isSome && (s.sensor (s.shroud n).sensorOf).railsUp)
    let src := ((up.head?).map (fun n => fld (s.shroud n).ent 5 1)).getD 0
    let s := s.updPower fun p => { p with sref := p.sref.set g src }
    if src = 0 then s else s.drivePins (.sref g)) s

/-! ## Training (R246–R248) -/

/-- A lane without power: its counters and its last scan stay, and a scan that runs goes on to its end (R252, R257). -/
def Lane.unpowered (l : Lane) : Lane :=
  { l with signal := false, cdrLock := false, blockLock := false, logical := none, inverted := false, precodes := false, slip := 0,
           ctle := 0, ffePre := 0, ffePost := 0, dfe := 0 }

/-- A lane as training begins: nothing of the last training is left in the log (R259). -/
def Lane.untrained (l : Lane) : Lane :=
  { l.unpowered with hdrErr := 0, foundSlip := none, candidates := 0, form := 0, word := none }

/-- Training starts (R246): the shroud is QUIET until its sensor's rails are up and the control port answers. -/
def State.startTraining (s : State) (n : Nat) : State :=
  if (s.shroud n).entry.isNone then s
  else (s.noteReceived n).updShroud n fun x =>
    { x with st := .quiet, failReason := 0, trainings := satInc 8 x.trainings, testLane := none, trainTbm := some s.now,
             trainAt := none, passes := 0, permuted := false, anyInverted := false, deskewRun := false,
             lanes := x.lanes.map Lane.untrained }

/-- Set a link flag of an open frame, in its record too if it has one. -/
def State.flagOpen (s : State) (sensor vc b : Nat) : State :=
  each ((s.sensor sensor).openFrames.filter (fun o => o.vc == vc)) (fun o s =>
    let w := linkFlag o.flags b
    let s := s.updSensor sensor fun x =>
      { x with openFrames := x.openFrames.map (fun y => if y.vc = vc then { y with flags := w } else y) }
    match o.seq with
    | some q => s.updFrame o.ctx q (fun f => { f with linkFlags := w })
    | none => s) s

/-- A flag of every open frame of a sensor. -/
def State.flagAll (s : State) (sensor b : Nat) : State :=
  each ((s.sensor sensor).openFrames.map (·.vc)) (fun vc s => s.flagOpen sensor vc b) s

/-- Open frames while a shroud of their bond is in RELOCK or FAILED (R274). -/
def State.linkLost (s : State) (sensor : Nat) : State := s.flagAll sensor lfLinkLost

/-- The shroud enters FAILED: LTC_STATE = QUIET, SL_TRAIN_FAILED, and waiting retrains end (R248, R257). -/
def State.failShroud (s : State) (n reason lanes : Nat) : State :=
  let x := (s.shroud n).sensorOf
  let s := s.updShroud n fun x => { x with st := .failed, failReason := reason, testLane := none, trainTbm := none }
  let s := s.fwTransfer x (s.sensor x).address 0xF002 (fun s => s.ltc x 0xF002 0)
  let s := (s.raise 0x0302 (srcShroud n) (le 1 reason ++ le 1 0 ++ le 2 lanes)).linkLost x
  s.finishAll 0x0301 n stHwFault (le 1 reason) none

/-- Slip units of a block: symbols in PAM4, bits in NRZ (R247). -/
def Shroud.units (sh : Shroud) : Nat := if sh.nrz then 130 else 65

/-- The training word's pattern (R232). -/
def trainPattern : List Byte := [0x1B, 0xE4, 0x4E, 0xB1, 0x0F, 0xF0, 0x36, 0xC9, 0x5A, 0xA5]

/-- A payload as an inverted lane carries it (R233). -/
def invertBytes (nrz : Bool) (bs : List Byte) : List Byte := bs.map (fun b => b ^^^ (if nrz then 0xFF else 0x55))

/-- The payload of a training word; bytes 1 to 5 are ignored in the match (R233). -/
def isTrainWord (bs : List Byte) : Bool := bs.take 1 == [0x2D] && bs.drop 6 == trainPattern

/-- The form in which a block matches a training word: NORMAL with the word, INVERTED with the word as it was sent, or none (R233). -/
def matchForm (nrz : Bool) (c : Candidate) : Option (Bool × List Byte) :=
  let back := invertBytes nrz c.bytes
  if c.header = 0b10 && isTrainWord c.bytes then some (false, c.bytes)
  else if c.header = (if nrz then 0b01 else 0b00) && isTrainWord back then some (true, back)
  else none

/-- What the search finds on a lane: how many offsets it tried before the one that it took, the form, and the training word. -/
structure Found where
  index    : Nat
  inverted : Bool
  word     : List Byte
deriving DecidableEq, Repr

/-- The bit-slip search of one lane: in at most three passes over the offsets, the first whose 32 blocks and then 288 all match
(R247). -/
def Shroud.search (sh : Shroud) (seen : List Candidate) : Option Found :=
  (numbered (seen.take (3 * sh.units))).findSome? (fun p =>
    if p.2.run = 288 then (matchForm sh.nrz p.2).map (fun m => { index := p.1, inverted := m.1, word := m.2 }) else none)

/-- The lanes that training searches: those of the configured mask that carry signal, or every lane with signal (R246 step 3). -/
def Shroud.searched (sh : Shroud) : List Bool :=
  (numbered sh.lanes).map (fun p => p.2.signal && (sh.mask == 0 || bit sh.mask p.1))

/-- What the search found on each lane, none where it did not search. -/
def Shroud.foundOn (sh : Shroud) (t : TrainFacts) : List (Option Found) :=
  List.zipWith (fun a (f : LaneFacts) => if a then sh.search f.seen else none) sh.searched t.lanes

/-- The words that the search has found on the lanes, in this part of the training or in an earlier one. -/
def Shroud.foundWords (sh : Shroud) : List (Option Found) :=
  sh.lanes.map (fun l => l.word.map (fun w => { index := l.slip, inverted := l.form == 2, word := w }))

def Found.logical (f : Found) : Nat := (f.word.getD 1 0).toNat % 16

/-- The lane can precode (R232). -/
def Found.capable (f : Found) : Bool := (f.word.getD 3 0).getLsbD 0

/-- Searched lanes for which a test fails, as a bitmap. -/
def faulty (sh : Shroud) (t : TrainFacts) (bad : LaneFacts → Bool) : Nat :=
  bitmap (List.zipWith (fun a f => a && bad f) sh.searched t.lanes)

/-- Lanes whose training word fails a test that also sees the lane's number, as a bitmap. -/
def wordsBad (found : List (Option Found)) (bad : Nat → Found → Bool) : Nat :=
  bitmap ((numbered found).map (fun p => p.2.any (bad p.1)))

/-- R234's LANE_ID test of one lane: width code, range, and a logical lane seen once. -/
def laneIdBad (sh : Shroud) (found : List (Option Found)) (f : Found) : Bool :=
  (f.word.getD 1 0).toNat / 16 != widthCode sh.width || sh.width ≤ f.logical ||
    1 < (found.filter (fun g => g.any (fun g => g.logical == f.logical))).length

/-- Whether a lane precodes (R231); the DFE tap is in 1/128 of the main cursor. -/
def precodes (sh : Shroud) (f : Found) (dfe : Int) : Bool :=
  !sh.nrz && (match fld sh.ent 6 1 with
    | 0 => false
    | 1 => true
    | _ => f.capable && decide (3840 ≤ dfe.natAbs * 100))

/-- The lanes that are to precode. -/
def Shroud.precodeSet (sh : Shroud) : List Bool :=
  List.zipWith (fun (f : Option Found) (l : Lane) => f.any (fun f => precodes sh f l.dfe)) sh.foundWords sh.lanes

/-- LTC_PRECODE for them, by logical lane. -/
def Shroud.precodeMask (sh : Shroud) : Nat :=
  (sh.precodeSet.zip sh.lanes).foldl (fun v p => if p.1 then v + 2 ^ (p.2.logical.getD 0) else v) 0

/-- The minimum eye (R678): its height in mV and its width in 1/64 UI. -/
def minEye (nrz : Bool) : Nat × Nat := if nrz then (50, 20) else (24, 12)

/-- Every eye of the modulation reaches the minimum eye. -/
def eyesMeet (nrz : Bool) (f : EyeFacts) : Bool :=
  let eyes (vs : List Nat) : List Nat := if nrz then [vs.getD 1 0] else (List.range 3).map (fun k => vs.getD k 0)
  (eyes f.v).all ((minEye nrz).1 ≤ ·) && (eyes f.h).all ((minEye nrz).2 ≤ ·)

/-- The smallest eye of the lane's last scan reaches it, in the units of SLN_LN_MARGIN. -/
def Lane.eyeMeets (nrz : Bool) (l : Lane) : Bool := (minEye nrz).1 ≤ 2 * l.eyeV && (minEye nrz).2 ≤ l.eyeH

/-- The CTLE setting with the largest smallest eye, the lowest one where several are equal (R243). -/
def bestCtle (sweep : List Nat) : Nat := sweep.findIdx (fun v => v == sweep.foldl max 0)

/-- Step 3: signal detect and CDR lock. A retired lane counts as having no signal (R649). -/
def checkCdr (t : TrainFacts) (sh : Shroud) : Option (Nat × Nat) × Shroud :=
  let lanes := List.zipWith (fun (l : Lane) (f : LaneFacts) =>
    { l with signal := f.signal && !l.retired, cdrLock := f.signal && f.cdrLock && !l.retired }) sh.lanes t.lanes
  let sh := { sh with lanes := lanes }
  let set := sh.searched
  let missing := if sh.mask = 0 then bitmap (lanes.map (!·.signal)) else sh.mask - bitmap set
  let loose := bitmap (List.zipWith (fun a (l : Lane) => a && !l.cdrLock) set lanes)
  (if set.count true < sh.width then some (0x1, missing) else if loose != 0 then some (0x2, loose) else none, sh)

/-- Step 4: the bit-slip search. -/
def checkAlign (t : TrainFacts) (sh : Shroud) : Option (Nat × Nat) × Shroud :=
  let u := sh.units
  let note (l : Lane) (a : Bool) (f : Option Found) : Lane :=
    if !a then l
    else match f with
      | some f => { l with foundSlip := some (f.index % u), candidates := sat 8 (f.index + 1), form := if f.inverted then 2 else 1,
                           blockLock := true, slip := f.index % u, word := some f.word }
      | none => { l with candidates := sat 8 (3 * u) }
  let set := sh.searched
  let found := sh.foundOn t
  let lost := bitmap (List.zipWith (fun a (f : Option Found) => a && f.isNone) set found)
  let tries := found.map (fun f => match f with | some f => f.index / u + 1 | none => 0)
  (if lost != 0 then some (0x3, lost) else none,
   { sh with lanes := List.zipWith (fun l p => note l p.1 p.2) sh.lanes (set.zip found),
             passes := if lost != 0 then 3 else tries.foldl max 0 })

/-- Step 5: lane map, polarity and deskew. -/
def checkIdent (t : TrainFacts) (sh : Shroud) : Option (Nat × Nat) × Shroud :=
  let found := sh.foundWords
  let delays := ((sh.searched.zip t.lanes).filter (·.1)).map (fun p => p.2.delay)
  let first := (leastBy id delays).getD 0
  let skew := delays.foldl max 0 - first
  let late := faulty sh t (fun f => decide (8 * sh.units < f.delay - first))
  let idBad := wordsBad found (fun _ f => laneIdBad sh found f)
  let gone := !(List.range sh.width).all (fun k => found.any (fun f => f.any (fun f => f.logical == k)))
  let bondBad := wordsBad found (fun _ f => (f.word.getD 2 0).toNat != sh.bond)
  let strict := wordsBad found (fun k f => (sh.flag 1 && f.logical != k) || (sh.flag 2 && f.inverted))
  if idBad != 0 || gone then (some (0x4, idBad), sh)
  else if bondBad != 0 then (some (0x5, bondBad), sh)
  else if 8 * sh.units < skew then (some (0x6, late), { sh with skew := skew })
  else if strict != 0 then (some (0xA, strict), { sh with skew := skew })
  else
    let lanes := List.zipWith (fun (l : Lane) (f : Option Found) =>
      { l with logical := f.map Found.logical, inverted := f.any (·.inverted) }) sh.lanes found
    (none, { sh with skew := skew, lanes := lanes, anyInverted := lanes.any (·.inverted),
                     permuted := (numbered lanes).any (fun p => p.2.logical.any (· != p.1)) })

/-- Step 7, and the decision of step 8 that can fail: equalisers, and a lane that must precode and cannot. -/
def checkEq (t : TrainFacts) (sh : Shroud) : Option (Nat × Nat) × Shroud :=
  let fixed := sh.flag 3
  let lanes := List.zipWith (fun (l : Lane) (p : Bool × LaneFacts) =>
    if !p.1 then l
    else { l with ctle := if fixed then fld sh.ent 14 1 else bestCtle p.2.sweep, ffePre := if fixed then 0 else p.2.ffePre,
                  ffePost := if fixed then 0 else p.2.ffePost, dfe := p.2.dfe }) sh.lanes (sh.searched.zip t.lanes)
  let sh := { sh with lanes := lanes }
  let closed := faulty sh t (fun f => !eyesMeet sh.nrz f.eyes || decide (2000 < f.eqMicros))
  let cannot := if fld sh.ent 6 1 = 1 then wordsBad sh.foundWords (fun _ f => !f.capable) else 0
  (if closed != 0 then some (0x8, closed) else if cannot != 0 then some (0xA, cannot) else none, sh)

/-- What the state that a shroud is in asks before the next one: the failure of R248 with the lanes at fault, and the shroud with
what was found. -/
def trainCheck (t : TrainFacts) (sh : Shroud) : Option (Nat × Nat) × Shroud :=
  let headers (set : List Bool) (n : LaneFacts → Nat) : Option (Nat × Nat) :=
    let bad := bitmap (List.zipWith (fun a f => a && decide (n f < 64)) set t.lanes)
    if bad != 0 then some (0x7, bad) else none
  match sh.st with
  | .cdr => checkCdr t sh
  | .align => checkAlign t sh
  | .ident => checkIdent t sh
  | .scramble => (headers sh.searched (·.headers), sh)
  | .eq => checkEq t sh
  | .precode =>
    let pre := sh.precodeSet
    (if pre.any id then headers sh.searched (·.preHeaders) else none,
     { sh with lanes := List.zipWith (fun (l : Lane) p => { l with precodes := p }) sh.lanes pre })
  | _ => (none, sh)

/-- The lane-control registers written as a state is entered (R238, R246). -/
def trainWrites (sh : Shroud) : ShroudSt → List (Nat × Nat)
  | .cdr => [(0xF004, fld sh.ent 4 1 * 2 ^ 15 + fld sh.ent 8 4), (0xF006, widthCode sh.width), (0xF008, 0), (0xF002, 1)]
  | .scramble => [(0xF002, 2)]
  | .precode => if sh.precodeMask = 0 then [] else [(0xF008, sh.precodeMask)]
  | .active => [(0xF002, 3)]
  | _ => []

/-- The states of R246 after QUIET, in order. -/
def trainStates : List ShroudSt := [.cdr, .align, .ident, .scramble, .eq, .precode, .active]

/-- States beyond QUIET. -/
def ShroudSt.trainStep : ShroudSt → Nat
  | .cdr => 1 | .align => 2 | .ident => 3 | .scramble => 4 | .eq => 5 | .precode => 6 | .active => 7 | _ => 0

/-- How far a training has come: the shroud, the registers written, the failure, the register of a refused write, and whether the
lane map or the polarity was corrected. -/
structure TrainRun where
  sh        : Shroud
  writes    : List (Nat × Nat)
  fail      : Option (Nat × Nat)
  refused   : Option Nat
  corrected : Bool
deriving DecidableEq, Repr

/-- Training runs through a list of states up to the first failure (R246, R248). -/
def trainRun (t : TrainFacts) : List ShroudSt → TrainRun → TrainRun
  | [], r => r
  | st :: rest, r =>
    let (bad, sh) := trainCheck t r.sh
    let mended := r.sh.st == .ident && bad.isNone && (sh.permuted || sh.anyInverted)
    let r := { r with sh := sh, corrected := r.corrected || mended }
    match bad with
    | some f => { r with fail := some f }
    | none =>
      let ws := trainWrites sh st
      match t.noAck.bind (fun k => if r.writes.length ≤ k then ws[k - r.writes.length]? else none), t.noAck with
      | some w, some k =>
        { r with writes := r.writes ++ ws.take (k - r.writes.length), fail := some (0x9, 0), refused := some w.1 }
      | _, _ => trainRun t rest { r with sh := { sh with st := st }, writes := r.writes ++ ws }

/-- The run of a training, or of a part of one, from where the shroud is. -/
def Shroud.train (sh : Shroud) (t : TrainFacts) : TrainRun :=
  trainRun t ((trainStates.take t.upTo).drop sh.st.trainStep) { sh := sh, writes := [], fail := none, refused := none, corrected := false }

/-- A trained shroud: a lane that carries no logical lane is unpowered (R222). -/
def Shroud.up (sh : Shroud) (micros : Nat) (t : Nanos) : Shroud :=
  { sh with failReason := 0, trainUs := micros, trainTbm := none, rxTbm := t,
            lanes := sh.lanes.map (fun l => if l.logical.isSome then l else l.unpowered) }

/-- A training has run (R246, R260). -/
def State.trainShroud (s : State) (n : Nat) (t : TrainFacts) : State :=
  let x := (s.shroud n).sensorOf
  let r := (s.shroud n).train t
  let at_ := if r.writes.contains (0xF002, 1) then some s.now else r.sh.trainAt
  let s := s.updShroud n fun _ => { r.sh with trainAt := at_ }
  let s := each r.writes (fun w s => s.ltc x w.1 w.2) s
  let s := if r.corrected then
      s.raise 0x0305 (srcShroud n) (le 8 (packNibbles r.sh.lmap) ++ le 2 (bitmap (r.sh.lanes.map (·.inverted))))
    else s
  match r.fail with
  | some (reason, lanes) =>
    let s := match r.refused with
      | some reg =>
        let (k, s) := s.pick 4
        s.scpFault x (k + 1) (s.sensor x).address reg true
      | none => s
    (s.updShroud n fun y => { y with trainUs := t.micros }).failShroud n reason lanes
  | none =>
    if r.sh.st = .active then
      let s := s.updShroud n fun y => y.up t.micros s.now
      let s := s.raise 0x0301 (srcShroud n) (le 4 t.micros ++ le 1 x ++ le 1 (r.sh.lanes.filter (·.precodes)).length)
      s.finishAll 0x0301 n stOk [] none
    else s

/-- A training that has begun can go on: the sensor's rails are up and its port is on. -/
def State.mayTrain (s : State) (n : Nat) : Bool :=
  let sh := s.shroud n
  let x := s.sensor sh.sensorOf
  sh.entry.isSome && sh.trainTbm.isSome && x.railsUp && x.portState != 0

/-- The training timeout of a shroud in ms (R254). -/
def Shroud.timeoutMs (sh : Shroud) : Nat := if fld sh.ent 16 4 = 0 then 100 else fld sh.ent 16 4

/-- The training timeout has expired before the training comes to its end: by the time that the training took, or by TBM. -/
def State.trainLate (s : State) (n : Nat) (t : TrainFacts) : Bool :=
  let sh := s.shroud n
  decide (1000 * sh.timeoutMs < t.micros) || sh.trainTbm.any (fun x => decide (x + ms sh.timeoutMs ≤ s.now))

/-- The training fails with TIMEOUT (R248). -/
def State.trainTimeout (s : State) (n micros : Nat) : State := (s.updShroud n fun x => { x with trainUs := micros }).failShroud n 0xB 0

/-- Microseconds since LTC_STATE = TRAIN was written, 0 before. -/
def State.trainMicros (s : State) (n : Nat) : Nat := ((s.shroud n).trainAt.map (fun t => (s.now - t) / 1000)).getD 0

def execShroudTrain (shroud : Nat) (t : TrainFacts) (s : State) : Host.Outcome State Fault Refusal :=
  .next (if !s.mayTrain shroud then s
    else if s.trainLate shroud t then s.trainTimeout shroud (max (s.trainMicros shroud) (min t.micros (1000 * (s.shroud shroud).timeoutMs)))
    else s.trainShroud shroud t)

/-- The timeout runs from the start of the training, in QUIET too (R246, R248). -/
def execShroudTrainTimeout (shroud : Nat) (s : State) : Host.Outcome State Fault Refusal :=
  let sh := s.shroud shroud
  .next (match sh.trainTbm with
    | some t =>
      if decide (t + ms sh.timeoutMs ≤ s.now) then s.trainTimeout shroud (s.trainMicros shroud) else s
    | none => s)

/-! ## Live lanes (R249–R253) -/

/-- The probation error "link loss" of a shroud, for each affected context bound to its sensor (R175). -/
def State.linkLossInProbation (s : State) (n : Nat) : State :=
  each (s.ctxsOf (s.shroud n).sensorOf) (fun c s => s.probationFail 5 c) s

/-- A loopback that a host asked for ends with the shroud's relock or retraining: SELFTEST_FAILED with the bits and errors counted
so far (R249). Where a command ends it that does not bring them they are free (assumption 2). -/
def State.endLoopback (s : State) (n : Nat) (counted : Option (Nat × Nat)) : State :=
  if (s.shroud n).st != .test || (s.executing 0x0303 n).isEmpty then s
  else
    let (b, s) := s.drawNat
    let (e, s) := s.drawNat
    let r := counted.getD (b, e)
    (s.updShroud n fun x => { x with testLane := none }).finishAll 0x0303 n stSelftestFailed (le 8 r.1 ++ le 4 (sat 32 r.2)) none

/-- Lanes that carry logical lanes and have no block lock. -/
def Shroud.unlocked (sh : Shroud) : List Nat :=
  (numbered sh.lanes).filterMap (fun p => if p.2.logical.isSome && !p.2.blockLock then some p.1 else none)

/-- Bitmap of a set of lanes. -/
def laneBits (ls : List Nat) : Nat := (ls.map (fun k => 2 ^ k)).sum

/-- A lane after its search on live traffic in `tries` offsets of `u`: locked at the one found, or none found (R250, R259). -/
def Lane.reSearched (u : Nat) (found : Option Nat) (tries : Nat) (l : Lane) : Lane :=
  match found with
  | some i => { l with blockLock := true, cdrLock := true, slip := (l.slip + i) % u, foundSlip := some ((l.slip + i) % u),
                       candidates := sat 8 (i + 1) }
  | none => { l with foundSlip := none, candidates := sat 8 tries }

/-- The search on live traffic: a candidate is taken after 64 consecutive valid sync headers; map and polarity are kept (R250). A
lane that does not find its boundary leaves the shroud in RELOCK, and a search of more than 10 ms fails it. -/
def State.relocked (s : State) (n : Nat) (f : RelockFacts) : State :=
  let sh := s.shroud n
  let u := sh.units
  let hit (k : Nat) : Option Nat :=
    let runs := (f.runs.getD k []).take (3 * u)
    if runs.any (64 ≤ ·) then some (runs.findIdx (64 ≤ ·)) else none
  let ls := sh.unlocked
  let found := ls.map hit
  let tries := found.map (fun i => match i with | some i => i / u + 1 | none => 3)
  let s := s.updShroud n fun x =>
    { x with passes := if ls.isEmpty then x.passes else tries.foldl max 0,
             lanes := (numbered x.lanes).map (fun p => if ls.contains p.1 then p.2.reSearched u (hit p.1) (3 * u) else p.2) }
  if 10000000 < f.ns then s.failShroud n 0xC (laneBits ls)
  else if found.any (·.isNone) then s
  else (s.updShroud n fun x => { x with st := .active, rxTbm := s.now }).raise 0x0304 (srcShroud n) (le 4 f.ns)

/-- Entry to RELOCK from ACTIVE or TEST, or to FAILED at the fourth within 1 s; and the outcome of the search, when it is known
(R249, R250). `cdr` is a lane whose CDR has lost its lock. -/
def State.enterRelock (s : State) (n : Nat) (ls : List Nat) (cdr : Option Nat) (counted : Option (Nat × Nat))
    (relock : Option RelockFacts) : State :=
  let sh := s.shroud n
  let s := (s.endLoopback n counted).noteReceived n
  let recent := sh.relockTbm.filter (fun t => s.now < t + sec 1)
  let gone := nub (ls ++ cdr.toList)
  let lose (k : Nat) (l : Lane) : Lane :=
    if gone.contains k then
      { l with blockLock := false, cdrLock := l.cdrLock && cdr != some k, lockLoss := satInc 16 l.lockLoss, foundSlip := none,
               candidates := 0 }
    else l
  let s := s.updShroud n fun x =>
    { x with st := .relock, relocks := satInc 8 x.relocks, relockTbm := s.now :: recent, testLane := none, deskewRun := false, passes := if gone.isEmpty then x.passes else 0,
             lanes := (numbered x.lanes).map (fun p => lose p.1 p.2) }
  let s := s.raise 0x0303 (srcShroud n) (le 2 (laneBits gone) ++ le 6 0 ++ le 8 (s.now / 1000000000))
  let s := (s.linkLost sh.sensorOf).linkLossInProbation n
  if 3 ≤ recent.length then s.failShroud n 0xC (laneBits gone)
  else match relock with
    | some f => s.relocked n f
    | none => s

/-- Lanes have lost lock. The lane under loopback is left out in TEST; outside ACTIVE and TEST nothing comes of it but the search
of a shroud that is in RELOCK (R249). -/
def State.lockLost (s : State) (n : Nat) (lanes : BitVec 16) (f : LockLoss) : State :=
  let sh := s.shroud n
  if sh.st = .relock then
    match f.relock with
    | some r => s.relocked n r
    | none => s
  else if sh.st != .active && sh.st != .test then s
  else
    let spared (k : Nat) : Bool := sh.testLane == some k
    let zero := (numbered sh.lanes).findSome? (fun p => if p.2.logical == some 0 && !spared p.1 then some p.1 else none)
    let cdr := if f.cdr then zero else none
    let ls := (List.range 16).filter (fun k => lanes.getLsbD k && !spared k)
    if ls.isEmpty && cdr.isNone then s else s.enterRelock n ls cdr (some (f.bits, f.errors)) f.relock

/-- A search whose end no command has brought: how many offsets it has tried is free (R259; assumption 2). -/
def State.drawSearch (s : State) (n : Nat) : State :=
  each (s.shroud n).unlocked (fun k s =>
    if ((s.shroud n).lanes.getD k Lane.reset).candidates != 0 then s
    else
      let (v, s) := s.pick 256
      let (p, s) := s.pick 3
      s.updShroud n fun x =>
        { x with passes := max x.passes (p + 1), lanes := upd x.lanes k (fun l => { l with foundSlip := none, candidates := v }) }) s

/-- 10 ms of RELOCK have passed (R250). -/
def State.relockTimeout (s : State) (n : Nat) : State :=
  let sh := s.shroud n
  if sh.st = .relock && sh.relockTbm.head?.any (fun t => t + ms 10 ≤ s.now) then (s.drawSearch n).failShroud n 0xC (laneBits sh.unlocked)
  else s

/-- In ACTIVE the DFE taps go on tracking unless DFE_FREEZE is set; where they come to lie is free within their range (R242, R244;
assumption 2). -/
def State.trackDfe (s : State) (n : Nat) : State :=
  if (s.shroud n).st != .active || (s.shroud n).flag 0 then s
  else each (List.range 16) (fun k s =>
    if ((s.shroud n).lanes.getD k Lane.reset).logical.isNone then s
    else
      let (v, s) := s.pick 129
      s.updShroud n fun x => { x with lanes := upd x.lanes k (fun l => { l with dfe := (v : Int) - 64 }) }) s

/-- The states in which the sensor sends scrambled blocks: outside training words. -/
def Shroud.scrambled (sh : Shroud) : Bool := [ShroudSt.scramble, .eq, .precode, .active, .relock, .test].contains sh.st

/-- The ALIGN blocks of one period (R236, R237): the precoder flags of the logical lanes, which act in PAM4 alone (R230), and a
period out of step, two of which in a row send the shroud to RELOCK. -/
def State.alignPeriod (s : State) (n : Nat) (p : AlignPeriod) (precode : BitVec 16) : State :=
  let sh := s.shroud n
  let inStep := p.inStep
  if !sh.scrambled then s
  else
    let s := s.updShroud n fun x =>
      { x with lanes := x.lanes.map (fun l => match l.logical with
                 | some k => { l with precodes := precode.getLsbD k && !sh.nrz }
                 | none => l),
               deskewErr := if inStep then x.deskewErr else satInc 16 x.deskewErr, deskewRun := !inStep }
    let s := s.trackDfe n
    if !inStep && sh.deskewRun && (sh.st == .active || sh.st == .test) then s.enterRelock n [] none (some (p.bits, p.errors)) none
    else s

def Loc.ofLane (n lane : Nat) : Loc := { Loc.none with kind := 2, unit := n, sub := lane }

/-- Invalid sync headers of a lane within 1 ms. More than 64 are a burst: the event once per second per shroud, the log entry
whenever the lane has had none logged for 1 s (R251). -/
def State.hdrErrBurst (s : State) (n lane count : Nat) : State :=
  let sh := s.shroud n
  if sh.st == .off || sh.st == .quiet || 16 ≤ lane then s
  else
    let l := sh.lanes.getD lane Lane.reset
    let setLane (s : State) (f : Lane → Lane) : State := s.updShroud n fun x => { x with lanes := upd x.lanes lane f }
    let s := setLane s (fun l => { l with hdrErr := l.hdrErr + BitVec.ofNat 32 count })
    if count ≤ 64 then s
    else
    let s := s.raiseLimited sh.lastBurstEvent (sec 1) 0x0306 (srcShroud n) (le 4 lane ++ le 4 count)
      (fun t s => s.updShroud n fun x => { x with lastBurstEvent := t })
    if s.mayRaise l.burstTbm (sec 1) then
      (setLane s (fun l => { l with burstTbm := some s.now })).logError 2 (Loc.ofLane n lane) { detail := count, ctx := ((s.ctxsOf sh.sensorOf).head?).getD 0xFF } else s

def execRelockTimeout (shroud : Nat) (s : State) : Host.Outcome State Fault Refusal := .next (s.relockTimeout shroud)

def execSlHdrErrBurst (shroud lane count : Nat) (s : State) : Host.Outcome State Fault Refusal :=
  .next (s.hdrErrBurst shroud lane count)

/-- The lane layer drops a control block of an unused type (R229). -/
def execBadControl (shroud : Nat) (s : State) : Host.Outcome State Fault Refusal :=
  .next (if (s.shroud shroud).scrambled then
    s.updShroud shroud fun x => { x with badControl := satInc 16 x.badControl } else s)

/-! ## Eye scans and loopback (R252, R258) -/

/-- Every 10 s a scan starts on each lane of each ACTIVE shroud. -/
def execPeriodicEyeScan (s : State) : Host.Outcome State Fault Refusal :=
  .next { s with shrouds := s.shrouds.map (fun sh =>
    if sh.st = .active then
      { sh with lanes := sh.lanes.map (fun l => if l.logical.isSome then { l with scanning := true } else l) }
    else sh) }

/-- The eyes of the modulation: all three in PAM4, the middle one in NRZ. -/
def eyesOf (nrz : Bool) (vs : List Nat) : List Nat := if nrz then [vs.getD 1 0] else vs.take 3

/-- The 16 result bytes of R258. -/
def eyeResult (nrz : Bool) (f : EyeFacts) : List Byte :=
  let k (vs : List Nat) (i : Nat) : Nat := if nrz && i != 1 then 0 else vs.getD i 0
  le 1 (k f.h 0) ++ le 1 (k f.h 1) ++ le 1 (k f.h 2) ++ le 1 0 ++ le 2 (k f.v 0) ++ le 2 (k f.v 1) ++ le 2 (k f.v 2)

def leastOf (vs : List Nat) : Nat := (leastBy id vs).getD 0

/-- A scan of a lane has ended: SLN_LN_MARGIN, and the command that asked for it. -/
def State.eyeDone (s : State) (n lane : Nat) (f : EyeFacts) : State :=
  let sh := s.shroud n
  if !(sh.lanes.getD lane Lane.reset).scanning then s
  else
    let s := s.updShroud n fun x => { x with lanes := upd x.lanes lane (fun l =>
      { l with scanning := false, scanTbm := some s.now, eyeH := sat 8 (leastOf (eyesOf sh.nrz f.h)),
               eyeV := sat 8 (leastOf (eyesOf sh.nrz f.v) / 2) }) }
    s.finishAll 0x0302 (16 * n + lane) stOk (eyeResult sh.nrz f) none

def execEyeScanDone (shroud lane : Nat) (f : EyeFacts) (s : State) : Host.Outcome State Fault Refusal :=
  .next (s.eyeDone shroud lane f)

/-- The duration of a host's loopback has passed: OK, or SELFTEST_FAILED with errors (R257). -/
def State.loopbackDone (s : State) (n bits errors : Nat) : State :=
  let sh := s.shroud n
  match sh.testLane with
  | none => s
  | some l =>
    if sh.st != .test || (s.executing 0x0303 n).isEmpty then s
    else
      let s := s.updShroud n fun x =>
        { x with st := .active, rxTbm := s.now, testLane := none, lanes := upd x.lanes l (fun y => { y with prbsErr := sat 32 errors }) }
      s.finishAll 0x0303 n (if errors = 0 then stOk else stSelftestFailed) (le 8 bits ++ le 4 (sat 32 errors)) none

def execLoopbackEnd (shroud bits errors : Nat) (s : State) : Host.Outcome State Fault Refusal :=
  .next (s.loopbackDone shroud bits errors)

/-! ## Commands 0x0301 to 0x0304 (R257) -/

/-- The ARMED generation changes, adds or removes the entry that the LIVE one gives the shroud. -/
def State.armedChanges (s : State) (n : Nat) : Bool :=
  match s.cfg.armed with
  | none => false
  | some g => genShroud (some g) n != genShroud s.cfg.live n

def formSlRetrain : Form := { op := 0x0301, lo := 4, hi := 4, reserved := [(2, 2)], reservedBits := [(1, 1, 0xFE)] }

def slRetrainBody (c : Cmd) (s : State) : State :=
  let n := fld c.payload 0 1
  let force := fld c.payload 1 1
  if (genShroud s.cfg.live n).isNone then s.badField c 0
  else if s.armedChanges n || (force = 0 && s.sensorCaptures (s.shroud n).sensorOf) then s.fail c stBusy
  else
    let capturing := s.sensorCaptures (s.shroud n).sensorOf
    let s := (s.accept c n []).endLoopback n none
    let s := s.startTraining n
    if capturing then s.linkLossInProbation n else s

def formSlEyeScan : Form := { op := 0x0302, lo := 4, hi := 4, reserved := [(2, 2)] }

/-- The lane named by a command carries a logical lane. -/
def State.laneMapped (s : State) (n lane : Nat) : Bool :=
  match (s.shroud n).lanes[lane]? with
  | some l => l.logical.isSome
  | none => false

def slEyeScanBody (c : Cmd) (s : State) : State :=
  let n := fld c.payload 0 1
  let lane := fld c.payload 1 1
  if (genShroud s.cfg.live n).isNone then s.badField c 0
  else if !s.laneMapped n lane then s.badField c 1
  else (s.updShroud n fun x => { x with lanes := upd x.lanes lane (fun l => { l with scanning := true }) }).accept c
    (16 * n + lane) []

def execSlEyeScan (b : Mbox) (s : State) : Host.Outcome State Fault Refusal := .next (s.take b formSlEyeScan slEyeScanBody)

def formSlLoopback : Form := { op := 0x0303, lo := 8, hi := 8, reserved := [(2, 2)] }

def slLoopbackBody (c : Cmd) (s : State) : State :=
  let n := fld c.payload 0 1
  let lane := fld c.payload 1 1
  let us := fld c.payload 4 4
  if (genShroud s.cfg.live n).isNone then s.badField c 0
  else if !s.laneMapped n lane then s.badField c 1
  else if us < 2 || 1000000 < us then s.badField c 4
  else if (s.shroud n).st != .active || s.sensorCaptures (s.shroud n).sensorOf then s.fail c stBusy
  else ((s.noteReceived n).updShroud n fun x => { x with st := .test, testLane := some lane }).accept c n [lane, us]

def execSlLoopback (b : Mbox) (s : State) : Host.Outcome State Fault Refusal := .next (s.take b formSlLoopback slLoopbackBody)

def formSlTrainLog : Form := { op := 0x0304, mgmt := true, lo := 4, hi := 4, reserved := [(1, 3)] }

/-- The response of R259. -/
def Shroud.trainLog (sh : Shroud) : List Byte :=
  le 1 sh.st.code ++ le 1 sh.failReason ++ le 1 sh.passes ++ le 1 0 ++ le 4 sh.trainUs ++
    (sh.lanes.map (fun l =>
      le 1 (l.foundSlip.getD 0xFF) ++ le 1 l.candidates ++ le 1 l.form ++ le 1 (l.logical.getD 0xFF) ++ le 1 l.ctle ++
        leInt 1 l.dfe ++ le 2 0)).flatten

def slTrainLogBody (c : Cmd) (s : State) : State :=
  let n := fld c.payload 0 1
  if (genShroud s.cfg.live n).isNone then s.badField c 0
  else s.reply c stOk [] (some (s.shroud n).trainLog)

def execSlTrainLog (b : Mbox) (s : State) : Host.Outcome State Fault Refusal := .next (s.take b formSlTrainLog slTrainLogBody)

/-! ## Sensor control ports (R280–R284, R288, R289) -/

/-- The SENSOR_SET entry of a generation for a sensor. -/
def genSensor (g : Option Gen) (n : Nat) : Option (List Byte) :=
  match g with
  | none => none
  | some g =>
    let p := (payloadIn g.blocks 0x0202 globalTarget).getD []
    (entriesFrom p 8 16 (fld p 0 4)).find? (fun e => fld e 0 1 == n)

def formScpRead : Form := { op := 0x0320, mgmt := true, lo := 8, hi := 8, reserved := [(6, 2)] }
def formScpWrite : Form := { op := 0x0321, lo := 10, hi := 8200, lens := .entries 2 2 1 4096 8 2, reserved := [(6, 2)] }

/-- The firmware's range at the configured sensor's address (R238, R283). -/
def State.scpLocked (s : State) (sensor addr reg count : Nat) : Bool :=
  (addr == 0 || addr == (s.sensor sensor).address) && reg ≤ 0xF0FF && 0xF000 ≤ reg + 2 * count - 1 &&
    !(s.shroudsOf sensor).isEmpty

/-- One transfer of a host: it waits for the port, one that is off included (R66), fails, or ends with its data (R284). -/
def State.scpTransfer (s : State) (c : Cmd) (write : Bool) (f : ScpFacts) : State :=
  let p := c.payload
  let n := fld p 0 1
  let count := fld p 2 2
  let reg := fld p 4 2
  let addr := if fld p 1 1 = 0 then (s.sensor n).address else fld p 1 1
  if 16 ≤ n then s.badField c 0
  else if (match genSensor s.cfg.live n with | some e => fld e 1 1 == 0 | none => true) then s.badField c 0
  else if 128 ≤ fld p 1 1 then s.badField c 1
  else if count = 0 || 4096 < count then s.badField c 2
  else if write && s.scpLocked n (fld p 1 1) reg count then s.fail c stLiveLocked
  else if !f.starts || (s.sensor n).portState == 0 then s.updSensor n fun x => { x with scpWait := x.scpWait ++ [(c, s.now)] }
  else if f.failure != 0 then
    let at_ := if f.failure = 2 then f.reached else reg
    (s.scpFault n f.failure addr at_ false).reply c stHwFault
      (le 4 f.failure ++ (if f.failure = 2 then le 2 f.reached else [])) none
  else
    let s := s.updSensor n fun x => { x with portState := 1 }
    if write then (s.out (.scp n addr reg (p.drop 8))).ok c []
    else s.reply c stOk [] (some (fit (2 * count) f.data))

def execScpRead (b : Mbox) (f : ScpFacts) (s : State) : Host.Outcome State Fault Refusal :=
  .next (s.take b formScpRead (fun c s => s.scpTransfer c false f))

def execScpWrite (b : Mbox) (f : ScpFacts) (s : State) : Host.Outcome State Fault Refusal :=
  .next (s.take b formScpWrite (fun c s => s.scpTransfer c true f))

/-- A transfer that could not start within 10 ms. -/
def execScpWaitTimeout (sensor : Nat) (s : State) : Host.Outcome State Fault Refusal :=
  .next (match (s.sensor sensor).scpWait with
    | (c, t) :: rest =>
      let next := s.rungAfter c
      if decide (t + ms 10 ≤ s.now) then ((s.updSensor sensor fun x => { x with scpWait := rest }).fail c stBusy).sweepList next else s
    | [] => s)

end Sys2Proof.Machine
end

