-- ==== Sys2Proof/Machine/Land.lean ====
section
/-! DEFINITION. The line assembler and landing (chapters 08 and 09): frames, slots, lines, triggers, and the tap sums of R343.
What jobs and streams do about a frame stands in Work. -/

namespace Sys2Proof.Machine

open Sys2Proof

/-! ## Slots (R296–R299, R683) -/

/-- The slot after the last one used. -/
def Context.nextSlot (x : Context) : Nat :=
  match x.lastSlot with
  | some k => if x.slotCount = 0 then 0 else (k + 1) % x.slotCount
  | none => 0

/-- STREAM: the first free slot from the next one on, in ring order. -/
def Context.streamSlot (x : Context) : Option Nat :=
  ((List.range x.slotCount).map (fun i => (x.nextSlot + i) % x.slotCount)).find? x.slotFree

/-- A frame is superseded before its Steep jobs have run: the frame after it, whose bands have not run either, has no valid reference
(R335, cause 3). -/
def State.skipReference (s : State) (c : Nat) (q : BitVec 32) : State :=
  let ran := match s.devOf c q with | some d => d.steepEnded != 0 | none => ((s.stp c).records.find q).isSome
  match s.devOf c (q + 1) with
  | none => s
  | some d =>
    if ran || d.steepEnded != 0 || !steepOn d.blk 2 || (d.resetCause != 0 && d.resetCause ≤ 3) then s
    else
      let s : State := { s with dev := s.dev.map (fun e => if e.ctx = c && e.seq = q + 1 then { e with resetCause := 3 } else e) }
      if d.resetCause = 0 then s.updSteep c fun x => { x with resets := x.resets + 1 } else s

/-- The frames in a slot that BURST overwrites: counted, marked, and logged when in use (R21, R301). -/
def State.supersede (s : State) (c k : Nat) : State :=
  let x := s.ctx c
  let hit := x.frames.filter (fun f => x.inSlot k f && !(f.oldRing && f.isFree))
  each hit (fun f s =>
    let s := s.skipReference c f.seq
    let f' : Frame := { f with state := 3, reason := 3, landFlags := setFlag f.landFlags gfSuperseded }
    let inUse := f.jobsPending != 0 || f.reads != 0 || f.creating || f.holds != 0
    let s := s.mapJobs (fun j => if j.ctx == some c && j.frame == f.seq then { j with superseded := true } else j)
    s.updCtx c fun y =>
      { y with frames := y.frames.erase f, counts := upd y.counts 5 (· + 1),
               refusalLog := if inUse then (f' :: y.refusalLog).take 256 else y.refusalLog }) s

/-- The lander has chosen slot k: what was held there is held no longer. -/
def State.takeSlot (s : State) (c k : Nat) : State :=
  s.updCtx c fun x =>
    { x with frames := x.frames.filter (fun f => !x.inSlot k f), lastSlot := some k, slotsWritten := x.slotsWritten + 1,
             wrapped := x.wrapped || decide (x.slotCount ≤ x.slotsWritten + 1) }

/-- The slot of a frame that opens, or none: REFUSED_QUOTA (R298). -/
def State.chooseSlot (s : State) (c mode : Nat) : Option Nat × State :=
  let x := s.ctx c
  if mode = 1 then
    if x.slotCount = 0 then (none, s) else (some x.nextSlot, (s.supersede c x.nextSlot).takeSlot c x.nextSlot)
  else
    let (k, s) := if mode = 0 then (x.streamSlot, s) else s.choose x.freeSlots
    match k with
    | some k => (some k, s.takeSlot c k)
    | none => (none, s)

/-! ## Context of a sensor's virtual channel -/

def State.ctxAt (s : State) (sensor vc : Nat) : Option Nat :=
  (s.ctxsOf sensor).find? (fun c => fld ((s.link c).getD []) 1 1 == vc)

def State.landMode (s : State) (c : Nat) : Nat := fld (s.landBlock c) 0 1

def State.openAt (s : State) (sensor vc : Nat) : Option OpenFrame :=
  (s.sensor sensor).openFrames.find? (fun o => o.vc == vc)

def State.updOpen (s : State) (sensor vc : Nat) (f : OpenFrame → OpenFrame) : State :=
  s.updSensor sensor fun x => { x with openFrames := x.openFrames.map (fun o => if o.vc = vc then f o else o) }

/-! ## Limited events -/

/-- CAP_REFUSING, at most once per second (R325). -/
def State.refusing (s : State) (c : Nat) (flagged : Bool) (seq : BitVec 32) : State :=
  let s := s.updCtx c fun x =>
    { x with refusedSince := x.refusedSince + b2n (!flagged), flaggedSince := x.flaggedSince + b2n flagged,
             latestRefused := seq }
  let x := s.ctx c
  s.raiseLimited x.lastRefusingEvent (sec 1) 0x0405 (srcCtx c)
    (le 4 x.refusedSince ++ le 4 x.flaggedSince ++ le 4 x.latestRefused.toNat)
    (fun t s => s.updCtx c fun y => { y with lastRefusingEvent := t, refusedSince := 0, flaggedSince := 0 })

/-! ## Triggers and freezing (R302–R304) -/

/-- Trigger index of a frame. -/
def trigIndex (seq trig : BitVec 32) : Int := (seq - trig).toInt

/-- Earlier frames that the ring holds of those it still holds at the freeze, with the trigger frame in slot k: they lie in the `room`
slots before it, and landed since the ring last started (R303, R325). -/
def Context.earlierHeld (x : Context) (k room : Nat) : Nat :=
  let back (f : Frame) : Nat := (k + x.slotCount - f.slot.getD k) % x.slotCount
  min x.landedSince (x.heldFrames.filter (fun f => 1 ≤ back f && decide (back f ≤ room))).length

/-- Frame q is the trigger frame of a trigger at time t. -/
def State.setTrigger (s : State) (c : Nat) (q : BitVec 32) (t : Nanos) (source fsNs : Nat) : State :=
  let x := s.ctx c
  let p := fld (s.landBlock c) 8 4
  let room := x.slotCount - 1 - p
  let earlier := x.earlierHeld ((x.frames.find? (·.seq == q)).bind (·.slot) |>.getD 0) room
  let short := decide (x.landedSince < room)
  let mark (f : Frame) : Frame :=
    { f with trigIndex := if f.mode = 1 && !f.oldRing then trigIndex f.seq q else f.trigIndex,
             landFlags := if f.seq = q then
                 (if short then setFlag (setFlag f.landFlags gfTrigger) gfShortPre else setFlag f.landFlags gfTrigger)
               else f.landFlags }
  let s := s.updCtx c fun y =>
    { y with st := .postTrigger, trigSeq := some q, trigWait := none, postLeft := p + 1, frames := y.frames.map mark }
  let d : Int := max (min ((t : Int) - fsNs) (2 ^ 31 - 1)) (-(2 ^ 31))
  s.raise 0x0403 (srcCtx c) (le 4 q.toNat ++ le 4 earlier ++ leInt 4 d ++ le 1 source)

/-- A trigger reaches a context; whether it was triggered. Source 0 is a command. -/
def State.trigger (s : State) (c source : Nat) : Bool × State :=
  let x := s.ctx c
  if s.landMode c != 1 || (s.inForce 0x0203 c).isNone then (false, s)
  else match x.st with
    | .stopped => (false, s)
    | .postTrigger | .frozen => (false, s.updCtx c fun y => { y with counts := upd y.counts 6 (· + 1) })
    | .running =>
      match x.frames.find? (fun f => f.state == 0) with
      | some f => (true, s.setTrigger c f.seq s.now source (f.fsTbm / 2 ^ 32))
      | none => (true, s.updCtx c fun y => { y with st := .postTrigger, trigWait := some (s.now, source), postLeft := fld (s.landBlock c) 8 4 + 1 })

/-- The ring freezes (R303, R308). -/
def State.freeze (s : State) (c : Nat) : State :=
  let s := s.updCtx c fun x => { x with st := .frozen, postLeft := 0, trigWait := none, drain := true }
  let seqs := (s.ctx c).heldFrames.map (·.seq)
  let newest := (s.ctx c).nextSeq - 1
  let age (q : BitVec 32) : Nat := (newest - q).toNat
  let oldest := seqs.foldl (fun a q => if age a < age q then q else a) (seqs.headD newest)
  let last := seqs.foldl (fun a q => if age q < age a then q else a) (seqs.headD newest)
  s.raise 0x0404 (srcCtx c) (le 4 seqs.length ++ le 4 oldest.toNat ++ le 4 last.toNat)

/-- The ring starts afresh, by CAP_START or by a re-arm (R306). -/
def Context.afresh (x : Context) : Context :=
  { x with st := .running, landedSince := 0, slotsWritten := 0, wrapped := false, firstNext := true, trigSeq := none,
           postLeft := 0, trigWait := none }

/-- The request of CAP_SNAP ends (R305). -/
def State.snapDone (s : State) (c : Nat) : State :=
  let x := s.ctx c
  (s.updCtx c fun y => { y with snapLeft := 0, snapOpen := 0, snapLanded := 0 }).raise 0x0408 (srcCtx c)
    (le 4 x.snapFirst.toNat ++ le 4 x.snapLanded)

/-- Capture stops at an FS (R294, R305, R308, R169). -/
def State.stopCapture (s : State) (c : Nat) : State :=
  let x := s.ctx c
  let s := s.updCtx c fun y => { y with stopPending := false }
  if x.st == .postTrigger then s.freeze c
  else if x.st == .running then
    let s := (s.updCtx c fun y => { y with st := .stopped }).raise 0x0402 (srcCtx c) (le 4 (x.nextSeq - 1).toNat)
    if x.snapOutstanding then s.snapDone c else s
  else s

/-! ## Pad rows and tiles (R23–R29) -/

/-- One row of a frame's tiles, all pad: 64 sample positions for each tile column. -/
def padRow (w d pad : Nat) : List Byte :=
  let n := tilesX w * 64
  le (8 * d * tilesX w) (pad * ((2 ^ (d * n) - 1) / (2 ^ d - 1)))

/-- Write one row into the tiles of a slot. -/
def State.storeRow (s : State) (master addr w d row : Nat) (bytes : List Byte) : State :=
  each (List.range (tilesX w)) (fun tx s =>
    s.capWrite master (addr + (row / 16 * tilesX w + tx) * 128 * d + row % 16 * 8 * d) (sub bytes (8 * d * tx) (8 * d))) s

/-- Bytes landed since the last tick, for C0 (R191). -/
def State.countLanded (s : State) (n : Nat) : State := s.updLedger fun l => { l with landedBytes := l.landedBytes + n }

/-- Rows of a band inside the frame. -/
def bandRows (h b : Nat) : List Nat := (List.range' (16 * b) 16).filter (· < h)

def OpenFrame.has (o : OpenFrame) (row : Nat) : Bool := o.rowsIn.testBit row || o.rowsPad.testBit row

/-- The lander that a row of a sensor arrives at: line n comes on the shroud of bond index n mod k (R271). -/
def State.landerOf (s : State) (sensor row : Nat) : Nat :=
  let b := s.shroudsOf sensor
  (b.find? (fun n => (s.shroud n).bond == row % b.length)).getD 0

/-- A band is complete: its last rows are filled with pad, and its tag-plane entries are stored (R25, R29). -/
def State.landBand (s : State) (master : Nat) (f : Frame) (b : Nat) : State :=
  let tx := tilesX f.width
  let extra := (List.range' (16 * b) 16).filter (fun r => f.height ≤ r)
  let s := each extra (fun r s => s.storeRow master f.addr f.width f.depth r (padRow f.width f.depth f.pad)) s
  let s := each (List.range tx) (fun i s =>
    let k := b * tx + i
    s.capWrite master (f.tagBase + 4 * k) (le 4 (crc32c (s.capRead (f.addr + k * 128 * f.depth) (128 * f.depth))).toNat)) s
  s.countLanded (extra.length * 8 * f.depth * tx + 4 * tx)

/-- Whether a band of an open frame is complete. -/
def OpenFrame.bandDone (o : OpenFrame) (h b : Nat) : Bool := (bandRows h b).all o.has

/-- A row has its final bytes: write them, and store the band's entries when it is complete. -/
def State.fillRow (s : State) (sensor vc row : Nat) (bytes : List Byte) (asPad : Bool) : State :=
  match s.openAt sensor vc with
  | none => s
  | some o =>
    let h := linkHeight o.link
    let s := s.updOpen sensor vc fun o =>
      if asPad then { o with rowsPad := o.rowsPad ||| 2 ^ row } else { o with rowsIn := o.rowsIn ||| 2 ^ row }
    let o' : OpenFrame := if asPad then { o with rowsPad := o.rowsPad ||| 2 ^ row } else { o with rowsIn := o.rowsIn ||| 2 ^ row }
    let done := o'.bandDone h (row / 16)
    let s := if done then s.updOpen sensor vc fun o => { o with bands := o.bands + 1 } else s
    match o.seq with
    | none => s
    | some q =>
      match s.frame o.ctx q with
      | none => s
      | some f =>
        if !o.lands then s
        else
          let s := (s.storeRow (s.landerOf sensor row) f.addr f.width f.depth row bytes).countLanded (8 * f.depth * tilesX f.width)
          if done then s.landBand (s.landerOf sensor row) f (row / 16) else s

/-! ## The flicker tap (R343) -/

/-- Sum and number of the samples of a line's payload within a column window. -/
def tapLine (payload : List Byte) (d first n : Nat) : Nat × Nat :=
  let v := leNat payload
  let have_ := 8 * payload.length / d
  let cols := (List.range' first n).filter (· < have_)
  ((cols.map (fun c => v / 2 ^ (d * c) % 2 ^ d)).sum, cols.length)

def FlickTap.add (t : FlickTap) (k size sum n : Nat) : FlickTap :=
  let grow (l : List Nat) : List Nat := l ++ List.replicate (size - l.length) 0
  { sums := upd (grow t.sums) k (· + sum), counts := upd (grow t.counts) k (· + n) }

/-- A placed line's contribution to its frame's row profile: one group of p rows. -/
def State.tap (s : State) (c row : Nat) (link payload : List Byte) : State :=
  match s.inForce 0x0305 c with
  | none => s
  | some fk =>
    let p := cfaPeriod ((s.inForce 0x0301 c).getD [])
    let w := linkWidth link
    let n := if fld fk 4 2 = 0 then w - fld fk 2 2 else fld fk 4 2
    let (sum, k) := tapLine payload (linkDepth link) (fld fk 2 2) n
    s.updSteep c fun x => { x with rowTap := x.rowTap.add (row / p) (ceilDiv (linkHeight link) p) sum k }

/-- A row profile or series as entries of 8 bytes: samples in [63:44], their sum in [43:0] (R344). -/
def FlickTap.bytes (t : FlickTap) : List Byte :=
  ((List.zipWith (fun n v => le 8 (n % 2 ^ 20 * 2 ^ 44 + v % 2 ^ 44)) t.counts t.sums)).flatten

/-- The samples as a flicker job reads them: 8 bytes of the count and 8 of the sum, so that a sample of a whole window keeps both. -/
def FlickTap.whole (t : FlickTap) : List Byte := ((List.zipWith (fun n v => le 8 n ++ le 8 v) t.counts t.sums)).flatten

/-- Candidate frequencies of an analysis of n samples at interval t seconds (R347). -/
def flickBins (n : Nat) (t : Rat) (fk : List Byte) : Nat :=
  if n = 0 || t ≤ 0 then 0
  else
    let lo := max ((if fld fk 24 4 = 0 then 40000 else fld fk 24 4 : Nat) / (1000 : Rat)) ((3 / 2) / ((n : Nat) * t))
    let hi := min ((if fld fk 28 4 = 0 then 20000000 else fld fk 28 4 : Nat) / (1000 : Rat)) ((1 / 2) / t)
    if hi ≤ lo then 0 else ((hi - lo) * (2 * (n : Nat) * t)).floor.toNat + 1

/-- One unit of TBM, 2⁻³² ns, in seconds. -/
def tbmTick : Rat := 1 / ((2 ^ 32 * 1000000000 : Nat) : Rat)

/-- The flicker job of a profile or series: its form, T in 2⁻³² ns as a fraction, t_ref on TBM and the first sequence (R346). -/
def State.addFlicker (s : State) (c : Nat) (q : BitVec 32) (gen form tNum tDen tRef : Nat) (first : BitVec 32) (tap : FlickTap)
    (fk : List Byte) : State :=
  let n := tap.counts.length
  let t : Rat := (tNum : Rat) / (tDen : Nat) * tbmTick
  let j : Job :=
    { Job.make .flicker 6 with
      gen := gen, units := [(0x02, ceilDiv (n * flickBins n t fk) 16), (0x01, 8 * n)],
      args := [form, tNum, tDen, tRef, first.toNat, n], data := tap.whole }
  (s.addFrameJob c q j).2

/-- The within-frame profile of a landed frame that the interval selects (R344). -/
def State.rowProfile (s : State) (c : Nat) (f : Frame) (fk core : List Byte) : State :=
  let x := s.stp c
  let k := if fld fk 6 2 = 0 then 8 else fld fk 6 2
  let s := s.updSteep c fun y => { y with frameCounter := y.frameCounter + 1 }
  if x.frameCounter % k ≠ 0 then s
  else
    let p := cfaPeriod core
    let n := ceilDiv f.height p
    let grow (l : List Nat) : List Nat := l ++ List.replicate (n - l.length) 0
    let tap : FlickTap := { sums := grow x.rowTap.sums, counts := grow x.rowTap.counts }
    let rate := fld ((payloadIn f.blocks 0x0203 c).getD []) 12 4
    let line : Nat × Nat := if fld fk 8 4 = 0 then (1000000000000000, rate * f.height) else (fld fk 8 4, 1)
    let s := (s.putRing c .profile f.seq tap.bytes).countLanded (8 * n)
    s.addFlicker c f.seq f.genNumber 0 (p * line.1 * 2 ^ 32) (1000 * line.2) f.fsTbm f.seq tap fk

/-- The across-frame sample of a landed frame; a full series starts its analysis (R345). -/
def State.seriesSample (s : State) (c : Nat) (f : Frame) (fk core : List Byte) : State :=
  let period := (framePeriod ((payloadIn f.blocks 0x0203 c).getD []) * 2 ^ 32).floor.toNat
  let gap := match (s.stp c).lastLanded with
    | some (_, t, _) => decide (2 * period < f.fsTbm - t)
    | none => false
  let s := if gap then s.updSteep c SteepCtx.restartSeries else s
  if f.linkFlags.toNat &&& fld core 24 2 != 0 then s.updSteep c SteepCtx.restartSeries
  else
    let x := s.stp c
    let stride := max 1 (fld fk 16 2)
    let sum := x.strideSum + x.rowTap.sums.sum
    let cnt := x.strideCount + x.rowTap.counts.sum
    let full := (x.seriesFrames + 1) % stride = 0
    let y : SteepCtx :=
      { x with seriesFirst := if x.seriesFrames = 0 then f.seq else x.seriesFirst,
               seriesFirstTbm := if x.seriesFrames = 0 then f.fsTbm else x.seriesFirstTbm, seriesLastTbm := f.fsTbm,
               seriesFrames := x.seriesFrames + 1, strideSum := if full then 0 else sum,
               strideCount := if full then 0 else cnt,
               series := if full then { sums := x.series.sums ++ [sum], counts := x.series.counts ++ [cnt] } else x.series }
    let s := (s.updSteep c fun _ => y).countLanded (if full then 8 else 0)
    if y.series.counts.length < seriesLength fk then s
    else
      let s := s.addFlicker c f.seq f.genNumber 1 ((y.seriesLastTbm - y.seriesFirstTbm) * stride) (max 1 (y.seriesFrames - 1))
        y.seriesFirstTbm y.seriesFirst y.series fk
      s.updSteep c SteepCtx.restartSeries

/-- What a landed frame leaves for Steep: its flicker samples, and what the next frame compares itself with (R335). -/
def State.landedSteep (s : State) (c : Nat) (q : BitVec 32) : State :=
  match s.frame c q with
  | none => s
  | some f =>
    let core := (payloadIn f.blocks 0x0301 c).getD []
    let s := match payloadIn f.blocks 0x0305 c with
      | some fk =>
        let s := if bit (fld fk 0 1) 0 then s.rowProfile c f fk core else s
        if bit (fld fk 0 1) 1 then s.seriesSample c f fk core else s
      | none => s
    s.updSteep c fun x => { x with lastLanded := some (f.seq, f.fsTbm, f.linkFlags) }

/-! ## Closing a frame (R272, R275–R277, R299–R303) -/

/-- Worst outcomes of final frames are counted once (R320). -/
def State.countFinal (s : State) (c : Nat) (seq : BitVec 32) : State :=
  let x := s.ctx c
  match (x.frames ++ x.refusalLog).find? (fun f => f.seq == seq) with
  | none => s
  | some f =>
    if f.closed && f.jobsPending == 0 && !f.creating && f.hasOutcome && !f.finalCounted then
      (s.updFrame c seq (fun f => { f with finalCounted := true })).updCtx c fun y =>
        { y with counts := upd y.counts (7 + owOutcome f.outcome) (· + 1) }
    else s

/-- A frame that a context opened at or after its apply point has landed (R174). -/
def State.probationLanded (s : State) (c opened : Nat) : State :=
  let count (x : Landed) : Landed :=
    if x.ctx == c && decide (x.sinceTbm ≤ opened) then { x with frames := x.frames + 1, captured := true } else x
  (s.updCfg fun x => { x with probation := x.probation.map (fun p => { p with landed := p.landed.map count }) }).probationCheck

/-- The final link flags of a frame that closes: PADDED_ROWS, SHORT_FRAME and NO_FE. -/
def OpenFrame.finalFlags (o : OpenFrame) (missing cause : Nat) (h : Nat) : BitVec 32 :=
  let w := if missing != 0 || o.rowsPad != 0 then linkFlag o.flags lfShortFrame else o.flags
  let w := if cause != 0 then linkFlag w lfNoFe else w
  withPadded w (popCount h o.rowsPad + missing)

/-- A FENCE completes: every earlier write of its sources is visible. Writes take effect at once here, so only the count moves (R505). -/
def State.fenceDone (s : State) : State := s.updMem fun m => { m with fences := m.fences + 1 }

/-- The record of a frame that closes, and what its context does about it. A frame that several landers wrote is fenced before its
record is published (R505, DEDUCED; assumption 37). -/
def State.closeRecord (s : State) (o : OpenFrame) (q : BitVec 32) (w : BitVec 32) (cause : Nat) : State :=
  let c := o.ctx
  let mask := fld o.link 10 2
  let x := s.ctx c
  let refuse := o.lands && (w.toNat &&& mask) != 0
  let s := if 2 ≤ (s.shroudsOf (fld o.link 0 1)).length then s.fenceDone else s
  let s := s.updFrame c q fun f =>
    { f with linkFlags := w, closeTbm := s.time.tbm, closeCause := cause, embedBytes := if o.lands then o.embedBytes + o.userBytes else 0,
             state := if !o.lands then f.state else if refuse then 2 else 1,
             reason := if !o.lands then f.reason else if refuse then 2 else 0,
             creating := o.lands && !refuse,
             landFlags := if o.lands && !refuse && mask != 0 then setFlag f.landFlags gfJobsHeld else f.landFlags }
  let s := if hasFlag w 0 then
      s.raiseLimited x.lastFlaggedEvent (sec 1) 0x0311 (srcCtx c) (le 4 w.toNat ++ le 4 o.number.toNat ++ le 1 (b2n refuse))
        (fun t s => s.updCtx c fun y => { y with lastFlaggedEvent := t })
    else s
  let f := s.frame c q
  let snap := o.lands && (match f with | some f => f.mode == 2 | none => false)
  let s := if refuse then
      let s := s.updCtx c fun y =>
        { y with frames := y.frames.filter (fun f => f.seq != q), counts := upd y.counts 3 (· + 1),
                 refusalLog := ((y.frames.filter (fun f => f.seq == q)) ++ y.refusalLog).take 256 }
      s.refusing c true q
    else if o.lands then
      let s := s.updCtx c fun y => { y with counts := upd y.counts 1 (· + 1), landedSince := y.landedSince + 1, firstNext := false }
      (s.landedSteep c q).probationLanded c ((f.map (·.fsTbm)).getD 0 / 2 ^ 32)
    else s
  let s := if snap || (x.snapOpen != 0 && s.landMode c == 2 && !o.lands) then
      let s := s.updCtx c fun y => { y with snapOpen := y.snapOpen - 1, snapLanded := y.snapLanded + b2n (snap && !refuse) }
      if x.snapOutstanding && !(s.ctx c).snapOutstanding then s.snapDone c else s
    else s
  let y := s.ctx c
  match y.trigSeq with
  | some t =>
    if y.st == .postTrigger && (q - t).toInt ≥ 0 then
      let s := s.updCtx c fun z => { z with postLeft := z.postLeft - 1 }
      if (s.ctx c).postLeft = 0 then s.freeze c else s
    else s
  | none => s

/-- The open frame of a virtual channel closes: 0 FE, 1 next FS, 2 timeout, 3 forced apply. -/
def State.closeFrame (s : State) (sensor vc cause : Nat) : State :=
  match s.openAt sensor vc with
  | none => s
  | some o =>
    let h := linkHeight o.link
    let missing := (List.range h).filter (fun r => !o.has r)
    let w := o.finalFlags missing.length cause h
    let row := padRow (linkWidth o.link) (linkDepth o.link) (linkPad o.link)
    let s := each missing (fun r s => s.fillRow sensor vc r row true) s
    let s := s.updSensor sensor fun x =>
      { x with openFrames := x.openFrames.filter (fun y => y.vc != vc),
               lastClosed := if x.lastClosed.contains (vc, o.number) then x.lastClosed else (vc, o.number) :: x.lastClosed,
               shortFrames := if hasFlag w lfShortFrame then satInc 16 x.shortFrames else x.shortFrames,
               flagged := if hasFlag w 0 then satInc 16 x.flagged else x.flagged }
    match o.seq with
    | some q => s.closeRecord o q w cause
    | none => s

/-! ## Opening a frame (R272, R294, R298, R309–R313) -/

/-- A shroud of the context's sensor is in TEST: no frame of the sensor may land meanwhile (R252). -/
def State.sensorInTest (s : State) (c : Nat) : Bool :=
  match s.link c with
  | some p => (s.shroudsOf (fld p 0 1)).any (fun n => (s.shroud n).st == .test)
  | none => false

/-- The stop and start that act at this FS, and a capture whose blocks are gone (R169, R294). A start waits while a loopback runs on a
shroud of the sensor. -/
def State.startStop (s : State) (c : Nat) : State :=
  let x := s.ctx c
  if s.unboundCtx c then (if s.capturing c then s.stopCapture c else s)
  else if x.stopPending then s.stopCapture c
  else if x.startPending && !s.sensorInTest c then
    let s := (s.updCtx c fun y => { y.afresh with startPending := false }).updSteep c SteepCtx.restartSeries
    s.raise 0x0401 (srcCtx c) (le 4 x.nextSeq.toNat)
  else s

/-- REC_STOPs of the context's streams act at this FS: the frame that begins here no longer feeds the take (R468). -/
def State.stopTakes (s : State) (c : Nat) : State :=
  let q := (s.ctx c).nextSeq
  { s with streams := s.streams.map (fun t =>
      if t.stopAtFs && t.stopSeq.isNone && t.isRecord && t.ctxId == c then { t with stopSeq := some q } else t) }

/-- Whether a frame that opens now is given a landing sequence: none in STOPPED, FROZEN, and SNAP without a request. -/
def State.givesSeq (s : State) (c : Nat) : Bool :=
  s.capturing c && (s.landMode c != 2 || (s.ctx c).snapLeft != 0)

/-- A new record; the slot is none for a frame refused at FS. -/
def State.newFrame (s : State) (c : Nat) (number : BitVec 32) (slot : Option Nat) (genReset : Bool) : Frame :=
  let x := s.ctx c
  let link := (s.link c).getD []
  let b := s.ctxBase c
  let unset := (s.base b).st == .off || (s.base b).st == .unset
  { seq := x.nextSeq, number := number, ctx := c, mode := s.landMode c, state := if slot.isSome then 0 else 2,
    reason := if slot.isSome then 0 else 1, slot := slot, addr := (slot.map x.slotAddr).getD 0,
    tagBase := (slot.map (fun k => x.tagBase + k * rawTiles link * 4)).getD 0, genNumber := s.liveNumber, linkFlags := 0,
    landFlags := if unset then setFlag 0 gfBaseUnset else 0, outcome := 0, created := 0, retired := 0,
    hasOutcome := false, trigIndex := if s.landMode c = 1 then (x.trigSeq.map (trigIndex x.nextSeq)).getD 0 else 0, fsTbm := s.time.tbm,
    fsBase := s.baseNow b, closeTbm := 0, timeBase := b, closeCause := 0, embedBytes := 0, width := linkWidth link,
    height := linkHeight link, depth := linkDepth link, pad := linkPad link,
    slotSize := if slot.isSome then x.slotSize else 0,
    blocks := s.cfg.inForce.filter (fun b => contextTypes.contains b.type && b.target == c), jobsPending := 0, reads := 0,
    first := x.firstNext, genReset := genReset, finalCounted := false, creating := slot.isSome, rawMade := false,
    holds := 0, prev := (s.stp c).lastLanded, ranges := s.rangesOf c, oldRing := false }

/-- A frame of a capturing context opens: its landing sequence, slot and record. Answers its sequence and whether it lands. -/
def State.openRecord (s : State) (c : Nat) (number : BitVec 32) (genReset : Bool) : BitVec 32 × Bool × State :=
  let mode := s.landMode c
  let (slot, s) := s.chooseSlot c mode
  let f := s.newFrame c number slot genReset
  let s := s.updCtx c fun x =>
    { x with nextSeq := x.nextSeq + 1, counts := upd x.counts 0 (· + 1),
             snapFirst := if mode = 2 && x.snapOpen = 0 && x.snapLanded = 0 then f.seq else x.snapFirst,
             snapLeft := if mode = 2 then x.snapLeft - 1 else x.snapLeft,
             snapOpen := if mode = 2 then x.snapOpen + 1 else x.snapOpen }
  match slot with
  | some _ =>
    let s := s.updCtx c fun x => { x with frames := x.frames ++ [f] }
    let s := match (s.ctx c).trigWait with
      | some (t, src) => s.setTrigger c f.seq t src (f.fsTbm / 2 ^ 32)
      | none => s
    (f.seq, true, s)
  | none =>
    let s := s.updCtx c fun x => { x with refusalLog := (f :: x.refusalLog).take 256, counts := upd x.counts 2 (· + 1) }
    (f.seq, false, (s.refusing c false f.seq).probationFail 2 c)

/-- An FS that opens a frame: the context's blocks apply, capture starts or stops, and the frame is given its slot. -/
def State.openFrame (s : State) (sensor vc shroud : Nat) (number : BitVec 32) (c : Nat) : State :=
  let (types, s) := s.applyCtx c
  let s := (s.startStop c).stopTakes c
  let s := s.goLive
  if s.ctxAt sensor vc != some c then s
  else
    let link := (s.link c).getD []
    let s := if (s.inForce 0x0305 c).isSome then s.updSteep c fun x => { x with rowTap := { sums := [], counts := [] } } else s
    let o : OpenFrame :=
      { ctx := c, vc := vc, number := number, openTbm := s.now, seq := none, lands := false, fsFrom := [shroud], feFrom := [],
        rowsIn := 0, rowsPad := 0, bands := 0, flags := 0, link := link, embedBytes := 0,
        userBytes := 0 }
    let (o, s) :=
      if s.givesSeq c then
        let (q, lands, s) := s.openRecord c number (types.contains 0x0201 || types.contains 0x0301)
        ({ o with seq := some q, lands := lands }, s)
      else if s.capturing c || (s.ctx c).st == .frozen then
        (o, s.updCtx c fun x => { x with counts := upd x.counts 4 (· + 1) })
      else (o, s)
    let s := s.updSensor sensor fun x => { x with openFrames := x.openFrames ++ [o] }
    if (s.shroudsOf sensor).any (fun n => (s.shroud n).st == .relock || (s.shroud n).st == .failed) then
      s.flagOpen sensor vc lfLinkLost
    else s

/-! ## Packets (R262–R274) -/

/-- A shroud delivers blocks. -/
def State.delivers (s : State) (n : Nat) : Bool := (s.shroud n).entry.isSome && (s.shroud n).st == .active

def State.unbound (s : State) (sensor : Nat) : State := s.updSensor sensor fun x => { x with unbound := satInc 16 x.unbound }

/-- An FS that belongs to the open frame: its number, on a shroud that has not yet delivered one (R272). -/
def OpenFrame.owns (o : OpenFrame) (shroud : Nat) (number : BitVec 32) : Bool := o.number == number && !o.fsFrom.contains shroud

/-- What an FS packet does first: the open frame that it does not belong to closes. -/
def State.fsCloses (s : State) (shroud vc : Nat) (number : BitVec 32) : State :=
  let sensor := (s.shroud shroud).sensorOf
  if !s.delivers shroud || (s.ctxAt sensor vc).isNone then s
  else match s.openAt sensor vc with
    | some o => if o.owns shroud number then s else s.closeFrame sensor vc 1
    | none => s

/-- An FS packet, once the frame before it has closed. -/
def State.fs (s : State) (shroud vc : Nat) (number : BitVec 32) : State :=
  let sensor := (s.shroud shroud).sensorOf
  if !s.delivers shroud then s
  else match s.ctxAt sensor vc with
    | none => s.unbound sensor
    | some c =>
      let s := s.updSensor sensor fun x => { x with lastFs := number }
      match s.openAt sensor vc with
      | some _ => s.updOpen sensor vc fun o => { o with fsFrom := o.fsFrom ++ [shroud] }
      | none => s.openFrame sensor vc shroud number c

def State.stray (s : State) (sensor : Nat) : State := s.updSensor sensor fun x => { x with stray := satInc 8 x.stray }

/-- An FE packet. It is of a closed frame when it carries the number of one and either another number than the open frame's, or comes
from a shroud that has given the open frame no FS (R272; assumption 36). -/
def State.fe (s : State) (shroud vc : Nat) (number : BitVec 32) : State :=
  let sensor := (s.shroud shroud).sensorOf
  if !s.delivers shroud then s
  else if (s.ctxAt sensor vc).isNone then s.unbound sensor
  else match s.openAt sensor vc with
    | none => s.stray sensor
    | some o =>
      let ofClosed := (s.sensor sensor).lastClosed.contains (vc, number) && (number != o.number || !o.fsFrom.contains shroud)
      if o.feFrom.contains shroud || ofClosed then s.stray sensor
      else
        let s := if number != o.number then s.flagOpen sensor vc lfFrameNumber else s
        let s := s.updOpen sensor vc fun o => { o with feFrom := o.feFrom ++ [shroud] }
        if (s.shroudsOf sensor).all (fun n => n == shroud || o.feFrom.contains n) then s.closeFrame sensor vc 0 else s

/-- PAYLOAD_CRC of a long packet: an incomplete one, a trailer mismatch, or an errored block inside (R274). -/
def LongPacketBad (p : LongPacket) : Bool := !p.complete || p.errored || crc32c p.payload != p.trailer

def State.checkPayload (s : State) (sensor : Nat) (p : LongPacket) (line : Bool) : State :=
  if !LongPacketBad p then s
  else
    let s := (s.updSensor sensor fun x => { x with payloadCrc := satInc 16 x.payloadCrc }).flagOpen sensor p.vc lfPayloadCrc
    if line && !p.complete then s.flagOpen sensor p.vc lfShortLine else s

/-- The landing FIFO drains at 102.4 bytes per ns (R317). -/
def State.drainFifo (s : State) (shroud : Nat) : State :=
  s.updShroud shroud fun x =>
    { x with fifoLevel := x.fifoLevel - (s.now - x.fifoTbm) * 1024 / 10, fifoTbm := s.now }

/-- A line of some bytes asks for room in the FIFO: whether it enters (R318). -/
def State.enterFifo (s : State) (shroud c bytes : Nat) : Bool × State :=
  let s := s.drainFifo shroud
  let x := s.shroud shroud
  if 131072 < x.fifoLevel + bytes then
    let recent := s.now :: x.fifoDrops.filter (fun t => s.now < t + sec 1)
    let s := s.updShroud shroud fun y => { y with fifoDropped := satInc 16 y.fifoDropped, fifoDrops := recent }
    let s := s.updCtx c fun y => { y with counts := upd y.counts 15 (· + 1) }
    let s := s.raiseLimited x.lastFifoOverflow (sec 1) 0x0407 (srcShroud shroud) (le 4 recent.length ++ le 1 c)
      (fun t s => s.updShroud shroud fun y => { y with lastFifoOverflow := t })
    (false, s)
  else
    let level := x.fifoLevel + bytes
    let s := s.updShroud shroud fun y => { y with fifoLevel := level, fifoPeak := max y.fifoPeak level }
    if 98304 < level then
      (true, s.raiseLimited x.lastFifoHigh (sec 1) 0x0406 (srcShroud shroud) (le 4 level)
        (fun t s => s.updShroud shroud fun y => { y with lastFifoHigh := t }))
    else (true, s)

/-- Rows below m − 64 that have not arrived are filled (R273). -/
def State.fillWindow (s : State) (sensor vc m : Nat) : State :=
  match s.openAt sensor vc with
  | none => s
  | some o =>
    let row := padRow (linkWidth o.link) (linkDepth o.link) (linkPad o.link)
    each ((List.range (m - 64)).filter (fun r => !o.has r)) (fun r s => s.fillRow sensor vc r row true) s

/-- A line packet of an open frame is placed by its number (R273, R274). -/
def State.placeLine (s : State) (sensor shroud : Nat) (p : LongPacket) (o : OpenFrame) : State :=
  let w := linkWidth o.link
  let d := linkDepth o.link
  let len := lineBytes o.link
  let k := (s.shroudsOf sensor).length
  let flag (s : State) (b : Nat) : State := s.flagOpen sensor p.vc b
  if linkHeight o.link ≤ p.line then flag s lfLongFrame
  else if o.rowsIn.testBit p.line then flag s lfDupLine
  else if o.rowsPad.testBit p.line then flag s lfLateLine
  else
    let s := if k != 0 && (s.shroud shroud).bond != p.line % k then flag s lfMisrouted else s
    let s := if p.payload.length < len then
        flag (s.updSensor sensor fun x => { x with shortLines := satInc 16 x.shortLines }) lfShortLine
      else s
    let s := if len < p.payload.length then
        flag (s.updSensor sensor fun x => { x with longLines := satInc 16 x.longLines }) lfLongLine
      else s
    let data := p.payload.take len
    let (enters, s) := if o.lands then s.enterFifo shroud o.ctx len else (true, s)
    if !enters then
      match o.seq with
      | some q => s.updFrame o.ctx q (fun f => { f with landFlags := setFlag f.landFlags gfFifoOverflow })
      | none => s
    else
      let s := if o.lands then s.tap o.ctx p.line o.link data else s
      let whole := data ++ (padRow w d (linkPad o.link)).drop data.length
      (s.fillRow sensor p.vc p.line whole false).fillWindow sensor p.vc p.line

/-- Markers around a line (R274, MARKER). -/
def State.markerLine (s : State) (sensor shroud : Nat) (p : LongPacket) : State :=
  s.updSensor sensor fun x =>
    let mine (y : Nat × Nat × Nat) : Bool := y.1 == shroud && y.2.1 == p.vc
    { x with marker := if x.lsPending.any (fun y => mine y && y.2.2 != p.line) then satInc 16 x.marker else x.marker,
             lsPending := x.lsPending.filter (fun y => !mine y),
             lastLine := (shroud, p.vc, p.line) :: x.lastLine.filter (fun y => !mine y) }

def State.noFrame (s : State) (sensor : Nat) : State := s.updSensor sensor fun x => { x with noFrame := satInc 8 x.noFrame }

/-- A RAW line packet. -/
def State.line (s : State) (shroud : Nat) (p : LongPacket) : State :=
  let sensor := (s.shroud shroud).sensorOf
  if !s.delivers shroud then s
  else
    let s := s.checkPayload sensor p true
    match s.ctxAt sensor p.vc with
    | none => s.unbound sensor
    | some c =>
      if fld ((s.link c).getD []) 2 1 != p.dataType then s.unbound sensor
      else
        let s := s.markerLine sensor shroud p
        match s.openAt sensor p.vc with
        | none => s.noFrame sensor
        | some o => s.placeLine sensor shroud p o

/-- EMBEDDED or USER bytes go into the embedded area: EMBEDDED in arrival order, then USER (R297). -/
def State.placeEmbedded (s : State) (sensor vc : Nat) (o : OpenFrame) (d : List Byte) (user : Bool) : State :=
  let room := linkEmbed o.link - (o.embedBytes + o.userBytes)
  let fitBytes := d.take room
  let s := if room < d.length then s.flagOpen sensor vc lfEmbedOverflow else s
  let s := s.updOpen sensor vc fun o =>
    if user then { o with userBytes := o.userBytes + fitBytes.length } else { o with embedBytes := o.embedBytes + fitBytes.length }
  match o.seq.bind (s.frame o.ctx) with
  | none => s
  | some f =>
    if !o.lands then s
    else
      let base := f.addr + rawBytes o.link
      let s := s.countLanded fitBytes.length
      if user then s.capWrite (s.landerOf sensor 0) (base + o.embedBytes + o.userBytes) fitBytes
      else
        let old := s.capRead (base + o.embedBytes) o.userBytes
        s.capWrite (s.landerOf sensor 0) (base + o.embedBytes) (fitBytes ++ old)

/-- An EMBEDDED or USER packet. -/
def State.data (s : State) (shroud : Nat) (p : LongPacket) (user : Bool) : State :=
  let sensor := (s.shroud shroud).sensorOf
  if !s.delivers shroud then s
  else
    let s := s.checkPayload sensor p false
    match s.ctxAt sensor p.vc with
    | none => s.unbound sensor
    | some c =>
      if !bit (fld ((s.link c).getD []) 3 1) (b2n user) then s.unbound sensor
      else match s.openAt sensor p.vc with
        | none => s.noFrame sensor
        | some o => s.placeEmbedded sensor p.vc o p.payload user

/-- An LS or LE marker. -/
def State.mark (s : State) (shroud vc line : Nat) (start : Bool) : State :=
  let sensor := (s.shroud shroud).sensorOf
  let mine (y : Nat × Nat × Nat) : Bool := y.1 == shroud && y.2.1 == vc
  if !s.delivers shroud then s
  else if (s.ctxAt sensor vc).isNone then s.unbound sensor
  else if start then s.updSensor sensor fun x => { x with lsPending := (shroud, vc, line) :: x.lsPending.filter (fun y => !mine y) }
  else s.updSensor sensor fun x =>
    { x with marker := if x.lastLine.any (fun y => mine y && y.2.2 != line) then satInc 16 x.marker else x.marker,
             lastLine := x.lastLine.filter (fun y => !mine y) }

/-- A STAT packet: at most 100 events per second per sensor (R290). -/
def State.stat (s : State) (shroud vc : Nat) (value : Word) : State :=
  let sensor := (s.shroud shroud).sensorOf
  if !s.delivers shroud then s
  else if (s.ctxAt sensor vc).isNone then s.unbound sensor
  else
    let recent := (s.sensor sensor).statEvents.filter (fun t => s.now < t + sec 1)
    let s := s.updSensor sensor fun x => { x with lastStat := value }
    if recent.length < 100 then
      (s.updSensor sensor fun x => { x with statEvents := s.now :: recent }).raise 0x0310 sensor (le 4 value.toNat ++ le 1 vc)
    else s

/-- A long packet cut by a control block ends at the units received; it is processed as what it is. -/
def State.cutPacket (s : State) (shroud : Nat) (cut : Option LongPacket) : State :=
  match cut with
  | none => s
  | some p =>
    let p : LongPacket := { p with complete := false }
    if p.dataType = 0x12 then s.data shroud p false
    else if 0x40 ≤ p.dataType && p.dataType ≤ 0x47 then s.data shroud p true
    else s.line shroud p

def State.hdrCrc (s : State) (shroud : Nat) (cut : Option LongPacket) : State :=
  if !s.delivers shroud then s
  else
    let sensor := (s.shroud shroud).sensorOf
    ((s.cutPacket shroud cut).updSensor sensor fun x => { x with hdrCrc := satInc 16 x.hdrCrc }).flagAll sensor lfHeaderLost

def State.badHead (s : State) (shroud : Nat) (cut : Option LongPacket) : State :=
  if !s.delivers shroud then s
  else (s.cutPacket shroud cut).updSensor (s.shroud shroud).sensorOf fun x => { x with badHead := satInc 8 x.badHead }

def execOrphan (shroud : Nat) (s : State) : Host.Outcome State Fault Refusal :=
  .next (if s.delivers shroud then s.updSensor (s.shroud shroud).sensorOf fun x => { x with orphan := x.orphan + 1 } else s)

def execHdrField (shroud : Nat) (s : State) : Host.Outcome State Fault Refusal :=
  .next (if s.delivers shroud then
    s.updSensor (s.shroud shroud).sensorOf fun x => { x with hdrField := satInc 8 x.hdrField } else s)

def execOslStat (shroud vc : Nat) (value : Word) (s : State) : Host.Outcome State Fault Refusal :=
  .next (s.stat shroud vc value)

def execOslLs (shroud vc line : Nat) (s : State) : Host.Outcome State Fault Refusal := .next (s.mark shroud vc line true)

def execOslLe (shroud vc line : Nat) (s : State) : Host.Outcome State Fault Refusal := .next (s.mark shroud vc line false)

/-- The frame timeout of a context's open frame. -/
def State.frameTimeout (s : State) (c cause : Nat) : State :=
  match s.link c with
  | none => s
  | some link =>
    let sensor := fld link 0 1
    let vc := fld link 1 1
    match s.openAt sensor vc with
    | some o => if o.ctx = c then s.closeFrame sensor vc cause else s
    | none => s

/-! ## Records (R310) -/

def Frame.bytes (f : Frame) : List Byte :=
  le 4 f.seq.toNat ++ le 4 f.number.toNat ++ le 1 f.ctx ++ le 1 f.mode ++ le 1 f.state ++ le 1 f.reason ++
    le 4 (f.slot.getD 0xFFFFFFFF) ++ le 8 f.addr ++ le 8 f.tagBase ++ le 4 f.genNumber ++ le 4 f.linkFlags.toNat ++
    le 4 f.landFlags.toNat ++ le 4 f.outcome.toNat ++ le 2 (sat 16 f.created) ++ le 2 (sat 16 f.retired) ++
    leInt 4 f.trigIndex ++ timeField f.fsTbm ++ timeField f.fsBase ++ timeField f.closeTbm ++ le 1 f.timeBase ++
    le 1 f.closeCause ++ le 2 0 ++ le 4 f.embedBytes ++ zeros 16

def Context.record (x : Context) (q : BitVec 32) : Option Frame := (x.frames ++ x.refusalLog).find? (fun f => f.seq == q)

/-- The record of a sequence, or one of state NONE. -/
def Context.recordBytes (x : Context) (c : Nat) (q : BitVec 32) : List Byte :=
  match x.record q with
  | some f => f.bytes
  | none => le 4 q.toNat ++ le 4 0 ++ le 1 c ++ le 1 0 ++ [0xFF] ++ zeros 117

/-! ## Commands of R323 but for those that need Work -/

def State.hasLanding (s : State) (c : Nat) : Bool :=
  match s.cfg.live with
  | some g => (payloadIn g.blocks 0x0203 c).isSome
  | none => false

/-- Contexts of a 64-bit mask, or the status when one may not be named. -/
def State.maskCtxs (s : State) (p : List Byte) : Option (List Nat) :=
  let cs := setBits 64 (fld p 0 8)
  if cs.isEmpty || !cs.all s.hasLanding then none else some cs

def formCapStart : Form := { op := 0x0401, lo := 8, hi := 8 }

def capStartBody (c : Cmd) (s : State) : State :=
  match s.maskCtxs c.payload with
  | none => s.badField c 0
  | some cs =>
    if cs.any (fun k => (s.ctx k).st == .frozen) then s.fail c stBusy
    else
      let s := each cs (fun k s => s.updCtx k fun x =>
        if x.stopPending then { x with stopPending := false }
        else if x.st == .stopped then { x with startPending := true } else x) s
      s.ok c []

def execCapStart (b : Mbox) (s : State) : Host.Outcome State Fault Refusal := .next (s.take b formCapStart capStartBody)

def formCapStop : Form := { op := 0x0402, mgmt := true, lo := 8, hi := 8 }

def capStopBody (c : Cmd) (s : State) : State :=
  match s.maskCtxs c.payload with
  | none => s.badField c 0
  | some cs =>
    let s := each cs (fun k s => s.updCtx k fun x =>
      if x.startPending then { x with startPending := false }
      else if x.st == .running || x.st == .postTrigger then { x with stopPending := true } else x) s
    s.ok c []

def execCapStop (b : Mbox) (s : State) : Host.Outcome State Fault Refusal := .next (s.take b formCapStop capStopBody)

def formCapTrigger : Form := { op := 0x0403, lo := 8, hi := 8 }

/-- Trigger several contexts: the mask of those triggered. -/
def State.triggerAll (s : State) (cs : List Nat) (source : Nat) : Nat × State :=
  cs.foldl (fun (m, s) k =>
    let (hit, s) := s.trigger k source
    (if hit then m + 2 ^ k else m, s)) (0, s)

def capTriggerBody (c : Cmd) (s : State) : State :=
  match s.maskCtxs c.payload with
  | none => s.badField c 0
  | some cs =>
    let (m, s) := s.triggerAll cs 0
    s.ok c (le 8 m ++ le 8 (s.now / 1000000000))

def execCapTrigger (b : Mbox) (s : State) : Host.Outcome State Fault Refusal := .next (s.take b formCapTrigger capTriggerBody)

/-- A TRIG_IN edge whose new level holds for at least 20 ns, on the contexts that name the pin and the edge (R302). -/
def State.trigEdge (s : State) (pin : Nat) (rising : Bool) (hold : Nat) : State :=
  if hold < 20 || 4 ≤ pin then s
  else
    let names (k : Nat) : Bool :=
      let p := s.landBlock k
      fld p 2 1 == pin + 1 && (fld p 3 1 == 2 || fld p 3 1 == b2n (!rising))
    (s.triggerAll ((List.range 64).filter names) (pin + 1)).2

/-- BAD_FIELD for the header's context ID. -/
def State.badCtx (s : State) (c : Cmd) : State := s.reply c stBadField (le 4 20) none

def formCapSnap : Form := { op := 0x0404, lo := 4, hi := 4, ctx := .one }

def capSnapBody (c : Cmd) (s : State) : State :=
  let k := c.ctx
  let n := fld c.payload 0 4
  if !s.hasLanding k || s.landMode k != 2 then s.badCtx c
  else if n = 0 || 65535 < n then s.badField c 0
  else if (s.ctx k).st != .running || (s.ctx k).snapOutstanding then s.fail c stBusy
  else if (s.ctx k).freeSlots.length < n then s.fail c stRefusedQuota
  else (s.updCtx k fun x => { x with snapLeft := n, snapOpen := 0, snapLanded := 0, snapFirst := x.nextSeq }).ok c []

def execCapSnap (b : Mbox) (s : State) : Host.Outcome State Fault Refusal := .next (s.take b formCapSnap capSnapBody)

def formCapFrameRecord : Form := { op := 0x0406, lo := 8, hi := 8, ctx := .one }

def capFrameRecordBody (c : Cmd) (s : State) : State :=
  let k := c.ctx
  let q := BitVec.ofNat 32 (fld c.payload 0 4)
  let n := fld c.payload 4 4
  if !s.hasLanding k then s.badCtx c
  else if n = 0 || 127 < n then s.badField c 4
  else
    s.reply c stOk [] (some ((List.range n).map (fun i => (s.ctx k).recordBytes k (q + BitVec.ofNat 32 i))).flatten)

def execCapFrameRecord (b : Mbox) (s : State) : Host.Outcome State Fault Refusal :=
  .next (s.take b formCapFrameRecord capFrameRecordBody)

def formCapCounters : Form := { op := 0x0408, mgmt := true, ctx := .one }

def capCountersBody (c : Cmd) (s : State) : State :=
  if !s.hasLanding c.ctx then s.badCtx c
  else s.reply c stOk [] (some ((s.ctx c.ctx).counts.map (fun v => le 4 v.toNat)).flatten)

def execCapCounters (b : Mbox) (s : State) : Host.Outcome State Fault Refusal :=
  .next (s.take b formCapCounters capCountersBody)

end Sys2Proof.Machine
end

