-- ==== Sys2Proof/Machine/SteepMath.lean ====
section
/-! DEFINITION. What a Steep engine computes (chapter 10): the operations of R326 on one band, and the flicker analysis of
R347. Every sample position of the band's tiles, pad positions included, is a site (R328; assumption 4). -/

namespace Sys2Proof.Machine

open Sys2Proof

/-- What a band job reads: its geometry, the context's blocks, the landed codes and the reference, site by site. -/
structure BandIn where
  depth   : Nat
  width   : Nat
  height  : Nat
  /-- Sites per row: 64 for each tile. -/
  cols    : Nat
  firstRow : Nat
  core    : List Byte
  /-- Static defects, row and column offsets, and gains, by frame row and column. -/
  defect  : Nat → Nat → Bool
  rowOff  : Nat → Int
  colOff  : Nat → Int
  gain    : Nat → Nat → Nat → Rat
  /-- Landed code at a row of the band and a column. -/
  code    : Array Nat
  /-- The reference codes, 16 bits; none where a tile has none. -/
  ref     : Array (Option Nat)
  /-- Tiles whose raw payload is a substitute (R360). -/
  rawSubst : Nat → Bool
  /-- Tiles that lose their reference through cause 6 or a failed reference tile. -/
  refLost : Nat → Bool
  /-- The tile motion of a tile whose every site is a static defect, which the spec does not state. -/
  noMean  : Rat

/-- What a band job writes, and what it adds to its frame's record. -/
structure BandOut where
  corrected : List (List Byte)
  reference : List (List Byte)
  dynamic   : Nat
  unconcealed : Nat
  clipped   : Nat
  overrange : Nat
  underrange : Nat
  tilesReset : Nat
  motionSum : Rat
  motionTiles : Nat

namespace BandIn

def at_ (b : BandIn) (r c : Nat) : Nat := b.code.getD (r * b.cols + c) 0

/-- Colour plane of a site (R330). -/
def plane (b : BandIn) (r c : Nat) : Nat :=
  let p := cfaPeriod b.core
  if p = 1 then 0 else fld b.core 4 4 / 4 ^ (4 * ((b.firstRow + r) % p) + c % p) % 4

def planeEntry (b : BandIn) (q : Nat) : List Byte := sub b.core (32 + 20 * q) 20

/-- The noise model σ (R331). -/
def sigma (b : BandIn) (q : Nat) (x : Rat) : Rat :=
  let e := b.planeEntry q
  fsqrt (fadd (f32D e 0) (fmul (f32D e 4) (max 0 (fsub x (f32D e 8)))))

def isDefect (b : BandIn) (r c : Nat) : Bool := b.defect (b.firstRow + r) c

/-- The n nearest same-colour sites on each side of a place, along a line of some length. -/
def nearest (same : Nat → Bool) (n here len : Nat) : List Nat :=
  (((List.range here).reverse.filter same).take n).reverse ++ [here] ++ ((List.range' (here + 1) (len - here - 1)).filter same).take n

/-- Same-colour sites within n same-colour steps horizontally and vertically, clipped at the band (R327, R332). -/
def around (b : BandIn) (n r c : Nat) : List (Nat × Nat) :=
  let q := b.plane r c
  let rows := nearest (fun r' => b.plane r' c == q) n r 16
  let cols := nearest (fun c' => b.plane r c' == q) n c b.cols
  ((rows.map (fun r' => cols.map (fun c' => (r', c')))).flatten).filter (fun p => p != (r, c) && b.plane p.1 p.2 == q)

def spatialOn (b : BandIn) : Bool := bit (fld b.core 0 1) 1
def temporalOn (b : BandIn) : Bool := bit (fld b.core 0 1) 2
def dynamicOn (b : BandIn) : Bool := bit (fld b.core 0 1) 3

/-- The spatial filter at a site (R332). Neighbours are summed in raster order (assumption 4). -/
def spatial (b : BandIn) (r c : Nat) : Rat :=
  let x : Rat := (b.at_ r c : Nat)
  if !b.spatialOn || b.isDefect r c then x
  else
    let h : Rat := (fld b.core 8 2 : Nat) / 16
    let s : Rat := (fld b.core 10 2 : Nat) / 256
    let sg := b.sigma (b.plane r c) x
    let ns := (b.around (fld b.core 3 1) r c).filter (fun p => !b.isDefect p.1 p.2)
    let (num, den) := ns.foldl (fun (num, den) p =>
      let y : Rat := (b.at_ p.1 p.2 : Nat)
      let d := fdiv (fabs (fsub y x)) sg
      let t := fdiv d h
      let u := fsub 1 (fmul t t)
      let w := if d < h then fmul u u else 0
      (fadd num (fmul w y), fadd den w)) ((x, 1) : Rat × Rat)
    let xf := fdiv num den
    fadd x (fmul s (fsub xf x))

/-- Row and column of site k of tile t, in raster order. -/
def siteOf (t k : Nat) : Nat × Nat := (k / 64, 64 * t + k % 64)

/-- The temporal filter over one tile (R333): the results in site order, the tile's motion, and whether it used α = 0. -/
def temporalTile (b : BandIn) (sp : Array Rat) (t : Nat) : List Rat × Option Rat × Bool :=
  let site (k : Nat) : Nat × Nat := siteOf t k
  let x (k : Nat) : Rat := sp.getD ((site k).1 * b.cols + (site k).2) 0
  let ref (k : Nat) : Option Rat :=
    (b.ref.getD ((site k).1 * b.cols + (site k).2) none).map (fun v => ((v : Nat) : Rat) / ((2 ^ (16 - b.depth) : Nat) : Rat))
  let ks := List.range 1024
  let usable := b.temporalOn && !b.rawSubst t && !b.refLost t && ks.all (fun k => (ref k).isSome)
  if !usable then (ks.map x, none, b.temporalOn && (b.rawSubst t || b.refLost t))
  else
    let dev (k : Nat) : Rat := fabs (fsub (x k) ((ref k).getD 0))
    let sg (k : Nat) : Rat := b.sigma (b.plane (site k).1 (site k).2) (x k)
    let live := ks.filter (fun k => !b.isDefect (site k).1 (site k).2)
    let d := if live.isEmpty then b.noMean
      else fdiv (live.foldl (fun a k => fadd a (fdiv (dev k) (sg k))) 0) (live.length : Nat)
    let lo : Rat := (fld b.core 14 1 : Nat) / 16
    let hi : Rat := (fld b.core 15 1 : Nat) / 16
    let amax : Rat := (fld b.core 12 1 : Nat) / 16
    let guard : Rat := (fld b.core 13 1 : Nat) / 4
    let at_ := fmul amax (min 1 (max 0 (fdiv (fsub hi d) (fsub hi lo))))
    let out (k : Nat) : Rat :=
      let a := if fmul guard (sg k) < dev k then 0 else at_
      fadd (x k) (fmul a (fsub ((ref k).getD 0) (x k)))
    (ks.map out, some d, false)

/-- Black level at a site (R337). -/
def black (b : BandIn) (nr : Array Rat) (r c : Nat) : Rat :=
  let k := f32D (b.planeEntry (b.plane r c)) 12
  let off := fadd (fadd k ((b.rowOff (b.firstRow + r) : Rat) / 16)) ((b.colOff c : Rat) / 16)
  fsub (nr.getD (r * b.cols + c) 0) off

/-- A pair of valid neighbours at one same-colour step, if the site has both. -/
def pairAt (b : BandIn) (y : Array Rat) (r c : Nat) (dr dc : Bool → Option Nat) : Option (Rat × Rat) :=
  let ok (p : Option Nat × Option Nat) : Option Rat :=
    match p with
    | (some r', some c') => if b.isDefect r' c' || b.plane r' c' != b.plane r c then none else some (y.getD (r' * b.cols + c') 0)
    | _ => none
  match ok (dr false, dc false), ok (dr true, dc true) with
  | some u, some v => some (u, v)
  | _, _ => none

/-- The replacement of a defect (R338); none when the site is unconcealed. Of pairs that differ alike the first is taken. -/
def conceal (b : BandIn) (y : Array Rat) (r c : Nat) : Option Rat :=
  let q := b.plane r c
  let up := (List.range r).reverse.find? (fun r' => b.plane r' c == q)
  let down := (List.range' (r + 1) (15 - r)).find? (fun r' => b.plane r' c == q)
  let left := (List.range c).reverse.find? (fun c' => b.plane r c' == q)
  let right := (List.range' (c + 1) (b.cols - c - 1)).find? (fun c' => b.plane r c' == q)
  let v (a z : Option Nat) : Bool → Option Nat := fun k => if k then z else a
  let here (n : Nat) : Bool → Option Nat := fun _ => some n
  let pairs := [b.pairAt y r c (here r) (v left right), b.pairAt y r c (v up down) (here c),
    b.pairAt y r c (v up down) (v left right), b.pairAt y r c (v up down) (v right left)].filterMap id
  let best := pairs.foldl (fun (a : Option (Rat × Rat)) p =>
    match a with
    | none => some p
    | some z => if flt (fabs (fsub p.1 p.2)) (fabs (fsub z.1 z.2)) then some p else a) none
  match best with
  | some p => some (fdiv (fadd p.1 p.2) 2)
  | none =>
    let ns := (b.around 2 r c).filter (fun p => !b.isDefect p.1 p.2)
    if ns.isEmpty then none
    else some (fdiv (ns.foldl (fun a p => fadd a (y.getD (p.1 * b.cols + p.2) 0)) 0) (ns.length : Nat))

/-- A site is a dynamic defect (R338). -/
def isDynamic (b : BandIn) (y : Array Rat) (r c : Nat) : Bool :=
  if !b.dynamicOn || b.isDefect r c then false
  else
    let ns := ((b.around 1 r c).filter (fun p => !b.isDefect p.1 p.2)).map (fun p => y.getD (p.1 * b.cols + p.2) 0)
    match ns with
    | n :: rest =>
      let hi := rest.foldl max n
      let lo := rest.foldl min n
      let v := y.getD (r * b.cols + c) 0
      let t : Rat := (fld b.core 16 2 : Nat) / 16
      let lim := fmul t (b.sigma (b.plane r c) (b.at_ r c : Nat))
      decide (3 ≤ ns.length) && (decide (lim < fsub v hi) || decide (lim < fsub lo v))
    | [] => false

/-- The bilinear gain (R339). -/
def flat (b : BandIn) (r c : Nat) (v : Rat) : Rat :=
  if bit (fld b.core 0 1) 6 then fmul v (b.gain (b.plane r c) (b.firstRow + r) c) else v

/-- The output scale S_out. -/
def outScale (b : BandIn) : Rat :=
  if fld b.core 20 4 = 0 then ((2 ^ (16 - b.depth) : Nat) : Rat) else f32D b.core 20

/-- Tiles of 16-bit codes from the band's sites. -/
def toTiles (b : BandIn) (v : Nat → Nat → Nat) : List (List Byte) :=
  (List.range (b.cols / 64)).map (fun t =>
    ((List.range 1024).map (fun k => le 2 (v (siteOf t k).1 (siteOf t k).2))).flatten)

/-- Operations 1 to 6 on the band (R326). -/
def run (b : BandIn) : BandOut :=
  let n := 16 * b.cols
  let rc (i : Nat) : Nat × Nat := (i / b.cols, i % b.cols)
  let table {α : Type} (f : Nat → Nat → α) : Array α := ((List.range n).map (fun i => f (rc i).1 (rc i).2)).toArray
  let sp := table b.spatial
  let tiles := (List.range (b.cols / 64)).map (fun t => b.temporalTile sp t)
  let nr := table (fun r c => (((tiles[c / 64]?).map (·.1)).getD []).getD (64 * r + c % 64) 0)
  let y := table (b.black nr)
  let dyn := table (b.isDynamic y)
  let isDyn (r c : Nat) : Bool := dyn.getD (r * b.cols + c) false
  let bad (r c : Nat) : Bool := b.isDefect r c || isDyn r c
  let done := table (fun r c => if bad r c then b.conceal y r c else some (y.getD (r * b.cols + c) 0))
  let clip (r c : Nat) : Bool :=
    let l := fld (b.planeEntry (b.plane r c)) 16 2
    !bad r c && l != 0 && l ≤ b.at_ r c
  let pre := table (fun r c =>
    let v := b.flat r c ((done.getD (r * b.cols + c) none).getD 0)
    nearestEven (fadd (fld b.core 18 2 : Nat) (fmul b.outScale v)))
  let out (r c : Nat) : Nat :=
    if clip r c then 65535 else (max 0 (min (pre.getD (r * b.cols + c) 0) 65534)).toNat
  let cnt (p : Nat → Nat → Bool) : Nat := ((List.range n).filter (fun i => p (rc i).1 (rc i).2)).length
  let ref (r c : Nat) : Nat :=
    (max 0 (min (nearestEven (nr.getD (r * b.cols + c) 0 * ((2 ^ (16 - b.depth) : Nat) : Rat))) 65535)).toNat
  { corrected := b.toTiles out, reference := b.toTiles ref, dynamic := cnt isDyn,
    unconcealed := cnt (fun r c => bad r c && (done.getD (r * b.cols + c) none).isNone), clipped := cnt clip,
    overrange := cnt (fun r c => !clip r c && decide (65534 < pre.getD (r * b.cols + c) 0)),
    underrange := cnt (fun r c => !clip r c && decide (pre.getD (r * b.cols + c) 0 < 0)),
    tilesReset := (tiles.filter (·.2.2)).length, motionSum := (tiles.map (fun t => t.2.1.getD 0)).sum,
    motionTiles := (tiles.filter (·.2.1.isSome)).length }

end BandIn

/-- The codes of a landed tile, in site order (R23). -/
def tileCodes (d : Nat) (p : List Byte) : List Nat :=
  let v := leNat p
  (List.range 1024).map (fun n => v / 2 ^ (d * n) % 2 ^ d)

/-- Rows of sites from the tiles of a band. -/
def rowsOfTiles {α : Type} (tiles : List (List α)) (dflt : α) : Array α :=
  let n := tiles.length
  ((List.range (1024 * n)).map (fun i =>
    (tiles.getD (i % (64 * n) / 64) []).getD (i / (64 * n) * 64 + i % 64) dflt)).toArray

/-! ## Flicker analysis (R347) -/

/-- What an analysis returns: result, missing, frequency in mHz, amplitude and phase in 2⁻¹⁶, level and peak ratio. -/
structure FlickOut where
  result  : Nat
  missing : Nat
  freq    : Nat
  amp     : Nat
  phase   : Nat
  level   : Rat
  ratio   : Nat
deriving DecidableEq, Repr

/-- The Hann window: 1/2 − 1/2 cos(2π i / (N − 1)). -/
def hann (i n : Nat) : Rat := if n ≤ 1 then 1 else 1 / 2 - cosTurn ((i : Rat) / ((n - 1 : Nat) : Rat)) / 2

/-- Fill missing samples by linear interpolation between valid neighbours; at the ends the nearest valid one holds. -/
def fillMissing (v : List (Option Rat)) : List Rat :=
  (numbered v).map (fun (i, x) =>
    match x with
    | some y => y
    | none =>
      let before := ((numbered v).take i).reverse.find? (fun p => p.2.isSome)
      let after := ((numbered v).drop i).find? (fun p => p.2.isSome)
      match before, after with
      | some (a, some u), some (z, some w) => u + (w - u) * ((i : Rat) - (a : Nat)) / ((z : Rat) - (a : Nat))
      | some (_, some u), _ => u
      | _, some (_, some w) => w
      | _, _ => 0)

/-- Median of a list of values, the mean of the middle two for an even count. -/
def median (v : List Rat) : Rat :=
  let s := sortBy (fun (a b : Rat) => decide (a < b)) v
  let n := s.length
  if n % 2 = 1 then s.getD (n / 2) 0 else (s.getD (n / 2 - 1) 0 + s.getD (n / 2) 0) / 2

/-- Parabolic refinement of a peak: the offset of the vertex from the middle, within ±1/2, and the value there. -/
def parabola (a b c : Rat) : Rat × Rat :=
  let den := a - 2 * b + c
  if den = 0 then (0, b)
  else
    let x := (a - c) / (2 * den)
    (x, b - (a - c) * x / 4)

/-- The flicker analysis of some samples at interval T seconds, with the level offset L. -/
def flickRun (samples : List (Option Rat)) (t l : Rat) (fk : List Byte) : FlickOut :=
  let n := samples.length
  let missing := (samples.filter (·.isNone)).length
  let none_ (r : Nat) (lev : Rat) : FlickOut :=
    { result := r, missing := missing, freq := 0, amp := 0, phase := 0, level := lev, ratio := 0 }
  if n < 100 * missing || n = 0 || t ≤ 0 then none_ 2 0
  else
    let s := fillMissing samples
    let m := s.sum / (n : Nat)
    let level := m - l
    if level ≤ 0 then none_ 3 level
    else
      let v := (numbered s).map (fun p => (p.2 - m) * hann p.1 n)
      let fmin : Rat := (if fld fk 24 4 = 0 then 40000 else fld fk 24 4 : Nat) / 1000
      let fmax : Rat := (if fld fk 28 4 = 0 then 20000000 else fld fk 28 4 : Nat) / 1000
      let flo := max fmin ((3 / 2) / ((n : Nat) * t))
      let fhi := min fmax ((1 / 2) / t)
      if fhi ≤ flo then none_ 2 level
      else
        let df := 1 / (2 * (n : Nat) * t)
        let ks := ((fhi - flo) / df).floor.toNat + 1
        let re (f : Rat) : Rat := ((numbered v).map (fun p => p.2 * cosTurn (f * (p.1 : Nat) * t))).sum
        let im (f : Rat) : Rat := -((numbered v).map (fun p => p.2 * sinTurn (f * (p.1 : Nat) * t))).sum
        let xs := (List.range ks).map (fun k => (re (flo + (k : Nat) * df), im (flo + (k : Nat) * df)))
        let mag := xs.map (fun x => sqrtR (x.1 * x.1 + x.2 * x.2))
        let k1 := ((numbered mag).foldl (fun (a : Nat × Rat) p => if a.2 < p.2 then p else a) (0, mag.headD 0)).1
        let lg (k : Nat) : Rat := if mag.getD k 0 = 0 then Config.lnOfZero else lnR (mag.getD k 0)
        let (dx, peakLn) := if k1 = 0 || ks ≤ k1 + 1 then ((0 : Rat), lg k1) else parabola (lg (k1 - 1)) (lg k1) (lg (k1 + 1))
        let x1 := exp2R (peakLn / lnR 2)
        let f := flo + ((k1 : Nat) + dx) * df
        let hsum := ((List.range n).map (fun i => hann i n)).sum
        let amp := 2 * x1 / hsum / level
        let med := median mag
        let ratio : Rat := (fld fk 18 2 : Nat) / 16
        let big := mag.getD k1 0
        let peak : Nat := if med = 0 then 0xFFFFFFFF else sat 32 (floorNat (big / med * 256))
        let a16 := floorNat (amp * 65536)
        if big < ratio * med || amp < (fld fk 20 2 : Nat) / (65536 : Rat) then { none_ 0 level with ratio := peak }
        else
          let c := (re f, im f)
          let ph := (roundRat (argTurn c.1 c.2 * 65536) % 65536).toNat
          { result := 1, missing := missing, freq := (roundRat (f * 1000)).toNat, amp := sat 32 a16, phase := ph,
            level := level, ratio := peak }

end Sys2Proof.Machine
end

