-- ==== Sys2Proof/Machine/Steep.lean ====
section
/-! DEFINITION. Steep (chapter 10) about its frames: tiles in memory, band jobs and what their ends leave, the flicker records,
and the STP registers. -/

namespace Sys2Proof.Machine

open Sys2Proof

/-! ## Tiles that a job reads (R31, R32, R506–R508) -/

/-- A range of tiles: first address, bytes of a tile, tiles, and address of the first tag-plane entry. -/
structure Tiles where
  addr  : Nat
  size  : Nat
  count : Nat
  tags  : Nat
deriving DecidableEq, Repr

/-- Tile k of a range, as a range of its own. -/
def Tiles.one (t : Tiles) (k : Nat) : Tiles := { addr := t.addr + k * t.size, size := t.size, count := 1, tags := t.tags + 4 * k }

/-- An address lies in a range of tiles. -/
def Tiles.holds (t : Tiles) (a : Nat) : Bool := t.addr ≤ a && a < t.addr + t.count * t.size

end Sys2Proof.Machine

namespace Sys2Proof

open Sys2Proof.Machine

/-- Tile k of a range failed its second check. -/
def JobFacts.lost (f : JobFacts) (t : Tiles) (k : Nat) : Bool :=
  f.misses.any (fun m => m.second && (t.one k).holds m.addr)

/-- Tiles of a range that failed. -/
def JobFacts.lostIn (f : JobFacts) (t : Tiles) : Nat := ((List.range t.count).filter (f.lost t)).length

end Sys2Proof

namespace Sys2Proof.Machine

open Sys2Proof

/-- Address of the tag-plane entry of the tile at an address. -/
def tagOf (ts : List Tiles) (addr : Nat) : Nat :=
  match ts.find? (fun t => t.holds addr) with
  | some t => t.tags + (addr - t.addr) / t.size * 4
  | none => addr

/-- The stored payload of a tile matches its tag-plane entry (R28, R31). -/
def State.sound (s : State) (t : Tiles) (k : Nat) : Bool :=
  s.capRead (t.tags + 4 * k) 4 == le 4 (crc32c (s.capRead (t.addr + k * t.size) t.size)).toNat

/-- The tiles of some ranges whose stored payload does not match its entry. -/
def State.unsound (s : State) (ts : List Tiles) : List Tiles :=
  (ts.map (fun t => (List.range t.count).filterMap (fun k => if s.sound t k then none else some (t.one k)))).flatten

/-- What the tile port meets in the tiles that it reads (R31, R32): the mismatches that the row names, and every tile whose stored
payload does not match its entry. Both reads of such a tile mismatch and agree, so its entry is the fault location (R508). -/
def State.met (s : State) (ms : List TileMiss) (ts : List Tiles) : List TileMiss :=
  let bad := s.unsound ts
  let named := (ms.filter (fun m => ts.any (·.holds m.addr))).map (fun m =>
    if bad.any (·.holds m.addr) then { m with second := true } else m)
  named ++ (bad.filter (fun t => !named.any (fun m => t.holds m.addr))).map (fun t =>
    ({ addr := t.addr, second := true, eccUncorr := false, bits := 0, tagFault := true, others := [] } : TileMiss))

/-- Every page of a range of tiles and of its tag-plane entries is valid. -/
def State.tilesMapped (s : State) (t : Tiles) : Bool := s.mapped t.addr (t.count * t.size) && s.mapped t.tags (4 * t.count)

/-- The facts of a job with what its tile port meets in the tiles that it reads; one that touches an invalid page, in these or in the
tiles that it writes, ends HW_FAULT (R491). -/
def State.verify (s : State) (f : JobFacts) (ts : List Tiles) (writes : List Tiles := []) : JobFacts :=
  { f with misses := s.met f.misses ts, hwFault := f.hwFault || !(ts ++ writes).all s.tilesMapped }

/-- A job is on a superseded frame and the tile lies in the slot that is being overwritten (R21). -/
def State.overwritten (s : State) (j : Job) (addr : Nat) : Bool :=
  j.superseded && (match (s.ctx (j.ctx.getD 0)).record j.frame with
    | some f => f.addr ≤ addr && addr < f.addr + f.slotSize
    | none => true)

/-- The tiles that a job reads, with their tag-plane entries, reach their rows (R496) and
the counters (R656). -/
def State.reachTiles (s : State) (master : Nat) (ts : List Tiles) : State :=
  each ts (fun t s =>
    let s := (s.reach 2 master t.addr (t.count * t.size)).reach 2 master t.tags (4 * t.count)
    each (List.range t.count) (fun k s => s.count 0x0B 1 (s.accessTag master (t.addr + k * t.size))) s) s

/-- Every mismatch of a job is counted and logged. -/
def State.countMisses (s : State) (f : JobFacts) (ts : List Tiles) (j : Job) : State :=
  let s := s.reachTiles j.engine ts
  each f.misses (fun m s =>
    s.tileMiss m (tagOf ts m.addr)
      { master := j.engine, tag := j.tag.getD 0xFFFF, ctx := j.ctx.getD 0xFF } (s.overwritten j m.addr)) s

/-- The frame that a job works on is flagged when a tile that it reads failed both checks (R32, R312). A map tile, and a reference
tile written for the frame before, flag the reading job's frame too: the spec says only `the frame concerned` (DESIGN CHOICE,
assumption 33). -/
def State.flagTiles (s : State) (j : Job) (failed : Bool) : State :=
  match j.ctx with
  | some c => if failed then s.updFrame c j.frame (fun r => { r with landFlags := setFlag r.landFlags gfTileCheck }) else s
  | none => s

/-- A tile as the tile port delivers it: its payload, or the substitute. -/
def State.tile (s : State) (f : JobFacts) (t : Tiles) (k : Nat) (subst : List Byte) : List Byte :=
  if f.lost t k then subst else s.capRead (t.addr + k * t.size) t.size

/-- A master writes tiles and their tag-plane entries from tile k of a range on. -/
def State.putTiles (s : State) (master : Nat) (t : Tiles) (k : Nat) (ds : List (List Byte)) : State :=
  each (numbered ds) (fun p s =>
    (s.capWrite master (t.addr + (k + p.1) * t.size) p.2).capWrite master (t.tags + 4 * (k + p.1)) (le 4 (crc32c p.2).toNat)) s

/-! ## Frames under development -/

def FrameDev.core (d : FrameDev) : List Byte := coreOf d.blk
def FrameDev.bands (d : FrameDev) : Nat := tilesY d.frame.height
def FrameDev.tx (d : FrameDev) : Nat := tilesX d.frame.width
def FrameDev.tiles (d : FrameDev) : Nat := d.tx * d.bands

def State.updDev (s : State) (c : Nat) (q : BitVec 32) (f : FrameDev → FrameDev) : State :=
  { s with dev := s.dev.map (fun d => if d.ctx = c && d.seq = q then f d else d) }

def FrameDev.make (f : Frame) : FrameDev :=
  { ctx := f.ctx, seq := f.seq, frame := f, steepMade := 0, steepEnded := 0, steepRetired := 0, steepLost := 0,
    steepOutcome := none, dynamic := 0, unconcealed := 0, clipped := 0, overrange := 0, underrange := 0, tilesReset := 0,
    resetCause := 0, bandReset := false, motionSum := 0, motionTiles := 0, substituted := 0, workFrame := none,
    claimed := false, mashMade := 0, mashEnded := 0, mashRetired := 0, mashLost := 0, mashOutcome := none, rowsWritten := 0,
    rowsMissing := 0, clipMarked := 0, reconstructed := 0, nonFinite := 0, meanSums := [0, 0, 0], meanCounts := [0, 0, 0],
    mashSubst := 0, scanned := [], outFrames := [], reads := 0 }

/-- Raw tiles of the frame in its slot, its working frame and its reference buffers. -/
def FrameDev.raw (d : FrameDev) : Tiles :=
  { addr := d.frame.addr, size := 128 * d.frame.depth, count := d.tiles, tags := d.frame.tagBase }

def FrameDev.area (d : FrameDev) (use k : Nat) : Tiles :=
  let base := d.frame.rangeBase use + k * d.tiles * 2052
  { addr := base, size := 2048, count := d.tiles, tags := base + d.tiles * 2048 }

def FrameDev.work (d : FrameDev) : Tiles := d.area 2 (d.workFrame.getD 0)
def FrameDev.refOut (d : FrameDev) : Tiles := d.area 3 (d.seq.toNat % 2)
def FrameDev.refIn (d : FrameDev) : Tiles := d.area 3 ((d.seq - 1).toNat % 2)

/-- The band's part of a range. -/
def FrameDev.part (d : FrameDev) (t : Tiles) (b : Nat) : Tiles :=
  { addr := t.addr + b * d.tx * t.size, size := t.size, count := d.tx, tags := t.tags + 4 * b * d.tx }

def FrameDev.temporal (d : FrameDev) : Bool := steepOn d.blk 2

/-- The working frames of a context that frames hold, in the ranges of a frame. -/
def State.workHeld (s : State) (d : FrameDev) : List Nat :=
  s.dev.filterMap (fun e => if e.ctx == d.ctx && e.frame.rangeBase 2 == d.frame.rangeBase 2 then e.workFrame else none)

def State.workFree (s : State) (d : FrameDev) : List Nat :=
  (List.range (workFrames d.core)).filter (fun k => !(s.workHeld d).contains k)

/-- An earlier frame of the context still waits for its working frame (R341). -/
def State.earlierWaits (s : State) (d : FrameDev) (waits : FrameDev → Bool) : Bool :=
  s.dev.any (fun e => e.ctx == d.ctx && waits e && 0 < (d.seq - e.seq).toInt)

/-- R341's part of eligibility: the frame holds a working frame, or one is free for it to claim in landing order. -/
def State.workReady (s : State) (c : Nat) (q : BitVec 32) : Bool :=
  match s.devOf c q with
  | none => true
  | some d => d.workFrame.isSome ||
      (!(s.workFree d).isEmpty &&
        !s.earlierWaits d (fun e => e.workFrame.isNone && e.steepMade != 0 && popCount e.bands e.steepEnded < popCount e.bands e.steepMade))

def State.claimWork (s : State) (c : Nat) (q : BitVec 32) : State :=
  match s.devOf c q with
  | none => s
  | some d =>
    if d.workFrame.isSome then s
    else
      let (k, s) := s.choose (s.workFree d)
      s.updDev c q (fun d => { d with workFrame := k })

/-! ## Creating band jobs (R300, R335, R336, R34) -/

/-- The cause of R335 that holds for the whole frame as its first band job is created; the lowest where several hold. -/
def State.frameCause (s : State) (d : FrameDev) : Nat :=
  let f := d.frame
  let gap := if fld d.core 27 1 = 0 then 4 else fld d.core 27 1
  let mask := fld d.core 24 2
  let period := framePeriod ((d.blk 0x0203).getD [])
  let late : Bool := match f.prev with
    | some (_, t, _) => decide ((gap : Nat) * period * 2 ^ 32 < ((f.fsTbm - t : Nat) : Rat))
    | none => true
  let skip : Bool := match f.prev with
    | some (q, _, _) => q != f.seq - 1 || s.jobs.any (fun j =>
        j.kind == .steepBand && j.ctx == some d.ctx && j.frame == q && j.superseded && j.st == .pending)
    | none => true
  let open_ := ((s.sensors.map (·.openFrames)).flatten.find? (fun o => o.ctx == d.ctx && o.seq == some d.seq)).map (·.flags)
  let flags := (open_.getD f.linkFlags).toNat ||| (match f.prev with | some (_, _, w) => w.toNat | none => 0)
  if !d.temporal then 0
  else if f.first then 1 else if late then 2 else if skip then 3 else if flags &&& mask != 0 then 4
  else if f.genReset then 5 else 0

/-- The job numbers of a kind, frame and unit that are still in the list. -/
def State.jobIds (s : State) (k : JobKind) (c : Nat) (q : BitVec 32) (u : Nat) : List Nat :=
  (s.jobs.filter (fun j => j.kind == k && j.ctx == some c && j.frame == q && j.unit == u)).map (·.id)

/-- The frame's progress, begun when its first job is created; its temporal reset is decided then. -/
def State.beginDev (s : State) (f : Frame) : State :=
  if (s.devOf f.ctx f.seq).isSome then s
  else
    let d := FrameDev.make f
    let cause := if steepEnabled d.blk then s.frameCause d else 0
    let s : State := { s with dev := s.dev ++ [{ d with resetCause := cause }] }
    if cause = 0 then s else s.updSteep f.ctx fun x => { x with resets := x.resets + 1 }

/-- Tiles of the maps that a band of the frame uses (R359). -/
def FrameDev.mapUses (d : FrameDev) (b : Nat) : List (Nat × Nat) := mapTiles d.blk d.frame.width d.frame.height b

/-- Cost units of a band job (R196, R342): every tile it reads or writes with its tag-plane entry. -/
def bandUnits (d : FrameDev) (b : Nat) : List (Nat × Nat) :=
  let n := d.tx
  let raw := n * (128 * d.frame.depth + 4)
  let out := n * 2052
  let maps := mapTraffic d.blk d.frame.width d.frame.height b
  [(0x02, 1024 * n), (0x01, raw + out + maps + (if d.temporal then (if d.resetCause = 0 then out else 0) + out else 0))]

/-- Create the band job of a landed band. -/
def State.cutBand (s : State) (d : FrameDev) (b cls : Nat) (deadline : Option Nanos) : State :=
  let j : Job :=
    { Job.make .steepBand cls with
      gen := d.frame.genNumber, unit := b, units := bandUnits d b, deadline := deadline,
      depsRetired := if d.temporal then s.jobIds .steepBand d.ctx (d.seq - 1) b else [] }
  (s.addFrameJob d.ctx d.seq j).2.updDev d.ctx d.seq (fun x => { x with steepMade := x.steepMade ||| 2 ^ b })

/-! ## What a band job computes -/

/-- The tiles of a map. -/
def FrameDev.mapRange (d : FrameDev) (type : Nat) : Option Tiles :=
  (d.blk type).map (fun p =>
    let n := ceilDiv p.length 2048
    let base := d.frame.rangeBase 4 + mapOffset d.blk type
    { addr := base, size := 2048, count := n, tags := base + n * 2048 })

/-- A map tile of the context's maps failed its check (R359). -/
def FrameDev.mapBad (d : FrameDev) (f : JobFacts) (type off : Nat) : Bool :=
  match d.mapRange type with
  | none => false
  | some t => f.lost t (off / 2048)

/-- The map tiles that a band reads. -/
def FrameDev.mapReads (d : FrameDev) (b : Nat) : List Tiles :=
  (d.mapUses b).filterMap (fun u => (d.mapRange u.1).map (fun t => t.one u.2))

/-- The gain of the map at a site (R339); 1 where a knot lies in a tile that failed. -/
def FrameDev.gainAt (d : FrameDev) (f : JobFacts) (q r c : Nat) : Rat :=
  match d.blk 0x0304 with
  | none => 1
  | some p =>
    let cell := 2 ^ fld p 0 1
    let kc := fld p 2 2
    let kr := fld p 4 2
    let off (j i : Nat) : Nat := 16 + 2 * ((q * kr + j) * kc + i)
    let knot (j i : Nat) : Option Rat :=
      if d.mapBad f 0x0304 (off j i) then none else some ((fld p (off j i) 2 : Nat) / 4096)
    let (i, j) := (c / cell, r / cell)
    let wx : Rat := (c % cell : Nat) / (cell : Nat)
    let wy : Rat := (r % cell : Nat) / (cell : Nat)
    if d.frame.width ≤ c || d.frame.height ≤ r then 1
    else match knot j i, knot j (i + 1), knot (j + 1) i, knot (j + 1) (i + 1) with
      | some a, some b, some x, some y =>
        fadd (fmul (fsub 1 wy) (fadd (fmul (fsub 1 wx) a) (fmul wx b))) (fmul wy (fadd (fmul (fsub 1 wx) x) (fmul wx y)))
      | _, _, _, _ => 1

/-- The input of a band job. `bandOk`: the same band of the frame before ended OK. -/
def State.bandIn (s : State) (d : FrameDev) (b : Nat) (f : JobFacts) (bandOk : Bool) (noMean : Rat) : BandIn :=
  let raw := d.part d.raw b
  let ref := d.part d.refIn b
  let core := d.core
  let flag (n : Nat) : Bool := bit (fld core 0 1) n
  let ts := (List.range d.tx).map (fun t => tileCodes d.frame.depth (s.tile f raw t (rawSubstitute d.frame.depth d.frame.pad)))
  let frameOk := d.temporal && d.resetCause == 0
  let rs : List (List (Option Nat)) := (List.range d.tx).map (fun t =>
    if frameOk && bandOk && !f.lost ref t then (tileCodes 16 (s.tile f ref t [])).map some else List.replicate 1024 none)
  let offs := (d.blk 0x0302).getD []
  let defs := (d.blk 0x0303).getD []
  let marks := if flag 4 then
      (List.range (fld defs 0 4)).filterMap (fun k =>
        if d.mapBad f 0x0303 (8 + 4 * k) then none else some (fld defs (8 + 4 * k) 4))
    else []
  let here := marks.filter (fun m => 16 * b ≤ m / 65536 && m / 65536 < 16 * b + 16)
  let off (k : Nat) : Int := if flag 5 && !d.mapBad f 0x0302 (8 + 2 * k) then sfld offs (8 + 2 * k) 2 else 0
  { depth := d.frame.depth, width := d.frame.width, height := d.frame.height, cols := 64 * d.tx, firstRow := 16 * b,
    core := core, defect := fun r c => here.contains (r * 65536 + c),
    rowOff := fun r => if r < d.frame.height then off r else 0,
    colOff := fun c => if c < d.frame.width then off (d.frame.height + c) else 0,
    gain := d.gainAt f, code := rowsOfTiles ts 0, ref := rowsOfTiles rs none,
    rawSubst := fun t => frameOk && f.lost raw t, refLost := fun t => frameOk && (!bandOk || f.lost ref t), noMean := noMean }

/-- The band of the frame before ended OK: its reference may be used. -/
def State.bandBefore (s : State) (d : FrameDev) (b : Nat) : Bool := (s.stp d.ctx).bandsOk.contains (d.seq - 1, b)

/-- The tiles that a band job reads: the reference only where it is valid (R335). -/
def State.bandReads (s : State) (d : FrameDev) (b : Nat) : List Tiles :=
  [d.part d.raw b] ++ (if d.temporal && d.resetCause == 0 && s.bandBefore d b then [d.part d.refIn b] else []) ++ d.mapReads b

/-- A developed tile that failed both checks, or that its job could not write: zero (R26, R32, R507). -/
def zeroTile : List Byte := zeros 2048

/-- A band job has run: its tiles are written, and the frame's progress takes its counts. Answers its status. -/
def State.runBand (s : State) (j : Job) (f : JobFacts) : Nat × State :=
  match s.devOf (j.ctx.getD 0) j.frame with
  | none => (if f.hwFault then stHwFault else stOk, s)
  | some d =>
    let b := j.unit
    let reads := s.bandReads d b
    let f := s.verify f reads ([d.part d.work b] ++ (if d.temporal then [d.part d.refOut b] else []))
    let s := s.countMisses f reads j
    let (free, s) := s.drawNat
    let ok := s.bandBefore d b
    let o := (s.bandIn d b f ok (free : Nat)).run
    let whole := !f.hwFault
    let zero := List.replicate d.tx zeroTile
    let s := s.putTiles j.engine (d.part d.work b) 0 (if whole then o.corrected else zero)
    let s := if d.temporal then
        (s.putTiles j.engine (d.part d.refOut b) 0 (if whole then o.reference else zero)).updSteep d.ctx fun x =>
          { x with refWrites := ((d.refOut.addr, d.seq) :: x.refWrites.filter (fun y => y.1 != d.refOut.addr)).take 16 }
      else s
    let lost := (reads.map f.lostIn).sum
    let n (v : Nat) : Nat := if whole then v else 0
    let s := s.updDev d.ctx d.seq (fun x =>
      { x with dynamic := x.dynamic + n o.dynamic, unconcealed := x.unconcealed + n o.unconcealed,
               clipped := x.clipped + n o.clipped, overrange := x.overrange + n o.overrange,
               underrange := x.underrange + n o.underrange, tilesReset := x.tilesReset + n o.tilesReset,
               bandReset := x.bandReset || (d.temporal && d.resetCause == 0 && !ok),
               motionSum := if whole then x.motionSum + o.motionSum else x.motionSum,
               motionTiles := x.motionTiles + n o.motionTiles, substituted := x.substituted + lost })
    (if f.hwFault || lost != 0 then stHwFault else stOk, s.flagTiles j (lost != 0))

/-- A band job has ended: what R335's cause 6 and R387 ask about. -/
def State.bandEnded (s : State) (j : Job) (ok : Bool) : State :=
  let c := j.ctx.getD 0
  let s := s.updDev c j.frame (fun x =>
    { x with steepEnded := x.steepEnded ||| 2 ^ j.unit, steepLost := if ok then x.steepLost else x.steepLost ||| 2 ^ j.unit })
  if ok then
    s.updSteep c fun x =>
      { x with bandsOk := (j.frame, j.unit) :: x.bandsOk.filter (fun y => (j.frame - y.1).toInt ≤ 2) }
  else s

/-! ## Records (R348–R351) -/

/-- An exact number as a binary32 pattern. -/
def f32Field (v : Rat) : List Byte := le 4 (f32Bits v)

def FrameDev.steepRecord (d : FrameDev) : List Byte :=
  let n := popCount d.bands d.steepMade
  let lost := popCount d.bands d.steepLost
  let motion : Nat := if d.motionTiles = 0 then 0 else floorNat (d.motionSum / (d.motionTiles : Nat) * 256)
  le 4 d.seq.toNat ++ le 4 d.frame.genNumber ++ le 4 (d.steepOutcome.getD 0).toNat ++ le 2 (n - lost) ++ le 2 lost ++
    le 4 d.dynamic ++ le 4 d.unconcealed ++ le 4 d.clipped ++ le 4 d.overrange ++ le 4 d.underrange ++
    le 2 (sat 16 d.tilesReset) ++ le 1 (if !d.temporal then 0 else if d.resetCause = 0 then 1 else 2) ++
    le 1 (if d.resetCause = 0 && d.bandReset then 6 else d.resetCause) ++ le 4 (sat 32 motion) ++ le 4 d.substituted ++
    zeros 16

def joinWord (a : Option (BitVec 32)) (b : BitVec 32) : Option (BitVec 32) :=
  match a with
  | none => some b
  | some a => some (worse a b)

/-- A band job has retired; the frame's last one makes the Steep record final. -/
def State.bandRetired (s : State) (j : Job) : State :=
  let c := j.ctx.getD 0
  let s := s.updDev c j.frame (fun x =>
    { x with steepRetired := x.steepRetired ||| 2 ^ j.unit, steepOutcome := joinWord x.steepOutcome j.outcome })
  match s.devOf c j.frame with
  | none => s
  | some d =>
    if popCount d.bands d.steepRetired < d.bands then s
    else
      (s.putRing c .steep d.seq d.steepRecord).updSteep c fun x =>
        { x with lastFinalSeq := d.seq,
                 lastUnconcealed := d.unconcealed, lastDynamic := d.dynamic,
                 lastResetCause := if d.resetCause = 0 && d.bandReset then 6 else d.resetCause,
                 refValid := d.temporal && d.resetCause == 0 && !d.bandReset }

/-- L of R347: the mean of K_c over the planes that the window covers. -/
def levelOffset (core fk : List Byte) (width : Nat) : Rat :=
  let p := cfaPeriod core
  let first := fld fk 2 2
  let n := if fld fk 4 2 = 0 then width - first else fld fk 4 2
  let cols := nub ((List.range' first (min n p)).map (· % p))
  let qs := nub (((List.range p).map (fun a => cols.map (fun b => fld core 4 4 / 4 ^ (4 * a + b) % 4))).flatten)
  if qs.isEmpty then 0 else (qs.map (fun q => f32D core (32 + 20 * q + 12))).sum / (qs.length : Nat)

/-- The 64 bytes of a flicker record (R348). -/
def flickRecord (j : Job) (o : FlickOut) (outcome : BitVec 32) : List Byte :=
  let a (k : Nat) : Nat := j.args.getD k 0
  le 4 j.frame.toNat ++ le 1 (a 0) ++ le 1 o.result ++ le 2 (sat 16 o.missing) ++ le 4 o.freq ++ le 4 o.amp ++
    le 2 o.phase ++ le 2 0 ++ f32Field o.level ++ le 4 o.ratio ++ le 4 outcome.toNat ++
    le 8 (if a 2 = 0 then 0 else a 1 / a 2 / 2 ^ 16) ++ timeField (a 3) ++ le 4 (a 4) ++ le 4 (a 5)

/-- A flicker analysis has ended: its record, and the registers of its form. A refused one reads REFUSED. -/
def State.flickEnded (s : State) (j : Job) (outcome : BitVec 32) (refused : Bool) : State :=
  let c := j.ctx.getD 0
  let a (k : Nat) : Nat := j.args.getD k 0
  let blocks := match s.devOf c j.frame, (s.ctx c).frame j.frame with
    | _, some f => f.blocks
    | some d, _ => d.frame.blocks
    | none, none => s.cfg.inForce
  let core := coreOf (ctxBlocks blocks c)
  let fk := (payloadIn blocks 0x0305 c).getD []
  let width := linkWidth ((payloadIn blocks 0x0201 c).getD [])
  let samples := (List.range (a 5)).map (fun k =>
    let n := fld j.data (16 * k) 8
    if n = 0 then none else some ((fld j.data (16 * k + 8) 8 : Rat) / (n : Nat)))
  let o : FlickOut :=
    if refused then { result := 4, missing := 0, freq := 0, amp := 0, phase := 0, level := 0, ratio := 0 }
    else flickRun samples ((a 1 : Rat) / (max 1 (a 2) : Nat) * tbmTick) (levelOffset core fk width) fk
  let rec_ := flickRecord j o outcome
  let here := (((s.stp c).flickers.find j.frame).map (·.bytes)).getD []
  (s.putRing c .flicker j.frame (if a 0 = 0 then rec_ ++ here else here ++ rec_)).updSteep c fun x =>
    if a 0 = 0 then { x with rowResult := o.result, rowFreq := o.freq, rowAmp := sat 16 o.amp, rowPhase := o.phase }
    else { x with frmResult := o.result, frmFreq := o.freq, frmAmp := sat 16 o.amp, frmPhase := o.phase }

end Sys2Proof.Machine
end

