-- ==== Sys2Proof/Machine/Mash.lean ====
section
/-! DEFINITION. Mash (chapter 11) about its frames: output frames, band jobs and what their ends leave, the 3D LUT units and the
MSH registers. -/

namespace Sys2Proof.Machine

open Sys2Proof

/-! ## Output frames (R386) -/

/-- The range of an output frame: output o, index k. -/
def FrameDev.outArea (d : FrameDev) (o k : Nat) : Tiles :=
  let before := ((mashEntries d.blk).takeWhile (fun e => fld e 0 1 != o)).map (fun e => Sys2Proof.Machine.outFrames e * outTiles e * 2052)
  let e := (mashEntry d.blk o).getD []
  let base := d.frame.rangeBase 5 + before.sum + k * outTiles e * 2052
  { addr := base, size := 2048, count := outTiles e, tags := base + outTiles e * 2048 }

def State.updOut (s : State) (c : Nat) (q : BitVec 32) (o : Nat) (f : OutFrame → OutFrame) : State :=
  s.updDev c q (fun d => { d with outFrames := d.outFrames.map (fun x => if x.out = o then f x else x) })

/-- Free output frames of an output in a frame's ranges. -/
def State.outFree (s : State) (d : FrameDev) (e : List Byte) : List Nat :=
  let held := (s.dev.filter (fun x => x.ctx == d.ctx && x.frame.rangeBase 5 == d.frame.rangeBase 5)).filterMap
    (fun x => (x.outFrame (fld e 0 1)).map (·.index))
  (List.range (outFrames e)).filter (fun k => !held.contains k)

/-- The 3D LUT unit that an output's table is in has loaded it. -/
def State.lutReady (s : State) (d : FrameDev) (e : List Byte) : Bool :=
  let k := fld e 7 1
  k == 0xFF || (match d.blk (0x0404 + k) with
    | some p => s.luts.any (fun u => 2 ≤ u.st && u.table == p)
    | none => true)

/-- A frame whose Mash jobs exist has still to claim its output frames: no Mash job of it has been issued, and one may be. -/
def FrameDev.unclaimed (d : FrameDev) : Bool :=
  !d.claimed && d.mashMade != 0 && popCount d.bands d.mashEnded < d.bands

/-- R386's and R395's part of eligibility: output frames for the frame's first Mash job, in landing order, and the tables of the tile
rows that the job anchors. -/
def State.outReady (s : State) (c : Nat) (q : BitVec 32) (band : Nat) : Bool :=
  match s.devOf c q with
  | none => true
  | some d =>
    (d.anchors band).all (fun a => s.lutReady d a.1) &&
      (d.claimed || ((mashEntries d.blk).all (fun e => !(s.outFree d e).isEmpty) && !s.earlierWaits d FrameDev.unclaimed))

/-- The frame claims an output frame of every output when its first Mash job is issued. Rows whose jobs were refused before are
missing in it (R387). -/
def State.claimOut (s : State) (c : Nat) (q : BitVec 32) : State :=
  match s.devOf c q with
  | none => s
  | some d =>
    if d.claimed then s
    else each (mashEntries d.blk) (fun e s =>
      let (k, s) := s.choose (s.outFree d e)
      match k with
      | some k =>
        let gone := (List.range (outTilesY e)).filter (fun t => d.mashEnded.testBit (anchorOf d.method d.frame.height e t))
        let bits := (gone.map (2 ^ ·)).sum
        let o : OutFrame := { out := fld e 0 1, index := k, missing := bits, ended := bits, reads := 0 }
        s.updDev c q (fun d => { d with outFrames := d.outFrames ++ [o] })
      | none => s) (s.updDev c q (fun d => { d with claimed := true }))

/-! ## Creating band jobs (R383–R385) -/

/-- First and last band of a tile row's support. -/
def FrameDev.supportBands (d : FrameDev) (e : List Byte) (t : Nat) : List Nat :=
  let (lo, hi) := support d.method d.frame.height e t
  List.range' (lo / 16) (hi / 16 + 1 - lo / 16)

/-- The bands whose corrected tiles the job of band b reads. -/
def FrameDev.mashBands (d : FrameDev) (b : Nat) : List Nat :=
  nub (b :: ((d.anchors b).map (fun a => d.supportBands a.1 a.2)).flatten)

/-- Create the Mash job of a band, once the Steep jobs it depends on exist. Its own band is charged without tag-plane entries (R385). -/
def State.cutMash (s : State) (d : FrameDev) (b cls : Nat) (deadline : Option Nanos) (streams : List (Nat × Nat)) : State :=
  let out := ((d.anchors b).map (fun a => outTilesX a.1 * 2052)).sum
  let j : Job :=
    { Job.make .mashBand cls with
      gen := d.frame.genNumber, unit := b, units := [(0x03, 1024 * d.tx), (0x01, d.tx * 2048 + out)], deadline := deadline,
      depsRetired := ((d.mashBands b).map (fun k => s.jobIds .steepBand d.ctx d.seq k)).flatten, streams := streams }
  (s.addFrameJob d.ctx d.seq j).2.updDev d.ctx d.seq (fun x => { x with mashMade := x.mashMade ||| 2 ^ b })

/-! ## What a band job computes -/

/-- Bands that a Mash job reads: its own, and those of the supports of the tile rows that it writes with data. A band that lost its
Steep job is not read (R387; assumption 4). -/
def FrameDev.mashRows (d : FrameDev) (b : Nat) : List Nat :=
  let whole := (d.anchors b).filter (fun a => !(d.supportBands a.1 a.2).any (fun k => d.steepLost.testBit k))
  (nub (b :: (whole.map (fun a => d.supportBands a.1 a.2)).flatten)).filter (fun k => !d.steepLost.testBit k)

/-- Corrected tiles that a Mash job needs, by index in the frame. -/
def FrameDev.mashNeeds (d : FrameDev) (b : Nat) : List Nat :=
  ((d.mashRows b).map (fun k => List.range' (k * d.tx) d.tx)).flatten

/-- The tiles that a Mash job reads: those that the band cache does not hold (R384). -/
def State.mashReads (s : State) (d : FrameDev) (b : Nat) : List Tiles :=
  ((d.mashNeeds b).filter (fun t => !s.bandCache.contains (d.ctx, d.seq, t))).map d.work.one

/-- The band cache on a job's tiles: hits and misses counted; the tiles most recently read and verified stay, 8,192 in 16 MiB
(R384). `failed`: tiles whose check failed. -/
def State.cacheRead (s : State) (c : Nat) (q : BitVec 32) (tiles : List Nat) (failed : Nat → Bool) : State :=
  each tiles (fun t s =>
    let key := (c, q, t)
    let hit := s.bandCache.contains key
    let keep := if failed t then s.bandCache else (key :: s.bandCache.filter (· ≠ key)).take 8192
    let s : State := { s with bandCache := keep }
    if hit then { s with cacheHits := s.cacheHits + 1 } else { s with cacheMisses := s.cacheMisses + 1 }) s

def FrameDev.tables (d : FrameDev) : MashIn.Tables :=
  { one := fun k => ((entriesFrom ((d.blk 0x0403).getD []) 8 49168 (fld ((d.blk 0x0403).getD []) 0 4)).find? (fun t => fld t 0 1 == k)),
    three := fun k => if k < 4 then d.blk (0x0404 + k) else none }

/-- The input of the Mash job of a band. R366 and R370 name sites that lie beyond the rows which R365 and R384 let the job read: what
the job finds there is free (DESIGN CHOICE, assumption 4). -/
def State.mashIn (s : State) (d : FrameDev) (b : Nat) (f : JobFacts) (free : Nat) : MashIn :=
  let w := d.work
  let bands := d.mashRows b
  { width := d.frame.width, height := d.frame.height, steep := d.core, core := d.mash, depth := d.frame.depth,
    code := fun r c =>
      let k := r / 16 * d.tx + c / 64
      if !bands.contains (r / 16) then Config.beyondSupport free r c % 65536
      else if f.lost w k then 0 else leNat (s.capRead (w.addr + k * 2048 + (r % 16 * 64 + c % 64) * 2) 2),
    noPair := (free : Nat) }

/-- Clip marks, channel sums and values replaced at the sites of the job's own band (R362, R388). A frame of one plane keeps its sums
in the first place. -/
def MashIn.scan (m : MashIn) (b : Nat) : Nat × List Rat × List Nat × Nat :=
  let sites := (((List.range' (16 * b) 16).filter (· < m.height)).map (fun r => (List.range m.width).map (fun c => (r, c)))).flatten
  sites.foldl (fun (a : Nat × List Rat × List Nat × Nat) x =>
    let (clips, sums, cnts, bad) := a
    let v := m.site x.1 x.2
    let bad := bad + b2n (infinite (m.linear x.1 x.2).v)
    let k := if m.p = 1 then 0 else m.chanOf (m.planeAt x.1 x.2)
    if v.clip then (clips + 1, sums, cnts, bad) else (clips, upd sums k (· + fval v.v), upd cnts k (· + 1), bad))
    (0, [0, 0, 0], [0, 0, 0], 0)

/-- Grid pixels that the scaler reads for a tile row: spans of a row of the grid. -/
def MashIn.footprint (m : MashIn) (e : List Byte) (t : Nat) : List (Nat × Nat × Nat) :=
  let th := (fmtTile (fld e 1 1)).2.1
  let (x0, y0, w, h) := m.crop e
  let s := MashIn.ratio h (outHeight e)
  let rows := nub (((List.range' (t * th) th).filter (· < outHeight e)).map (fun r => (MashIn.weights s h r).map (·.1))).flatten
  rows.map (fun r => (y0 + r, x0, w))

/-- The pixels of some spans that lie in none of the spans counted before. -/
def newPixels (seen todo : List (Nat × Nat × Nat)) : List (Nat × Nat) :=
  let old (p : Nat × Nat) : Bool := seen.any (fun x => x.1 == p.1 && decide (x.2.1 ≤ p.2) && decide (p.2 < x.2.1 + x.2.2))
  nub ((todo.map (fun x => ((List.range' x.2.1 x.2.2).map (fun c => (x.1, c))).filter (fun p => !old p))).flatten)

/-- A Mash job has run: tile rows written, records counted. Answers its status. -/
def State.runMash (s : State) (j : Job) (f : JobFacts) : Nat × State :=
  match s.devOf (j.ctx.getD 0) j.frame with
  | none => (if f.hwFault then stHwFault else stOk, s)
  | some d =>
    let c := d.ctx
    let reads := s.mashReads d j.unit
    let f := s.verify f reads ((d.anchors j.unit).filterMap (fun a =>
      (d.outFrame (fld a.1 0 1)).map (fun x => d.outArea x.out x.index)))
    let s := s.countMisses f reads j
    let s := s.cacheRead c d.seq (d.mashNeeds j.unit) (f.lost d.work)
    let (free, s) := s.drawNat
    let m := s.mashIn d j.unit f free
    let lost := (reads.map f.lostIn).sum
    let bad := f.hwFault || lost != 0
    let (clips, sums, cnts, siteBad) := if d.steepLost.testBit j.unit then (0, [0, 0, 0], [0, 0, 0], 0) else m.scan j.unit
    let todo := (d.anchors j.unit).filter (fun a => !(d.supportBands a.1 a.2).any (fun b => d.steepLost.testBit b))
    let spans := (todo.map (fun a => m.footprint a.1 a.2)).flatten
    let works := (newPixels d.scanned spans).map (fun p => m.working p.1 p.2)
    let outBad := (todo.map (fun a =>
      let th := (fmtTile (fld a.1 1 1)).2.1
      (((List.range' (a.2 * th) th).filter (· < outHeight a.1)).map (fun r =>
        ((List.range (outWidth a.1)).map (fun x => (m.primed d.tables a.1 r x).2)).sum)).sum)).sum
    let nonFin := siteBad + (works.map (·.2.1)).sum + outBad
    let s := if bad then s else
      each (d.anchors j.unit) (fun a s =>
        let (e, t) := a
        let ok := todo.contains a
        match d.outFrame (fld e 0 1) with
        | none => s
        | some x =>
          let tiles := tileRow e t (if ok then m.packed d.tables e else fun _ x => zeroPixel e x)
          s.putTiles j.engine (d.outArea x.out x.index) (t * outTilesX e) tiles) s
    let s := s.updDev c d.seq (fun x =>
      { x with clipMarked := x.clipMarked + clips, meanSums := List.zipWith (· + ·) x.meanSums sums,
               meanCounts := List.zipWith (· + ·) x.meanCounts cnts, mashSubst := x.mashSubst + lost,
               reconstructed := x.reconstructed + (works.filter (·.2.2)).length, nonFinite := x.nonFinite + nonFin,
               scanned := nub (x.scanned ++ spans) })
    let s := s.updMash c fun x => { x with nonFinite := x.nonFinite + BitVec.ofNat 32 nonFin }
    (if bad then stHwFault else stOk, s.flagTiles j (lost != 0))

/-- A Mash job has ended: the rows that it anchors are written or missing (R387), and finished output frames are counted. -/
def State.mashEnd (s : State) (j : Job) (ok : Bool) : State :=
  let c := j.ctx.getD 0
  match s.devOf c j.frame with
  | none => s
  | some d =>
    let s := s.updDev c d.seq (fun x =>
      { x with mashEnded := x.mashEnded ||| 2 ^ j.unit, mashLost := if ok then x.mashLost else x.mashLost ||| 2 ^ j.unit })
    each (d.anchors j.unit) (fun a s =>
      let (e, t) := a
      let o := fld e 0 1
      let miss := !ok || (d.supportBands e t).any (fun b => d.steepLost.testBit b)
      let s := s.updOut c d.seq o (fun x =>
        { x with missing := if miss then x.missing ||| 2 ^ t else x.missing, ended := x.ended ||| 2 ^ t })
      let s := s.updDev c d.seq (fun x =>
        { x with rowsWritten := x.rowsWritten + b2n ok, rowsMissing := x.rowsMissing + b2n miss })
      let s := if miss then s.updMash c fun x => { x with missing := x.missing + 1 } else s
      let all := match (s.devOf c d.seq).bind (·.outFrame o) with
        | some x => popCount (outTilesY e) x.ended == outTilesY e
        | none => false
      if all then s.updMash c fun x => { x with done := upd x.done o (· + 1) } else s) s

/-- The 64 bytes of the Mash record (R388). -/
def FrameDev.mashRecord (d : FrameDev) : List Byte :=
  let lost := popCount d.bands d.mashLost
  let mean (k : Nat) : Rat :=
    let k := if cfaPeriod d.core = 1 then 0 else k
    let n := d.meanCounts.getD k 0
    if n = 0 then 0 else r32 (d.meanSums.getD k 0 / (n : Nat))
  le 4 d.seq.toNat ++ le 4 d.frame.genNumber ++ le 4 (d.mashOutcome.getD 0).toNat ++
    le 2 (popCount d.bands d.mashMade - lost) ++ le 2 lost ++ le 4 d.rowsWritten ++ le 4 d.rowsMissing ++
    le 4 d.clipMarked ++ le 4 d.reconstructed ++ le 4 d.nonFinite ++ f32Field (mean 0) ++ f32Field (mean 1) ++
    f32Field (mean 2) ++ le 4 d.meanCounts.sum ++ le 4 d.mashSubst ++ le 1 (fld d.mash 3 1) ++ zeros 7

/-- A Mash job has retired; the frame's last one makes the record final. -/
def State.mashRetired (s : State) (j : Job) : State :=
  let c := j.ctx.getD 0
  let s := s.updDev c j.frame (fun x =>
    { x with mashRetired := x.mashRetired ||| 2 ^ j.unit, mashOutcome := joinWord x.mashOutcome j.outcome })
  match s.devOf c j.frame with
  | none => s
  | some d =>
    if popCount d.bands d.mashRetired < d.bands then s
    else (s.putRing c .mash d.seq d.mashRecord).updMash c fun x =>
      { x with lastSeq := d.seq, lastClipped := d.clipMarked }

/-! ## 3D LUT units (R395) -/

/-- A unit is DRAINING while only jobs of an older generation need its table, and free when none does; a table that waits for a
free unit then starts to load. -/
def State.drainLuts (s : State) : State :=
  let blocks := s.cfg.inForce ++ ((s.cfg.arming.map (·.blocks)).getD [])
  let wanted (u : LutUnit) : Bool := blocks.any (fun b => lutTypes.contains b.type && b.payload == u.table)
  let used (u : LutUnit) : Bool :=
    s.dev.any (fun d => popCount d.bands d.mashRetired < d.bands && d.frame.blocks.any (fun b => b.payload == u.table))
  let s := { s with luts := s.luts.map (fun (u : LutUnit) =>
      if u.st < 2 then u
      else if wanted u then { u with st := 2 } else if used u then { u with st := 3 } else LutUnit.reset) }
  s.loadLuts blocks

/-- A 3D LUT has been loaded into its unit. -/
def execLut3dLoaded (unit : Nat) (s : State) : Host.Outcome State Fault Refusal :=
  .next { s with luts := upd s.luts unit (fun u => if u.st = 1 then { u with st := 2 } else u) }

end Sys2Proof.Machine
end

