-- ==== Sys2Proof/Machine/Coding.lean ====
section
/-! DEFINITION. What the encoders' standards leave to the device and R402 to R405 settle: the profile, level and headers that a picture
signals, the quantization of a step, the source as HEVC codes it, and the motion search. The coded bytes themselves come with a job's
facts. -/

namespace Sys2Proof.Machine

open Sys2Proof

/-! ## JPEG XS (R402, R403) -/

/-- The profile of R402 for an entry: a 4:2:2 source at 10 bits takes Main 422.10, unless the entry sets HIGH. -/
def xsProfile (b : CtxBlocks) (e : List Byte) : Nat :=
  if fld e 1 1 = 0 then 4
  else if bit (fld e 7 1) 1 then 3
  else
    let o := (mashEntry b (fld e 1 1 - 1)).getD []
    if fld o 1 1 = 2 && fld o 2 1 = 10 then 1 else 2

/-- The colour transform: 0 none, 1 the reversible one, for an RGB source with RCT set, 2 Star-Tetrix, for source 0. -/
def xsTransform (b : CtxBlocks) (e : List Byte) : Nat :=
  if fld e 1 1 = 0 then 2
  else if bit (fld e 7 1) 0 && fld ((mashEntry b (fld e 1 1 - 1)).getD []) 1 1 = 4 then 1
  else 0

/-- The lowest level and sublevel that admit the picture; 0 is the unrestricted one. -/
def xsSignals (b : CtxBlocks) (e : List Byte) : Signals :=
  let (w, h) := encSize b e
  let level := (Config.xsLevels.find? (fun l => Config.xsLevelFits l w h (frameRate b))).getD 0
  .xs (Config.ppih (xsProfile b e)) level ((Config.xsSublevels.find? (fun l => Config.xsSublevelFits l level (fld e 4 2))).getD 0)
    (xsTransform b e)

/-- Quantization and refinement of a step. -/
def xsQuant (s : Nat) : Nat × Nat := (s / 16, 15 - s % 16)

/-- Marker segments that the unit of row k of n carries: the first opens the picture, with the CFA's own segments for Star-Tetrix, and
the last closes it (R398; their order is PRESUMED from ISO/IEC 21122-1, assumption 38). -/
def xsMarkers (transform k n : Nat) : List XsMarker :=
  (if k = 0 then [.soc, .cap, .pih, .cdt, .wgt] ++ (if transform = 2 then [.cts, .crg] else []) else []) ++ [.slh k] ++
    (if k + 1 = n then [.eoc] else [])

/-! ## HEVC headers (R398, R404) -/

/-- Chroma format and bit depth of a profile: Main and Main 10 are 4:2:0. -/
def hevcFormat (profile : Nat) : Nat × Nat := if profile = 1 then (1, 8) else if profile = 2 then (1, 10) else (2, 10)

/-- What the parameter sets of an entry signal: the colour description is the Mash output's encoding, matrix and range. -/
def hevcSignals (b : CtxBlocks) (e : List Byte) : Signals :=
  let o := (mashEntry b (fld e 1 1 - 1)).getD []
  let (chroma, depth) := hevcFormat (fld e 2 1)
  .hevc (fld e 2 1) (fld e 3 1) (fld e 4 1) depth chroma (if chroma = 1 then 2 else 0)
    (fld o 3 1, fld o 4 1) (fld o 5 1 == 1)
    (if bit (fld e 22 1) 0 then some { cbr := false, bitRate := fld e 8 4, cpbSize := if fld e 12 4 = 0 then fld e 8 4 else fld e 12 4 }
      else none) (frameRate b)

/-- NAL units that row k of n carries: the first opens the picture, the last closes it. -/
def rowNals (e : List Byte) (irap : Bool) (k n : Nat) : List NalKind :=
  let flags := fld e 22 1
  (if k = 0 then (if bit flags 2 then [.aud] else []) ++ (if irap then [.vps, .sps, .pps] else []) else []) ++ [.slice k] ++
    (if k + 1 = n && bit flags 1 then [.pictureHash] else [])

/-! ## The source of HEVC (R381, R404) -/

/-- A component of a YCC422 pixel pair at 10 bits, at a byte offset in the pixel's four bytes. -/
def State.sample422 (s : State) (t : Tiles) (o : List Byte) (x y off : Nat) : Nat :=
  fld (s.capRead (t.addr + (y / 8 * outTilesX o + x / 64) * t.size + (y % 8 * 64 + x % 64) * 4 + off) 2) 0 2 / 64

/-- Ten bits to eight: (v + 2) >> 2, and at most 255. -/
def toEight (v : Nat) : Nat := min 255 ((v + 2) / 4)

def lumaOf (s : State) (t : Tiles) (o : List Byte) (depth x y : Nat) : Nat :=
  let v := s.sample422 t o x y 2
  if depth = 8 then toEight v else v

/-- Cb or Cr at a chroma position. At 4:2:0 a row is formed at each even luma row, with taps 1/4, 1/2 and 1/4 over the rows above and
below, the nearest row inside the picture where there is none, and rounded half up (assumption 38). -/
def chromaOf (s : State) (t : Tiles) (o : List Byte) (chroma depth : Nat) (cr : Bool) (x y : Nat) : Nat :=
  let at_ (r : Nat) : Nat := s.sample422 t o (2 * x + b2n cr) (min r (outHeight o - 1)) 0
  let v := if chroma = 1 then (at_ (2 * y - 1) + 2 * at_ (2 * y) + at_ (2 * y + 1) + 2) / 4 else at_ y
  if depth = 8 then toEight v else v

/-- A CTU row of the source: luma, Cb and Cr. -/
def sourceRow (s : State) (t : Tiles) (o : List Byte) (profile k : Nat) : List (List Nat) × List (List Nat) × List (List Nat) :=
  let (chroma, depth) := hevcFormat profile
  let n := min 64 (outHeight o - 64 * k)
  let lines (first count w : Nat) (f : Nat → Nat → Nat) : List (List Nat) :=
    (List.range' first count).map (fun y => (List.range w).map (fun x => f x y))
  let cn := if chroma = 1 then n / 2 else n
  let c (cr : Bool) : List (List Nat) := lines (if chroma = 1 then 32 * k else 64 * k) cn (outWidth o / 2) (chromaOf s t o chroma depth cr)
  (lines (64 * k) n (outWidth o) (lumaOf s t o depth), c false, c true)

/-! ## Motion search (R405) -/

/-- Rows of a pyramid level over f × f samples of 8-bit luma. -/
def pyramidRows (luma : Nat → Nat → Nat) (w h f k : Nat) : List (List Nat) :=
  (List.range' (64 * k / f) (min 64 (h - 64 * k) / f)).map (fun y => (List.range (w / f)).map (fun x =>
    Config.pyramidSample (((List.range f).map (fun j => (List.range f).map (fun i => luma (f * x + i) (f * y + j)))).flatten)))

/-- A sample of a picture; outside it the nearest one inside. -/
def lumaPlane (p : List (List Nat)) (x y : Int) : Nat :=
  let row := p.getD (min y.toNat (p.length - 1)) []
  row.getD (min x.toNat (row.length - 1)) 0

/-- The n best by a cost, the first in order among equals. -/
def kBest {α : Type} [BEq α] (key : α → Nat) : Nat → List α → List α
  | 0, _ => []
  | n + 1, l => match leastBy key l with
    | some a => a :: kBest key n (l.filter (· != a))
    | none => []

/-- Vectors within a reach of a centre, row by row. -/
def around (c : Int × Int) (h v : Nat) : List (Int × Int) :=
  ((List.range (2 * v + 1)).map (fun j => (List.range (2 * h + 1)).map (fun i =>
    (c.1 + (i : Int) - (h : Int), c.2 + (j : Int) - (v : Int))))).flatten

def doubled (v : Int × Int) : Int × Int := (2 * v.1, 2 * v.2)

/-- SAD of a block of the picture against a reference moved by a vector. -/
def sad (cur : Nat → Nat → Nat) (ref : List (List Nat)) (x0 y0 w h : Nat) (v : Int × Int) : Nat :=
  ((List.range' y0 h).map (fun y => ((List.range' x0 w).map (fun x =>
    ((cur x y : Int) - lumaPlane ref (x + v.1) (y + v.2)).natAbs)).sum)).sum

/-- Level 2: the full search, of which the four best are kept. -/
def searchLevel2 (cur : Nat → Nat → Nat) (ref : List (List Nat)) (ctu k h : Nat) : List (Int × Int) :=
  kBest (sad cur ref (16 * ctu) (16 * k) 16 h) 4 (around (0, 0) 256 128)

/-- Level 1: around doubled each level 2 vector, around zero, and around the vector of the CTU to the left; the two best are kept. -/
def searchLevel1 (cur : Nat → Nat → Nat) (ref : List (List Nat)) (ctu k h : Nat) (coarse : List (Int × Int)) (left : Option (Int × Int)) :
    List (Int × Int) :=
  let centres := coarse.map doubled ++ [(0, 0)] ++ left.toList
  kBest (sad cur ref (32 * ctu) (32 * k) 32 h) 2 (nub ((centres.map (fun c => around c 4 4)).flatten))

/-- The CTUs of a row, left to right. -/
def searchCtus (cur1 cur2 : Nat → Nat → Nat) (r : RefPicture) (k h1 h2 : Nat) : Nat → List (List (Int × Int))
  | 0 => []
  | n + 1 =>
    let before := searchCtus cur1 cur2 r k h1 h2 n
    let left := (before.getLast?).bind List.head?
    before ++ [searchLevel1 cur1 r.level1 n k h1 (searchLevel2 cur2 r.level2 n k h2) left]

/-- Luma interpolation taps of ITU-T H.265 at a quarter position. -/
def lumaTaps : Nat → List Int
  | 1 => [-1, 4, -10, 58, 17, -5, 1, 0]
  | 2 => [-1, 4, -11, 40, 40, -11, 4, -1]
  | 3 => [0, 1, -5, 17, 58, -10, 4, -1]
  | _ => [0, 0, 0, 64, 0, 0, 0, 0]

def tapped (taps : List Int) (f : Int → Int) : Int := ((numbered taps).map (fun p => p.2 * f ((p.1 : Int) - 3))).sum

/-- A predicted luma sample at a position in quarter samples, at a bit depth of 8 or 10. -/
def interpolate (ref : List (List Nat)) (depth : Nat) (x y : Int) : Int :=
  let xi := x / 4
  let yi := y / 4
  let tx := lumaTaps (x % 4).toNat
  let ty := lumaTaps (y % 4).toNat
  let down := 2 ^ (depth - 8)
  let row (j : Int) : Int := tapped tx (fun i => lumaPlane ref (xi + i) (yi + j)) / down
  let v := if y % 4 = 0 then row 0
    else if x % 4 = 0 then tapped ty (fun j => lumaPlane ref xi (yi + j)) / down
    else tapped ty row / 64
  let shift := 2 ^ (14 - depth)
  min (max ((v + shift / 2) / shift) 0) (2 ^ depth - 1)

/-- Cost of a vector in quarter samples: SATD + λ × vector bits. -/
def vectorCostOf (cur : Nat → Nat → Nat) (ref : List (List Nat)) (depth qp : Nat) (u : PuFacts) (v : Int × Int) : Nat :=
  Config.satd ((List.range' u.y u.h).map (fun y => (List.range' u.x u.w).map (fun x =>
    (cur x y : Int) - interpolate ref depth (4 * x + v.1) (4 * y + v.2)))) + Config.vectorCost qp v.1 v.2

/-- Level 0, the half and the quarter positions, and the clamp. -/
def refineVector (cur : Nat → Nat → Nat) (ref : List (List Nat)) (depth qp : Nat) (u : PuFacts) (kept : List (Int × Int)) : Int × Int :=
  let best (vs : List (Int × Int)) : Int × Int := (leastBy (vectorCostOf cur ref depth qp u) vs).getD (0, 0)
  let v := best (nub (((kept.map (fun c => around (doubled c) 2 2)).flatten).map (fun v => (4 * v.1, 4 * v.2))))
  let step (v : Int × Int) (d : Int) : Int × Int := best ((around (0, 0) 1 1).map (fun a => (v.1 + d * a.1, v.2 + d * a.2)))
  let v := step (step v 2) 1
  (min (max v.1 (-4096)) 4096, min (max v.2 (-2048)) 2048)

/-- The references of a picture (R406): a P picture takes the last L0 anchors in coding order, a B picture the nearest one before and the
nearest one after it in output order. -/
def refsFor (refs : List RefPicture) (type poc count : Nat) : List RefPicture :=
  if type = 0 then []
  else if type = 1 then (refs.filter (·.anchor)).take count
  else (leastBy (fun r => poc - r.poc) (refs.filter (fun r => decide (r.poc < poc)))).toList ++
    (leastBy (fun r => r.poc - poc) (refs.filter (fun r => decide (poc < r.poc)))).toList

/-- The reconstruction of a row coded whole at the floor step (R404, R416): it repeats its reference, and in an I picture it is flat DC. -/
def floorRecon (depth w h k : Nat) (refs : List RefPicture) : List (List Nat) :=
  let n := min 64 (h - 64 * k)
  match refs with
  | r :: _ => (r.recon.drop (64 * k)).take n
  | [] => List.replicate n (List.replicate w (2 ^ (depth - 1)))

/-- What an HEVC core works with in row k of a picture. `floor`: the whole row is at the floor step. -/
def rowWork (s : State) (t : Tiles) (o e : List Byte) (refs : List RefPicture) (qp k : Nat) (floor : Bool) (f : JobFacts) : RowWork :=
  let (_, depth) := hevcFormat (fld e 2 1)
  let w := outWidth o
  let h := outHeight o
  let luma8 (x y : Nat) : Nat := toEight (s.sample422 t o x y 2)
  let l1 := pyramidRows luma8 w h 2 k
  let l2 := pyramidRows luma8 w h 4 k
  let at_ (p : List (List Nat)) (first : Nat) (x y : Nat) : Nat := lumaPlane p x ((y : Int) - first)
  let kept := refs.map (fun r => searchCtus (at_ l1 (32 * k)) (at_ l2 (16 * k)) r k l1.length l2.length (ceilDiv w 64))
  { source := sourceRow s t o (fld e 2 1) k, level1 := l1, level2 := l2, recon := if floor then floorRecon depth w h k refs else f.recon, kept := kept,
    vectors := f.pus.filterMap (fun u => (refs[u.ref]?).map (fun r =>
      (u, refineVector (lumaOf s t o depth) r.recon depth qp u ((kept.getD u.ref []).getD (u.x / 64) [])))) }

/-- The reconstruction of a picture in the encoding's memory: its luma in tiles of 64 × 16 samples of 2 bytes, one picture after the
other (DESIGN CHOICE: R422 gives the size and no layout; assumption 38). -/
def reconArea (base w h place : Nat) : Tiles :=
  let n := ceilDiv w 64 * ceilDiv h 16
  let a := base + place * n * 2052
  { addr := a, size := 2048, count := n, tags := a + n * 2048 }

/-- The tiles of a CTU row of luma. -/
def reconTiles (w : Nat) (rows : List (List Nat)) : List (List Byte) :=
  let tx := ceilDiv w 64
  (List.range (tx * ceilDiv rows.length 16)).map (fun t =>
    ((List.range 1024).map (fun k => le 2 ((rows.getD (t / tx * 16 + k / 64) []).getD (t % tx * 64 + k % 64) 0))).flatten)

/-- The reference that a picture leaves when every row of it has been coded. -/
def Picture.asRef (p : Picture) : RefPicture :=
  { number := p.number, poc := p.poc, anchor := p.type != 2, place := p.place, recon := (p.rows.map (·.work.recon)).flatten,
    level1 := (p.rows.map (·.work.level1)).flatten, level2 := (p.rows.map (·.work.level2)).flatten }

end Sys2Proof.Machine
end

