-- ==== Sys2Proof/Machine/Streams.lean ====
section
/-! DEFINITION. Streams as the consumers of frames: which frames feed them, the class and deadline of work that they consume
(R39, R201), and the units of their reorder stages (R45–R48). -/

namespace Sys2Proof.Machine

open Sys2Proof

/-! ## Consumers, classes and deadlines (R39, R201, R452) -/

/-- Class of the work that a stream consumes; none when it consumes nothing. -/
def Stream.consumes (t : Stream) : Option Nat :=
  if t.entry.isNone then none
  else if t.type = 0 then some (if t.proxy then 4 else 2)
  else if t.enable then some 1 else none

/-- Streams that consume an encoding, a Mash output of a context, or a decode stream. -/
def State.streamsOf (s : State) (p : Stream → Bool) : List Nat :=
  (List.range 32).filter (fun n => (s.stream n).consumes.isSome && p (s.stream n))

def State.encStreams (s : State) (e : Nat) : List Nat := s.streamsOf (fun t => t.srcKind == 0 && t.srcIndex == e)

def State.mashStreams (s : State) (c o : Nat) : List Nat :=
  s.streamsOf (fun t => t.srcKind == 2 && t.ctxId == c && t.srcIndex == o)

/-- The class of best rank among some streams; C6 without any. -/
def State.bestClass (s : State) (ns : List Nat) : Nat :=
  let cs := ns.filterMap (fun n => (s.stream n).consumes)
  if cs.contains 1 then 1 else if cs.contains 2 then 2 else if cs.contains 4 then 4 else 6

/-- Streams behind a frame's developed tiles: those of its outputs and of the encodings of its outputs. -/
def State.devStreams (s : State) (b : CtxBlocks) (c : Nat) : List Nat :=
  ((mashEntries b).map (fun e => s.mashStreams c (fld e 0 1))).flatten ++
    ((encsOf b).map (fun x => if fld x.2.2 1 1 = 0 then [] else s.encStreams x.1)).flatten

/-- Budgets of ENERGY_CONTEXT in ns (R213): monitor, record, proxy. The default monitor budget is two frame periods, from 1 ms to
1 s. -/
def monitorBudget (b : CtxBlocks) : Nanos :=
  let p := (b 0x0C02).getD []
  if fld p 0 4 ≠ 0 then us (fld p 0 4)
  else
    let two := (2 * framePeriod ((b 0x0203).getD [])).floor.toNat
    max (us 1000) (min (us 1000000) two)

def recordBudget (b : CtxBlocks) : Nanos :=
  let v := fld ((b 0x0C02).getD []) 4 4
  ms (if v = 0 then 80 else v)

def proxyBudget (b : CtxBlocks) : Nanos :=
  let v := fld ((b 0x0C02).getD []) 8 4
  ms (if v = 0 then 1000 else v)

/-- Deadline of a job of a class created now for a frame whose FS was at a time. -/
def State.deadlineOf (s : State) (b : CtxBlocks) (cls fs : Nat) : Option Nanos :=
  match cls with
  | 1 => some (fs + monitorBudget b)
  | 2 => some (s.now + recordBudget b)
  | 4 => some (fs + proxyBudget b)
  | _ => none

/-- The blocks that a frame latched, while the device still holds the frame; else those in force (R43, R44). -/
def State.frameBlocks (s : State) (c : Nat) (q : BitVec 32) : List Block :=
  match (s.ctx c).record q, s.devOf c q with
  | some f, _ => f.blocks
  | none, some d => d.frame.blocks
  | none, none => s.cfg.inForce

/-- The generation of a frame. -/
def State.frameGen (s : State) (c : Nat) (q : BitVec 32) : Nat :=
  match (s.ctx c).record q, s.devOf c q with
  | some f, _ => f.genNumber
  | none, some d => d.frame.genNumber
  | none, none => s.liveNumber

/-! ## Units (R45–R48) -/

/-- Whether a frame of a stream's context feeds it: an output that runs, or a take that is open for the frame (R468). -/
def Stream.feeds (t : Stream) (q : BitVec 32) : Bool :=
  if t.type = 0 then
    t.takeOpen && (0 ≤ (q - t.startSeq).toInt) && (match t.stopSeq with | some z => (q - z).toInt < 0 | none => true)
  else t.enable

/-- Give a unit the next sequence number of its stream; the stage was empty when it becomes the head at once (R48). -/
def State.addUnit (s : State) (n : Nat) (u : StreamUnit) : State :=
  s.updStream n fun t =>
    { t with units := t.units ++ [{ u with seq := t.nextUnit }], nextUnit := (t.nextUnit + 1) % 2 ^ 32,
             headSince := if t.units.isEmpty then s.now else t.headSince }

/-- A unit of a frame. -/
def unitOf (f : Frame) (job picture row rows : Nat) (deadline : Option Nanos) : StreamUnit :=
  { seq := 0, job := job, done := false, gap := 0, bytes := [], status := 0, frame := f.seq, picture := picture, row := row,
    rows := rows, fsTbm := f.fsTbm, deadline := deadline }

/-- Change the units of a job in every stream. -/
def State.mapUnits (s : State) (job : Nat) (f : StreamUnit → StreamUnit) : State :=
  { s with streams := s.streams.map (fun t => { t with units := t.units.map (fun u => if u.job = job then f u else u) }) }

/-- A job of some streams has ended: its units are done, or gaps with its status (R46). A stream that has already released the
unit counts a late completion (R48). -/
def State.endUnits (s : State) (j : Job) (gap : Bool) (bytes : List Byte) (status : Nat) : State :=
  let s := each j.streams (fun p s =>
    if (s.stream p.1).units.any (fun u => u.seq == p.2 && u.job == j.id) || isRefusal status then s
    else s.updStream p.1 fun t => { t with late := t.late + 1 }) s
  s.mapUnits j.id (fun u => { u with done := true, gap := if gap then status else 0, bytes := bytes, status := status })

end Sys2Proof.Machine
end

