-- ==== Sys2Proof/Machine/Encode.lean ====
section
/-! DEFINITION. The encoders (chapter 12): pictures and their rows, rate control, records, the ENC registers and commands. -/

namespace Sys2Proof.Machine

open Sys2Proof

/-! ## Parameters of an encoding -/

def encWindow (codec : Nat) (e : List Byte) : Nat :=
  let w := fld e (if codec = 0 then 19 else 21) 1
  if w = 0 then 8 else w

def encHeadroom (codec : Nat) (e : List Byte) : Nat :=
  let h := fld e (if codec = 0 then 18 else 20) 1
  if h = 0 then 2 else h

/-- CPB size of an HEVC encoding in bytes (R421). -/
def cpbBytes (e : List Byte) : Nat := (if fld e 12 4 = 0 then fld e 8 4 else fld e 12 4) * 125

def encTarget (b : CtxBlocks) (codec : Nat) (e : List Byte) (type : Nat) : Nat :=
  if codec = 0 then xsTarget b e else hevcTarget b e type

/-- V_max, and C at a target T (R411, R415, R420). -/
def encVmax (codec : Nat) (e : List Byte) : Nat := if codec = 0 then fld e 8 4 else cpbBytes e / 2

def encCap (codec : Nat) (e : List Byte) (t : Nat) : Nat :=
  if codec = 1 then cpbBytes e * 9 / 10 else if fld e 12 4 = 0 then t + fld e 8 4 else fld e 12 4

def startStep (codec : Nat) (e : List Byte) : Nat := if codec = 0 then fld e 16 2 else fld e 17 1

/-- The floor step, which for HEVC is kept beside QP 51, and every step that rate control seeks among, finest first (R403, R404, R411). -/
def floorStep (codec : Nat) : Nat := if codec = 0 then 511 else 52
def stepRange (codec : Nat) : List Nat := List.range (if codec = 0 then 512 else 52)

/-- The estimate of a row at a step (R410). -/
def estimate (codec : Nat) (size : Rat) (step q : Nat) : Rat :=
  size * exp2R (((step : Rat) - (q : Nat)) / (if codec = 0 then 16 else 6))

/-- The number of the encoding at an entry. -/
def State.encNumber (s : State) (e : Nat) : Nat := match (s.enc e).replaced with | some (n, _) => n | none => e

def emptyRow : EncRow :=
  { issued := false, allow := 0, step := 0, size := 0, made := false, ended := false, retired := false, floored := false,
    lost := false, missing := false, status := 0, quant := (0, 0), markers := [], nals := [],
    work := { source := ([], [], []), level1 := [], level2 := [], recon := [], kept := [], vectors := [] } }

namespace Picture

def blk (p : Picture) : CtxBlocks := ctxBlocks p.blocks p.ctx

/-- Size and step that a row's estimate starts from. -/
def basis (p : Picture) (x : Encoding) (k : Nat) : Rat × Nat :=
  match ((x.history.getD p.type []).getD k none) with
  | some (sz, st) => ((sz : Nat), st)
  | none =>
    let (w, h) := encSize p.blk p.entry
    let pk := encRowPixels p.blk x.codec p.entry k
    (if w * h = 0 then 0 else (p.target : Rat) * (pk : Nat) / (w * h : Nat), startStep x.codec p.entry)

def floorOf (p : Picture) (codec k : Nat) : Nat := floorSize (encRowPixels p.blk codec p.entry k)

/-- Estimates of all rows at a step. -/
def estimates (p : Picture) (x : Encoding) (q : Nat) : List Rat :=
  (List.range p.rows.length).map (fun k => let z := p.basis x k; estimate x.codec z.1 z.2 q)

end Picture

/-! ## The first row of a picture (R406–R408, R411) -/

/-- The source's Mash output entry, empty for source 0. -/
def sourceEntry (b : CtxBlocks) (e : List Byte) : List Byte :=
  if fld e 1 1 = 0 then [] else (mashEntry b (fld e 1 1 - 1)).getD []

/-- The encoder block of a context for a codec. -/
def encBlock (b : CtxBlocks) (codec : Nat) : List Byte := (b (if codec = 0 then 0x0501 else 0x0502)).getD []

/-- The blocks whose change starts a refresh (R407, cause 3): the encoder block, and the block of the source's Mash output. -/
def refreshBlocks (b : CtxBlocks) (codec : Nat) (e : List Byte) : List Byte × List Byte :=
  (encBlock b codec, if fld e 1 1 = 0 then [] else (b 0x0402).getD [])

/-- The cause of a refresh that a picture with these blocks takes; 0 for none. -/
def Encoding.refreshNow (x : Encoding) (blocks : List Byte × List Byte) : Nat :=
  let changed := match x.used with
    | some u => u != blocks
    | none => false
  if x.codec = 0 then 0 else if x.refresh ≠ 0 then x.refresh else if changed then 3 else 0

/-- B, q_p and the estimates of a picture that begins. Where no step's estimates fit, the coarsest is planned (DESIGN CHOICE,
assumption 9). -/
def Picture.start (p : Picture) (x : Encoding) : Picture :=
  let t := x.targets.getD p.type 0
  let p : Picture := { p with target := t, begun := true, signals := if x.codec = 0 then xsSignals p.blk p.entry else hevcSignals p.blk p.entry }
  let hrd := x.codec = 1 && bit (fld p.entry 22 1) 0
  let b0 := min (encCap x.codec p.entry t : Int) ((t : Int) + x.reservoir)
  let b := if hrd then min b0 x.cpb.floor else b0
  let fits (q : Nat) : Bool := decide ((p.estimates x q).sum ≤ (b : Rat) * 95 / 100)
  let steps := stepRange x.codec
  let q := (steps.find? fits).getD ((steps.getLast?).getD 0)
  let es := p.estimates x q
  { p with budget := b, qp := q, ests := es, estSum := es.sum }

/-- A changed encoder block has applied: V, the estimates and the targets start again (R408, R423). -/
def Encoding.restarted (x : Encoding) (p : Picture) : Encoding :=
  let block := encBlock p.blk x.codec
  if x.begun = some block then x
  else
    let ts := (List.range 3).map (encTarget p.blk x.codec p.entry)
    { x with reservoir := 0, history := [[], [], []], begun := some block, targets := ts,
             cpb := (encCap x.codec p.entry (ts.headD 0) : Nat) }

/-- A picture begins, when the first of its rows is issued, or ends without having been. -/
def State.beginPicture (s : State) (e number : Nat) : State :=
  let x := s.enc e
  match x.pics.find? (fun p => p.number == number && !p.begun) with
  | none => s
  | some p =>
    let late := x.codec = 1 && fld p.entry 5 1 = 0
    let blocks := refreshBlocks p.blk x.codec p.entry
    let cause := if late then x.refreshNow blocks else p.refresh
    let idr := decide (x.gopPos = 0) || cause != 0 || x.used.isNone
    let pos := if idr then 0 else x.gopPos
    let n := max 1 (fld p.entry 6 2)
    let p : Picture := if late then
        { p with type := if idr then 0 else 1, refresh := cause, poc := if idr then 0 else x.poc,
                 isRef := decide (pos + 1 < n) }
      else p
    let x := x.restarted p
    let taken := x.refs.filterMap (·.place) ++ x.pics.filterMap (·.place)
    let (place, s) := if x.codec = 1 then
        s.choose ((List.range (fld p.entry 16 1 + fld p.entry 5 1 + 1)).filter (fun k => !taken.contains k))
      else (none, s)
    let p := { p.start x with place := place }
    let x : Encoding := { x with used := if late || x.codec = 0 then some blocks else x.used,
                                 pics := x.pics.map (fun y => if y.number = p.number then p else y) }
    let x : Encoding := if late then
        { x with gopPos := (pos + 1) % n, poc := p.poc + 1, refresh := 0 }
      else x
    let s := s.updEnc e fun _ => x
    if x.codec = 1 && p.type = 0 && p.refresh ≠ 0 then
      s.raise 0x0C02 (srcCtx p.ctx) (le 4 p.number ++ le 1 (s.encNumber e) ++ le 1 p.refresh)
    else s

/-! ## Rows (R399, R400, R411) -/

/-- The picture whose row a job codes. -/
def Encoding.pic (x : Encoding) (number : Nat) : Option Picture := x.pics.find? (fun p => p.number == number)

def State.updPic (s : State) (e number : Nat) (f : Picture → Picture) : State :=
  s.updEnc e fun x => { x with pics := x.pics.map (fun p => if p.number = number then f p else p) }

def State.updRow (s : State) (e number k : Nat) (f : EncRow → EncRow) : State :=
  s.updPic e number (fun p => { p with rows := upd p.rows k f })

/-- Number of the picture of a row job. -/
def Job.picture (j : Job) : Nat := j.args.getD 0 0

/-- Tile rows of the source that a row of an encoding needs. -/
def rowTiles (b : CtxBlocks) (codec : Nat) (e : List Byte) (k : Nat) : List Nat :=
  let th := (fmtTile (fld (sourceEntry b e) 1 1)).2.1
  let h := (encSize b e).2
  let n := encRowLines codec e
  let lo := k * n / th
  let hi := (min h ((k + 1) * n) - 1) / th
  List.range' lo (hi + 1 - lo)

/-- Sensor rows that a source-0 row needs, as bands. -/
def rowBands (e : List Byte) (h k : Nat) : List Nat :=
  let n := encRowLines 0 e
  let lo := k * n / 16
  let hi := (min h ((k + 1) * n) - 1) / 16
  List.range' lo (hi + 1 - lo)

/-- A source tile row of the row is missing (R416). -/
def State.rowMissing (s : State) (p : Picture) (codec k : Nat) : Bool :=
  let src := fld p.entry 1 1
  src != 0 && (match (s.devOf p.ctx p.seq).bind (·.outFrame (src - 1)) with
    | some o => (rowTiles p.blk codec p.entry k).any (fun t => o.missing.testBit t)
    | none => true)

/-- R399 and R411's part of eligibility: rows of a picture are issued in ascending order. -/
def State.rowReady (s : State) (j : Job) : Bool :=
  match (s.enc j.object).pic j.picture with
  | none => true
  | some p =>
    (j.unit == 0 || (match p.rows[j.unit - 1]? with | some r => r.issued || r.ended | none => true)) &&
      (p.begun || ((s.enc j.object).pics.takeWhile (fun y => y.number != p.number)).all (·.begun))

/-- Allowance and step of a row at its issue. -/
def Picture.allow (p : Picture) (x : Encoding) (k : Nat) : Nat × Nat × Bool :=
  let w := encWindow x.codec p.entry
  let row (i : Nat) : EncRow :=
    p.rows.getD i emptyRow
  let used := ((List.range k).map (fun i =>
    let r := row i
    if i + w ≤ k && !r.lost then r.size else r.allow)).sum
  let later := ((List.range' (k + 1) (p.rows.length - k - 1)).map (p.floorOf x.codec)).sum
  let free : Int := p.budget - used - later
  let f := p.floorOf x.codec k
  if p.flooredAt || free < 8 * f then (f, floorStep x.codec, true)
  else
    let e := p.ests.getD k 0
    let share : Nat := if p.estSum = 0 then 0 else floorNat ((encHeadroom x.codec p.entry : Nat) * e * (p.budget : Rat) / p.estSum)
    (min free.toNat (max f share), p.qp, false)

/-- A row job is issued. -/
def State.issueRow (s : State) (j : Job) : State :=
  let s := match (s.enc j.object).pic j.picture with
    | some p => s.beginPicture j.object p.number
    | none => s
  let x := s.enc j.object
  match x.pic j.picture with
  | none => s
  | some p =>
    let miss := s.rowMissing p x.codec j.unit
    let (a, st, fl) := p.allow x j.unit
    let (a, st, fl) := if miss then (p.floorOf x.codec j.unit, floorStep x.codec, p.flooredAt) else (a, st, fl)
    let s := s.updPic j.object p.number (fun p => { p with flooredAt := p.flooredAt || fl })
    s.updRow j.object p.number j.unit (fun r =>
      { r with issued := true, allow := a, step := st, missing := miss, floored := !miss && (fl || st == floorStep x.codec) })

/-! ## Coding a row (R412–R414) -/

/-- JPEG XS: the finest step from `step` on whose size fits, and that size; at the floor step it is never above the floor size (R409). -/
def codeXs (sizes : List Nat) (step allow floor : Nat) : Nat × Nat :=
  let size (q : Nat) : Nat := if q = 511 then min floor (sizes.getD q 0) else sizes.getD q 0
  match (List.range' step (512 - step)).find? (fun q => size q ≤ allow) with
  | some q => (q, size q)
  | none => (511, size 511)

/-- HEVC: size of the row, and whether its last CTU is at the floor step. CTU sizes are by QP, the floor step at index 52, where the
slice header takes at most 64 bytes and a CTU at most its f (R409). -/
def codeHevc (head : Nat) (ctus : List (List Nat)) (fs : List Nat) (qp lo hi allow : Nat) (floorAll : Bool) : Nat × Bool :=
  let n := ctus.length
  (numbered ctus).foldl (fun (a : Nat × Bool) c =>
    let reserve := (fs.drop (c.1 + 1)).sum
    let d := roundRat ((((a.1 : Nat) : Rat) - (allow : Rat) * (c.1 : Nat) / (n : Nat)) / ((allow : Nat) / 16))
    let d := max (-6) (min d 6)
    let q := (max (lo : Int) (min ((qp : Int) + d) hi)).toNat
    let sz := c.2.getD q 0
    if floorAll || allow < a.1 + sz + reserve then (a.1 + min (fs.getD c.1 0) (c.2.getD 52 0), true) else (a.1 + sz, false))
    (min 64 head, false)

/-- f of each CTU of a row (R409). -/
def ctuFloors (w rows : Nat) : List Nat :=
  (List.range (ceilDiv w 64)).map (fun i =>
    let p := min 64 (w - 64 * i) * rows
    if p = 4096 then 32 else ceilDiv p 128)

/-- The source tiles that a row job reads: those of its rows, but for tile rows that Mash has marked missing. -/
def State.rowReads (s : State) (j : Job) : List Tiles :=
  let x := s.enc j.object
  match s.devOf (j.ctx.getD 0) j.frame, x.pic j.picture with
  | some d, some p =>
    if fld p.entry 1 1 = 0 then (rowBands p.entry d.frame.height j.unit).map (d.part d.raw)
    else match d.outFrame (fld p.entry 1 1 - 1) with
      | some o =>
        let w := outTilesX (sourceEntry p.blk p.entry)
        let ts := (rowTiles p.blk x.codec p.entry j.unit).filter (fun t => !o.missing.testBit t)
        if ts.length < (rowTiles p.blk x.codec p.entry j.unit).length then []
        else (ts.map (fun t => (List.range' (t * w) w).map (d.outArea o.out o.index).one)).flatten
      | none => []
  | _, _ => []

/-- Where the reconstruction of a picture or reference of an encoding lies. -/
def State.reconAt (s : State) (e : Nat) (p : Picture) (place : Nat) : Tiles :=
  let (w, h) := encSize p.blk p.entry
  reconArea (s.regionBase 6 e) w h place

/-- The tiles of its references that an HEVC row reads. -/
def State.refReads (s : State) (j : Job) (f : JobFacts) : List Tiles :=
  let x := s.enc j.object
  match x.pic j.picture with
  | some p =>
    let refs := if x.codec = 0 then [] else refsFor x.refs p.type p.poc (fld p.entry 16 1)
    f.refTiles.filterMap (fun r => (refs[r.1]?).bind (fun q => q.place.map (fun k => (s.reconAt j.object p k).one r.2)))
  | none => []

/-- The reconstruction of a row goes to the encoding's memory. -/
def State.putRecon (s : State) (j : Job) (p : Picture) (rows : List (List Nat)) : State :=
  match p.place with
  | some k =>
    let w := (encSize p.blk p.entry).1
    s.putTiles j.engine (s.reconAt j.object p k) (4 * j.unit * ceilDiv w 64) (reconTiles w rows)
  | none => s

/-- A row job has run: size, step and status of the row, and its bytes. -/
def State.runRow (s : State) (j : Job) (f : JobFacts) : Nat × List Byte × State :=
  let x := s.enc j.object
  let src := s.rowReads j ++ s.refReads j f
  let f := s.verify f src
  let s := s.countMisses f src j
  let lost := (src.map f.lostIn).sum
  let s := s.flagTiles j (lost != 0)
  if f.hwFault || lost ≠ 0 then (stHwFault, [], s)
  else match x.pic j.picture with
    | none => (stOk, f.coded, s)
    | some p =>
      let r := p.rows.getD j.unit emptyRow
      let (w, h) := encSize p.blk p.entry
      let (step, size, fl) :=
        if x.codec = 0 then
          let (q, z) := codeXs f.sizes r.step r.allow (p.floorOf 0 j.unit)
          (q, z, r.floored)
        else
          let base := p.basis x j.unit
          let qs := (stepRange 1).filter (fun q => r.step ≤ q)
          let qk := (qs.find? (fun q => decide (estimate 1 base.1 base.2 q ≤ (r.allow : Nat)))).getD 51
          let (z, last) := codeHevc (f.sizes.headD 64) f.ctus (ctuFloors w (min 64 (h - 64 * j.unit))) qk (fld p.entry 18 1)
            (fld p.entry 19 1) r.allow (r.step == 52)
          (if r.step = 52 then 52 else qk, z, r.floored || (!r.missing && last))
      let st := if fl then stBudgetExhausted else stOk
      let work := match (s.devOf (j.ctx.getD 0) j.frame).bind (fun d => (d.outFrame (fld p.entry 1 1 - 1)).map (fun o => d.outArea o.out o.index)) with
        | some t => if x.codec = 0 then emptyRow.work else
            rowWork s t (sourceEntry p.blk p.entry) p.entry (refsFor x.refs p.type p.poc (fld p.entry 16 1)) step j.unit (step == 52) f
        | none => emptyRow.work
      let s := s.updRow j.object p.number j.unit (fun r =>
        if r.lost then r
        else { r with size := size, step := step, floored := fl, status := st, work := work,
                      quant := if x.codec = 0 then xsQuant step else (0, 0),
                      markers := if x.codec = 0 then xsMarkers (xsTransform p.blk p.entry) j.unit p.rows.length else [],
                      nals := if x.codec = 0 then [] else rowNals p.entry (p.type == 0) j.unit p.rows.length })
      (st, fit size f.coded, s.putRecon j p work.recon)

/-- A reference has been lost: one refresh follows; of several causes the lowest is kept (R407). -/
def Encoding.wantRefresh (x : Encoding) (cause : Nat) : Encoding :=
  { x with refresh := if x.refresh = 0 then cause else min x.refresh cause }

/-- A row is lost (R417), once: no bytes; an HEVC picture that is referenced starts a refresh. A picture that loses its first row begins
with it. -/
def State.loseRow (s : State) (e number k status : Nat) : State :=
  let s := s.beginPicture e number
  match (s.enc e).pic number with
  | none => s
  | some p =>
    let again := match p.rows[k]? with | some r => r.lost | none => false
    let s := s.updRow e number k (fun r => { r with lost := true, floored := false, size := 0, status := status })
    if again then s
    else
      let s := s.updEnc e fun x => { x with lost := x.lost + 1 }
      if (s.enc e).codec = 1 && p.isRef then s.updEnc e fun x => x.wantRefresh 2 else s

/-- A row job has ended. -/
def State.rowEnded (s : State) (j : Job) (status : Nat) : State :=
  let s := s.updRow j.object j.picture j.unit (fun r => { r with ended := true })
  if status = stHwFault || isRefusal status then s.loseRow j.object j.picture j.unit status else s

/-! ## The end of a picture (R411, R418, R419) -/

/-- Worst status of the rows. -/
def Picture.status (p : Picture) : Nat :=
  if p.rows.any (·.status == stHwFault) then stHwFault
  else match p.rows.find? (fun r => isRefusal r.status) with
    | some r => r.status
    | none => if p.rows.any (·.floored) then stBudgetExhausted else stOk

/-- The references after a picture: an IDR picture starts them again, and one with a lost row is dropped as a reference (R406, R417).
What a GOP can still need are two anchors, and for M = 3 the middle B picture. -/
def Encoding.keepRef (x : Encoding) (p : Picture) (lost : Bool) : List RefPicture :=
  let old := if p.type = 0 then [] else x.refs
  if x.codec = 0 then [] else if p.isRef && !lost then (p.asRef :: old).take 4 else old

/-- Every row has retired: the reservoir, the history, the record and the events. -/
def State.endPicture (s : State) (e : Nat) (p : Picture) : State :=
  let x := s.enc e
  let n (f : EncRow → Bool) : Nat := (p.rows.filter f).length
  let size := (p.rows.map (·.size)).sum
  let charge : Nat := (((numbered p.rows).filter (·.2.floored)).map (fun r =>
    floorNat (max 0 (p.ests.getD r.1 0 - (p.floorOf x.codec r.1 : Nat))))).sum
  let vmax : Int := encVmax x.codec p.entry
  let v0 : Int := x.reservoir + p.target - size - charge
  let v := min (max v0 (-vmax)) vmax
  let clamped := decide (v0 < -vmax)
  let fl := n (·.floored)
  let lost := n (·.lost)
  let miss := n (·.missing)
  let flags := b2n (fl != 0) + 2 * b2n (miss != 0) + 4 * b2n (x.codec == 1 && p.type == 0) + 8 * b2n (lost != 0) + 16 * b2n clamped
  let rec_ := le 4 p.number ++ le 4 p.seq.toNat ++ le 1 (s.encNumber e) ++ le 1 x.codec ++ le 2 p.status ++ le 4 flags ++ le 1 p.type ++
    le 1 p.refresh ++ le 2 p.qp ++ le 2 p.rows.length ++ le 2 fl ++ le 2 lost ++ le 2 miss ++
    le 4 (p.outcome.getD 0).toNat ++ le 4 size ++ leInt 4 p.budget ++ le 4 p.target ++ le 4 charge ++ leInt 4 v ++
    le 4 p.firstUnit ++ le 4 p.poc ++ le 4 0
  let old := x.history.getD p.type []
  let hist := (numbered p.rows).map (fun r =>
    if r.2.lost || r.2.missing || r.2.step == floorStep x.codec then old.getD r.1 none else some (r.2.size, r.2.step))
  let mean : Rat := if x.codec = 1 && frameRate p.blk ≠ 0 then (fld p.entry 8 4 : Rat) * 125000 / (frameRate p.blk : Nat) else 0
  let s := s.updEnc e fun y =>
    { y with reservoir := v, history := y.history.set p.type hist, cpb := min (cpbBytes p.entry : Nat) (y.cpb - (size : Nat) + mean),
             pics := y.pics.filter (fun q => q.number != p.number), refs := y.keepRef p (lost != 0), records := ((p.number, rec_) :: y.records).take 256,
             lastType := p.type, lastStep := p.qp, lastPicture := p.number, lastReservoir := v, lastSize := size,
             exhausted := if fl = 0 then y.exhausted else y.exhausted + 1, floored := y.floored + BitVec.ofNat 32 fl }
  let s := if fl = 0 then s else
    s.raiseLimited x.lastExhaustEvent (sec 1) 0x0C01 (srcCtx p.ctx)
      (le 4 p.number ++ le 1 (s.encNumber e) ++ le 1 0 ++ le 2 fl ++ le 4 charge ++ leInt 4 v)
      (fun t s => s.updEnc e fun y => { y with lastExhaustEvent := t })
  if v = -vmax then
    s.raiseLimited x.lastLimitEvent (sec 1) 0x0C03 (srcCtx p.ctx) (le 4 p.number ++ le 1 (s.encNumber e) ++ le 3 0 ++ leInt 4 v0)
      (fun t s => s.updEnc e fun y => { y with lastLimitEvent := t })
  else s

/-- A row job has retired. -/
def State.rowRetired (s : State) (j : Job) : State :=
  let s := s.updRow j.object j.picture j.unit (fun r => { r with retired := true })
  let s := s.updPic j.object j.picture (fun p => { p with outcome := joinWord p.outcome j.outcome })
  match (s.enc j.object).pic j.picture with
  | none => s
  | some p => if p.rows.all (·.retired) then s.endPicture j.object p else s

/-! ## Creating pictures and rows (R398–R401, R406) -/

/-- A picture of a frame is created, with no rows' jobs yet. -/
def State.newPicture (s : State) (e : Nat) (f : Frame) (ent : List Byte) (type refresh poc : Nat) (isRef : Bool) : State :=
  let x := s.enc e
  let b := ctxBlocks f.blocks f.ctx
  let p : Picture :=
    { number := x.next, seq := f.seq, begun := false, type := type, refresh := refresh, poc := poc, budget := 0, target := 0,
      qp := 0, flooredAt := false, estSum := 0, ests := [], rows := List.replicate (encRows b x.codec ent) emptyRow,
      jobs := [], firstUnit := 0, outcome := none, isRef := isRef, ctx := f.ctx, blocks := f.blocks, entry := ent,
      signals := .absent, place := none }
  s.updEnc e fun x => { x with pics := x.pics ++ [p], next := (x.next + 1) % 2 ^ 32 }

/-- Reference pictures of a type, of which a P picture has L0 and a B picture two (R406). -/
def refsOf (codec : Nat) (e : List Byte) (type : Nat) : Nat :=
  if codec = 0 then 0 else if type = 0 then 0 else if type = 1 then fld e 16 1 else 2

/-- Memory traffic of a row job (R196): its source with the tag-plane entries, its share of the target, and for HEVC its rows of every
reference and of its own reconstruction, at 4 bytes per pixel with the tag-plane entries, as in the worked budget of the GS proxy
(8.0 GB/s; assumption 9). -/
def rowTraffic (b : CtxBlocks) (codec : Nat) (e : List Byte) (type k : Nat) : Nat :=
  let (w, h) := encSize b e
  let px := encRowPixels b codec e k
  let src := if fld e 1 1 = 0 then
      px * linkDepth ((b 0x0201).getD []) / 8 + 4 * tilesX w * (rowBands e h k).length
    else px * (fmtTile (fld (sourceEntry b e) 1 1)).2.2 + 4 * outTilesX (sourceEntry b e) * (rowTiles b codec e k).length
  let refs := if codec = 1 then ceilDiv ((refsOf codec e type + 1) * px * 4 * 2052) 2048 else 0
  src + refs + (if w * h = 0 then 0 else encTarget b codec e type * px / (w * h))

/-- The type that a picture will take: that of its place in the intra period where none is decided yet. -/
def Encoding.typeOf (x : Encoding) (p : Picture) : Nat :=
  if x.codec = 0 || p.begun || fld p.entry 5 1 ≠ 0 then p.type
  else
    let ahead := (x.pics.takeWhile (fun y => y.number != p.number)).filter (fun y => !y.begun)
    if x.used.isNone && ahead.isEmpty then 0 else if (x.gopPos + ahead.length) % max 1 (fld p.entry 6 2) = 0 then 0 else 1

/-- Create the job of a row, with its units. -/
def State.cutRow (s : State) (e : Nat) (p : Picture) (f : Frame) (k : Nat) : State :=
  let x := s.enc e
  let b := p.blk
  let ns := (s.encStreams (s.encNumber e)).filter (fun n => (s.stream n).feeds p.seq)
  let cls := s.bestClass (s.encStreams (s.encNumber e))
  let dl := s.deadlineOf b cls (f.fsTbm / 2 ^ 32)
  let src := fld p.entry 1 1
  let deps := if src = 0 then [] else match s.devOf p.ctx p.seq, mashEntry b (src - 1) with
    | some d, some o => nub (((rowTiles b x.codec p.entry k).map (fun t =>
        s.jobIds .mashBand p.ctx p.seq (anchorOf d.method d.frame.height o t))).flatten)
    | _, _ => []
  let before := (x.pics.takeWhile (fun y => y.number != p.number)).map (·.jobs)
  let w := encWindow x.codec p.entry
  let window := if w ≤ k then (p.jobs[k - w]?).toList else []
  let j : Job :=
    { Job.make (if x.codec = 0 then .xsRow else .hevcRow) cls with
      gen := f.genNumber, unit := k, object := e, args := [p.number], deadline := dl,
      units := [(if x.codec = 0 then 0x04 else 0x05, encRowPixels b x.codec p.entry k), (0x01, rowTraffic b x.codec p.entry (x.typeOf p) k)],
      streams := ns.map (fun n => (n, (s.stream n).nextUnit)), depsRetired := deps ++ before.flatten ++ window }
  let first := ((ns.head?).map (fun n => (s.stream n).nextUnit)).getD 0
  let (id, s) := s.addFrameJob p.ctx p.seq j
  let s := each ns (fun n s => s.addUnit n (unitOf f id p.number k p.rows.length dl)) s
  let s := s.updPic e p.number (fun p =>
    { p with jobs := p.jobs ++ [id], firstUnit := if k = 0 then first else p.firstUnit })
  s.updRow e p.number k (fun r => { r with made := true })

/-- The row's source is landed, or its producers' jobs exist. `landed` tells which bands have landed. -/
def State.rowSource (s : State) (p : Picture) (codec k h : Nat) (landed : Nat → Bool) : Bool :=
  let src := fld p.entry 1 1
  if src = 0 then (rowBands p.entry h k).all landed
  else match s.devOf p.ctx p.seq, mashEntry p.blk (src - 1) with
    | some d, some o => (rowTiles p.blk codec p.entry k).all (fun t => d.mashMade.testBit (anchorOf d.method d.frame.height o t))
    | _, _ => true

/-- Create the jobs of a picture's next rows as far as their sources allow, in ascending order. -/
def State.cutRows (s : State) (e number : Nat) (f : Frame) (landed : Nat → Bool) : State :=
  match (s.enc e).pic number with
  | none => s
  | some p =>
    let todo := ((numbered p.rows).filter (fun r => !r.2.made)).map (·.1)
    let now_ := todo.takeWhile (fun k => s.rowSource p (s.enc e).codec k f.height landed)
    each now_ (fun k s =>
      match (s.enc e).pic number with
      | some p => s.cutRow e p f k
      | none => s) s

/-- The pictures of a mini-GOP of n frames in coding order: place in output order (from 0), type, and whether it is a
reference; the last frame is the anchor (R406). -/
def miniGop (m n : Nat) (more : Bool) : List (Nat × Nat × Bool) :=
  let anchor := (n - 1, 1, more || decide (1 < n))
  if m = 3 && n = 4 then [anchor, (1, 2, true), (0, 2, false), (2, 2, false)]
  else anchor :: ((List.range (n - 1)).map (fun i => (i, 2, false)))

/-- Create the pictures of the encoding's waiting frames that may be coded now (M above 0). `last`: no later frame will come. A mini-GOP
holds frames of the same blocks only: a changed block ends it before its frame, which is coded as IDR (R44, R407). A picture counts as
begun once it is planned here, since its units then have their places in coding order (R45, R398; DEDUCED, assumption 9). -/
def State.cutGop (s : State) (e c : Nat) (last : Bool) : Nat → State
  | 0 => s
  | fuel + 1 =>
    let x := s.enc e
    match x.waiting with
    | [] => s
    | q :: rest =>
      match s.devOf c q with
      | none => (s.updEnc e fun x => { x with waiting := rest }).cutGop e c last fuel
      | some d =>
        let f := d.frame
        let entry (d : FrameDev) : List Byte := (((encsOf d.blk).find? (fun y => y.1 == s.encNumber e)).map (·.2.2)).getD x.entry
        let blocks (d : FrameDev) : List Byte × List Byte := refreshBlocks d.blk x.codec (entry d)
        let ent := entry d
        let n := max 1 (fld ent 6 2)
        let m := fld ent 5 1
        let cause := x.refreshNow (blocks d)
        if x.gopPos = 0 || cause ≠ 0 || x.used.isNone then
          let s := s.newPicture e f ent 0 cause 0 (decide (1 < n))
          let s := s.updEnc e fun y =>
            { y with waiting := rest, gopPos := 1 % n, refresh := 0, poc := 1, used := some (blocks d) }
          s.cutGop e c last fuel
        else
          let g := min (m + 1) (n - x.gopPos)
          let alike := x.waiting.takeWhile (fun q => match s.devOf c q with | some dv => x.used == some (blocks dv) | none => false)
          let g := if last || alike.length < x.waiting.length then min g alike.length else g
          if alike.length < g then s
          else
            let frames := alike.take g
            let more := decide (x.gopPos + g < n) && (decide (g < alike.length) || alike.length == x.waiting.length)
            let s := each (miniGop m g more) (fun (y : Nat × Nat × Bool) s =>
              match frames[y.1]?.bind (s.devOf c) with
              | some dv => s.newPicture e dv.frame (entry dv) y.2.1 0 (x.poc + y.1) y.2.2
              | none => s) s
            let s := s.updEnc e fun z => { z with waiting := z.waiting.drop g, gopPos := (x.gopPos + g) % n, poc := x.poc + g }
            s.cutGop e c last fuel

/-! ## Registers and commands -/

/-- Whether the LIVE generation has an encoding, and its codec. -/
def State.liveEnc (s : State) (e : Nat) : Option Nat :=
  match s.cfg.live with
  | none => none
  | some g =>
    ((List.range 64).map (fun c => encsOf (ctxBlocks g.blocks c))).flatten.find? (fun x => x.1 == e) |>.map (·.2.1)

def formEncForceIrap : Form := { op := 0x0C01, lo := 4, hi := 4, reserved := [(1, 3)] }

def encForceIrapBody (c : Cmd) (s : State) : State :=
  let e := fld c.payload 0 1
  match s.liveEnc e with
  | some 1 => (s.updEnc e fun x => x.wantRefresh 1).ok c []
  | _ => s.badField c 0

def execEncForceIrap (b : Mbox) (s : State) : Host.Outcome State Fault Refusal :=
  .next (s.take b formEncForceIrap encForceIrapBody)

def formEncPictureRecord : Form := { op := 0x0C02, mgmt := true, lo := 8, hi := 8, reserved := [(1, 1)] }

def encPictureRecordBody (c : Cmd) (s : State) : State :=
  let e := fld c.payload 0 1
  let n := fld c.payload 2 2
  let first := fld c.payload 4 4
  if (s.liveEnc e).isNone then s.badField c 0
  else if n = 0 || 255 < n then s.badField c 2
  else
    s.reply c stOk [] (some ((List.range n).map (fun i =>
      match (s.enc e).records.find? (fun r => r.1 == (first + i) % 2 ^ 32) with
      | some r => r.2
      | none => le 4 0xFFFFFFFF ++ zeros 60)).flatten)

def execEncPictureRecord (b : Mbox) (s : State) : Host.Outcome State Fault Refusal :=
  .next (s.take b formEncPictureRecord encPictureRecordBody)

end Sys2Proof.Machine
end

