-- ==== Sys2Proof/Machine/Record.lean ====
section
/-! DEFINITION. Recording (chapter 14): takes and their records, seal records, stripes, drives, reports. What the commands of
group 0x05 do, and the rows of drives, stand in RecRows. -/

namespace Sys2Proof.Machine

open Sys2Proof

/-! ## Entries and members (R456, R458, R460, R480) -/

def Stream.stripeBytes (t : Stream) : Nat := 2 ^ fld t.ent 17 1
def Stream.timeoutMs (t : Stream) : Nat := if fld t.ent 28 4 = 0 then 1000 else fld t.ent 28 4

/-- LBA size of a namespace of a drive; 0 for one that was not identified. -/
def Drive.lbaOf (d : Drive) (nsid : Nat) : Nat := ((d.formats.find? (fun x => x.1 == nsid)).map (·.2)).getD 0

/-- Bytes of a logical block of a namespace of a port. -/
def State.lba (s : State) (p nsid : Nat) : Nat := max 512 ((s.drive p).lbaOf nsid)

/-- Bytes of a logical block of a grant. -/
def State.grantLba (s : State) (g : Grant) : Nat := s.lba g.port g.nsid

/-- Logical blocks left in a grant. -/
def Grant.left (g : Grant) : Nat := if g.faulted then 0 else g.count - g.used

/-- Bytes of DATA or SEAL grants left on a port. -/
def State.space (s : State) (t : Stream) (isS : Bool) (p : Nat) : Nat :=
  ((t.grants.filter (fun g => g.isSeal == isS && g.port == p)).map (fun g => g.left * s.grantLba g)).sum

/-- A stripe or seal record whose every Write is durable. -/
def Stripe.isDurable (z : Stripe) : Bool := z.port != 0xFF && !z.pieces.isEmpty && z.pieces.all (·.st == 2)

/-- Take bytes that a stripe holds: all of it, but for the zero fill of the last one (R460). -/
def Stream.stripeTake (t : Stream) (z : Stripe) : Nat := min t.stripeBytes (t.takeBytes - z.index * t.stripeBytes)

/-- Whether the stream keeps its released bytes in a staging ring (R462); else it writes from the landing slots. -/
def Stream.ring (t : Stream) : Bool := needsRing t.ent

/-- Bytes in the staging ring: rows done and not released, records not absorbed, and bytes not durable. -/
def Stream.staged (t : Stream) : Nat :=
  if !t.ring then 0
  else
    (t.units.map (·.bytes.length)).sum + (t.recs.map (fun r => ((r.unit.map (·.bytes.length)).getD 0))).sum + t.buffer.length +
      ((t.stripes.filter (fun z => !z.isSeal && !z.isDurable)).map (·.data.length)).sum

/-! ## Records of a take (R453, R454) -/

def Stream.active (t : Stream) : Bool := t.takeOpen

/-- The 64-byte header of a unit record. -/
def recHeader (n kind status take index : Nat) (u : Option StreamUnit) (payload : List Byte) : List Byte :=
  let z (f : StreamUnit → Nat) : Nat := (u.map f).getD 0
  let h := [0x4F, 0x55, 0x56, 0x52] ++ le 1 kind ++ le 1 n ++ le 2 status ++ le 4 take ++ le 4 index ++ le 4 (z (·.seq)) ++
    le 4 payload.length ++ le 4 (z (·.frame.toNat)) ++ le 4 (z (·.picture)) ++ le 2 (z (·.row)) ++ le 2 (z (·.rows)) ++
    le 4 (if payload.isEmpty then 0 else (crc32c payload).toNat) ++
    (match u with | some u => timeField u.fsTbm | none => zeros 16) ++ le 4 0
  h ++ le 4 (crc32c h).toNat

/-- Record bytes: header, payload, fill. -/
def recBytes (n kind status take index : Nat) (u : Option StreamUnit) (payload : List Byte) : List Byte :=
  recHeader n kind status take index u payload ++ fit (roundUp payload.length 64) payload

/-- The payload of OPEN (R454). -/
def State.openPayload (s : State) (n : Nat) : List Byte :=
  fit 64 (s.stream n).ent ++ le 4 s.liveNumber ++ le 4 0 ++ s.tbmField ++ zeros 8

/-- The payload of CLOSE. -/
def State.closePayload (s : State) (n : Nat) : List Byte :=
  let t := s.stream n
  le 4 (t.dataUnits + t.takeGaps) ++ le 4 t.takeGaps ++ le 8 t.takeBytes ++ s.tbmField

/-- Bytes that Cask processes for a record, for its cost. -/
def recSize (t : Stream) (kind : Nat) (u : Option StreamUnit) (rawLen : Nat) : Nat :=
  match kind with
  | 0 => 192
  | 3 => 128
  | 2 => 64
  | _ => 64 + roundUp (if t.srcKind = 1 then rawLen else (u.map (·.bytes.length)).getD 0) 64

/-- Bytes of one RAW unit of a frame: frame record, tiles, embedded bytes (R451, R454). -/
def rawUnits (f : Frame) : Nat := if 67108864 < f.slotSize then tilesY f.height else 1

def rawUnitTiles (f : Frame) (k : Nat) : Nat × Nat :=
  let n := tilesX f.width
  if rawUnits f = 1 then (0, n * tilesY f.height) else (k * n, n)

def rawUnitBytes (f : Frame) (k : Nat) : Nat :=
  (if k = 0 then 128 else 0) + (rawUnitTiles f k).2 * 128 * f.depth + (if k + 1 = rawUnits f then f.embedBytes else 0)

/-- The Cask job of a record (R34, R196, R452). That of a unit works on the unit's frame (R43). -/
def State.caskJob (s : State) (n : Nat) (r : TakeRec) : Job :=
  let t := s.stream n
  let len := match r.unit with
    | some u => (match s.frame t.ctxId u.frame with | some f => rawUnitBytes f u.row | none => 0)
    | none => 0
  let z := recSize t r.kind r.unit len
  let tags := match r.unit with
    | some u => (match t.srcKind, s.frame t.ctxId u.frame with
        | 1, some f => 4 * (rawUnitTiles f u.row).2
        | _, _ => 0)
    | none => 0
  let q := (r.unit.map (·.frame)).getD 0
  { Job.make .caskUnit t.sealClass with
    ctx := r.unit.map (fun _ => t.ctxId), frame := q, counted := r.unit.isSome && t.srcKind == 1,
    object := n, unit := r.index, gen := if r.unit.isSome then s.frameGen t.ctxId q else s.liveNumber,
    units := [(0x08, z)] ++ (if t.encrypted then [(0x09, z)] else []) ++ [(0x01, tags + (if t.encrypted then 2 * z else z))],
    deadline := if r.kind = 1 then r.unit.bind (·.deadline) else none }

/-- A record enters the take: its Cask job is created. -/
def State.addRec (s : State) (n kind : Nat) (u : Option StreamUnit) (opened : List Byte := []) : State :=
  let t := s.stream n
  let r : TakeRec := { index := t.recIndex, kind := kind, unit := u, opened := opened, job := 0, sealed := false, first := 0, len := 0 }
  let (id, s) := s.addUnitJob (s.caskJob n r)
  s.updStream n fun t => { t with recs := t.recs ++ [{ r with job := id }], recIndex := t.recIndex + 1 }

/-- A record is with Cask. -/
def State.withCask (s : State) (r : TakeRec) : Bool :=
  match s.job r.job with
  | some x => x.st == .issued || x.st == .running
  | none => false

/-- The staging ring of an encrypted RAW stream has room for the ciphertext of a record, beside what it holds and what Cask makes now
(R462). The room of an encoding's row was kept when the row was admitted. -/
def State.cipherRoom (s : State) (t : Stream) (j : Job) : Bool :=
  let size (id : Nat) : Nat := (((s.job id).map (fun x => (x.units.filter (fun u => u.1 == 8)).map (·.2))).getD []).sum
  !(t.ring && t.srcKind == 1) ||
    decide (t.staged + ((t.recs.filter (fun r => !r.sealed && s.withCask r)).map (fun r => size r.job)).sum + size j.id ≤ stagingBytes t.ent)

/-- R51's order: every earlier record of the stream has been absorbed, or its Cask job has been admitted; and the ring has room. -/
def State.caskReady (s : State) (j : Job) : Bool :=
  let t := s.stream j.object
  (t.recs.takeWhile (fun r => r.job != j.id)).all (fun r => r.sealed || s.withCask r) && s.cipherRoom t j

/-- A manifest job runs for the manifest that closed first (R603). -/
def State.manifestReady (s : State) (j : Job) : Bool := s.trust.sealQueue.head? == some j.object

/-- The payload of a DATA record of a RAW unit, with the substitute for a tile that fails. A stream that writes straight from the slot
writes it back there (R682). Answers whether a tile failed, and whether a page was invalid (R491). -/
def State.rawPayload (s : State) (t : Stream) (u : StreamUnit) (f : JobFacts) (j : Job) :
    List Byte × Bool × Bool × State :=
  match s.frame t.ctxId u.frame with
  | none => ([], false, false, s)
  | some fr =>
    let (k0, n) := rawUnitTiles fr u.row
    let r : Tiles := { addr := fr.addr + k0 * 128 * fr.depth, size := 128 * fr.depth, count := n, tags := fr.tagBase + 4 * k0 }
    let f := s.verify f [r]
    let s := s.countMisses f [r] j
    let sub_ := rawSubstitute fr.depth fr.pad
    let bad := (List.range n).filter (f.lost r)
    let s := if t.ring then s else each bad (fun k s => s.putTiles j.engine r k [sub_]) s
    let s := if bad.isEmpty then s else
      s.updFrame t.ctxId u.frame (fun x => { x with landFlags := setFlag x.landFlags gfTileCheck })
    let frame := (s.frame t.ctxId u.frame).getD fr
    let body := ((List.range n).map (fun k => if bad.contains k then fit r.size sub_ else s.capRead (r.addr + k * r.size) r.size)).flatten
    let (a, k) := (fr.addr + tilesX fr.width * tilesY fr.height * 128 * fr.depth, if u.row + 1 = u.rows then fr.embedBytes else 0)
    ((if u.row = 0 then frame.bytes else []) ++ body ++ s.capRead a k, !bad.isEmpty, f.hwFault || !s.mapped a k,
      s.reach 2 j.engine a k)

/-- Cask has processed a record: it is absorbed in order, and its bytes as written wait for a stripe. Answers the status. -/
def State.runCask (s : State) (j : Job) (f : JobFacts) : Nat × State :=
  let n := j.object
  let t := s.stream n
  match t.recs.find? (fun r => r.job == j.id) with
  | none => (stOk, s)
  | some r =>
    let (payload, bad, fault, s) := match r.kind, r.unit with
      | 0, _ => (r.opened, false, false, s)
      | 3, _ => (s.closePayload n, false, false, s)
      | 1, some u => if t.srcKind = 1 then s.rawPayload t u f j else (u.bytes, false, false, s)
      | _, _ => ([], false, false, s)
    let status := match r.unit with
      | none => 0
      | some u => if r.kind = 2 then u.gap else if bad then stHwFault else u.status
    let rb := recBytes n r.kind status t.take r.index r.unit payload
    let first := (s.stream n).takeBytes
    let (out, s) := s.absorbAll n rb
    let s := s.updStream n fun t =>
      { t with recs := t.recs.map (fun x =>
                 if x.index = r.index then { x with sealed := true, first := first, len := rb.length,
                                                    unit := x.unit.map (fun u => { u with bytes := [] }) } else x),
               buffer := t.buffer ++ out, formed := (s.now, rb.length) :: t.formed.filter (fun e => s.now < e.1 + sec 1) }
    let s := if r.kind = 3 then s.closeSegment n 2 else s
    (if bad || fault || f.hwFault then stHwFault else stOk, s)

/-! ## Release into the take (R45, R46, R451) -/

/-- REC_STALLED and REC_GRANT_LOW bodies need the space in stripes. -/
def State.stripesLeft (s : State) (t : Stream) : Nat :=
  ((t.members.filter s.memberReady).map (fun p => s.space t false p / max 1 t.stripeBytes)).sum

/-- A released unit becomes a DATA or GAP record. -/
def State.recordUnit (s : State) (n : Nat) (u : StreamUnit) : State :=
  if !(s.stream n).takeOpen then s
  else if u.gap ≠ 0 then
    let s := s.updStream n fun t => { t with gaps := t.gaps + 1, takeGaps := t.takeGaps + 1 }
    (s.addRec n 2 (some u)).probationFail 4 (s.stream n).ctxId
  else (s.updStream n fun t => { t with dataUnits := t.dataUnits + 1 }).addRec n 1 (some u)

/-! ## Placing stripes and seal records (R460, R465–R467) -/

/-- Enter or leave STALLED. -/
def State.stall (s : State) (n cause : Nat) : State :=
  let t := s.stream n
  if t.stallCause = cause then s
  else if cause = 0 then
    s.updStream n fun t => { t with stallCause := 0, st := if t.stopAtFs then .stopping else .running }
  else
    (s.updStream n fun t => { t with stallCause := cause, st := .stalled }).raise 0x0505 (srcStream n)
      (le 1 cause ++ le 3 0 ++ le 8 t.durable)

/-- Blocks cut from a grant for a Write: the grant, the first block, how many, and the bytes of one. -/
structure Cut where
  grant : Nat
  lba   : Nat
  lbas  : Nat
  size  : Nat
deriving DecidableEq, Repr

/-- The largest Write to a grant in blocks: 1 MiB, or MDTS (R456). -/
def State.mostBlocks (s : State) (g : Grant) : Nat :=
  let d := s.drive g.port
  max 1 ((if d.mdts = 0 then 1048576 else min 1048576 d.mdts) / s.grantLba g)

/-- Cut blocks for a number of bytes from a stream's grants on a port, in the order given. `fuel` bounds the cuts. -/
def State.cutBlocks (s : State) (gs : List Grant) (isS : Bool) (p : Nat) : Nat → Nat → List Cut × List Grant
  | 0, _ => ([], gs)
  | fuel + 1, bytes =>
    if bytes = 0 then ([], gs)
    else match gs.find? (fun g => g.isSeal == isS && g.port == p && 0 < g.left) with
      | none => ([], gs)
      | some g =>
        let size := s.grantLba g
        let k := min (ceilDiv bytes size) (min g.left (s.mostBlocks g))
        let gs := gs.map (fun x => if x.id = g.id then { x with used := x.used + k } else x)
        let (rest, gs) := s.cutBlocks gs isS p fuel (bytes - k * size)
        ({ grant := g.id, lba := g.first + g.used, lbas := k, size := size } :: rest, gs)

/-- Writes of a byte string over cut blocks. -/
def piecesOf (off : Nat) : List Cut → List Piece
  | [] => []
  | c :: rest =>
    { job := 0, grant := c.grant, lba := c.lba, lbas := c.lbas, off := off, len := c.lbas * c.size, st := 0, flush := 0, again := false } ::
      piecesOf (off + c.lbas * c.size) rest

/-- The recorder job of one Write (R196, R452, R461). It works on the frame of the first unit that it writes (R43; assumption 9). -/
def State.writeJob (s : State) (n : Nat) (z : Stripe) (p : Piece) : Job :=
  let t := s.stream n
  let lo := z.index * t.stripeBytes + p.off
  let us := (t.recs.filter (fun r => r.sealed && r.kind == 1 && r.first < lo + p.len && lo < r.first + r.len)).filterMap (·.unit)
  let ds := us.filterMap (·.deadline)
  let first := if z.isSeal then none else us.head?
  let q := (first.map (·.frame)).getD 0
  { Job.make .recWrite t.writeClass with
    ctx := first.map (fun _ => t.ctxId), frame := q, counted := first.isSome && t.srcKind == 1,
    object := n, unit := z.index, gen := if first.isSome then s.frameGen t.ctxId q else s.liveNumber, units := [(0x01, p.len)],
    args := [b2n z.isSeal, z.port, p.grant, p.lba, p.lbas],
    deadline := if z.isSeal then none else ds.foldl (fun a d => match a with | none => some d | some x => some (min x d)) none }

/-- Create the jobs of a stripe's Writes and keep the stripe. -/
def State.keepStripe (s : State) (n : Nat) (z : Stripe) : State :=
  let (ps, s) := z.pieces.foldl (fun (a : List Piece × State) p =>
    let (id, s) := a.2.addUnitJob (a.2.writeJob n z p)
    (a.1 ++ [{ p with job := id }], s)) (([] : List Piece), s)
  s.updStream n fun t => { t with stripes := t.stripes ++ [{ z with pieces := ps }] }

/-- The next member: after the one that took the previous stripe, READY and with DATA grant space; its place in the list (R460). -/
def State.nextMember (s : State) (t : Stream) : Option Nat :=
  let ms := t.members
  let start := match t.lastMember with | some k => k + 1 | none => 0
  ((List.range ms.length).map (fun i => (start + i) % ms.length)).find? (fun i =>
    let p := ms.getD i 0
    s.memberReady p && 0 < s.space t false p)

/-- Bytes of DATA grants on the next member. -/
def State.nextSpace (s : State) (t : Stream) : Nat :=
  ((s.nextMember t).map (fun i => s.space t false (t.members.getD i 0))).getD 0

/-- Take bytes that all recording streams have formed over the last second: their demand for R467. -/
def State.demand (s : State) : Nat :=
  (s.streams.map (fun t => ((t.formed.filter (fun e => s.now < e.1 + sec 1)).map (·.2)).sum)).sum

/-- The cause that keeps a stream from placing a stripe now; 0 for none. A stripe for which the next member's grants have too little
room waits for a grant there (DESIGN CHOICE, assumption 25). -/
def State.stallNow (s : State) (n bytes : Nat) : Nat :=
  let t := s.stream n
  if 4096 ≤ s.reportsHeld n then 3
  else if !t.members.any s.memberReady then 2
  else if s.nextSpace t < bytes then 1
  else if 800000000000 < s.demand then 4 else 0

/-- REC_GRANT_LOW: at the fall below 16 stripes, at most once per second, and from then on at each further stripe written (R467). -/
def State.grantLow (s : State) (n : Nat) (placed : Bool) : State :=
  let t := s.stream n
  let left := s.stripesLeft t
  if 16 ≤ left then s.updStream n fun t => { t with low := false }
  else if if t.low then placed else s.mayRaise t.lastLowEvent (sec 1) then
    let sealShort := t.members.all (fun p => decide (s.space t true p < 32768))
    (s.raise 0x0504 (srcStream n) (le 8 left ++ le 1 (b2n sealShort))).updStream n fun t =>
      { t with low := true, lastLowEvent := some s.now }
  else s

/-- Place one stripe: its bytes, filled to whole blocks (R460). -/
def State.placeStripe (s : State) (n index : Nat) (d : List Byte) (relocated final : Bool) : State :=
  let t := s.stream n
  match s.nextMember t with
  | none => s
  | some i =>
    let p := t.members.getD i 0
    let (cuts, gs) := s.cutBlocks t.grants false p (d.length / 512 + t.grants.length + 1) d.length
    let step := (t.members.filter s.memberReady).length
    let ps := piecesOf 0 cuts
    let z : Stripe := { index := index, isSeal := false, port := p, pieces := ps, data := fit (ps.map (·.len)).sum d,
                        relocated := relocated, final := final, stride := step }
    let s := s.updStream n fun t => { t with grants := gs, lastMember := some i }
    (s.keepStripe n z).grantLow n true

/-- The take's bytes fill a stripe, or are its last ones, once the CLOSE record has been absorbed. -/
def Stream.lastDue (t : Stream) : Bool :=
  t.closing && t.recs.all (·.sealed) && !t.buffer.isEmpty && t.buffer.length ≤ t.stripeBytes

def Stream.stripeDue (t : Stream) : Bool := t.entry.isSome && t.takeOpen && (t.stripeBytes ≤ t.buffer.length || t.lastDue)

/-- The first seal record that waits for a place. -/
def Stream.sealDue (t : Stream) : Option SealRec := (t.sealRecs.find? (fun r => !r.placed)).filter (·.signed)

/-- The first SEAL grant on a READY port that can hold all of a record (R598). -/
def State.sealGrant (s : State) (t : Stream) (r : SealRec) : Option Grant :=
  t.grants.find? (fun g => g.isSeal && s.memberReady g.port && ceilDiv r.bytes.length (s.grantLba g) ≤ g.left)

/-- The cause that keeps a seal record from its place; 0 for none. -/
def State.sealStall (s : State) (n : Nat) : Nat :=
  let t := s.stream n
  match t.sealDue with
  | none => 0
  | some r =>
    if 4096 ≤ s.reportsHeld n then 3
    else if !t.members.any s.memberReady then 2
    else if (s.sealGrant t r).isNone then 1 else 0

/-- A Write of the stream waits while the report log is full (R465). -/
def State.writesHeld (s : State) (n : Nat) : Bool :=
  decide (4096 ≤ s.reportsHeld n) && (s.stream n).stripes.any (fun z => z.pieces.any (fun p =>
    p.st == 0 && (s.job p.job).any (fun j => j.st == .pending)))

/-- The cause that keeps a stream with something to write from writing it; 0 for none (R465, R467). -/
def State.stallCauseOf (s : State) (n : Nat) : Nat :=
  let t := s.stream n
  if s.writesHeld n then 3
  else match t.stripes.find? (fun z => z.port == 0xFF) with
  | some z => s.stallNow n z.data.length
  | none => if t.stripeDue && s.stallNow n (min t.stripeBytes t.buffer.length) ≠ 0 then
      s.stallNow n (min t.stripeBytes t.buffer.length)
    else s.sealStall n

/-- Form the stripes that the take's bytes fill; the last one when the CLOSE record has been absorbed. -/
def State.formStripes (s : State) (n : Nat) : Nat → State
  | 0 => s
  | fuel + 1 =>
    let t := s.stream n
    let size := t.stripeBytes
    if !t.stripeDue || s.stallCauseOf n ≠ 0 then s
    else
      let s := s.placeStripe n t.nextStripe (t.buffer.take size) false t.lastDue
      (s.updStream n fun t => { t with buffer := t.buffer.drop size, nextStripe := t.nextStripe + 1 }).formStripes n fuel

/-- The next signed seal record goes to the first SEAL grant on a READY port that can hold all of it (R598). -/
def State.placeSeals (s : State) (n : Nat) : Nat → State
  | 0 => s
  | fuel + 1 =>
    let t := s.stream n
    match t.sealDue with
    | none => s
    | some r =>
      if 4096 ≤ s.reportsHeld n then s
      else match s.sealGrant t r with
        | none => s
        | some g =>
          let need := ceilDiv r.bytes.length (s.grantLba g)
          let (cuts, _) := s.cutBlocks [g] true g.port (need + 1) r.bytes.length
          let ps := piecesOf 0 cuts
          let z : Stripe := { index := r.index, isSeal := true, port := g.port, pieces := ps, data := fit (ps.map (·.len)).sum r.bytes,
                              relocated := false, final := false, stride := 1 }
          let s := s.updStream n fun t =>
            { t with grants := t.grants.map (fun x => if x.id = g.id then { x with used := x.used + need } else x),
                     sealRecs := t.sealRecs.map (fun x => if x.index = r.index then { x with placed := true } else x) }
          (s.keepStripe n z).placeSeals n fuel

/-! ## Reports (R463, R464) -/

def reportEntry (z : Stripe) (count stride take seq nsid : Nat) (p : Piece) (lbas : Nat) : List Byte :=
  le 8 z.index ++ le 4 count ++ le 1 stride ++ le 1 z.port ++ le 1 (b2n z.isSeal + 2 * b2n z.relocated + 4 * b2n z.final) ++
    le 1 0 ++ le 4 take ++ le 4 p.grant ++ le 4 nsid ++ le 4 seq ++ le 8 p.lba ++ le 4 lbas ++ le 4 0

/-- A run under construction: its first stripe and Write, the last stripe's index, stripes, stride and blocks. -/
structure Run where
  z      : Stripe
  p      : Piece
  last   : Nat
  count  : Nat
  stride : Nat
  lbas   : Nat
  final  : Bool
deriving DecidableEq, Repr

/-- The parts of a stripe by grant: first Write and blocks. -/
def Stripe.parts (z : Stripe) : List (Piece × Nat) :=
  z.pieces.foldl (fun (a : List (Piece × Nat)) p =>
    match a.getLast? with
    | some (q, k) => if q.grant = p.grant && q.lba + k = p.lba then a.dropLast ++ [(q, k + p.lbas)] else a ++ [(p, p.lbas)]
    | none => [(p, p.lbas)]) []

/-- Join a part of a stripe to the last run, or start a new one; `final`: the part holds the take's last byte. -/
def joinRun (rs : List Run) (z : Stripe) (x : Piece × Nat) (final : Bool) : List Run :=
  let (p, k) := x
  let fresh : Run := { z := z, p := p, last := z.index, count := 1, stride := 0, lbas := k, final := final }
  match rs.getLast? with
  | some r =>
    let step := z.index - r.last
    let whole := (z.parts).length == 1 && (r.z.parts).length == 1
    if whole && r.p.grant == p.grant && r.p.lba + r.lbas == p.lba && r.z.isSeal == z.isSeal && !z.relocated &&
        !r.z.relocated && (r.count == 1 || r.stride == step) && (if z.isSeal then step == 1 else z.stride == r.z.stride) && step < 256 && step != 0 then
      rs.dropLast ++ [{ r with last := z.index, count := r.count + 1, stride := step, lbas := r.lbas + k, final := r.final || final }]
    else rs ++ [fresh]
  | none => [fresh]

/-- The runs of durable stripes; the last part of the take's last stripe holds its last byte. -/
def runsOf (zs : List Stripe) : List Run :=
  zs.foldl (fun rs z =>
    let ps := z.parts
    (numbered ps).foldl (fun rs x => joinRun rs z x.2 (z.final && x.1 + 1 == ps.length)) rs) []

/-- Durable stripes are reported, one entry per run. -/
def State.report (s : State) (n : Nat) (zs : List Stripe) : State :=
  let t := s.stream n
  let runs := runsOf zs
  let s := each runs (fun r s =>
    let seq := s.nv.reportSeq.getD n 0 + 1
    let nsid := ((t.grants.find? (fun g => g.id == r.p.grant)).map (·.nsid)).getD 0
    let e := reportEntry { r.z with final := r.final } r.count (if r.count = 1 then 0 else if r.z.isSeal then 1 else r.stride) t.take seq nsid r.p r.lbas
    s.updNv fun x => { x with reports := upd x.reports n (· ++ [e]), reportSeq := x.reportSeq.set n seq }) s
  if runs.isEmpty then s
  else
    s.raiseLimited t.lastReportsEvent (ms 100) 0x0503 (srcStream n) (le 4 (s.nv.reportSeq.getD n 0) ++ le 2 (s.reportsHeld n))
      (fun x s => s.updStream n fun t => { t with lastReportsEvent := x })

/-- Durable stripes and seal records that have not been reported, each kind in order. -/
def Stream.unreported (t : Stream) : List Stripe :=
  sortBy (fun a b => (a.isSeal == b.isSeal && a.index < b.index) || (!a.isSeal && b.isSeal)) (t.stripes.filter Stripe.isDurable)

/-- As many of them, from the first on, as the log has room for (R464: it holds 4,096 entries). -/
def fitting (room : Nat) (zs : List Stripe) : List Stripe :=
  zs.take (((List.range (zs.length + 1)).reverse.find? (fun k => decide ((runsOf (zs.take k)).length ≤ room))).getD 0)

/-- Report what the log has room for; what it has not waits for REC_ACK. -/
def State.reportDurable (s : State) (n : Nat) : State :=
  let zs := fitting (4096 - s.reportsHeld n) (s.stream n).unreported
  if zs.isEmpty then s
  else (s.report n zs).updStream n fun t =>
    { t with stripes := t.stripes.filter (fun z => !zs.contains z),
             sealRecs := t.sealRecs.filter (fun r => r.kind == 1 || !zs.any (fun z => z.isSeal && z.index == r.index)) }

/-! ## Drives (R455, R456, R461, R466) -/

/-- A command is outstanding at a drive; a port in L1 leaves it first (R531). -/
def State.nvmePost (s : State) (p op n : Nat) (isS : Bool) (job tries nsid : Nat) : State :=
  let id := s.nextNvme
  let c : NvmeCmd := { id := id, op := op, stream := n, isSeal := isS, job := job, nsid := nsid, tbm := s.now, tries := tries }
  let s : State := { s with nextNvme := id + 1 }
  let s := s.updPort (p / 4 + 1) (p % 4) fun x => if x.st = 8 then { x with st := 6 } else x
  s.updDrive p fun d => { d with cmds := d.cmds ++ [c], idleSince := s.now }

/-- A command goes to a drive, with the bytes of a Write. -/
def State.nvmeCmd (s : State) (p op n : Nat) (isS : Bool) (job tries nsid lba lbas : Nat) (data : List Byte) : State :=
  (s.nvmePost p op n isS job tries nsid).out (.nvme p s.nextNvme op nsid lba lbas data)

/-- Change the Writes of a stripe. -/
def State.mapPieces (s : State) (n : Nat) (f : Stripe → Piece → Piece) : State :=
  s.updStream n fun t => { t with stripes := t.stripes.map (fun z => { z with pieces := z.pieces.map (f z) }) }

/-- The stripe or seal record that a recorder job writes, and its Write. -/
def State.pieceOf (s : State) (j : Job) : Option (Stripe × Piece) :=
  (((s.stream j.object).stripes.map (fun z => z.pieces.map (fun p => (z, p)))).flatten).find? (fun x => x.2.job == j.id)

/-- A recorder job starts: its Write goes to the drive. -/
def State.startWrite (s : State) (j : Job) (tries : Nat) : State :=
  let a (k : Nat) : Nat := j.args.getD k 0
  let nsid := (((s.stream j.object).grants.find? (fun g => g.id == a 2)).map (·.nsid)).getD 0
  let data := match s.pieceOf j with | some (z, p) => fit p.len (z.data.drop p.off) | none => []
  s.nvmeCmd (a 1) 1 j.object (a 0 == 1) j.id tries nsid (a 3) (a 4) data

/-- An earlier Write of the take that holds bytes of an OPEN, GAP or CLOSE record was refused and has not been written: no later take
byte is written before it (R682). -/
def State.heldByRecord (s : State) (j : Job) : Bool :=
  let t := s.stream j.object
  let at_ (x : Stripe × Piece) : Nat := x.1.index * t.stripeBytes + x.2.off
  match s.pieceOf j with
  | none => false
  | some x =>
    let all := (t.stripes.map (fun z => z.pieces.map (fun p => (z, p)))).flatten
    !x.1.isSeal && all.any (fun y =>
      !y.1.isSeal && y.2.st == 0 && (y.2.again || (s.job y.2.job).isNone) && decide (at_ y < at_ x) &&
        t.recs.any (fun r => r.kind != 1 && r.sealed && decide (r.first < at_ y + y.2.len) && decide (at_ y < r.first + r.len)))

/-- A Write may start while its drive is READY with fewer than 128 outstanding and room in its I/O queue (R456), while its stream's
report log is not full (R465), and while no refused record stands before it (R682). -/
def State.writeReady (s : State) (j : Job) : Bool :=
  let p := j.args.getD 1 0
  let d := s.drive p
  let coming := (s.jobs.filter (fun x => x.kind == .recWrite && x.st == .issued && x.args.getD 1 0 == p)).length
  d.st == .ready && decide ((d.cmds.filter (fun c => c.op == 1)).length + coming < 128) &&
    decide ((d.cmds.filter (fun c => c.op ≤ 4)).length + coming + 1 < d.ioQueue) && decide (s.reportsHeld j.object < 4096) &&
    !s.heldByRecord j

/-- Issue a Flush to a member for a stream: it covers every Write to that drive that has completed, of any stream (R461). -/
def State.flush (s : State) (n p : Nat) : State :=
  let id := s.nextNvme
  let hit := (s.stream n).stripes.any (fun z => z.port == p && z.pieces.any (·.st == 1))
  if !hit || !s.memberReady p then s
  else
    let s := each (List.range 32) (fun n s =>
      (s.mapPieces n (fun z q => if z.port = p && q.st = 1 then { q with st := 3, flush := id } else q)).updStream n
        fun t => { t with sinceFlush := t.sinceFlush.filter (·.1 ≠ p) }) s
    s.nvmeCmd p 2 n false 0 0 0xFFFFFFFF 0 0 []

/-- Everything the stream still had to write is written: flush every member (R461, R468). -/
def State.flushAll (s : State) (n : Nat) : State :=
  let t := s.stream n
  each (nub (t.stripes.map (·.port))) (fun p s =>
    let zs := ((s.stream n).stripes.filter (·.port == p))
    if zs.all (fun z => z.pieces.all (fun q => q.st ≠ 0)) then s.flush n p else s) s

/-- A stripe on a member that is not durable is written again elsewhere, and reported in an entry of its own (R466). -/
def State.relocate (s : State) (n p : Nat) : Nat × State :=
  let t := s.stream n
  let zs := t.stripes.filter (fun z => z.port == p && z.pieces.any (·.st != 2))
  let ids := (zs.map (fun z => z.pieces.map (·.job))).flatten
  let hit := s.jobs.filter (fun j => ids.contains j.id && j.st ≠ .complete)
  let s := s.updStream n fun t => { t with stripes := t.stripes.filter (fun z => !zs.contains z) }
  let s := s.mapJobs (fun j =>
    if ids.contains j.id && j.st ≠ .complete then { j with st := .complete, status := stHwFault, outcome := admittedWord j.cls j.waits } else j)
  let s := each hit (fun j s => match j.ctx with | some c => s.probationFail 1 c | none => s) s
  let s : State := { s with engines := s.engines.map (fun e => { e with queue := e.queue.filter (fun i => !ids.contains i) }) }
  let s := s.updDrive p fun d => { d with cmds := d.cmds.filter (fun c => !(c.op == 1 && c.stream == n)) }
  let s := each zs (fun z s =>
    if z.isSeal then
      s.updStream n fun t => { t with sealRecs := t.sealRecs.map (fun x => if x.index = z.index then { x with placed := false } else x) }
    else s.updStream n fun t =>
      { t with stripes := t.stripes ++ [{ z with port := 0xFF, pieces := [], relocated := true }] }) s
  (zs.length, s)

/-- Place the relocated stripes that have no member yet. -/
def State.placeAgain (s : State) (n : Nat) : State :=
  each ((s.stream n).stripes.filter (fun z => z.port == 0xFF)) (fun z s =>
    if s.stallNow n z.data.length ≠ 0 then s
    else (s.updStream n fun t => { t with stripes := t.stripes.erase z }).placeStripe n z.index z.data true z.final) s

/-- Relocation on a port for every stream: how many stripes. -/
def State.relocateAll (s : State) (p : Nat) : Nat × State :=
  (List.range 32).foldl (fun (a : Nat × State) n =>
    let (k, s) := a.2.relocate n p
    (a.1 + k, s)) (0, s)

/-- A drive error: relocation, REC_DRIVE_FAULT, and an error of class 7 (R466, R640). -/
def State.driveFault (s : State) (p status : Nat) : State :=
  let (k, s) := s.relocateAll p
  (s.raise 0x0506 (srcPort p) (le 1 (s.drive p).st.code ++ le 1 0 ++ le 2 status ++ le 4 k)).logError 7
    { Loc.none with kind := 7, unit := p } { detail := status }

/-- Commands of the host that are at the drive, or wait for its queue, end HW_FAULT. -/
def State.failAtDrive (s : State) (p : Nat) : State :=
  each ((s.executing 0x0507 p ++ s.executing 0x0508 p).filter (fun e => e.args.headD 0 == 1 || e.args.headD 0 == 3))
    (fun e s => s.finish e stHwFault [] none) s

/-- The port enters RESETTING; a reset is attempted (R466). One that the host asks for is no error. -/
def State.portReset (s : State) (p : Nat) (fault : Option Nat) : State :=
  let s := s.updDrive p fun d => { d with st := .resetting, resets := satInc 8 d.resets }
  let s := match fault with
    | some status => s.driveFault p status
    | none => (s.relocateAll p).2
  (s.updDrive p fun d => { d with cmds := [] }).failAtDrive p

/-- Jobs of durable Writes are complete. -/
def State.writesDurable (s : State) (n id : Nat) : State :=
  let t := s.stream n
  let ids := ((t.stripes.map (·.pieces)).flatten.filter (fun q => q.st == 3 && q.flush == id)).map (·.job)
  let s := s.mapPieces n (fun _ q => if q.st = 3 && q.flush = id then { q with st := 2 } else q)
  let s := each ids (fun i s => match s.job i with | some j => s.completeJob j stOk | none => s) s
  let new := (s.stream n).stripes.filter (fun z => z.isDurable && !z.isSeal && z.pieces.any (fun q => ids.contains q.job))
  (s.updStream n fun t => { t with durable := t.durable + (new.map t.stripeTake).sum }).reportDurable n

/-! ## Takes (R459, R468) -/

/-- Frames whose slot a stream no longer needs: records that are durable are dropped, and RAW units give their hold back. -/
def State.dropRecs (s : State) (n : Nat) : State :=
  let t := s.stream n
  let size := max 1 t.stripeBytes
  let safe (r : TakeRec) : Bool :=
    r.sealed && r.first + r.len ≤ t.nextStripe * size &&
      (List.range' (r.first / size) ((r.first + r.len - 1) / size + 1 - r.first / size)).all (fun i =>
        !t.stripes.any (fun z => !z.isSeal && z.index == i && !z.isDurable))
  let done := t.recs.filter safe
  let s := if t.srcKind = 1 then
      each done (fun r s => match r.unit with
        | some u => if r.kind = 1 then s.updFrame t.ctxId u.frame (fun f => { f with holds := f.holds - 1 }) else s
        | none => s) s
    else s
  s.updStream n fun t => { t with recs := t.recs.filter (fun r => !safe r) }

/-- The CLOSE record follows when the last unit of the take has been released. -/
def State.closeTake (s : State) (n : Nat) : State :=
  let t := s.stream n
  let more := (s.ctx t.ctxId).frames.any (fun f => t.feeds f.seq && (f.state == 0 || f.creating))
  if t.takeOpen && t.stopSeq.isSome && !t.closing && t.units.isEmpty && !more then
    (s.updStream n fun t => { t with closing := true }).addRec n 3 none
  else s

/-- The take is closed when every record, stripe and seal record is durable. -/
def State.endTake (s : State) (n : Nat) : State :=
  let t := s.stream n
  if !(t.takeOpen && t.closing && t.recs.all (·.sealed) && t.buffer.isEmpty && t.segment.isNone) then s
  else
    let s := s.flushAll n
    let t := s.stream n
    if !t.stripes.isEmpty || t.sealRecs.any (fun r => !r.placed) then s
    else
      let res := (t.takeBytes, s.nv.reportSeq.getD n 0)
      let s := s.updStream n fun t =>
        { t with takeOpen := false, st := .idle, stallCause := 0, lastResult := res, stopSeq := none, closing := false,
                 stopAtFs := false, recs := [], sealRecs := [], keyId := 0, encrypted := false }
      let s := s.raise 0x0502 (srcStream n) (le 4 t.take ++ le 8 t.takeBytes ++ le 4 t.takeGaps)
      s.finishAll 0x0502 n stOk (le 8 res.1 ++ le 4 res.2) none

/-- A stop takes effect when no further frame can come (R468). -/
def State.stopIdle (s : State) (n : Nat) : State :=
  let t := s.stream n
  if t.stopAtFs && t.stopSeq.isNone && !s.capturing t.ctxId then
    s.updStream n fun t => { t with stopSeq := some (s.ctx t.ctxId).nextSeq }
  else s

/-- REC_REVOKE completes once the Writes in flight to its grants are durable; at once while the stream is STALLED (R468). -/
def State.pumpRevoke (s : State) (n : Nat) : State :=
  each (s.executing 0x0504 n) (fun e s =>
    let ids := e.args.drop 1
    let zs := (s.stream n).stripes.filter (fun z => z.pieces.any (fun p => ids.contains p.grant && p.st != 2))
    if zs.isEmpty || (s.stream n).st == .stalled then s.finish e stOk (le 8 (e.args.headD 0)) none
    else each (nub ((zs.filter (fun z => z.pieces.all (fun p => p.st != 0))).map (·.port))) (fun p s => s.flush n p) s) s

/-- What a recording stream can do on its own now. -/
def State.pumpRecord (s : State) (n : Nat) : State :=
  let s := s.pumpRevoke n
  if (s.stream n).takeOpen && (s.stream n).isRecord then
    let s := ((s.stopIdle n).closeTake n).reportDurable n
    let s := (s.placeAgain n).placeSeals n (8 + (s.stream n).sealRecs.length)
    let s := s.formStripes n (2 + (s.stream n).buffer.length / max 1 (s.stream n).stripeBytes)
    let s := if (s.stream n).takeOpen then (s.stall n (s.stallCauseOf n)).grantLow n false else s
    (s.dropRecs n).endTake n
  else s

end Sys2Proof.Machine
end

