-- ==== Sys2Proof/Machine/Drives.lean ====
section
/-! DEFINITION. Drive ports and the commands of group 0x05 (chapter 14): takes, grants, reports, admin and I/O commands of the
host, what a drive answers, and the REC registers. -/

namespace Sys2Proof.Machine

open Sys2Proof

/-! ## What LIVE configures (R483, R480, R543, R544) -/

/-- A global block of the LIVE generation. -/
def State.liveGlobal (s : State) (type : Nat) : Option (List Byte) :=
  s.cfg.live.bind (fun g => payloadIn g.blocks type globalTarget)

/-- Entries of a STREAM_SET, and the one of a stream. -/
def streamEntries (p : List Byte) : List (List Byte) := entriesFrom p 8 64 (fld p 0 4)

def streamEntry (p : List Byte) (n : Nat) : Option (List Byte) := (streamEntries p).find? (fun e => fld e 0 1 == n)

/-- The LIVE generation has the stream, and it is of type RECORD. -/
def State.liveRecord (s : State) (n : Nat) : Bool :=
  match (s.liveGlobal 0x0701).bind (fun p => streamEntry p n) with
  | some e => fld e 1 1 == 0
  | none => false

def yardEntries (p : List Byte) : List (List Byte) := entriesFrom p 8 64 (fld p 0 4)

def yardEntry (p : List Byte) (y : Nat) : Option (List Byte) := (yardEntries p).find? (fun e => fld e 0 1 == y)

/-- A FLEX_SET configures a root port (R522). -/
def hasRootPort (p : List Byte) (port : Nat) : Bool :=
  match yardEntry p (port / 4 + 1) with
  | some e => fld e 1 1 == 2 && fld (slotEntry e (port % 4)) 0 1 != 0
  | none => false

def State.livePort (s : State) (port : Nat) : Bool :=
  match s.liveGlobal 0x0901 with
  | some p => hasRootPort p port
  | none => false

/-! ## Takes (R459, R468, R482, R598, R605, R609) -/

/-- TRUST_POLICY of LIVE; empty without one. -/
def State.policy (s : State) : List Byte := (s.liveGlobal 0x0B01).getD []

/-- The recipient list suffices for an encrypted take. -/
def State.recipientsOk (s : State) (t : Stream) : Bool :=
  let escrow := sub s.policy 32 64
  !t.recipients.isEmpty && fld s.policy 20 1 ≤ t.recipients.length &&
    (escrow.all (· == 0) || t.recipients.any (fun k => sha3 k == escrow))

/-- A take opens: its number, CERT record, KEY record and OPEN record. -/
def State.openTake (s : State) (n : Nat) : State :=
  let t := s.stream n
  let no := s.nv.takeNumbers.getD n 0 + 1
  let key := s.free
  let s : State := if t.encrypt then { s with free := s.free + 1 } else s
  let s := s.updNv fun x => { x with takeNumbers := x.takeNumbers.set n no }
  let start := (s.ctx t.ctxId).nextSeq
  let s := s.updStream n fun t =>
    { t with st := .running, stallCause := 0, takeOpen := true, take := no, takeBytes := 0, recIndex := 0, recs := [], buffer := [],
             nextStripe := 0, dataUnits := 0, takeGaps := 0, encrypted := t.encrypt, keyId := if t.encrypt then key else 0,
             stripes := [], lastMember := none, durable := 0, stopAtFs := false, startSeq := start, stopSeq := none,
             segment := none, segIndex := 0, sealRecs := [], sealIndex := 0, closing := false, sinceFlush := [], low := false,
             formed := [] }
  let s := s.addSealRec n 3 (s.certRecord n) true
  let s := if t.encrypt then
      let (k, s) := s.makeKeyRecord n
      s.addSealRec n 1 k true
    else s
  (s.addRec n 0 none (s.openPayload n)).raise 0x0501 (srcStream n) (le 4 no)

def formRecStart : Form := { op := 0x0501, lo := 4, hi := 4, reserved := [(1, 3)] }

def recStartBody (c : Cmd) (s : State) : State :=
  let n := fld c.payload 0 1
  let t := s.stream n
  if !s.liveRecord n then s.badField c 0
  else if s.sealDisabled || (t.encrypt && !s.recipientsOk t) then s.fail c stNotAuthorised
  else if t.takeOpen then s.fail c stBusy
  else
    let s := s.openTake n
    s.ok c (le 4 (s.stream n).take)

def formRecStop : Form := { op := 0x0502, mgmt := true, lo := 4, hi := 4, reserved := [(1, 3)] }

def recStopBody (c : Cmd) (s : State) : State :=
  let n := fld c.payload 0 1
  let t := s.stream n
  if !s.liveRecord n then s.badField c 0
  else if !t.takeOpen then s.ok c (le 8 t.lastResult.1 ++ le 4 t.lastResult.2)
  else if t.stopAtFs then s.fail c stBusy
  else (s.accept c n []).updStream n fun t =>
    { t with stopAtFs := true, st := if t.st == .stalled then .stalled else .stopping }

/-! ## Grants (R458, R484) -/

/-- Outstanding grants of any stream on a port. -/
def State.grantsOn (s : State) (p : Nat) : List Grant :=
  ((s.streams.map (·.grants)).flatten).filter (fun g => g.port == p && g.isOut)

def meets (a n b m : Nat) : Bool := decide (a < b + m) && decide (b < a + n)

def Grant.meets (g : Grant) (nsid first count : Nat) : Bool :=
  g.nsid == nsid && Sys2Proof.Machine.meets g.first g.count first count

/-- The first field at fault of an entry list, as an offset in the payload; the grants that it gives. -/
def State.grantList (s : State) (t : Stream) (isS : Bool) : Nat → List (List Byte) → List Grant → Nat ⊕ List Grant
  | _, [], acc => .inr acc
  | off, e :: es, acc =>
    let p := fld e 0 1
    let lba := (s.drive p).lbaOf (fld e 4 4)
    let g : Grant := { id := s.nextGrant + acc.length, isSeal := isS, port := p, nsid := fld e 4 4, first := fld e 8 8, count := fld e 16 8, used := 0, faulted := false }
    if !s.livePort p || !t.members.contains p || (s.drive p).st != .ready then .inl off
    else if !allZero e 1 3 then .inl (off + 1)
    else if lba != 512 && lba != 4096 then .inl off
    else if (s.grantsOn p ++ acc.filter (fun x => x.port == p)).any (fun x => x.meets g.nsid g.first g.count) then .inl (off + 8)
    else if g.count = 0 || (!isS && g.count * lba < t.stripeBytes) then .inl (off + 16)
    else s.grantList t isS (off + 24) es (acc ++ [g])

def formRecGrant : Form := { op := 0x0503, lo := 32, hi := 12296, lens := .entries 2 2 1 512 8 24, reserved := [(4, 4)] }

def recGrantBody (c : Cmd) (s : State) : State :=
  let p := c.payload
  let n := fld p 0 1
  let k := fld p 2 2
  let t := s.stream n
  if !s.liveRecord n then s.badField c 0
  else if 1 < fld p 1 1 then s.badField c 1
  else if k = 0 || 512 < k then s.badField c 2
  else match s.grantList t (fld p 1 1 == 1) 8 (entriesFrom p 8 24 k) [] with
    | .inl off => s.badField c off
    | .inr gs =>
      if 1024 < (t.grants.filter Grant.isOut).length + k then s.fail c stRefusedQuota
      else
        let first := s.nextGrant
        let s : State := { s with nextGrant := first + k }
        (s.updStream n fun t => { t with grants := t.grants ++ gs }).ok c (le 4 first)

def formRecRevoke : Form := { op := 0x0504, lo := 8, hi := 8, reserved := [(1, 3)] }

/-- The unconsumed LBAs return at once; consumed ones once their Writes are durable. -/
def recRevokeBody (c : Cmd) (s : State) : State :=
  let n := fld c.payload 0 1
  let id := fld c.payload 4 4
  let gs := ((s.stream n).grants.filter Grant.isOut).filter (fun g => id == 0xFFFFFFFF || g.id == id)
  if !s.liveRecord n then s.badField c 0
  else if gs.isEmpty && id ≠ 0xFFFFFFFF then s.badField c 4
  else
    let ids := gs.map (·.id)
    let back := (gs.map (fun g => g.count - g.used)).sum
    (s.updStream n fun t =>
      { t with grants := t.grants.map (fun g => if ids.contains g.id then { g with count := g.used } else g) }).accept c n (back :: ids)

/-! ## The report log (R463–R465) -/

def formRecReport : Form := { op := 0x0505, mgmt := true, lo := 4, hi := 4, reserved := [(1, 1)] }

def recReportBody (c : Cmd) (s : State) : State :=
  let n := fld c.payload 0 1
  let k := fld c.payload 2 2
  if !s.liveRecord n then s.badField c 0
  else if k = 0 || 340 < k then s.badField c 2
  else
    let es := (s.nv.reports.getD n []).take k
    s.reply c stOk [] (some (le 4 es.length ++ le 4 0 ++ es.flatten))

def formRecAck : Form := { op := 0x0506, mgmt := true, lo := 8, hi := 8, reserved := [(1, 3)] }

def recAckBody (c : Cmd) (s : State) : State :=
  let n := fld c.payload 0 1
  let q := fld c.payload 4 4
  if !s.liveRecord n then s.badField c 0
  else (s.updNv fun x => { x with reports := upd x.reports n (fun es => es.filter (fun e => q < fld e 28 4)) }).ok c []

/-! ## Commands of the host to a drive (R457, R483, R528) -/

/-- A host command at a drive: stages 0 its data comes from the host, 1 it is at the drive, 2 its data goes to the host, 3 it waits for
room in the drive's queue. -/
def hostCmd (stage id dw0 dw1 sf : Nat) : List Nat := [stage, id, dw0, dw1, sf]

/-- The direction of an admin command's data: bits [1:0] of its opcode. -/
def adminDir (p : List Byte) : Nat := fld p 16 1 % 4

/-- R457's treatment: NOT_AUTHORISED. -/
def adminBarred (p : List Byte) : Bool :=
  let op := fld p 16 1
  [0x00, 0x01, 0x04, 0x05, 0x08, 0x0C, 0x7C].contains op || (op == 0x09 && fld p 56 1 == 0x07)

/-- R457's treatment: BUSY while a grant on the port is outstanding. -/
def adminGuarded (p : List Byte) : Bool := [0x80, 0x84, 0x0D, 0x15, 0x10].contains (fld p 16 1)

/-- Change the arguments of an executing command. -/
def State.setArgs (s : State) (e : ExecCmd) (a : List Nat) : State :=
  s.updNcp fun n => { n with exec := n.exec.map (fun x => if x = e then { x with args := a } else x) }

/-- The command goes to the drive, with the data copied from the host. Of an admin command the device fills in the command identifier
and the data pointer (R457). -/
def State.sendHost (s : State) (e : ExecCmd) (data : List Byte) : State :=
  let p := e.cmd.payload
  let id := s.nextNvme
  let s := if e.cmd.opcode = 0x0507 then
      (s.nvmePost e.key 5 0xFF false 0 0 (fld p 20 4)).out
        (.nvmeAdmin e.key id (sub p 16 2 ++ le 2 id ++ sub p 20 20 ++ sub p 56 24) data)
    else s.nvmeCmd e.key (if fld p 1 1 = 0 then 3 else 4) 0xFF false 0 0 (fld p 4 4) (fld p 8 8) (fld p 16 4) []
  s.setArgs e (hostCmd 1 id 0 0 0)

/-- Room in the queue that a host command goes to: the admin queue has 64 entries (R456), of which one stays empty, and a copy under
way keeps its place. -/
def State.hostRoom (s : State) (e : ExecCmd) : Bool :=
  let d := s.drive e.key
  if e.cmd.opcode = 0x0507 then
    decide ((d.cmds.filter (fun c => 5 ≤ c.op)).length +
      ((s.executing 0x0507 e.key).filter (fun x => x.args.headD 0 == 0)).length + 1 < 64)
  else decide ((d.cmds.filter (fun c => c.op ≤ 4)).length + 1 < d.ioQueue)

/-- A host command has data that the device copies from the host first. -/
def ExecCmd.copiesIn (e : ExecCmd) : Bool :=
  e.cmd.opcode == 0x0507 && adminDir e.cmd.payload == 1 && fld e.cmd.payload 4 4 != 0

/-- The host commands of a port that wait go on as far as there is room: with the copy from the host, or with the drive. -/
def State.pumpHost (s : State) (p : Nat) : State :=
  each ((s.executing 0x0507 p ++ s.executing 0x0508 p).filter (fun e => e.args.headD 0 == 3)) (fun e s =>
    if !s.hostRoom e then s
    else if e.copiesIn then (s.setArgs e (hostCmd 0 0 0 0 0)).out (.hostRead (fld e.cmd.payload 8 8) (fld e.cmd.payload 4 4))
    else s.sendHost e []) s

def formRecAdmin : Form := { op := 0x0507, lo := 80, hi := 80, reserved := [(1, 3)] }

/-- Accept, and start once there is room. -/
def State.startHost (s : State) (c : Cmd) (port : Nat) : State := (s.accept c port (hostCmd 3 0 0 0 0)).pumpHost port

def recAdminBody (c : Cmd) (s : State) : State :=
  let p := c.payload
  let port := fld p 0 1
  if !s.livePort port then s.badField c 0
  else if 65536 < fld p 4 4 then s.badField c 4
  else if adminBarred p then s.fail c stNotAuthorised
  else if (s.drive port).st != .ready || (adminGuarded p && !(s.grantsOn port).isEmpty) then s.fail c stBusy
  else s.startHost c port

def formRecIo : Form := { op := 0x0508, lo := 32, hi := 32, reserved := [(2, 2), (20, 4)] }

def recIoBody (c : Cmd) (s : State) : State :=
  let p := c.payload
  let port := fld p 0 1
  let op := fld p 1 1
  let n := fld p 16 4
  if !s.livePort port then s.badField c 0
  else if 1 < op then s.badField c 1
  else if (s.drive port).st != .ready then s.fail c stBusy
  else if op = 0 && 16777216 < n * s.lba port (fld p 4 4) then s.badField c 16
  else if op = 1 && (s.grantsOn port).any (fun g => g.meets (fld p 4 4) (fld p 8 8) n) then s.badField c 8
  else s.startHost c port

/-- The drive has answered a command of the host. -/
def State.hostDone (s : State) (e : ExecCmd) (f : NvmeFacts) : State :=
  let p := e.cmd.payload
  let res := le 4 f.dw0.toNat ++ le 4 f.dw1.toNat ++ le 2 f.statusField
  if e.cmd.opcode = 0x0507 then
    if f.ok && adminDir p == 2 && fld p 4 4 != 0 then s.setArgs e (hostCmd 2 0 f.dw0.toNat f.dw1.toNat f.statusField)
    else s.finish e stOk res none
  else if !f.ok then s.finish e stHwFault [] none
  else if fld p 1 1 = 0 then s.setArgs e (hostCmd 2 0 0 0 0)
  else s.finish e stOk [] none

/-- A host copy of such a command has ended or stopped (R528). -/
def State.hostCopied (s : State) (e : ExecCmd) (whole : Bool) (data : List Byte) : State :=
  let stage := e.args.headD 0
  let a (k : Nat) : Nat := e.args.getD k 0
  if stage = 1 || stage = 3 then s
  else if !whole then s.finish e stHwFault [] none
  else if stage = 0 then (if (s.drive e.key).st == .ready then s.sendHost e (fit (fld e.cmd.payload 4 4) data) else s.finish e stHwFault [] none)
  else
    let s := s.dmaOut (fld e.cmd.payload (if e.cmd.opcode = 0x0507 then 8 else 24) 8) data
    s.finish e stOk (if e.cmd.opcode = 0x0507 then le 4 (a 2) ++ le 4 (a 3) ++ le 2 (a 4) else []) none

/-! ## Ports (R455, R456, R466) -/

/-- The link has come up: the firmware enables the controller and issues Identify Controller (R456). -/
def State.bringUp (s : State) (p : Nat) : State :=
  (s.updDrive p fun d => { d with st := .init, cmds := [], formats := [] }).nvmeCmd p 6 0xFF false 0 0 0 0 0 []

/-- The bring-up or a reset has ended. -/
def State.portEnds (s : State) (p : Nat) (ok : Bool) : State :=
  let s := s.updDrive p fun d => { d with st := if ok then .ready else .failed, idleSince := s.now }
  s.finishAll 0x0509 p (if ok then stOk else stHwFault) [] none

def formRecPortReset : Form := { op := 0x0509, lo := 4, hi := 4, reserved := [(1, 3)] }

/-- A controller without a link cannot be reset. -/
def recPortResetBody (c : Cmd) (s : State) : State :=
  let port := fld c.payload 0 1
  if !s.livePort port then s.badField c 0
  else
    let s := s.accept c port []
    if (s.drive port).st == .absent then s.finishAll 0x0509 port stHwFault [] none else s.portReset port none

/-- A Write has ended. -/
def State.writeDone (s : State) (p : Nat) (x : NvmeCmd) (f : NvmeFacts) : State :=
  if f.ok then
    let hit (q : Piece) : Bool := q.job == x.job && q.st == 0
    let n := (((s.stream x.stream).stripes.map (·.pieces)).flatten.filter hit).map (·.len)
    let bytes := n.sum
    let s := s.mapPieces x.stream (fun _ q => if hit q then { q with st := 1 } else q)
    let s : State := { s with egress := (s.now, bytes) :: s.egress }
    let s := s.count 0x10 bytes { privilege := some 1, master := some 0x68 }
    let since := (((s.stream x.stream).sinceFlush.find? (·.1 == p)).map (·.2)).getD 0 + bytes
    let s := s.updStream x.stream fun t => { t with sinceFlush := (p, since) :: t.sinceFlush.filter (·.1 ≠ p) }
    if flushQuantum (s.stream x.stream).ent ≤ since then s.flush x.stream p else s
  else if !f.dnr && f.retryable && x.tries < 2 then
    let s := s.updDrive p fun d => { d with retries := satInc 16 d.retries }
    match s.job x.job with
    | some j => s.startWrite j (x.tries + 1)
    | none => s
  else
    let g := ((s.job x.job).map (fun j => j.args.getD 2 0)).getD 0
    (s.updStream x.stream fun t =>
      { t with grants := t.grants.map (fun y => if y.id = g then { y with faulted := true } else y) }).driveFault p f.statusField

/-- A command of the host ends; a failed Read or Write Zeroes that may be retried is. -/
def State.hostEnds (s : State) (p : Nat) (x : NvmeCmd) (f : NvmeFacts) : State :=
  match (s.executing 0x0507 p ++ s.executing 0x0508 p).find? (fun e => e.args.take 2 == [1, x.id]) with
  | none => s
  | some e =>
    if e.cmd.opcode = 0x0508 && !f.ok && !f.dnr && f.retryable && x.tries < 2 then
      let s := s.updDrive p fun d => { d with retries := satInc 16 d.retries }
      let s := s.sendHost e []
      s.updDrive p fun d => { d with cmds := d.cmds.map (fun y => if y.id + 1 = s.nextNvme then { y with tries := x.tries + 1 } else y) }
    else s.hostDone e f

/-- The next namespace is identified, or the port is READY. -/
def State.nextNamespace (s : State) (p k : Nat) : State :=
  if k ≤ (s.drive p).nn then s.nvmeCmd p 7 0xFF false 0 0 k 0 0 [] else s.portEnds p true

/-- An Identify command has ended. After Identify Controller the I/O queue pair is made and each namespace is identified; a controller
without the NVM command set goes to FAILED (R456). -/
def State.identified (s : State) (p : Nat) (x : NvmeCmd) (f : NvmeFacts) : State :=
  if (s.drive p).st != .init then s
  else if x.op = 6 then
    if f.ok && f.nvmSet then
      (s.updDrive p fun d => { d with nn := f.nn, mdts := f.mdts, ioQueue := min 1024 (f.mqes + 1) }).nextNamespace p 1
    else s.portEnds p false
  else if !f.ok then s.portEnds p false
  else (s.updDrive p fun d => { d with formats := d.formats ++ [(x.nsid, f.lbaSize)] }).nextNamespace p (x.nsid + 1)

/-- NVME_COMPLETION. -/
def State.nvmeDone (s : State) (p : Nat) (f : NvmeFacts) : State :=
  match (s.drive p).cmds.find? (fun x => x.id == f.cmd) with
  | none => s
  | some x =>
    if f.cfs then s.portReset p (some f.statusField)
    else
      let s := s.updDrive p fun d => { d with cmds := d.cmds.filter (fun y => y.id != x.id), idleSince := s.now }
      let s := match x.op with
        | 1 => s.writeDone p x f
        | 2 => if f.ok then each (List.range 32) (fun n s => s.writesDurable n x.id) s else s.portReset p (some f.statusField)
        | 6 | 7 => s.identified p x f
        | _ => s.hostEnds p x f
      s.pumpHost p

/-- NVME_COMMAND_TIMEOUT. -/
def State.nvmeTimeout (s : State) (p : Nat) : State :=
  if !(s.drive p).cmds.any (fun c => decide (c.tbm + ms (s.stream c.stream).timeoutMs ≤ s.now)) then s
  else (s.updDrive p fun d => { d with timeouts := satInc 8 d.timeouts }).portReset p (some 0)

/-- CONTROLLER_RESET_DONE. A controller that was never identified is identified now. -/
def State.resetDone (s : State) (p : Nat) (ok : Bool) : State :=
  if (s.drive p).st != .resetting then s
  else if !ok then (s.portEnds p false).driveFault p 0
  else if (s.drive p).formats.isEmpty then s.bringUp p
  else s.portEnds p true

end Sys2Proof.Machine
end

