-- ==== Sys2Proof/Machine/Flex.lean ====
section
/-! DEFINITION. Flex lanes and the host link (chapter 16): yards, root ports, Ethernet ports and SDI lanes, their states, errors
and margins. What link resets do stands in Pins. -/

namespace Sys2Proof.Machine

open Sys2Proof

/-! ## State codes of R538 -/

def fxOff : Nat := 0
def fxReset : Nat := 1
def fxDetect : Nat := 2
def fxRecovery : Nat := 7
def fxLow : Nat := 8
def fxAlign : Nat := 9
def fxDown : Nat := 0xA
def fxFailed : Nat := 0xF

/-- Yard and slot of a root port (R522), and of an Ethernet port (R523). -/
def rootYard (p : Nat) : Nat := p / 4 + 1
def rootSlot (p : Nat) : Nat := p % 4

def State.ethAt (s : State) (p : Nat) : Option (Nat × Nat) :=
  ((List.range' 6 2).map (fun y => (List.range 4).map (fun k => (y, k)))).flatten.find? (fun x =>
    (s.yard x.1).mode == 3 && (s.port x.1 x.2).port == some p)

/-- FLX_LINK_UP and FLX_LINK_DOWN (R547). -/
def State.linkUp (s : State) (y k : Nat) (port : Option Nat) (rate width micros : Nat) : State :=
  s.raise 0x0E01 (srcYard y) (le 1 k ++ le 1 (port.getD 0xFF) ++ le 1 rate ++ le 1 width ++ le 4 micros)

def State.linkDown (s : State) (y k : Nat) (port : Option Nat) (st : Nat) : State :=
  s.raise 0x0E02 (srcYard y) (le 1 k ++ le 1 (port.getD 0xFF) ++ le 1 st)

/-- A flex port is retired (R648, R649). -/
def State.flexRetired (s : State) (y k : Nat) : Bool := s.isRetired { Loc.none with kind := 6, unit := y, sub := k }

/-! ## A changed FLEX_SET applies (R521–R524, R532, R542) -/

/-- The port of a slot under a yard entry; none where nothing starts. -/
def slotPort (e : List Byte) (y k : Nat) (now : Nanos) : FlexPort :=
  if fld e 1 1 = 2 && fld (slotEntry e k) 0 1 ≠ 0 then
    { FlexPort.reset with st := fxReset, perstHeld := true, port := some (4 * (y - 1) + k), holdSince := now }
  else if fld e 1 1 = 3 && bit (fld e 3 1) k then
    { FlexPort.reset with st := fxDetect, width := if fld e 2 1 = 1 then 4 else 1, port := some (if fld e 2 1 = 1 then y - 6 else 4 * (y - 6) + k) }
  else FlexPort.reset

/-- What a slot's port depends on. -/
def slotKey (e : Option (List Byte)) (k : Nat) : Nat × List Byte × Bool × Nat :=
  match e with
  | none => (0, [], false, 0)
  | some e => (fld e 1 1, slotEntry e k, bit (fld e 3 1) k, fld e 2 1)

/-- A slot whose port changes: the old port is gone, and a new one starts in RESET, its PERST_OUT_N driven low, or in DETECT. -/
def State.applySlot (s : State) (y k : Nat) (old new : Option (List Byte)) : State :=
  if slotKey old k = slotKey new k then s
  else
    let x := s.port y k
    let fresh := match new with | some e => slotPort e y k s.now | none => FlexPort.reset
    let fresh := { fresh with rxErr := x.rxErr, uncorr := x.uncorr, linkDowns := x.linkDowns, rxErrors := x.rxErrors, rxDropped := x.rxDropped,
                               scanning := x.scanning }
    let s := s.updPort y k fun _ => fresh
    let p := 4 * (y - 1) + k
    let rootThen := (slotKey old k).1 = 2 && x.port.isSome
    let rootNow := fresh.perstHeld
    let s := if rootNow then s.drivePins (.gpio (fld (slotEntry (new.getD []) k) 1 1)) else s
    let s := if rootThen || rootNow then
        s.updDrive p fun d => { d with st := .absent, cmds := [], nn := 0, formats := [], mdts := 0 }
      else s
    if x.st = fxActive then s.linkDown y k x.port fresh.st else s

/-- The yard's entry changes; one that configures it drives its lanes (R66). What its slots' power entries do stands in PowerMap. -/
def State.applyYard (s : State) (y : Nat) (new : Option (List Byte)) : State :=
  let old := (s.yard y).entry
  if old = new then s
  else
    let mode := match new with | some e => fld e 1 1 | none => 0
    let s : State := { s with yards := upd s.yards (y - 1) fun x => { x with mode := mode, entry := new, pll := mode != 0 } }
    let s := if mode = 0 then s else s.drivePins (.lanes y)
    each (List.range 4) (fun k s => s.applySlot y k old new) s

/-- Lanes that an SDI stream's link mode takes (R472). -/
def sdiLanes (e : List Byte) : Nat :=
  if fld e 1 1 = 3 && bit (fld e 8 2) 2 then
    (List.range (if fld e 17 1 = 3 then 4 else 1)).foldl (fun v i => v ||| 2 ^ (fld e 16 1 + i)) 0
  else 0

/-- SDI lanes are ACTIVE while the yard PLL is locked and their stream is enabled (R537, R539). -/
def State.updSdi (s : State) : State :=
  let want := (s.streams.map (fun t => sdiLanes (t.entry.getD []))).foldl (· ||| ·) 0
  each (List.range' 1 7) (fun y s =>
    let x := s.yard y
    let now := if x.mode = 4 && x.pll then want % 2 ^ 16 else 0
    let old := x.sdiActive.toNat
    let s : State := { s with yards := upd s.yards (y - 1) fun x => { x with sdiActive := BitVec.ofNat 16 now } }
    each (List.range 16) (fun l s =>
      if bit now l && !bit old l then s.linkUp y l none 0 1 0
      else if bit old l && !bit now l then s.linkDown y l none fxOff else s) s) s

def State.applyFlex (s : State) (p : List Byte) : State :=
  (each (List.range' 1 7) (fun y s => s.applyYard y (yardEntry p y)) s).updSdi

/-! ## Root ports (R531–R534, R539) -/

/-- The PERST hold has ended: DETECT. A port whose power entry is not on waits. -/
def State.perstRelease (s : State) (p : Nat) : State :=
  let y := rootYard p
  let k := rootSlot p
  let x := s.port y k
  let w := fld (s.slotIn y k) 2 1
  let on := 15 ≤ w || (s.health.power.getD w PwrEntry.reset).st == .on
  if x.port != some p || !x.perstHeld || !on || decide (s.now < x.holdSince + ms (10 * max (fld (s.slotIn y k) 7 1) 10)) then s
  else s.updPort y k fun x => { x with st := fxDetect, perstHeld := false, holdSince := s.now }

def formFlxRetrain : Form := { op := 0x0E03, lo := 4, hi := 4, reserved := [(2, 2)] }

/-- A retrain that was asked for has ended. -/
def State.retrainEnds (s : State) (y k : Nat) (ok : Bool) : State :=
  s.finishAll 0x0E03 (16 * y + k) (if ok then stOk else stHwFault) (if ok then [] else le 1 (s.port y k).st) none

/-- A failed FLX_RETRAIN counts; after the third the port is FAILED (R539). Answers the state that the port falls to. -/
def State.countRetrain (s : State) (y k : Nat) : Nat × State :=
  let asked := !(s.executing 0x0E03 (16 * y + k)).isEmpty
  let fails := (s.port y k).retrainFails + b2n asked
  (if asked && 3 ≤ fails then fxFailed else fxDown, s.updPort y k fun x => { x with retrainFails := fails })

/-- A targeted test of a port is running: the link that has come up is scanned at once (R646). -/
def State.testScan (s : State) (y k : Nat) : State :=
  if s.obs.tests.any (fun t => t.running && t.loc.kind == 6 && t.loc.unit == y && t.loc.sub == k) then
    s.updPort y k fun x => { x with scanning := true }
  else s

/-- The link of a root port reaches ACTIVE. -/
def State.linkActive (s : State) (p : Nat) (f : LinkFacts) : State :=
  let y := rootYard p
  let k := rootSlot p
  let x := s.port y k
  let e := s.slotIn y k
  let training := (fxDetect ≤ x.st && x.st ≤ 5) || x.st == fxRecovery
  if (s.yard y).mode != 2 || x.port != some p || !training || (s.flexRetired y k && x.st != fxRecovery) then s
  else
    let short := f.rate < fld e 4 1 || f.width < fld e 5 1
    let fresh := x.st ≠ fxRecovery
    let s := s.updPort y k fun x => { x with rate := f.rate, width := f.width, trainUs := f.micros }
    let s := if fresh then s.linkUp y k (some p) f.rate f.width f.micros else s
    if short && !x.retried then s.updPort y k fun x => { x with st := fxRecovery, retried := true, holdSince := s.now }
    else
      let s := (s.updPort y k fun x => { x with st := fxActive, degraded := short, retrainFails := 0 }).testScan y k
      let s := if short && !x.degraded then
          s.raise 0x0E03 (srcYard y) (le 1 k ++ le 1 p ++ le 1 f.rate ++ le 1 f.width)
        else s
      let s := s.updDrive p fun d => { d with idleSince := s.now }
      let s := s.retrainEnds y k true
      if (s.drive p).st == .absent then s.bringUp p else s

/-- A port that is not ACTIVE within 1 s enters DOWN, and starts again from DETECT (R534). -/
def State.retryDetect (s : State) (p : Nat) : State :=
  let y := rootYard p
  let k := rootSlot p
  let x := s.port y k
  if x.port != some p || (s.yard y).mode != 2 || decide (s.now < x.holdSince + sec 1) then s
  else if fxDetect ≤ x.st && x.st ≤ 5 then
    let (st, s) := s.countRetrain y k
    (s.updPort y k fun x => { x with st := st, holdSince := if st = fxDown then s.now else x.holdSince }).retrainEnds y k false
  else if x.st = fxDown then s.updPort y k fun x => { x with st := fxDetect, retried := false, holdSince := s.now }
  else s

/-- A departure from ACTIVE: the counter, the event, and what the drive's port does (R466). -/
def State.rootDown (s : State) (p st : Nat) : State :=
  let y := rootYard p
  let k := rootSlot p
  let s := s.updPort y k fun x => { x with st := st, degraded := false, retried := false, rate := 0, width := 0, linkDowns := satInc 16 x.linkDowns, holdSince := s.now }
  let s := s.linkDown y k (some p) st
  if (s.drive p).st == .ready || (s.drive p).st == .init then s.portReset p (some 0) else s

def State.rootLinkDown (s : State) (p : Nat) : State :=
  let x := s.port (rootYard p) (rootSlot p)
  if (s.yard (rootYard p)).mode == 2 && x.port == some p && (x.st == fxActive || x.st == fxLow || x.st == fxRecovery) then
    s.rootDown p fxDetect
  else s

/-- RECOVERY has lasted 100 ms: DOWN; the third failed FLX_RETRAIN ends in FAILED (R539). -/
def State.recoveryTimeout (s : State) (p : Nat) : State :=
  let y := rootYard p
  let k := rootSlot p
  let x := s.port y k
  if (s.yard y).mode != 2 || x.port != some p || x.st != fxRecovery || decide (s.now < x.holdSince + ms 100) then s
  else
    let (st, s) := s.countRetrain y k
    (s.rootDown p st).retrainEnds y k false

/-- A PCIe link leaves L0 for RECOVERY; number 28 stands for the endpoint. -/
def State.recoveryEntry (s : State) (p : Nat) : State :=
  if p = 28 then s.updEp fun e => if e.st = fxActive then { e with st := fxRecovery } else e
  else
    let x := s.port (rootYard p) (rootSlot p)
    if (s.yard (rootYard p)).mode == 2 && x.port == some p && x.st == fxActive then
      s.updPort (rootYard p) (rootSlot p) fun x => { x with st := fxRecovery, holdSince := s.now }
    else s

/-- No NVMe command for 100 µs: L1 where the slot allows it (R531). -/
def State.l1Entry (s : State) (p : Nat) : State :=
  let y := rootYard p
  let k := rootSlot p
  let x := s.port y k
  if (s.yard y).mode == 2 && x.port == some p && x.st == fxActive && bit (fld (s.slotIn y k) 6 1) 1 && (s.drive p).cmds.isEmpty &&
    decide ((s.drive p).idleSince + us 100 ≤ s.now) then
    s.updPort y k fun x => { x with st := fxLow }
  else s

/-! ## Ethernet (R535, R539) -/

def State.ethDown (s : State) (p : Nat) : State :=
  match s.ethAt p with
  | none => s
  | some (y, k) =>
    if (s.port y k).st != fxActive then s
    else (s.updPort y k fun x => { x with st := fxDown, linkDowns := satInc 16 x.linkDowns }).linkDown y k (some p) fxDown

def State.ethUp (s : State) (p micros : Nat) : State :=
  match s.ethAt p with
  | none => s
  | some (y, k) =>
    let x := s.port y k
    if !(x.st == fxDetect || x.st == fxAlign || x.st == fxDown) || s.flexRetired y k then s
    else
      let s := (s.updPort y k fun x => { x with st := fxActive, trainUs := micros }).testScan y k
      (s.linkUp y k (some p) 0 x.width micros).retrainEnds y k true

/-! ## The endpoint (R525, R530) -/

/-- Training ends in L0, or the host has changed what it sets in configuration space. -/
def State.epActive (s : State) (f : EpFacts) : State :=
  let st := s.ep.st
  if !((fxDetect ≤ st && st ≤ 5) || st == fxActive || st == fxRecovery) then s
  else
    let s := s.updEp fun e =>
      { e with st := fxActive, rate := f.link.rate, width := f.link.width, flit := f.link.flit, bme := f.bme, mse := f.mse,
               msixEn := f.msixEn, fnMask := f.fnMask, trainUs := if st ≤ 5 then f.link.micros else e.trainUs }
    let s := if st ≤ 5 then s.linkUp 0 0 none f.link.rate f.link.width f.link.micros else s
    if f.msixEn && !f.fnMask then
      each ((List.range 256).filter (fun v => (s.vec v).pendingBit && !(s.vec v).masked)) (fun v s => s.unmask v) s
    else s

/-- A retrain that has not reached ACTIVE within 2 s ends HW_FAULT (R546). -/
def State.retrainLimits (s : State) : State :=
  each (s.ncp.exec.filter (fun e => e.cmd.opcode == 0x0E03 && decide (e.args.headD 0 + sec 2 ≤ s.now))) (fun e s =>
    s.retrainEnds (e.key / 16) (e.key % 16) false) s

/-! ## The states on the way to ACTIVE (R538) -/

/-- A link that trains may enter its next state in a cycle: a PCIe port goes from DETECT through POLLING and CONFIG to EQ, and an
Ethernet port whose signal comes goes to ALIGN. When it does so is a free value. -/
def State.trainPort (s : State) (y k : Nat) : State :=
  let x := s.port y k
  let mode := (s.yard y).mode
  if x.port.isNone || s.flexRetired y k then s
  else if mode = 2 && fxDetect ≤ x.st && x.st < 5 then
    let (d, s) := s.drawNat
    s.updPort y k fun x => { x with st := x.st + d % 2 }
  else if mode = 3 && (x.st = fxDetect || x.st = fxDown) then
    let (d, s) := s.drawNat
    if d % 2 = 1 then s.updPort y k fun x => { x with st := fxAlign } else s
  else s

def State.trainLinks (s : State) : State :=
  let s := if fxDetect ≤ s.ep.st && s.ep.st < 5 then
      let (d, s) := s.drawNat
      s.updEp fun e => { e with st := e.st + d % 2 }
    else s
  each (List.range' 1 7) (fun y s => if (s.yard y).mode = 0 then s else each (List.range 4) (fun k s => s.trainPort y k) s) s

/-! ## Errors and margins (R540, R541, R546) -/

/-- Errors that a port has counted in the last second; the replays that they cost the host link are a free value. -/
def State.flexErrors (s : State) (y k corr unc : Nat) : State :=
  let raised := 1000 < corr || 0 < unc
  let last := if y = 0 then s.ep.lastErrEvent else (s.port y k).lastErrEvent
  let (replays, s) := if y = 0 then s.drawNat else (0, s)
  let s := if y = 0 then s.updEp fun e =>
      { e with corr := sat 16 (e.corr + corr), uncorr := sat 16 (e.uncorr + unc), replay := e.replay + BitVec.ofNat 32 replays }
    else s.updPort y k fun x => { x with rxErr := x.rxErr + BitVec.ofNat 32 corr, uncorr := sat 16 (x.uncorr + unc) }
  if !raised || !s.mayRaise last (sec 1) then s
  else
    let s := if y = 0 then s.updEp fun e => { e with lastErrEvent := some s.now }
      else s.updPort y k fun x => { x with lastErrEvent := some s.now }
    let port := if y = 0 then 0xFF else (s.port y k).port.getD 0xFF
    let s := s.raise 0x0E04 (srcYard y) (le 1 k ++ le 1 port ++ le 2 0 ++ le 4 corr ++ le 4 unc)
    s.logError 6 { Loc.none with kind := 6, unit := y, sub := k } { detail := corr }

/-- A periodic scan of every ACTIVE PCIe and Ethernet link begins. -/
def State.marginScan (s : State) : State :=
  let s := s.updEp fun e => { e with scanning := e.scanning || e.st == fxActive }
  { s with yards := s.yards.map (fun y => { y with ports := y.ports.map (fun x =>
      { x with scanning := x.scanning || (x.port.isSome && x.st == fxActive) }) }) }

/-- A scan ends: the smallest margins are kept, and FLX_MARGIN completes. -/
def State.marginDone (s : State) (y k : Nat) (f : MarginFacts) : State :=
  let on := if y = 0 then s.ep.scanning else (s.port y k).scanning
  if !on then s
  else
    let least (l : List Nat) : Nat := match l with | [] => 0 | a :: as => as.foldl min a
    let m := (least f.timing, least f.voltage)
    let s := if y = 0 then s.updEp fun e => { e with margin := m, marginTbm := some s.now, scanning := false }
      else s.updPort y k fun x => { x with margin := m, marginTbm := some s.now, scanning := false }
    s.finishAll 0x0E02 (16 * y + k) stOk (fit 16 (f.timing.map (BitVec.ofNat 8 ·)))
      (some (fit 32 ((f.voltage.map (fun v => le 2 v)).flatten)))

/-- The minimum margins of R679: timing in 1/64 UI and voltage in mV; PAM4 runs at 64 GT/s and on Ethernet, and SDI has none. -/
def minMargin (mode rate : Nat) : Nat × Nat :=
  if mode = 3 || (mode != 4 && rate = 6) then (6, 10) else if mode = 4 then (0, 0) else (12, 20)

/-- The last margin scan of a port, or of the endpoint, reaches them. -/
def State.marginsMeet (s : State) (y k : Nat) : Bool :=
  let x := s.port y k
  let (m, least) := if y = 0 then (s.ep.margin, minMargin 1 s.ep.rate) else (x.margin, minMargin (s.yard y).mode x.rate)
  least.1 ≤ m.1 && least.2 ≤ m.2

/-- A port is ACTIVE at its slot's minimum rate and width (R646). -/
def State.portMeets (s : State) (y k : Nat) : Bool :=
  let x := s.port y k
  let e := s.slotIn y k
  x.st == fxActive && ((s.yard y).mode == 3 || (fld e 4 1 ≤ x.rate && fld e 5 1 ≤ x.width))

/-! ## Commands of group 0x0E (R546) -/

/-- A port that a command may name: the endpoint, or a slot where a port starts. -/
def State.flexPortAt (s : State) (y k : Nat) : Bool :=
  if y = 0 then k == 0 else y < 8 && k < 4 && (s.yard y).mode != 4 && (s.port y k).port.isSome

def formFlxLinkInfo : Form := { op := 0x0E01, mgmt := true, lo := 4, hi := 4, reserved := [(2, 2)] }

def flxLinkInfoBody (c : Cmd) (s : State) : State :=
  let y := fld c.payload 0 1
  let k := fld c.payload 1 1
  if 7 < y then s.badField c 0
  else if y = 0 then
    if k ≠ 0 then s.badField c 1
    else s.ok c (le 4 s.regEpStatus ++ le 4 s.ep.trainUs ++ le 4 (s.marginWord s.ep.margin s.ep.marginTbm))
  else if (s.yard y).mode = 4 then
    if 15 < k then s.badField c 1
    else
      let on := (s.yard y).sdiActive.toNat.testBit k
      s.ok c (le 4 ((if on then fxActive * 2 ^ 28 + 2 ^ 20 else 0) + 0xFF) ++ le 4 0 ++ le 4 0xFF)
  else if 3 < k then s.badField c 1
  else s.ok c (le 4 (s.regPortStatus y k) ++ le 4 (s.port y k).trainUs ++ le 4 (s.marginWord (s.port y k).margin (s.port y k).marginTbm))

def formFlxMargin : Form := { op := 0x0E02, lo := 4, hi := 4, reserved := [(2, 2)] }

/-- A link that is not ACTIVE has no margin to scan: HW_FAULT. -/
def flxMarginBody (c : Cmd) (s : State) : State :=
  let y := fld c.payload 0 1
  let k := fld c.payload 1 1
  if 7 < y then s.badField c 0
  else if !s.flexPortAt y k then s.badField c 1
  else
    let st := if y = 0 then s.ep.st else (s.port y k).st
    let s := s.accept c (16 * y + k) []
    if st ≠ fxActive then s.finishAll 0x0E02 (16 * y + k) stHwFault [] none
    else if y = 0 then s.updEp fun e => { e with scanning := true }
    else s.updPort y k fun x => { x with scanning := true }

/-- An ACTIVE root port goes through RECOVERY, another starts from DETECT; an Ethernet port aligns again (R542). -/
def flxRetrainBody (c : Cmd) (s : State) : State :=
  let y := fld c.payload 0 1
  let k := fld c.payload 1 1
  if y = 0 || 7 < y then s.badField c 0
  else if !s.flexPortAt y k then s.badField c 1
  else
    let x := s.port y k
    let s := s.accept c (16 * y + k) [s.now]
    if (s.yard y).mode = 3 then
      let s := s.updPort y k fun x => { x with st := if x.st = fxActive then fxAlign else fxDetect }
      if x.st = fxActive then s.linkDown y k x.port fxAlign else s
    else if x.perstHeld then s.retrainEnds y k false
    else s.updPort y k fun x =>
      { x with st := if x.st = fxActive || x.st = fxLow || x.st = fxRecovery then fxRecovery else fxDetect,
               holdSince := s.now }

end Sys2Proof.Machine
end

