-- ==== Sys2Proof/Machine/Trust.lean ====
section
/-! DEFINITION. The trust commands of group 0x07 and the TRS registers (chapter 18). -/

namespace Sys2Proof.Machine

open Sys2Proof

/-! ## Fuses (R577, R578, R585, R593) -/

/-- A slot that enrolment may write: neither used nor spoilt. -/
def Fuses.freeSlot (f : Fuses) : Option Nat := (List.range 3).find? (fun j => !f.used j && allZero (f.owner j) 0 64)

/-- The hash of the owner key in force, as the fuses hold it; zero when none. -/
def State.ownerHash (s : State) : List Byte :=
  match s.nv.fuses.ownerSlot with
  | some j => if s.nv.fuses.lifecycle == 2 then s.nv.fuses.owner j else zeros 64
  | none => zeros 64

/-- The first k bits of a hash, as fuses hold them while the rest is not programmed. -/
def hashPrefix (h : List Byte) (k : Nat) : List Byte :=
  h.mapIdx (fun i b => BitVec.ofNat 8 (b.toNat % 2 ^ min 8 (k - 8 * i)))

/-- Program one fuse bit. With OWNER_USED bit j the non-volatile store takes the key's copy, which is not in force before. -/
def Nv.program (n : Nv) (goal : FuseGoal) (st : FuseStep) : Nv :=
  let key := match goal with
    | .enrol _ key => key
    | .svn _ _ => []
  match st with
  | .svn v => { n with fuses := { n.fuses with svn := v } }
  | .hashBit j k => { n with fuses := { n.fuses with owners := n.fuses.owners.set j (hashPrefix (sha3 key) (k + 1)) } }
  | .used j => { n with ownerKey := key, fuses := { n.fuses with ownerUsed := n.fuses.ownerUsed.set j true } }
  | .lifecycle => { n with fuses := { n.fuses with lifecycle := 2 } }

/-- The fuse bits of a goal, in the order of R593. -/
def Fuses.plan (f : Fuses) : FuseGoal → List FuseStep
  | .svn old new => (List.range' (old + 1) (new - old)).map .svn
  | .enrol j _ => (List.range 512).map (.hashBit j) ++ [.used j] ++ (if f.lifecycle == 1 then [.lifecycle] else [])

/-! ## Muster and certificates (R584, R594, R610) -/

def State.policyBundle (s : State) : Option (List Byte) :=
  s.cfg.live.bind (fun g => payloadIn g.blocks 0x0B01 globalTarget)

/-- Bytes 0 to 431 of a muster report. -/
def State.musterBody (s : State) (nonce : List Byte) : List Byte :=
  let f := s.nv.fuses
  [0x4F, 0x55, 0x56, 0x4D] ++ le 2 1 ++ le 1 f.lifecycle ++ le 1 f.svn ++ fit 8 f.serial ++ fit 64 nonce ++ fit 64 s.trust.mFs ++
    fit 64 s.trust.mFw ++ le 4 s.trust.fwVersion.toNat ++ le 4 s.liveNumber ++
    (match s.cfg.live with | some g => fit 64 g.digest | none => zeros 64) ++ fit 64 s.ownerHash ++
    (match s.policyBundle with | some p => fit 64 (sha3 p) | none => zeros 64) ++ le 1 (b2n s.trust.debugUnlocked) ++
    le 1 (b2n s.power.fellBack + 2 * b2n s.trust.tried + 4 * b2n (s.trust.runningSlot == 1)) ++ le 2 0 ++
    le 4 s.nv.bootCount ++ s.tbmField

def formTrsMuster : Form := { op := 0x0701, mgmt := true, lo := 64, hi := 64 }

def trsMusterBody (c : Cmd) (s : State) : State :=
  if s.nv.fuses.lifecycle == 0 then s.fail c stNotAuthorised
  else
    let s := s.accept c 0 []
    let body := s.musterBody c.payload
    let (sig, s) := s.sign s.aliasSeed body
    s.finishAll 0x0701 0 stOk [] (some (body ++ sig ++ zeros 5 ++ fit 7368 (s.trust.certs.getD 0 [])))

def execTrsMuster (b : Mbox) (s : State) : Host.Outcome State Fault Refusal := .next (s.take b formTrsMuster trsMusterBody)

def formTrsCert : Form := { op := 0x0702, mgmt := true, lo := 4, hi := 4, reserved := [(1, 3)] }

/-- The certificate of a kind; in VENDOR no identity certificate exists (R578). -/
def State.certOf (s : State) (kind : Nat) : Option (List Byte) :=
  match kind with
  | 0 => if s.nv.fuses.lifecycle == 0 then none else some (fit 7368 s.nv.identityCert)
  | k => some (fit 7368 (s.trust.certs.getD (k - 1) []))

def trsCertBody (c : Cmd) (s : State) : State :=
  let kind := fld c.payload 0 1
  if 2 < kind then s.badField c 0
  else match s.certOf kind with
    | none => s.fail c stNotAuthorised
    | some d => s.reply c stOk [] (some d)

def execTrsCert (b : Mbox) (s : State) : Host.Outcome State Fault Refusal := .next (s.take b formTrsCert trsCertBody)

/-! ## Programming fuses (R592, R593) -/

/-- Either image of a slot falls below a security version. -/
def ImgSlot.below (x : ImgSlot) (svn : Nat) : Bool :=
  [x.first, x.nimlek].any (fun i => i.any (fun i => decide (fld i.bytes 5 1 < svn)))

def Nv.slot (n : Nv) (k : Nat) : ImgSlot := if k = 0 then n.slotA else n.slotB

/-- The slot that is not running, of the non-volatile store. -/
def State.otherSlot (s : State) : Nat := 1 - s.trust.runningSlot

/-- Every bit of a programming is set: its event, and the completion of its command; the sender's next commands may then start (R129). -/
def State.fuseEnd (s : State) (w : FuseWork) : State :=
  let next := s.rungAfter w.cmd
  let s := s.updTrust fun t => { t with fusing := none }
  let s := match w.goal with
    | .svn old new =>
      (s.raise 0x0702 srcDevice (le 1 old ++ le 1 new)).ok w.cmd (le 1 new ++ le 1 (b2n ((s.nv.slot s.otherSlot).below new)))
    | .enrol j key => (s.raise 0x0703 srcDevice (le 1 j ++ le 7 0 ++ (sha3 key).take 8)).ok w.cmd []
  s.sweepList next

/-- One fuse bit, which a cycle of the time domain programs (assumption 14). -/
def State.fuseStep (s : State) : State :=
  match s.trust.fusing with
  | none => s
  | some w =>
    match w.steps with
    | [] => s.fuseEnd w
    | x :: rest =>
      let s := (s.updNv fun n => n.program w.goal x).updTrust fun t => { t with fusing := some { w with steps := rest } }
      if rest.isEmpty then s.fuseEnd { w with steps := rest } else s

def State.fuseSteps (s : State) : Nat → State
  | 0 => s
  | n + 1 => s.fuseStep.fuseSteps n

/-- A second programming begins only after the one under way. -/
def State.fuseFinish (s : State) : State :=
  match s.trust.fusing with
  | none => s
  | some w => s.fuseSteps (w.steps.length + 1)

/-- Begin a programming for a command, which stays BUSY until its last bit. -/
def State.fuse (s : State) (c : Cmd) (goal : FuseGoal) : State :=
  s.updTrust fun t => { t with fusing := some { cmd := c, goal := goal, steps := s.nv.fuses.plan goal } }

/-! ## Owner enrolment (R585) -/

def formTrsOwnerEnrol : Form := { op := 0x0703, host := false, mgmt := true, lo := 2600, hi := 7228, lens := .oneOf 2600 7228, reserved := [(1, 7), (7227, 1)] }

/-- The slot must be the one that the enrolment writes. -/
def trsOwnerEnrolBody (c : Cmd) (s : State) : State :=
  let s := s.fuseFinish
  let p := c.payload
  let slot := fld p 0 1
  let key := sub p 8 2592
  let f := s.nv.fuses
  let current := f.ownerSlot
  if 2 < slot then s.badField c 0
  else if f.lifecycle == 0 then s.fail c stNotAuthorised
  else if f.lifecycle == 2 && current.any (fun j => sha3 key == f.owner j) then
    (s.updNv fun n => { n with ownerKey := key }).ok c []
  else match f.freeSlot with
    | none => s.fail c stNotAuthorised
    | some j =>
      if slot != j then s.badField c 0
      else if f.lifecycle == 1 then s.fuse c (.enrol j key)
      else
        let msg := label "OUV7-OWNER" ++ fit 8 f.serial ++ le 1 j ++ sha3 key
        match s.ownerKey with
        | some k =>
          if c.len == 7228 && Config.dsaVerify k msg (sub p 2600 4627) then s.fuse c (.enrol j key)
          else s.fail c stSignatureInvalid
        | none => s.fail c stSignatureInvalid

def execTrsOwnerEnrol (b : Mbox) (s : State) : Host.Outcome State Fault Refusal := .next (s.take b formTrsOwnerEnrol trsOwnerEnrolBody)

/-! ## Images (R103, R579, R580, R590) -/

/-- The limit on an image of a kind: 256 KiB or 16 MiB. -/
def imageLimit (kind : Nat) : Nat := if kind = 0 then 262144 else 16777216

/-- The image digest, which is also the measurement. -/
def imageDigest (img : List Byte) : List Byte := sha3 (img.take 2608 ++ img.drop 7248)

def imageSvn (img : List Byte) : Nat := fld img 5 1
def imageVersion (img : List Byte) : Nat := fld img 8 4

/-- The checks of R580 in order; the boot code of the first that fails. -/
def State.imageFault (s : State) (kind : Nat) (img : List Byte) : Option Byte :=
  if sub img 0 4 != [0x4F, 0x55, 0x56, 0x46] then some 0xE6
  else if fld img 4 1 != kind || imageLimit kind < img.length || img.length != 7248 + fld img 12 4 then some 0xE7
  else if sha3 (sub img 16 2592) != fit 64 s.nv.fuses.rootHash then some 0xE7
  else if !Config.dsaVerify (sub img 16 2592) (imageDigest img) (sub img 2608 4627) then some 0xE7
  else if imageSvn img < s.nv.fuses.svn then some 0xE8
  else none

/-- The status of TRS_FW_END and MGMT_IMAGE_END for an image that fails (R590). -/
def State.imageStatus (s : State) (kind : Nat) (img : List Byte) : Nat :=
  match s.imageFault kind img with
  | none => stOk
  | some 0xE8 => stRollbackBlocked
  | some _ =>
    if sub img 0 4 != [0x4F, 0x55, 0x56, 0x46] then stValidationFailed
    else if fld img 4 1 != kind || imageLimit kind < img.length || img.length != 7248 + fld img 12 4 then stValidationFailed
    else stSignatureInvalid

def Nv.setSlot (n : Nv) (k : Nat) (f : ImgSlot → ImgSlot) : Nv :=
  if k = 0 then { n with slotA := f n.slotA } else { n with slotB := f n.slotB }

def ImgSlot.image (x : ImgSlot) (kind : Nat) : Option Image := if kind = 0 then x.first else x.nimlek
def ImgSlot.setImage (x : ImgSlot) (kind : Nat) (i : Option Image) : ImgSlot :=
  if kind = 0 then { x with first := i } else { x with nimlek := i }

/-- The running slot is TRIED and unconfirmed (R609). -/
def State.unconfirmed (s : State) : Bool := s.trust.tried

def formTrsFwBegin : Form := { op := 0x0704, lo := 8, hi := 8 }

def trsFwBeginBody (c : Cmd) (s : State) : State :=
  let kind := fld c.payload 0 4
  let total := fld c.payload 4 4
  if 1 < kind then s.badField c 0
  else if imageLimit kind < total then s.badField c 4
  else if s.unconfirmed then s.fail c stBusy
  else
    let s := s.updNv fun n => n.setSlot s.otherSlot (fun x => x.setImage kind none)
    (s.updTrust fun t => { t with staging := some (kind, total, []) }).ok c []

def execTrsFwBegin (b : Mbox) (s : State) : Host.Outcome State Fault Refusal := .next (s.take b formTrsFwBegin trsFwBeginBody)

def formTrsFwData : Form := { op := 0x0705, lo := 8, hi := 16328, reserved := [(4, 4)] }

/-- Chunks arrive in ascending order without gaps, as in R152; one with no image begun, or past its total, is out of order. -/
def trsFwDataBody (c : Cmd) (s : State) : State :=
  let d := c.payload.drop 8
  match s.trust.staging with
  | none => s.badField c 0
  | some (kind, total, got) =>
    if fld c.payload 0 4 != got.length || total < got.length + d.length then s.badField c 0
    else (s.updTrust fun t => { t with staging := some (kind, total, got ++ d) }).ok c []

def execTrsFwData (b : Mbox) (s : State) : Host.Outcome State Fault Refusal := .next (s.take b formTrsFwData trsFwDataBody)

def formTrsFwEnd : Form := { op := 0x0706 }

/-- An image whose data is short of its total, or none begun, fails the length check. -/
def trsFwEndBody (c : Cmd) (s : State) : State :=
  let s := s.accept c 0 []
  match s.trust.staging with
  | none => s.finishAll 0x0706 0 stValidationFailed [] none
  | some (kind, total, img) =>
    let s := s.updTrust fun t => { t with staging := none }
    if img.length != total then s.finishAll 0x0706 0 stValidationFailed [] none
    else
      let st := s.imageStatus kind img
      if st != stOk then s.finishAll 0x0706 0 st [] none
      else
        let k := s.otherSlot
        let s := s.updNv fun n => n.setSlot k (fun x => x.setImage kind (some { bytes := img, verified := true }))
        let s := s.raise 0x0701 srcDevice (le 1 kind ++ le 1 k ++ le 1 (imageSvn img) ++ le 1 0 ++ le 4 (imageVersion img))
        s.finishAll 0x0706 0 stOk [] none

def execTrsFwEnd (b : Mbox) (s : State) : Host.Outcome State Fault Refusal := .next (s.take b formTrsFwEnd trsFwEndBody)

def ImgSlot.whole (x : ImgSlot) : Bool := x.first.any (·.verified) && x.nimlek.any (·.verified)

def formTrsFwActivate : Form := { op := 0x0707, lo := 4, hi := 4, reservedBits := [(0, 4, 0xFFFFFFFE)] }

/-- NO_HOST_RESET is tested before the chapter's own checks (R587). -/
def trsFwActivateBody (c : Cmd) (s : State) : State :=
  let now := bit (fld c.payload 0 4) 0
  if now && bit s.policyFlags 1 && !c.box.isMgmt then s.fail c stNotAuthorised
  else if s.unconfirmed then s.fail c stBusy
  else if !(s.nv.slot s.otherSlot).whole then s.fail c stValidationFailed
  else
    let s := (s.updNv fun n => { n with trial := 1 }).ok c []
    if now then (s.askWarm 0x11).closeSegments 3 else s

def formTrsFwConfirm : Form := { op := 0x0708 }

def trsFwConfirmBody (c : Cmd) (s : State) : State :=
  if !s.trust.tried then s.badField c 0
  else
    let s := s.updNv fun n => { n with abSlot := s.trust.runningSlot, trial := 0 }
    (s.updTrust fun t => { t with tried := false }).ok c []

def execTrsFwConfirm (b : Mbox) (s : State) : Host.Outcome State Fault Refusal := .next (s.take b formTrsFwConfirm trsFwConfirmBody)

/-! ## The security version (R592) -/

def formTrsSvnCommit : Form := { op := 0x0709, lo := 4, hi := 4, reserved := [(1, 3)] }

def trsSvnCommitBody (c : Cmd) (s : State) : State :=
  let s := s.fuseFinish
  let v := fld c.payload 0 1
  let old := s.nv.fuses.svn
  if v ≤ old || s.trust.fsSvn < v || s.trust.fwSvn < v then s.badField c 0
  else if s.unconfirmed then s.fail c stBusy
  else s.fuse c (.svn old v)

def execTrsSvnCommit (b : Mbox) (s : State) : Host.Outcome State Fault Refusal := .next (s.take b formTrsSvnCommit trsSvnCommitBody)

/-! ## Recipients (R605) -/

def formTrsRecipients : Form := { op := 0x070A, lo := 8, hi := 12552, lens := .entries 1 1 0 8 8 1568, reserved := [(2, 6)] }

def trsRecipientsBody (c : Cmd) (s : State) : State :=
  let p := c.payload
  let n := fld p 0 1
  let r := fld p 1 1
  let keys := entriesFrom p 8 1568 r
  if 31 < n then s.badField c 0
  else if 8 < r then s.badField c 1
  else match (numbered keys).find? (fun k => !kemCheck k.2) with
    | some k => s.badField c (8 + 1568 * k.1)
    | none => (s.updStream n fun x => { x with recipients := keys }).ok c []

def execTrsRecipients (b : Mbox) (s : State) : Host.Outcome State Fault Refusal := .next (s.take b formTrsRecipients trsRecipientsBody)

/-! ## Debug (R608) -/

def formTrsDebugChallenge : Form := { op := 0x070B, mgmt := true }

def trsDebugChallengeBody (c : Cmd) (s : State) : State :=
  let d := label "OUV7-DBG" ++ fit 8 s.nv.fuses.serial ++ fit 32 (Config.entropy s.free) ++ le 1 s.nv.fuses.lifecycle ++ le 15 0
  let s : State := { s with free := s.free + 1 }
  (s.updTrust fun t => { t with challenge := some (d, s.now) }).reply c stOk [] (some d)

def execTrsDebugChallenge (b : Mbox) (s : State) : Host.Outcome State Fault Refusal :=
  .next (s.take b formTrsDebugChallenge trsDebugChallengeBody)

/-- The key that unlocks debug: the owner key in OWNED, and else the Tamuarel root key (R578). -/
def State.debugKey (s : State) : Option (List Byte) :=
  if s.nv.fuses.lifecycle == 2 then s.ownerKey else some s.trust.rootKey

def State.debugVerifies (s : State) (d sig : List Byte) : Bool :=
  match s.debugKey with
  | some k => Config.dsaVerify k d sig
  | none => false

def formTrsDebugUnlock : Form := { op := 0x070C, mgmt := true, lo := 4628, hi := 4628, reserved := [(4627, 1)] }

/-- A challenge older than 60 s, or none, verifies nothing. One attempt spends the challenge. -/
def trsDebugUnlockBody (c : Cmd) (s : State) : State :=
  if bit s.policyFlags 2 then s.fail c stNotAuthorised
  else if s.streams.any (·.takeOpen) then s.fail c stBusy
  else
    let ch := s.trust.challenge
    let s := s.updTrust fun t => { t with challenge := none }
    match ch with
    | none => s.fail c stSignatureInvalid
    | some (d, t) =>
      if decide (t + sec 60 < s.now) || !s.debugVerifies d (c.payload.take 4627) then s.fail c stSignatureInvalid
      else
        let s := (s.drivePins .tdo).updTrust fun t => { t with debugUnlocked := true }
        let l := s.nv.fuses.lifecycle
        (s.raise 0x0704 srcDevice (le 1 l ++ le 1 (b2n (l == 2)))).ok c []

def execTrsDebugUnlock (b : Mbox) (s : State) : Host.Outcome State Fault Refusal :=
  .next (s.take b formTrsDebugUnlock trsDebugUnlockBody)

end Sys2Proof.Machine
end

