-- ==== Sys2Proof/Machine/Time.lean ====
section
/-! DEFINITION. Time bases and network time (chapter 17): servo updates, steps and re-phases, references, PTP, and the TIM
registers and commands. What a cadence edge does for streams stands in Outputs. -/

namespace Sys2Proof.Machine

open Sys2Proof

/-! ## Entries and states (R552, R555) -/

def Base.p2p (b : Base) : Bool := fld b.ent 6 1 == 1
def Base.threshold (b : Base) : Nat := if fld b.ent 16 4 = 0 then 1000000 else fld b.ent 16 4
def Base.asymmetry (b : Base) : Int := sfld b.ent 32 4
def Base.inputOffset (b : Base) : Int := sfld b.ent 36 4

/-- Slew limit as a ratio. -/
def slewLimit (tbv : Bool) (b : Base) : Rat :=
  let v := fld b.ent 20 4
  ((if v ≠ 0 then v else if tbv then 100000 else 500000 : Nat) : Rat) / 1000000000

/-- A change of a base, with TIM_STATE for each state reported that changes. -/
def State.changeBase (s : State) (b : Nat) (f : Base → Base) : State :=
  let t := s.updBase b f
  each (nub [b, 4]) (fun k u =>
    let old := s.baseState k
    let now := t.baseState k
    if old == now then u else u.raise 0x0602 srcDevice (le 1 k ++ le 1 old.code ++ le 1 now.code)) t

def State.setBaseSt (s : State) (b : Nat) (st : BaseSt) : State := s.changeBase b (fun x => { x with st := st })

/-- Nanoseconds as units of 2⁻³² ns. -/
def toUnits (ns : Rat) : Int := roundRat (ns * 4294967296)

/-- A base's time in ns, exact. -/
def Base.ns (b : Base) : Rat := (b.time : Rat) / 4294967296

/-! ## Steps (R567, R570, R653) -/

/-- Time matches on a base that a forward move crosses fire. -/
def State.crossMatches (s : State) (b : Nat) (old new : Int) : State :=
  each (List.range 4) (fun m s =>
    match s.obs.matches_.getD m none with
    | some (k, t) =>
      if k = b && old < t && t ≤ new then
        let s := s.updObs fun o => { o with matches_ := o.matches_.set m none }
        if s.halSource 4 then s.halTrigger 4 else s
      else s
    | none => s) s

/-- What a step of a base touches: the open frames of its contexts, refused ones too, and the open segments. -/
def State.touchStep (s : State) (b cause : Nat) (step : Rat) : State :=
  let isOpen (f : Frame) : Bool := s.sensors.any (fun x => x.openFrames.any (fun o => o.ctx == f.ctx && o.seq == some f.seq))
  let mark (f : Frame) : Frame :=
    if f.timeBase = b && isOpen f then { f with landFlags := setFlag f.landFlags gfTimeStep } else f
  let s : State := { s with ctxs := s.ctxs.map (fun x => { x with frames := x.frames.map mark, refusalLog := x.refusalLog.map mark }) }
  s.discontinuity b cause (roundRat step)

/-- Move a base's time. -/
def State.moveBase (s : State) (b : Nat) (d : Rat) : State :=
  let old := (s.base b).time
  let new := old + toUnits d
  (s.updBase b fun x => { x with time := new, steps := satInc 8 x.steps }).crossMatches b old new

/-! ## TBV (R568, R569, R571) -/

/-- The cadence period in ns, exact. -/
def Base.period (b : Base) : Rat := (fld b.ent 28 4 * 1000000000 : Nat) / (max 1 (fld b.ent 24 4) : Nat)

/-- x = n × P + r with r in (−P/2, P/2]. -/
def splitPeriod (x p : Rat) : Int × Rat :=
  let n := -((-(x / p) + 1 / 2).floor)
  (n, x - n * p)

/-- TBV re-phases by Δ; `whole` at the first time taken. -/
def State.rephase (s : State) (d : Rat) (whole : Bool) : State :=
  let b := s.base 4
  let p := b.period
  let step := whole || bit (fld b.ent 7 1) 0
  let (n0, r0) := splitPeriod d p
  let (n1, r) := if step then ((0 : Int), r0) else splitPeriod (r0 + b.residual) p
  let n := n0 + n1
  let shift := (n : Rat) * p + (if step then r else 0)
  let s := s.updBase 4 fun x =>
    { x with toApply := some (x.toApply.getD 0 + shift), rephased := x.rephased + d, residual := if step then x.residual else r }
  let slewMs := if step then 0 else (roundRat ((if r < 0 then -r else r) / slewLimit true b / 1000000)).toNat
  s.raise 0x0604 srcDevice (leInt 4 n ++ leInt 4 (roundRat r) ++ le 1 (b2n step) ++ le 3 0 ++ le 4 slewMs)

/-- A base steps: TIM_STEP, and TBV if it follows the base. -/
def State.stepBase (s : State) (b cause : Nat) (d : Rat) : State :=
  let s := s.moveBase b d
  let s := s.raise 0x0601 srcDevice (le 1 b ++ le 1 cause ++ le 2 0 ++ leInt 8 (roundRat d))
  let s := if s.follows == some b && (s.base 4).taken then s.rephase d false else s
  s.touchStep b cause d

/-- TBV's slewing in one cycle: the rate that removes the residual. The last part waits for TBV_RESIDUAL_ZERO. -/
def Base.slew (b : Base) : Rat :=
  let lim := slewLimit true b
  if 4 * lim < b.residual then lim else if b.residual < -(4 * lim) then -lim else 0

/-- The residual has been slewed away, but for a part smaller than one cycle removes. -/
def State.residualZero (s : State) : State :=
  let b := s.base 4
  if b.residual = 0 || b.slew ≠ 0 then s
  else
    let s := s.updBase 4 fun x => { x with time := x.time + toUnits x.residual, residual := 0 }
    s.raise 0x0604 srcDevice (zeros 16)

/-! ## The servo (R552, R553, R567) -/

/-- The mean rate adjustment of the last 16 s of updates. -/
def Base.meanRate (b : Base) : Rat :=
  let last := b.lastUpdate.getD 0
  let hs := b.history.filter (fun h => last < h.1 + sec 16)
  if hs.isEmpty then b.rate else (hs.map (·.2)).sum / (hs.length : Nat)

/-- The source is lost. -/
def State.holdover (s : State) (b : Nat) : State :=
  let x := s.base b
  if x.st == .acquiring || x.st == .locked then
    s.changeBase b (fun x => { x with st := .holdover, rate := x.meanRate, goodRun := 0 })
  else s

/-- A servo update with offset θ in ns. -/
def State.servo (s : State) (b : Nat) (theta : Rat) : State :=
  let x := s.base b
  let tbv := b == 4
  let first := if tbv then !x.taken else x.st == .unset
  let s := s.updBase b fun y => { y with theta := roundRat theta }
  let abs := if theta < 0 then -theta else theta
  let s := if (s.base b).st == .holdover then s.changeBase b (fun y => { y with st := .acquiring, goodRun := 0 }) else s
  if first || (x.threshold : Rat) < abs then
    let s := s.updBase b fun y => { y with integral := 0, goodRun := 0, lastUpdate := some s.now }
    if tbv then (s.updBase 4 fun y => { y with taken := true }).rephase (-theta) first
    else
      -- A PPS_IN base needs the seconds of TIM_SET besides (R562).
      let ready := x.source ≠ 2 || x.taken
      let s := if first && ready then s.changeBase b (fun y => { y with st := .acquiring, taken := true }) else s
      s.stepBase b (if first then 2 else 0) (-theta)
  else
    let gap := s.now - x.lastUpdate.getD s.now
    let integral := x.integral + theta / 16
    let lim := slewLimit tbv x
    let a := max (-lim) (min lim (-(theta / 4 + integral) / (gap : Nat)))
    let run := if abs < 1000 then x.goodRun + 1 else 0
    let st := (s.base b).st
    let st := if st == .acquiring && 8 ≤ run then .locked else if st == .locked && 10000 < abs then .acquiring else st
    s.changeBase b (fun y =>
      { y with integral := integral, rate := a, goodRun := if st == .acquiring && (s.base b).st == .locked then 0 else run,
               lastUpdate := some s.now, st := st,
               history := (s.now, a) :: y.history.filter (fun h => s.now < h.1 + sec 16) })

/-- TBV's update against the base that it follows, less the parts of a re-phase not yet applied (R567). -/
def State.tbvUpdate (s : State) : State :=
  match s.follows with
  | none => s
  | some n =>
    let st := (s.base n).st
    if st == .off || st == .unset then s
    else
      let x := s.base 4
      s.servo 4 (x.ns + x.toApply.getD 0 + x.residual - (s.base n).ns)

/-! ## References (R559–R563) -/

def State.timeGlobal (s : State) : List Byte := s.time.global.getD ([0, 0xFF, 0, 0xFF] ++ zeros 44)

def State.refEvent (s : State) (ref : Nat) (lost : Bool) : State := s.raise 0x0605 srcDevice (le 1 ref ++ le 1 (b2n lost))

/-- The crystal channel of TIME_GLOBAL. -/
def State.xtalChannel (s : State) : Option Nat :=
  let c := fld s.timeGlobal 1 1
  if c < 12 then some c else none

/-- k at a temperature in 1/64 °C (R561). -/
def State.correction (s : State) (temp : Int) : Rat :=
  let g := s.timeGlobal
  let d := (temp : Rat) / 64 - f32D g 8
  let sum := ((List.range (fld g 2 1 + 1)).map (fun i => f32D g (12 + 4 * i) * d ^ i)).sum
  max (-1 / 10000) (min (1 / 10000) (-sum / 1000000000))

/-- The correction of each 100 ms. -/
def State.crystalCorrection (s : State) : State :=
  if s.time.onTref then s
  else match s.xtalChannel with
    | none => s.updTime fun t => { t with k := 0 }
    | some c =>
      let r := s.health.remotes.getD c Remote.reset
      if !r.valid then s
      else
        let was := s.time.xtalStale
        let s := s.updTime fun t =>
          { t with k := s.correction r.temp, xtalTemp := r.temp, xtalTbm := some s.now, xtalStale := false }
        if was then s.refEvent 3 false else s

def State.markXtalStale (s : State) : State :=
  if s.xtalChannel.isNone || s.time.xtalStale || decide (s.now < s.time.xtalTbm.getD 0 + sec 1) then s
  else (s.updTime fun t => { t with xtalStale := true }).refEvent 3 true

def State.trefLoss (s : State) : State :=
  if !s.time.onTref then s
  else (s.updTime fun t => { t with onTref := false, trefLost := true }).crystalCorrection.refEvent 0 true

def State.trefRestore (s : State) : State :=
  if !(s.time.trefSelected && s.time.trefLost) then s
  else (s.updTime fun t => { t with onTref := true, trefLost := false, k := 0 }).refEvent 0 false

/-- Bases of a source. -/
def State.basesOf (s : State) (src : Nat) : List Nat :=
  (List.range 5).filter (fun b => (s.base b).entry.isSome && (s.base b).source == src)

/-- A PPS_IN edge of the configured sense (R559, R562). -/
def State.ppsEdge (s : State) (rising : Bool) : State :=
  if rising == (fld s.timeGlobal 36 1 == 1) then s
  else each (s.basesOf 2) (fun b s =>
    let x := s.base b
    let th := (splitPeriod (x.ns + x.inputOffset) 1000000000).2
    if x.st != .unset && (th < -1000000 || 1000000 < th) then s
    else
      let s := if s.time.ppsLost then (s.updTime fun t => { t with ppsLost := false }).refEvent 1 false else s
      s.servo b th) s

def State.genlockEdge (s : State) : State :=
  each (s.basesOf 3) (fun b s =>
    let x := s.base b
    let s := if s.time.genlockLost then (s.updTime fun t => { t with genlockLost := false }).refEvent 2 false else s
    s.servo b (splitPeriod (x.ns + x.inputOffset) x.period).2) s

/-- No valid PPS_IN edge, which is an update, for 2 s (R553). -/
def State.ppsLoss (s : State) : State :=
  let last := ((s.basesOf 2).map (fun b => (s.base b).lastUpdate.getD 0)).foldl max 0
  if (s.basesOf 2).isEmpty || s.time.ppsLost || decide (s.now < last + sec 2) then s
  else (each (s.basesOf 2) (fun b s => s.holdover b) (s.updTime fun t => { t with ppsLost := true })).refEvent 1 true

/-- No GENLOCK_IN edge for 4 cadence periods. -/
def State.genlockLoss (s : State) : State :=
  if (s.basesOf 3).isEmpty || s.time.genlockLost ||
    decide ((s.now : Rat) < ((s.base 4).lastUpdate.getD 0 : Nat) + 4 * (s.base 4).period) then s
  else (each (s.basesOf 3) (fun b s => s.holdover b) (s.updTime fun t => { t with genlockLost := true })).refEvent 2 true

/-- A second boundary of the base that PPS_OUT names (R564). -/
def State.ppsPulse (s : State) : State :=
  let b := fld s.timeGlobal 3 1
  let on := if b = 5 then true else b < 5 && (s.base b).st != .off && (s.base b).st != .unset
  if on then s.out (.ppsOut (10 * fld s.timeGlobal 4 4)) else s

/-! ## PTP (R565–R567, R573) -/

def State.updPtp (s : State) (b : Nat) (f : PtpState → PtpState) : State := s.updBase b fun x => { x with ptp := f x.ptp }

/-- An announce as the best-master algorithm compares it: priority1, class, accuracy, variance, priority2, grandmaster, steps
removed, source port; then how often it has been heard, up to 2. -/
def announceKey (m : PtpMsg) : List Byte :=
  le 1 m.priority1 ++ le 1 m.clockClass ++ le 1 m.accuracy ++ (le 2 m.variance).reverse ++ le 1 m.priority2 ++ fit 8 m.gm ++
    (le 2 m.stepsRemoved).reverse ++ fit 10 m.source

def lexLt : List Byte → List Byte → Bool
  | a :: as, b :: bs => if a = b then lexLt as bs else a.toNat < b.toNat
  | _, _ => false

/-- Qualified foreign masters: heard at least twice. -/
def PtpState.qualified (p : PtpState) : List (List Byte) := p.foreign.filter (fun k => fld k 26 1 == 2)

/-- The best of them becomes the parent; a change of grandmaster raises TIM_MASTER_CHANGED. -/
def State.selectMaster (s : State) (b : Nat) : State :=
  let p := (s.base b).ptp
  match (sortBy lexLt p.qualified).head? with
  | none => s.updPtp b fun p => { p with master := false }
  | some k =>
    let s := s.updPtp b fun p =>
      { p with master := true, parent := sub k 16 10, grandmaster := sub k 6 8, clockClass := fld k 1 1, accuracy := fld k 2 1,
               variance := leNat (sub k 3 2).reverse, priority1 := fld k 0 1, priority2 := fld k 5 1,
               steps := leNat (sub k 14 2).reverse }
    if p.grandmaster ≠ sub k 6 8 then s.raise 0x0603 srcDevice (le 1 b ++ zeros 7 ++ sub k 6 8) else s

/-- The announce interval in ns. -/
def Base.announceNs (b : Base) : Nanos :=
  let k := sfld b.ent 9 1
  if 0 ≤ k then sec (2 ^ k.toNat) else sec 1 / 2 ^ (-k).toNat

/-- An Announce is heard. A foreign master qualifies with the second one within four announce intervals (PRESUMED from IEEE 1588;
assumption 29). -/
def State.announce (s : State) (b : Nat) (m : PtpMsg) : State :=
  let k := announceKey m
  let src := sub k 16 10
  let p := (s.base b).ptp
  let seen := match p.foreign.find? (fun f => sub f 16 10 == src) with
    | some f => if decide (s.now ≤ fld f 27 8 + 4 * (s.base b).announceNs) then min 2 (fld f 26 1 + 1) else 1
    | none => 1
  let rest := p.foreign.filter (fun f => sub f 16 10 != src)
  let s := s.updPtp b fun p =>
    { p with announces := p.announces + 1, foreign := (rest ++ [k ++ le 1 seen ++ le 8 s.now]).drop (rest.length + 1 - 16) }
  if m.stepsRemoved < 255 then s.selectMaster b else s

/-- The announce receipt timeout, since the parent's last Announce: the parent is no longer qualified; without another, HOLDOVER (R553). -/
def State.announceTimeout (s : State) (b : Nat) : State :=
  let x := s.base b
  let heard := ((x.ptp.foreign.find? (fun f => sub f 16 10 == x.ptp.parent)).map (fun f => fld f 27 8)).getD 0
  if !(x.entry.isSome && x.source = 1 && x.ptp.master) || decide (s.now < heard + fld x.ent 11 1 * x.announceNs) then s
  else
    let s := (s.updPtp b fun p => { p with foreign := p.foreign.filter (fun f => sub f 16 10 != p.parent) }).selectMaster b
    if (s.base b).ptp.master then s else s.holdover b

/-- The base's time in whole ns. -/
def Base.stamp (b : Base) : Int := b.time / 4294967296

/-- A Sync has been timed: master-to-device difference, and an update once the path delay is known. -/
def State.synced (s : State) (b : Nat) (arrival origin : Int) : State :=
  let s := s.updPtp b fun p => { p with lastMs := arrival - origin }
  let x := s.base b
  if !x.ptp.haveDelay then s
  else
    let s := s.updPtp b fun p => { p with syncs := p.syncs + 1 }
    s.servo b ((arrival - origin - x.ptp.pathDelay : Int) - (x.asymmetry : Rat) / 2)

/-- A PTP message reaches a base. -/
def State.ptpIn (s : State) (b : Nat) (m : PtpMsg) : State :=
  let x := s.base b
  let p := x.ptp
  let here := x.stamp
  let fromParent := p.master && fit 10 m.source == p.parent
  if x.role = 2 then
    match m.kind with
    | 1 => if x.p2p then s else s.ethOut (.ptp b 9 m.seq here) 0
    | 2 => if x.p2p then s.ethOut (.ptp b 3 m.seq here) 0 else s
    | _ => s
  else match m.kind with
    | 11 => s.announce b m
    | 0 =>
      if !fromParent then s
      else if m.twoStep then s.updPtp b fun p => { p with syncSeq := m.seq, syncArrival := here - m.correction }
      else s.synced b here (m.stamp + m.correction)
    | 8 => if fromParent && m.seq = p.syncSeq then s.synced b p.syncArrival (m.stamp + m.correction) else s
    | 9 =>
      if fromParent && !x.p2p && m.seq = p.reqSeq then
        s.updPtp b fun p =>
          { p with pathDelay := (p.lastMs + (m.stamp - m.correction - p.reqSent)) / 2, haveDelay := true }
      else s
    | 2 => if x.p2p then s.ethOut (.ptp b 3 m.seq here) 0 else s
    | 3 =>
      if !x.p2p || m.seq ≠ p.reqSeq then s
      else if m.twoStep then s.updPtp b fun p => { p with reqSent := here - p.reqSent + m.stamp - m.correction }
      else s.updPtp b fun p => { p with pathDelay := (here - p.reqSent - m.correction) / 2, haveDelay := true }
    | 10 =>
      if x.p2p && m.seq = p.reqSeq then
        s.updPtp b fun p => { p with pathDelay := (p.reqSent - (m.stamp + m.correction)) / 2, haveDelay := true }
      else s
    | _ => s

/-- A frame arrives at an Ethernet port (R536). -/
def State.ethFrame (s : State) (port : Nat) (f : EthFrame) : State :=
  match s.ethAt port with
  | none => s
  | some (y, k) =>
    if (s.port y k).st != fxActive then s
    else if !f.fcsOk then s.updPort y k fun x => { x with rxErrors := satInc 16 x.rxErrors }
    else match f.ours, f.ptp with
      | true, some m =>
        each ((List.range 4).filter (fun b =>
          let x := s.base b
          x.entry.isSome && x.role != 0 && x.ethPort == port && x.domain == m.domain)) (fun b s => s.ptpIn b m) s
      | _, _ => s.updPort y k fun x => { x with rxDropped := satInc 16 x.rxDropped }

/-- Class, accuracy and time source that a TRANSMITTER announces (R565). -/
def Base.quality (b : Base) : Nat × Nat × Nat :=
  if b.source = 2 && b.st == .locked then (6, 0x21, 0x20)
  else if b.source = 2 && b.st == .holdover then (7, 0xFE, 0x20)
  else (248, 0xFE, 0xA0)

/-- An interval of a base's port expires: 0 Sync and 11 Announce of a TRANSMITTER, 1 Delay_Req and 2 Pdelay_Req of a RECEIVER
that has a master. -/
def State.ptpOut (s : State) (b kind : Nat) : State :=
  let x := s.base b
  let seq := x.ptp.txSeq
  let ok := match kind with
    | 0 | 11 => x.role == 2 && x.st != .unset
    | 1 => x.role == 1 && !x.p2p && x.ptp.master
    | 2 => x.role != 0 && x.p2p
    | _ => false
  if x.entry.isNone || !ok then s
  else
    let s := s.updPtp b fun p =>
      { p with txSeq := (seq + 1) % 65536, reqSeq := if kind = 1 || kind = 2 then seq else p.reqSeq,
               reqSent := if kind = 1 || kind = 2 then x.stamp else p.reqSent }
    if kind = 11 then
      s.ethOut (.announce b seq x.quality.1 x.quality.2.1 x.quality.2.2 (fld x.ent 12 1) (fld x.ent 13 1)) 0
    else s.ethOut (.ptp b kind seq x.stamp) 0

/-- The response of R573. The variance of the device's own clock is open. -/
def State.ptpStatus (s : State) (b : Nat) : List Byte × State :=
  let x := s.base b
  let p := x.ptp
  let (own, s) := if x.role = 2 then s.drawNat else (0, s)
  let head := if x.role = 2 then
      zeros 10 ++ fit 8 (Config.portIdentity b) ++ le 1 x.quality.1 ++ le 1 x.quality.2.1 ++ le 2 own ++ sub x.ent 12 2 ++ le 2 0 ++ le 1 0
    else fit 10 p.parent ++ fit 8 p.grandmaster ++ le 1 p.clockClass ++ le 1 p.accuracy ++ le 2 p.variance ++ le 1 p.priority1 ++
      le 1 p.priority2 ++ le 2 p.steps ++ le 1 (min 16 p.qualified.length)
  (head ++ le 1 0 ++ leInt 8 x.theta ++ leInt 8 p.pathDelay ++ le 4 p.syncs.toNat ++ le 4 p.announces.toNat ++
    le 8 (x.lastUpdate.getD 0 / 1000000000) ++ le 4 0, s)

/-! ## TIME_BASE and TIME_GLOBAL apply (R552, R559, R571) -/

def baseEntries (p : List Byte) : List (List Byte) := entriesFrom p 8 64 (fld p 0 4)

def initialSt (e : Option (List Byte)) (b : Nat) : BaseSt :=
  match e with
  | none => .off
  | some e => if fld e 1 1 = 0 then .free else if b = 4 then .acquiring else .unset

def State.applyBases (s : State) (p : List Byte) : State :=
  each (List.range 5) (fun b s =>
    let e := (baseEntries p).find? (fun e => fld e 0 1 == b)
    let old := s.base b
    if old.entry = e then s
    else s.changeBase b (fun _ =>
      { Base.reset with entry := e, st := initialSt e b, steps := old.steps, latch := old.latch })) s

/-- TIME_GLOBAL applies; a base named for PPS_OUT has the pin driven (R66). -/
def State.applyTimeGlobal (s : State) (p : Option (List Byte)) : State :=
  let tref := match p with | some g => fld g 0 1 == 1 | none => false
  let s := s.updTime fun t =>
    { t with global := p, trefSelected := tref, onTref := tref, trefLost := false, k := if tref || p.isNone then 0 else t.k,
             xtalStale := false }
  (if p.any (fun g => fld g 3 1 != 0xFF) then s.drivePins .ppsOut else s).crystalCorrection

/-! ## The TIM registers -/

/-- A read of a base's SEC_LO latches its other words (R551); 5 is TBM. -/
def State.latchBase (s : State) (b : Nat) : State :=
  if b = 5 then s.updTime fun t => { t with tbmLatch := t.tbm } else s.updBase b fun x => { x with latch := x.time }

/-! ## One cycle of the time domain (R550, R568) -/

/-- The increment of a cycle of 4 ns at a rate, held to 2⁻³² ns. -/
def increment (rate : Rat) : Int := roundRat (17179869184 * (1 + rate))

/-- TBM and every base advance by their increment; the firmware's heartbeat goes up every 10 ms. -/
def State.advance (s : State) : State :=
  let k := s.time.k
  let step (b : Nat) (x : Base) : Base :=
    if x.st == .off then x
    else
      let w := if b = 4 then x.slew else 0
      { x with time := x.time + increment (k + x.rate + w), residual := x.residual - 4 * w }
  let old := s.now
  let s := s.updTime fun t =>
    { t with tbm := t.tbm + (increment k).toNat, bases := (numbered t.bases).map (fun p => step p.1 p.2) }
  let s := if s.nimlek && old / ms 10 != s.now / ms 10 then s.updPower fun p => { p with heartbeat := p.heartbeat + 1 } else s
  s.count 0x01 1 {}

/-- 4 ns pass. The time domain runs from the moment its synthesiser has locked; before that, in a warm reset and the boot
after it, the always-on domain counts TBM at 40 ns (R90). Links that train go on training, and fuses that
are being programmed take their next bit. -/
def State.cycle (s : State) : State :=
  if !s.power.vddAon then s
  else
    let s := s.updPower fun p => { p with aonNs := p.aonNs + 4 }
    if s.power.pllLocked then s.advance.trainLinks.retrainLimits.fuseStep
    else if 0x10 ≤ s.power.resetCause.toNat && s.power.pwrok && s.power.condition != .furled && s.power.aonNs % 40 < 4 then
      s.updTime fun t => { t with tbm := t.tbm + 40 * 2 ^ 32 }
    else s


/-! ## Commands of group 0x06 (R572) -/

def formTimRead : Form := { op := 0x0601, mgmt := true }

def timReadBody (c : Cmd) (s : State) : State :=
  let live (b : Nat) : Bool := s.baseState b != .off && s.baseState b != .unset
  s.reply c stOk [] (some (s.tbmField ++ ((List.range 5).map (fun b => timeField (s.base b).time)).flatten ++
    le 1 (1 + 2 * bitmap ((List.range 5).map live)) ++ zeros 7))

def formTimSet : Form := { op := 0x0602, lo := 24, hi := 24, reserved := [(1, 7), (22, 2)] }

def timSetBody (c : Cmd) (s : State) : State :=
  let p := c.payload
  let b := fld p 0 1
  let x := s.base b
  if 4 < b || x.entry.isNone || x.source = 1 || x.source = 3 || 4 ≤ x.source then s.badField c 0
  else if 999999999 < fld p 16 4 then s.badField c 16
  else
    let secs : Int := (fld p 8 8 * 1000000000 : Nat)
    let new : Rat := if x.source = 2 then (secs : Rat) + (x.ns - (1000000000 * (x.ns / 1000000000).floor : Int))
      else (secs + (fld p 16 4 : Nat) : Int) + (fld p 20 2 : Rat) / 65536
    let d := new - x.ns
    if b = 4 then
      ((s.raise 0x0601 srcDevice (le 1 4 ++ le 1 1 ++ le 2 0 ++ leInt 8 (roundRat d))).rephase d false).ok c []
    else
      let s := if x.source = 2 then
          let s := s.updBase b fun y => { y with taken := true }
          if x.st == .unset && x.lastUpdate.isSome then s.setBaseSt b .acquiring else s
        else s
      (s.stepBase b 1 d).ok c []

def formTimPtpStatus : Form := { op := 0x0603, lo := 4, hi := 4, reserved := [(1, 3)] }

def timPtpStatusBody (c : Cmd) (s : State) : State :=
  let b := fld c.payload 0 1
  if 4 < b || (s.base b).entry.isNone || (s.base b).role = 0 then s.badField c 0
  else
    let (d, s) := s.ptpStatus b
    s.reply c stOk [] (some d)

end Sys2Proof.Machine
end

