-- ==== Sys2Proof/Machine/Inflate.lean ====
section
/-! DEFINITION. The decompressor of Barrel (R475, R477): DEFLATE of RFC 1951 in no wrapper, in that of RFC 1950, or in that of RFC 1952,
taken bit by bit. -/

namespace Sys2Proof.Machine

open Sys2Proof

/-! ## Canonical codes (RFC 1951, 3.2.2) -/

/-- Symbols whose code has a length. -/
def symbolsOf (lens : List Nat) (n : Nat) : List Nat := (List.range lens.length).filter (fun i => lens.getD i 0 == n)

/-- The first code of a length. -/
def firstCode (lens : List Nat) : Nat → Nat
  | 0 => 0
  | n + 1 => 2 * (firstCode lens n + if n = 0 then 0 else (symbolsOf lens n).length)

/-- The symbol whose code has these bits, first bit highest. -/
def symbolAt (lens : List Nat) (code n : Nat) : Option Nat :=
  if code < firstCode lens n then none else (symbolsOf lens n)[code - firstCode lens n]?

def longest (lens : List Nat) : Nat := lens.foldl max 0

/-- Space that the codes take of 2¹⁵. -/
def codeSpace (lens : List Nat) : Nat := (lens.map (fun n => if n = 0 then 0 else 2 ^ (15 - n))).sum

/-- A code is valid when it is complete; one of a single 1-bit code word may leave the other unused, and a distance code may be empty
(RFC 1951, 3.2.7; assumption 38). -/
def codeOk (lens : List Nat) (single empty : Bool) : Bool :=
  codeSpace lens == 2 ^ 15 || (single && codeSpace lens == 2 ^ 14 && longest lens == 1) || (empty && codeSpace lens == 0)

/-- Order of the code length code lengths (3.2.7). -/
def clOrder : List Nat := [16, 17, 18, 0, 8, 7, 9, 6, 10, 5, 11, 4, 12, 3, 13, 2, 14, 1, 15]

/-- The fixed codes (3.2.6). -/
def fixedLit : List Nat := List.replicate 144 8 ++ List.replicate 112 9 ++ List.replicate 24 7 ++ List.replicate 8 8
def fixedDist : List Nat := List.replicate 32 5

/-- Extra bits and first length of a length symbol from 257 on, extra bits and first distance of a distance symbol (3.2.5). -/
def lenExtraBits (s : Nat) : Nat := if s < 265 || s = 285 then 0 else (s - 261) / 4
def lenBase (s : Nat) : Nat :=
  if s < 265 then s - 254 else if s = 285 then 258 else 3 + 2 ^ lenExtraBits s * ((s - 261) % 4 + 4)
def distExtraBits (s : Nat) : Nat := if s < 4 then 0 else s / 2 - 1
def distBase (s : Nat) : Nat := if s < 4 then s + 1 else 1 + 2 ^ distExtraBits s * (s % 2 + 2)

/-! ## The stream -/

/-- A data error of R475, with the code of R478. -/
def Inflate.fail (x : Inflate) (error : Nat) : Inflate := { x with phase := .failed error, left := 0, dist := 0 }

/-- A byte is decoded. -/
def Inflate.emit (x : Inflate) (b : Byte) : Inflate :=
  { x with window := (b :: x.window).take 32768, total := x.total + 1, made := b :: x.made,
           check := if x.wrapper = 1 then adlerMore x.check [b] else crc32More x.check [b] }

/-- Copy what there is room for of a match. -/
def Inflate.copy (x : Inflate) : Inflate :=
  let n := min x.left (x.room - x.made.length)
  let x := iter n (fun (x : Inflate) => x.emit (x.window.getD (x.dist - 1) 0)) { x with left := x.left - n }
  if x.left = 0 then { x with dist := 0 } else x

/-- Go on at the next byte boundary: with the stored length, or with the trailer. -/
def Inflate.align (x : Inflate) (trailer : Bool) : Inflate :=
  if x.pos % 8 = 0 then { x with phase := if trailer then .check else .storedLen } else { x with phase := .pad trailer }

/-- A block has ended: the next one follows, or the trailer. -/
def Inflate.endBlock (x : Inflate) : Inflate :=
  let x := { x with block := 0xFF }
  if !x.final then { x with phase := .block } else if x.wrapper = 0 then { x with phase := .done } else x.align true

/-- The optional fields of a gzip header from a stage on (RFC 1952, 2.3). -/
def Inflate.gzipNext (x : Inflate) (stage : Nat) : Inflate :=
  if stage < 1 && bit x.flags 2 then { x with phase := .extraLen }
  else if stage < 2 && bit x.flags 3 then { x with phase := .fileName }
  else if stage < 3 && bit x.flags 4 then { x with phase := .comment }
  else if stage < 4 && bit x.flags 1 then { x with phase := .headerCrc }
  else { x with phase := .block }

/-- The distance of a match is known. -/
def Inflate.startMatch (x : Inflate) (d : Nat) : Inflate :=
  if x.total < d || 32768 < d then x.fail 3 else { x with phase := .symbols, left := x.matchLen, dist := d }

/-- The length of a match is known. -/
def Inflate.withLen (x : Inflate) (n : Nat) : Inflate := { x with phase := .dist, matchLen := n }

/-- Code lengths have been gathered; all of them make the codes of the block (3.2.7). -/
def Inflate.withLens (x : Inflate) (more : List Nat) : Inflate :=
  let ls := x.lens ++ more
  let n := x.sizes.1 + x.sizes.2
  if n < ls.length then x.fail 2
  else if ls.length < n then { x with phase := .lens, lens := ls }
  else
    let lit := ls.take x.sizes.1
    let dist := ls.drop x.sizes.1
    if lit.getD 256 0 = 0 || !codeOk lit true false || !codeOk dist true true then x.fail 2
    else { x with phase := .symbols, lens := [], litCode := lit, distCode := dist }

/-- A field of n bits, least significant bit first: when it is whole, go on with its value. -/
def Inflate.field (x : Inflate) (n : Nat) (b : Bool) (k : Inflate → Nat → Inflate) : Inflate :=
  let v := x.acc + b2n b * 2 ^ x.got
  if x.got + 1 < n then { x with acc := v, got := x.got + 1 } else k { x with acc := 0, got := 0 } v

/-- A code word: when it is whole, go on with its symbol. -/
def Inflate.symbol (x : Inflate) (lens : List Nat) (b : Bool) (k : Inflate → Nat → Inflate) : Inflate :=
  let v := 2 * x.acc + b2n b
  match symbolAt lens v (x.got + 1) with
  | some s => k { x with acc := 0, got := 0 } s
  | none => if longest lens ≤ x.got + 1 then x.fail 2 else { x with acc := v, got := x.got + 1 }

/-- Bytes of a gzip header enter its CRC. -/
def Inflate.header (x : Inflate) (n v : Nat) : Inflate := { x with headCrc := crc32More x.headCrc (le n v) }

/-- One bit of the stream. -/
def Inflate.bit (x : Inflate) (b : Bool) : Inflate :=
  let x := { x with pos := x.pos + 1 }
  match x.phase with
  | .zlibHead => x.field 16 b fun x v =>
    let cmf := v % 256
    if (cmf * 256 + v / 256) % 31 ≠ 0 || cmf % 16 ≠ 8 || 7 < cmf / 16 then x.fail 1
    else if Machine.bit v 13 then x.fail 7
    else { x with phase := .block }
  | .gzipHead => x.field 80 b fun x v =>
    let x := { x.header 10 v with flags := v / 2 ^ 24 % 256 }
    if v % 2 ^ 24 ≠ 0x088B1F || x.flags / 32 ≠ 0 then x.fail 1 else x.gzipNext 0
  | .extraLen => x.field 16 b fun x v => let x := x.header 2 v; if v = 0 then x.gzipNext 1 else { x with phase := .extra v }
  | .extra n => x.field 8 b fun x v => let x := x.header 1 v; if n = 1 then x.gzipNext 1 else { x with phase := .extra (n - 1) }
  | .fileName => x.field 8 b fun x v => let x := x.header 1 v; if v = 0 then x.gzipNext 2 else x
  | .comment => x.field 8 b fun x v => let x := x.header 1 v; if v = 0 then x.gzipNext 3 else x
  | .headerCrc => x.field 16 b fun x v => if v = x.headCrc.toNat % 2 ^ 16 then x.gzipNext 4 else x.fail 8
  | .block => x.field 3 b fun x v =>
    let x := { x with final := v % 2 = 1, block := v / 2 }
    match v / 2 with
    | 0 => x.align false
    | 1 => { x with phase := .symbols, litCode := fixedLit, distCode := fixedDist }
    | 2 => { x with phase := .dynSizes }
    | _ => { x with block := 0xFF }.fail 2
  | .pad t => x.align t
  | .storedLen => x.field 32 b fun x v =>
    if v % 2 ^ 16 + v / 2 ^ 16 ≠ 65535 then x.fail 4 else if v % 2 ^ 16 = 0 then x.endBlock else { x with phase := .stored (v % 2 ^ 16) }
  | .stored n => x.field 8 b fun x v =>
    let x := x.emit (BitVec.ofNat 8 v)
    if n = 1 then x.endBlock else { x with phase := .stored (n - 1) }
  | .dynSizes => x.field 14 b fun x v =>
    let hlit := v % 32 + 257
    let hdist := v / 32 % 32 + 1
    if 286 < hlit || 30 < hdist then x.fail 2
    else { x with phase := .codeLens (v / 1024 + 4), sizes := (hlit, hdist), lens := [] }
  | .codeLens n => x.field 3 b fun x v =>
    let ls := x.lens ++ [v]
    if ls.length < n then { x with lens := ls }
    else
      let cl := (List.range 19).map (fun i => ls.getD (clOrder.findIdx (· == i)) 0)
      if codeOk cl false false then { x with phase := .lens, lens := [], clCode := cl } else x.fail 2
  | .lens => x.symbol x.clCode b fun x v => if v < 16 then x.withLens [v] else { x with phase := .lensExtra v }
  | .lensExtra sym =>
    if sym = 16 then x.field 2 b fun x v =>
      match x.lens.getLast? with | some l => x.withLens (List.replicate (3 + v) l) | none => x.fail 2
    else if sym = 17 then x.field 3 b fun x v => x.withLens (List.replicate (3 + v) 0)
    else x.field 7 b fun x v => x.withLens (List.replicate (11 + v) 0)
  | .symbols => x.symbol x.litCode b fun x v =>
    if v < 256 then x.emit (BitVec.ofNat 8 v)
    else if v = 256 then x.endBlock
    else if 285 < v then x.fail 2
    else if lenExtraBits v = 0 then x.withLen (lenBase v) else { x with phase := .lenExtra v }
  | .lenExtra sym => x.field (lenExtraBits sym) b fun x v => x.withLen (lenBase sym + v)
  | .dist => x.symbol x.distCode b fun x v =>
    if 29 < v then x.fail 2 else if distExtraBits v = 0 then x.startMatch (distBase v) else { x with phase := .distExtra v }
  | .distExtra sym => x.field (distExtraBits sym) b fun x v => x.startMatch (distBase sym + v)
  | .check => x.field 32 b fun x v =>
    if x.wrapper = 1 then (if le 4 v = (le 4 x.check.toNat).reverse then { x with phase := .done } else x.fail 5)
    else if v = x.check.toNat then { x with phase := .isize } else x.fail 5
  | .isize => x.field 32 b fun x v => if v = x.total % 2 ^ 32 then { x with phase := .done } else x.fail 6
  | .done => x
  | .failed _ => x

def Inflate.stopped (x : Inflate) : Bool := match x.phase with | .done | .failed _ => true | _ => false

/-- Run over the bits of a job's input. It stops at the stream's end, at a data error, at the rest of a match for which there is no
room, and before the bit that would complete a byte for which there is none. Answers whether output space ran out. -/
def Inflate.run : List Bool → Inflate → Bool × Inflate
  | [], x => let x := x.copy; (x.left != 0, x)
  | b :: bs, x =>
    let x := x.copy
    if x.stopped then (false, x)
    else if x.left ≠ 0 then (true, x)
    else
      let y := x.bit b
      if x.room < y.made.length then (true, x) else Inflate.run bs y

/-- One job (R476, R477): its input starts at the byte that holds the next unread bit. -/
def Inflate.job (x : Inflate) (input : List Byte) (room : Nat) : Bool × Inflate :=
  let bs := (input.map (fun b => (List.range 8).map b.getLsbD)).flatten
  Inflate.run (bs.drop (x.pos % 8)) { x with made := [], room := room }

end Sys2Proof.Machine
end

