-- ==== Sys2Proof/Machine/Barrel.lean ====
section
/-! DEFINITION. Barrel (chapter 14): its contexts, jobs, registers and commands. The decompressor stands in Inflate; of the compressor,
the code words that its search chooses come with a job's facts, and the wrapper, the check value and the way the output fills are
the model's (R474–R477). What is emitted must read back, by that decompressor, as the input. -/

namespace Sys2Proof.Machine

open Sys2Proof

/-- The 64 bytes of the context record header (R478). -/
def BrlCtx.header (x : BrlCtx) (n : Nat) : List Byte :=
  le 1 n ++ le 1 x.mode ++ le 1 x.wrapper ++ le 1 x.level ++ le 1 x.st ++ le 1 x.error ++ le 1 x.bits ++ le 1 x.bitValue ++
    le 4 x.check ++ le 4 x.outcome.toNat ++ le 8 x.totalIn ++ le 8 x.totalOut ++ le 4 x.consumed ++ le 4 x.produced ++
    le 2 x.matchLen ++ le 2 x.matchDist ++ le 2 x.lookahead ++ le 1 x.block ++ le 1 0 ++ le 4 x.jobs ++ zeros 12

/-- The result words of a BRL_SUBMIT. -/
def BrlCtx.result (x : BrlCtx) : List Byte := le 4 x.consumed ++ le 4 x.produced ++ le 4 x.check ++ le 1 x.st

/-! ## The compressor's output (R474, R477) -/

/-- Bytes as words of 8 bits. -/
def byteWords (p : List Byte) : List (Nat × Nat) := p.map (fun b => (b.toNat, 8))

/-- The header of a wrapper at a level. -/
def wrapHeader (wrapper level : Nat) : List Byte :=
  if wrapper = 1 then [0x78, if level = 1 then 0x01 else if level = 2 then 0x9C else 0xDA]
  else if wrapper = 2 then [0x1F, 0x8B, 0x08, 0, 0, 0, 0, 0, 0, 0xFF]
  else []

/-- The trailer, for a check value and a length of the data. -/
def wrapTrailer (wrapper check n : Nat) : List Byte :=
  if wrapper = 1 then (le 4 check).reverse else if wrapper = 2 then le 4 check ++ le 4 n else []

/-- Words are emitted while the whole word fits: the bits so far, how many they are, and the words left. -/
def emitWords (room : Nat) : List (Nat × Nat) → Nat → Nat → Nat × Nat × List (Nat × Nat)
  | [], acc, n => (acc, n, [])
  | w :: ws, acc, n =>
    if 8 * room < n + w.2 then (acc, n, w :: ws) else emitWords room ws (acc + w.1 % 2 ^ w.2 * 2 ^ n) (n + w.2)

/-- The decompressor reads emitted words. Answers whether it met a stored block. -/
def Inflate.words : List (Nat × Nat) → Inflate → Bool × Inflate
  | [], y => (false, y)
  | w :: ws, y =>
    let y := (Inflate.run ((List.range w.2).map w.1.testBit) y).2
    let (stored, z) := Inflate.words ws y
    (y.block == 0 || stored, z)

/-- The final block has ended: what follows, if anything, is the trailer. -/
def Inflate.atEnd (y : Inflate) : Bool :=
  match y.phase with
  | .done | .check | .pad true => true
  | _ => false

/-- A compress job: the code words of the search follow those still waiting; the trailer, at a byte boundary, follows the last one. What
is emitted reads back as the beginning of the input that had no code words yet; the rest is the pending match and up to 258 bytes of
lookahead (R477), and level 1 makes no stored block (R474). All input is consumed, and with FINAL the final block ended, unless output
space runs out (R485). None for facts that are not so. -/
def BrlCtx.deflate (x : BrlCtx) (b : BrlFacts) (input : List Byte) (final : Bool) (room : Nat) : Option (BrlCtx × List Byte) :=
  let used := if x.trailer then [] else input.take b.consumed
  let check := if x.wrapper = 1 then adlerMore (BitVec.ofNat 32 x.check) used else crc32More (BitVec.ofNat 32 x.check) used
  let total := x.totalIn + used.length
  let ws := if x.trailer then x.queue else x.queue ++ b.words
  let (acc, n, rest) := emitWords room ws x.bitValue x.bits
  let (stored, y) := Inflate.words (ws.take (ws.length - rest.length)) { x.inf with made := [], room := 2 ^ 40 }
  let data := x.held ++ used
  let made := y.made.reverse
  let held := data.drop made.length
  let ended := y.atEnd || x.trailer
  let good := made.isPrefixOf data && (match y.phase with | .failed _ => false | _ => true) && !(x.level == 1 && stored) &&
    (!y.atEnd || final || x.trailer) &&
    decide (b.matchLen ≤ min 258 held.length) && decide (held.length ≤ b.matchLen + 258) &&
    (!rest.isEmpty || x.trailer || (used.length == input.length && final == ended && (!final || held.isEmpty)))
  if !good then none
  else
    let close := final && ended && rest.isEmpty && !x.trailer
    let tail := if close then (0, (8 - n % 8) % 8) :: byteWords (wrapTrailer x.wrapper check.toNat (total % 2 ^ 32)) else []
    let (acc, n, rest) := if close then emitWords room tail acc n else (acc, n, rest)
    let y := (Inflate.words (tail.take (tail.length - rest.length)) y).2
    let st := if !rest.isEmpty then 2 else if final then 0 else 1
    some ({ x with st := st, error := 0, bits := n % 8, bitValue := acc / 2 ^ (n / 8 * 8), check := check.toNat, consumed := used.length,
                   produced := n / 8, totalIn := total, totalOut := x.totalOut + n / 8, matchLen := b.matchLen,
                   matchDist := if b.matchLen = 0 then 0 else b.matchDist, lookahead := held.length - b.matchLen, block := y.block,
                   jobs := x.jobs + 1, queue := rest, trailer := x.trailer || close, held := held,
                   inf := { y with made := [], room := 0 } }, le (n / 8) acc)

/-- A decompress job (R475–R477). -/
def BrlCtx.inflate (x : BrlCtx) (input : List Byte) (room : Nat) : BrlCtx × List Byte :=
  let (full, y) := x.inf.job input room
  let (st, error) := match y.phase with | .failed e => (3, e) | .done => if y.left = 0 then (0, 0) else (2, 0) | _ => (if full then 2 else 1, 0)
  let used := y.pos / 8 - x.inf.pos / 8
  let out := y.made.reverse
  ({ x with st := st, error := error, bits := y.pos % 8, bitValue := 0, check := y.check.toNat, consumed := used, produced := out.length,
            totalIn := x.totalIn + used, totalOut := x.totalOut + out.length, matchLen := y.left, matchDist := y.dist, lookahead := 0,
            block := y.block, jobs := x.jobs + 1, inf := { y with made := [], room := 0 } }, out)

/-- A Barrel job has run: its context record (R476–R478), and its output in host memory. Answers the job's status. Code words that do
not read back as the input are no run of the compressor: the job ends HW_FAULT (DESIGN CHOICE, assumption 38). -/
def State.runBarrel (s : State) (j : Job) (f : JobFacts) : Nat × State :=
  let b := f.brl.getD { input := [], words := [], consumed := 0, matchLen := 0, matchDist := 0 }
  let x := s.brlCtx j.object
  let input := fit (j.args.getD 2 0) b.input
  let room := j.args.getD 3 0
  match if f.hwFault then none else if x.mode = 0 then x.deflate b input (bit (j.args.getD 0 0) 0) room else some (x.inflate input room) with
  | none => (stHwFault, s)
  | some (x, out) =>
    let s := s.updBrl j.object fun _ => x
    let s : State := if x.st = 3 then { s with brlErrors := s.brlErrors + 1 } else s
    (if x.st = 3 then stValidationFailed else stOk, s.dmaOut (j.args.getD 1 0) out)

/-- A Barrel job has retired: its command completes. A refused one changes nothing and reports 0 consumed and produced (R479). -/
def State.brlRetired (s : State) (j : Job) : State :=
  let n := j.object
  let s := s.updBrl n fun x => { x with pending := false, outcome := if isRefusal j.status then x.outcome else j.outcome }
  let x := s.brlCtx n
  let x : BrlCtx := if isRefusal j.status then { x with consumed := 0, produced := 0, outcome := j.outcome } else x
  match s.executing 0x0B02 n with
  | e :: _ => s.finish e j.status x.result (some (x.header n))
  | [] => s

def formBrlOpen : Form := { op := 0x0B01, lo := 4, hi := 4 }

def brlOpenBody (c : Cmd) (s : State) : State :=
  let n := fld c.payload 0 1
  let mode := fld c.payload 1 1
  let level := fld c.payload 3 1
  let free := (List.range 64).filter (fun k => !(s.brlCtx k).isOpen)
  if 64 ≤ n && n ≠ 0xFF then s.badField c 0
  else if 1 < mode then s.badField c 1
  else if 2 < fld c.payload 2 1 then s.badField c 2
  else if (mode = 0 && (level = 0 || 3 < level)) || (mode = 1 && level ≠ 0) then s.badField c 3
  else
    let k := if n = 0xFF then free.head? else if free.contains n then some n else none
    match k with
    | none => s.fail c stBusy
    | some k =>
      let w := fld c.payload 2 1
      let fresh : BrlCtx :=
        { BrlCtx.reset with isOpen := true, mode := mode, wrapper := w, level := level, check := if w = 1 then 1 else 0,
                            queue := if mode = 0 then byteWords (wrapHeader w level) else [], inf := Inflate.start w }
      (s.updBrl k fun _ => fresh).ok c (le 1 k)

def execBrlOpen (b : Mbox) (s : State) : Host.Outcome State Fault Refusal := .next (s.take b formBrlOpen brlOpenBody)

def formBrlSubmit : Form := { op := 0x0B02, lo := 32, hi := 32, reserved := [(2, 2), (28, 4)], reservedBits := [(1, 1, 0xFE)] }

/-- A context in DATA_ERROR accepts only BRL_CLOSE (R476): a further job fails VALIDATION_FAILED. -/
def brlSubmitBody (c : Cmd) (s : State) : State :=
  let p := c.payload
  let n := fld p 0 1
  let x := s.brlCtx n
  let inLen := fld p 4 4
  let outLen := fld p 16 4
  if 64 ≤ n || !x.isOpen then s.badField c 0
  else if 268435456 < inLen then s.badField c 4
  else if outLen = 0 || 268435456 < outLen then s.badField c 16
  else if x.pending then s.fail c stBusy
  else if x.st = 3 then s.fail c stValidationFailed
  else
    let s := s.accept c n []
    let s := (s.updBrl n fun x => { x with pending := true }).out (.hostRead (fld p 8 8) inLen)
    let j : Job :=
      { Job.make .barrel 6 with
        gen := s.liveNumber, object := n, args := [fld p 1 1, fld p 20 8, inLen, outLen],
        units := [(0x07, inLen), (0x01, inLen + outLen)] }
    (s.addJob j).2

def formBrlClose : Form := { op := 0x0B03, lo := 4, hi := 4, reserved := [(1, 3)] }

def brlCloseBody (c : Cmd) (s : State) : State :=
  let n := fld c.payload 0 1
  if 64 ≤ n || !(s.brlCtx n).isOpen then s.badField c 0
  else if (s.brlCtx n).pending then s.fail c stBusy
  else (s.updBrl n fun _ => BrlCtx.reset).ok c []

def execBrlClose (b : Mbox) (s : State) : Host.Outcome State Fault Refusal := .next (s.take b formBrlClose brlCloseBody)

def formBrlReadContext : Form := { op := 0x0B04, lo := 4, hi := 4, reserved := [(1, 3)] }

def brlReadContextBody (c : Cmd) (s : State) : State :=
  let n := fld c.payload 0 1
  if 64 ≤ n || !(s.brlCtx n).isOpen then s.badField c 0
  else if (s.brlCtx n).st = 3 then s.fail c stValidationFailed
  else s.reply c stOk [] (some ((s.brlCtx n).header n))

def execBrlReadContext (b : Mbox) (s : State) : Host.Outcome State Fault Refusal :=
  .next (s.take b formBrlReadContext brlReadContextBody)

end Sys2Proof.Machine
end

