-- ==== Sys2Proof/Machine/Decoder.lean ====
section
/-! DEFINITION. The review decoder (chapter 13): what a picture's end leaves, output, the DEC registers, and the commands of group
0x0A but for those that start host transfers. -/

namespace Sys2Proof.Machine

open Sys2Proof

def DecStream.guard_ (d : DecStream) : Bool := fld d.ent 1 1 == 0
def DecStream.checks (d : DecStream) : Bool := bit (fld d.ent 3 1) 0

def ExecCmd.arg (e : ExecCmd) (k : Nat) : Nat := e.args.getD k 0

/-- Bytes of the input ring in use. -/
def State.decRing (s : State) (n : Nat) : Nat := ((s.submissions n).map (·.arg 1)).sum

/-- The tiles of an area of one picture. -/
def decArea (e : List Byte) (base : Nat) : Tiles :=
  let k := decTilesX e * decTilesY e
  { addr := base, size := 2048, count := k, tags := base + k * 2048 }

/-- The frames of a stream lie after its store (R431, R445). -/
def State.decTiles (s : State) (n slot : Nat) : Tiles :=
  let e := (s.dec n).ent
  decArea e (s.regionBase 9 n + decStoreArea e + slot * decAreaBytes e)

/-- An entry of the decoded picture store. -/
def State.storeTiles (s : State) (n k : Nat) : Tiles :=
  let e := (s.dec n).ent
  decArea e (s.regionBase 9 n + k * decAreaBytes e)

/-- An access unit enters the input ring, which it may wrap around. -/
def State.ringIn (s : State) (n : Nat) (d : List Byte) : State :=
  let size := fld (s.dec n).ent 12 4 * 1024
  let p := (s.dec n).ringPos
  let s := (s.capWrite 0x6A (s.regionBase 8 n + p) (d.take (size - p))).capWrite 0x6A (s.regionBase 8 n) (d.drop (size - p))
  s.updDec n fun x => { x with ringPos := if size = 0 then 0 else (p + d.length) % size }

/-! ## Eligibility (R426, R438) -/

def State.decReady (s : State) (j : Job) : Bool :=
  (s.submissions j.object).head?.any (fun e => e.arg 0 == j.args.getD 0 0) &&
    (!(s.dec j.object).free.isEmpty || 2 < j.args.length) &&
    !s.jobs.any (fun x => x.kind == .decPicture && x.object == j.object && x.id != j.id && x.st != .pending)

/-- Entries of the store that no picture holds. -/
def DecStream.freeEntries (d : DecStream) : List Nat :=
  (List.range (fld d.ent 8 1 + 1)).filter (fun k => !d.store.any (fun p => p.entry == some k))

/-- A decode job is issued: it takes a free output frame, and keeps it where it is issued again after its engine's retirement (R649). -/
def State.claimSlot (s : State) (j : Job) : State :=
  if 2 < j.args.length then s
  else
    let (k, s) := s.choose (s.dec j.object).free
    match k with
    | some k =>
      (s.updDec j.object fun d => { d with slots := d.slots.set k 1 }).updJob j.id (fun x => { x with args := x.args ++ [k] })
    | none => s

/-! ## Output (R438) -/

def State.patchRec (s : State) (n pic : Nat) (f : List Byte → List Byte) : State :=
  s.updDec n fun d => { d with records := d.records.map (fun r => if r.1 = pic then (r.1, f r.2) else r) }

/-- One picture is output: its number, its frame held, DEC_OUTPUT. -/
def State.outputPic (s : State) (n : Nat) (p : Stored) : State :=
  let num := (s.dec n).outNumber
  let slot := p.slot.getD 0xFF
  let s := s.updDec n fun d =>
    { d with outNumber := (num + 1) % 2 ^ 32, slots := d.slots.set slot 2,
             store := (d.store.map (fun x => if x = p then { x with needed := false } else x)) }
  let s := s.patchRec n p.picture (fun r => put (put r 8 (le 4 (fld r 8 4 ||| 1))) 32 (le 4 num))
  let s := s.raise 0x0A01 srcDevice (le 4 p.picture ++ le 4 num ++ leInt 4 p.poc ++ le 1 n ++ le 1 slot)
  let ns := s.streamsOf (fun t => t.srcKind == 3 && t.srcIndex == n)
  each ns (fun k s => s.addUnit k
    { seq := 0, job := 0, done := true, gap := 0, bytes := [], status := 0, frame := BitVec.ofNat 32 p.picture,
      picture := num * 256 + slot, row := 0, rows := 1, fsTbm := s.time.tbm, deadline := none }) s

/-- Pictures that are neither references nor waiting for output leave the store. -/
def DecStream.tidy (d : DecStream) : DecStream := { d with store := d.store.filter (fun p => p.isRef || p.needed) }

/-! ## The access unit (R427, R432, R433) -/

/-- The NAL unit types of an Annex B byte stream, in order: of the byte after each start code. -/
def nalTypes : List Byte → List Nat
  | a :: b :: c :: d :: rest =>
    if a = 0 ∧ b = 0 ∧ c = 1 then d.toNat / 2 % 64 :: nalTypes (d :: rest) else nalTypes (b :: c :: d :: rest)
  | _ => []

/-- VCL NAL units that are neither reserved nor unspecified. -/
def isVcl (t : Nat) : Bool := t ≤ 9 || (16 ≤ t && t ≤ 21)

/-- What the decoder has of a picture as it goes through its slice segments: CTUs decoded, segments whose header was parsed with their
CTUs and RefPicList0's first entry, damage, resynchronisation, and whether it looks for the next independent segment. -/
structure DecRun where
  done    : List Nat
  seen    : List (List Nat × Option Int)
  damaged : Bool
  resync  : Bool
  skip    : Bool

/-- One slice segment (R432, R433). -/
def DecRun.slice (r : DecRun) (total : Nat) (x : DecSlice) : DecRun :=
  let valid := match x.ctus.head? with | some a => decide (a < total) && !r.done.contains a | none => false
  if x.second then { r with damaged := true }
  else if r.skip && x.dependent then r
  else if !x.header || !valid then { r with damaged := true, resync := true, skip := true }
  else
    let n := x.bad.getD x.ctus.length
    { done := r.done ++ (x.ctus.take n).filter (· < total), seen := (x.ctus, x.list0) :: r.seen,
      damaged := r.damaged || x.bad.isSome, resync := r.resync || x.bad.isSome, skip := x.bad.isSome }

/-- An access unit as it has been decoded: the type of its first VCL NAL unit, its slice segments, damage and resynchronisation, the CTUs
not decoded, each with the first entry of RefPicList0 where the header that covers it was parsed, whether a sequence ends with it, and
what the address checker and the tile port found. -/
structure DecUnit extends DecFacts where
  nalType     : Nat
  segments    : Nat
  damaged     : Bool
  resync      : Bool
  lost        : List (Nat × Option Int)
  eos         : Bool
  windowFault : Bool
  tileFault   : Bool

/-- Unspecified and reserved NAL units, and those of AUD, SEI and filler data, leave nothing; an EOS or EOB ends the sequence. -/
def decodeUnit (f : DecFacts) (bytes : List Byte) (window tile : Bool) : DecUnit :=
  let types := nalTypes bytes
  let vcl := types.filter isVcl
  let total := if f.ctu = 0 then 0 else ceilDiv f.width f.ctu * ceilDiv f.height f.ctu
  let slices := f.slices.take vcl.length
  let start : DecRun := { done := [], seen := [], damaged := f.badSet, resync := f.badSet, skip := false }
  let r := slices.foldl (fun r x => r.slice total x) start
  let lost := (List.range total).filter (fun k => !r.done.contains k)
  let covered (k : Nat) : Bool := slices.any (fun x => !x.second && x.ctus.contains k)
  { toDecFacts := f, nalType := vcl.headD 0, segments := vcl.length,
    damaged := r.damaged || lost.any (fun k => !covered k), resync := r.resync,
    lost := lost.map (fun k => (k, (r.seen.find? (fun x => x.1.contains k)).bind (·.2))),
    eos := types.contains 36 || types.contains 37, windowFault := window, tileFault := tile }

/-- An access of the core lies in the windows: a read in any of the three, a write in the current picture's store entry or output frame. -/
def State.inWindow (s : State) (n slot entry : Nat) (x : Bool × Nat × Nat) : Bool :=
  let e := (s.dec n).ent
  let within (base size : Nat) : Bool := decide (base ≤ x.2.1) && decide (x.2.1 + x.2.2 ≤ base + size)
  if x.1 then within (s.storeTiles n entry).addr (decAreaBytes e) || within (s.decTiles n slot).addr (decAreaBytes e)
  else within (s.regionBase 8 n) (fld e 12 4 * 1024) || within (s.regionBase 9 n) (decStoreArea e) ||
    within (s.regionBase 9 n + decStoreArea e) (fld e 9 1 * decAreaBytes e)

/-- The tiles of stored pictures that the core reads. -/
def State.decReads (s : State) (n : Nat) (f : DecFacts) : List Tiles :=
  f.refTiles.filterMap (fun x =>
    ((s.dec n).store.find? (fun p => p.poc == x.1)).bind (fun p => p.entry.map (fun k => (s.storeTiles n k).one x.2)))

/-! ## Samples (R434, R436, R438) -/

def sampleAt (p : List (List (List Nat))) (c x y : Nat) : Nat := ((p.getD c []).getD y []).getD x 0

/-- Width and height of a plane. -/
def planeSize (chroma w h c : Nat) : Nat × Nat :=
  if c = 0 then (w, h) else if chroma = 0 then (0, 0) else (w / 2, if chroma = 1 then h / 2 else h)

def planesOf (chroma w h : Nat) (f : Nat → Nat → Nat → Nat) : List (List (List Nat)) :=
  (List.range 3).map (fun c =>
    let z := planeSize chroma w h c
    (List.range z.2).map (fun y => (List.range z.1).map (fun x => f c x y)))

/-- The mid level of a plane. -/
def midOf (f : DecUnit) (c : Nat) : Nat := 2 ^ ((if c = 0 then f.depth else f.depthC) - 1)

def decodedAt (l : List Decoded) (w h : Nat) : Option Decoded := l.find? (fun p => p.width == w && p.height == h)

/-- A CTU that is not decoded takes the co-located one of its reference, of the picture decoded last at this size, or the mid level. -/
def DecStream.conceal (d : DecStream) (f : DecUnit) : List (List (List Nat)) :=
  if f.lost.isEmpty then f.planes
  else planesOf f.chroma f.width f.height (fun c x y =>
    let z := planeSize f.chroma f.width f.height c
    let k := y * f.height / z.2 / f.ctu * ceilDiv f.width f.ctu + x * f.width / z.1 / f.ctu
    match f.lost.find? (fun l => l.1 == k) with
    | none => sampleAt f.planes c x y
    | some l =>
      match l.2.bind (fun poc => d.store.find? (fun p => p.poc == poc)), decodedAt d.recent f.width f.height with
      | some p, _ => sampleAt p.planes c x y
      | none, some p => sampleAt p.planes c x y
      | none, none => midOf f c)

/-- What a missing reference is replaced with: grey, or a copy of the last good picture. -/
def DecStream.substitute (d : DecStream) (f : DecUnit) : Option Decoded :=
  if fld d.ent 2 1 = 1 then decodedAt d.good f.width f.height else none

/-- A pixel of the output frame in YCC422: value × 2^(16 − bit depth). Of 4:2:0, an odd row's chroma is the mean of its neighbours', kept
exactly (assumption 38). -/
def pixelOf (f : DecUnit) (p : List (List (List Nat))) (x y : Nat) : List Byte :=
  let c := 1 + x % 2
  let v : Nat :=
    if f.chroma = 0 then 2 ^ 15
    else if f.chroma = 2 then sampleAt p c (x / 2) y * 2 ^ (16 - f.depthC)
    else
      let k := y / 2
      let next := if y % 2 = 1 then min (k + 1) (f.height / 2 - 1) else k
      (sampleAt p c (x / 2) k + sampleAt p c (x / 2) next) * 2 ^ (15 - f.depthC)
  le 2 v ++ le 2 (sampleAt p 0 x y * 2 ^ (16 - f.depth))

/-- The output frame's tiles; what fills the edge tiles beyond the picture is open. -/
def tilesOf (f : DecUnit) (p : List (List (List Nat))) (fill : List Byte) : List (List Byte) :=
  let w := ceilDiv f.width 64
  (List.range (w * ceilDiv f.height 8)).map (fun t =>
    ((List.range 512).map (fun i =>
      let x := t % w * 64 + i % 64
      let y := t / w * 8 + i / 64
      if x < f.width && y < f.height then pixelOf f p x y else fill)).flatten)

/-! ## Bumping -/

/-- Output pictures in POC order while a condition on the store holds. -/
def State.bump (s : State) (n : Nat) (more : List Stored → Bool) : Nat → State
  | 0 => s
  | fuel + 1 =>
    let st := (s.dec n).store
    if !more st then s
    else
      let waits := st.filter (·.needed)
      match waits.foldl (fun (a : Option Stored) p => match a with | none => some p | some q => if p.poc < q.poc then some p else some q) none with
      | none => s
      | some p => ((s.outputPic n p).updDec n DecStream.tidy).bump n more fuel

def anyNeeded (st : List Stored) : Bool := st.any (·.needed)

/-! ## The end of a picture (R428–R442) -/

def resDecoded : Nat := 0
def resConcealed : Nat := 1
def resTile : Nat := 9

/-- Profiles, levels, chroma formats and bit depths of R427. -/
def supportedOf (f : DecUnit) : Bool :=
  [90, 93, 120, 123, 150, 153].contains f.level && 8 ≤ f.depth && 8 ≤ f.depthC &&
    (match f.profile with
     | 1 => f.chroma == 1 && f.depth == 8 && f.depthC == 8
     | 2 => f.chroma == 1 && f.depth ≤ 10 && f.depthC ≤ 10
     | 4 => f.chroma ≤ 2 && f.depth ≤ 10 && f.depthC ≤ 10
     | _ => false)

def irapOf (f : DecUnit) : Bool := 16 ≤ f.nalType && f.nalType ≤ 23
def craOf (f : DecUnit) : Bool := f.nalType == 21

/-- The picture starts a coded video sequence: IDR and BLA always, CRA where none runs. -/
def DecStream.starts (d : DecStream) (f : DecUnit) : Bool := irapOf f && (!craOf f || d.awaitIrap)

/-- A RASL picture whose IRAP picture started the sequence (R437). -/
def DecStream.rasl (d : DecStream) (f : DecUnit) : Bool := (f.nalType == 8 || f.nalType == 9) && d.skipRasl

/-- References that the picture's set names and the store does not hold. -/
def DecStream.missing (d : DecStream) (f : DecUnit) : List Int :=
  nub (f.rps.filter (fun poc => !d.store.any (fun p => p.isRef && p.poc == poc)))

/-- A reference list of the picture holds a substitute, one made for it among them. -/
def DecStream.usesMade (d : DecStream) (f : DecUnit) : Bool :=
  f.lists.any (fun poc => (d.missing f).contains poc || d.store.any (fun p => p.made && p.poc == poc))

/-- The result of a picture. `cut`: the cycle budget has expired. A first picture that is not IRAP has no references (R435). -/
def DecStream.result (d : DecStream) (f : DecUnit) (cut : Bool) : Nat :=
  let bad := d.checks && f.hash == 2
  if d.guard_ && cut then 6
  else if f.windowFault && !cut then 8
  else if !f.sizeKnown then 2
  else if !supportedOf f then 3
  else if fld d.ent 4 2 < f.width || fld d.ent 6 2 < f.height || fld d.ent 8 1 < f.dpb || 600 < f.segments then 4
  else if d.rasl f then 0xB
  else if d.guard_ then
    if !(d.missing f).isEmpty || (d.awaitIrap && !irapOf f) then 5
    else if f.tileFault then resTile else if f.damaged || !f.lost.isEmpty then 2 else if bad then 7 else 0
  else if f.tileFault then resTile
  else if !f.lost.isEmpty || d.usesMade f || cut || bad || f.resync then 1 else 0

def resultStatus (r reason : Nat) : Nat :=
  match r with
  | 0 | 1 | 0xB => stOk
  | 2 | 3 | 4 | 7 => stValidationFailed
  | 5 => stMissingRef
  | 6 => stRefusedDeadline
  | 0xA => reason
  | 0xD => stBusy
  | _ => stHwFault

/-- Whether a result leaves a picture that is stored. -/
def DecStream.stores (d : DecStream) (r : Nat) : Bool := r ≤ 1 || (r == resTile && !d.guard_)

/-- The flags of R442. Only a picture that is decoded and kept has had references made for it or CTUs concealed (R436, R437). -/
def recFlags (d : DecStream) (f : DecUnit) (cut keep : Bool) : Nat :=
  let mend := !d.guard_ && keep
  2 * b2n (mend && !f.lost.isEmpty) + 4 * b2n (mend && f.resync) + 8 * b2n (mend && d.usesMade f) +
    16 * b2n (mend && !(d.missing f).isEmpty) + 32 * b2n (mend && cut) + 64 * b2n (d.checks && f.hash == 1) +
    128 * b2n (d.checks && f.hash == 2) + 256 * b2n (mend && f.tileFault)

/-- The decode record, but for its outcome, output number and end time. CTUs are concealed in MEND alone. -/
def decRecord (n pic bytes r status flags slot concealed : Nat) (f : Option DecUnit) : List Byte :=
  let z (g : DecUnit → Nat) : Nat := (f.map g).getD 0
  let vui (k : Nat) : Nat := (f.map (fun f => f.vui.getD k 2)).getD 2
  le 4 pic ++ le 1 n ++ le 1 r ++ le 2 status ++ le 4 flags ++ le 4 0 ++ leInt 4 ((f.map (·.poc)).getD 0) ++ le 1 (z (·.sliceType)) ++
    le 1 (z (·.nalType)) ++ le 2 (sat 16 concealed) ++ le 2 (z (·.width)) ++ le 2 (z (·.height)) ++ le 4 bytes ++
    le 4 0xFFFFFFFF ++ le 1 slot ++ le 1 (vui 0) ++ le 1 (vui 1) ++ le 1 (vui 2) ++ le 4 (z (·.micros)) ++ zeros 16 ++ le 4 0

/-- Keep the 256 newest records. -/
def State.addDecRec (s : State) (n pic : Nat) (r : List Byte) : State :=
  s.updDec n fun d => { d with records := ((pic, r) :: d.records).take 256 }

/-- Stored pictures go without output, and their frames are free again. -/
def DecStream.discard (d : DecStream) : DecStream :=
  let out := d.store.filter (·.needed)
  { d with store := [], slots := (numbered d.slots).map (fun k => if out.any (fun p => p.slot == some k.1) then 0 else k.2) }

/-- The bumping process outputs a picture: too many wait, one has waited too long, or the store is full. -/
def bumps (f : DecUnit) (full : Bool) (st : List Stored) : Bool :=
  let waits := st.filter (·.needed)
  !waits.isEmpty && (decide (f.reorder < waits.length) || (f.latency != 0 && waits.any (fun p => decide (f.latency ≤ p.waits))) ||
    (full && decide (max 1 f.dpb ≤ st.length)))

/-- Marking by the reference picture set; a substitute for each missing reference (R436); what the picture's start outputs or drops. -/
def State.openPic (s : State) (master n pic : Nat) (f : DecUnit) : State :=
  let d := s.dec n
  let s := s.updDec n fun d =>
    let d : DecStream := { d with store := d.store.map fun (p : Stored) => if f.rps.contains p.poc then p else { p with isRef := false } }
    d.tidy
  let sub_ := d.substitute f
  let planes := match sub_ with
    | some p => p.planes
    | none => planesOf f.chroma f.width f.height (fun c _ _ => midOf f c)
  let s := each (d.missing f) (fun poc s =>
    let (k, s) := s.choose (s.dec n).freeEntries
    let s := match k with | some k => s.putTiles master (s.storeTiles n k) 0 (tilesOf f planes (le 4 0)) | none => s
    let x : Stored := { poc := poc, slot := none, picture := pic, needed := false, isRef := true, made := true, waits := 0, entry := k,
                        width := f.width, height := f.height, planes := planes }
    (s.updDec n fun d => { d with store := d.store ++ [x] }).raise 0x0A03 srcDevice
      (le 4 pic ++ leInt 4 poc ++ le 1 n ++ le 1 (b2n sub_.isSome))) s
  if d.starts f then
    if craOf f || f.noPrior then s.updDec n DecStream.discard
    else (s.bump n anyNeeded 17).updDec n DecStream.discard
  else s.bump n (bumps f true) 17

/-- A picture that is stored: its samples, its output frame, and what the bumping process outputs after it. -/
def State.storePic (s : State) (master n pic slot entry : Nat) (f : DecUnit) (r : Nat) : State :=
  let begins := (s.dec n).starts f
  let s := s.openPic master n pic f
  let planes := (s.dec n).conceal f
  let (fill, s) := s.drawNat
  let tiles := tilesOf f planes (le 4 fill)
  let s := (s.putTiles master (s.decTiles n slot) 0 tiles).putTiles master (s.storeTiles n entry) 0 tiles
  let p : Stored := { poc := f.poc, slot := some slot, picture := pic, needed := f.outputFlag, isRef := true, made := false, waits := 0, entry := some entry,
                      width := f.width, height := f.height, planes := planes }
  let keep (l : List Decoded) : List Decoded :=
    ⟨f.width, f.height, planes⟩ :: l.filter (fun x => x.width != f.width || x.height != f.height)
  let s := s.updDec n fun d =>
    let d : DecStream := { d with store := d.store.map fun (q : Stored) =>
      if f.outputFlag && q.needed && f.poc < q.poc then { q with waits := q.waits + 1 } else q }
    { d with store := d.store ++ [p], awaitIrap := d.awaitIrap && !irapOf f, skipRasl := if irapOf f then begins else d.skipRasl,
             recent := keep d.recent, good := if r = 0 then keep d.good else d.good,
             slots := if f.outputFlag then d.slots else d.slots.set slot 0 }
  s.bump n (bumps f false) 17

/-- An EOS drops the references, and the next picture starts a sequence. -/
def DecStream.atEos (d : DecStream) : DecStream :=
  let x : DecStream := { d with awaitIrap := true, store := d.store.map fun (p : Stored) => { p with isRef := false } }
  x.tidy

/-- A decode job has run on its core: its result and its status. One whose submission a forced apply has ended leaves nothing (R446), and
one that met an invalid page, or ended HW_FAULT without a cause of its own, is recorded WINDOW, the result with that status that names
no tile and no copy (R491; DESIGN CHOICE, assumption 38). -/
def State.runDecode (s : State) (j : Job) (facts : DecFacts) (cut : Bool) (g : JobFacts) : Nat × State :=
  let n := j.object
  let d := s.dec n
  let pic := j.args.getD 0 0
  let slot := j.args.getD 2 0xFF
  if !(s.submissions n).any (fun e => e.arg 0 == pic) then (if g.hwFault then stHwFault else stOk, s)
  else
    let (entry, s) := s.choose d.freeEntries
    let entry := entry.getD (fld d.ent 8 1)
    let reads := s.decReads n facts
    let g := s.verify g reads [s.decTiles n slot, s.storeTiles n entry]
    let s := s.countMisses g reads j
    let f := decodeUnit facts j.data (!facts.accesses.all (s.inWindow n slot entry)) ((reads.map g.lostIn).sum != 0)
    let r := if g.hwFault then 8 else d.result f cut
    let st := resultStatus r stOk
    let s := if f.windowFault then
        s.logError 4 (Loc.ofEngine j.engine) { master := j.engine, tag := j.tag.getD 0xFFFF }
      else s
    let keep := d.stores r
    let hidden := if d.guard_ || !keep then 0 else f.lost.length
    let slotOf := if keep && f.outputFlag then slot else 0xFF
    let s := s.addDecRec n pic (decRecord n pic (j.args.getD 1 0) r st (recFlags d f cut keep) slotOf hidden (some f))
    let s := s.updDec n fun d => { d with concealed := d.concealed + BitVec.ofNat 32 hidden }
    let s := if keep then s.storePic j.engine n pic slot entry f r else s.updDec n fun d => { d with slots := d.slots.set slot 0 }
    (st, if f.eos then s.updDec n DecStream.atEos else s)

/-- A picture that is neither output nor stored is counted, with DEC_REFUSED at most once per second. -/
def State.decRefused (s : State) (n pic r : Nat) : State :=
  let s := s.updDec n fun d => { d with refused := d.refused + 1, refusedSince := d.refusedSince + 1 }
  let d := s.dec n
  s.raiseLimited d.lastRefusedEvent (sec 1) 0x0A02 srcDevice (le 4 pic ++ le 1 n ++ le 1 r ++ le 2 0 ++ le 4 d.refusedSince)
    (fun t s => s.updDec n fun d => { d with lastRefusedEvent := t, refusedSince := 0 })

/-- The final completion of a submission, from its record (R449). -/
def State.finishSubmit (s : State) (e : ExecCmd) : State :=
  let n := e.key
  let pic := e.arg 0
  let r := (((s.dec n).records.find? (fun x => x.1 == pic)).map (·.2)).getD []
  let res := fld r 5 1
  let s := s.updDec n fun d => { d with lastPicture := pic }
  let s := if (s.dec n).stores res || res = 0xB then s else s.decRefused n pic res
  s.finish e (fld r 6 2) (le 4 pic ++ sub r 12 4 ++ le 1 res ++ sub r 36 1 ++ sub r 8 2 ++ sub r 22 2) none

/-- A decode job has retired: outcome and end time enter the record, and its submission completes. A refused one ends LEDGER. -/
def State.decRetired (s : State) (j : Job) : State :=
  let n := j.object
  let pic := j.args.getD 0 0
  let s := if isRefusal j.status && !(s.dec n).records.any (fun r => r.1 == pic) then
      let s := s.addDecRec n pic (decRecord n pic (j.args.getD 1 0) 0xA j.status 0 0xFF 0 none)
      match j.args[2]? with
      | some k => s.updDec n fun d => { d with slots := d.slots.set k 0 }
      | none => s
    else s
  let s := s.patchRec n pic (fun r => put (put r 12 (le 4 j.outcome.toNat)) 44 s.tbmField)
  match (s.submissions n).find? (fun e => e.arg 0 == pic) with
  | some e => s.finishSubmit e
  | none => s

/-- A submission ends without a job: INPUT, or ABANDONED. -/
def State.endSubmit (s : State) (e : ExecCmd) (r : Nat) : State :=
  let s := s.addDecRec e.key (e.arg 0) (decRecord e.key (e.arg 0) (e.arg 1) r (resultStatus r 0) 0 0xFF 0 none)
  (s.patchRec e.key (e.arg 0) (fun x => put x 44 s.tbmField)).finishSubmit e

/-- The access unit has been copied in: its job is created (R426, R443). -/
def State.cutPicture (s : State) (e : ExecCmd) (luma : Option Nat) (data : List Byte) : State :=
  let d := s.dec e.key
  let n := luma.getD (fld d.ent 4 2 * fld d.ent 6 2)
  let j : Job :=
    { Job.make .decPicture 5 with
      gen := s.liveNumber, object := e.key, unit := e.arg 0, args := [e.arg 0, e.arg 1], units := [(0x06, n), (0x01, 16 * n)], data := data,
      deadline := if e.arg 2 = 0 then none else some (e.arg 2 - 1) }
  ((s.ringIn e.key data).addJob j).2

/-- DEC_FLUSH completes once nothing is pending: every stored picture is output and the store emptied. -/
def State.pumpFlush (s : State) (n : Nat) : State :=
  match s.executing 0x0A02 n with
  | [] => s
  | e :: _ =>
    if !(s.submissions n).isEmpty then s
    else
      let before := (s.dec n).outNumber
      let s := s.bump n anyNeeded 17
      let s := s.updDec n fun d => { d with store := [], awaitIrap := true }
      s.finish e stOk (le 4 (((s.dec n).outNumber + 2 ^ 32 - before) % 2 ^ 32)) none

/-- An entry of DEC_STREAMS applies: the stream starts empty (R446). -/
def State.applyDec (s : State) (n : Nat) (e : Option (List Byte)) : State :=
  let k := match e with | some e => fld e 9 1 | none => 0
  let old := s.dec n
  let d : DecStream :=
    { DecStream.reset with entry := e, next := if old.entry.isSome && e.isSome then old.next else 0, slots := List.replicate k 0,
                           slotReads := List.replicate k 0, slotReleased := List.replicate k false, awaitIrap := e.isSome,
                           refused := old.refused, concealed := old.concealed, records := if e.isSome && old.entry.isSome then old.records else [] }
  let s := (((s.release 8 n).release 9 n).release 13 n).updDec n fun _ => d
  match e with
  | some e => ((s.alloc 8 n 3 (fld e 12 4 * 1024)).alloc 9 n 3 (decStoreArea e + fld e 9 1 * decAreaBytes e)).alloc 13 n 4 (256 * 64)
  | none => s

/-! ## Registers and commands -/

/-- The LIVE generation has a decode stream. -/
def State.liveDec (s : State) (n : Nat) : Bool :=
  match s.cfg.live.bind (fun g => payloadIn g.blocks 0x0601 globalTarget) with
  | some p => (entriesFrom p 8 32 (fld p 0 4)).any (fun e => fld e 0 1 == n)
  | none => false

def formDecSubmit : Form := { op := 0x0A01, lo := 24, hi := 24, reserved := [(1, 3), (20, 4)] }

def decSubmitBody (c : Cmd) (s : State) : State :=
  let n := fld c.payload 0 1
  let len := fld c.payload 4 4
  let d := s.dec n
  let ring := fld d.ent 12 4 * 1024
  if !s.liveDec n || d.entry.isNone then s.badField c 0
  else if len = 0 || ring < len then s.badField c 4
  else if 16 ≤ (s.submissions n).length || ring < s.decRing n + len then s.fail c stBusy
  else
    let us_ := fld c.payload 16 4
    let s := s.accept c n [d.next, len, if us_ = 0 then 0 else s.now + us us_ + 1]
    (s.updDec n fun d => { d with next := (d.next + 1) % 2 ^ 32 }).out (.hostRead (fld c.payload 8 8) len)

def execDecSubmit (b : Mbox) (s : State) : Host.Outcome State Fault Refusal := .next (s.take b formDecSubmit decSubmitBody)

def formDecFlush : Form := { op := 0x0A02, lo := 4, hi := 4, reserved := [(1, 3)] }

def decFlushBody (c : Cmd) (s : State) : State :=
  let n := fld c.payload 0 1
  if !s.liveDec n then s.badField c 0 else (s.accept c n []).pumpFlush n

def execDecFlush (b : Mbox) (s : State) : Host.Outcome State Fault Refusal := .next (s.take b formDecFlush decFlushBody)

def formDecRestart : Form := { op := 0x0A03, lo := 4, hi := 4, reserved := [(1, 3)] }

def decRestartBody (c : Cmd) (s : State) : State :=
  let n := fld c.payload 0 1
  if !s.liveDec n then s.badField c 0
  else if !(s.submissions n).isEmpty then s.fail c stBusy
  else
    (s.updDec n fun d => { d with store := [], awaitIrap := true, slots := d.slots.map (fun v => if v = 1 then 0 else v) }).ok c []

def execDecRestart (b : Mbox) (s : State) : Host.Outcome State Fault Refusal := .next (s.take b formDecRestart decRestartBody)

/-- A held output frame is given back, at once or when the last read of it ends; an output that sends it reads it (R438, R469). -/
def State.giveBack (s : State) (n k : Nat) : State :=
  let sent := s.streams.any (fun t => t.srcKind == 3 && t.srcIndex == n && t.sending.any (fun x => x.1 % 256 == k)) ||
    s.jobs.any (fun j => j.kind == .outUnit && j.st != .complete && (s.stream j.object).srcKind == 3 &&
      (s.stream j.object).srcIndex == n && j.args.getD 1 0 % 256 == k)
  s.updDec n fun d =>
    if d.slotReads.getD k 0 = 0 && !sent then { d with slots := d.slots.set k 0, slotReleased := d.slotReleased.set k false }
    else { d with slotReleased := d.slotReleased.set k true }

/-- Frames that were released while they were read are free once no read goes on. -/
def State.freeDecSlots (s : State) : State :=
  each (List.range 4) (fun n s =>
    each ((List.range 8).filter (fun k => (s.dec n).slotReleased.getD k false)) (fun k s => s.giveBack n k) s) s

def formDecRelease : Form := { op := 0x0A04, lo := 4, hi := 4, reserved := [(2, 2)] }

def decReleaseBody (c : Cmd) (s : State) : State :=
  let n := fld c.payload 0 1
  let k := fld c.payload 1 1
  if !s.liveDec n then s.badField c 0
  else if (s.dec n).slots.getD k 0 ≠ 2 || (s.dec n).slotReleased.getD k false then s.badField c 1
  else (s.giveBack n k).ok c []

def execDecRelease (b : Mbox) (s : State) : Host.Outcome State Fault Refusal := .next (s.take b formDecRelease decReleaseBody)

def formDecRecord : Form := { op := 0x0A05, mgmt := true, lo := 8, hi := 8, reserved := [(1, 1)] }

def decRecordBody (c : Cmd) (s : State) : State :=
  let n := fld c.payload 0 1
  let k := fld c.payload 2 2
  let first := fld c.payload 4 4
  if !s.liveDec n then s.badField c 0
  else if k = 0 || 255 < k then s.badField c 2
  else
    s.reply c stOk [] (some ((List.range k).map (fun i =>
      match (s.dec n).records.find? (fun r => r.1 == (first + i) % 2 ^ 32) with
      | some r => r.2
      | none => le 4 0xFFFFFFFF ++ zeros 60)).flatten)

def execDecRecord (b : Mbox) (s : State) : Host.Outcome State Fault Refusal := .next (s.take b formDecRecord decRecordBody)

def formDecRead : Form := { op := 0x0A06, lo := 24, hi := 24, reserved := [(2, 2), (12, 4)] }

/-- R448's row gives the layout: stream, slot, first tile at 4, count at 8, host address at 16. -/
def decReadBody (c : Cmd) (s : State) : State :=
  let p := c.payload
  let n := fld p 0 1
  let k := fld p 1 1
  let e := (s.dec n).ent
  let tiles := decTilesX e * decTilesY e
  if !s.liveDec n then s.badField c 0
  else if (s.dec n).slots.getD k 0 ≠ 2 then s.badField c 1
  else if tiles < fld p 4 4 then s.badField c 4
  else if fld p 8 4 = 0 || tiles < fld p 4 4 + fld p 8 4 || 268435456 < fld p 8 4 * 2048 then s.badField c 8
  else if fld p 16 8 % 64 ≠ 0 then s.badField c 16
  else
    (s.accept c n [k, fld p 4 4, fld p 8 4]).updDec n fun d => { d with slotReads := upd d.slotReads k (· + 1) }

def execDecRead (b : Mbox) (s : State) : Host.Outcome State Fault Refusal := .next (s.take b formDecRead decReadBody)

end Sys2Proof.Machine
end

