-- ==== Sys2Proof/Machine/Work.lean ====
section
/-! DEFINITION. The firmware's own work between commands (R52): creating the jobs of frames, admitting, ending and retiring
jobs, releasing units, and freeing what nothing needs any more. -/

namespace Sys2Proof.Machine

open Sys2Proof

/-! ## Creating the jobs of a frame (R299, R300, R398, R452) -/

/-- The open frame that a record describes. -/
def State.openOf (s : State) (f : Frame) : Option OpenFrame :=
  (s.sensors.map (·.openFrames)).flatten.find? (fun o => o.ctx == f.ctx && o.seq == some f.seq)

/-- Band b of a frame has landed (R29). -/
def State.hasLanded (s : State) (f : Frame) (b : Nat) : Bool :=
  f.closed || (match s.openOf f with | some o => o.bandDone f.height b | none => false)

/-- Jobs may be created now: band by band, or once the frame has closed and was not refused (R300). -/
def Frame.mayCut (f : Frame) : Bool :=
  f.creating && f.slot.isSome &&
    (f.state == 1 || (f.state == 0 && fld ((payloadIn f.blocks 0x0201 f.ctx).getD []) 10 2 == 0))

/-- Steep's band jobs of the bands that have landed. -/
def State.cutSteep (s : State) (f : Frame) : State :=
  let b := ctxBlocks f.blocks f.ctx
  let landed := (List.range (tilesY f.height)).filter (s.hasLanded f)
  let s := if (steepEnabled b || !(encsOf b).isEmpty) && !landed.isEmpty then s.beginDev f else s
  match s.devOf f.ctx f.seq with
  | none => s
  | some d =>
    if !steepEnabled b then s
    else
      let cls := s.bestClass (s.devStreams b f.ctx)
      let dl := s.deadlineOf b cls (f.fsTbm / 2 ^ 32)
      each (landed.filter (fun k => !d.steepMade.testBit k)) (fun k s => s.cutBand d k cls dl) s

/-- One Mash job with the units of the tile rows that it anchors. -/
def State.makeMash (s : State) (d : FrameDev) (k : Nat) : State :=
  let cls := s.bestClass (s.devStreams d.blk d.ctx)
  let dl := s.deadlineOf d.blk cls (d.frame.fsTbm / 2 ^ 32)
  let id := s.nextJob
  let todo : List (List Byte × Nat × Nat) := ((d.anchors k).map (fun a =>
    ((s.mashStreams d.ctx (fld a.1 0 1)).filter (fun n => (s.stream n).feeds d.seq)).map (fun n => (a.1, a.2, n)))).flatten
  let (nums, s) := todo.foldl (fun (a : List (Nat × Nat) × State) x =>
    let (e, t, n) := x
    (a.1 ++ [(n, (a.2.stream n).nextUnit)], a.2.addUnit n (unitOf d.frame id 0 t (outTilesY e) dl))) (([] : List (Nat × Nat)), s)
  s.cutMash d k cls dl nums

/-- Mash jobs of the next bands whose Steep jobs exist, in ascending order. -/
def State.cutMashes (s : State) (f : Frame) : State :=
  match s.devOf f.ctx f.seq with
  | none => s
  | some d =>
    if !mashEnabled d.blk then s
    else
      let todo := (List.range d.bands).filter (fun k => !d.mashMade.testBit k)
      each (todo.takeWhile (fun k => (d.mashBands k).all d.steepMade.testBit)) (fun k s => s.makeMash d k) s

/-- The encoding has met the frame: it codes it, waits with it, or has coded it. -/
def Encoding.knows (x : Encoding) (f : Frame) : Bool :=
  x.pics.any (fun p => p.ctx == f.ctx && p.seq == f.seq) || x.waiting.contains f.seq ||
    x.records.any (fun r => fld r.2 4 4 == f.seq.toNat)

/-- A frame meets an encoding of its context. -/
def State.cutEnc (s : State) (f : Frame) (x : Nat × Nat × List Byte) : State :=
  let (e, codec, ent) := x
  let e := s.encIndex f e
  let y := s.enc e
  if y.ctx ≠ some f.ctx || y.knows f || (s.devOf f.ctx f.seq).isNone then s
  else if codec = 0 || fld ent 5 1 = 0 then s.newPicture e f ent 0 0 0 false
  else if f.state = 1 then s.updEnc e fun x => { x with waiting := x.waiting ++ [f.seq] }
  else s

/-- Recording streams of a context's raw frames with a take open. -/
def State.rawStreams (s : State) (c : Nat) : List Nat :=
  (List.range 32).filter (fun n =>
    let t := s.stream n
    t.isRecord && t.srcKind == 1 && t.ctxId == c && t.takeOpen && !t.closing)

/-- The units of a raw frame for a stream: nothing computes them, so they are done (R451, R452). -/
def State.addRaw (s : State) (f : Frame) (n : Nat) : State :=
  let b := ctxBlocks f.blocks f.ctx
  let dl := s.deadlineOf b (((s.stream n).consumes).getD 2) (f.fsTbm / 2 ^ 32)
  let k := rawUnits f
  let s := each (List.range k) (fun i s => s.addUnit n { unitOf f 0 f.number.toNat i k dl with done := true }) s
  s.updFrame f.ctx f.seq (fun r => { r with holds := r.holds + k })

/-- The RAW units of a frame that has closed; a BURST ring's wait for the freeze. -/
def State.cutRaw (s : State) (f : Frame) : State :=
  if f.state ≠ 1 || f.rawMade then s
  else
    let ns := if f.mode = 1 then [] else (s.rawStreams f.ctx).filter (fun n => (s.stream n).feeds f.seq)
    (each ns (fun n s => s.addRaw f n) s).updFrame f.ctx f.seq (fun r => { r with rawMade := true })

/-- Every job of a closed frame exists. A superseded one waits only for the pictures that its encodings have still to cut. -/
def State.cutDone (s : State) (f : Frame) : Bool :=
  let b := ctxBlocks f.blocks f.ctx
  let n := tilesY f.height
  let d := s.devOf f.ctx f.seq
  let made (m : FrameDev → Nat) : Bool := match d with | some d => popCount n (m d) == n | none => false
  (f.state == 3 ||
    (f.state == 1 && (!steepEnabled b || made (·.steepMade)) && (!(steepEnabled b && mashEnabled b) || made (·.mashMade)))) &&
    (encsOf b).all (fun x =>
      let y := s.enc (s.encIndex f x.1)
      y.ctx != some f.ctx ||
        (!y.waiting.contains f.seq && y.pics.all (fun p => p.seq != f.seq || p.ctx != f.ctx || p.rows.all (·.made))))

/-- What can be created for a frame now. -/
def State.cutFrame (s : State) (c : Nat) (q : BitVec 32) : State :=
  match s.frame c q with
  | none => s
  | some f =>
    if !f.mayCut then s
    else
      let s := (s.cutSteep f).cutMashes f
      let s := each (encsOf (ctxBlocks f.blocks c)) (fun x s => s.cutEnc f x) s
      s.cutRaw f

/-- The rows of an encoding's pictures, as far as their sources allow. -/
def State.cutEncoding (s : State) (e : Nat) : State :=
  match (s.enc e).ctx with
  | none => s
  | some c =>
    let last := match (s.enc e).replaced with
      | some _ => !s.encComes e
      | none => !s.capturing c && (s.ctx c).frames.all Frame.closed
    let s := s.cutGop e c last ((s.enc e).waiting.length + 1)
    let todo := (s.enc e).pics.filter (fun p => p.rows.any (fun r => !r.made))
    each todo (fun p s =>
      match s.devOf p.ctx p.seq with
      | none => s
      | some d =>
        let landed (b : Nat) : Bool := match s.frame p.ctx p.seq with | some f => s.hasLanded f b | none => true
        s.cutRows e p.number d.frame landed) s

/-- A BURST ring has frozen: one unit for every frame held, oldest first (R452). -/
def State.drainBurst (s : State) (c : Nat) : State :=
  let x := s.ctx c
  if !x.drain then s
  else
    let held := sortBy (fun (a b : Frame) => decide ((a.seq - b.seq).toInt < 0)) x.heldFrames
    let s := s.updCtx c fun y => { y with drain := false }
    each (s.rawStreams c) (fun n s => each held (fun f s => s.addRaw f n) s) s

/-- Every job that can be created now. -/
def State.cutAll (s : State) : State :=
  let s := each (List.range 64) (fun c s =>
    each (((s.ctx c).frames.filter Frame.mayCut).map (·.seq)) (fun q s => s.cutFrame c q) s) s
  let s := each (List.range s.encs.length) (fun e s => s.cutEncoding e) s
  let s := each (List.range 64) (fun c s => s.drainBurst c) s
  let done (f : Frame) : Frame := if f.creating && s.cutDone f then { f with creating := false } else f
  { s with ctxs := s.ctxs.map (fun x => { x with frames := x.frames.map done, refusalLog := x.refusalLog.map done }) }

/-! ## Admission (R203, R341, R386, R411, R426, R456, R465) -/

/-- The staging rings of the row's recording streams have room for its floor row (R462). -/
def State.ringRoom (s : State) (j : Job) : Bool :=
  let f := match (s.enc j.object).pic j.picture with | some p => p.floorOf (s.enc j.object).codec j.unit | none => 0
  j.streams.all (fun p =>
    let t := s.stream p.1
    !(t.isRecord && t.ring) || t.staged + f ≤ stagingBytes t.ent)

/-- A host read of the reference buffer that a frame's bands would overwrite runs (R20, R351). -/
def State.refRead (s : State) (j : Job) : Bool :=
  (s.executing 0x0407 (j.ctx.getD 0)).any (fun e => e.arg 1 == 3 && e.arg 2 == 2 && BitVec.ofNat 32 (e.arg 0) == j.frame - 2)

def State.eligible (s : State) (j : Job) : Bool :=
  s.eligibleCore j &&
    (match j.kind with
     | .steepBand => s.workReady (j.ctx.getD 0) j.frame && !s.refRead j
     | .mashBand => s.outReady (j.ctx.getD 0) j.frame j.unit
     | .xsRow | .hevcRow => s.rowReady j && s.ringRoom j
     | .decPicture => s.decReady j
     | .caskUnit => s.caskReady j
     | .caskManifest => s.manifestReady j
     | .recWrite => s.writeReady j
     | .selftest => j.unit != 1 || !s.mem.migrations.any (fun m => m.page == j.object)
     | _ => true)

def State.admitJob (j : Job) (s : State) : State :=
  let s := s.letIn j
  match j.kind with
  | .steepBand => s.claimWork (j.ctx.getD 0) j.frame
  | .mashBand => s.claimOut (j.ctx.getD 0) j.frame
  | .xsRow | .hevcRow => s.issueRow j
  | .decPicture => s.claimSlot j
  | _ => s

/-! ## The streamer (R470–R472, R686) -/

/-- The streamer job that sends a row of a source frame, or a decoded picture, whose first line or packet is due: it costs its memory
traffic alone. It has C1's deadline while that has not passed, and none after it, as when a frame is repeated (DESIGN CHOICE, assumption
25). `key`: the source picture; `coded`: the bytes of a JPEG XS row. -/
def State.addOut (s : State) (n row key : Nat) (q : BitVec 32) (coded : Nat) (deadline : Option Nanos) : State :=
  let t := s.stream n
  let bytes := if t.srcKind = 2 then (match mashEntry (ctxBlocks (s.frameBlocks t.ctxId q) t.ctxId) t.srcIndex with
      | some e => outTilesX e * 2052
      | none => 0)
    else if t.srcKind = 3 then (let e := (s.dec t.srcIndex).ent; decTilesX e * decTilesY e * 2052)
    else coded
  let j : Job :=
    { Job.make .outUnit 1 with
      object := n, unit := row, args := [row, key, coded], units := [(0x01, bytes)], deadline := deadline.filter (fun d => decide (s.now ≤ d)),
      gen := if t.srcKind = 3 then s.liveNumber else s.frameGen t.ctxId q }
  if t.srcKind = 3 then (s.addJob j).2 else (s.addFrameJob t.ctxId q j).2

/-- A unit's lines or packets leave on the stream's SDI link or Ethernet port. -/
def State.putLines (s : State) (n row how bytes : Nat) : State :=
  if (s.stream n).type = 3 then s.out (.lines n row how) else s.ethOut (.lines n row how) bytes

/-- A streamer job runs: its unit is sent. The first row of a JPEG XS picture carries the RTP timestamp of the last cadence edge
(R471; assumption 25). -/
def State.sendUnit (s : State) (j : Job) : State :=
  let a (k : Nat) : Nat := j.args.getD k 0
  let t := s.stream j.object
  let s := if t.type = 2 && a 0 = 0 then s.out (.rtp j.object t.stamp) else s
  s.putLines j.object (a 0) 0 (a 2)

/-- The gap policy sends a tile row (R470). -/
def State.gapRow (s : State) (n row : Nat) : State :=
  let t := s.stream n
  let how := if fld t.ent 5 1 = 0 && t.lastSent.isSome then 1 else 2
  let s := (s.updStream n fun t =>
    { t with gaps := t.gaps + 1, gapTimes := s.now :: t.gapTimes.filter (fun x => s.now < x + sec 1) }).putLines n row how 0
  let x := s.stream n
  s.raiseLimited x.lastGapEvent (sec 1) 0x0507 (srcStream n) (le 4 x.gapTimes.length ++ le 4 x.repeats ++ le 4 x.drops)
    (fun z s => s.updStream n fun t => { t with lastGapEvent := z })

/-- The ledger has refused a streamer job: its unit is not sent. The gap policy acts for a tile row; of a JPEG XS picture no further
packets leave (R451; DESIGN CHOICE, assumption 25). -/
def State.unsent (s : State) (j : Job) : State :=
  let a (k : Nat) : Nat := j.args.getD k 0
  if (s.stream j.object).type = 2 then s.updStream j.object fun t => { t with sending := some (a 1, 0) }
  else s.gapRow j.object (a 0)

/-! ## The end of jobs (R42, R46, R175) -/

/-- A targeted test whose job the ledger refused waits again within its 60 s (R646). -/
def State.testWaits (s : State) (j : Job) : State :=
  s.updObs fun o => { o with tests := o.tests.map (fun t =>
    if t.running && t.entries.head? == j.args.head? then { t with running := false } else t) }

/-- What the end of a job tells its owner. `bytes`: the coded row. -/
def State.onEnd (s : State) (j : Job) (status : Nat) (bytes : List Byte) : State :=
  let bad := status = stHwFault || isRefusal status
  let s := match j.kind with
    | .steepBand => s.bandEnded j (!bad)
    | .mashBand => (s.mashEnd j (!bad)).endUnits j bad [] status
    | .xsRow | .hevcRow => (s.rowEnded j status).endUnits j bad bytes status
    | .flicker => s.flickEnded j j.outcome (isRefusal status)
    | .selftest => if isRefusal status then s.testWaits j else s
    | .outUnit => if isRefusal status then s.unsent j else s
    | _ => s
  match j.ctx with
  | some c => if status = stHwFault then s.probationFail 1 c else s
  | none => s

/-- A job retires: its outcome is recorded, and its tag is free (R35, R210). -/
def State.retireJob (s : State) (j : Job) : State :=
  let s := (s.deliver j j.outcome).sample j
  let s : State := { s with jobs := s.jobs.filter (fun x => x.id != j.id) }
  let s := match j.ctx with
    | some c => if !j.counted then s else s.updFrame c j.frame (fun f => { f with jobsPending := f.jobsPending - 1, retired := f.retired + 1 })
    | none => s
  match j.kind with
  | .steepBand => s.bandRetired j
  | .mashBand => s.mashRetired j
  | .xsRow | .hevcRow => s.rowRetired j
  | .decPicture => s.decRetired j
  | .barrel => s.brlRetired j
  | .migration =>
    match s.mem.migrations.find? (fun m => m.job == j.id) with
    | some m => if j.tag.isSome then s.endMigration m else s
    | none => s
  | _ => s

/-- A refused job holds no tag and retires at once (R208). -/
def Job.isRefused (j : Job) : Bool := j.st == .complete && j.tag.isNone

def State.retireRefused (s : State) : State :=
  each (s.jobs.filter Job.isRefused) (fun j s => (s.onEnd j j.status []).retireJob j) s

/-- Work that the ledger has refused and that must be done is created again, without a deadline (R512, R682). -/
def State.recreate (s : State) : State :=
  let gone (s : State) (id : Nat) : Bool := (s.job id).isNone
  let s := each (List.range 32) (fun n s =>
    let t := s.stream n
    let s := each (t.recs.filter (fun r => !r.sealed && gone s r.job)) (fun r s =>
      let (id, s) := s.addUnitJob { s.caskJob n r with deadline := none }
      s.updStream n fun t => { t with recs := t.recs.map (fun x => if x.index = r.index then { x with job := id } else x) }) s
    each t.stripes (fun z s =>
      each (z.pieces.filter (fun p => p.st == 0 && gone s p.job)) (fun p s =>
        let (id, s) := s.addUnitJob { s.writeJob n z p with deadline := none }
        s.mapPieces n (fun y q => if y.index = z.index && y.isSeal = z.isSeal && q.job = p.job then { q with job := id, again := true } else q)) s) s) s
  let owed := s.trust.sealQueue.length - (s.jobs.filter (fun j => j.kind == .caskManifest)).length
  let s := each ((s.trust.sealQueue.reverse.take owed).reverse) (fun n s =>
    let body := ((s.stream n).unsigned.map (·.bytes)).getD []
    (s.addJob { Job.make .caskManifest (s.stream n).sealClass with object := n, units := manifestUnits body }).2) s
  each (s.mem.migrations.filter (fun m => gone s m.job)) (fun m s => s.againMigration m) s

/-! ## Released units (R45, R46, R451, R470) -/

/-- Key of the source picture of a unit among those that a stream may send. -/
def Stream.keyOf (t : Stream) (u : StreamUnit) : Nat := if t.srcKind = 3 then u.picture else u.frame.toNat

/-- A JPEG XS row leaves as packets; after a gap no further packets of that picture do (R451). -/
def State.sendRow (s : State) (n : Nat) (u : StreamUnit) : State :=
  let t := s.stream n
  if u.gap ≠ 0 then s.updStream n fun t => { t with sending := some (u.picture, 0) }
  else if t.sending.any (fun x => x.1 == u.picture) then s
  else s.addOut n u.row u.picture u.frame u.bytes.length u.deadline

/-- A tile row of a Mash output that its frame's row map marks missing; the stream's gap policy acts for it (R387, R470). -/
def State.rowGone (s : State) (t : Stream) (u : StreamUnit) : Bool :=
  t.srcKind = 2 && ((s.devOf t.ctxId u.frame).bind (·.outFrame t.srcIndex)).any (·.missing.testBit u.row)

/-- A tile row, or a decoded picture, may be sent from now on, unless it is a gap or is marked missing; one whose lines have been
sent already is late (R469, R470). -/
def State.readyUnit (s : State) (n : Nat) (u : StreamUnit) : State :=
  let t := s.stream n
  let k := t.keyOf u
  let sentLines := t.sending.any (fun x => x.1 == k && u.row < x.2) || t.lastSent == some k
  if sentLines then s.updStream n fun t => { t with late := t.late + 1 }
  else
    let here := u.gap = 0 && !s.rowGone t u
    let b := if here then 2 ^ u.row else 0
    s.updStream n fun t =>
      if t.ready.any (fun r => r.1 == k) then
        { t with ready := t.ready.map (fun r => if r.1 = k then (r.1, r.2.1, r.2.2 ||| b) else r) }
      else { t with ready := t.ready ++ [(k, u.fsTbm, b)] }

def State.releaseUnit (s : State) (n : Nat) (u : StreamUnit) : State :=
  let t := s.stream n
  let s := if u.gap = stRefusedDeadline && t.type ≠ 0 then s.probationFail 3 t.ctxId else s
  if t.type = 0 then s.recordUnit n u
  else if t.type = 2 then s.sendRow n u
  else s.readyUnit n u

/-- Release the units at the head that are done. -/
def State.pumpUnits (s : State) (n : Nat) : Nat → State
  | 0 => s
  | fuel + 1 =>
    match (s.stream n).units with
    | [] => s
    | u :: rest =>
      if !u.done then s
      else
        let s := s.updStream n fun t => { t with units := rest, headSince := s.now }
        (s.releaseUnit n u).pumpUnits n fuel

/-- The head unit has not completed within the head timeout: it is released as a gap (R48, R417). -/
def State.headTimeout (s : State) (n : Nat) : State :=
  match (s.stream n).units with
  | [] => s
  | u :: rest =>
    if u.done || decide (s.now < (s.stream n).headSince + ms (s.stream n).headTimeoutMs) then s
    else
      let s := s.updStream n fun t => { t with units := rest, headSince := s.now }
      let s := match s.job u.job with
        | some j => if j.kind == JobKind.hevcRow then s.loseRow j.object j.picture j.unit stRefusedDeadline else s
        | none => s
      s.releaseUnit n { u with done := true, gap := stRefusedDeadline, status := stRefusedDeadline }

/-! ## Freeing (R299, R306, R341, R386, R683) -/

/-- Working frames that nothing needs (R341). -/
def FrameDev.workDone (d : FrameDev) : Bool :=
  popCount d.bands d.steepRetired == d.bands && (!mashEnabled d.blk || popCount d.bands d.mashRetired == d.bands) && d.reads == 0

/-- An encoding of an output has still to code the frame, or some row of it. -/
def State.encWants (s : State) (d : FrameDev) (out : Nat) : Bool :=
  let comes := match s.frame d.ctx d.seq with | some f => f.creating | none => false
  (encsOf d.blk).any (fun x =>
    let y := s.enc (s.encIndex d.frame x.1)
    fld x.2.2 1 1 == out + 1 && y.ctx == some d.ctx &&
      (y.waiting.contains d.seq || y.pics.any (fun p => p.seq == d.seq && !p.rows.all (·.ended)) || (comes && !y.knows d.frame)))

/-- An output frame that nothing needs (R386): the Mash jobs that write it, the rows and output units that read it, and the host's
reads have ended. -/
def State.outDone (s : State) (d : FrameDev) (x : OutFrame) : Bool :=
  let writers := (List.range d.bands).filter (fun b => (d.anchors b).any (fun a => fld a.1 0 1 == x.out))
  let streams := (List.range 32).filter (fun n =>
    (s.stream n).srcKind == 2 && (s.stream n).ctxId == d.ctx && (s.stream n).srcIndex == x.out)
  writers.all d.mashEnded.testBit && x.reads == 0 && !s.encWants d x.out &&
    streams.all (fun n =>
      let t := s.stream n
      !t.units.any (fun u => u.frame == d.seq) && !t.ready.any (fun r => r.1 == d.seq.toNat) &&
        !t.sending.any (fun r => r.1 == d.seq.toNat)) &&
    !s.jobs.any (fun j => j.kind == .outUnit && j.ctx == some d.ctx && j.frame == d.seq && streams.contains j.object && j.st != .complete)

/-- Nothing of a frame's development is left to do or to read. -/
def State.devDone (s : State) (d : FrameDev) : Bool :=
  d.workFrame.isNone && d.outFrames.isEmpty && d.reads == 0 &&
    !(match s.frame d.ctx d.seq with | some f => f.creating | none => false) &&
    !s.jobs.any (fun j => j.ctx == some d.ctx && j.frame == d.seq)

def State.freeDev (s : State) : State :=
  let s : State := { s with dev := s.dev.map (fun d =>
    { d with workFrame := if d.workDone then none else d.workFrame, outFrames := d.outFrames.filter (fun x => !s.outDone d x) }) }
  { s with dev := s.dev.filter (fun d => !s.devDone d) }

/-- A released frame leaves once its slot is free; CAP_RELEASE completes, and re-arms (R306). -/
def State.pumpRelease (s : State) (c : Nat) : State :=
  let s := s.updCtx c fun x => { x with frames := x.frames.filter (fun f => !(f.state == 4 && f.isFree)) }
  each (s.executing 0x0405 c) (fun e s =>
    let x := s.ctx c
    let named := e.args.drop 1
    let rearm := bit (e.args.getD 0 0) 0 && x.st == .frozen
    let held := x.frames.any (fun f => f.state == 4 && named.contains f.seq.toNat)
    if held || (rearm && x.freeSlots.length < x.slotCount) then s
    else
      let s := if rearm then s.updCtx c Context.afresh else s
      (s.raise 0x0409 (srcCtx c) (le 4 named.length ++ le 1 (b2n rearm))).finish e stOk [] none) s

/-- The ring shrinks to its quota when no frame that still holds its slot lies beyond it (R683). -/
def State.shrinkRing (s : State) (c : Nat) : State :=
  let x := s.ctx c
  let busy := x.frames.filter (fun f => !f.isFree)
  let extent := (busy.map (fun f => f.addr + f.slotSize - x.ringBase)).foldl max 0
  match s.regionOf 0 c, s.inForce 0x0203 c with
  | some r, some land =>
    let need := max (quotaBytes land) extent
    if ceilDiv need pageBytes < r.pages then
      (s.alloc 0 c 0 need).updCtx c fun y => { y with frames := y.frames.filter (fun f => !f.isFree || f.addr + f.slotSize ≤ y.ringBase + need) }
    else s
  | some _, none => if busy.isEmpty then (s.release 0 c).updCtx c fun y => { y with frames := [] } else s
  | none, _ => s

/-- Final outcomes of the frames of a context (R320). -/
def State.countFinals (s : State) (c : Nat) : State :=
  let x := s.ctx c
  each (((x.frames ++ x.refusalLog).filter (fun f => f.closed && f.hasOutcome && !f.finalCounted)).map (·.seq))
    (fun q s => s.countFinal c q) s

/-! ## Generations between frames (R169, R170) -/

/-- Changed blocks of a context that is not capturing apply at once; those of a holding one but for its landing blocks. -/
def State.applyIdle (s : State) (c : Nat) : State :=
  let keys := s.keysOf c
  if keys.isEmpty then s
  else if !s.holding c then (if s.capturing c then s else (s.applyKeys c keys).2)
  else (s.applyKeys c (keys.filter (fun k => k.1 / 256 != 2))).2

/-! ## All of it -/

/-- One round. -/
def State.settleOnce (s : State) : State :=
  let s := s.noteCaptured
  let s := if s.cfg.armed.isSome then (each (List.range 64) (fun c s => s.applyIdle c) s).goLive else s
  let s := s.cutAll.retireRefused
  let s := each (List.range 32) (fun n s => s.pumpUnits n (s.stream n).units.length) s
  let s := each (List.range 32) (fun n s => s.pumpRecord n) s
  let s := each (List.range 4) (fun n s => s.pumpFlush n) s
  let s := s.freeEncs.freeDev.drainLuts.freeDecSlots.retireWaiting
  let s := each (List.range 64) (fun c s => ((s.countFinals c).pumpRelease c).shrinkRing c) s
  s.freeOld

/-- Rounds until no refused job is left to retire; at most `fuel` of them. -/
def State.settleN (s : State) : Nat → State
  | 0 => s
  | fuel + 1 =>
    let s := s.settleOnce
    if s.jobs.any Job.isRefused then s.settleN fuel else s

/-- What the firmware does by itself after an event. -/
def State.settle (s : State) : State := s.settleN 8

end Sys2Proof.Machine
end

