-- ==== Sys2Proof/Machine/Outputs.lean ====
section
/-! DEFINITION. Output streams and the cadence edge (chapters 08, 14 and 17): FSYNC pulses, output frames, the gap policy, and
how a changed STREAM_SET applies. -/

namespace Sys2Proof.Machine

open Sys2Proof

/-! ## Output frames (R469–R471, R686) -/

/-- Latency of R469. -/
def Stream.latency (t : Stream) : Nanos := us (fld t.ent 12 4)
def Stream.divider (t : Stream) : Nat := max 1 (fld t.ent 10 1)

/-- The ready entries that an output frame beginning now may use: by a frame's FS, or by when DEC_OUTPUT was raised, both times on TBM
in units of 2⁻³² ns. -/
def Stream.eligibleAt (t : Stream) (tbm : Nat) (r : Nat × Nat × Nat) : Bool :=
  let time := r.2.1 + t.latency * 2 ^ 32
  if t.srcKind = 3 then decide (time < tbm) else decide (time ≤ tbm)

/-- RTP timestamp of a cadence edge on a network base (R471). -/
def rtpStamp (ns : Rat) : Nat := ((ns * 90000 / 1000000000).floor % (2 ^ 32 : Int)).toNat

/-- Frames per second of an output stream, from TBV's rate and the stream's divider. -/
def State.outRate (s : State) (t : Stream) : Nat :=
  let e := ((s.base 4).entry).getD []
  fld e 24 4 / max 1 (fld e 28 4 * t.divider)

/-- The ST 352 payload identifiers of an SDI output's links, one for each frame and link (R472). -/
def State.putPayloadId (s : State) (n : Nat) : State :=
  let t := s.stream n
  let mode := fld t.ent 17 1
  each (List.range (if mode = 3 then 4 else 1)) (fun l s => s.out (.payloadId n l (Config.st352 mode l (s.outRate t)))) s

/-- An output frame begins at a cadence edge of the stream. -/
def State.beginFrame (s : State) (n : Nat) : State :=
  let t := s.stream n
  let old := t.ready.filter (t.eligibleAt s.time.tbm)
  match old.getLast? with
  | none => s
  | some r =>
    let prev := match t.sending with | some x => some x.1 | none => t.lastSent
    let again := prev == some r.1
    let dropped := (old.dropLast.filter (fun x => prev != some x.1)).length
    let s := s.updStream n fun t =>
      { t with lastSent := prev, sending := some (r.1, 0), ready := t.ready.filter (fun x => !(old.dropLast).contains x),
               repeats := sat 16 (t.repeats + b2n again), drops := sat 16 (t.drops + dropped) }
    if t.type = 1 then s.out (.rtp n t.stamp) else s.putPayloadId n

/-- Tile rows of the output frame made of a source frame, by the blocks which that frame latched (R43). -/
def State.outRows (s : State) (t : Stream) (q : Nat) : Nat :=
  if t.srcKind = 3 then 1
  else match mashEntry (ctxBlocks (s.frameBlocks t.ctxId (BitVec.ofNat 32 q)) t.ctxId) t.srcIndex with
    | some e => outTilesY e
    | none => 1

/-- The first line of the next tile row falls due: a job sends the released unit, or the gap policy acts (R470, R686). -/
def State.firstLine (s : State) (n : Nat) : State :=
  let t := s.stream n
  match t.sending with
  | none => s
  | some (k, row) =>
    if !t.isOutput || t.type = 2 then s
    else
      let more := decide (row + 1 < s.outRows t k)
      let s := match t.ready.find? (fun r => r.1 == k && r.2.2.testBit row) with
        | some r =>
          let q := BitVec.ofNat 32 k
          let deadline := if t.srcKind = 3 then none else s.deadlineOf (ctxBlocks (s.frameBlocks t.ctxId q) t.ctxId) 1 (r.2.1 / 2 ^ 32)
          s.addOut n row k q 0 deadline
        | none => s.gapRow n row
      s.updStream n fun t =>
        if more then { t with sending := some (k, row + 1) } else { t with sending := none, lastSent := some k }

/-! ## The cadence edge (R285, R286, R568) -/

/-- The parts of a re-phase that waited for the edge. -/
def State.applyShift (s : State) : State :=
  match (s.base 4).toApply with
  | none => s
  | some d =>
    let whole := (s.base 4).rephased
    let s := s.updBase 4 fun x => { x with toApply := none, rephased := 0 }
    (if d = 0 then s else s.moveBase 4 d).touchStep 4 3 whole

/-- Divider of a SENSOR_SET entry. -/
def fsyncDivider (e : Option (List Byte)) : Nat := max 1 (fld (e.getD []) 9 1)

/-- FSYNC_OUT of each sensor at a cadence edge. A changed entry takes over at the first edge that its divider selects, and the old one
goes on until then (R286); the output is driven once its sensor's rails are up (R66), and a disabled one is released (R285). -/
def State.fsyncEdge (s : State) (count : Nat) : State :=
  each (List.range 16) (fun n s =>
    let x := s.sensor n
    let s := if count % fsyncDivider x.entry = 0 then s.updSensor n fun x => { x with fsyncOn := x.entry } else s
    match (s.sensor n).fsyncOn with
    | none => s.releasePins (.fsync n)
    | some e =>
      if fld e 8 1 != 1 then s.releasePins (.fsync n)
      else if x.railsUp then
        let s := s.drivePins (.fsync n)
        if count % fsyncDivider (some e) = 0 then s.out (.fsync n (fld e 12 4) (10 * fld e 10 2)) else s
      else s) s

/-- A cadence edge of TBV. Edges are counted from the moment its entry applies. -/
def State.cadenceEdge (s : State) : State :=
  if (s.base 4).entry.isNone then s
  else
    let s := s.updBase 4 fun x => { x with lastEdge := x.lastEdge + 1 }
    let count := (s.base 4).lastEdge.toNat
    let s := s.applyShift.fsyncEdge count
    each (List.range 32) (fun n s =>
      let t := s.stream n
      if t.isOutput && t.enable && count % t.divider = 0 then
        let s := s.updStream n fun t => { t with stamp := rtpStamp (s.base (fld t.ent 44 1)).ns }
        if t.type = 2 then s else s.beginFrame n
      else s) s

/-! ## A changed STREAM_SET applies (R480) -/

/-- The entry of a stream changes: what it held of its old source goes, but for grants, reports and counters; its staging ring
follows (R462). -/
def State.applyStream (s : State) (n : Nat) (e : Option (List Byte)) : State :=
  let t := s.stream n
  if t.entry = e || t.takeOpen then s
  else (s.sizeRange 7 n 3 (stagingBytes (e.getD []))).updStream n fun t =>
    { t with entry := e, st := .idle, stallCause := 0, units := [], ready := [], sending := none, lastSent := none,
             headSince := s.now }

def State.applyStreams (s : State) (p : List Byte) : State :=
  (each (List.range 32) (fun n s => s.applyStream n (streamEntry p n)) s).updSdi

end Sys2Proof.Machine
end

