-- ==== Sys2Proof/Machine/Rules.lean ====
section
/-! DEFINITION. The payload rules that validation checks first (R164, BLOCK_CONTENT): for each block the offset of the first
field at fault, as the chapter that owns its type gives them. Blocks of the sensor lanes, the link, landing and Steep stand
here; the others in RulesMore. -/

namespace Sys2Proof.Machine

open Sys2Proof

/-! ## Checks of one field -/

/-- The first fault of a list. -/
def faults (l : List (Option Nat)) : Option Nat := l.findSome? id

/-- A condition on the field at an offset. -/
def want (ok : Bool) (off : Nat) : Option Nat := if ok then none else some off

/-- An unsigned field within bounds. -/
def within (p : List Byte) (off n lo hi : Nat) : Option Nat := want (decide (lo ≤ fld p off n) && decide (fld p off n ≤ hi)) off

/-- A field that is 0, which selects a default, or within bounds. -/
def zeroOr (p : List Byte) (off n lo hi : Nat) : Option Nat :=
  want (fld p off n == 0 || (decide (lo ≤ fld p off n) && decide (fld p off n ≤ hi))) off

/-- A field that is one of some values. -/
def among (p : List Byte) (off n : Nat) (vs : List Nat) : Option Nat := want (vs.contains (fld p off n)) off

/-- A signed byte within bounds. -/
def withinInt (p : List Byte) (off : Nat) (lo hi : Int) : Option Nat :=
  want (decide (lo ≤ sfld p off 1) && decide (sfld p off 1 ≤ hi)) off

/-- Payload length exactly n; the fault stands at the field after it. -/
def exactly (p : List Byte) (n : Nat) : Option Nat := want (p.length == n) (min p.length n)

/-- Reserved ranges. -/
def zeroed (p : List Byte) (l : List (Nat × Nat)) : Option Nat := firstNonZero p l

/-- A finite binary32 field that meets a condition. -/
def real (p : List Byte) (off : Nat) (ok : Rat → Bool) : Option Nat :=
  want (match f32 p off with | some v => ok v | none => false) off

/-- Some finite binary32 fields in a row. -/
def reals (p : List Byte) (off n : Nat) : Option Nat := faults ((List.range n).map (fun k => real p (off + 4 * k) (fun _ => true)))

/-- A fault of an entry, as an offset in the payload. -/
def shifted (base : Nat) (r : Option Nat) : Option Nat := r.map (· + base)

/-- A counted payload of entries of one size: count, length, reserved bytes, and each entry in turn. -/
def table (p : List Byte) (size lo hi : Nat) (f : List Byte → Option Nat) : Option Nat :=
  let n := fld p 0 4
  match faults [within p 0 4 lo hi, want (p.length == 8 + size * n) 0, zeroed p [(4, 4)]] with
  | some off => some off
  | none => faults ((List.range n).map (fun k => shifted (8 + size * k) (f (sub p (8 + size * k) size))))

/-- Keys that appear twice: the fault is the later entry's field. -/
def twice (keys : List Nat) (at_ : Nat → Nat) : Option Nat :=
  faults ((numbered keys).map (fun x => want (!(keys.take x.1).contains x.2) (at_ x.1)))

/-- One entry field that no two entries share. -/
def unique (p : List Byte) (size key : Nat) : Option Nat :=
  twice ((entriesFrom p 8 size (fld p 0 4)).map (fun e => fld e key 1)) (fun k => 8 + size * k + key)

/-! ## SHROUD_SET (R254, R255) -/

def shroudEntries (bs : List Block) : List (List Byte) :=
  let p := (payloadIn bs 0x0101 globalTarget).getD []
  entriesFrom p 8 32 (fld p 0 4)

def shroudEntryRule (e : List Byte) : Option Nat :=
  let nrz := fld e 4 1 == 1
  let fixed := bit (fld e 7 1) 3
  faults
    [within e 0 1 0 55, within e 1 1 0 15, within e 2 1 0 55, among e 3 1 [1, 2, 4, 8, 16], within e 4 1 0 1, within e 5 1 0 4,
     want (decide (fld e 6 1 ≤ 2) && (!nrz || fld e 6 1 == 0)) 6, within e 7 1 0 15,
     want (if nrz then decide (1000 ≤ fld e 8 4) && decide (fld e 8 4 ≤ 8000) && fld e 8 4 % 250 == 0
       else [2000, 4000, 8000].contains (fld e 8 4)) 8,
     want (fld e 12 2 == 0 || popCount 16 (fld e 12 2) == fld e 3 1) 12, within e 14 1 0 (if fixed then 15 else 0),
     zeroed e [(15, 1)], zeroOr e 16 4 10 10000, zeroed e [(20, 12)]]

def shroudSetRule (p : List Byte) : Option Nat :=
  let es := entriesFrom p 8 32 (fld p 0 4)
  match table p 32 1 56 shroudEntryRule with
  | some off => some off
  | none =>
    faults ([unique p 32 0] ++ (numbered es).map (fun x =>
      let e := x.2
      let mates := es.filter (fun y => fld y 1 1 == fld e 1 1)
      let first := (mates.head?).getD e
      shifted (8 + 32 * x.1) (faults
        [want (decide (fld e 2 1 < mates.length) &&
           (mates.filter (fun y => fld y 2 1 == fld e 2 1)).length == 1) 2,
         want (fld e 3 1 == fld first 3 1) 3, want (fld e 4 1 == fld first 4 1) 4, want (fld e 8 4 == fld first 8 4) 8])))

/-! ## LINK_CONTEXT (R278, R279) and LANDING_CONTEXT (R316, R321, R322) -/

def linkRule (bs : List Block) (target : Nat) (p : List Byte) : Option Nat :=
  faults
    [exactly p 64, within p 0 1 0 15, within p 1 1 0 15, within p 2 1 0x28 0x30, within p 3 1 0 3,
     want (decide (1 ≤ linkWidth p) && decide (linkWidth p ≤ 32768) && linkWidth p * linkDepth p % 8 == 0) 4,
     within p 6 2 1 32768, want (decide (linkPad p < 2 ^ linkDepth p)) 8, zeroOr p 12 4 2 10000000, within p 16 4 0 4194304,
     zeroed p [(20, 44)],
     want (!(bs.any (fun b => b.type == 0x0201 && b.target < target && fld b.payload 0 2 == fld p 0 2))) 1]

/-- Contexts of a list of blocks that land: context, LINK_CONTEXT and LANDING_CONTEXT. -/
def landings (bs : List Block) : List (Nat × List Byte × List Byte) :=
  bs.filterMap (fun b => if b.type == 0x0201 then
    (payloadIn bs 0x0203 b.target).map (fun l => (b.target, b.payload, l)) else none)

/-- Configured ingest of a sensor's contexts against its lanes (R316), in bytes per 1,000 s. -/
def sensorFits (bs : List Block) (sensor : Nat) : Bool :=
  let lanes := ((shroudEntries bs).filter (fun e => fld e 1 1 == sensor)).map (fun e => fld e 3 1)
  let rate := (((landings bs).filter (fun x => fld x.2.1 0 1 == sensor)).map (fun x => ingestMilli x.2.1 x.2.2)).sum
  lanes.isEmpty || decide (rate ≤ lanes.sum * 1937500000000)

def landingRule (bs : List Block) (target : Nat) (l : List Byte) : Option Nat :=
  let mode := fld l 0 1
  match faults
    [exactly l 32, within l 0 1 0 2, within l 1 1 0 4, within l 2 1 0 (if mode = 1 then 4 else 0), within l 3 1 0 2,
     within l 4 4 1 90112, want (mode == 1 || fld l 8 4 == 0) 8, within l 12 4 1 2000000000, zeroed l [(16, 16)]] with
  | some off => some off
  | none =>
    match payloadIn bs 0x0201 target with
    | none => none
    | some p =>
      let n := slotCount p l
      faults
        [want (decide ((if mode = 2 then 1 else 2) ≤ n)) 4, want (mode != 1 || decide (fld l 8 4 + 2 ≤ n)) 8,
         want (sensorFits bs (fld p 0 1)) 12]

/-! ## SENSOR_SET (R280, R287) -/

/-- The TIME_BASE entry of a base. -/
def timeEntry (bs : List Block) (base : Nat) : Option (List Byte) :=
  let p := (payloadIn bs 0x0A02 globalTarget).getD []
  (entriesFrom p 8 64 (fld p 0 4)).find? (fun e => fld e 0 1 == base)

/-- TBV's cadence period in ns, exact, by a generation's own entry. -/
def cadencePeriod (bs : List Block) : Option Rat :=
  (timeEntry bs 4).bind (fun e => if fld e 24 4 = 0 then none else some (((fld e 28 4 * 1000000000 : Nat) : Rat) / (fld e 24 4 : Nat)))

def sensorEntryRule (bs : List Block) (e : List Byte) : Option Nat :=
  let mode := fld e 1 1
  let (lo, hi) : Nat × Nat := match mode with | 1 => (1000, 12500) | 2 => (100, 1000) | 3 => (100, 400) | _ => (0, 0)
  let d := max 1 (fld e 9 1)
  faults
    [within e 0 1 0 15, within e 1 1 0 3, if mode = 0 then within e 2 1 0 0 else within e 2 1 0x08 0x77,
     if mode = 1 then within e 3 1 0x08 0x3D else within e 3 1 0 0, within e 4 4 lo hi, within e 8 1 0 1, within e 10 2 1 65535,
     within e 12 4 0 999999999,
     match cadencePeriod bs with
     | some p => want (decide (((fld e 12 4 : Nat) : Rat) < (d : Nat) * p - (10 * fld e 10 2 : Nat))) 12
     | none => none]

def sensorSetRule (bs : List Block) (p : List Byte) : Option Nat :=
  faults [table p 16 1 16 (sensorEntryRule bs), unique p 16 0]

/-! ## Steep (R353–R358) -/

/-- Planes that the plane map gives the positions of a p × p period. -/
def planeAt (core : List Byte) (a b : Nat) : Nat := fld core 4 4 / 4 ^ (4 * a + b) % 4

def planeMapOk (core : List Byte) : Bool :=
  let p := cfaPeriod core
  (List.range 4).all (fun a => (List.range 4).all (fun b =>
    if a < p && b < p && p != 1 then decide (planeAt core a b < fld core 2 1) else planeAt core a b == 0))

def planeRule (core : List Byte) (depth q : Nat) : Option Nat :=
  let o := 32 + 20 * q
  if q < fld core 2 1 then
    faults [real core o (fun v => decide (0 < v)), real core (o + 4) (fun v => decide (0 ≤ v)), reals core (o + 8) 2,
            want (decide (fld core (o + 16) 2 < 2 ^ depth)) (o + 16), zeroed core [(o + 18, 2)]]
  else zeroed core [(o, 20)]

/-- STATIC_DEFECTS, LINE_OFFSETS and FLAT_FIELD need their blocks. -/
def mapsHeld (bs : List Block) (target : Nat) (core : List Byte) : Bool :=
  let has (flag type : Nat) : Bool := !bit (fld core 0 1) flag || (blockIn bs type target).isSome
  has 4 0x0303 && has 5 0x0302 && has 6 0x0304

def coreRule (bs : List Block) (target : Nat) (c : List Byte) : Option Nat :=
  let link := (payloadIn bs 0x0201 target).getD []
  faults
    ([exactly c 112, within c 0 1 0 127, within c 1 1 0 2, within c 2 1 1 4, within c 3 1 1 3, want (planeMapOk c) 4,
      within c 8 2 1 128, within c 10 2 0 256, within c 12 1 0 15, within c 13 1 4 64, within c 14 1 1 254,
      within c 15 1 (fld c 14 1 + 1) 255, within c 16 2 16 1024, within c 18 2 0 32767,
      want (fld c 20 4 == 0 || (match f32 c 20 with | some v => decide (0 < v) && decide (v ≤ 256) | none => false)) 20,
      within c 26 1 0 8, zeroed c [(28, 4)]] ++
     (List.range 4).map (planeRule c (linkDepth link)) ++
     [want (fld c 1 1 != 2 || (decide (8 ≤ linkWidth link) && decide (8 ≤ linkHeight link))) 1, want (mapsHeld bs target c) 0])

def lineOffsetsRule (link p : List Byte) : Option Nat :=
  let n := 8 + 2 * (linkHeight link + linkWidth link)
  faults [within p 0 2 (linkHeight link) (linkHeight link), within p 2 2 (linkWidth link) (linkWidth link), zeroed p [(4, 4)],
          exactly p (roundUp n 4), zeroed p [(n, roundUp n 4 - n)]]

/-- Entries in ascending order by row and column, within the frame: the number of the first at fault. -/
def defectFault (link : List Byte) : Nat → List Nat → Option Nat → Option Nat
  | _, [], _ => none
  | k, e :: es, last =>
    let ok := decide (e / 65536 < linkHeight link) && decide (e % 65536 < linkWidth link) &&
      (match last with | some l => decide (l < e) | none => true)
    if ok then defectFault link (k + 1) es (some e) else some k

def words : Nat → List Byte → List Nat
  | 0, _ => []
  | n + 1, p => leNat (p.take 4) :: words n (p.drop 4)

def defectsRule (link p : List Byte) : Option Nat :=
  let n := fld p 0 4
  match faults [within p 0 4 0 524286, zeroed p [(4, 4)], want (p.length == 8 + 4 * n) 0] with
  | some off => some off
  | none => (defectFault link 0 (words n (p.drop 8)) none).map (fun k => 8 + 4 * k)

def gainRule (core link p : List Byte) : Option Nat :=
  let cell := 2 ^ fld p 0 1
  let cols := (linkWidth link - 1) / cell + 2
  let rows := (linkHeight link - 1) / cell + 2
  let n := 16 + 2 * fld p 1 1 * cols * rows
  faults [within p 0 1 4 9, within p 1 1 (fld core 2 1) (fld core 2 1), within p 2 2 cols cols, within p 4 2 rows rows,
          zeroed p [(6, 10)], exactly p (roundUp n 4), zeroed p [(n, roundUp n 4 - n)]]

/-- Whether f_lo < f_hi (R347) for a profile of N samples T seconds apart. -/
def bandExists (fk : List Byte) (n : Nat) (t : Rat) : Bool :=
  let lo : Rat := (if fld fk 24 4 = 0 then 40000 else fld fk 24 4 : Nat) / (1000 : Rat)
  let hi : Rat := (if fld fk 28 4 = 0 then 20000000 else fld fk 28 4 : Nat) / (1000 : Rat)
  decide (0 < n) && decide (0 < t) && decide (max lo (3 / (2 * (n : Nat) * t)) < min hi (1 / (2 * t)))

def flickerRule (bs : List Block) (target : Nat) (p : List Byte) : Option Nat :=
  let link := (payloadIn bs 0x0201 target).getD []
  let land := (payloadIn bs 0x0203 target).getD []
  let per := cfaPeriod ((payloadIn bs 0x0301 target).getD [])
  let start := fld p 2 2
  let width := fld p 4 2
  let rate : Rat := (fld land 12 4 : Nat) / (1000 : Rat)
  let line : Rat := if fld p 8 4 = 0 then 1 / (rate * (linkHeight link : Nat)) else (fld p 8 4 : Nat) / (1000000000000 : Rat)
  let hi := if fld p 28 4 = 0 then 20000000 else fld p 28 4
  let lo := if fld p 24 4 = 0 then 40000 else fld p 24 4
  faults
    [exactly p 32, within p 0 1 0 3, zeroed p [(1, 1)], want (decide (start < linkWidth link)) 2,
     want (decide (start + width ≤ linkWidth link)) 4, zeroOr p 6 2 1 255, zeroOr p 12 4 256 65536, within p 16 2 1 1024,
     within p 18 2 16 4096, zeroed p [(22, 2)], zeroOr p 24 4 40000 20000000,
     want (fld p 28 4 == 0 || (decide (lo < hi) && decide (hi ≤ 20000000))) 28,
     want (!bit (fld p 0 1) 0 || bandExists p (ceilDiv (linkHeight link) per) ((per : Nat) * line)) 24,
     want (!bit (fld p 0 1) 1 || bandExists p (seriesLength p) ((fld p 16 2 : Nat) / rate)) 24]

/-- The rules of Steep's blocks. -/
def steepRule (bs : List Block) (b : Block) : Option Nat :=
  let link := (payloadIn bs 0x0201 b.target).getD []
  let core := (payloadIn bs 0x0301 b.target).getD []
  match b.type with
  | 0x0301 => coreRule bs b.target b.payload
  | 0x0302 => lineOffsetsRule link b.payload
  | 0x0303 => defectsRule link b.payload
  | 0x0304 => gainRule core link b.payload
  | _ => flickerRule bs b.target b.payload

end Sys2Proof.Machine
end

