-- ==== Sys2Proof/Machine/RulesMore.lean ====
section
/-! DEFINITION. The payload rules of validation, continued: Mash, the encoders, the decoder, streams, memory, flex, time, trust,
energy, health, the power map and observability. -/

namespace Sys2Proof.Machine

open Sys2Proof

/-! ## Mash (R364, R365, R369, R372, R381, R390–R394) -/

def chanAt (mash core : List Byte) (a b : Nat) : Nat := fld mash 4 1 / 4 ^ planeAt core a b % 4

/-- One R, one B and two G on a diagonal, of four positions in raster order. -/
def bayer (c : List Nat) : Bool := [[0, 1, 1, 2], [2, 1, 1, 0], [1, 0, 2, 1], [1, 2, 0, 1]].contains c

/-- The CFA layout of R364. -/
def layoutOk (mash core : List Byte) : Bool :=
  let ch := chanAt mash core
  match fld core 1 1 with
  | 0 => true
  | 1 => bayer [ch 0 0, ch 0 1, ch 1 0, ch 1 1]
  | _ =>
    let quad (a b : Nat) : Bool := ch a b == ch a (b + 1) && ch a b == ch (a + 1) b && ch a b == ch (a + 1) (b + 1)
    quad 0 0 && quad 0 2 && quad 2 0 && quad 2 2 && bayer [ch 0 0, ch 0 2, ch 2 0, ch 2 2]

/-- The demosaic methods that a CFA period admits (R365). -/
def methodsOf : Nat → List Nat
  | 0 => [0]
  | 1 => [1, 2]
  | _ => [3, 4]

def mashCoreRule (core m : List Byte) : Option Nat :=
  faults
    ([exactly m 96, within m 0 1 0 3, among m 1 1 (methodsOf (fld core 1 1)), within m 2 1 0 1, within m 3 1 0 1,
      want ((List.range 4).all (fun q => decide (fld m 4 1 / 4 ^ q % 4 < 3))) 4, within m 5 1 0 8, zeroed m [(6, 2)],
      real m 8 (fun v => decide (0 < v))] ++
     (List.range 3).map (fun k => real m (12 + 4 * k) (fun v => decide (0 < v) && decide (v ≤ 64))) ++
     [reals m 24 12, zeroed m [(72, 24)], want (layoutOk m core) 4, want (!bit (fld m 0 1) 0 || bit (fld core 0 1) 0) 0])

/-- The two ratios of an output lie from 0.5 to 8 (R372). -/
def ratioOk (method crop out : Nat) : Bool :=
  let g := if method = 3 then 2 else 1
  decide (out * g ≤ 2 * crop) && decide (crop ≤ 8 * out * g)

def lutIndices (bs : List Block) (target : Nat) : List Nat :=
  let p := (payloadIn bs 0x0403 target).getD []
  (entriesFrom p 8 49168 (fld p 0 4)).map (fun t => fld t 0 1)

def outputRule (bs : List Block) (target : Nat) (e : List Byte) : Option Nat :=
  let link := (payloadIn bs 0x0201 target).getD []
  let core := (payloadIn bs 0x0301 target).getD []
  let method := fld ((payloadIn bs 0x0401 target).getD []) 1 1
  let p := cfaPeriod core
  let (x0, y0, w, h) := (fld e 12 4, fld e 16 4, fld e 20 4, fld e 24 4)
  let luts := lutIndices bs target
  let lut1 (off : Nat) : Option Nat := want (fld e off 1 == 0xFF || (decide (fld e off 1 ≤ 7) && luts.contains (fld e off 1))) off
  let half := fld e 1 1 == 5
  faults
    [within e 0 1 0 3, within e 1 1 1 5, if half then among e 2 1 [16] else among e 2 1 [10, 12, 16],
     within e 3 1 0 (if half then 0 else 3), within e 4 1 0 1, within e 5 1 0 1, lut1 6,
     want (fld e 7 1 == 0xFF || (decide (fld e 7 1 ≤ 3) && (blockIn bs (0x0404 + fld e 7 1) target).isSome)) 7, lut1 8,
     zeroOr e 9 1 2 8, zeroed e [(10, 2)], want (x0 % p == 0 && decide (x0 + w ≤ linkWidth link)) 12,
     want (y0 % p == 0 && decide (y0 + h ≤ linkHeight link)) 16, want (0 < w && w % p == 0) 20, want (0 < h && h % p == 0) 24,
     within e 28 2 1 32768, want (fld e 1 1 != 2 || fld e 28 2 % 2 == 0) 28, within e 30 2 1 32768,
     want (ratioOk method w (fld e 28 2)) 28, want (ratioOk method h (fld e 30 2)) 30,
     want (fld e 32 4 == 0 || (match f32 e 32 with
       | some v => fld e 3 1 != 2 || (decide (0 < v) && decide (v ≤ 10000))
       | none => false)) 32,
     reals e 36 12, zeroed e [(84, 44)]]

def lut1dRule (p : List Byte) : Option Nat :=
  faults
    [table p 49168 1 8 (fun t => faults
       [within t 0 1 0 7, zeroed t [(1, 3)], reals t 4 2, want (decide (f32D t 4 < f32D t 8)) 8, zeroed t [(12, 4)],
        reals t 16 12288]),
     unique p 49168 0]

def lut3dRule (p : List Byte) : Option Nat :=
  faults [exactly p 1647768, within p 0 2 65 65, zeroed p [(2, 14), (1647766, 2)]]

def mashRule (bs : List Block) (b : Block) : Option Nat :=
  match b.type with
  | 0x0401 => mashCoreRule ((payloadIn bs 0x0301 b.target).getD []) b.payload
  | 0x0402 => faults [table b.payload 128 1 4 (outputRule bs b.target), unique b.payload 128 0]
  | 0x0403 => lut1dRule b.payload
  | _ => lut3dRule b.payload

/-! ## Encoders (R402–R404, R415, R420–R422) -/

/-- H.265 level limits: luma picture size, luma sample rate, bit rate and CPB size in kbit for the Main and the High tier
(ITU-T H.265 Annex A, assumption 11). -/
def levelLimits : Nat → Option (Nat × Nat × Nat × Nat)
  | 90 => some (552960, 16588800, 6000, 0)
  | 93 => some (983040, 33177600, 10000, 0)
  | 120 => some (2228224, 66846720, 12000, 30000)
  | 123 => some (2228224, 133693440, 20000, 50000)
  | 150 => some (8912896, 267386880, 25000, 100000)
  | 153 => some (8912896, 534773760, 40000, 160000)
  | 156 => some (8912896, 1069547520, 60000, 240000)
  | 180 => some (35651584, 1069547520, 60000, 240000)
  | 183 => some (35651584, 2139095040, 120000, 480000)
  | 186 => some (35651584, 4278190080, 240000, 800000)
  | _ => none

/-- The largest bit rate and CPB size in kbit of a profile, level and tier. -/
def levelMax (e : List Byte) : Nat :=
  match levelLimits (fld e 3 1) with
  | some (_, _, main, high) => (if fld e 4 1 = 1 then high else main) * (if fld e 2 1 = 4 then 1667 else 1000) / 1000
  | none => 0

def levelAdmits (e : List Byte) (w h rate : Nat) : Bool :=
  match levelLimits (fld e 3 1) with
  | some (ps, sr, _, _) =>
    decide (w * h ≤ ps) && decide (w * w ≤ 8 * ps) && decide (h * h ≤ 8 * ps) && decide (w * h * rate ≤ sr * 1000)
  | none => false

/-- The number of an encoding appears once in the generation. -/
def encCount (bs : List Block) (e : Nat) : Nat :=
  ((bs.filter (fun b => b.type == 0x0501 || b.type == 0x0502)).map (fun b =>
    ((entriesFrom b.payload 8 32 (fld b.payload 0 4)).filter (fun x => fld x 0 1 == e)).length)).sum

def xsEntryRule (bs : List Block) (target : Nat) (e : List Byte) : Option Nat :=
  let b := ctxBlocks bs target
  let src := fld e 1 1
  let (w, h) := encSize b e
  let t := xsTarget b e
  let floor := encFloorSum b 0 e
  let srcOk := if src = 0 then fld (coreOf b) 1 1 == 1 && (b 0x0301).isSome && w % 2 == 0 && h % 2 == 0
    else match mashEntry b (src - 1) with
      | some o => [2, 3, 4].contains (fld o 1 1) && (fld o 2 1 == 10 || fld o 2 1 == 12)
      | none => false
  faults
    [within e 0 1 0 31, want (encCount bs (fld e 0 1) == 1) 0, within e 1 1 0 4, want srcOk 1, within e 2 1 1 5, within e 3 1 0 2,
     want (Config.xsProfileAdmits (xsProfile b e) (fld e 2 1) (fld e 3 1)) 2,
     within e 4 2 16 512, want (decide (2 * floor ≤ t)) 4, want (Config.xsLevelAdmits w h (fld e 4 2) (frameRate b)) 4,
     within e 6 1 0 (if src = 0 then 3 else 0), within e 7 1 0 3, want (decide (fld e 8 4 + floor ≤ t)) 8,
     want (fld e 12 4 == 0 || decide (t ≤ fld e 12 4)) 12, within e 16 2 0 510, within e 18 1 0 4, within e 19 1 0 16,
     zeroed e [(20, 12)]]

/-- The picture type with the smallest target that an entry's structure holds (R408). -/
def rarest (e : List Byte) : Nat := if fld e 6 2 ≤ 1 then 0 else if fld e 5 1 = 0 || fld e 6 2 = 2 then 1 else 2

def hevcEntryRule (bs : List Block) (target : Nat) (e : List Byte) : Option Nat :=
  let b := ctxBlocks bs target
  let (w, h) := encSize b e
  let o := (mashEntry b (fld e 1 1 - 1)).getD []
  faults
    [within e 0 1 0 31, want (encCount bs (fld e 0 1) == 1) 0, within e 1 1 1 4,
     want ((mashEntry b (fld e 1 1 - 1)).isSome && fld o 1 1 == 2 && fld o 2 1 == 10 && w % 8 == 0 && h % 8 == 0 &&
       decide (w ≤ 8192) && decide (h ≤ 8192) && decide (w * h ≤ 35651584)) 1,
     among e 2 1 [1, 2, 4], want (levelLimits (fld e 3 1)).isSome 3, want (levelAdmits e w h (frameRate b)) 3, within e 4 1 0 1,
     within e 5 1 0 3, want (decide (fld e 5 1 + 2 ≤ outFrames o)) 5, within e 6 2 1 1024, within e 8 4 100 (levelMax e),
     want (decide (fld e 12 4 ≤ levelMax e)) 12,
     want (decide (2 * encFloorSum b 1 e ≤ encTarget b 1 e (rarest e))) 8, within e 16 1 1 2,
     within e 17 1 0 50, within e 18 1 0 50, within e 19 1 (fld e 18 1) 50, within e 20 1 0 4, within e 21 1 0 16,
     within e 22 1 0 7, zeroed e [(23, 9)]]

/-! ## DEC_STREAMS (R444, R445) -/

def decEntryRule (e : List Byte) : Option Nat :=
  faults
    [within e 0 1 0 3, within e 1 1 0 1, within e 2 1 0 (if fld e 1 1 = 0 then 0 else 1), within e 3 1 0 1,
     want (decide (64 ≤ fld e 4 2) && decide (fld e 4 2 ≤ 4096) && fld e 4 2 % 8 == 0) 4,
     want (decide (64 ≤ fld e 6 2) && decide (fld e 6 2 ≤ 2304) && fld e 6 2 % 8 == 0) 6, within e 8 1 1 16, within e 9 1 2 8,
     zeroed e [(10, 2)], within e 12 4 64 65536, zeroOr e 16 4 100 1000000, within e 20 4 1 240000, zeroed e [(24, 8)]]

/-! ## STREAM_SET (R451, R471, R472, R480, R481) -/

def decEntryOf (bs : List Block) (n : Nat) : Option (List Byte) :=
  let p := (payloadIn bs 0x0601 globalTarget).getD []
  (entriesFrom p 8 32 (fld p 0 4)).find? (fun e => fld e 0 1 == n)

/-- An encoding of a context: its codec and entry. -/
def encOf (bs : List Block) (c e : Nat) : Option (Nat × List Byte) :=
  ((encsOf (ctxBlocks bs c)).find? (fun x => x.1 == e)).map (·.2)

def recordRule (e : List Byte) : Option Nat :=
  let n := fld e 16 1
  let ports := (List.range 28).map (fun k => fld e (32 + k) 1)
  faults
    ([within e 5 1 0 0, within e 10 1 0 0, within e 12 4 0 0, within e 16 1 1 28, within e 17 1 20 26, zeroed e [(18, 2)],
      zeroOr e 20 4 4 1024, zeroOr e 24 4 256 4096,
      want (!needsRing e || decide (2 * flushQuantum e * n ≤ stagingBytes e)) 24, zeroOr e 28 4 100 30000] ++
     (numbered ports).map (fun x => want (if x.1 < n then decide (x.2 ≤ 27) && !(ports.take x.1).contains x.2 else x.2 == 0xFF)
       (32 + x.1)) ++ [zeroed e [(60, 4)]])

/-- An ST 2110-20 or SDI source, as Mash writes it: its entry. -/
def mashSource (bs : List Block) (e : List Byte) : Option (List Byte) := mashEntry (ctxBlocks bs (fld e 4 1)) (fld e 3 1)

def st2110Rule (bs : List Block) (e : List Byte) : Option Nat :=
  let t22 := fld e 1 1 == 2
  let fmt := if fld e 2 1 != 2 then true else match mashSource bs e with
    | some o => [2, 3, 4].contains (fld o 1 1) && (fld o 2 1 == 10 || fld o 2 1 == 12) && decide (outWidth o ≤ 7680) &&
        decide (outHeight o ≤ 4320)
    | none => true
  let xs := if !t22 then true else match encOf bs (fld e 4 1) (fld e 3 1) with
    | some (codec, x) => codec == 0 && fld x 8 4 == 0 && fld x 12 4 == xsTarget (ctxBlocks bs (fld e 4 1)) x ||
        (codec == 0 && fld x 8 4 == 0 && fld x 12 4 == 0)
    | none => true
  faults
    [within e 5 1 0 (if t22 then 0 else 1), within e 10 1 1 8, within e 12 4 0 1000000, within e 16 1 0 7, within e 17 1 0 63,
     within e 18 2 0 4094, within e 26 1 0 (if t22 then 0 else 1), within e 27 1 96 127, within e 44 1 0 3, zeroed e [(45, 19)],
     want fmt 3, want xs 3]

/-- Pictures of an SDI link mode: width, height, least and greatest rate (R472). -/
def sdiMode : Nat → Nat × Nat × Nat × Nat
  | 0 => (1920, 1080, 24, 60)
  | 1 => (3840, 2160, 24, 30)
  | 2 => (3840, 2160, 24, 60)
  | _ => (7680, 4320, 24, 60)

def sdiLanesOf (e : List Byte) : List Nat := List.range' (fld e 16 1) (if fld e 17 1 = 3 then 4 else 1)

def sdiRule (bs : List Block) (e : List Byte) : Option Nat :=
  let (w, h, lo, hi) := sdiMode (fld e 17 1)
  let src := if fld e 2 1 != 2 then true else match mashSource bs e with
    | some o => fld o 1 1 == 2 && fld o 2 1 == 10 && outWidth o == w && outHeight o == h
    | none => true
  let rate := match timeEntry bs 4 with
    | some t =>
      let den := fld t 28 4 * fld e 10 1
      let num := fld t 24 4
      den != 0 && num % den == 0 && decide (lo ≤ num / den) && decide (num / den ≤ hi)
    | none => true
  faults
    [within e 5 1 0 1, within e 10 1 1 8, within e 12 4 0 1000000, within e 16 1 0 15, within e 17 1 0 3, zeroed e [(18, 46)],
     want src 3, want rate 10]

/-- The pairings of R451. -/
def pairOk (bs : List Block) (e : List Byte) : Bool :=
  match fld e 1 1, fld e 2 1 with
  | 0, 0 | 0, 1 => true
  | 1, 2 | 1, 3 | 3, 2 | 3, 3 => true
  | 2, 0 => match encOf bs (fld e 4 1) (fld e 3 1) with | some (codec, _) => codec == 0 | none => true
  | _, _ => false

/-- The streams that a context feeds: STREAM_SET entries that name it. -/
def fedBy (bs : List Block) (c : Nat) : List (List Byte) :=
  (streamEntries ((payloadIn bs 0x0701 globalTarget).getD [])).filter (fun e => fld e 4 1 == c)

def headMs (e : List Byte) : Nat := if fld e 6 2 = 0 then 100 else fld e 6 2

/-- A context without ENERGY_CONTEXT has the default budgets, which a stream that it feeds must outlast too (R213). -/
def budgetFits (bs : List Block) (e : List Byte) : Bool :=
  let b := ctxBlocks bs (fld e 4 1)
  (b 0x0203).isNone || (b 0x0C02).isSome ||
    (if fld e 1 1 = 0 then decide (recordBudget b < ms (headMs e)) else decide (monitorBudget b < ms (headMs e)))

def streamEntryRule (bs : List Block) (e : List Byte) : Option Nat :=
  let rec_ := fld e 1 1 == 0
  let flags := fld e 8 2
  match faults
    [within e 0 1 0 31, within e 1 1 0 3, within e 2 1 0 3, want (pairOk bs e) 2,
     within e 3 1 0 (match fld e 2 1 with | 0 => 31 | 1 => 0 | _ => 3),
     if fld e 2 1 = 3 then among e 4 1 [0xFF] else within e 4 1 0 63, within e 6 2 0 1000, want (budgetFits bs e) 6,
     want (decide (flags ≤ 7) && (rec_ || !bit flags 1) && (!rec_ || !bit flags 2)) 8, zeroed e [(11, 1)]] with
  | some off => some off
  | none => if rec_ then recordRule e else if fld e 1 1 = 3 then sdiRule bs e else st2110Rule bs e

/-! ## MEMORY_POLICY (R514), FLEX_SET (R521, R543–R545) -/

def memoryRule (p : List Byte) : Option Nat :=
  faults ([exactly p 8] ++ (List.range 4).map (fun k => among p k 1 [0, 1, 2, 3, 0xFF]) ++ [zeroed p [(4, 4)]])

def slotRule (e : List Byte) (k : Nat) : Option Nat :=
  let x := slotEntry e k
  let w := fld x 0 1
  let before (j : Nat) : Nat := fld (slotEntry e j) 0 1
  let covered := (List.range k).any (fun j => decide (k < j + before j / 4))
  shifted (16 + 8 * k) (if w = 0 then zeroed x [(0, 8)] else faults
    [want ([4, 8, 16].contains w && !covered && (w != 8 || k % 2 == 0) && (w != 16 || k == 0)) 0, within x 1 1 0 31,
     want (fld x 2 1 == 0xFF || decide (fld x 2 1 ≤ 14)) 2, within x 3 1 1 6, within x 4 1 1 (fld x 3 1), within x 5 1 1 w,
     within x 6 1 0 3, zeroOr x 7 1 10 100])

def yardRule (e : List Byte) : Option Nat :=
  let mode := fld e 1 1
  let eth := mode == 3
  let y := fld e 0 1
  faults
    ([within e 0 1 1 7, want ([0, 2, 3, 4].contains mode && (!eth || y == 6 || y == 7)) 1, within e 2 1 0 (if eth then 1 else 0),
      within e 3 1 0 (if eth then (if fld e 2 1 = 1 then 1 else 15) else 0), zeroed e [(4, 2)],
      if eth then zeroOr e 6 2 1500 9216 else zeroed e [(6, 2)], if eth then none else zeroed e [(8, 6)], zeroed e [(14, 2)]] ++
     (if mode = 2 then (List.range 4).map (slotRule e) else [zeroed e [(16, 32)]]) ++ [zeroed e [(48, 16)]])

/-- GPIO pins that the slots of a FLEX_SET use, with their offsets. -/
def flexPins (p : List Byte) : List (Nat × Nat) :=
  ((numbered (yardEntries p)).map (fun x => ((List.range 4).filterMap (fun k =>
    let sl := slotEntry x.2 k
    if fld x.2 1 1 = 2 && fld sl 0 1 != 0 then some (fld sl 1 1, 8 + 64 * x.1 + 16 + 8 * k + 1) else none)))).flatten

def flexRule (p : List Byte) : Option Nat :=
  let es := yardEntries p
  let eths := es.filter (fun e => fld e 1 1 == 3)
  let pins := flexPins p
  faults
    ([table p 64 1 7 yardRule] ++
     (numbered es).map (fun x => want (fld x.2 1 1 != 3 || eths.all (fun y => fld y 2 1 == fld x.2 2 1)) (8 + 64 * x.1 + 2)) ++
     [twice (pins.map (·.1)) (fun k => (pins.getD k (0, 0)).2)])

/-! ## Time (R555, R556, R559) -/

def ptpRule (e : List Byte) : Option Nat :=
  faults
    [within e 3 1 0 1, within e 4 1 0 7, within e 5 1 0 127, within e 6 1 0 1, withinInt e 8 (-7) 1, withinInt e 9 (-3) 3,
     withinInt e 10 (-7) 5, within e 11 1 2 10]

def baseEntryRule (e : List Byte) : Option Nat :=
  let tbv := fld e 0 1 == 4
  let src := fld e 1 1
  let role := fld e 2 1
  let combo := if tbv then role == 0 && [0, 3, 4, 5, 6, 7].contains src
    else (src == 1 && role == 1) || ((src == 0 || src == 2) && (role == 0 || role == 2))
  let num := fld e 24 4
  let den := fld e 28 4
  faults
    [within e 0 1 0 4, within e 1 1 0 7, within e 2 1 0 2, want combo 1, if role = 0 then zeroed e [(3, 4)] else ptpRule e,
     within e 7 1 0 (if tbv then 1 else 0), if role = 0 then zeroed e [(8, 6)] else none, zeroed e [(14, 2)],
     zeroOr e 16 4 1000 1000000000, zeroOr e 20 4 1000 (if tbv then 100000 else 500000),
     if tbv then within e 24 4 1 1000000000 else within e 24 4 0 0, if tbv then within e 28 4 1 1001000 else within e 28 4 0 0,
     want (!tbv || (decide (num ≤ 1000000 * den) && decide (den ≤ num))) 24, want (src == 1 || allZero e 32 4) 32,
     want (src == 2 || src == 3 || allZero e 36 4) 36, zeroed e [(40, 24)]]

def timeBaseRule (p : List Byte) : Option Nat :=
  let es := entriesFrom p 8 64 (fld p 0 4)
  let key (e : List Byte) : Nat :=
    let d := if fld e 5 1 = 0 && fld e 3 1 = 1 then 127 else fld e 5 1
    if fld e 2 1 = 0 then 2 ^ 16 + fld e 0 1 else fld e 4 1 * 256 + d
  faults [table p 64 1 5 baseEntryRule, unique p 64 0, twice (es.map key) (fun k => 8 + 64 * k + 4)]

def timeGlobalRule (p : List Byte) : Option Nat :=
  faults
    ([exactly p 48, within p 0 1 0 1, want (decide (fld p 1 1 ≤ 11) || fld p 1 1 == 0xFF) 1, within p 2 1 0 5,
      want (decide (fld p 3 1 ≤ 5) || fld p 3 1 == 0xFF) 3, within p 4 4 1 50000000, real p 8 (fun _ => true), reals p 12 6] ++
     (List.range 6).map (fun i => want (decide (i ≤ fld p 2 1) || f32D p (12 + 4 * i) == 0) (12 + 4 * i)) ++
     [within p 36 1 0 1, zeroed p [(37, 11)]])

/-! ## Trust, energy, health, power map, observability (R211, R213, R586, R635, R636, R660–R662) -/

def trustRule (p : List Byte) : Option Nat :=
  faults
    [exactly p 4724, want (p.take 4 == [0x4F, 0x55, 0x56, 0x50]) 0, want (fld p 4 4 != 0) 4, within p 16 4 0 15, within p 20 1 0 8,
     zeroed p [(21, 3)], want (fld p 24 4 &&& 0xFFFF8801 == 0) 24, zeroed p [(28, 4), (4723, 1)]]

def energyRule (p : List Byte) : Option Nat :=
  faults
    [exactly p 24, zeroOr p 0 4 40000 210000, within p 4 4 0 2000000, within p 8 4 0 200000, within p 12 4 0 200000,
     within p 16 4 0 2000000, zeroed p [(20, 4)]]

def energyContextRule (bs : List Block) (target : Nat) (p : List Byte) : Option Nat :=
  let b := ctxBlocks bs target
  faults
    [exactly p 16, zeroOr p 0 4 1000 1000000, zeroOr p 4 4 10 10000, zeroOr p 8 4 10 10000, zeroed p [(12, 4)],
     want ((fedBy bs target).all (fun e => fld e 1 1 != 0 || decide (recordBudget b < ms (headMs e)))) 4,
     want ((fedBy bs target).all (fun e => fld e 1 1 == 0 || decide (monitorBudget b < ms (headMs e)))) 0]

/-- A zone's thresholds with their defaults, in °C. -/
def zoneOf (p : List Byte) (off : Nat) (dflt : List Nat) : List Nat :=
  (numbered dflt).map (fun x => if fld p (off + x.1) 1 = 0 then x.2 else fld p (off + x.1) 1)

def rising : List Nat → Bool
  | a :: b :: l => decide (a < b) && rising (b :: l)
  | _ => true

/-- Default thresholds of the die and of the stacks: warn, reef 1, reef 2, furl (R616). -/
def dieDefaults : List Nat := [90, 95, 100, 108]
def hbmDefaults : List Nat := [85, 88, 92, 100]

def channelRule (e : List Byte) : Option Nat :=
  faults [within e 0 1 0 2, within e 2 1 0 112, zeroed e [(3, 1)],
          if fld e 0 1 = 1 then within e 4 4 1000000 1050000 else none, zeroed e [(14, 2)]]

def healthRule (p : List Byte) : Option Nat :=
  faults
    ([exactly p 208, want (rising (zoneOf p 0 dieDefaults)) 0, want (decide ((zoneOf p 0 dieDefaults).getD 3 0 ≤ 112)) 3,
      want (rising (zoneOf p 4 hbmDefaults)) 4,
      want (decide (90 ≤ (zoneOf p 4 hbmDefaults).getD 3 0) && decide ((zoneOf p 4 hbmDefaults).getD 3 0 ≤ 100)) 7,
      zeroOr p 8 1 1 10, zeroOr p 9 1 5 100, zeroOr p 10 1 20 80, zeroed p [(11, 5)]] ++
     (List.range 12).map (fun k => shifted (16 + 16 * k) (channelRule (sub p (16 + 16 * k) 16))))

def powerEntryRule (e : List Byte) : Option Nat :=
  faults
    [within e 0 1 0 14, within e 1 1 0 1, if fld e 1 1 = 0 then within e 2 1 0 6 else among e 2 1 [0xFF], within e 3 1 0 127,
     within e 6 1 0 2, within e 7 1 0 (match fld e 6 1 with | 1 => 15 | 2 => 27 | _ => 0), within e 8 1 0 15, zeroOr e 9 1 1 100,
     zeroed e [(12, 4)]]

def powerEntries (p : List Byte) : List (List Byte) := entriesFrom p 8 16 (fld p 0 4)

def powerRule (p : List Byte) : Option Nat :=
  let es := powerEntries p
  let pin (x : Nat × List Byte) : Nat := if fld x.2 1 1 = 0 then fld x.2 2 1 else 256 + x.1
  faults
    [table p 16 0 15 powerEntryRule, unique p 16 0, twice ((numbered es).map pin) (fun k => 8 + 16 * k + 2), unique p 16 3,
     want (decide ((es.filter (fun e => fld e 1 1 == 0)).length ≤ 7)) 0,
     twice (es.map (fun e => fld e 6 1 * 65536 + fld e 7 1 * 256 + fld e 8 1)) (fun k => 8 + 16 * k + 8)]

/-- Master IDs (R49). -/
def masterIds : List Nat :=
  List.range 0x38 ++ List.range' 0x40 30 ++ [0x60, 0x61, 0x62, 0x63, 0x64, 0x68, 0x69, 0x6A, 0x70, 0x78, 0x7C]

def masterOr (e : List Byte) (off : Nat) : Option Nat := want (fld e off 1 == 0xFF || masterIds.contains (fld e off 1)) off

def counterRule (e : List Byte) : Option Nat :=
  faults
    [within e 0 2 0 511, within e 2 1 0 0x12, within e 3 1 0 7, masterOr e 4, within e 5 1 0 0x7F, within e 6 1 0 3,
     zeroed e [(7, 1), (14, 2)]]

def histRule (e : List Byte) : Option Nat :=
  faults [within e 0 1 0 4, masterOr e 1, within e 2 1 0 0x7F, zeroed e [(3, 5)]]

def obsRule (p : List Byte) : Option Nat :=
  let n := fld p 0 2
  faults
    ([within p 0 2 0 512, want (p.length == 192 + 16 * n) 0, zeroed p [(2, 2)], want (fld p 4 4 &&& 0xFFFFFFC1 == 0) 4,
      want (fld p 8 2 &&& 0xFC01 == 0) 8, within p 10 1 0 1, want (decide (fld p 11 1 ≤ 20) || fld p 11 1 == 0xFF) 11, masterOr p 12,
      within p 13 1 0 0x7F, zeroed p [(14, 2)], want (decide (fld p 16 8 ≤ fld p 24 8)) 16,
      want (decide (fld p 32 8 ≤ fld p 40 8)) 32] ++
     (List.range 16).map (fun k => shifted (64 + 8 * k) (histRule (sub p (64 + 8 * k) 8))) ++
     (List.range n).map (fun k => shifted (192 + 16 * k) (counterRule (sub p (192 + 16 * k) 16))) ++
     [twice ((entriesFrom p 192 16 n).map (fun e => fld e 0 2)) (fun k => 192 + 16 * k)])

/-! ## All of them -/

/-- The payload rules of a block. A block of a context is measured against LINK_CONTEXT and STEEP_CORE only where the generation
holds them; their absence is a REFERENCE failure (assumption 11). -/
def contentFault (bs : List Block) (b : Block) : Option Nat :=
  let link := (blockIn bs 0x0201 b.target).isSome
  let core := link && (blockIn bs 0x0301 b.target).isSome
  let p := b.payload
  if b.type = 0x0201 then linkRule bs b.target p
  else if b.type = 0x0203 then landingRule bs b.target p
  else if b.type = 0x0301 then (if link then steepRule bs b else none)
  else if b.type / 256 = 3 then (if core then steepRule bs b else none)
  else if b.type / 256 = 4 then (if core then mashRule bs b else none)
  else if b.type = 0x0501 then (if link then table p 32 1 4 (xsEntryRule bs b.target) else none)
  else if b.type = 0x0502 then (if link then table p 32 1 4 (hevcEntryRule bs b.target) else none)
  else if b.type = 0x0C02 then (if link then energyContextRule bs b.target p else none)
  else match b.type with
    | 0x0101 => shroudSetRule p
    | 0x0202 => sensorSetRule bs p
    | 0x0601 => faults [table p 32 1 4 decEntryRule, unique p 32 0]
    | 0x0701 => faults [table p 64 1 32 (streamEntryRule bs), unique p 64 0]
    | 0x0801 => memoryRule p
    | 0x0901 => flexRule p
    | 0x0A01 => timeGlobalRule p
    | 0x0A02 => timeBaseRule p
    | 0x0B01 => trustRule p
    | 0x0C01 => energyRule p
    | 0x0D01 => healthRule p
    | 0x0D02 => powerRule p
    | 0x0E01 => obsRule p
    | _ => none

end Sys2Proof.Machine
end

