-- ==== Sys2Proof/Machine/PowerMap.lean ====
section
/-! DEFINITION. The power map (R101, R632–R634): the entries that sensors, root ports and the board own, their order, their
readings and their faults. -/

namespace Sys2Proof.Machine

open Sys2Proof

def PwrEntry.ent (x : PwrEntry) : List Byte := x.entry.getD []

/-- Owner kind and owner of an entry. -/
def PwrEntry.owner (x : PwrEntry) : Nat × Nat := (fld x.ent 6 1, fld x.ent 7 1)
def PwrEntry.order (x : PwrEntry) : Nat := fld x.ent 8 1
def PwrEntry.mv (x : PwrEntry) : Nat := fld x.ent 4 2

def State.updPwr (s : State) (e : Nat) (f : PwrEntry → PwrEntry) : State :=
  s.updHealth fun h => { h with power := upd h.power e f }

/-- A regulator's switch: its PWR_EN pin, or PMBus OPERATION, with VOUT_COMMAND before it when it turns on (R632). -/
def State.switchRail (s : State) (e : Nat) (on : Bool) : State :=
  let x := s.pwr e
  let pin := fld x.ent 1 1 == 0
  let s := if on || !pin then (s.drivePins (.pmbus 1)).out (.pmbus 1 (fld x.ent 3 1) (if on then x.mv else 0)) else s
  if pin then s.updPower fun p => { p with pwrEn := p.pwrEn.set (9 + fld x.ent 2 1) on } else s

/-- Entries of one owner, ascending in order. -/
def State.owned (s : State) (o : Nat × Nat) : List Nat :=
  sortBy (fun a b => (s.pwr a).order < (s.pwr b).order)
    ((List.range 15).filter (fun e => (s.pwr e).entry.isSome && (s.pwr e).owner == o))

/-- The next entry of an owner starts to ramp: the first one called for that is not ON, none of them ramping. -/
def State.nextRail (s : State) (o : Nat × Nat) : State :=
  let es := s.owned o
  if es.any (fun e => (s.pwr e).st == .ramping || (s.pwr e).st == .fault) then s
  else match es.find? (fun e => (s.pwr e).wanted && (s.pwr e).st == .off) with
    | some e => (s.updPwr e fun x => { x with st := .ramping, vout := 0, badReads := 0, settled := none, rampTbm := s.now }).switchRail e true
    | none => s

/-- Turn an entry off; one in fault keeps its fault when told so. -/
def State.railOff (s : State) (e : Nat) : State :=
  if (s.pwr e).st = .off then s
  else (s.switchRail e false).updPwr e fun x => { x with st := .off, badReads := 0, settled := none }

/-- A generation in force calls for a sensor: it has a SENSOR_SET entry, or a shroud is bound to it. -/
def State.sensorCalled (s : State) (n : Nat) : Bool := (s.sensor n).entry.isSome || !(s.shroudsOf n).isEmpty

/-- A changed POWER_MAP that is still to apply gives the sensor an entry: its rails are not up at once (R246). -/
def State.railsToCome (s : State) (n : Nat) : Bool :=
  match s.cfg.arming with
  | none => false
  | some g =>
    let p := (payloadIn g.blocks 0x0D02 globalTarget).getD []
    s.cfg.unapplied.contains (0x0D02, globalTarget) &&
      (powerEntries p).any (fun e => fld e 6 1 == 1 && fld e 7 1 == n)

/-- A sensor's rails are up when every entry that it owns is ON (R246). Without them its shrouds enter QUIET (R253), where a training
that had begun waits for them with its timeout; with them, shrouds that had trained begin another. -/
def State.sensorRails (s : State) (n : Nat) : State :=
  let up := (s.owned (1, n)).all (fun e => (s.pwr e).st == .on) && s.sensorCalled n && !s.railsToCome n
  let was := (s.sensor n).railsUp
  let s := s.updSensor n fun x => { x with railsUp := up }
  let s := if up && !was then
      each (s.shroudsOf n) (fun k s =>
        if (s.shroud k).st == .quiet && (s.shroud k).trainTbm.isNone then s.startTraining k else s) s
    else if was && !up then
      each (s.shroudsOf n) (fun k s =>
        let s := if (s.shroud k).st == .active then (s.linkLost n).linkLossInProbation k else s
        let s := (s.endLoopback k none).noteReceived k
        s.updShroud k fun x => { x with st := .quiet, testLane := none, lanes := x.lanes.map Lane.unpowered }) s
    else s
  s.portSync n

def State.allRails (s : State) : State := (each (List.range 16) (fun n s => s.sensorRails n) s).srefSync

/-- An entry in power fault (R633): its owner's entries are turned off in reverse order; a root port goes down. The
error of class RAIL is logged (R640). -/
def State.powerFault (s : State) (e word : Nat) : State :=
  let o := (s.pwr e).owner
  let s := each (s.owned o).reverse (fun k s => s.railOff k) s
  let s := s.updPwr e fun x => { x with st := .fault, faultGen := s.liveNumber }
  let s := s.allRails
  let s := if o.1 = 2 && (s.port (rootYard o.2) (rootSlot o.2)).port == some o.2 then s.rootDown o.2 fxDown else s
  let s := (s.askVector 18).raise 0x0827 srcDevice (le 1 e ++ le 1 o.1 ++ le 1 o.2 ++ le 1 0 ++ le 2 word)
  s.logError 8 Loc.none { detail := e }

/-- A board entry is enabled while a generation that holds it is LIVE (R632). -/
def State.boardCalled (s : State) (x : PwrEntry) : Bool :=
  (powerEntries ((payloadIn ((s.cfg.live.map (·.blocks)).getD []) 0x0D02 globalTarget).getD [])).contains x.ent

/-- Whether an entry's owner is called for: a sensor or a root port by the blocks in force, the board by the LIVE generation (R632). -/
def State.railCalled (s : State) (e : Nat) (x : PwrEntry) : Bool :=
  x.entry.isSome && (match x.owner with
    | (1, n) => s.sensorCalled n
    | (2, p) => (s.port (rootYard p) (rootSlot p)).port == some p
    | _ => s.boardCalled x) ||
    (x.entry.isSome && (List.range' 1 7).any (fun y => (s.yard y).mode == 2 && (List.range 4).any (fun k =>
      fld (s.slotIn y k) 0 1 != 0 && fld (s.slotIn y k) 2 1 == e)))

/-- What the blocks in force call for is turned on in ascending order, and the rest off in reverse order. -/
def State.pumpPower (s : State) : State :=
  let called := (numbered s.health.power).map (fun p => s.railCalled p.1 p.2)
  let again (p : Bool × PwrEntry) : PwrEntry :=
    let x := p.2
    { x with wanted := p.1, st := if p.1 && !x.wanted && x.st == .fault then .off else x.st }
  let s := s.updHealth fun h => { h with power := (called.zip h.power).map again }
  let off := (sortBy (fun a b => (s.pwr b).order < (s.pwr a).order) (List.range 15)).filter (fun e => !(s.pwr e).wanted)
  let s := each off (fun e s => s.railOff e) s
  let owners := nub ((s.health.power.filter (fun x => x.wanted)).map PwrEntry.owner)
  (each owners (fun o s => s.nextRail o) s).allRails

/-- The generation that is LIVE now calls for a board entry that is off, or for one no more that is on. -/
def State.boardDue (s : State) : Bool :=
  (numbered s.health.power).any (fun p => p.2.entry.isSome && p.2.owner.1 != 1 && p.2.owner.1 != 2 &&
    p.2.wanted != s.railCalled p.1 p.2)

/-- A generation that went LIVE after a fault names the entry again: the fault clears, and the entry is started anew (R633). One that
went LIVE with board entries has them enabled (R632). The firmware finds both at its next evaluation (assumption 16). -/
def State.repower (s : State) : State :=
  let again (x : PwrEntry) : Bool := x.entry.isSome && x.st == .fault && x.faultGen != s.liveNumber
  if s.health.power.any again then
    (s.updHealth fun h => { h with power := h.power.map (fun x => if again x then { x with st := .off, wanted := false } else x) }).pumpPower
  else if s.boardDue then s.pumpPower else s

/-- POWER_MAP applies: a changed entry starts afresh, which clears its fault (R633). -/
def State.applyPowerMap (s : State) (p : List Byte) : State :=
  each (List.range 15) (fun e s =>
    let new := (powerEntries p).find? (fun x => fld x 0 1 == e)
    if (s.pwr e).entry = new then
      (if new.isSome && (s.pwr e).st == .fault then s.updPwr e fun x => { x with st := .off } else s)
    else (s.railOff e).updPwr e fun _ => { PwrEntry.reset with entry := new }) s

/-- The ramp timeout in ms. -/
def PwrEntry.rampMs (x : PwrEntry) : Nat := if fld x.ent 9 1 = 0 then 10 else fld x.ent 9 1

/-- A power entry is in range: PERST_OUT_N of the root ports whose slots name it is held from now (R532). -/
def State.holdFrom (s : State) (e : Nat) : State :=
  { s with yards := s.yards.map (fun y => match y.entry with
      | none => y
      | some b => { y with ports := y.ports.mapIdx (fun k x =>
          if x.perstHeld && fld b 1 1 == 2 && fld (slotEntry b k) 2 1 == e then { x with holdSince := s.now } else x) }) }

/-- One reading of READ_VOUT: a ramping entry is ON once it has read 95 % for its settle time; an entry that is ON faults at the
second reading in a row outside ±10 %. -/
def State.readVout (s : State) (e mv : Nat) : State :=
  let x := s.pwr e
  let s := s.updPwr e fun x => { x with vout := mv }
  match x.st with
  | .ramping =>
    if decide (mv * 100 < 95 * x.mv) then s.updPwr e fun x => { x with settled := none }
    else
      let t := x.settled.getD s.now
      if decide (t + us (fld x.ent 10 2) ≤ s.now) then
        ((((s.updPwr e fun x => { x with st := .on, badReads := 0, settled := none }).holdFrom e).nextRail x.owner)).allRails
      else s.updPwr e fun x => { x with settled := some t }
  | .on =>
    if decide (mv * 10 < 9 * x.mv) || decide (11 * x.mv < mv * 10) then
      if 1 ≤ x.badReads then
        let (w, s) := s.drawNat
        s.powerFault e (w % 65536)
      else s.updPwr e fun x => { x with badReads := x.badReads + 1 }
    else s.updPwr e fun x => { x with badReads := 0 }
  | _ => s

def execPowerMapReadVout (readings : List (Nat × Nat)) (s : State) : Host.Outcome State Fault Refusal :=
  .next (each readings (fun r s => if r.1 < 15 then s.readVout r.1 r.2 else s) s)

/-- The ramp timeout of an entry; its STATUS_WORD is what the regulator holds (assumption 2). -/
def execPowerRampTimeout (entry : Nat) (s : State) : Host.Outcome State Fault Refusal :=
  .next (if (s.pwr entry).st == .ramping && (s.pwr entry).settled.isNone &&
    decide ((s.pwr entry).rampTbm + ms (s.pwr entry).rampMs ≤ s.now) then
    (let (w, s) := s.drawNat
     s.powerFault entry (w % 65536))
  else s)

/-- PMB1_ALERT_N has fallen: entries with a STATUS_WORD that is not 0 are in power fault (assumption 12). -/
def execPmb1Alert (status : List (Nat × Nat)) (s : State) : Host.Outcome State Fault Refusal :=
  .next (each status (fun r s =>
    if r.1 < 15 && r.2 != 0 && ((s.pwr r.1).st == .ramping || (s.pwr r.1).st == .on) then s.powerFault r.1 (r.2 % 65536) else s) s)

end Sys2Proof.Machine
end

