-- ==== Sys2Proof/Machine/Sched.lean ====
section
/-! DEFINITION. The rows of the ledger and of jobs (chapters 01 and 06), host transfers (R324, R528), and the rows of the sensor
link and of contexts that change what the firmware has to do. -/

namespace Sys2Proof.Machine

open Sys2Proof

/-! ## The tick (R189, R204, R206, R212) -/

/-- OBS_SET (R660–R662): a counter or unit whose entry has changed restarts at 0; HALYARD_OUT is driven once configured (R66). -/
def State.applyObs (s : State) (p : Option (List Byte)) : State :=
  let q := p.getD []
  let es := entriesFrom q 192 16 (if p.isSome then fld q 0 2 else 0)
  let s := if fld q 10 1 = 1 then s.drivePins .halyardOut else s
  s.updObs fun o =>
    { o with set := p,
             counters := (numbered o.counters).map (fun x =>
               let new := es.find? (fun e => fld e 0 2 == x.1)
               if x.2.entry = new then x.2 else { x.2 with entry := new, value := 0, overflow := false }),
             hists := (numbered o.hists).map (fun x =>
               let e := sub q (64 + 8 * x.1) 8
               let h := x.2
               let kind := if p.isSome then fld e 0 1 else 0
               let master := if p.isSome then fld e 1 1 else 0xFF
               let classes := if p.isSome then fld e 2 1 else 0
               if h.kind = kind && h.master = master && h.classes = classes then h
               else { h with kind := kind, master := master, classes := classes, bins := List.replicate 32 0 }) }

/-- A block of the ARMED generation that applies at the first tick takes effect (R212, R662). -/
def State.applyAtTick (s : State) (g : Gen) (type : Nat) : State :=
  let key := (type, globalTarget)
  if !s.cfg.unapplied.contains key then s
  else
    let s := s.updCfg fun c =>
      { c with inForce := applyBlocks c.inForce g.blocks [key], unapplied := c.unapplied.filter (· ≠ key) }
    if type = 0x0E01 then s.applyObs (payloadIn g.blocks type globalTarget) else s

/-- ENERGY_POLICY and OBS_SET of an ARMED generation apply at the first tick (R212, R662). -/
def State.applyPolicy (s : State) : State :=
  match s.cfg.arming with
  | some g =>
    if (s.cfg.unapplied.contains (0x0C01, globalTarget)) || (s.cfg.unapplied.contains (0x0E01, globalTarget)) then
      ((s.applyAtTick g 0x0C01).applyAtTick g 0x0E01).goLive
    else s
  | none => s

/-- Every pending job that the table of R208 refuses now. -/
def State.refuseDue (s : State) : State :=
  each s.pendingJobs (fun j s => match s.refusalReason j with
    | some r => s.refuseJob j.id r
    | none => s) s

/-- A tick: windows are numbered from 0 at the first one after Nimlek starts. -/
def State.tick (s : State) : State :=
  if !s.nimlek then s
  else
    let s := s.applyPolicy
    let l := s.ledger
    let p := s.pEffNow
    let s := s.updLedger fun x =>
      { x with started := true, window := if l.started then l.window + 1 else 0, pEff := p, reefAtTick := s.health.reef,
               factors := x.nextFactors }
    let s := if l.started && l.pEff != p then
        s.raise 0x0804 srcDevice (le 4 (floorNat l.pEff) ++ le 4 (floorNat p) ++ le 1 s.health.reef)
      else s
    let s := s.recreate.refuseDue.settle
    let s := (s.runWindow State.eligible State.admitJob).chargeReceived.refusalEvent
    let s : State := { s with egress := s.egress.filter (fun e => s.now < e.1 + sec 1) }
    s.settle

def execLedgerTick (s : State) : Host.Outcome State Fault Refusal := .next s.tick

/-! ## Jobs on their engines (R35, R41, R430) -/

/-- The engine takes the job at the head of its queue. -/
def State.startNext (s : State) (m : Nat) : State :=
  match s.startJob m with
  | (some j, s) =>
    if j.kind == JobKind.recWrite then s.startWrite j 0 else if j.kind == JobKind.outUnit then s.sendUnit j else s
  | (none, s) => s

def execJobStart (master : Nat) (s : State) : Host.Outcome State Fault Refusal := .next (s.startNext master)

/-- Facts of an access unit in which the core found nothing. -/
def DecFacts.empty : DecFacts :=
  { sizeKnown := false, profile := 0, level := 0, chroma := 0, depth := 0, depthC := 0, width := 0, height := 0, dpb := 0, accesses := [],
    slices := [], badSet := false, poc := 0, sliceType := 0, rps := [], lists := [], refTiles := [], ctu := 64, hash := 0, vui := [],
    micros := 0, outputFlag := false, noPrior := false, reorder := 0, latency := 0, planes := [] }

/-- Facts of a job in which nothing was found. -/
def JobFacts.empty : JobFacts :=
  { misses := [], hwFault := false, ecc := [], sizes := [], ctus := [], coded := [], pus := [], recon := [], refTiles := [], dec := none, brl := none }

/-- The tiles that a streamer job reads: its tile row, or its decoded picture. -/
def State.outReads (s : State) (j : Job) : List Tiles :=
  let t := s.stream j.object
  let row := j.args.getD 0 0
  if t.srcKind = 2 then
    match s.devOf t.ctxId j.frame with
    | some d => match d.outFrame t.srcIndex, mashEntry d.blk t.srcIndex with
      | some o, some e => (List.range' (row * outTilesX e) (outTilesX e)).map (d.outArea o.out o.index).one
      | _, _ => []
    | none => []
  else if t.srcKind = 3 then
    [s.decTiles t.srcIndex (j.args.getD 1 0 % 256)]
  else []

/-- The tiles that a job reads through its tile port. -/
def State.jobReads (s : State) (j : Job) : List Tiles :=
  match j.kind, s.devOf (j.ctx.getD 0) j.frame with
  | .steepBand, some d => s.bandReads d j.unit
  | .mashBand, some d => s.mashReads d j.unit
  | .xsRow, _ | .hevcRow, _ => s.rowReads j
  | .outUnit, _ => s.outReads j
  | _, _ => []

/-- The streamer has read its tiles (R31, R32). -/
def State.runOut (s : State) (j : Job) (f : JobFacts) : Nat × State :=
  let reads := s.outReads j
  let f := s.verify f reads
  let failed := (reads.map f.lostIn).sum != 0
  (if f.hwFault || failed then stHwFault else stOk, (s.countMisses f reads j).flagTiles j failed)

/-- The cycle budget of a decode job (R430). -/
def State.decBudget (s : State) (j : Job) : Nanos :=
  let b := fld (s.dec j.object).ent 16 4
  if b = 0 then 2 * ((j.units.filter (fun u => u.1 == 6)).map (·.2)).sum + us 200 else us b

/-- A decode job's cycle budget has passed. -/
def State.overBudget (s : State) (j : Job) : Bool := decide (j.runTbm + s.decBudget j < s.now)

/-- What the job does to everything but its own state: status, coded bytes, state. An uncorrectable ECC indication outside its tile
reads ends it HW_FAULT (R506). -/
def State.runJob (s : State) (j : Job) (f : JobFacts) : Nat × List Byte × State :=
  let f := { f with hwFault := f.hwFault || !f.ecc.isEmpty }
  let plain : Nat := if f.hwFault then stHwFault else stOk
  match j.kind with
  | .steepBand => let (st, s) := s.runBand j f; (st, [], s)
  | .mashBand => let (st, s) := s.runMash j f; (st, [], s)
  | .xsRow | .hevcRow => s.runRow j f
  | .decPicture =>
    let (st, s) := s.runDecode j (f.dec.getD DecFacts.empty) (s.overBudget j) f
    (st, [], s)
  | .barrel => let (st, s) := s.runBarrel j f; (st, [], s)
  | .caskUnit => let (st, s) := s.runCask j f; (st, [], s)
  | .caskManifest => (plain, [], s.signNext)
  | .outUnit => let (st, s) := s.runOut j f; (st, [], s)
  | _ => (plain, [], s)

/-- A running job has ended. A superseded one leaves nothing but the mismatches that it met (R21). -/
def State.endJob (s : State) (j : Job) (run : State → Nat × List Byte × State) (f : JobFacts := JobFacts.empty) : State :=
  let s := s.eccSeen f.ecc { master := j.engine, tag := j.tag.getD 0xFFFF, ctx := j.ctx.getD 0xFF }
  let (st, bytes, s) := if j.superseded then
      let reads := s.jobReads j
      (stOk, [], s.countMisses (s.verify f reads) reads j)
    else run s
  let s := s.completeJob j st
  match s.job j.id with
  | some x => s.onEnd x x.status bytes
  | none => s

/-- JOB_COMPLETE: a recorder job ends with its Flush instead (R461). -/
def State.jobDone (s : State) (tag : Nat) (f : JobFacts) : State :=
  match s.byTag tag with
  | some j => if j.st == .running && j.kind != JobKind.recWrite && j.kind != JobKind.selftest then (s.endJob j (fun s => s.runJob j f) f).settle else s
  | none => s

def execJobComplete (tag : Nat) (f : JobFacts) (s : State) : Host.Outcome State Fault Refusal := .next (s.jobDone tag f)

/-- A decode job's cycle budget has expired: GUARD ends it OVERRUN, MEND with the rest concealed (R430). -/
def execDecodeBudgetExpiry (tag : Nat) (f : DecFacts) (s : State) : Host.Outcome State Fault Refusal :=
  .next (match s.byTag tag with
    | some j =>
      if j.st == .running && j.kind == JobKind.decPicture && decide (j.runTbm + s.decBudget j ≤ s.now) then
        (s.endJob j (fun s => let (st, s) := s.runDecode j f true JobFacts.empty; (st, [], s))).settle
      else s
    | none => s)

/-- Cask has signed the first closed manifest (R603): its running job ends. -/
def execManifestSigned (s : State) : Host.Outcome State Fault Refusal :=
  .next (match s.jobs.find? (fun j => j.kind == JobKind.caskManifest && j.st == .running) with
    | some j => (s.endJob j (fun s => (stOk, [], s.signNext))).settle
    | none => s)

def execJobRetire (tag : Nat) (s : State) : Host.Outcome State Fault Refusal :=
  .next (match s.byTag tag with
    | some j => if j.st == .complete then (s.retireJob j).settle else s
    | none => s)

def execHeadTimeout (stream : Nat) (s : State) : Host.Outcome State Fault Refusal := .next (s.headTimeout stream).settle

/-! ## Reads of a frame by the host (R324, R351, R389) -/

/-- What a read copies: items of a size, all of them that exist; the tiles among them, which the tile port verifies; and the
bytes of one item. -/
structure ReadPlan where
  size  : Nat
  total : Nat
  tiles : Option Tiles
  /-- Substitute of a tile. -/
  subst : List Byte
  /-- Items that are delivered as zero-signal tiles, whatever they hold (R387), and that tile. -/
  gone  : List Nat
  blank : List Byte
  bytes : List Byte
  /-- Bytes of the tiles before item 0. -/
  skip  : Nat
  /-- Where plain bytes lie in capture memory, if they do. -/
  plain : Option Nat
deriving DecidableEq, Repr

def planTiles (t : Tiles) (subst : List Byte) (gone : List Nat) : ReadPlan :=
  { size := t.size, total := t.count, tiles := some t, subst := subst, gone := gone, blank := [], bytes := [], skip := 0, plain := none }

/-- What a frame has in a ring of R684: items of a size in the ring's tiles. -/
def State.planRing (s : State) (c : Nat) (k : RingKind) (q : BitVec 32) (size : Nat) : Option ReadPlan :=
  match s.regionOf 10 c, (s.frameRing c k).find q with
  | some _, some x =>
    let (a, n, tags) := s.ringAt c k
    some { planTiles { addr := a, size := 2048, count := n, tags := tags } zeroTile [] with
      size := size, total := x.bytes.length / size, skip := x.slot * ringBytes (ctxBlocks s.cfg.inForce c) k }
  | _, _ => none

def planBytes (size : Nat) (d : List Byte) : ReadPlan :=
  { size := size, total := d.length / size, tiles := none, subst := [], gone := [], blank := [], bytes := d, skip := 0, plain := none }

/-- Bytes of capture memory, which reach their rows and may lie in invalid pages (R491). -/
def State.planMemory (s : State) (size a n : Nat) : ReadPlan := { planBytes size (s.capRead a n) with plain := some a }

/-- The reference that a frame wrote still stands: it wrote its buffer last, and no band job that writes the same buffer for a later
frame is with an engine (R351). -/
def State.refStands (s : State) (f : Frame) : Bool :=
  let buffer := (FrameDev.make f).refOut.addr
  let newer := s.jobs.any (fun j => j.kind == .steepBand && j.ctx == some f.ctx && (j.st == .issued || j.st == .running) &&
    (match s.devOf f.ctx j.frame with | some d => d.seq != f.seq && d.temporal && d.refOut.addr == buffer | none => false))
  (s.stp f.ctx).refWrites.contains (buffer, f.seq) && !newer &&
    s.mem.regions.any (fun r => r.use == 3 && r.owner % 64 == f.ctx && r.first * pageBytes == f.rangeBase 3)

/-- A buffer of kind 3. -/
def State.bufferPlan (s : State) (f : Frame) (id : Nat) : Option ReadPlan :=
  let d := s.devOf f.ctx f.seq
  let ring (k : RingKind) (size : Nat) : Option ReadPlan := s.planRing f.ctx k f.seq size
  if id = 0x01 then d.bind (fun d => if d.workFrame.isSome then some (planTiles d.work zeroTile []) else none)
  else if id = 0x02 then
    let g := FrameDev.make f
    if g.temporal && s.refStands f then some (planTiles g.refOut zeroTile []) else none
  else if id = 0x03 then ring .profile 8
  else if id = 0x04 then ring .flicker 64
  else if id = 0x05 then ring .steep 64
  else if 0x10 ≤ id && id < 0x14 then
    d.bind (fun d => (d.outFrame (id - 0x10)).bind (fun o => (mashEntry d.blk o.out).map (fun e =>
      let blank := ((tileRow e 0 (fun _ x => zeroPixel e x)).headD [])
      let gone := (List.range (outTiles e)).filter (fun k => o.missing.testBit (k / outTilesX e))
      { planTiles (d.outArea o.out o.index) zeroTile gone with blank := blank })))
  else if 0x14 ≤ id && id < 0x18 then
    d.bind (fun d => (d.outFrame (id - 0x14)).bind (fun o => (mashEntry d.blk o.out).map (fun e =>
      planBytes 1 (le (ceilDiv (outTilesY e) 8) o.missing))))
  else if id = 0x20 then ring .mash 64
  else none

/-- What CAP_READ reads of a frame. -/
def State.readPlan (s : State) (f : Frame) (kind buffer : Nat) : Option ReadPlan :=
  let n := tilesX f.width * tilesY f.height
  let raw : Tiles := { addr := f.addr, size := 128 * f.depth, count := n, tags := f.tagBase }
  match kind with
  | 0 => some (planTiles raw (rawSubstitute f.depth f.pad) [])
  | 1 => some (s.planMemory 4 f.tagBase (4 * n))
  | 2 => some (s.planMemory 1 (f.addr + n * raw.size) f.embedBytes)
  | _ => s.bufferPlan f buffer

/-- Begin or end the hold of a read (R20). A read of a reference holds its buffer through `State.refRead`. -/
def State.holdRead (s : State) (c : Nat) (q : BitVec 32) (kind buffer : Nat) (by_ : Nat → Nat) : State :=
  let s := s.updFrame c q (fun f => { f with reads := by_ f.reads })
  if kind ≠ 3 then s
  else if buffer = 1 then s.updDev c q (fun d => { d with reads := by_ d.reads })
  else if 0x10 ≤ buffer && buffer < 0x18 then s.updOut c q (buffer % 4) (fun o => { o with reads := by_ o.reads })
  else s

def formCapRead : Form := { op := 0x0407, lo := 24, hi := 24, ctx := .one, reserved := [(6, 2)] }

def capReadBody (c : Cmd) (s : State) : State :=
  let p := c.payload
  let k := c.ctx
  let kind := fld p 4 1
  let buffer := fld p 5 1
  let first := fld p 8 4
  let n := fld p 12 4
  if bit s.policyFlags 3 then s.fail c stNotAuthorised
  else if !s.hasLanding k then s.badCtx c
  else match (s.ctx k).record (BitVec.ofNat 32 (fld p 0 4)) with
    | none => s.badField c 0
    | some f =>
      if 3 < kind then s.badField c 4
      else if kind ≠ 3 && buffer ≠ 0 then s.badField c 5
      else if fld p 16 8 % 64 ≠ 0 then s.badField c 16
      else if s.landMode k = 1 && ((s.ctx k).st == .running || (s.ctx k).st == .postTrigger) then s.fail c stBusy
      else if f.state ≠ 1 && f.state ≠ 4 then s.fail c stBusy
      else match s.readPlan f kind buffer with
        | none => s.badField c 5
        | some r =>
          if r.total < first then s.badField c 8
          else if n = 0 || r.total < first + n || 268435456 < n * r.size then s.badField c 12
          else (s.accept c k [f.seq.toNat, kind, buffer, first, n, fld p 16 8]).holdRead k f.seq kind buffer (· + 1)

def execCapRead (b : Mbox) (s : State) : Host.Outcome State Fault Refusal := .next (s.take b formCapRead capReadBody)

/-! ## Host transfers (R324, R448, R528) -/

/-- The facts of a transfer as a job's. -/
def dmaJob (f : DmaFacts) : JobFacts := { JobFacts.empty with misses := f.misses, ecc := f.ecc, hwFault := !f.ecc.isEmpty }

/-- The tiles of a plan that hold some bytes of it. -/
def ReadPlan.tileRange (r : ReadPlan) (lo n : Nat) : List Nat :=
  match r.tiles with
  | some t => List.range' ((r.skip + lo) / t.size) (if n = 0 then 0 else (r.skip + lo + n - 1) / t.size + 1 - (r.skip + lo) / t.size)
  | none => []

/-- Copy items to the host: result, status, and whether any tile failed. -/
def State.copyOut (s : State) (r : ReadPlan) (first n host : Nat) (f : DmaFacts) (whole : Bool) (ctx : Nat) : List Byte × Nat × Bool × State :=
  let items := if whole then n else min n (f.bytes / max 1 r.size)
  let lo := first * r.size
  let len := items * r.size
  let ks := r.tileRange lo len
  let reads := match r.tiles with | some t => (ks.filter (fun k => !r.gone.contains k)).map t.one | none => []
  let s := s.eccSeen f.ecc { master := 0x6A, ctx := ctx }
  let g := s.verify (dmaJob f) reads
  let s := s.reachTiles 0x6A reads
  let failed (k : Nat) : Bool := match r.tiles with | some t => !r.gone.contains k && g.lost t k | none => false
  let subs := ks.filter (fun k => r.gone.contains k || failed k)
  let data := match r.tiles with
    | some t => sub ((ks.map (fun k => if r.gone.contains k then fit t.size r.blank else if failed k then fit t.size r.subst
        else s.capRead (t.addr + k * t.size) t.size)).flatten) ((r.skip + lo) % t.size) len
    | none => sub r.bytes lo len
  let fault := g.hwFault || r.plain.any (fun a => !s.mapped (a + lo) len)
  let s := match r.plain with | some a => s.reach 2 0x6A (a + lo) len | none => s
  let s := each g.misses (fun m s =>
    s.tileMiss m (tagOf r.tiles.toList m.addr) { master := 0x6A, ctx := ctx } false) s
  let s := if data.isEmpty then s else s.dmaOut host data
  (le 4 items ++ le 4 subs.length ++ le 4 (subs.headD 0xFFFFFFFF), if whole && subs.isEmpty && !fault then stOk else stHwFault,
    ks.any failed, s)

/-- CAP_READ's transfer has ended. -/
def State.endCapRead (s : State) (e : ExecCmd) (f : DmaFacts) (whole : Bool) : State :=
  let c := e.key
  let q := BitVec.ofNat 32 (e.arg 0)
  match (s.ctx c).record q with
  | none => s.finish e stHwFault (le 4 0 ++ le 4 0 ++ le 4 0xFFFFFFFF) none
  | some fr =>
    let r := (s.readPlan fr (e.arg 1) (e.arg 2)).getD (planBytes 1 [])
    let (res, st, lost, s) := s.copyOut r (e.arg 3) (e.arg 4) (e.arg 5) f whole c
    let s := if lost then s.updFrame c q (fun x => { x with landFlags := setFlag x.landFlags gfTileCheck }) else s
    (s.holdRead c q (e.arg 1) (e.arg 2) (· - 1)).finish e st res none

/-- DEC_READ's transfer has ended; a frame released meanwhile is given back. -/
def State.endDecRead (s : State) (e : ExecCmd) (f : DmaFacts) (whole : Bool) : State :=
  let n := e.key
  let k := e.arg 0
  let (res, st, _, s) := s.copyOut (planTiles (s.decTiles n k) (zeros 2048) []) (e.arg 1) (e.arg 2)
    (fld e.cmd.payload 16 8) f whole 0xFF
  let s := s.updDec n fun d => { d with slotReads := upd d.slotReads k (· - 1) }
  s.freeDecSlots.finish e st res none

/-- The command's transfer reads host memory. -/
def ExecCmd.readsHost (e : ExecCmd) : Bool :=
  match e.cmd.opcode with
  | 0x0A01 | 0x0B02 => true
  | 0x0507 | 0x0508 => e.args.headD 0 == 0
  | _ => false

/-- The transfer of an executing command ends or stops. It is whole only while the endpoint may master the bus. -/
def State.dmaDone (s : State) (b : Mbox) (f : DmaFacts) : State :=
  match s.ncp.exec.find? (fun e => e.cmd.box == b) with
  | none => s
  | some e =>
    let whole := f.complete && s.ep.bme && s.ep.st == 6 && !e.cut
    let s := if e.readsHost then s.countLink 0x0F f.bytes { privilege := some 0, master := some 0x6A } else s
    match e.cmd.opcode with
    | 0x0407 => s.endCapRead e f whole
    | 0x0A06 => s.endDecRead e f whole
    | 0x0A01 =>
      if s.jobs.any (fun j => j.kind == JobKind.decPicture && j.object == e.key && j.args.headD 0 == e.arg 0) then s
      else if whole then s.cutPicture e f.luma (fit (e.arg 1) f.data) else s.endSubmit e 0xC
    | 0x0B02 =>
      if whole then s
      else match s.jobs.find? (fun j => j.kind == JobKind.barrel && j.object == e.key && j.st == .running) with
        | some j => s.endJob j (fun s => (stHwFault, [], s))
        | none => s
    | 0x0507 | 0x0508 => s.hostCopied e whole f.data
    | _ => s

def execHostDmaDone (b : Mbox) (f : DmaFacts) (s : State) : Host.Outcome State Fault Refusal := .next (s.dmaDone b f).settle

def execBrlSubmit (b : Mbox) (s : State) : Host.Outcome State Fault Refusal := .next (s.take b formBrlSubmit brlSubmitBody).settle

/-! ## NRG commands (R214–R216) -/

def nrgCostReadBody (c : Cmd) (s : State) : State :=
  let k := fld c.payload 0 1
  if 0x10 < k then s.badField c 0 else s.reply c stOk [] (some (s.costEntry k))

def execNrgCostRead (b : Mbox) (s : State) : Host.Outcome State Fault Refusal := .next (s.take b formNrgCostRead nrgCostReadBody)

def formNrgTrace : Form := { op := 0x0802, mgmt := true, lo := 4, hi := 4 }

def nrgTraceBody (c : Cmd) (s : State) : State :=
  let n := fld c.payload 0 4
  if n = 0 || 256 < n then s.badField c 0
  else
    let es := s.ledger.trace.take n
    s.reply c stOk [] (some (le 4 es.length ++ le 4 0 ++ (es.map TraceEntry.bytes).flatten))

def execNrgTrace (b : Mbox) (s : State) : Host.Outcome State Fault Refusal := .next (s.take b formNrgTrace nrgTraceBody)

/-! ## Rows of lanes, the sensor link and contexts -/

/-- The frame before is closed and its consumers are known before the new frame asks for a slot (R299). -/
def execOslFs (shroud vc : Nat) (number : Word) (s : State) : Host.Outcome State Fault Refusal :=
  .next ((s.fsCloses shroud vc number).settle.fs shroud vc number).settle

def execOslFe (shroud vc : Nat) (number : Word) (s : State) : Host.Outcome State Fault Refusal := .next (s.fe shroud vc number).settle

def execOslLine (shroud : Nat) (p : LongPacket) (s : State) : Host.Outcome State Fault Refusal := .next (s.line shroud p).settle

def execOslEmbedded (shroud : Nat) (p : LongPacket) (s : State) : Host.Outcome State Fault Refusal := .next (s.data shroud p false).settle

def execOslUser (shroud : Nat) (p : LongPacket) (s : State) : Host.Outcome State Fault Refusal := .next (s.data shroud p true).settle

def execHdrCrc (shroud : Nat) (cut : Option LongPacket) (s : State) : Host.Outcome State Fault Refusal := .next (s.hdrCrc shroud cut).settle

def execBadHead (shroud : Nat) (cut : Option LongPacket) (s : State) : Host.Outcome State Fault Refusal := .next (s.badHead shroud cut).settle

/-- The open frame of a context has been open for its frame timeout. -/
def State.frameOverdue (s : State) (c : Nat) : Bool :=
  match s.link c with
  | none => false
  | some link =>
    match s.openAt (fld link 0 1) (fld link 1 1) with
    | some o => decide (o.openTbm + us (if fld o.link 12 4 = 0 then 100000 else fld o.link 12 4) ≤ s.now)
    | none => false

/-- The frame timeout of a context's open frame, measured from its opening, expires: close cause 2 (R272). -/
def execFrameTimeout (ctx : Nat) (s : State) : Host.Outcome State Fault Refusal :=
  .next (if s.frameOverdue ctx then (s.frameTimeout ctx 2).settle else s)

def execTrigInEdge (pin : Nat) (rising : Bool) (holdNs : Nat) (s : State) : Host.Outcome State Fault Refusal :=
  .next (if s.running then (s.trigEdge pin rising holdNs).settle else s)

def execAlignBlock (shroud : Nat) (period : AlignPeriod) (precode : BitVec 16) (s : State) : Host.Outcome State Fault Refusal :=
  .next (s.alignPeriod shroud period precode).settle

def execSlLockLost (shroud : Nat) (lanes : BitVec 16) (f : LockLoss) (s : State) : Host.Outcome State Fault Refusal :=
  .next (s.lockLost shroud lanes f).settle

def execSlRetrain (b : Mbox) (s : State) : Host.Outcome State Fault Refusal := .next (s.take b formSlRetrain slRetrainBody).settle

def formCapRelease : Form := { op := 0x0405, lo := 12, hi := 12, ctx := .one, reservedBits := [(8, 4, 0xFFFFFFFE)] }

/-- R306: only landed SNAP frames, and frames of a FROZEN ring, are named. -/
def capReleaseBody (c : Cmd) (s : State) : State :=
  let k := c.ctx
  let first := fld c.payload 0 4
  let n := fld c.payload 4 4
  let flags := fld c.payload 8 4
  if !s.hasLanding k then s.badCtx c
  else if n = 0 then s.badField c 4
  else
    let x := s.ctx k
    let inRange (q : BitVec 32) : Bool := n == 0xFFFFFFFF || decide ((q - BitVec.ofNat 32 first).toNat < n)
    let hit (f : Frame) : Bool := f.state == 1 && inRange f.seq && (f.mode == 2 || (f.mode == 1 && x.st == .frozen))
    let named := (x.frames.filter hit).map (fun f => f.seq.toNat)
    let s := s.updCtx k fun y => { y with frames := y.frames.map (fun f => if hit f then { f with state := 4 } else f) }
    s.accept c k (flags :: named)

def execCapRelease (b : Mbox) (s : State) : Host.Outcome State Fault Refusal := .next (s.take b formCapRelease capReleaseBody).settle

end Sys2Proof.Machine
end

