-- ==== Sys2Proof/Machine/Validate.lean ====
section
/-! DEFINITION. Validation of a generation (R164–R168): references, resources, SREF, landing, memory, the ledger, global blocks in
use, holding contexts, the trust policy and the persist size, in the order of R164. -/

namespace Sys2Proof.Machine

open Sys2Proof

/-! ## Reasons (R164, R168) -/

structure Fail where
  reason : Nat
  type   : Nat
  target : Nat
  detail : Nat
deriving DecidableEq, Repr

def Fail.plain (reason type : Nat) : Fail := { reason := reason, type := type, target := globalTarget, detail := 0 }

/-- The result of a VALIDATION_FAILED completion. -/
def State.failResult (s : State) (f : Fail) : List Byte :=
  le 4 s.liveNumber ++ le 4 f.reason ++ le 2 f.type ++ le 2 f.target ++ le 4 f.detail

def failIf (b : Bool) (f : Fail) : Option Fail := if b then some f else none

def firstFail (l : List (Option Fail)) : Option Fail := l.findSome? id

/-- R157, R184. -/
def structureFault (g : Gen) : Option Fail :=
  match g.incomplete with
  | x :: _ => some { reason := 2, type := x.header.type, target := x.header.target, detail := 0 }
  | [] => firstFail (g.blocks.map (fun b =>
      match headerBreaks b b.payload.length with
      | some off => some { reason := 2, type := b.type, target := b.target, detail := off }
      | none => none))

def contentFail (bs : List Block) : Option Fail :=
  firstFail (bs.map (fun b => (contentFault bs b).map (fun off => { reason := 2, type := b.type, target := b.target, detail := off })))

/-! ## References (R164, R279, R287, R292, R358, R394, R481, R556, R558, R635, R636, R649) -/

def streamsIn (bs : List Block) : List (List Byte) := streamEntries ((payloadIn bs 0x0701 globalTarget).getD [])
def yardsIn (bs : List Block) : List (List Byte) := yardEntries ((payloadIn bs 0x0901 globalTarget).getD [])
def sensorsIn (bs : List Block) : List (List Byte) :=
  let p := (payloadIn bs 0x0202 globalTarget).getD []
  entriesFrom p 8 16 (fld p 0 4)
def decsIn (bs : List Block) : List (List Byte) :=
  let p := (payloadIn bs 0x0601 globalTarget).getD []
  entriesFrom p 8 32 (fld p 0 4)
def powersIn (bs : List Block) : List (List Byte) := powerEntries ((payloadIn bs 0x0D02 globalTarget).getD [])
def basesIn (bs : List Block) : List (List Byte) := baseEntries ((payloadIn bs 0x0A02 globalTarget).getD [])

def lands (bs : List Block) (c : Nat) : Bool := (blockIn bs 0x0201 c).isSome && (blockIn bs 0x0203 c).isSome

/-- Per-context blocks without what they build on. -/
def contextRef (bs : List Block) (b : Block) : Bool :=
  let has (t : Nat) : Bool := (blockIn bs t b.target).isSome
  !contextTypes.contains b.type ||
    (has 0x0201 && (b.type != 0x0201 || has 0x0203) && (b.type / 256 != 4 || has 0x0301) &&
      (b.type / 256 != 3 || b.type == 0x0301 || has 0x0301) &&
      (b.type != 0x0201 || (shroudEntries bs).any (fun e => fld e 1 1 == fld b.payload 0 1)))

/-- The lanes that a shroud's training may use hold its width, retired ones left out; its lander is not retired. -/
def State.shroudRef (s : State) (e : List Byte) : Bool :=
  let n := fld e 0 1
  let gone (l : Nat) : Bool := s.isRetired (Loc.ofLane n l)
  let mask := fld e 12 2
  let left := (List.range 16).filter (fun l => !gone l && (mask == 0 || bit mask l))
  decide (fld e 3 1 ≤ left.length) && !s.unitRetired n

/-- Ethernet port p is enabled by a FLEX_SET, and its lane is not retired. -/
def State.ethRef (s : State) (bs : List Block) (p : Nat) : Bool :=
  (yardsIn bs).any (fun y =>
    let n := fld y 0 1
    fld y 1 1 == 3 && (if fld y 2 1 = 1 then n == 6 + p else n == 6 + p / 4) &&
      bit (fld y 3 1) (if fld y 2 1 = 1 then 0 else p % 4) &&
      !s.isRetired { Loc.none with kind := 6, unit := n, sub := if fld y 2 1 = 1 then 0 else p % 4 })

def State.portRef (s : State) (bs : List Block) (p : Nat) : Bool :=
  hasRootPort ((payloadIn bs 0x0901 globalTarget).getD []) p && !s.isRetired { Loc.none with kind := 6, unit := rootYard p, sub := rootSlot p }

/-- A list of blocks configures the source that a STREAM_SET entry names. -/
def sourceIn (bs : List Block) (e : List Byte) : Bool :=
  let c := fld e 4 1
  match fld e 2 1 with
  | 0 => (encOf bs c (fld e 3 1)).isSome
  | 1 => lands bs c
  | 2 => (mashEntry (ctxBlocks bs c) (fld e 3 1)).isSome
  | _ => (decEntryOf bs (fld e 3 1)).isSome

def State.streamRef (s : State) (bs : List Block) (e : List Byte) : Bool :=
  let c := fld e 4 1
  let far := match fld e 1 1 with
    | 0 => (List.range (fld e 16 1)).all (fun k => s.portRef bs (fld e (32 + k) 1))
    | 3 => true
    | _ => s.ethRef bs (fld e 16 1)
  sourceIn bs e && (fld e 2 1 == 3 || lands bs c) && far

/-- Outputs and FSYNC need TBV, and an ST 2110 stream its base (R558). -/
def timeRef (bs : List Block) : Option Fail :=
  let tbv := (timeEntry bs 4).isSome
  firstFail
    [failIf (!tbv && (sensorsIn bs).any (fun e => fld e 8 1 == 1)) (Fail.plain 3 0x0202),
     failIf (!tbv && (streamsIn bs).any (fun e => fld e 1 1 != 0)) (Fail.plain 3 0x0701),
     failIf ((streamsIn bs).any (fun e => (fld e 1 1 == 1 || fld e 1 1 == 2) && (timeEntry bs (fld e 44 1)).isNone))
       (Fail.plain 3 0x0701)]

def powerOwnerRef (bs : List Block) (e : List Byte) : Bool :=
  match fld e 6 1 with
  | 0 => true
  | 1 => (shroudEntries bs).any (fun x => fld x 1 1 == fld e 7 1)
  | _ => hasRootPort ((payloadIn bs 0x0901 globalTarget).getD []) (fld e 7 1)

def slotPowerRef (bs : List Block) : Bool :=
  (yardsIn bs).all (fun y => fld y 1 1 != 2 || (List.range 4).all (fun k =>
    let x := slotEntry y k
    fld x 0 1 == 0 || fld x 2 1 == 0xFF || (powersIn bs).any (fun e => fld e 0 1 == fld x 2 1)))

def State.refFail (s : State) (bs : List Block) : Option Fail :=
  let tg := (payloadIn bs 0x0A01 globalTarget).getD [0, 0xFF]
  let ch := fld tg 1 1
  let hp := (payloadIn bs 0x0D01 globalTarget).getD []
  firstFail
    ((bs.map (fun b => failIf (!contextRef bs b) { reason := 3, type := b.type, target := b.target, detail := 0 })) ++
     [failIf (!(shroudEntries bs).all s.shroudRef) (Fail.plain 3 0x0101),
      failIf (!(shroudEntries bs).all (fun e => (sensorsIn bs).any (fun x => fld x 0 1 == fld e 1 1))) (Fail.plain 3 0x0202),
      failIf (!(streamsIn bs).all (s.streamRef bs)) (Fail.plain 3 0x0701),
      failIf (!slotPowerRef bs) (Fail.plain 3 0x0901),
      failIf (!(basesIn bs).all (fun e =>
        (fld e 2 1 == 0 || s.ethRef bs (fld e 4 1)) &&
          (decide (fld e 1 1 < 4) || (timeEntry bs (fld e 1 1 - 4)).isSome))) (Fail.plain 3 0x0A02), timeRef bs,
      failIf (decide (ch ≤ 11) && fld hp (16 + 16 * ch) 1 == 0) (Fail.plain 3 0x0A01),
      failIf (!(powersIn bs).all (powerOwnerRef bs)) (Fail.plain 3 0x0D02)])

/-! ## Figures -/

/-- Configured ingest of every context, in bytes per 1,000 s. -/
def ingestTotal (bs : List Block) : Nat := ((landings bs).map (fun x => ingestMilli x.2.1 x.2.2)).sum

/-- Rows per second × 1,000 and bytes per second × 1,000 of an encoding (R481). -/
def encRateMilli (bs : List Block) (c : Nat) (codec : Nat) (e : List Byte) : Nat :=
  let b := ctxBlocks bs c
  (if codec = 0 then xsTarget b e * frameRate b else fld e 8 4 * 125 * 1000) + 64 * encRows b codec e * frameRate b

def recordRateMilli (bs : List Block) (e : List Byte) : Nat :=
  let c := fld e 4 1
  match fld e 2 1 with
  | 0 => (match encOf bs c (fld e 3 1) with | some (codec, x) => encRateMilli bs c codec x | none => 0)
  | _ =>
    let p := (payloadIn bs 0x0201 c).getD []
    let l := (payloadIn bs 0x0203 c).getD []
    ingestMilli p l + 64 * fld l 12 4 * (if 67108864 < slotSize p then tilesY (linkHeight p) else 1)

/-- Output pictures per second of an output stream: TBV's cadence over its divider. -/
def outputRate (bs : List Block) (e : List Byte) : Rat :=
  match cadencePeriod bs with
  | some p => if p = 0 then 0 else 1000000000 / p / (max 1 (fld e 10 1) : Nat)
  | none => 0

/-- Bits per second that an ST 2110 stream puts on its port. -/
def netBits (bs : List Block) (e : List Byte) : Rat :=
  let c := fld e 4 1
  if fld e 1 1 = 2 then
    (match encOf bs c (fld e 3 1) with
     | some (_, x) => ((xsTarget (ctxBlocks bs c) x * 8 * frameRate (ctxBlocks bs c) : Nat) : Rat) / 1000
     | none => 0)
  else
    let px : Nat := match fld e 2 1 with
      | 2 => (match mashSource bs e with
        | some o => outWidth o * outHeight o * (fld o 2 1 * (if fld o 1 1 = 2 then 2 else 3))
        | none => 0)
      | _ => (match decEntryOf bs (fld e 3 1) with | some d => fld d 4 2 * fld d 6 2 * 20 | none => 0)
    (px : Rat) * outputRate bs e

/-- Every encoding of a generation: context, codec and entry. -/
def allEncs (bs : List Block) : List (Nat × Nat × List Byte) :=
  ((List.range 64).map (fun c => (encsOf (ctxBlocks bs c)).map (fun x => (c, x.2.1, x.2.2)))).flatten

/-- Pixels per 1,000 s of the encodings of a codec. -/
def encPixels (bs : List Block) (codec : Nat) : Nat :=
  (((allEncs bs).filter (fun x => x.2.1 == codec)).map (fun x =>
    let b := ctxBlocks bs x.1
    let (w, h) := encSize b x.2.2
    w * h * frameRate b)).sum

def hevcTotal (bs : List Block) : Nat :=
  (((allEncs bs).filter (fun x => x.2.1 == 1)).map (fun x => hevcMemory (ctxBlocks bs x.1) x.2.2)).sum

/-- Contexts that a list of blocks names. -/
def contextsIn (bs : List Block) : List Nat := (bs.filter (·.type == 0x0201)).map (·.target)

def developerTotal (bs : List Block) : Nat :=
  ((contextsIn bs).map (fun c => steepMemory (ctxBlocks bs c) + mashMemory (ctxBlocks bs c))).sum

def mapsTotal (bs : List Block) : Nat := ((contextsIn bs).map (fun c => mapBytes (ctxBlocks bs c))).sum

def genBlocks (g : Option Gen) : List Block := match g with | some g => g.blocks | none => []

/-- The distinct 3D LUT payloads of two generations. -/
def lutTables (a b : List Block) : Nat := (nub (((a ++ b).filter (fun x => lutTypes.contains x.type)).map (·.payload))).length

/-! ## Power of a generation (R167, R200) -/

/-- Lanes that count as kinds 0x0B, 0x0C and 0x0D under a generation: the endpoint as it runs, drive root ports at standby
unless `all`, Ethernet ports active, and the SDI lanes of enabled streams (R537). -/
def State.genLanes (s : State) (bs : List Block) (all : Bool) : Nat × Nat × Nat :=
  let ep := s.ep.width
  let root := ((yardsIn bs).map (fun y => if fld y 1 1 = 2 then ((List.range 4).map (fun k => fld (slotEntry y k) 0 1)).sum else 0)).sum
  let eth := ((yardsIn bs).map (fun y => if fld y 1 1 = 3 then (if fld y 2 1 = 1 then 4 * (fld y 3 1 % 2) else popCount 4 (fld y 3 1)) else 0)).sum
  let sdi := (((streamsIn bs).filter (fun e => fld e 1 1 == 3 && bit (fld e 8 2) 2)).map (fun e => (sdiLanesOf e).length)).sum
  if all then (ep + root + eth, sdi, 0) else (ep + eth, sdi, root)

/-- Baseline in µJ per second, which are µW. -/
def State.genBaseline (s : State) (bs : List Block) (all : Bool) : Rat :=
  (s.baselineGroups (s.genLanes bs all)).sum * 20000 + s.ledger.leakage * 1000

/-- Bytes that the flicker tap of a context writes, for each frame on the average (R343–R345): a profile of each frame that the
interval selects, and a sample of each stride. -/
def tapBytes (b : CtxBlocks) : Rat :=
  let fk := (b 0x0305).getD []
  let n := ceilDiv (linkHeight ((b 0x0201).getD [])) (cfaPeriod (coreOf b))
  (if flickOn b 0 then ((8 * n : Nat) : Rat) / ((if fld fk 6 2 = 0 then 8 else fld fk 6 2 : Nat) : Rat) else 0) +
    (if flickOn b 1 then 8 / ((max 1 (fld fk 16 2) : Nat) : Rat) else 0)

/-- Landing power in µW: the bits of the bound lanes, the landed bytes with their tag-plane entries, and those of the flicker tap. -/
def State.landingPower (s : State) (bs : List Block) : Rat :=
  let sensors := (landings bs).map (fun x => fld x.2.1 0 1)
  let bits := (((shroudEntries bs).filter (fun e => sensors.contains (fld e 1 1))).map (fun e =>
    fld e 3 1 * (if fld e 4 1 = 0 then 2 else 1) * fld e 8 4 * 1000000)).sum
  let bytes := ((landings bs).map (fun x =>
    (((rawBytes x.2.1 + embedArea x.2.1 + 4 * rawTiles x.2.1 : Nat) : Rat) + tapBytes (ctxBlocks bs x.1)) * (fld x.2.2 12 4 : Nat))).sum
  s.energy 0x00 (bits : Nat) + s.energy 0x01 (bytes / 1000)

/-- Monitoring streams: outputs that are enabled. -/
def monitors (bs : List Block) : List (List Byte) := (streamsIn bs).filter (fun e => fld e 1 1 != 0 && bit (fld e 8 2) 2)

/-- The C1 demand of a context: Steep, Mash and JPEG XS energy in µJ per frame, pixels of each engine kind, and the streamer. -/
def State.monitorDemand (s : State) (bs : List Block) (c : Nat) : Rat × (Nat × Nat × Nat) :=
  let b := ctxBlocks bs c
  let ms := (monitors bs).filter (fun e => fld e 4 1 == c && fld e 2 1 != 3)
  let encs := nub ((ms.filter (fun e => fld e 2 1 == 0)).map (fun e => fld e 3 1))
  let ents := (xsEntries b).filter (fun x => encs.contains (fld x 0 1))
  let link := (b 0x0201).getD []
  let dev := ms.any (fun e => fld e 2 1 == 2) || ents.any (fun x => fld x 1 1 != 0)
  let tiles := rawTiles link
  let px := if dev then 1024 * tiles else 0
  let maps := ((List.range (tilesY (linkHeight link))).map (mapTraffic b (linkWidth link) (linkHeight link))).sum
  let steep := if dev then s.energy 0x02 (px : Nat) +
      s.energy 0x01 ((tiles * (128 * linkDepth link + 4 + 2052 + (if steepOn b 2 then 2052 + 2052 else 0)) + maps : Nat)) else 0
  let mash := if dev then s.energy 0x03 (px : Nat) +
      s.energy 0x01 ((tiles * 2048 + ((mashEntries b).map (fun e => outTiles e * 2052)).sum : Nat)) else 0
  let xs := (ents.map (fun x =>
    let (w, h) := encSize b x
    let moved := ((List.range (encRows b 0 x)).map (rowTraffic b 0 x 0)).sum
    s.energy 0x04 (w * h : Nat) + s.energy 0x01 (moved : Nat))).sum
  let out := (ms.map (fun e => if fld e 2 1 = 0 then
      s.energy 0x01 ((((xsEntries b).filter (fun x => fld x 0 1 == fld e 3 1)).map (xsTarget b)).sum : Nat)
    else s.energy 0x01 ((match mashEntry b (fld e 3 1) with | some o => outTiles o * 2052 | none => 0 : Nat)))).sum
  (steep + mash + xs + out, (px, px, (ents.map (fun x => (encSize b x).1 * (encSize b x).2)).sum))

/-- C1 demand in µW, and pixels per 1,000 s of Steep, Mash and JPEG XS. -/
def State.c1Demand (s : State) (bs : List Block) : Rat × (Nat × Nat × Nat) :=
  let per := (contextsIn bs).map (fun c => (s.monitorDemand bs c, frameRate (ctxBlocks bs c)))
  let decs := ((monitors bs).filter (fun e => fld e 2 1 == 3)).map (fun e =>
    match decEntryOf bs (fld e 3 1) with
    | some d => s.energy 0x01 ((decTilesX d * decTilesY d * 2052 : Nat)) * (fld d 20 4 : Nat) / 1000
    | none => 0)
  let sum (f : Nat × Nat × Nat → Nat) : Nat := (per.map (fun x => f x.1.2 * x.2)).sum
  ((per.map (fun x => x.1.1 * ((x.2 : Nat) : Rat) / 1000)).sum + decs.sum, (sum (·.1), sum (·.2.1), sum (·.2.2)))

/-- Engines of a kind that are not retired (R649). -/
def State.enginesLeft (s : State) (ms : List Nat) : Nat := (ms.filter (fun m => !s.unitRetired m)).length

/-- The two parts of R167: fits, and the demand in units of 0.1 W. -/
def State.ledgerFits (s : State) (bs : List Block) : Bool × Nat :=
  let (c1, steep, mash, xs) := s.c1Demand bs
  let total := s.genBaseline bs false + 11 / 10 * s.landingPower bs + c1
  let policy := (payloadIn bs 0x0C01 globalTarget).getD []
  let limit : Rat := 9 / 10 * (pSustOf policy * reefScale s.ledger.reefAtTick * 10 : Nat)
  let fits (px each_ : Nat) (ms : List Nat) : Bool := decide (10 * px ≤ 9 * 1000 * each_ * s.enginesLeft ms)
  (decide (total ≤ limit) && fits steep 8000000000 (List.range' 0x40 8) && fits mash 8000000000 (List.range' 0x48 8) &&
    fits xs 16000000000 (List.range' 0x50 4), (total / 100000).ceil.toNat)

/-- The worst decode job fits a window (R445). -/
def State.decodeFits (s : State) (bs : List Block) (d : List Byte) : Bool :=
  let n := fld d 4 2 * fld d 6 2
  let cost := s.energy 0x06 (n : Nat) + s.energy 0x01 (16 * n : Nat)
  decide (cost ≤ 12000 - 50 / 1000000 * (s.genBaseline bs true + 11 / 10 * s.landingPower bs))

/-! ## Resources, SREF, landing and memory (R81, R165, R166, R342, R394, R422, R445, R481, R545) -/

def distinct (l : List Nat) : Bool := (nub l).length == l.length

def State.resourceFail (s : State) (bs : List Block) : Option Fail :=
  let recs := (streamsIn bs).filter (fun e => fld e 1 1 == 0)
  let nets := (streamsIn bs).filter (fun e => fld e 1 1 == 1 || fld e 1 1 == 2)
  let sdis := (streamsIn bs).filter (fun e => fld e 1 1 == 3)
  let sdiYards := ((yardsIn bs).filter (fun y => fld y 1 1 == 4)).length
  let lanes := (sdis.map sdiLanesOf).flatten
  let fast := (yardsIn bs).any (fun y => fld y 1 1 == 3 && fld y 2 1 == 1)
  let load (p : Nat) : Rat := ((nets.filter (fun e => fld e 16 1 == p)).map (netBits bs)).sum
  let decRate (d : List Byte) : Nat := fld d 4 2 * fld d 6 2 * fld d 20 4
  let live := genBlocks s.cfg.live
  firstFail
    [failIf (!distinct ((yardsIn bs).map (fun y => fld y 0 1)) || 1 < sdiYards) (Fail.plain 4 0x0901),
     failIf (decide (6442450944 < developerTotal bs + mapsTotal live)) (Fail.plain 4 0),
     failIf (decide (16 < lutTables bs live)) (Fail.plain 4 0),
     failIf (decide (16 < ((allEncs bs).filter (fun x => x.2.1 == 1)).length) || decide (32 < (allEncs bs).length)) (Fail.plain 4 0),
     failIf (decide (64000000000000 < encPixels bs 0)) (Fail.plain 4 0),
     failIf (decide (4000000000000 < encPixels bs 1) || decide (2147483648 < hevcTotal bs)) (Fail.plain 4 0),
     failIf ((decsIn bs).any (fun d => decide (1000000000000 < decRate d)) || decide (2000000000000 < ((decsIn bs).map decRate).sum) ||
       !(decsIn bs).all (s.decodeFits bs)) (Fail.plain 4 0x0601),
     failIf (decide (16 < recs.length) || decide (800000000000000 < (recs.map (recordRateMilli bs)).sum) ||
       (List.range 8).any (fun p => decide ((95 * (if fast then 4000000000 else 1000000000) : Nat) < load p)) ||
       !distinct lanes || lanes.any (fun l => 15 < l) || (!sdis.isEmpty && sdiYards == 0)) (Fail.plain 4 0x0701)]

/-- R81: one source per sensor and per group of four shrouds. -/
def srefFail (bs : List Block) : Option Fail :=
  let es := shroudEntries bs
  failIf (es.any (fun a => es.any (fun b =>
    (fld a 1 1 == fld b 1 1 || fld a 0 1 / 4 == fld b 0 1 / 4) && fld a 5 1 != fld b 5 1))) (Fail.plain 5 0x0101)

/-- R165; the detail counts units of 0.01 GB/s, that is 10¹⁰ bytes per 1,000 s. -/
def State.reservationFail (s : State) (bs : List Block) : Option Fail :=
  let t := ingestTotal bs
  let peak := 819200000000000 * s.goodStacks.length
  failIf (decide (6 * peak < 11 * t)) { Fail.plain 6 0 with detail := ceilDiv (11 * t) 100000000000 }

/-- Bytes of an older ring of a context that still holds frames (R683). -/
def State.ringExtent (s : State) (c : Nat) : Nat :=
  let x := s.ctx c
  ((x.frames.filter (fun f => !f.isFree)).map (fun f => f.addr + f.slotSize - x.ringBase)).foldl max 0

/-- Landing quotas of a generation with the extents of older rings: context, bytes and depth. -/
def State.quotas (s : State) (bs : List Block) : List (Nat × Nat) :=
  (List.range 64).filterMap (fun c =>
    let ext := s.ringExtent c
    match (landings bs).find? (fun x => x.1 == c) with
    | some (_, p, l) => some (max (quotaBytes l) ext, linkDepth p)
    | none => if ext = 0 then none else some (ext, linkDepth ((s.link c).getD [])))

/-- The memory sum of R166 in bytes. -/
def State.memorySum (s : State) (bs : List Block) : Nat :=
  ((s.quotas bs).map (fun x => x.1 + (if x.2 = 0 then 0 else ceilDiv (x.1 * 4) (128 * x.2)))).sum + developerTotal bs + hevcTotal bs +
    ((streamsIn bs).map stagingBytes).sum + ((decsIn bs).map decMemory).sum + 2147483648

def State.memoryFail (s : State) (bs : List Block) : Option Fail :=
  let m := s.memorySum bs
  failIf (decide (25769803776 * s.goodStacks.length < m) || decide (94489280512 < ((s.quotas bs).map (·.1)).sum))
    { Fail.plain 7 0 with detail := ceilDiv m 1048576 }

/-! ## Global blocks and their users (R171, R256, R287, R481, R514, R545, R557, R636) -/

/-- Entries of a table of a type by a key: those that are changed, added or removed. -/
def changedKeys (old new : List (List Byte)) (key : List Byte → Nat) : List Nat :=
  nub (((old ++ new).map key).filter (fun k => old.find? (fun e => key e == k) != new.find? (fun e => key e == k)))

def byFirst (e : List Byte) : Nat := fld e 0 1

/-- The source that the entries of an SREF group of four shrouds select (R81); none where the group has no entry. -/
def srefOf (es : List (List Byte)) (group : Nat) : Option Nat := (es.find? (fun e => byFirst e / 4 == group)).map (fun e => fld e 5 1)

/-- Sensors of the shrouds whose entries change (R256), and of all shrouds of a group whose output changes its source (R81). -/
def shroudSensors (old new : List (List Byte)) : List Nat :=
  let ch := changedKeys old new byFirst
  let moved (e : List Byte) : Bool :=
    match srefOf old (byFirst e / 4), srefOf new (byFirst e / 4) with
    | some a, some b => a != b
    | _, _ => false
  nub (((old ++ new).filter (fun e => ch.contains (byFirst e) || moved e)).map (fun e => fld e 1 1))

/-- What a changed global block names, as the contexts and streams of a list of blocks that use it. -/
structure Users where
  ctxs : List Nat
  strs : List Nat
deriving DecidableEq, Repr

def portsOf (e : List Byte) : List Nat := if fld e 1 1 = 0 then (List.range (fld e 16 1)).map (fun k => fld e (32 + k) 1) else []

/-- Lanes of the SDI yard that an entry names (R472). -/
def lanesOf (e : List Byte) : List Nat :=
  if fld e 1 1 = 3 then (List.range (if fld e 17 1 = 3 then 4 else 1)).map (fun i => fld e 16 1 + i) else []

/-- Two STREAM_SET entries name one source: context, kind and index. -/
def sameSource (e x : List Byte) : Bool := fld e 2 1 == fld x 2 1 && fld e 3 1 == fld x 3 1 && fld e 4 1 == fld x 4 1

def onSensor (bs : List Block) (sensors : List Nat) : List Nat :=
  (contextsIn bs).filter (fun c => sensors.contains (fld ((payloadIn bs 0x0201 c).getD []) 0 1))

/-- The users among `bs` of a global block of a type that changes from one list of blocks to another. A STREAM_SET entry that is
changed, added or removed names its source, which its context and other streams use (R171, R481). -/
def usersOf (old new bs : List Block) (type : Nat) : Users :=
  let strs (p : List Byte → Bool) : List Nat := ((streamsIn bs).filter p).map byFirst
  match type with
  | 0x0101 => { ctxs := onSensor bs (shroudSensors (shroudEntries old) (shroudEntries new)), strs := [] }
  | 0x0202 => { ctxs := onSensor bs (changedKeys (sensorsIn old) (sensorsIn new) byFirst), strs := [] }
  | 0x0601 =>
    let ds := changedKeys (decsIn old) (decsIn new) byFirst
    { ctxs := [], strs := strs (fun e => fld e 2 1 == 3 && ds.contains (fld e 3 1)) }
  | 0x0701 =>
    let ids := changedKeys (streamsIn old) (streamsIn new) byFirst
    let es := (streamsIn old ++ streamsIn new).filter (fun e => ids.contains (byFirst e))
    let ports := (es.map portsOf).flatten
    let lanes := (es.map lanesOf).flatten
    { ctxs := (contextsIn bs).filter (fun c => es.any (fun e => fld e 2 1 != 3 && fld e 4 1 == c && sourceIn bs e)),
      strs := strs (fun e => ids.contains (byFirst e) || es.any (sameSource e) || (portsOf e).any ports.contains ||
        (lanesOf e).any lanes.contains) }
  | 0x0801 =>
    let o := (payloadIn old 0x0801 globalTarget).getD [0xFF, 0xFF, 0xFF, 0xFF]
    let n := (payloadIn new 0x0801 globalTarget).getD [0xFF, 0xFF, 0xFF, 0xFF]
    let ch (k : Nat) : Bool := fld o k 1 != fld n k 1
    { ctxs := (contextsIn bs).filter (fun c => ch 0 || (ch 1 && (payloadIn bs 0x0301 c).isSome) || (ch 2 && (payloadIn bs 0x0502 c).isSome)),
      strs := strs (fun e => ch 3 && stagingBytes e != 0) }
  | 0x0901 =>
    let ys := changedKeys (yardsIn old) (yardsIn new) byFirst
    { ctxs := [], strs := strs (fun e => match fld e 1 1 with
        | 0 => (portsOf e).any (fun p => ys.contains (rootYard p))
        | 3 => (yardsIn bs).any (fun y => fld y 1 1 == 4 && ys.contains (byFirst y))
        | _ => (yardsIn bs).any (fun y => fld y 1 1 == 3 && ys.contains (byFirst y) &&
            byFirst y == (if fld y 2 1 = 1 then 6 + fld e 16 1 else 6 + fld e 16 1 / 4))) }
  | 0x0A02 =>
    let ks := changedKeys (basesIn old) (basesIn new) byFirst
    { ctxs := (contextsIn bs).filter (fun c => ks.contains (fld ((payloadIn bs 0x0203 c).getD []) 1 1) ||
        (ks.contains 4 && (sensorsIn bs).any (fun e => fld e 8 1 == 1 && byFirst e == fld ((payloadIn bs 0x0201 c).getD []) 0 1))),
      strs := strs (fun e => fld e 1 1 != 0 && (ks.contains 4 || (fld e 1 1 != 3 && ks.contains (fld e 44 1)))) }
  | 0x0D02 =>
    let ks := changedKeys (powersIn old) (powersIn new) byFirst
    let es := (powersIn old ++ powersIn new).filter (fun e => ks.contains (byFirst e))
    { ctxs := onSensor bs ((es.filter (fun e => fld e 6 1 == 1)).map (fun e => fld e 7 1)),
      strs := strs (fun e => (portsOf e).any (fun p => es.any (fun x => fld x 6 1 == 2 && fld x 7 1 == p))) }
  | _ => { ctxs := [], strs := [] }

/-- A stream runs: its take is open, or it is an enabled output whose source runs. -/
def State.streamRuns (s : State) (n : Nat) : Bool :=
  let t := s.stream n
  t.takeOpen || (t.isOutput && t.enable && (if t.srcKind = 3 then !(s.submissions t.srcIndex).isEmpty else s.capturing t.ctxId))

/-- A context uses its resources: it captures or holds frames. -/
def State.ctxUses (s : State) (c : Nat) : Bool := s.capturing c || s.holding c

def both (a b : Users) : Users := { ctxs := a.ctxs.filter b.ctxs.contains, strs := a.strs.filter b.strs.contains }

/-- A stream that the new generation keeps running. -/
def keepsRunning (bs : List Block) (n : Nat) : Bool :=
  (streamsIn bs).any (fun e => byFirst e == n && (fld e 1 1 == 0 || bit (fld e 8 2) 2))

/-- A changed global block whose resource a user keeps in both generations. -/
def State.globalFail (s : State) (bs : List Block) : Option Fail :=
  let live := genBlocks s.cfg.live
  firstFail (((changedBlocks live bs).filter (fun k => k.2 == globalTarget)).map (fun k =>
    let u := both (usersOf live bs live k.1) (usersOf live bs bs k.1)
    failIf (u.ctxs.any s.ctxUses || u.strs.any (fun n => s.streamRuns n && keepsRunning bs n)) (Fail.plain 9 k.1)))

/-- A changed landing block of a holding context (R170). -/
def State.holdFail (s : State) (bs : List Block) : Option Fail :=
  firstFail ((changedBlocks (genBlocks s.cfg.live) bs).map (fun k =>
    failIf ((k.1 == 0x0201 || k.1 == 0x0203) && s.holding k.2) { reason := 0xA, type := k.1, target := k.2, detail := 0 }))

/-! ## Trust policy (R586, R588) -/

def State.policyFail (s : State) (bs : List Block) : Option Fail :=
  let live := genBlocks s.cfg.live
  let ch := changedBlocks live bs
  let old := payloadIn live 0x0B01 globalTarget
  let new := payloadIn bs 0x0B01 globalTarget
  let owned := s.nv.fuses.lifecycle == 2
  let changed := old != new
  let bad := match new with
    | none => changed && owned
    | some p => changed && (!owned || !s.ownerKey.any (fun k => Config.dsaVerify k (p.take 96) (sub p 96 4627)) ||
        (fld p 8 8 != 0 && sub p 8 8 != fit 8 s.nv.fuses.serial) || decide (fld p 4 4 < s.nv.policyCounter))
  let p := new.getD []
  firstFail
    ([failIf bad (Fail.plain 0xB 0x0B01)] ++
     ch.map (fun k => failIf (bit (fld p 24 4) (k.1 / 256)) { reason := 0xB, type := k.1, target := k.2, detail := 0 }) ++
     [failIf (bit (fld p 16 4) 0 && (streamsIn bs).any (fun e => fld e 1 1 == 0 && !bit (fld e 8 2) 1)) (Fail.plain 0xB 0x0701)])

/-! ## All of it -/

/-- Validation of a generation in the order of R164; none when it passes. -/
def State.validate (s : State) (g : Gen) (persist : Bool) : Option Fail :=
  let bs := g.blocks
  match structureFault g, contentFail bs with
  | some f, _ => some f
  | none, some f => some f
  | none, none =>
    match s.refFail bs, s.resourceFail bs, srefFail bs, s.reservationFail bs with
    | some f, _, _, _ => some f
    | none, some f, _, _ => some f
    | none, none, some f, _ => some f
    | none, none, none, some f => some f
    | none, none, none, none =>
      let l := s.ledgerFits bs
      firstFail
        [s.memoryFail bs, failIf (!l.1) { Fail.plain 8 0 with detail := l.2 }, s.globalFail bs, s.holdFail bs, s.policyFail bs,
         failIf (persist && decide (12582912 < g.length)) (Fail.plain 0xC 0)]

end Sys2Proof.Machine
end

