-- ==== Sys2Proof/Machine/Generations.lean ====
section
/-! DEFINITION. Committing, applying, restoring and rolling back generations (R162, R171–R180, R182, R185, R217), and how each
global block takes effect. -/

namespace Sys2Proof.Machine

open Sys2Proof

/-! ## What a global block does as it applies -/

/-- SHROUD_SET: a shroud with no entry is OFF and unpowered; a changed one trains (R222, R245, R246, R254). A retrain that has not
ended is abandoned (R257). -/
def State.applyShrouds (s : State) (p : List Byte) : State :=
  let es := entriesFrom p 8 32 (fld p 0 4)
  let s := each (List.range 56) (fun n s =>
    let new := es.find? (fun e => fld e 0 1 == n)
    if (s.shroud n).entry = new then s
    else
      let s := ((s.endLoopback n none).noteReceived n).finishAll 0x0301 n stHwFault (le 1 0) none
      let s := s.updShroud n fun x =>
        { x with entry := new, st := .off, failReason := 0, testLane := none, trainTbm := none, permuted := false,
                 anyInverted := false, lanes := x.lanes.map Lane.unpowered }
      s.startTraining n) s
  s.allRails

/-- SENSOR_SET (R280, R281, R287): a port whose entry changes shuts down, and starts anew by its new one. -/
def State.applySensors (s : State) (p : List Byte) : State :=
  let es := entriesFrom p 8 16 (fld p 0 4)
  let s := each (List.range 16) (fun n s =>
    let new := es.find? (fun e => fld e 0 1 == n)
    if (s.sensor n).entry = new then s
    else
      let s := s.updSensor n fun x => { x with railsUp := false }
      (s.portSync n).updSensor n fun x => { x with entry := new }) s
  s.allRails

/-- The submissions of a stream end ABANDONED (R446): a job that is with a core runs on for no stream, and one that is not goes. -/
def State.abandon (s : State) (n : Nat) : State :=
  let s := each (s.submissions n) (fun e s => s.endSubmit e 0xD) s
  let mine (j : Job) : Bool := j.kind == .decPicture && j.object == n
  let s : State := { s with jobs := s.jobs.filter (fun j => !(mine j && j.st == .pending)) }
  s.mapJobs (fun j => if mine j then { j with object := 0xFF } else j)

/-- DEC_STREAMS: submissions that a changed stream still holds end ABANDONED (R446). -/
def State.applyDecs (s : State) (p : List Byte) : State :=
  let es := entriesFrom p 8 32 (fld p 0 4)
  each (List.range 4) (fun n s =>
    let new := es.find? (fun e => fld e 0 1 == n)
    if (s.dec n).entry = new then s else (s.abandon n).applyDec n new) s

/-- MEMORY_POLICY: maps of LANDING, DEVELOPER, ENCODER and STAGING pages; 0xFF and no block select the defaults (R494, R514). -/
def State.applyMaps (s : State) (p : List Byte) : State :=
  let dflt : List Nat := [0, 1, 1, 2]
  s.updMem fun m =>
    { m with maps := (numbered dflt).map (fun x => if p.length = 8 && fld p x.1 1 ≠ 0xFF then fld p x.1 1 else x.2) ++ [3] }

/-- HEALTH_POLICY (R613, R635): the remote channels follow their modes. -/
def State.applyHealthPolicy (s : State) (p : Option (List Byte)) : State :=
  s.updHealth fun h =>
    { h with policy := p,
             remotes := (numbered h.remotes).map (fun x =>
               let mode := fld (p.getD []) (16 + 16 * x.1) 1
               if x.2.mode = mode then x.2 else { Remote.reset with mode := mode }),
             dieFurl := (zoneOf (p.getD []) 0 dieDefaults).getD 3 108, hbmFurl := (zoneOf (p.getD []) 4 hbmDefaults).getD 3 100 }

/-- Put a global block of the generation that is taking effect in force. -/
def State.applyGlobal (s : State) (type : Nat) : State :=
  match s.cfg.arming with
  | none => s
  | some g =>
    let key := (type, globalTarget)
    let new := payloadIn g.blocks type globalTarget
    let p := new.getD []
    let s := s.updCfg fun c =>
      { c with inForce := applyBlocks c.inForce g.blocks [key], unapplied := c.unapplied.filter (· ≠ key) }
    let s := match type with
      | 0x0101 => s.applyShrouds p
      | 0x0202 => s.applySensors p
      | 0x0601 => s.applyDecs p
      | 0x0701 => s.applyStreams p
      | 0x0801 => s.applyMaps p
      | 0x0901 => s.applyFlex p
      | 0x0A01 => s.applyTimeGlobal new
      | 0x0A02 => s.applyBases p
      | 0x0D01 => s.applyHealthPolicy new
      | 0x0D02 => s.applyPowerMap p
      | 0x0E01 => s.applyObs new
      | _ => s
    s.pumpPower

/-! ## When a global block applies (R171, R212, R635, R662) -/

/-- Types that apply at a tick or an evaluation of their own. -/
def ownTime (type : Nat) : Bool := type == 0x0C01 || type == 0x0D01 || type == 0x0E01

/-- A frame that latched blocks which use what a global block changes still has work (R171): its context may have left the
resource since, by its own apply point. -/
def State.framesUse (s : State) (g : Gen) (type : Nat) : Bool :=
  let globals := s.cfg.inForce.filter (fun b => b.target == globalTarget)
  let uses (c : Nat) (f : Frame) : Bool :=
    (usersOf s.cfg.inForce g.blocks (globals ++ f.blocks.filter (fun b => b.target != globalTarget)) type).ctxs.contains c
  (List.range 64).any (fun c => (s.ctx c).frames.any (fun f => f.working && uses c f)) ||
    s.dev.any (fun d => d.frame.working && uses d.ctx d.frame)

/-- Every user of a changed global block has stopped, and its jobs have retired, those of the generation before included. -/
def State.globalIdle (s : State) (g : Gen) (type : Nat) : Bool :=
  let u := usersOf s.cfg.inForce g.blocks s.cfg.inForce type
  let before := usersOf s.cfg.inForce g.blocks (genBlocks s.cfg.live) type
  before.ctxs.all (fun c => !s.jobs.any (fun j => j.ctx == some c && j.gen != g.number)) &&
  u.ctxs.all (fun c => !s.capturing c && !s.jobs.any (fun j => j.ctx == some c)) && !s.framesUse g type &&
    u.strs.all (fun n => !s.streamRuns n) &&
    (type != 0x0601 || (changedKeys (decsIn s.cfg.inForce) (decsIn g.blocks) byFirst).all (fun n => (s.submissions n).isEmpty))

/-- Changed entries of DEC_STREAMS apply one by one, each when its stream has no submission pending and no stream sends its frames; the
block is in force once all have (R446). -/
def State.applyIdleDecs (s : State) (g : Gen) : State :=
  if s.cfg.unapplied.contains (0x0601, globalTarget) then
    each (List.range 4) (fun n s =>
      let new := (decsIn g.blocks).find? (fun e => fld e 0 1 == n)
      let used := (List.range 32).any (fun k => (s.stream k).srcKind == 3 && (s.stream k).srcIndex == n && s.streamRuns k)
      if (s.dec n).entry = new || !(s.submissions n).isEmpty || used then s else s.applyDec n new) s
  else s

/-- The contexts that use a resource which a changed global block concerns, in force or in the new generation (R163). -/
def State.globalAffects (s : State) (g : Gen) (type : Nat) : List Nat :=
  let on (bs : List Block) : List Nat :=
    let u := usersOf s.cfg.inForce g.blocks bs type
    u.ctxs ++ ((streamsIn bs).filter (fun e => u.strs.contains (byFirst e) && fld e 4 1 != 0xFF)).map (fun e => fld e 4 1)
  nub (on s.cfg.inForce ++ on g.blocks)

def State.reachApply (s : State) (cs : List Nat) : State :=
  s.updCfg fun x => { x with probation := x.probation.map (fun p => p.reach cs s.now) }

def State.applyOneGlobal (s : State) (g : Gen) (type : Nat) : State :=
  let cs := s.globalAffects g type
  (s.applyGlobal type).reachApply cs

/-- Global blocks in ascending type, as far as their users have stopped. -/
def State.applyGlobals (s : State) (g : Gen) : List Nat → State
  | [] => s
  | t :: ts => if s.globalIdle g t then (s.applyOneGlobal g t).applyGlobals g ts else s

/-- The changed global blocks that wait, ascending, without those that have a time of their own. -/
def State.waitingGlobals (s : State) : List Nat :=
  (s.cfg.unapplied.filter (fun k => k.2 == globalTarget && !ownTime k.1)).map (·.1)

def execGlobalBlockApply (s : State) : Host.Outcome State Fault Refusal :=
  .next (match s.cfg.arming with
    | some g =>
      let s := s.applyGlobals g s.waitingGlobals
      (if s.waitingGlobals.head? = some 0x0601 then s.applyIdleDecs g else s).settle
    | none => s)

/-! ## The arm timeout (R172) -/

/-- The capturing contexts that blocks not yet applied wait for: with a per-context block, or as users of a global one. -/
def State.forcedCtxs (s : State) (g : Gen) : List Nat :=
  let users := (s.cfg.unapplied.filter (fun k => k.2 == globalTarget)).map (fun k =>
    (usersOf s.cfg.inForce g.blocks s.cfg.inForce k.1).ctxs)
  (List.range 64).filter (fun c => s.capturing c && (!(s.keysOf c).isEmpty || users.flatten.contains c))

/-- A context that is forced: its open frame closes as if its FE had timed out, and its own blocks apply; without landing blocks it
stops capture (R169). -/
def State.forceCtx (s : State) (c : Nat) : State :=
  let s := s.frameTimeout c 3
  let s := (s.applyKeys c (s.keysOf c)).2
  let s := if s.unboundCtx c then s.stopCapture c else s
  s.raise 0x0203 (srcCtx c) (le 4 (genNumber s.cfg.armed) ++ le 1 c)

/-- Every changed block that has not applied applies at once. -/
def State.armExpires (s : State) : State :=
  match s.cfg.arming with
  | none => s
  | some g =>
    let s := each (s.forcedCtxs g) (fun c s => s.forceCtx c) s
    let s := each (List.range 64) (fun c s => (s.applyKeys c (s.keysOf c)).2) s
    let s := each ((s.cfg.unapplied.filter (fun k => k.2 == globalTarget)).map (·.1)) (fun t s => s.applyOneGlobal g t) s
    s.settle

/-- The arm timeout, from the commit (R172). -/
def execArmTimeout (s : State) : Host.Outcome State Fault Refusal :=
  .next (if decide (s.cfg.armTbm + ms s.cfg.armTimeoutMs ≤ s.now) then s.armExpires else s)

/-- The probation time limit (R174). -/
def execProbationLimit (s : State) : Host.Outcome State Fault Refusal :=
  .next (match s.cfg.probation with
    | none => s
    | some p =>
      if decide (s.now < p.startTbm + ms p.limitMs) then s else s.probationPass)

/-! ## Persistence (R179, R180) -/

/-- The oldest persist copy that is to be written has been written and read back, or the store has failed. -/
def execCfgPersistDone (ok : Bool) (status : Nat) (s : State) : Host.Outcome State Fault Refusal :=
  .next (match s.cfg.persisting with
    | [] => s
    | g :: rest =>
      let s := s.updCfg fun c => { c with persisting := rest }
      if ok then
        let k := 1 - s.nv.newest
        (s.updNv fun n => { n with persist := n.persist.set k (some g), newest := k }).raise 0x0206 srcDevice (le 4 g.number)
      else s.raise 0x0207 srcDevice (le 4 g.number ++ le 2 status))

/-- Make a persist copy LIVE without starting capture. -/
def State.installGen (s : State) (g : Gen) : State :=
  let s := s.updCfg fun c => { c with armed := some g, unapplied := changedBlocks [] g.blocks, inForce := [] }
  let s := s.loadLuts g.blocks
  let s := if s.cfg.unapplied.contains (0x0801, globalTarget) then s.applyGlobal 0x0801 else s
  let s := each (List.range 64) (fun c s => (s.applyKeys c (s.keysOf c)).2) s
  let s := each ((s.cfg.unapplied.filter (fun k => k.2 == globalTarget)).map (·.1)) (fun t s => s.applyGlobal t) s
  let s := s.updCfg fun c => { c with live := some g, previous := none, armed := none, unapplied := [] }
  s.policyLive none (some g)

/-- Boot step 0x80: the newest copy, else the other; with neither, no generation is LIVE. -/
def State.restore (s : State) : State :=
  let copy (k : Nat) : Option Gen := s.nv.persist.getD k none
  let first := copy s.nv.newest
  let tryOne (g : Option Gen) : Option Gen := g.bind (fun g => if (s.validate g false).isNone then some g else none)
  match tryOne first, tryOne (copy (1 - s.nv.newest)), first with
  | some g, _, _ => (s.installGen g).raise 0x0208 srcDevice (le 4 g.number)
  | none, some g, _ => (s.installGen g).raise 0x0208 srcDevice (le 4 g.number)
  | none, none, some g => s.raise 0x0209 srcDevice (le 4 g.number ++ le 4 (((s.validate g false).map (·.reason)).getD 0))
  | none, none, none => s

/-! ## Commands (R177, R178, R182, R185) -/

def formCfgValidate : Form := { op := 0x0204 }

def cfgValidateBody (c : Cmd) (s : State) : State :=
  match s.cfg.staged with
  | none => s.fail c stNoStaged
  | some g =>
    let s := s.accept c 0 []
    match s.validate g false with
    | some f => s.finishAll 0x0204 0 stValidationFailed (s.failResult f) none
    | none => s.finishAll 0x0204 0 stOk [] none

def execCfgValidate (b : Mbox) (s : State) : Host.Outcome State Fault Refusal := .next (s.take b formCfgValidate cfgValidateBody)

def formCfgCommit : Form := { op := 0x0205, lo := 16, hi := 16, reservedBits := [(0, 4, 0xFFFFFFFE)] }

/-- Contexts that a new generation affects (R163). -/
def State.affectedBy (s : State) (g : Gen) : List Nat :=
  let ch := changedBlocks s.cfg.inForce g.blocks
  nub ((ch.filter (fun k => k.2 != globalTarget)).map (·.2) ++
    ((ch.filter (fun k => k.2 == globalTarget)).map (fun k => s.globalAffects g k.1)).flatten)

def cfgCommitBody (c : Cmd) (s : State) : State :=
  let p := c.payload
  let frames := fld p 4 4
  let limit := fld p 8 4
  let arm := fld p 12 4
  if 16777215 < frames then s.badField c 4
  else if limit != 0 && (limit < 100 || 3600000 < limit) then s.badField c 8
  else if arm != 0 && (arm < 10 || 60000 < arm) then s.badField c 12
  else if s.cfg.armed.isSome || s.cfg.probation.isSome then s.fail c stBusy
  else match s.cfg.staged with
    | none => s.fail c stNoStaged
    | some g =>
      let s := s.accept c 0 []
      match s.validate g (bit (fld p 0 4) 0) with
      | some f => s.finishAll 0x0205 0 stValidationFailed (s.failResult f) none
      | none =>
        -- DESIGN CHOICE (assumption 33): the time limit runs from the commit
        let limit := if limit = 0 then 60000 else limit
        let prob : Probation :=
          { frames := frames, limitMs := limit, startTbm := s.now, landed := [], affected := s.affectedBy g }
        let s := s.updCfg fun x =>
          { x with staged := none, persistReq := bit (fld p 0 4) 0, probation := if frames = 0 then none else some prob }
        (s.armGen g .commit (if arm = 0 then 1000 else arm)).settle

def execCfgCommit (b : Mbox) (s : State) : Host.Outcome State Fault Refusal := .next (s.take b formCfgCommit cfgCommitBody)

def formCfgRollback : Form := { op := 0x0206, mgmt := true }

/-- The arm timeout of a rollback, whose payload is empty, is 1,000 ms, the one that 0 selects in a commit (DESIGN CHOICE,
assumption 33). -/
def cfgRollbackBody (c : Cmd) (s : State) : State :=
  if s.cfg.armed.isSome then s.fail c stBusy
  else match s.cfg.previous with
    | none => s.fail c stNoPrevious
    | some g =>
      let s := s.accept c 0 []
      match s.validate g false with
      | some f => s.finishAll 0x0206 0 stValidationFailed (s.failResult f) none
      | none =>
        let s := s.updCfg fun x => { x with previous := none, probation := none, persistReq := false }
        (s.armGen g .rollback 1000).settle

def execCfgRollback (b : Mbox) (s : State) : Host.Outcome State Fault Refusal := .next (s.take b formCfgRollback cfgRollbackBody)

def formNrgEstimate : Form := { op := 0x0803 }

/-- The four figures of R217 in units of 0.1 W; the C0 field is 1.1 × the landing power, the baseline standing beside it
(assumption 13). -/
def State.estimate (s : State) (g : Gen) : List Nat :=
  let up (uw : Rat) : Nat := (uw / 100000).ceil.toNat
  let policy := (payloadIn g.blocks 0x0C01 globalTarget).getD []
  [up (s.genBaseline g.blocks false), up (11 / 10 * s.landingPower g.blocks), up (s.c1Demand g.blocks).1,
   up (9 / 10 * (pSustOf policy * reefScale s.ledger.reefAtTick * 10 : Nat))]

def nrgEstimateBody (c : Cmd) (s : State) : State :=
  match s.cfg.staged with
  | none => s.fail c stNoStaged
  | some g => s.ok c ((s.estimate g).map (fun v => le 4 v)).flatten

def execNrgEstimate (b : Mbox) (s : State) : Host.Outcome State Fault Refusal := .next (s.take b formNrgEstimate nrgEstimateBody)

end Sys2Proof.Machine
end

