-- ==== Sys2Proof/Machine/Health.lean ====
section
/-! DEFINITION. Temperatures, levels and reef, rails, droop, adaptive voltage, leakage and ageing (chapter 19). -/

namespace Sys2Proof.Machine

open Sys2Proof

/-! ## Policy (R617, R618, R627, R635) -/

/-- A field of HEALTH_POLICY, or its default while none is in force. -/
def State.policyByte (s : State) (off dflt : Nat) : Nat := if s.health.policy.isSome then fld s.healthPolicy off 1 else dflt

/-- Hysteresis and thresholds in 1/64 °C; the rate limit in 1/640 °C/s. -/
def State.hysteresis (s : State) : Int := 64 * (s.policyByte 8 4 : Nat)
def State.rateLimit (s : State) : Int := 64 * (s.policyByte 9 20 : Nat)
def State.droopMargin (s : State) : Nat := s.policyByte 10 40

/-- Warn, reef 1 and reef 2 of a zone, 0 to 3 a stack and 4 the die, in 1/64 °C; while sensing is degraded those of the die lie
5 °C lower (R616). -/
def State.thresholds (s : State) (zone : Nat) : List Int :=
  let raw := if zone = 4 then zoneOf s.healthPolicy 0 dieDefaults else zoneOf s.healthPolicy 4 hbmDefaults
  (raw.take 3).map (fun t => 64 * ((t : Int) - (if zone = 4 && s.health.degraded then 5 else 0)))

/-- A health event with vector 18 or 19 (R639). -/
def State.hltEvent (s : State) (code : Nat) (body : List Byte) : State :=
  (s.askVector (if code = 0x0821 || code = 0x0825 then 19 else 18)).raise code srcDevice body

/-! ## The neighbour cross-check (R615, R616) -/

/-- The 4-adjacent neighbours of an on-die sensor. -/
def neighbours (n : Nat) : List Nat :=
  (if 8 ≤ n then [n - 8] else []) ++ (if n < 40 then [n + 8] else []) ++ (if n % 8 ≠ 0 then [n - 1] else []) ++
    (if n % 8 ≠ 7 then [n + 1] else [])

/-- Twice the median. -/
def median2 (vs : List Int) : Int :=
  let o := sortBy (fun (a b : Int) => a < b) vs
  o.getD ((o.length - 1) / 2) 0 + o.getD (o.length / 2) 0

/-- The check of one sensor. Readings are in 1/64 °C, compared as doubles. -/
def State.crossCheck (s : State) (g : List Int) (i : Nat) : State :=
  let h := s.health
  let ns := (neighbours i).filter (fun n => !h.suspect.getD n false)
  if ns.length < 2 then s
  else
    let dev := 2 * h.sensors.getD i 0 - median2 (ns.map (fun n => h.sensors.getD n 0)) - 2 * g.getD i 0
    if !h.suspect.getD i false then
      let k := if decide (768 < dev.natAbs) then h.strikes.getD i 0 + 1 else 0
      let s := s.updHealth fun h => { h with strikes := h.strikes.set i k }
      if k = 5 then
        (s.updHealth fun h => { h with suspect := h.suspect.set i true, good := h.good.set i 0 }).hltEvent 0x0822
          (le 1 0 ++ le 1 i ++ le 1 1)
      else s
    else
      let k := if decide (dev.natAbs ≤ 384) then h.good.getD i 0 + 1 else 0
      let s := s.updHealth fun h => { h with good := h.good.set i k }
      if k = 10000 then
        (s.updHealth fun h => { h with suspect := h.suspect.set i false, strikes := h.strikes.set i 0 }).hltEvent 0x0822
          (le 1 0 ++ le 1 i ++ le 1 0)
      else s

/-- Readings of the on-die sensors that are not suspect. -/
def State.validSensors (s : State) : List Int :=
  ((s.health.sensors.zip s.health.suspect).filter (fun p => !p.2)).map (·.1)

def maxInt (vs : List Int) (dflt : Int) : Int := match vs with | [] => dflt | v :: vs => vs.foldl max v

/-- The die zone temperature; with no valid sensor the spec gives none, and it is a free value. -/
def State.dieZone (s : State) : Int × State :=
  match s.validSensors with
  | [] => let (v, s) := s.drawNat; ((v : Int), s)
  | vs => (maxInt vs 0, s)

/-! ## Zones, levels and reef (R617–R620, R622) -/

/-- The level after a reading: left below threshold − hysteresis, entered at the threshold. -/
def levelOf (thr : List Int) (hyst temp : Int) (old : Nat) : Nat :=
  let kept := (List.range' 1 3).foldl (fun n k => if k ≤ old && thr.getD (k - 1) 0 - hyst ≤ temp then k else n) 0
  max kept (thr.filter (fun t => decide (t ≤ temp))).length

/-- A zone's reading: a stack has none before its first. -/
def State.zoneTemp (s : State) (z : Nat) : Option Int :=
  if z = 4 then some s.health.dieTemp
  else if (s.health.stackTbm.getD z none).isSome then some (s.health.stackTemp.getD z 0) else none

/-- The rise of each zone over 1 s; 0 until 1 s of its readings is held. -/
def State.rises (s : State) : List Int :=
  let old := s.health.history.find? (fun e => decide (e.1 + sec 1 ≤ s.now))
  (List.range 5).map (fun z => match old, s.zoneTemp z with
    | some (_, vs), some t => (match vs.getD z none with | some v => t - v | none => 0)
    | _, _ => 0)

/-- Keep the readings of the last second and the one before it. -/
def State.keepHistory (s : State) : State :=
  let h := (s.now, (List.range 5).map s.zoneTemp) :: s.health.history
  let young := h.takeWhile (fun e => decide (s.now < e.1 + sec 1))
  s.updHealth fun x => { x with history := young ++ (h.drop young.length).take 1 }

/-- Early reef (R618). -/
def State.evalEarly (s : State) (rises : List Int) : State :=
  let lim := s.rateLimit
  if rises.any (fun r => decide (lim < 10 * r)) then s.updHealth fun h => { h with earlyReef := true, lastExceed := s.now }
  else if s.health.earlyReef && decide (s.health.lastExceed + sec 5 ≤ s.now) && rises.all (fun r => decide (20 * r ≤ lim)) then
    s.updHealth fun h => { h with earlyReef := false }
  else s

/-- Set the level of a zone, 0 to 3 a stack, 4 the die, 5 + c a remote channel. -/
def State.setLevel (s : State) (z new : Nat) (temp : Int) : State :=
  let old := if z < 5 then s.health.levels.getD z 0 else s.health.remoteLevels.getD (z - 5) 0
  if old = new then s
  else
    let s := s.updHealth fun h =>
      if z < 5 then { h with levels := h.levels.set z new } else { h with remoteLevels := h.remoteLevels.set (z - 5) new }
    s.hltEvent 0x0820 (le 1 z ++ le 1 old ++ le 1 new ++ le 1 0 ++ leInt 2 temp)

def State.evalZone (s : State) (z : Nat) : State :=
  match s.zoneTemp z with
  | some t => s.setLevel z (levelOf (s.thresholds z) s.hysteresis t (s.health.levels.getD z 0)) t
  | none => s

/-- A remote channel is at WARN while it is at or above its warn threshold (R620; no hysteresis). -/
def State.evalRemote (s : State) (c : Nat) : State :=
  let r := s.health.remotes.getD c Remote.reset
  let w := fld (s.remoteEntry c) 1 1
  s.setLevel (5 + c) (b2n (r.mode != 0 && w != 0 && decide (64 * (w : Int) ≤ r.temp))) r.temp

/-- Furl pending (R622). -/
def State.evalPending (s : State) : State :=
  let h := s.health
  let p := (h.comparatorsTripped &&& ~~~h.comparatorsFailed) != 0 || decide (64 * ((h.dieFurl : Int) - 2) ≤ h.dieTemp)
  let s := s.updHealth fun x => { x with furlPending := p }
  if p && !h.furlPending then s.hltEvent 0x0825 (le 1 h.comparatorsTripped.toNat ++ le 1 0 ++ leInt 2 h.dieTemp) else s

/-- The sources of R619 in order: whether each requests, and the reef it requests. -/
def State.reefSources (s : State) : List (Bool × Nat) :=
  let h := s.health
  [(h.levels.any (· == 2), 1), (h.levels.any (· == 3), 2), (h.earlyReef, 1), (h.stackUnread.any id, 1), (h.avsLimit, 1),
   (h.rails.any (·.reef), 2), (h.furlPending, 2)]

def State.reefWanted (s : State) : Nat := (s.reefSources.map (fun p => if p.1 then p.2 else 0)).foldl max 0

def State.evalReef (s : State) : State :=
  let old := s.health.reef
  let new := s.reefWanted
  let s := s.updHealth fun h => { h with reef := new }
  if old = new then s else s.hltEvent 0x0821 (le 1 old ++ le 1 new ++ le 2 (bitmap (s.reefSources.map (·.1))))

/-- ALERT_N is driven low (R620). -/
def State.alert (s : State) : Bool :=
  let h := s.health
  h.levels.any (· != 0) || h.remoteLevels.any (· != 0) || h.rails.any (·.fault) || h.power.any (·.st == .fault) || h.furlPending

/-- A HEALTH_POLICY that waits applies at this evaluation (R635). -/
def State.applyHealthDue (s : State) : State :=
  match s.cfg.arming with
  | some g =>
    if s.cfg.unapplied.contains (0x0D01, globalTarget) then (s.applyOneGlobal g 0x0D01).goLive.settle else s
  | none => s

/-- One evaluation of the firmware. -/
def State.healthEval (s : State) (f : HealthFacts) : State :=
  let s := s.applyHealthDue.repower
  let s := s.updHealth fun h =>
    { h with sensors := (List.range 48).map (fun i => f.temps.getD i 0), comparatorsTripped := f.tripped }
  let s := each (List.range 48) (fun i s => s.crossCheck f.g i) s
  let s := s.updHealth fun h => { h with degraded := decide ((h.suspect.filter (!·)).length < 36) }
  let (t, s) := s.dieZone
  let s := s.updHealth fun h => { h with dieTemp := t }
  let rises := s.rises
  let s := (s.updHealth fun h => { h with dieRise := rises.getD 4 0 }).keepHistory
  let s := s.evalEarly rises
  let s := each (List.range 5) (fun z s => s.evalZone z) s
  let s := each (List.range 12) (fun c s => s.evalRemote c) s
  let s := s.evalPending.evalReef
  (if s.alert then s.drivePins .alert else s).updHealth fun h => { h with alertLow := s.alert }

def execHealthEval (f : HealthFacts) (s : State) : Host.Outcome State Fault Refusal :=
  .next (if s.running && s.nimlek then s.healthEval f else s)

/-! ## Stack readings (R499, R612, R614, R621) -/

/-- A stack's temperature, in 1/64 °C. -/
def State.stackReading (s : State) (k : Nat) (temp : Int) : State :=
  let was := s.health.stackUnread.getD k false
  let hits := if decide (64 * (s.health.hbmFurl : Int) ≤ temp) then s.health.stackHits.getD k 0 + 1 else 0
  let s := s.updHealth fun h =>
    { h with stackTemp := h.stackTemp.set k temp, stackTbm := h.stackTbm.set k (some s.now),
             stackUnread := h.stackUnread.set k false, stackHits := h.stackHits.set k hits }
  let s := s.hotMode k temp
  if was then s.hltEvent 0x0822 (le 1 1 ++ le 1 k ++ le 1 0) else s

def execStackReading (stack : Nat) (temp : Int) (s : State) : Host.Outcome State Fault Refusal :=
  .next (if stack < 4 && s.running && s.power.railsUp then s.stackReading stack temp else s)

def execStackUnread (stack : Nat) (s : State) : Host.Outcome State Fault Refusal :=
  .next (if stack < 4 && s.running && s.nimlek && !s.health.stackUnread.getD stack false &&
      (s.health.stackTbm.getD stack none).all (fun t => decide (t + ms 10 ≤ s.now)) then
      (s.updHealth fun h => { h with stackUnread := h.stackUnread.set stack true }).hltEvent 0x0822 (le 1 1 ++ le 1 stack ++ le 1 1)
    else s)

/-! ## Remote channels (R612, R613, R621, R685) -/

/-- Elementary charge and Boltzmann's constant, as the SI fixes them. -/
def chargeQ : Rat := 1602176634 / 10 ^ 28
def boltzmannK : Rat := 1380649 / 10 ^ 29

/-- The temperature in °C of a measurement; none where the conversion has no value. -/
def remoteTemp (e : List Byte) (f : RemoteFacts) : Option Rat :=
  let a : Rat := ((fld e 4 4 : Nat) : Rat)
  let b : Rat := ((fld e 8 4 : Nat) : Rat)
  let v : Rat := ((f.value : Nat) : Rat)
  let off : Rat := ((sfld e 12 2 : Int) : Rat) / 64
  if fld e 0 1 = 1 then
    let t := chargeQ * (v / 1000000000 - 15 / 100000 * (b / 1000)) / (a / 1000000 * boltzmannK * lnR 16)
    some (t - 27315 / 100 + off)
  else if a = 0 || b = 0 || f.value = 0 then none
  else
    let r := 1 / (29815 / 100 : Rat) + lnR (v / 1000 / b) / a
    if r = 0 then none else some (1 / r - 27315 / 100 + off)

/-- One reading of a channel. Which way the value is rounded to 1/64 °C is open (assumption 2). -/
def State.remoteRead (s : State) (c : Nat) (f : RemoteFacts) : State :=
  let e := s.remoteEntry c
  let (up, s) := s.drawBool
  let t := if f.fault then none else (remoteTemp e f).map (fun q =>
    let x := (64 * q).floor
    if up && decide (((x : Int) : Rat) < 64 * q) then x + 1 else x)
  let valid := match t with | some x => decide (-40 * 64 ≤ x) && decide (x ≤ 150 * 64) | none => false
  let furl := fld e 2 1
  s.updHealth fun h =>
    { h with remotes := upd h.remotes c (fun r =>
        if !valid then { r with valid := false, hits := 0 }
        else
          let x := t.getD 0
          { r with valid := true, temp := x,
                   hits := if furl != 0 && decide (64 * (furl : Int) ≤ x) then r.hits + 1 else 0 }) }

def execRemoteChannelRead (channel : Nat) (f : RemoteFacts) (s : State) : Host.Outcome State Fault Refusal :=
  .next (if channel < 12 && s.running && (s.health.remotes.getD channel Remote.reset).mode != 0 then s.remoteRead channel f else s)

/-! ## Rails (R626) -/

/-- Set points in mV; VDD_CORE's is what adaptive voltage scaling has set. -/
def State.setPoint (s : State) (n : Nat) : Nat :=
  if n = 6 || (11 ≤ n && n ≤ 18) then s.health.vcore
  else if 19 ≤ n && n ≤ 22 then 400
  else if n = 23 then 850
  else [800, 1800, 1800, 1100, 400, 850, 0, 750, 850, 900, 1200].getD n 0

def State.railRead (s : State) (n mv : Nat) : State :=
  let set := s.setPoint n
  let d := ((mv : Int) - set).natAbs
  let r := s.health.rails.getD n Rail.reset
  let now := s.now
  let watch := s.power.railsUp && s.nimlek
  let o5 := if watch && decide (set < 20 * d) then some (r.out5.getD now) else none
  let o10 := if watch && decide (set < 10 * d) then some (r.out10.getD now) else none
  let back := if o5.isSome then none else some (r.back.getD now)
  let since (t : Option Nanos) (span : Nanos) : Bool := match t with | some x => decide (x + span ≤ now) | none => false
  let fault := if r.fault then !since back (ms 10) else since o5 (us 100)
  let s := s.updHealth fun h =>
    { h with rails := h.rails.set n { mv := mv % 4096, set := set, fault := fault, out5 := o5, out10 := o10, back := back,
                                      reef := since o10 (ms 1) } }
  if fault = r.fault then s
  else
    let s := s.hltEvent 0x0823 (le 1 n ++ le 1 (b2n fault) ++ le 2 (mv % 4096))
    if fault then s.logError 8 Loc.none { detail := n } else s

def execRailMonitorRead (channel mv : Nat) (s : State) : Host.Outcome State Fault Refusal :=
  .next (if channel < 24 && s.running then s.railRead channel mv else s)

/-! ## Droop (R627) -/

/-- A region's detector responds. The stretch of its clocks is timing, which the model leaves out. -/
def State.droop (s : State) (r : Nat) : State :=
  let recent := s.now :: s.droopsIn r
  let s := s.updHealth fun h => { h with droops := upd h.droops r (fun d => (satInc 16 d.1, recent)) }
  let s := s.count 0x12 1 {}
  s.raiseLimited s.health.lastDroopEvent (sec 1) 0x0824 srcDevice
    (((List.range 8).map (fun k => le 1 (sat 8 (s.droopsIn k).length))).flatten)
    (fun t s => (s.askVector 18).updHealth fun h => { h with lastDroopEvent := t })

def execDroop (region : Nat) (s : State) : Host.Outcome State Fault Refusal :=
  .next (if region < 8 && s.running && s.power.railsUp then s.droop region else s)

/-! ## Adaptive voltage, leakage and ageing (R628–R631) -/

/-- VDD_CORE's regulator is written on segment 0 (R97). -/
def State.setVcore (s : State) (mv : Nat) : State :=
  ((s.updHealth fun h => { h with vcore := mv }).updPower fun p => { p with vout := p.vout.set 4 mv }).out (.pmbus 0 0x44 mv)

/-- The step up that the count and the droops ask for, in mV: the first row of R629 that applies (assumption 16). -/
def State.avsRaise (s : State) (f : AvsFacts) : Nat :=
  let droops := ((List.range 8).map (fun r => (s.droopsIn r).length)).sum
  if f.count * 100 < 98 * f.target then 10
  else if f.count < f.target || 1000 < droops then 5
  else 0

def State.avs (s : State) (f : AvsFacts) : State :=
  let ratio := min (f.count * 512 / f.target) 1023
  let run := if 103 * f.target < 100 * f.count then s.health.avsHighRun + 1 else 0
  let s := s.updHealth fun h =>
    { h with avsRatio := ratio, avsSlowest := f.slowest % 32, avsHighRun := min run 100,
             avsLimit := h.avsLimit && decide (f.count < f.target) }
  let v := s.health.vcore
  let up := s.avsRaise f
  if 0 < up then
    let s := s.updHealth fun h => { h with lastRaise := some s.now }
    let above := decide (850 < v + up)
    let s := if min 850 (v + up) = v then s else s.setVcore (min 850 (v + up))
    if above && !s.health.avsLimit then
      (s.updHealth fun h => { h with avsLimit := true }).hltEvent 0x0829 (le 2 s.health.vcore ++ le 2 ratio)
    else s
  else if 100 ≤ run && s.mayRaise s.health.lastRaise (sec 1) && 705 ≤ v then s.setVcore (v - 5)
  else s

def execAvsUpdate (f : AvsFacts) (s : State) : Host.Outcome State Fault Refusal :=
  .next (if s.running && s.nimlek then s.avs f else s)

/-- Mean of the valid on-die sensors in °C; with none it is a free value. -/
def State.meanTemp (s : State) : Rat × State :=
  match s.validSensors with
  | [] => let (v, s) := s.drawNat; (((v : Nat) : Rat) / 64, s)
  | vs => (((vs.sum : Int) : Rat) / 64 / ((vs.length : Nat) : Rat), s)

/-- V_core / 0.80 V. -/
def State.vRatio (s : State) : Rat := ((s.health.vcore : Nat) : Rat) / 800

/-- The leakage estimate in mW; L is at most 20 W (R630). -/
def execLeakageRefresh (s : State) : Host.Outcome State Fault Refusal :=
  .next (if s.running && s.nimlek then
      (let (t, s) := s.meanTemp
       let l : Rat := ((min s.nv.fuses.leakage 20000 : Nat) : Rat)
       s.updLedger fun x => { x with leakage := l * s.vRatio ^ 2 * exp2R ((t - 100) / 25) })
    else s)

/-- One second of ageing; the sum is written every 60 s (R631). -/
def State.age (s : State) : State :=
  let t : Rat := ((s.health.dieTemp : Int) : Rat) / 64
  let s := s.updHealth fun h => { h with ageing := h.ageing + exp2R ((t - 95) / 10) * s.vRatio ^ 4 }
  if s.health.ageWrite + sec 60 ≤ s.now then
    (s.updNv fun n => { n with ageing := s.health.ageing }).updHealth fun h => { h with ageWrite := s.now }
  else s

def execAgeingUpdate (s : State) : Host.Outcome State Fault Refusal := .next (if s.running && s.nimlek then s.age else s)

/-- The health clock is written to the non-volatile store (R642). -/
def execHealthClockWrite (s : State) : Host.Outcome State Fault Refusal :=
  .next (if s.running && s.nimlek then s.updNv fun n => { n with healthClock := s.healthClock } else s)

/-! ## Commands (R638) -/

def formHltSensors : Form := { op := 0x0820, mgmt := true }

def hltSensorsBody (c : Cmd) (s : State) : State :=
  let h := s.health
  s.reply c stOk [] (some ((h.sensors ++ h.stackTemp ++ h.remotes.map (·.temp)).flatMap (leInt 2) ++
    h.rails.flatMap (fun r => le 2 r.mv)))

def execHltSensors (b : Mbox) (s : State) : Host.Outcome State Fault Refusal := .next (s.take b formHltSensors hltSensorsBody)

def formHltFurlLog : Form := { op := 0x0821, mgmt := true }

def hltFurlLogBody (c : Cmd) (s : State) : State :=
  s.reply c stOk [] (some (le 4 s.nv.furlLog.length ++ le 4 0 ++ s.nv.furlLog.flatten))

def execHltFurlLog (b : Mbox) (s : State) : Host.Outcome State Fault Refusal := .next (s.take b formHltFurlLog hltFurlLogBody)

def formHltAgeing : Form := { op := 0x0822, mgmt := true }

def hltAgeingBody (c : Cmd) (s : State) : State :=
  s.ok c (le 8 (floorNat s.health.ageing) ++ le 4 (sat 32 (floorNat (s.health.ageing * 1000000 / 378691200))))

def execHltAgeing (b : Mbox) (s : State) : Host.Outcome State Fault Refusal := .next (s.take b formHltAgeing hltAgeingBody)

end Sys2Proof.Machine
end

