-- ==== Sys2Proof/Machine/Observe.lean ====
section
/-! DEFINITION. Targeted self-tests, retirement, Halyard and the commands of group 0x09 (chapter 20). -/

namespace Sys2Proof.Machine

open Sys2Proof

/-! ## Locations that a command may name (R641) -/

/-- Offset in the location of its first byte at fault, for a class; none where the location is one. -/
def Loc.fault (l : Loc) (cls : Nat) : Option Nat :=
  let sub := match cls with | 1 => 32 | 2 => 16 | 3 => 256 | 6 => if l.unit = 0 then 1 else 4 | _ => 1
  let unitOk := match cls with
    | 1 => l.unit < 4
    | 2 => l.unit < 56
    | 5 => l.unit < 2
    | 6 => l.unit < 8
    | _ => l.unit < 0x38 || engineMasters.contains l.unit
  if l.kind ≠ cls then some 0
  else if !unitOk then some 1
  else if sub ≤ l.sub then some 2
  else if (if cls = 1 then 48 else 1) ≤ l.bank then some 3
  else if (if cls = 1 then 16384 else 1) ≤ l.row then some 4
  else if (if cls = 1 then 16 else 1) ≤ l.column then some 8
  else Option.none

/-- What a test occupies: a pseudo-channel, a shroud, an engine, Mast (whose other pair carries its work), a port. -/
def Loc.resource (l : Loc) : Nat × Nat × Nat :=
  match l.kind with
  | 1 => (1, l.unit, l.sub)
  | 2 => (2, l.unit, 0)
  | 3 | 4 => (4, l.unit, 0)
  | 5 => (5, 0, 0)
  | _ => (6, l.unit, l.sub)

/-! ## Run conditions (R646) -/

/-- A shroud's sensor is bound to no context that the condition rejects. A shroud that no generation binds has none. -/
def State.shroudFree (s : State) (n : Nat) (bad : Nat → Bool) : Bool :=
  (s.shroud n).entry.isNone || !(s.ctxsOf (s.shroud n).sensorOf).any bad

/-- An engine is idle with an empty queue. -/
def State.engineIdle (s : State) (m : Nat) : Bool :=
  !s.jobs.any (fun j => j.engine == m && j.tag.isSome && (j.st == .issued || j.st == .running))

/-- An enabled network stream leaves by the Ethernet port. -/
def State.ethStream (s : State) (p : Nat) : Bool :=
  s.streams.any (fun t => (t.type == 1 || t.type == 2) && t.entry.isSome && bit (fld t.ent 8 2) 2 && fld t.ent 16 1 == p)

/-- The retrain of class 6 may begin: a root port with no NVMe command outstanding for 1 ms, an Ethernet port that carries no
enabled stream; the endpoint is not retrained. -/
def State.mayRetrain (s : State) (y k : Nat) : Bool :=
  match (s.port y k).port with
  | some p =>
    if (s.yard y).mode = 2 then (s.drive p).cmds.isEmpty && decide ((s.drive p).idleSince + ms 1 ≤ s.now)
    else !s.ethStream p
  | none => false

def State.runCondition (s : State) (t : Test) : Bool :=
  let l := t.loc
  match t.cls with
  | 1 =>
    s.health.reef == 0 && ((s.liveEntry l.page).isNone ||
      (!(s.spares l.unit).isEmpty && !s.mem.migrations.any (fun m => m.stack == l.unit)))
  | 2 => s.shroudFree l.unit (fun c => (s.ctx c).st == .running || (s.ctx c).st == .postTrigger) &&
    (s.executing 0x0303 l.unit).isEmpty
  | 3 | 4 =>
    s.health.reef == 0 &&
      (if l.unit < 0x38 then
        s.shroudFree l.unit (fun c => (s.ctx c).st == .running || (s.ctx c).st == .postTrigger || s.holding c)
      else s.engineIdle l.unit)
  | 5 => true
  | _ => l.unit != 0 && s.mayRetrain l.unit l.sub

/-! ## Start (R646, R512) -/

/-- Bytes that a March C− test of a row of 1,024 bytes moves: ten reads or writes of every byte with each of its two patterns
(R488, R640; assumption 17). -/
def marchBytes : Nat := 2 * 10 * 1024

/-- The C6 job of master 0x78 for a test that occupies an engine or capture memory. -/
def State.testJob (s : State) (t : Test) (deps : List Nat) : State :=
  (s.addJob { Job.make .selftest 6 with units := if t.cls = 1 then [(0x01, marchBytes)] else [], unit := t.cls, object := if t.cls = 1 then t.loc.page else 0, deps := deps,
                                        args := t.entries.take 1 }).2

/-- What starting a test does besides marking it. -/
def State.beginTest (s : State) (t : Test) : State :=
  let l := t.loc
  match t.cls with
  | 1 =>
    if (s.liveEntry l.page).isNone then s.testJob t []
    else
      let id := s.nextJob
      (s.startMigration l.page false).testJob t [id]
  | 2 => if (s.shroud l.unit).st = .active then
      (s.noteReceived l.unit).updShroud l.unit fun x => { x with st := .test, testLane := some l.sub }
    else s
  | 3 | 4 => s.testJob t []
  | 5 => s
  | _ =>
    let x := s.port l.unit l.sub
    if l.unit = 0 then s.scanAtOnce l
    else
      let s := s.scanAtOnce l
      if (s.yard l.unit).mode = 3 then
        let s := s.updPort l.unit l.sub fun x => { x with st := if x.st = fxActive then fxAlign else fxDetect }
        if x.st = fxActive then s.linkDown l.unit l.sub x.port fxAlign else s
      else if x.perstHeld then s
      else s.updPort l.unit l.sub fun x =>
        { x with st := if x.st = fxActive || x.st = fxLow || x.st = fxRecovery then fxRecovery else fxDetect, holdSince := s.now }

def State.updTest (s : State) (i : Nat) (f : Test → Test) : State := s.updObs fun o => { o with tests := upd o.tests i f }

/-- At most 8 tests run at once, and at most one on any resource. -/
def State.mayStart (s : State) (t : Test) : Bool :=
  let running := s.obs.tests.filter (·.running)
  !t.running && decide (running.length < 8) && !running.any (fun x => x.loc.resource == t.loc.resource) && s.runCondition t

def State.startTest (s : State) (i : Nat) : State :=
  match s.obs.tests[i]? with
  | none => s
  | some t => if s.nimlek && s.mayStart t then (s.updTest i fun t => { t with running := true }).beginTest t else s

def execSelftestStart (test : Nat) (s : State) : Host.Outcome State Fault Refusal := .next (s.startTest test).settle

/-! ## Retirement (R648, R649) -/

/-- Record a retired location. -/
def State.recordRetired (s : State) (l : Loc) (cls : Nat) : State :=
  if s.nv.retired.any (fun r => r.1.same l) then s
  else s.updNv fun n => { n with retired := n.retired ++ [(l, cls, s.healthClock)] }

def State.retireResource (s : State) (l : Loc) (cls : Nat) : State :=
  (s.recordRetired l cls).raise 0x0903 srcDevice l.bytes

/-- What a LASTING outcome does, and the flags it sets in the entries. Its location is recorded. -/
def State.lasting (s : State) (cls : Nat) (l : Loc) : Nat × State :=
  let s := s.updNv fun n => { n with lastings := n.lastings ++ [(l, cls, s.healthClock)] }
  match cls with
  | 1 =>
    let (fixed, s) := s.memLasting l
    if fixed then (efRepaired, s) else (efRetired, s.recordRetired l 1)
  | 2 => (efRetired, (s.updShroud l.unit fun x => { x with lanes := upd x.lanes l.sub (fun y => { y with retired := true }) }).retireResource l 2)
  | 3 | 4 =>
    let s := s.retireResource l cls
    (efRetired, if l.unit < 0x38 then
        s.updShroud l.unit fun x => { x with lanes := x.lanes.map (fun y => { y with retired := true }) }
      else s.requeue l.unit)
  | 5 => (0, s)
  | _ => if l.unit = 0 then (0, s) else (efRetired, s.retireResource l 6)

/-! ## End (R647) -/

/-- A tested page that is free again and was not retired is a spare again, up to 16 per stack (R512). -/
def State.spareAgain (s : State) (p : Nat) : State :=
  let k := p / 12288
  if (s.liveEntry p).isSome || s.nv.retiredPages.any (fun r => r.1 == p) || (s.spares k).contains p || 16 ≤ (s.spares k).length ||
      s.mem.migrations.any (fun m => m.page == p) then s
  else s.updHbm k fun h => { h with spares := h.spares ++ [p] }

/-- The command that asked for the test of an entry completes with the entry's outcome (R664). -/
def State.selftestDone (s : State) (seq status : Nat) : State :=
  let oc := ((s.nv.errLog.find? (fun e => e.seq == seq)).map (·.outcome)).getD ocPending
  s.finishAll 0x0901 seq status (le 4 seq ++ le 1 oc) none

/-- A test ends: every entry attached to it is decided. `r`: passed, failed or did not run. `busy`: the run condition did
not come, so a command that asked for it completes BUSY. -/
def State.endTest (s : State) (i : Nat) (r : Option Bool) (result flags : Nat) (busy : Bool) : State :=
  match s.obs.tests[i]? with
  | none => s
  | some t =>
    let s := s.updObs fun o => { o with tests := o.tests.eraseIdx i }
    let (more, s) := if r = some false then s.lasting t.cls t.loc else (0, s)
    let s := each t.entries (fun seq s => s.errDecide seq r result (flags ||| more)) s
    let s := each t.entries (fun seq s =>
      s.selftestDone seq (if busy || r = none then stBusy else if r = some true then stOk else stSelftestFailed)) s
    if r = some false && t.cls = 5 then s.askWarm 0x15 else s

/-- The job of a running test. -/
def State.jobOfTest (s : State) (t : Test) : Option Job :=
  s.jobs.find? (fun j => j.kind == JobKind.selftest && j.args.head? == t.entries.head?)

/-- The test's own run has ended: its job is COMPLETE, its lane carries data again. -/
def State.finishRun (s : State) (t : Test) (f : TestFacts) : State :=
  let s := match s.jobOfTest t with
    | some j => s.completeJob j stOk
    | none => s
  match t.cls with
  | 1 =>
    let s := s.updPc (32 * t.loc.unit + t.loc.sub) fun p => p.march f.dq
    if f.dq.any (· != 0) then s else s.spareAgain t.loc.page
  | 2 =>
    let x := s.shroud t.loc.unit
    let s := s.updShroud t.loc.unit fun x => { x with lanes := upd x.lanes t.loc.sub (fun y => { y with prbsErr := sat 32 f.result }) }
    if x.st == .test && x.testLane == some t.loc.sub && (s.executing 0x0303 t.loc.unit).isEmpty then
      s.updShroud t.loc.unit fun x => { x with st := .active, rxTbm := s.now, testLane := none }
    else s
  | _ => s

/-- The scan that a test of class 2 or 6 asked for has not ended. -/
def State.testScanning (s : State) (t : Test) : Bool :=
  if t.cls = 2 then ((s.shroud t.loc.unit).lanes.getD t.loc.sub Lane.reset).scanning
  else if t.cls = 6 then (if t.loc.unit = 0 then s.ep.scanning else (s.port t.loc.unit t.loc.sub).scanning)
  else false

/-- A test may end: one that runs as a job, once that job runs; one that rests on a scan, once that has ended. -/
def State.mayEnd (s : State) (t : Test) : Bool :=
  t.running && !s.testScanning t &&
    (if t.cls = 1 || t.cls = 3 || t.cls = 4 then (match s.jobOfTest t with | some j => j.st == .running | none => false) else true)

/-- Whether a test passes, and its test result (R643, R646); `part` leaves out the loopback or the retrain. -/
def State.testPasses (s : State) (t : Test) (f : TestFacts) (part : Bool) : Bool × Nat :=
  let l := t.loc
  match t.cls with
  | 1 => (!f.dq.any (· != 0), (f.dq.map (sat 16)).sum)
  | 3 | 4 => (f.result == 0, f.result)
  | 2 =>
    let x := s.shroud l.unit
    let errors := if part then 0 else f.result
    ((x.lanes.getD l.sub Lane.reset).eyeMeets x.nrz && errors == 0, errors)
  | 5 => (!f.fail, 0)
  | _ => (s.marginsMeet l.unit l.sub && (part || s.portMeets l.unit l.sub),
      if l.unit = 0 then s.ep.margin.1 else (s.port l.unit l.sub).margin.1)

def execSelftestEnd (test : Nat) (f : TestFacts) (s : State) : Host.Outcome State Fault Refusal :=
  .next (match s.obs.tests[test]? with
    | none => s
    | some t =>
      if s.nimlek && s.mayEnd t then
        let (ok, result) := s.testPasses t f false
        ((s.finishRun t f).endTest test (some ok) result 0 false).settle
      else s)

/-- The run condition has not held for 60 s: NOT_RUN, or the outcome of the scan alone with PARTIAL (R646). -/
def execSelftestRunTimeout (test : Nat) (f : TestFacts) (s : State) : Host.Outcome State Fault Refusal :=
  .next (match s.obs.tests[test]? with
    | none => s
    | some t =>
      if !s.nimlek || t.running || s.testScanning t || decide (s.now < t.since + sec 60) then s
      else if t.cls = 2 || t.cls = 6 then
        let (ok, result) := s.testPasses t f true
        (s.endTest test (some ok) result efPartial true).settle
      else (s.endTest test none 0 0 true).settle)

/-! ## Errors of engines and of Mast (R640) -/

/-- What an engine's error carries: the job that runs on it. -/
def State.engineError (s : State) (m : Nat) : ErrInfo :=
  match ((s.engine m).running).bind s.job with
  | some j => { master := m, tag := j.tag.getD 0xFFFF, ctx := j.ctx.getD 0xFF }
  | none => { master := m }

def execSramParityError (master bank : Nat) (s : State) : Host.Outcome State Fault Refusal :=
  .next (if s.nimlek && (Loc.fault { Loc.none with kind := 3, unit := master, sub := bank } 3).isNone then
    s.logError 3 { Loc.none with kind := 3, unit := master, sub := bank } (s.engineError master) else s)

def execEngineLogicFault (master : Nat) (s : State) : Host.Outcome State Fault Refusal :=
  .next (if s.nimlek && (Loc.fault (Loc.ofEngine master) 4).isNone then s.logError 4 (Loc.ofEngine master) (s.engineError master) else s)

/-- A mismatch between the two cores of a pair. The master is Mast's own. -/
def execLockstepMismatch (pair : Nat) (s : State) : Host.Outcome State Fault Refusal :=
  .next (if s.nimlek && pair < 2 then s.logError 5 { Loc.none with kind := 5, unit := pair } { master := 0x70 } else s)

/-! ## Halyard (R650–R653) -/

/-- The spacing of 1 µs has passed: the pending trigger fires. -/
def execHalyardPendingFire (s : State) : Host.Outcome State Fault Refusal :=
  .next (match s.obs.halPending with
    | some (srcs, merged) => if s.mayRaise s.obs.halLast (us 1) then s.halPulse srcs merged else s
    | none => s)

/-- A rising edge of HALYARD_IN that holds high for 20 ns. -/
def execHalyardInEdge (holdNs : Nat) (s : State) : Host.Outcome State Fault Refusal :=
  .next (if s.running && 20 ≤ holdNs && s.halSource 2 then s.halTrigger 2 else s)

/-- The base of an armed match has reached its time; the match is disarmed. -/
def execTimeMatch (m : Nat) (s : State) : Host.Outcome State Fault Refusal :=
  .next (match s.obs.matches_.getD m none with
    | some (b, t) =>
      if s.running && (s.base b).st != .off && decide (t ≤ (s.base b).time) then
        let s := s.updObs fun o => { o with matches_ := o.matches_.set m none }
        if s.halSource 4 then s.halTrigger 4 else s
      else s
    | none => s)

/-- A host write to GLB_HALYARD. -/
def execGlbHalyardFire (v : Word) (s : State) : Host.Outcome State Fault Refusal :=
  .next (if s.hostReaches && v.getLsbD 0 then s.halTrigger 0 else s)

/-! ## Commands (R664) -/

def formObsSelftest : Form := { op := 0x0901, mgmt := true, lo := 24, hi := 24, reserved := [(1, 7), (18, 6)] }

def obsSelftestBody (c : Cmd) (s : State) : State :=
  let cls := fld c.payload 0 1
  let l := Loc.ofBytes (sub c.payload 8 16)
  if cls = 0 || 6 < cls then s.badField c 0
  else match l.fault cls with
    | some off => s.badField c (8 + off)
    | none =>
      if s.obs.tests.any (fun t => t.loc.same l) then s.fail c stBusy
      else
        let s := s.accept c (s.nv.errSeq + 1) []
        let s := s.errWrite cls l { flags := efOnDemand }
        let seq := s.nv.errSeq
        let s := s.errQueue cls l seq
        if s.obs.tests.any (fun t => t.entries.contains seq) then s
        else s.selftestDone seq (if s.isRetired l then stSelftestFailed else stBusy)

def execObsSelftest (b : Mbox) (s : State) : Host.Outcome State Fault Refusal := .next (s.take b formObsSelftest obsSelftestBody).settle

def formObsErrHistory : Form := { op := 0x0902, mgmt := true, lo := 8, hi := 8, reserved := [(6, 2)] }

/-- Entries from a sequence on; one that is not held has sequence 0xFFFF_FFFF, and its other bytes are open (assumption 2). -/
def State.errHistory (s : State) (first : Nat) : Nat → List Byte × State
  | 0 => ([], s)
  | n + 1 =>
    match s.nv.errLog.find? (fun e => e.seq == first) with
    | some e =>
      let (rest, s) := s.errHistory (first + 1) n
      (e.bytes ++ rest, s)
    | none =>
      let (v, s) := s.drawNat
      let (rest, s) := s.errHistory (first + 1) n
      (le 4 0xFFFFFFFF ++ le 60 v ++ rest, s)

def obsErrHistoryBody (c : Cmd) (s : State) : State :=
  let n := fld c.payload 4 2
  if n = 0 || 255 < n then s.badField c 4
  else
    let (d, s) := s.errHistory (fld c.payload 0 4) n
    s.reply c stOk [] (some d)

def execObsErrHistory (b : Mbox) (s : State) : Host.Outcome State Fault Refusal :=
  .next (s.take b formObsErrHistory obsErrHistoryBody)

def formObsRetired : Form := { op := 0x0903, mgmt := true, lo := 8, hi := 8, reserved := [(6, 2)] }

def obsRetiredBody (c : Cmd) (s : State) : State :=
  let n := fld c.payload 4 2
  if n = 0 || 511 < n then s.badField c 4
  else
    let got := (s.nv.retired.drop (fld c.payload 0 4)).take n
    s.reply c stOk [] (some (le 4 s.nv.retired.length ++ le 4 got.length ++
      (got.map (fun r => r.1.bytes ++ le 1 r.2.1 ++ le 7 0 ++ le 8 r.2.2)).flatten))

def execObsRetired (b : Mbox) (s : State) : Host.Outcome State Fault Refusal := .next (s.take b formObsRetired obsRetiredBody)

def formObsUnretire : Form := { op := 0x0904, lo := 16, hi := 16, reserved := [(10, 6)] }

/-- A repaired lane or port is in service again. A lane whose shroud's lander is retired stays out. -/
def obsUnretireBody (c : Cmd) (s : State) : State :=
  let l := Loc.ofBytes c.payload
  if l.kind ≠ 2 && l.kind ≠ 6 then s.badField c 0
  else if !s.nv.retired.any (fun r => r.1.same l) then s.badField c 1
  else
    let s := s.updNv fun n => { n with retired := n.retired.filter (fun r => !r.1.same l) }
    let s := if l.kind = 2 && !s.unitRetired l.unit then
        s.updShroud l.unit fun x => { x with lanes := upd x.lanes l.sub (fun y => { y with retired := false }) }
      else s
    s.ok c []

def execObsUnretire (b : Mbox) (s : State) : Host.Outcome State Fault Refusal := .next (s.take b formObsUnretire obsUnretireBody)

def formObsVector : Form := { op := 0x0905, lo := 4, hi := 4, reserved := [(1, 1)] }

def obsVectorBody (c : Cmd) (s : State) : State :=
  let v := fld c.payload 0 1
  let code := fld c.payload 2 2
  if v < 22 then s.badField c 0
  else
    (s.updObs fun o =>
      { o with vectors := o.vectors.filter (fun x => x.1 != v) ++ (if code = 0 then [] else [(v, code)]) }).ok c []

def execObsVector (b : Mbox) (s : State) : Host.Outcome State Fault Refusal := .next (s.take b formObsVector obsVectorBody)

def formObsHalyardArm : Form := { op := 0x0906, lo := 24, hi := 24, reserved := [(2, 6), (22, 2)] }

def obsHalyardArmBody (c : Cmd) (s : State) : State :=
  let p := c.payload
  let b := fld p 0 1
  let m := fld p 1 1
  let t : Nat := (fld p 8 8 * 1000000000 + fld p 16 4) * 2 ^ 32 + fld p 20 2 * 2 ^ 16
  if 4 < b || !s.halSource 4 || (s.base b).st == .off then s.badField c 0
  else if 3 < m then s.badField c 1
  else if 999999999 < fld p 16 4 then s.badField c 16
  else (s.updObs fun o => { o with matches_ := o.matches_.set m (some (b, (t : Int))) }).ok c []

def execObsHalyardArm (b : Mbox) (s : State) : Host.Outcome State Fault Refusal := .next (s.take b formObsHalyardArm obsHalyardArmBody)

def formObsHalyardFire : Form := { op := 0x0907, mgmt := true }

/-- The pulse's sequence number: of the pulse now, or of the one that the trigger waits for. With the FIRMWARE source off
there is no pulse, and the spec gives no number (assumption 2). -/
def obsHalyardFireBody (c : Cmd) (s : State) : State :=
  if s.halSource 1 then
    let n := s.obs.halSeq + 1
    (s.halTrigger 1).ok c (le 4 n.toNat)
  else
    let (v, s) := s.drawNat
    s.ok c (le 4 v)

def execObsHalyardFire (b : Mbox) (s : State) : Host.Outcome State Fault Refusal :=
  .next (s.take b formObsHalyardFire obsHalyardFireBody)

end Sys2Proof.Machine
end

