-- ==== Sys2Proof/Machine/Boot.lean ====
section
/-! DEFINITION. Resets and the boot (chapter 03, R500–R503, R510, R579–R584, R591, R593, R623): what each reset class loses, the
power-up sequence, the choice and verification of the images, memory training, and the firmware up to FW_READY. -/

namespace Sys2Proof.Machine

open Sys2Proof

/-! ## What a reset loses and keeps (R12, R61, R62, R89, R90) -/

/-- The lanes that the retired-resources record names (R648, R649). -/
def State.retiredLane (s : State) (shroud lane : Nat) : Bool :=
  s.unitRetired shroud || s.nv.retired.any (fun r => r.1.kind == 2 && r.1.unit == shroud && r.1.sub == lane)

def State.resetShrouds (s : State) : List Shroud :=
  (List.range 56).map (fun n =>
    { Shroud.reset with lanes := (List.range 16).map (fun l => { Lane.reset with retired := s.retiredLane n l }) })

/-- The board and the always-on domain on entering RESET: pins, straps, causes and counts stay. A cold reset loses the
always-on log buffer (R89). -/
def Power.toReset (p : Power) (warm : Bool) : Power :=
  { p with aonLog := (if warm then p.aonLog else []), condition := .reset, bootCode := 0, bootStage := .idle, pwrEn := List.replicate 16 false, driven := [], sref := List.replicate 14 0,
           xtalQualified := false, aonOnXtal := false, pllLocked := false, railsUp := false, vout := List.replicate 9 0,
           mastRuns := false, watchdogOn := false, warmPending := none, linkOwed := false, fellBack := false,
           bootSource := 0, heartbeat := 0 }

/-- What the always-on domain keeps of chapter 19: the furl history always, the accumulator of class COLD across a warm
reset, and from the non-volatile store at a cold one. -/
def State.resetHealth (s : State) (warm : Bool) : Health :=
  let h := s.health
  { Health.reset with
    furlCause := h.furlCause, furlSource := h.furlSource, furlTotal := h.furlTotal, latched := h.latched,
    furlTbm := h.furlTbm, restarts := h.restarts, furlRecent := h.furlRecent,
    ageing := if warm then h.ageing else s.nv.ageing, ageWrite := if warm then h.ageWrite else 0 }

/-- TBM continues across a warm reset and restarts at 0 at any other; the bases restart unset (R89, R90). -/
def State.resetTime (s : State) (warm : Bool) : Time :=
  if warm then { Time.reset with tbm := s.time.tbm, tbmLatch := s.time.tbmLatch } else Time.reset

/-- The latched high words of registers of class COLD; that of HLT_AGEING_LO comes from the non-volatile store (R9, R13). -/
def State.resetLatches (s : State) (warm : Bool) : List (Nat × Word) :=
  if warm then s.latches.filter (fun l => l.1 == 0x700700)
  else [(0x700700, BitVec.ofNat 32 (floorNat s.nv.ageing / 2 ^ 32))]

/-- Enter RESET: capture memory, sessions, generations, keys and every register of a class that the reset returns are lost.
A cold reset takes the health clock last written as its base (R642). -/
def State.wipe (s : State) (warm : Bool) : State :=
  { State.reset with
    power := s.power.toReset warm, shrouds := s.resetShrouds, health := s.resetHealth warm, time := s.resetTime warm,
    latches := s.resetLatches warm, nv := if warm then s.nv else { s.nv with clockBase := s.nv.healthClock },
    free := s.free, outs := s.outs, pending := s.pending }

/-! ## Furl (R64, R89, R93, R621, R624, R625) -/

/-- The furl record: its fields of the vote are kept by the always-on domain; the rest comes from the cooling. -/
def State.furlRecord (s : State) (flags : Nat) (peak : Int) (coolingMs : Nat) : List Byte :=
  let h := s.health
  le 1 h.furlCause ++ le 1 h.furlSource ++ le 1 h.furlRecent ++ le 1 (b2n h.latched + flags) ++ le 4 s.nv.bootCount ++
    le 8 (h.furlTbm / 1000000000) ++ leInt 2 peak ++ le 2 0 ++ le 4 coolingMs ++ le 8 0

/-- The always-on log buffer keeps its 64 KiB newest bytes. -/
def appendLog (log d : List Byte) : List Byte := (log ++ d).drop ((log ++ d).length - 65536)

/-- The always-on controller copies the log buffer and the furl record to the non-volatile store, which keeps the 64 newest
records (R93, R625). -/
def State.copyFurl (s : State) (flags : Nat) (peak : Int) (coolingMs : Nat) : State :=
  s.updNv fun n =>
    { n with furlLog := (n.furlLog ++ [s.furlRecord flags peak coolingMs]).drop (n.furlLog.length + 1 - 64),
             aonLogCopy := s.power.aonLog }

/-- The vote has passed: every output is released but THERMTRIP_N, and a reset in progress is abandoned. The furl record is
written to the log buffer, its two fields of the cooling still 0 (R624). -/
def State.furl (s : State) (cause source : Nat) : State :=
  let recent := s.recentRestarts
  let now := s.now
  let log := s.power.aonLog
  let s := s.wipe false
  let s := s.updHealth fun h =>
    { h with furlCause := cause, furlSource := source, furlRecent := recent, latched := decide (3 ≤ recent),
             furlTotal := satInc 8 h.furlTotal, furlTbm := now }
  (s.updPower fun p =>
    { p with condition := .furled, thermtripLow := true, aonLog := appendLog log (s.furlRecord 0 0 0) }).out .thermtrip

/-! ## Stops (R100, R104, R105) -/

/-- The boot stops with a code. -/
def State.stopBoot (s : State) (code : Byte) (stage : BootStage) : State :=
  (s.updPower fun p => { p with bootCode := code, bootStage := stage }).setCause 1

/-- A stop in the power-up sequence releases every PWR_EN pin that the boot ROM has driven. -/
def State.stopPower (s : State) (code : Byte) : State :=
  ((s.releasePins .pwrEn).updPower fun p => { p with pwrEn := List.replicate 16 false, railsUp := false }).stopBoot code .stopped

/-! ## Memory training (R500–R503, R510, R513, R518) -/

/-- A stack is retired at training: the step of R501, or none for one that was retire-pending (R520). -/
def State.retireStack (s : State) (k step : Nat) : State :=
  let s := s.updHbm k fun h => { h with st := 3, failStep := step }
  let s := s.updMem fun m =>
    { m with pchans := (numbered m.pchans).map (fun x => if x.1 / 32 = k then { x.2 with retired := true } else x.2) }
  let s :=
    if s.nv.retiredStacks.any (fun r => r.1 == k) then s
    else s.updNv fun n =>
      { n with retiredStacks := n.retiredStacks ++ [(k, s.tbmSeconds)],
               memLog := n.memLog ++ [memEntry 3 k 0xFF 0xFF 0 s.tbmSeconds] }
  s.raise 0x0D01 srcDevice (le 1 k ++ le 1 (if step = 0 then 0xF else step))

/-- Stored soft repairs are applied; those beyond what the test port reports give way to the retirement of their pages. -/
def State.applyRepairs (s : State) (k : Nat) : State :=
  let mine := s.nv.repairs.filter (fun r => r.1 == k)
  let n := s.power.env.sppr.getD k 0
  let lost := mine.drop n
  let s := s.updNv fun x => { x with repairs := x.repairs.filter (fun r => !lost.contains r) }
  let s := s.updHbm k fun h => { h with sppr := n - mine.length }
  each lost (fun r s => s.retirePage ({ Loc.none with kind := 1, unit := k, sub := r.2.1, bank := r.2.2.1, row := r.2.2.2.1 } : Loc).page 0xFFFFFFFF) s

/-- Sixteen free pages as spares: which ones the firmware takes is open (assumption 2). -/
def State.takeSpares (s : State) (k : Nat) : State :=
  let pages := s.freePages k
  let (n, s) := s.drawNat
  let from_ := n % (pages.length + 1)
  s.updHbm k fun h => { h with spares := (pages.drop from_ ++ pages.take from_).take 16 }

/-- Steps 3 to 7 on one pseudo-channel: each passes within its limit, and the last one without a bit error (R503). -/
def PChan.train (p : PChan) (t : PcTraining) (seed word : Nat) : PChan :=
  let p := { p with refs := (t.readRef, t.writeRef), delays := t.delays }
  if t.failStep != 0 then { p with trainStep := t.failStep - 1, trainFail := true }
  else
    let p := p.finalCheck t.flips seed word
    let bad := p.dqErrors.any (· != 0)
    { p with trainStep := if bad then 6 else 7, trainFail := bad, trainErrs := p.dqErrors }

/-- Training of a pseudo-channel that the environment lists, or that passes every step. -/
def pcTrainingOf (e : BootEnv) (n : Nat) : PcTraining :=
  e.pchans.getD n { failStep := 0, readRef := 0, writeRef := 0, delays := [], flips := [] }

/-- The four stacks train in parallel; a stack fails at the first step at which its test port or one of its pseudo-channels does. -/
def State.trainStack (s : State) (k : Nat) : State :=
  let env := s.power.env
  let port := env.stackFail.getD k 0
  let (seed, s) := s.drawNat
  let (word, s) := s.drawNat
  let s := s.updMem fun m =>
    { m with pchans := (numbered m.pchans).map (fun x =>
        if x.1 / 32 != k then x.2
        else if port != 0 then { x.2 with trainStep := port - 1, trainFail := true }
        else x.2.train (pcTrainingOf env x.1) seed word) }
  let failed := (List.range 32).filter (fun i => (s.pchan (32 * k + i)).trainFail)
  let step := match failed with
    | [] => 0
    | i :: is => is.foldl (fun v i => min v ((s.pchan (32 * k + i)).trainStep + 1)) ((s.pchan (32 * k + i)).trainStep + 1)
  if s.nv.retirePending.any (fun r => r.1 == k) then s.retireStack k 0
  else if step != 0 then s.retireStack k step
  else
    let s := s.applyRepairs k
    let s := s.updHbm k fun h => { h with st := 2 }
    let s := s.updMem fun m =>
      { m with pchans := (numbered m.pchans).map (fun x => if x.1 / 32 = k then { x.2 with ready := true } else x.2) }
    s.takeSpares k

/-! ## The firmware's part: codes 0x60 to 0xF0 (R106) -/

/-- LINK_RESET_SEEN, once PERST_N is high and the firmware runs (R136, R153). -/
def State.linkSeen (s : State) : State :=
  let p := s.power
  if p.linkOwed && p.perstN && s.nimlek then
    (s.updPower fun p => { p with linkOwed := false }).raise 0x0105 srcDevice
      (le 4 p.linkResets.toNat ++ le 8 (p.perstFallTbm / 1000000000) ++ le 4 p.orphanedCount)
  else s

/-- After either restart the firmware raises HLT_FURL_RESTARTED, and logs the furl (R624, R640). -/
def State.furlSeen (s : State) : State :=
  if s.power.resetCause = 0x03 || s.power.resetCause = 0x04 then
    let s := s.hltEvent 0x0826 ((s.nv.furlLog.getLast?.getD []).take 16)
    s.logError 9 Loc.none { detail := s.health.furlCause + 256 * s.health.furlSource }
  else s

/-- Training, the persisted generation and FW_READY. -/
def State.bootFirmware (s : State) : State :=
  let s := each (List.range 4) (fun k s => s.trainStack k) s
  if !s.mem.hbm.any (fun h => h.st == 2) then
    (s.updPower fun p => { p with watchdogOn := false }).stopBoot 0xE9 .stopped
  else
    let s := s.updPower fun p => { p with bootCode := 0x70 }
    let s := s.restore
    let s := (s.updPower fun p => { p with bootCode := 0x80 }).furlSeen
    (s.updPower fun p => { p with bootCode := 0xF0, bootStage := .running }).setCause 0

/-- An OWNER_USED bit 0 that was programmed before the LIFECYCLE bit: the firmware finishes the step (R593). -/
def State.finishEnrol (s : State) : State :=
  let f := s.nv.fuses
  if f.lifecycle == 1 && f.used 0 then
    (s.updNv fun n => { n with fuses := { n.fuses with lifecycle := 2 } }).raise 0x0703 srcDevice
      (le 1 0 ++ le 7 0 ++ (f.owner 0).take 8)
  else s

/-- A fallback is reported once the other slot runs (R104, R153, R591): the failed slot's boot code, open where a TRIED slot
was left unconfirmed. -/
def State.fallback (s : State) (failed : Option Byte) : State :=
  let (n, s) := s.drawNat
  let code := failed.getD (BitVec.ofNat 8 n)
  s.raise 0x0106 srcDevice (le 1 s.trust.runningSlot ++ [code])

/-- A verified first stage runs: code 0x50. -/
def State.runFirst (s : State) (img : List Byte) : State :=
  (s.updTrust fun t => { t with mFs := imageDigest img, rootKey := sub img 16 2592, fsSvn := imageSvn img }).updPower fun p =>
    { p with bootCode := 0x50, bootStage := .waitNimlek }

/-- A verified Nimlek runs: code 0x60. The source is 0 or 1 a slot, 2 the flash, 3 MGMT_SPI; from the last two the slot that
runs is taken to be the record's (assumption 18). -/
def State.runNimlek (s : State) (img : List Byte) (source : Nat) : State :=
  let slot := if source < 2 then source else s.nv.abSlot
  let s := s.updTrust fun t =>
    { t with mFw := imageDigest img, fwSvn := imageSvn img, fwVersion := BitVec.ofNat 32 (imageVersion img), runningSlot := slot,
             tried := s.nv.trial == 2 && source == 1 - s.nv.abSlot }
  (s.updNcp fun n => { n with fwVersion := true }).updPower fun p =>
    { p with bootCode := 0x60, watchdogOn := true, bootSource := source, bootStage := .idle }

/-- From code 0x60 on. -/
def State.bootNimlek (s : State) (img : List Byte) (source : Nat) (fell : Bool) (failed : Option Byte) : State :=
  let s := s.runNimlek img source
  let s := s.finishEnrol.issueCerts
  let s := if s.health.comparatorsFailed ≠ 0 then s.hltEvent 0x0828 (le 1 s.health.comparatorsFailed.toNat) else s
  let s := if fell then s.fallback failed else s
  s.linkSeen.bootFirmware

/-! ## The images (R69, R102–R104, R591) -/

/-- An image of a source: a slot of the non-volatile store or the recovery flash. -/
def State.imageAt (s : State) (source kind : Nat) : Option (List Byte) :=
  if source < 2 then ((s.nv.slot source).image kind).map (·.bytes) else s.power.env.flash[kind]?

/-- The stop code of an image, which may be missing. -/
def State.imageCode (s : State) (kind : Nat) (img : Option (List Byte)) : Option Byte :=
  match img with
  | none => some 0xE6
  | some b => s.imageFault kind b

/-- Try the sources in order: the one that boots, or the code of the last failure. `failed` is the code of the first one
tried, once it has failed. Trying the other slot is recorded as a fallback in the non-volatile store, whether or not it
boots (R104). -/
def State.bootImages (s : State) (fell : Bool) : List Nat → Option Byte → Option Byte → State
  | [], _, last => s.stopBoot (last.getD 0xE6) .waitFirstStage
  | src :: rest, failed, _ =>
    let s := s.updPower fun p => { p with bootSource := src }
    let s := if fell then (s.updNv fun x => { x with fallback := true }).updPower fun p => { p with fellBack := true } else s
    match s.imageCode 0 (s.imageAt src 0) with
    | some c => s.bootImages true rest (some (failed.getD c)) (some c)
    | none =>
      let s := s.runFirst ((s.imageAt src 0).getD [])
      match s.imageCode 1 (s.imageAt src 1) with
      | some c => s.bootImages true rest (some (failed.getD c)) (some c)
      | none => s.bootNimlek ((s.imageAt src 1).getD []) src fell failed

/-- The Mast part of the boot ROM, from code 0x40 (R69, R104, R591). A TRIAL slot becomes TRIED as it is tried; one that is
still TRIED is given up. -/
def State.bootMast (s : State) : State :=
  let slot := s.nv.abSlot
  match s.power.bootsel.toNat with
  | 0 =>
    if s.nv.trial = 1 then
      (s.updNv fun n => { n with trial := 2 }).bootImages false [1 - slot, slot] none none
    else if s.nv.trial = 2 then
      (s.updNv fun n => { n with trial := 0 }).bootImages true [slot, 1 - slot] none none
    else s.bootImages false [slot, 1 - slot] none none
  | 1 => s.bootImages false [0] none none
  | 2 => s.bootImages false [1] none none
  | 3 => (s.drivePins .bootSpi).bootImages false [2] none none
  | _ => s.updPower fun p => { p with bootStage := .waitFirstStage }

/-! ## The power-up sequence (R92, R97–R100, R105, R106) -/

/-- Boot voltages of R97 in mV. -/
def bootVolts : List Nat := [1800, 1100, 400, 850, 800, 750, 850, 900, 1200]

/-- Synthesisers: code 0x40, the Mast runs, and the endpoint is ready for link training (R530). -/
def State.bootPlls (s : State) : State :=
  if s.power.env.pllsLock then
    let s := s.updPower fun p => { p with bootCode := 0x40, pllLocked := true, mastRuns := true, bootStage := .idle }
    let s := if s.power.perstN then (s.drivePins (.lanes 0)).updEp fun e => { e with st := fxDetect } else s
    s.bootMast
  else s.updPower fun p => { p with bootStage := .waitPll }

/-- The addresses of R97 are read and written in order until one gives no acknowledge (R99). -/
def State.bootVoltages (s : State) (n : Nat) : State :=
  let s := each (List.range n) (fun i s => s.out (.pmbus 0 (0x40 + i) (bootVolts.getD i 0))) (s.drivePins (.pmbus 0))
  s.updPower fun p => { p with vout := bootVolts.take n ++ p.vout.drop n }

/-- Rails: all nine rise, or one of them is still short of its voltage. -/
def State.bootRails (s : State) : State :=
  let acked := ((List.range 9).takeWhile (fun i => s.power.env.pmbusAck.getD i false)).length
  let s := s.bootVoltages acked
  if acked < 9 then s.stopPower 0xE3
  else
    let s := s.drivePins .pwrEn
    let on (n : Nat) : List Bool := (List.range 16).map (fun i => decide (i < n))
    if s.power.env.railsRise then
      (s.updPower fun p => { p with bootCode := 0x30, railsUp := true, pwrEn := on 9 }).bootPlls
    else
      let (n, s) := s.drawNat
      s.updPower fun p => { p with pwrEn := on (n % 9 + 1), bootStage := .waitRails }

/-- Crystal qualification. -/
def State.bootXtal (s : State) : State :=
  if s.power.env.crystal && s.power.crystalRuns then
    (s.updPower fun p => { p with bootCode := 0x20, xtalQualified := true, aonOnXtal := true, bootStage := .idle }).bootRails
  else s.updPower fun p => { p with bootStage := .waitXtal }

/-- The boot source before any image is tried: what BOOTSEL names, and the slot of the A/B record under 0b000 (R69, R149). The spec
gives the source of an image that has booted; before one has, this is the model's value, and after every candidate failed it is the
last one tried (DESIGN CHOICE, assumption 33). -/
def State.firstSource (s : State) : Nat :=
  match s.power.bootsel.toNat with
  | 0 => s.nv.abSlot
  | 1 => 0
  | 2 => 1
  | 3 => 2
  | _ => 3

/-- The boot ROM starts: code 0x10, the comparators are tested, and two failed ones furl the device (R623). -/
def State.boot (s : State) (env : BootEnv) : State :=
  let s := s.updPower fun p => { p with condition := .running, env := env, bootCode := 0x10, bootStage := .idle, bootSource := s.firstSource }
  let s := s.updNv fun n => { n with bootCount := n.bootCount + 1 }
  let s := s.updHealth fun h => { h with comparatorsFailed := env.comparators }
  if 2 ≤ popCount 4 env.comparators.toNat then s.furl 1 env.comparators.toNat
  else if 4 < s.power.bootsel.toNat then s.stopBoot 0xE1 .stopped
  else if !s.power.bootCold && !env.discharged then s.updPower fun p => { p with bootStage := .waitDischarge }
  else s.bootXtal

/-- The reset ends when PWROK and SYS_RESET_N are both high. -/
def State.leaveReset (s : State) (env : BootEnv) : State :=
  if s.power.condition == .reset && s.power.pwrok && s.power.sysResetN then s.boot env else s

/-! ## Entering a reset (R87, R91, R94) -/

/-- PWR_EN[8:0] go low: by command in the reverse of the power-up order, 100 µs apart, else all at once (R63, R91). -/
def State.dropRails (s : State) (ordered : Bool) : State :=
  each ((setBits 9 (bitmap s.power.pwrEn)).reverse) (fun i s =>
    s.out (.pwrEn i false (if ordered then (8 - i) * 100000 else 0))) s

/-- A warm reset: its cause and its count. By command the rails fall in order; one that the firmware
asks for after a lockstep mismatch is taken as one by command (assumption 33). -/
def State.enterWarm (s : State) (cause : Byte) : State :=
  ((s.dropRails (cause == 0x11 || cause == 0x12 || cause == 0x15)).wipe true).updPower fun p =>
    { p with resetCause := cause, warmCount := satInc 16 p.warmCount, bootCold := false }

/-- A cold reset. -/
def State.enterCold (s : State) (cause : Byte) : State :=
  (s.wipe false).updPower fun p =>
    { p with resetCause := cause, warmCount := 0, linkResets := 0, bootCold := true, coldCause := 0x02, thermtripLow := false }

/-! ## Rows of the boot -/

def execXtalFail (s : State) : Host.Outcome State Fault Refusal :=
  .next (if s.power.bootStage == .waitXtal then s.stopPower 0xE2 else s)

def execRailTimeout (s : State) : Host.Outcome State Fault Refusal :=
  .next (if s.power.bootStage == .waitRails then s.stopPower 0xE4 else s)

def execPllLockFail (s : State) : Host.Outcome State Fault Refusal :=
  .next (if s.power.bootStage == .waitPll then s.stopPower 0xE5 else s)

def execRailDischarge (s : State) : Host.Outcome State Fault Refusal :=
  .next (if s.power.bootStage == .waitDischarge then s.stopPower 0xEA else s)

def execRailsDischarged (s : State) : Host.Outcome State Fault Refusal :=
  .next (if s.power.bootStage == .waitDischarge then (s.updPower fun p => { p with bootStage := .idle }).bootXtal else s)

/-- The crystal runs again: a boot at crystal qualification goes on, one that has stopped there after a loss too (R77). -/
def State.crystalBack (s : State) : State :=
  let s := s.updPower fun p => { p with crystalRuns := true }
  let p := s.power
  if p.bootStage == .waitXtal || (p.bootStage == .stopped && p.bootCode == 0xE2 && p.resetCause == 0x14) then
    (s.updPower fun p => { p with env := { p.env with crystal := true } }).bootXtal
  else s

def execCrystalRunsAgain (s : State) : Host.Outcome State Fault Refusal := .next s.crystalBack

/-- No crystal edge for 2 µs while RUNNING (R77). Before the crystal is qualified the boot runs from the internal oscillator,
and a loss resets nothing: it waits at crystal qualification (assumption 33). -/
def State.crystalLoss (s : State) (env : BootEnv) : State :=
  let s := s.updPower fun p => { p with crystalRuns := false }
  if s.running && s.power.xtalQualified then (s.enterWarm 0x14).leaveReset env else s

def execCrystalLoss (env : BootEnv) (s : State) : Host.Outcome State Fault Refusal := .next (s.crystalLoss env)

def execWatchdogExpiry (env : BootEnv) (s : State) : Host.Outcome State Fault Refusal :=
  .next (if s.running && s.power.watchdogOn then (s.enterWarm 0x13).leaveReset env else s)

/-- The OK of the command that asked for a warm reset has been posted (R145). -/
def State.resetAnswered (s : State) : Bool :=
  !s.ncp.waiting.any (fun w => (w.cmd.opcode == 0x0105 || w.cmd.opcode == 0x0707) && w.status == stOk && w.ring.isSome)

/-- A warm reset by command enters RESET once its OK is posted and the firmware has closed the open segments, or after 100 ms (R91,
R597). -/
def State.warmEntry (s : State) (env : BootEnv) : State :=
  match s.power.warmPending with
  | none => s
  | some (cause, asked) =>
    if s.running && s.resetAnswered then
      let s := if asked + ms 100 ≤ s.now then s else s.closeSegments 3
      (s.enterWarm cause).leaveReset env
    else s

def execWarmResetEntry (env : BootEnv) (s : State) : Host.Outcome State Fault Refusal := .next (s.warmEntry env)

/-! ## Commands that ask for a warm reset (R145, R587, R591) -/

def devResetBody (c : Cmd) (s : State) : State :=
  if bit s.policyFlags 1 && !c.box.isMgmt then s.fail c stNotAuthorised
  else if fld c.payload 0 4 != 0x5741524D then s.badField c 0
  else ((s.ok c []).askWarm (if c.box.isMgmt then 0x12 else 0x11)).closeSegments 3

def execDevReset (b : Mbox) (s : State) : Host.Outcome State Fault Refusal := .next (s.take b formDevReset devResetBody).settle

def execTrsFwActivate (b : Mbox) (s : State) : Host.Outcome State Fault Refusal :=
  .next (s.take b formTrsFwActivate trsFwActivateBody).settle

/-! ## Images over a management mailbox (R103, R143, R152, R580) -/

/-- An image is awaited: under BOOTSEL 0b100, or after no candidate has passed (R104, R143). -/
def State.awaitsImage (s : State) : Bool := s.power.bootStage == .waitFirstStage || s.power.bootStage == .waitNimlek

def formMgmtImageBegin : Form := { op := 0x0110, host := false, mgmt := true, rom := true, lo := 8, hi := 8 }

/-- A second BEGIN drops what has arrived and starts anew, and the two mailboxes share one delivery (DESIGN CHOICE, assumption 33). -/
def mgmtImageBeginBody (c : Cmd) (s : State) : State :=
  let kind := fld c.payload 0 4
  let total := fld c.payload 4 4
  if 1 < kind then s.badField c 0
  else if imageLimit kind < total then s.badField c 4
  else if !s.awaitsImage then s.fail c stNotAuthorised
  else
    let v : ImageIn := { kind := kind, total := total, data := [] }
    (s.updNcp fun n => { n with imageIn := some v }).ok c []

def execMgmtImageBegin (b : Mbox) (s : State) : Host.Outcome State Fault Refusal :=
  .next (s.take b formMgmtImageBegin mgmtImageBeginBody)

def formMgmtImageData : Form :=
  { op := 0x0111, host := false, mgmt := true, rom := true, lo := 9, hi := 16328, reserved := [(4, 4)] }

/-- At least one byte of data (R152). With no image begun, or past its total length, BAD_FIELD at the offset (assumption 33). -/
def mgmtImageDataBody (c : Cmd) (s : State) : State :=
  let d := c.payload.drop 8
  if !s.awaitsImage then s.fail c stNotAuthorised
  else match s.ncp.imageIn with
    | none => s.badField c 0
    | some i =>
      if fld c.payload 0 4 != i.data.length || i.total < i.data.length + d.length then s.badField c 0
      else
        let v : ImageIn := { i with data := i.data ++ d }
        (s.updNcp fun n => { n with imageIn := some v }).ok c []

def execMgmtImageData (b : Mbox) (s : State) : Host.Outcome State Fault Refusal :=
  .next (s.take b formMgmtImageData mgmtImageDataBody)

def formMgmtImageEnd : Form := { op := 0x0112, host := false, mgmt := true, rom := true }

/-- A whole image is verified and booted; one that fails shows the stop code, and one of its kind is awaited again. -/
def State.imageArrived (s : State) (i : ImageIn) : State :=
  let want := if s.power.bootStage == .waitNimlek then 1 else 0
  let short := i.data.length != i.total
  let code := if i.kind != want then some 0xE7 else if short then some 0xE7 else s.imageFault want i.data
  match code with
  | some c =>
    let st := if i.kind != want || short then stValidationFailed else s.imageStatus want i.data
    (s.stopBoot c s.power.bootStage).finishAll 0x0112 0 st [] none
  | none =>
    let s := s.finishAll 0x0112 0 stOk [] none
    if want = 0 then (s.runFirst i.data).updPower fun p => { p with bootSource := 3 } else s.bootNimlek i.data 3 false none

/-- With no image begun, VALIDATION_FAILED (assumption 33). -/
def mgmtImageEndBody (c : Cmd) (s : State) : State :=
  if !s.awaitsImage then s.fail c stNotAuthorised
  else
    let s := s.accept c 0 []
    match s.ncp.imageIn with
    | none => s.finishAll 0x0112 0 stValidationFailed [] none
    | some i => (s.updNcp fun n => { n with imageIn := none }).imageArrived i

def execMgmtImageEnd (b : Mbox) (s : State) : Host.Outcome State Fault Refusal :=
  .next (s.take b formMgmtImageEnd mgmtImageEndBody)

end Sys2Proof.Machine
end

