-- ==== Sys2Proof/Machine/Access.lean ====
section
/-! DEFINITION. Accesses of the host to BAR0 that have no row of their own, and frames on MGMT_SPI (R7–R11, R109, R138–R140,
R527). -/

namespace Sys2Proof.Machine

open Sys2Proof

/-! ## Reads (R8, R9, R551) -/

/-- The time base whose SEC_LO an address is; 5 for TBM. -/
def secLoBase (a : Nat) : Option Nat :=
  if a = 0x600010 then some 5
  else (List.range 5).find? (fun b => a == 0x610004 + 0x1000 * b)

/-- The side effects of a 32-bit read of an aligned register: a low word latches its high word, a SEC_LO the rest of its time. -/
def State.readEffect (s : State) (a : Nat) : State :=
  if isPairLow a then
    { s with latches := (a, BitVec.ofNat 32 (s.regRead (a + 4))) :: s.latches.filter (fun l => l.1 != a) }
  else match secLoBase a with
    | some b => s.latchBase b
    | none => s

/-- One aligned word of a read: its four bytes, and the state after its side effects. -/
def State.readStep (s : State) (a : Nat) : List Byte × State := (le 4 (s.readWord a), s.readEffect a)

/-- The aligned words from an address on, in ascending order, each with the side effects of those before it. -/
def State.readWords : Nat → Nat → State → List Byte × State
  | 0, _, s => ([], s)
  | n + 1, a, s =>
    let (d, s) := s.readStep a
    let (ds, s) := State.readWords n (a + 4) s
    (d ++ ds, s)

/-- A read of any width and alignment reads every aligned word that holds one of its bytes, once, in ascending order, and
returns the addressed bytes (R8). -/
def State.hostRead (s : State) (a len : Nat) : State :=
  let first := a / 4 * 4
  let (d, t) := State.readWords ((a + len + 3) / 4 - a / 4) first s
  t.out (.readData a ((d.drop (a - first)).take len))

def execLoWordRead (r : HostRead) (s : State) : Host.Outcome State Fault Refusal :=
  .next (if s.hostReaches then s.hostRead r.addr r.len else s)

/-! ## Writes (R8, R10, R11) -/

/-- The RW1C bits of a register. -/
def rw1cMask (a : Nat) : Nat :=
  if a = 0x20 then 0x3FFFFF
  else if a = 0x24 then 0xF
  else if a = 0x10028 || a = 0x1002C then 0xFFFFFFFF
  else if 0x500000 ≤ a && a < 0x501000 && a % 8 == 4 then 0x80000000
  else 0

/-- A word after a clear; a bit that hardware sets in the same cycle reads 1. -/
def rw1c (old clear sets : Nat) (mask : Nat) : Nat := (old &&& (0xFFFFFFFF ^^^ (clear &&& mask))) ||| (sets &&& mask)

/-- A write of 1s to RW1C bits; `hw` are the bits that hardware sets in the same cycle. OVERFLOW of PMC_CTR_HI is read from
the latch like the rest of its word, and a clear reaches the latched bit too (assumption 33). -/
def State.clearBits (s : State) (a v hw : Nat) : State :=
  let m := rw1cMask a
  if a = 0x20 then s.updNcp fun n => { n with intSummary := BitVec.ofNat 32 (rw1c n.intSummary.toNat v hw m) }
  else if a = 0x24 then
    let s := s.updNcp fun n => { n with globalCause := BitVec.ofNat 32 (rw1c n.globalCause.toNat v hw m) }
    if hw &&& m = 0 then s else s.askVector 0
  else if a = 0x10028 then
    s.updNcp fun n =>
      let x := n.rejectBits.toNat
      { n with rejectBits := BitVec.ofNat 64 (x / 2 ^ 32 * 2 ^ 32 + rw1c (x % 2 ^ 32) v hw m) }
  else if a = 0x1002C then
    s.updNcp fun n =>
      let x := n.rejectBits.toNat
      { n with rejectBits := BitVec.ofNat 64 (rw1c (x / 2 ^ 32) v hw m * 2 ^ 32 + x % 2 ^ 32) }
  else if m = 0 then s
  else
    let old := (s.obs.counters.getD ((a - 0x500004) / 8) Counter.reset).overflow
    let ovf := bit (rw1c (b2n old * 2 ^ 31) v hw m) 31
    let s := s.updObs fun o => { o with counters := upd o.counters ((a - 0x500004) / 8) (fun c => { c with overflow := ovf }) }
    { s with latches := s.latches.map (fun l =>
        if l.1 = a - 4 then (l.1, BitVec.ofNat 32 (l.2.toNat % 2 ^ 31 + b2n (bit l.2.toNat 31 && ovf) * 2 ^ 31)) else l) }

def execRw1cClear (addr : Nat) (v : Word) (hwSets : Word) (s : State) : Host.Outcome State Fault Refusal :=
  .next (if s.hostReaches then s.clearBits addr v.toNat hwSets.toNat else s)

/-- A word of the MSI-X table; clearing the mask of a vector sends its pending message (R526, R527). -/
def State.writeMsix (s : State) (off v : Nat) : State :=
  let n := off / 16
  match off % 16 with
  | 0 => s.updVec n fun x => { x with addr := BitVec.ofNat 64 (x.addr.toNat / 2 ^ 32 * 2 ^ 32 + v) }
  | 4 => s.updVec n fun x => { x with addr := BitVec.ofNat 64 (v * 2 ^ 32 + x.addr.toNat % 2 ^ 32) }
  | 8 => s.updVec n fun x => { x with data := BitVec.ofNat 32 v }
  | _ => if bit v 0 then s.updVec n fun x => { x with masked := true } else s.unmask n

/-- A 32-bit write to an aligned register. -/
def State.writeWord (s : State) (a v : Nat) : State :=
  if rw1cMask a ≠ 0 then s.clearBits a v 0
  else if a = 0x30 then (if bit v 0 then s.halTrigger 0 else s)
  else if a = 0x10000 || a = 0x10004 then s.ringAll (a == 0x10004) (BitVec.ofNat 32 v)
  else if a = 0x10020 || a = 0x10024 then s.releaseAll (a == 0x10024) (BitVec.ofNat 32 v)
  else if 0x10100 ≤ a && a < 0x10180 && a % 8 == 4 then
    s.updSession ((a - 0x10100) / 8) fun x => { x with cons := v % 1024 }
  else if a = 0x10204 then (s.updNcp fun n => { n with eqCons := v % 16384 }).eqOwed
  else if 0x30000 ≤ a && a < 0x31000 then s.writeMsix (a - 0x30000) v
  else s

/-- Host writes into the slots are stored byte by byte at any width (R8, R113). -/
def State.writeSlots (s : State) (addr : Nat) (data : List Byte) : State :=
  each (List.range 64) (fun n s =>
    let lo := (Mbox.slot n).base
    let from_ := max addr lo
    let to_ := min (addr + data.length) (lo + 0x4000)
    if from_ < to_ then s.writeSlot n (from_ - lo) ((data.drop (from_ - addr)).take (to_ - from_)) else s) s

/-- Host writes into the completion rings and the event ring are stored byte by byte at any width (R8, R109). -/
def State.writeRings (s : State) (addr : Nat) (data : List Byte) : State :=
  let from_ := max addr 0x200000
  let to_ := min (addr + data.length) 0x300000
  if from_ < to_ then s.updNcp fun x => { x with mem := x.mem.writeN from_ ((data.drop (from_ - addr)).take (to_ - from_)) } else s

/-- A write acts on each aligned register that it covers in full, in ascending order. -/
def State.hostWrite (s : State) (addr : Nat) (data : List Byte) : State :=
  let first := (addr + 3) / 4 * 4
  each (List.range ((addr + data.length - first) / 4)) (fun k s =>
    s.writeWord (first + 4 * k) (fld data (first + 4 * k - addr) 4)) ((s.writeSlots addr data).writeRings addr data)

def execRegisterWrite (addr : Nat) (data : List Byte) (s : State) : Host.Outcome State Fault Refusal :=
  .next (if s.hostReaches then s.hostWrite addr data else s)

def execSlotWrite (addr : Nat) (data : List Byte) (s : State) : Host.Outcome State Fault Refusal :=
  .next (if s.hostReaches then s.writeSlots addr data else s)

/-! ## The management side-band (R138–R140, R142) -/

/-- A byte of the management space; locations that it does not name read 0. -/
def State.mgByte (s : State) (l : Nat) : Byte :=
  if l < 0x10000 then (le 4 (s.regGlb (l / 4 * 4))).getD (l % 4) 0
  else if l < 0x18000 then s.ncp.mem.read (2 ^ 32 + l)
  else if 0x18004 ≤ l && l < 0x18008 then (le 4 ((s.mg 1).st.code * 4 + (s.mg 0).st.code)).getD (l - 0x18004) 0
  else if 0x18020 ≤ l && l < 0x18040 then (s.mg 0).cpl.getD (l - 0x18020) 0
  else if 0x18040 ≤ l && l < 0x18060 then (s.mg 1).cpl.getD (l - 0x18040) 0
  else 0

/-- Mailboxes that are not IDLE, of which a frame of this length writes a byte: the write is ignored there, and counted in
MBX_ERR as one to a slot (R113, R141). -/
def State.mgIgnored (s : State) (l len : Nat) : Nat :=
  ((List.range 2).filter (fun m =>
    decide (l < 0x14000 + m * 0x4000 && 0x10000 + m * 0x4000 < l + len) && (s.mg m).st != .idle)).length

/-- A byte written into a mailbox that is IDLE (R113). -/
def State.mgPut (s : State) (l : Nat) (b : Byte) : State :=
  if 0x10000 ≤ l && l < 0x18000 && (s.mg ((l - 0x10000) / 0x4000)).st == .idle then
    s.updNcp fun n => { n with mem := n.mem.write (2 ^ 32 + l) b }
  else s

/-- A WRITE frame: the mailboxes byte by byte, a register when the frame holds its 4 bytes. -/
def State.mgWrite (s : State) (l : Nat) (d : List Byte) : State :=
  let ignored := s.mgIgnored l d.length
  let s := each (numbered d) (fun p s => s.mgPut (l + p.1) p.2) s
  let s := s.updNcp fun n => { n with writesIgnored := sat 16 (n.writesIgnored + ignored) }
  let holds (r : Nat) : Bool := decide (l ≤ r) && decide (r + 4 ≤ l + d.length)
  let s := if holds 0x18000 then s.mgRing (fld d (0x18000 - l) 4) else s
  if holds 0x18008 then s.mgFree (fld d (0x18008 - l) 4) else s

/-- A frame of MGMT_SPI. What MISO shows before the turnaround byte is left out. The release word of a FURLED device is the
row MG_FURL_RELEASE. -/
def State.mgFrame (s : State) (mosi : List Byte) (readLen : Nat) : State :=
  let op := fld mosi 0 1 % 64
  let loc := fld mosi 1 1 * 65536 + fld mosi 2 1 * 256 + fld mosi 3 1
  if mosi.length < 4 || fld mosi 0 1 / 64 != s.power.mgmtAddr.toNat || !s.running then s
  else if op = 1 then s.out (.miso (0 :: (List.range readLen).map (fun k => s.mgByte (loc + k))))
  else if op = 2 then s.mgWrite loc (mosi.drop 4)
  else s

def execMgmtFrame (mosi : List Byte) (readLen : Nat) (s : State) : Host.Outcome State Fault Refusal := .next (s.mgFrame mosi readLen)

end Sys2Proof.Machine
end

