-- ==== Sys2Proof/Machine/FlexRows.lean ====
section
/-! DEFINITION. The rows of flex lanes (chapter 16). -/

namespace Sys2Proof.Machine

open Sys2Proof

def execFlxLinkInfo (b : Mbox) (s : State) : Host.Outcome State Fault Refusal := .next (s.take b formFlxLinkInfo flxLinkInfoBody)

def execFlxMargin (b : Mbox) (s : State) : Host.Outcome State Fault Refusal := .next (s.take b formFlxMargin flxMarginBody)

def execFlxRetrain (b : Mbox) (s : State) : Host.Outcome State Fault Refusal := .next (s.take b formFlxRetrain flxRetrainBody)

def execLinkActive (port : Nat) (f : LinkFacts) (s : State) : Host.Outcome State Fault Refusal := .next (s.linkActive port f).settle

def execPortRetryDetect (port : Nat) (s : State) : Host.Outcome State Fault Refusal := .next (s.retryDetect port)

def execL1Entry (port : Nat) (s : State) : Host.Outcome State Fault Refusal := .next (s.l1Entry port)

def execEthSignalLoss (port : Nat) (s : State) : Host.Outcome State Fault Refusal := .next (s.ethDown port)

def execEthLinkUp (port micros : Nat) (s : State) : Host.Outcome State Fault Refusal := .next (s.ethUp port micros)

def execRecoveryTimeout (port : Nat) (s : State) : Host.Outcome State Fault Refusal := .next (s.recoveryTimeout port).settle

def execFlexMarginScan (s : State) : Host.Outcome State Fault Refusal := .next s.marginScan

def execFlexMarginDone (yard slot : Nat) (f : MarginFacts) (s : State) : Host.Outcome State Fault Refusal :=
  .next (s.marginDone yard slot f)

def execEndpointLinkActive (f : EpFacts) (s : State) : Host.Outcome State Fault Refusal := .next (s.epActive f)

def execRootPortLinkDown (port : Nat) (s : State) : Host.Outcome State Fault Refusal := .next (s.rootLinkDown port).settle

def execPcieRecoveryEntry (port : Nat) (s : State) : Host.Outcome State Fault Refusal := .next (s.recoveryEntry port)

def execFlxLinkErrors (yard slot correctable uncorrectable : Nat) (s : State) : Host.Outcome State Fault Refusal :=
  .next (if yard = 0 || (s.port yard slot).port.isSome then s.flexErrors yard slot correctable uncorrectable else s)

def execPerstOutNRelease (port : Nat) (s : State) : Host.Outcome State Fault Refusal := .next (s.perstRelease port)

end Sys2Proof.Machine
end

