-- ==== Sys2Proof/Machine/Pins.lean ====
section
/-! DEFINITION. Supplies, reset pins, furl and the link resets of the host endpoint (R61–R64, R72, R87–R95, R136, R144, R528–R530,
R621, R624). -/

namespace Sys2Proof.Machine

open Sys2Proof

/-! ## Supplies and PWROK (R61, R72, R87, R94) -/

/-- VDD_AON rises: the always-on domain starts, and the next PWROK edge is COLD_POWER_ON. With both rails in range and PWROK low the
device is in RESET at once, while after a loss of VDDIO_18, whose return has no row, it stays UNPOWERED until PWROK rises; the two
rows of R61 leave this open (DESIGN CHOICE, assumption 33). -/
def State.aonRise (s : State) : State :=
  if s.power.vddAon then s
  else s.updPower fun p =>
    { p with vddAon := true, condition := if p.vddio then .reset else .unpowered, coldCause := 0x01, aonNs := 0 }

def execVddAonRise (s : State) : Host.Outcome State Fault Refusal := .next s.aonRise

/-- Power is lost while FURLED: whether the record had reached the non-volatile store is open, and so are its fields of the
cooling (assumption 18). -/
def State.furlCut (s : State) : State :=
  if s.power.condition == .furled then
    let (done, s) := s.drawBool
    let (peak, s) := s.drawNat
    let (cooling, s) := s.drawNat
    if done then s.copyFurl 4 (peak : Int) cooling else s
  else s

/-- A supply falls below its minimum. With VDD_AON the furl restart history goes (R89, R624). -/
def State.supplyLoss (s : State) (aon : Bool) : State :=
  if (aon && !s.power.vddAon) || (!aon && !s.power.vddio) then s
  else
    let s := s.furlCut.wipe false
    let s := s.updPower fun p =>
      { p with condition := .unpowered, pwrok := false, thermtripLow := false, vddAon := p.vddAon && !aon,
               vddio := p.vddio && aon }
    if aon then
      s.updHealth fun h =>
        { h with furlCause := 0, furlSource := 0, furlTotal := 0, latched := false, furlTbm := 0, restarts := [], furlRecent := 0 }
    else s

def execSupplyLoss (aon : Bool) (s : State) : Host.Outcome State Fault Refusal := .next (s.supplyLoss aon)

/-- PWROK rises: the straps are sampled, and the cold reset completes. Only a restart or a loss of power ends FURLED (R61). -/
def State.pwrokRise (s : State) (bootsel : BitVec 3) (mgmtAddr : BitVec 2) (env : BootEnv) : State :=
  if !s.power.vddAon || s.power.pwrok then s
  else
    let s := s.updPower fun p => { p with vddio := true, pwrok := true, bootsel := bootsel, mgmtAddr := mgmtAddr }
    if s.power.condition == .furled then s else (s.enterCold s.power.coldCause).leaveReset env

def execPwrokRise (bootsel : BitVec 3) (mgmtAddr : BitVec 2) (env : BootEnv) (s : State) : Host.Outcome State Fault Refusal :=
  .next (s.pwrokRise bootsel mgmtAddr env)

def State.pwrokFall (s : State) : State :=
  if !s.power.pwrok then s
  else
    let s := s.updPower fun p => { p with pwrok := false }
    if s.power.condition == .furled then s else s.wipe false

def execPwrokFall (s : State) : Host.Outcome State Fault Refusal := .next s.pwrokFall

/-! ## SYS_RESET_N (R88, R91, R94) -/

/-- A low pulse shorter than 100 ns is ignored; from there to 10 µs it may or may not reset. -/
def State.sysResetFall (s : State) (lowNs : Nat) : State :=
  if lowNs < 100 then s
  else
    let (maybe, s) := if lowNs < 10000 then s.drawBool else (true, s)
    if !maybe then s
    else
      let s := s.updPower fun p => { p with sysResetN := false }
      if s.running then s.enterWarm 0x10 else s

def execSysResetNFall (lowNs : Nat) (s : State) : Host.Outcome State Fault Refusal := .next (s.sysResetFall lowNs)

def execSysResetNRise (env : BootEnv) (s : State) : Host.Outcome State Fault Refusal :=
  .next ((s.updPower fun p => { p with sysResetN := true }).leaveReset env)

/-! ## Link resets (R95, R136, R528, R529) -/

/-- A slot after a link reset: BUSY until its command ends, and granted to nobody. -/
def Slot.linkReset (sl : Slot) : Slot := if sl.st == .busy then { Slot.reset with st := .busy } else Slot.reset

/-- An executing command whose host transfer a link reset stops (R528): a command of the host that copies now. -/
def State.transfers (s : State) (e : ExecCmd) : Bool :=
  match e.cmd.opcode with
  | 0x0407 | 0x0A06 | 0x0B02 => true
  | 0x0A01 => !s.jobs.any (fun j => j.kind == JobKind.decPicture && j.object == e.key && j.args.headD 0 == e.arg 0)
  | 0x0507 | 0x0508 => e.arg 0 != 1
  | _ => false

/-- The endpoint after a link reset: its configuration space and its registers of class LINK are reset. FLR keeps the link. -/
def Endpoint.linkReset (e : Endpoint) (st : Nat) (keep : Bool) : Endpoint :=
  if keep then { e with bme := false, mse := false, msixEn := false, fnMask := false, d3 := false, corr := 0, uncorr := 0, replay := 0 }
  else { Endpoint.reset with st := st, lastErrEvent := e.lastErrEvent, margin := e.margin, marginTbm := e.marginTbm, trainUs := e.trainUs }

/-- What is lost with the link: sessions, rings, the MBX registers and vectors of class LINK. Completions that waited for
room go to the orphan log, and so will those of the BUSY commands. -/
def State.loseHost (s : State) : State :=
  let s := each (List.range 16) (fun n s => s.orphanWaiting n) s
  let cut := s.ncp.exec.map (fun e => match e.cmd.box with
    | .slot _ => { e with orphan := true, cut := e.cut || s.transfers e }
    | .mgmt _ => e)
  let s := s.updNcp fun n =>
    { n with slots := n.slots.map Slot.linkReset, sessions := List.replicate 16 Session.reset,
             mem := n.mem.clear 0x200000 0x80000, rejectBits := 0, lastRejectSlot := 0, lastRejectReason := 0,
             writesIgnored := 0, doorbellsRejected := 0, exec := cut, intSummary := 0, globalCause := 0 }
  let s := { s with vecs := List.replicate 256 Vec.reset }
  s.updObs fun o => { o with vectors := [] }

/-- A link reset: the endpoint goes to `st`, or stays up under FLR. LINK_RESET_SEEN counts every slot that is BUSY at the reset,
those that an earlier closing has orphaned included (DESIGN CHOICE, assumption 33). -/
def State.linkReset (s : State) (st : Nat) (keep : Bool) : State :=
  let was := s.ep.st
  let busy := (s.ncp.slots.filter (fun sl => sl.st == .busy)).length
  let s := s.loseHost.updEp fun e => e.linkReset st keep
  let s := s.updPower fun p =>
    { p with linkResets := p.linkResets + 1, linkOwed := true, perstFallTbm := s.now, orphanedCount := busy }
  if was = fxActive && !keep && s.nimlek then s.linkDown 0 0 none st else s

/-- PERST_N held low for 100 ns or more (R88). -/
def State.perstFall (s : State) (lowNs : Nat) : State :=
  if lowNs < 100 || !s.power.perstN then s
  else
    let s := s.updPower fun p => { p with perstN := false }
    if s.running then s.linkReset fxReset false else s

def execPerstNFall (lowNs : Nat) (s : State) : Host.Outcome State Fault Refusal := .next (s.perstFall lowNs)

/-- PERST_N rises: DETECT once the yard 0 PLL has locked, the lanes of yard 0 driven (R66), and LINK_RESET_SEEN. -/
def State.perstRise (s : State) : State :=
  if s.power.perstN then s
  else
    let s := s.updPower fun p => { p with perstN := true }
    let s := if s.running && s.power.pllLocked then (s.drivePins (.lanes 0)).updEp fun e => { e with st := fxDetect } else s
    s.linkSeen

def execPerstNRise (s : State) : Host.Outcome State Fault Refusal := .next s.perstRise

/-- A hot reset or a link down: the link returns to DETECT. -/
def State.hostLinkLost (s : State) : State := if s.epUp then (s.linkReset fxDetect false).linkSeen else s

def execHotReset (s : State) : Host.Outcome State Fault Refusal := .next s.hostLinkLost

def execDlDown (s : State) : Host.Outcome State Fault Refusal := .next s.hostLinkLost

/-- REFCLK stops: only the endpoint is affected (R76). Training starts again. -/
def State.refclkStop (s : State) : State :=
  if s.epUp then s.hostLinkLost else s.updEp fun e => if fxDetect ≤ e.st then { e with st := fxDetect } else e

def execRefclkStop (s : State) : Host.Outcome State Fault Refusal := .next s.refclkStop

def execFlr (s : State) : Host.Outcome State Fault Refusal :=
  .next (if s.epUp then (s.linkReset s.ep.st true).linkSeen else s)

/-- D0 and D3hot; neither change is a reset (R529). -/
def execDStateChange (d3 : Bool) (s : State) : Host.Outcome State Fault Refusal :=
  .next (if s.epUp then s.updEp fun e => { e with d3 := d3 } else s)

/-! ## Furl (R64, R144, R621, R624) -/

/-- A source of R621 passes its test: comparators that have tripped or failed, or two readings in a row. -/
def State.furlTest (s : State) (cause source : Nat) : Bool :=
  match cause with
  | 1 => 2 ≤ popCount 4 (source ||| s.health.comparatorsFailed.toNat)
  | 2 => source < 4 && 2 ≤ s.health.stackHits.getD source 0
  | 3 => source < 12 && 2 ≤ (s.health.remotes.getD source Remote.reset).hits
  | _ => false

def State.furlVote (s : State) (cause source : Nat) : State :=
  if (s.running || s.power.condition == .reset) && s.furlTest cause source then s.furl cause source else s

def execFurlVote (cause source : Nat) (s : State) : Host.Outcome State Fault Refusal := .next (s.furlVote cause source)

def execFurlEntryEnd (s : State) : Host.Outcome State Fault Refusal :=
  .next (s.updPower fun p => { p with thermtripLow := false })

/-- Cooling has held for 10 s and the copy of R93 is complete; furl entry is over. -/
def State.cooled (s : State) (cool : CoolFacts) : Bool :=
  s.power.condition == .furled && !s.power.thermtripLow && cool.dwellMet

/-- The automatic restart. -/
def State.furlRestart (s : State) (cool : CoolFacts) (env : BootEnv) : State :=
  if s.cooled cool && !s.health.latched then
    let s := s.copyFurl 0 cool.peak cool.coolingMs
    let s := s.updHealth fun h => { h with restarts := s.power.aonNs :: h.restarts }
    (s.enterCold 0x03).leaveReset env
  else s

def execFurlRestart (cool : CoolFacts) (env : BootEnv) (s : State) : Host.Outcome State Fault Refusal :=
  .next (s.furlRestart cool env)

/-- The release word of R144, which clears the restart history. -/
def State.furlRelease (s : State) (v : Word) (cool : CoolFacts) (env : BootEnv) : State :=
  if s.cooled cool && s.health.latched && v == 0x4655524C then
    let s := s.copyFurl 2 cool.peak cool.coolingMs
    let s := s.updHealth fun h => { h with restarts := [], latched := false }
    (s.enterCold 0x04).leaveReset env
  else s

def execMgFurlRelease (v : Word) (cool : CoolFacts) (env : BootEnv) (s : State) : Host.Outcome State Fault Refusal :=
  .next (s.furlRelease v cool env)

end Sys2Proof.Machine
end

