-- ==== Sys2Proof/Machine/RecRows.lean ====
section
/-! DEFINITION. The rows of recording (chapter 14): the commands of group 0x05 and what the drives do. -/

namespace Sys2Proof.Machine

open Sys2Proof

def execRecStart (b : Mbox) (s : State) : Host.Outcome State Fault Refusal := .next (s.take b formRecStart recStartBody).settle

def execRecStop (b : Mbox) (s : State) : Host.Outcome State Fault Refusal := .next (s.take b formRecStop recStopBody).settle

def execRecGrant (b : Mbox) (s : State) : Host.Outcome State Fault Refusal := .next (s.take b formRecGrant recGrantBody).settle

def execRecRevoke (b : Mbox) (s : State) : Host.Outcome State Fault Refusal := .next (s.take b formRecRevoke recRevokeBody).settle

def execRecReport (b : Mbox) (s : State) : Host.Outcome State Fault Refusal := .next (s.take b formRecReport recReportBody)

def execRecAck (b : Mbox) (s : State) : Host.Outcome State Fault Refusal := .next (s.take b formRecAck recAckBody).settle

def execRecAdmin (b : Mbox) (s : State) : Host.Outcome State Fault Refusal := .next (s.take b formRecAdmin recAdminBody)

def execRecIo (b : Mbox) (s : State) : Host.Outcome State Fault Refusal := .next (s.take b formRecIo recIoBody)

def execRecPortReset (b : Mbox) (s : State) : Host.Outcome State Fault Refusal :=
  .next (s.take b formRecPortReset recPortResetBody).settle

def execNvmeCompletion (port : Nat) (f : NvmeFacts) (s : State) : Host.Outcome State Fault Refusal := .next (s.nvmeDone port f).settle

def execNvmeCommandTimeout (port : Nat) (s : State) : Host.Outcome State Fault Refusal := .next (s.nvmeTimeout port).settle

def execControllerResetDone (port : Nat) (ok : Bool) (s : State) : Host.Outcome State Fault Refusal := .next (s.resetDone port ok).settle

/-- 1 s of TBM since the segment's first byte: it closes with cause TIME (R597). -/
def execSegmentTimeClose (stream : Nat) (s : State) : Host.Outcome State Fault Refusal :=
  .next (match (s.stream stream).segment with
    | some g => if g.bytes = 0 || decide (s.now < g.tbmFirst + sec 1) then s else (s.closeSegment stream 1).settle
    | none => s)

end Sys2Proof.Machine
end

