-- ==== Sys2Proof/Machine/TimeRows.lean ====
section
/-! DEFINITION. The rows of time bases and outputs (chapters 14 and 17). -/

namespace Sys2Proof.Machine

open Sys2Proof

def execTimRead (b : Mbox) (s : State) : Host.Outcome State Fault Refusal := .next (s.take b formTimRead timReadBody)

def execTimSet (b : Mbox) (s : State) : Host.Outcome State Fault Refusal := .next (s.take b formTimSet timSetBody).settle

def execTimPtpStatus (b : Mbox) (s : State) : Host.Outcome State Fault Refusal :=
  .next (s.take b formTimPtpStatus timPtpStatusBody)

/-- The read of a base's SEC_LO register; the base is 0 to 4, or 5 for TBM. -/
def execBaseSecLoRead (base : Nat) (s : State) : Host.Outcome State Fault Refusal :=
  .next (if 5 < base || !s.hostReaches then s
    else
      let v := if base = 5 then secLo s.time.tbm else secLo (s.base base).time
      (s.latchBase base).out (.readData (if base = 5 then 0x600010 else 0x610004 + 0x1000 * base) (le 4 v)))

def execTrefInLoss (s : State) : Host.Outcome State Fault Refusal := .next s.trefLoss

def execTrefInRestore (s : State) : Host.Outcome State Fault Refusal := .next s.trefRestore

def execPpsInEdge (rising : Bool) (s : State) : Host.Outcome State Fault Refusal :=
  .next (if s.running then (s.ppsEdge rising).settle else s)

def execGenlockInEdge (s : State) : Host.Outcome State Fault Refusal := .next (if s.running then s.genlockEdge.settle else s)

def execEthFrameRx (port : Nat) (f : EthFrame) (s : State) : Host.Outcome State Fault Refusal := .next (s.ethFrame port f).settle

def execTbvCadenceEdge (s : State) : Host.Outcome State Fault Refusal := .next s.cadenceEdge.settle

def execTbvServoUpdate (s : State) : Host.Outcome State Fault Refusal := .next s.tbvUpdate

def execAnnounceReceiptTimeout (base : Nat) (s : State) : Host.Outcome State Fault Refusal := .next (s.announceTimeout base)

def execPpsInLoss (s : State) : Host.Outcome State Fault Refusal := .next s.ppsLoss

def execGenlockInLoss (s : State) : Host.Outcome State Fault Refusal := .next s.genlockLoss

def execCrystalCorrection (s : State) : Host.Outcome State Fault Refusal := .next (if s.nimlek then s.crystalCorrection else s)

def execXtalStale (s : State) : Host.Outcome State Fault Refusal := .next s.markXtalStale

def execPpsOutPulse (s : State) : Host.Outcome State Fault Refusal := .next s.ppsPulse

def execPtpMessageInterval (base kind : Nat) (s : State) : Host.Outcome State Fault Refusal := .next (s.ptpOut base kind)

def execTbvResidualZero (s : State) : Host.Outcome State Fault Refusal := .next s.residualZero

def execFirstLineDue (stream : Nat) (s : State) : Host.Outcome State Fault Refusal := .next (s.firstLine stream).settle

end Sys2Proof.Machine
end

