-- ==== Sys2Proof/Machine/Dispatch.lean ====
section
/-! DEFINITION. The effect of every command, one arm per row of the opcode table. -/

namespace Sys2Proof.Machine

open Sys2Proof

def exec (i : Instr) (s : State) : Host.Outcome State Fault Refusal :=
  match i with
  | .doorbell hi v => Sys2Proof.Machine.execDoorbell hi v s
  | .slotRelease hi v => Sys2Proof.Machine.execSlotRelease hi v s
  | .slotWrite addr data => Sys2Proof.Machine.execSlotWrite addr data s
  | .rw1cClear addr v hwSets => Sys2Proof.Machine.execRw1cClear addr v hwSets s
  | .loWordRead r => Sys2Proof.Machine.execLoWordRead r s
  | .baseSecLoRead base => Sys2Proof.Machine.execBaseSecLoRead base s
  | .glbHalyardFire v => Sys2Proof.Machine.execGlbHalyardFire v s
  | .registerWrite addr data => Sys2Proof.Machine.execRegisterWrite addr data s
  | .mgmtFrame mosi readLen => Sys2Proof.Machine.execMgmtFrame mosi readLen s
  | .mgDoorbell v => Sys2Proof.Machine.execMgDoorbell v s
  | .mgRelease v => Sys2Proof.Machine.execMgRelease v s
  | .mgFurlRelease v cool env => Sys2Proof.Machine.execMgFurlRelease v cool env s
  | .sessionOpen b => Sys2Proof.Machine.execSessionOpen b s
  | .sessionClose b => Sys2Proof.Machine.execSessionClose b s
  | .sessionHeartbeat b => Sys2Proof.Machine.execSessionHeartbeat b s
  | .devInfo b => Sys2Proof.Machine.execDevInfo b s
  | .devReset b => Sys2Proof.Machine.execDevReset b s
  | .sessionOrphans b => Sys2Proof.Machine.execSessionOrphans b s
  | .eventMask b => Sys2Proof.Machine.execEventMask b s
  | .primaryClaim b => Sys2Proof.Machine.execPrimaryClaim b s
  | .mgmtImageBegin b => Sys2Proof.Machine.execMgmtImageBegin b s
  | .mgmtImageData b => Sys2Proof.Machine.execMgmtImageData b s
  | .mgmtImageEnd b => Sys2Proof.Machine.execMgmtImageEnd b s
  | .cfgStageBegin b => Sys2Proof.Machine.execCfgStageBegin b s
  | .cfgStageBlock b => Sys2Proof.Machine.execCfgStageBlock b s
  | .cfgStageDiscard b => Sys2Proof.Machine.execCfgStageDiscard b s
  | .cfgValidate b => Sys2Proof.Machine.execCfgValidate b s
  | .cfgCommit b => Sys2Proof.Machine.execCfgCommit b s
  | .cfgRollback b => Sys2Proof.Machine.execCfgRollback b s
  | .cfgStatus b => Sys2Proof.Machine.execCfgStatus b s
  | .cfgReadBlock b => Sys2Proof.Machine.execCfgReadBlock b s
  | .nrgCostRead b => Sys2Proof.Machine.execNrgCostRead b s
  | .nrgTrace b => Sys2Proof.Machine.execNrgTrace b s
  | .nrgEstimate b => Sys2Proof.Machine.execNrgEstimate b s
  | .slRetrain b => Sys2Proof.Machine.execSlRetrain b s
  | .slEyeScan b => Sys2Proof.Machine.execSlEyeScan b s
  | .slLoopback b => Sys2Proof.Machine.execSlLoopback b s
  | .slTrainLog b => Sys2Proof.Machine.execSlTrainLog b s
  | .scpRead b f => Sys2Proof.Machine.execScpRead b f s
  | .scpWrite b f => Sys2Proof.Machine.execScpWrite b f s
  | .capStart b => Sys2Proof.Machine.execCapStart b s
  | .capStop b => Sys2Proof.Machine.execCapStop b s
  | .capTrigger b => Sys2Proof.Machine.execCapTrigger b s
  | .capSnap b => Sys2Proof.Machine.execCapSnap b s
  | .capRelease b => Sys2Proof.Machine.execCapRelease b s
  | .capFrameRecord b => Sys2Proof.Machine.execCapFrameRecord b s
  | .capRead b => Sys2Proof.Machine.execCapRead b s
  | .capCounters b => Sys2Proof.Machine.execCapCounters b s
  | .encForceIrap b => Sys2Proof.Machine.execEncForceIrap b s
  | .encPictureRecord b => Sys2Proof.Machine.execEncPictureRecord b s
  | .decSubmit b => Sys2Proof.Machine.execDecSubmit b s
  | .decFlush b => Sys2Proof.Machine.execDecFlush b s
  | .decRestart b => Sys2Proof.Machine.execDecRestart b s
  | .decRelease b => Sys2Proof.Machine.execDecRelease b s
  | .decRecord b => Sys2Proof.Machine.execDecRecord b s
  | .decRead b => Sys2Proof.Machine.execDecRead b s
  | .recStart b => Sys2Proof.Machine.execRecStart b s
  | .recStop b => Sys2Proof.Machine.execRecStop b s
  | .recGrant b => Sys2Proof.Machine.execRecGrant b s
  | .recRevoke b => Sys2Proof.Machine.execRecRevoke b s
  | .recReport b => Sys2Proof.Machine.execRecReport b s
  | .recAck b => Sys2Proof.Machine.execRecAck b s
  | .recAdmin b => Sys2Proof.Machine.execRecAdmin b s
  | .recIo b => Sys2Proof.Machine.execRecIo b s
  | .recPortReset b => Sys2Proof.Machine.execRecPortReset b s
  | .brlOpen b => Sys2Proof.Machine.execBrlOpen b s
  | .brlSubmit b => Sys2Proof.Machine.execBrlSubmit b s
  | .brlClose b => Sys2Proof.Machine.execBrlClose b s
  | .brlReadContext b => Sys2Proof.Machine.execBrlReadContext b s
  | .memLocate b => Sys2Proof.Machine.execMemLocate b s
  | .memTrainLog b => Sys2Proof.Machine.execMemTrainLog b s
  | .memRetired b => Sys2Proof.Machine.execMemRetired b s
  | .flxLinkInfo b => Sys2Proof.Machine.execFlxLinkInfo b s
  | .flxMargin b => Sys2Proof.Machine.execFlxMargin b s
  | .flxRetrain b => Sys2Proof.Machine.execFlxRetrain b s
  | .timRead b => Sys2Proof.Machine.execTimRead b s
  | .timSet b => Sys2Proof.Machine.execTimSet b s
  | .timPtpStatus b => Sys2Proof.Machine.execTimPtpStatus b s
  | .trsMuster b => Sys2Proof.Machine.execTrsMuster b s
  | .trsCert b => Sys2Proof.Machine.execTrsCert b s
  | .trsOwnerEnrol b => Sys2Proof.Machine.execTrsOwnerEnrol b s
  | .trsFwBegin b => Sys2Proof.Machine.execTrsFwBegin b s
  | .trsFwData b => Sys2Proof.Machine.execTrsFwData b s
  | .trsFwEnd b => Sys2Proof.Machine.execTrsFwEnd b s
  | .trsFwActivate b => Sys2Proof.Machine.execTrsFwActivate b s
  | .trsFwConfirm b => Sys2Proof.Machine.execTrsFwConfirm b s
  | .trsSvnCommit b => Sys2Proof.Machine.execTrsSvnCommit b s
  | .trsRecipients b => Sys2Proof.Machine.execTrsRecipients b s
  | .trsDebugChallenge b => Sys2Proof.Machine.execTrsDebugChallenge b s
  | .trsDebugUnlock b => Sys2Proof.Machine.execTrsDebugUnlock b s
  | .hltSensors b => Sys2Proof.Machine.execHltSensors b s
  | .hltFurlLog b => Sys2Proof.Machine.execHltFurlLog b s
  | .hltAgeing b => Sys2Proof.Machine.execHltAgeing b s
  | .obsSelftest b => Sys2Proof.Machine.execObsSelftest b s
  | .obsErrHistory b => Sys2Proof.Machine.execObsErrHistory b s
  | .obsRetired b => Sys2Proof.Machine.execObsRetired b s
  | .obsUnretire b => Sys2Proof.Machine.execObsUnretire b s
  | .obsVector b => Sys2Proof.Machine.execObsVector b s
  | .obsHalyardArm b => Sys2Proof.Machine.execObsHalyardArm b s
  | .obsHalyardFire b => Sys2Proof.Machine.execObsHalyardFire b s
  | .vddAonRise => Sys2Proof.Machine.execVddAonRise s
  | .supplyLoss aon => Sys2Proof.Machine.execSupplyLoss aon s
  | .pwrokRise bootsel mgmtAddr env => Sys2Proof.Machine.execPwrokRise bootsel mgmtAddr env s
  | .pwrokFall => Sys2Proof.Machine.execPwrokFall s
  | .sysResetNFall lowNs => Sys2Proof.Machine.execSysResetNFall lowNs s
  | .sysResetNRise env => Sys2Proof.Machine.execSysResetNRise env s
  | .perstNFall lowNs => Sys2Proof.Machine.execPerstNFall lowNs s
  | .perstNRise => Sys2Proof.Machine.execPerstNRise s
  | .hotReset => Sys2Proof.Machine.execHotReset s
  | .dlDown => Sys2Proof.Machine.execDlDown s
  | .flr => Sys2Proof.Machine.execFlr s
  | .dStateChange d3 => Sys2Proof.Machine.execDStateChange d3 s
  | .msixUnmask vector => Sys2Proof.Machine.execMsixUnmask vector s
  | .refclkStop => Sys2Proof.Machine.execRefclkStop s
  | .crystalLoss env => Sys2Proof.Machine.execCrystalLoss env s
  | .trefInLoss => Sys2Proof.Machine.execTrefInLoss s
  | .trefInRestore => Sys2Proof.Machine.execTrefInRestore s
  | .trigInEdge pin rising holdNs => Sys2Proof.Machine.execTrigInEdge pin rising holdNs s
  | .halyardInEdge holdNs => Sys2Proof.Machine.execHalyardInEdge holdNs s
  | .ppsInEdge rising => Sys2Proof.Machine.execPpsInEdge rising s
  | .genlockInEdge => Sys2Proof.Machine.execGenlockInEdge s
  | .pmb1Alert status => Sys2Proof.Machine.execPmb1Alert status s
  | .furlVote cause source => Sys2Proof.Machine.execFurlVote cause source s
  | .furlEntryEnd => Sys2Proof.Machine.execFurlEntryEnd s
  | .furlRestart cool env => Sys2Proof.Machine.execFurlRestart cool env s
  | .droop region => Sys2Proof.Machine.execDroop region s
  | .ethFrameRx port f => Sys2Proof.Machine.execEthFrameRx port f s
  | .oslFs shroud vc number => Sys2Proof.Machine.execOslFs shroud vc number s
  | .oslFe shroud vc number => Sys2Proof.Machine.execOslFe shroud vc number s
  | .oslLine shroud p => Sys2Proof.Machine.execOslLine shroud p s
  | .oslLs shroud vc line => Sys2Proof.Machine.execOslLs shroud vc line s
  | .oslLe shroud vc line => Sys2Proof.Machine.execOslLe shroud vc line s
  | .oslStat shroud vc value => Sys2Proof.Machine.execOslStat shroud vc value s
  | .oslEmbedded shroud p => Sys2Proof.Machine.execOslEmbedded shroud p s
  | .oslUser shroud p => Sys2Proof.Machine.execOslUser shroud p s
  | .hdrCrc shroud cut => Sys2Proof.Machine.execHdrCrc shroud cut s
  | .orphan shroud => Sys2Proof.Machine.execOrphan shroud s
  | .badHead shroud cut => Sys2Proof.Machine.execBadHead shroud cut s
  | .alignBlock shroud period precode => Sys2Proof.Machine.execAlignBlock shroud period precode s
  | .slLockLost shroud lanes f => Sys2Proof.Machine.execSlLockLost shroud lanes f s
  | .slHdrErrBurst shroud lane count => Sys2Proof.Machine.execSlHdrErrBurst shroud lane count s
  | .shroudTrain shroud t => Sys2Proof.Machine.execShroudTrain shroud t s
  | .shroudTrainTimeout shroud => Sys2Proof.Machine.execShroudTrainTimeout shroud s
  | .relockTimeout shroud => Sys2Proof.Machine.execRelockTimeout shroud s
  | .periodicEyeScan => Sys2Proof.Machine.execPeriodicEyeScan s
  | .loopbackEnd shroud bits errors => Sys2Proof.Machine.execLoopbackEnd shroud bits errors s
  | .scpWaitTimeout sensor => Sys2Proof.Machine.execScpWaitTimeout sensor s
  | .ledgerTick => Sys2Proof.Machine.execLedgerTick s
  | .leakageRefresh => Sys2Proof.Machine.execLeakageRefresh s
  | .telemetryRead t => Sys2Proof.Machine.execTelemetryRead t s
  | .telemetryStale segment address group => Sys2Proof.Machine.execTelemetryStale segment address group s
  | .jobStart master => Sys2Proof.Machine.execJobStart master s
  | .jobComplete tag f => Sys2Proof.Machine.execJobComplete tag f s
  | .jobRetire tag => Sys2Proof.Machine.execJobRetire tag s
  | .headTimeout stream => Sys2Proof.Machine.execHeadTimeout stream s
  | .frameTimeout ctx => Sys2Proof.Machine.execFrameTimeout ctx s
  | .armTimeout => Sys2Proof.Machine.execArmTimeout s
  | .globalBlockApply => Sys2Proof.Machine.execGlobalBlockApply s
  | .probationLimit => Sys2Proof.Machine.execProbationLimit s
  | .cfgPersistDone ok status => Sys2Proof.Machine.execCfgPersistDone ok status s
  | .completionPost session => Sys2Proof.Machine.execCompletionPost session s
  | .msixMessageSend vector => Sys2Proof.Machine.execMsixMessageSend vector s
  | .sessionExpired session => Sys2Proof.Machine.execSessionExpired session s
  | .openSlotTimeout slot => Sys2Proof.Machine.execOpenSlotTimeout slot s
  | .watchdogExpiry env => Sys2Proof.Machine.execWatchdogExpiry env s
  | .warmResetEntry env => Sys2Proof.Machine.execWarmResetEntry env s
  | .xtalFail => Sys2Proof.Machine.execXtalFail s
  | .railTimeout => Sys2Proof.Machine.execRailTimeout s
  | .pllLockFail => Sys2Proof.Machine.execPllLockFail s
  | .railDischarge => Sys2Proof.Machine.execRailDischarge s
  | .refresh pc => Sys2Proof.Machine.execRefresh pc s
  | .timingRetune => Sys2Proof.Machine.execTimingRetune s
  | .stackReading stack temp => Sys2Proof.Machine.execStackReading stack temp s
  | .stackUnread stack => Sys2Proof.Machine.execStackUnread stack s
  | .healthEval f => Sys2Proof.Machine.execHealthEval f s
  | .remoteChannelRead channel f => Sys2Proof.Machine.execRemoteChannelRead channel f s
  | .railMonitorRead channel mv => Sys2Proof.Machine.execRailMonitorRead channel mv s
  | .avsUpdate f => Sys2Proof.Machine.execAvsUpdate f s
  | .ageingUpdate => Sys2Proof.Machine.execAgeingUpdate s
  | .powerMapReadVout readings => Sys2Proof.Machine.execPowerMapReadVout readings s
  | .powerRampTimeout entry => Sys2Proof.Machine.execPowerRampTimeout entry s
  | .healthClockWrite => Sys2Proof.Machine.execHealthClockWrite s
  | .selftestStart test => Sys2Proof.Machine.execSelftestStart test s
  | .selftestEnd test f => Sys2Proof.Machine.execSelftestEnd test f s
  | .selftestRunTimeout test f => Sys2Proof.Machine.execSelftestRunTimeout test f s
  | .halyardPendingFire => Sys2Proof.Machine.execHalyardPendingFire s
  | .timeMatch m => Sys2Proof.Machine.execTimeMatch m s
  | .tbvCadenceEdge => Sys2Proof.Machine.execTbvCadenceEdge s
  | .tbvServoUpdate => Sys2Proof.Machine.execTbvServoUpdate s
  | .announceReceiptTimeout base => Sys2Proof.Machine.execAnnounceReceiptTimeout base s
  | .ppsInLoss => Sys2Proof.Machine.execPpsInLoss s
  | .genlockInLoss => Sys2Proof.Machine.execGenlockInLoss s
  | .crystalCorrection => Sys2Proof.Machine.execCrystalCorrection s
  | .xtalStale => Sys2Proof.Machine.execXtalStale s
  | .ppsOutPulse => Sys2Proof.Machine.execPpsOutPulse s
  | .segmentTimeClose stream => Sys2Proof.Machine.execSegmentTimeClose stream s
  | .manifestSigned => Sys2Proof.Machine.execManifestSigned s
  | .nvmeCompletion port f => Sys2Proof.Machine.execNvmeCompletion port f s
  | .nvmeCommandTimeout port => Sys2Proof.Machine.execNvmeCommandTimeout port s
  | .controllerResetDone port ok => Sys2Proof.Machine.execControllerResetDone port ok s
  | .linkActive port f => Sys2Proof.Machine.execLinkActive port f s
  | .portRetryDetect port => Sys2Proof.Machine.execPortRetryDetect port s
  | .l1Entry port => Sys2Proof.Machine.execL1Entry port s
  | .ethSignalLoss port => Sys2Proof.Machine.execEthSignalLoss port s
  | .recoveryTimeout port => Sys2Proof.Machine.execRecoveryTimeout port s
  | .flexMarginScan => Sys2Proof.Machine.execFlexMarginScan s
  | .lut3dLoaded unit => Sys2Proof.Machine.execLut3dLoaded unit s
  | .decodeBudgetExpiry tag f => Sys2Proof.Machine.execDecodeBudgetExpiry tag f s
  | .hostDmaDone b f => Sys2Proof.Machine.execHostDmaDone b f s
  | .hdrField shroud => Sys2Proof.Machine.execHdrField shroud s
  | .badControl shroud => Sys2Proof.Machine.execBadControl shroud s
  | .eyeScanDone shroud lane f => Sys2Proof.Machine.execEyeScanDone shroud lane f s
  | .flexMarginDone yard slot f => Sys2Proof.Machine.execFlexMarginDone yard slot f s
  | .ethLinkUp port micros => Sys2Proof.Machine.execEthLinkUp port micros s
  | .endpointLinkActive f => Sys2Proof.Machine.execEndpointLinkActive f s
  | .rootPortLinkDown port => Sys2Proof.Machine.execRootPortLinkDown port s
  | .pcieRecoveryEntry port => Sys2Proof.Machine.execPcieRecoveryEntry port s
  | .flxLinkErrors yard slot correctable uncorrectable => Sys2Proof.Machine.execFlxLinkErrors yard slot correctable uncorrectable s
  | .sramParityError master bank => Sys2Proof.Machine.execSramParityError master bank s
  | .engineLogicFault master => Sys2Proof.Machine.execEngineLogicFault master s
  | .lockstepMismatch pair => Sys2Proof.Machine.execLockstepMismatch pair s
  | .ptpMessageInterval base kind => Sys2Proof.Machine.execPtpMessageInterval base kind s
  | .tbvResidualZero => Sys2Proof.Machine.execTbvResidualZero s
  | .perstOutNRelease port => Sys2Proof.Machine.execPerstOutNRelease port s
  | .crystalRunsAgain => Sys2Proof.Machine.execCrystalRunsAgain s
  | .railsDischarged => Sys2Proof.Machine.execRailsDischarged s
  | .firstLineDue stream => Sys2Proof.Machine.execFirstLineDue stream s

end Sys2Proof.Machine
end

