-- ==== Sys2Proof/Safety.lean ====
section
/-! DEFINITION. The words in which statements about the block are made: the shape of a state, the invariant that every step
keeps, a command that is accepted, and runs without a fault. -/

namespace Sys2Proof

/-- A board and silicon with which the power-up sequence runs through (R97–R100, R106, R623). -/
def BootEnv.good (e : BootEnv) : Bool :=
  e.crystal && (List.range 9).all (fun i => e.pmbusAck.getD i false) && e.railsRise && e.pllsLock && e.comparators == 0

end Sys2Proof

namespace Sys2Proof.Machine

open Sys2Proof

/-- How many entries each table of the block has (R111, R128, R141, R233, R280, R293, R455, R480, R487, R497, R526, R548). -/
def State.shape (s : State) : List Nat :=
  [s.ncp.slots.length, s.ncp.sessions.length, s.ncp.mg.length, s.vecs.length, s.shrouds.length, s.sensors.length,
   s.ctxs.length, s.streams.length, s.drives.length, s.mem.hbm.length, s.mem.pchans.length, s.time.bases.length]

/-- The shape that the spec gives: 64 slots, 16 sessions, 2 management mailboxes, 256 vectors, 56 shrouds, 16 sensors, 64
contexts, 32 streams, 28 drive ports, 4 stacks, 128 pseudo-channels, 5 time bases. -/
def theShape : List Nat := [64, 16, 2, 256, 56, 16, 64, 32, 28, 4, 128, 5]

/-- Both memories are in the canonical form. -/
def State.memoriesOk (s : State) : Bool := s.ncp.mem.wf && s.mem.bytes.wf

/-- The invariant of every step: each table has its entries, and the memories are canonical. -/
def State.Inv (s : State) : Prop := s.shape = theShape ∧ s.memoriesOk = true

/-- The state as the firmware has it while it executes the command of a mailbox: BUSY, taken, its number expected next. -/
def State.taken (s : State) (b : Mbox) : State := (s.markTaken (s.cmdIn b)).advanceSeq (s.cmdIn b)

/-- The command in a mailbox will be taken, and passes every check that all commands share (R114, R122, R128, R129, R142). -/
structure Accepted (s : State) (b : Mbox) (f : Form) : Prop where
  rung    : s.boxSt b = .rung
  opcode  : (s.cmdIn b).opcode = f.op
  served  : s.served b = true
  first   : s.firstWaits (s.cmdIn b) = false
  next    : s.isNext b = true
  seq     : s.expectedSeq (s.cmdIn b) = none ∨ s.expectedSeq (s.cmdIn b) = some (s.cmdIn b).seq
  sender  : (s.taken b).mayCome (s.cmdIn b) f = true
  least   : f.lo ≤ (s.cmdIn b).len
  most    : (s.cmdIn b).len ≤ f.hi
  fits    : (s.cmdIn b).len ≤ b.limit
  entries : f.lens.fault (s.cmdIn b).payload (s.cmdIn b).len = none
  header  : (s.cmdIn b).headerFault (s.boxBytes b 0 32) f = none
  live    : f.target = true → (s.cmdIn b).target = 0 ∨ (s.cmdIn b).target = (s.taken b).liveNumber

/-- The boot has run through the power-up sequence and waits for a first stage over MGMT_SPI (R97, R99, R104, R105). -/
structure AwaitsFirstStage (t : State) : Prop where
  condition : t.power.condition = .running
  code      : t.power.bootCode = 0x40
  stage     : t.power.bootStage = .waitFirstStage
  enables   : t.power.pwrEn = List.replicate 9 true ++ List.replicate 7 false
  volts     : t.power.vout = [1800, 1100, 400, 850, 800, 750, 850, 900, 1200]
  crystal   : t.power.xtalQualified = true
  plls      : t.power.pllLocked = true

/-- What every reset of the whole device loses: sessions, slots and rings, generations, captures, jobs, streams, capture
memory, links, time bases, keys, counters and snapshots (R12, R89). -/
structure Lost (t : State) : Prop where
  ncp     : t.ncp = State.reset.ncp
  cfg     : t.cfg = State.reset.cfg
  ledger  : t.ledger = State.reset.ledger
  ctxs    : t.ctxs = State.reset.ctxs
  jobs    : t.jobs = []
  streams : t.streams = State.reset.streams
  mem     : t.mem = State.reset.mem
  ep      : t.ep = State.reset.ep
  yards   : t.yards = State.reset.yards
  bases   : t.time.bases = State.reset.time.bases
  trust   : t.trust = State.reset.trust
  obs     : t.obs = State.reset.obs

/-- What a warm reset with a cause keeps and records (R87, R89, R90). -/
structure WarmFrom (cause : Byte) (s t : State) : Prop where
  cause    : t.power.resetCause = cause
  count    : t.power.warmCount = satInc 16 s.power.warmCount
  links    : t.power.linkResets = s.power.linkResets
  straps   : t.power.bootsel = s.power.bootsel ∧ t.power.mgmtAddr = s.power.mgmtAddr
  tbm      : t.time.tbm = s.time.tbm
  fuses    : t.nv.fuses = s.nv.fuses
  gens     : t.nv.persist = s.nv.persist ∧ t.nv.newest = s.nv.newest ∧ t.nv.highestGen = s.nv.highestGen
  errors   : t.nv.errLog = s.nv.errLog ∧ t.nv.errSeq = s.nv.errSeq
  retired  : t.nv.retired = s.nv.retired ∧ t.nv.retiredPages = s.nv.retiredPages
  furls    : t.health.restarts = s.health.restarts ∧ t.nv.furlLog = s.nv.furlLog
  ageing   : t.health.ageing = s.health.ageing

/-- What a link reset does to the mailboxes and keeps of the device (R89, R95, R136). -/
structure LinkResetFrom (s t : State) : Prop where
  count    : t.power.linkResets = s.power.linkResets + 1
  cause    : t.power.resetCause = s.power.resetCause
  sessions : t.ncp.sessions = State.reset.ncp.sessions
  slots    : ∀ n, (t.slot n).owner = none ∧ ((t.slot n).st = .idle ∨ ((t.slot n).st = .busy ∧ (s.slot n).st = .busy))
  cfg      : t.cfg = s.cfg
  ctxs     : t.ctxs = s.ctxs
  jobs     : t.jobs = s.jobs
  streams  : t.streams = s.streams
  mem      : t.mem = s.mem
  time     : t.time = s.time
  nv       : t.nv = s.nv
  health   : t.health = s.health

/-- A run that never stops: every command waiting completes. -/
def Safe (s : State) : Prop := ∀ n, ∃ t, Sys2Proof.core.run n s = .next t

/-! ## Frames -/

/-- Commands that read, or act on mailboxes, sessions, rings, interrupts and snapshots alone. -/
def mailOnly : Instr → Bool
  | .doorbell .. | .slotRelease .. | .slotWrite .. | .glbHalyardFire .. | .mgmtFrame .. | .mgDoorbell .. | .mgRelease ..
  | .sessionOpen .. | .sessionClose .. | .sessionHeartbeat .. | .devInfo .. | .sessionOrphans .. | .eventMask ..
  | .primaryClaim .. | .mgmtImageBegin .. | .mgmtImageData .. | .cfgValidate .. | .cfgStatus .. | .cfgReadBlock ..
  | .nrgCostRead .. | .nrgTrace .. | .nrgEstimate .. | .slTrainLog .. | .capFrameRecord .. | .capCounters ..
  | .encPictureRecord .. | .decRecord .. | .recReport .. | .brlReadContext .. | .memLocate .. | .memTrainLog ..
  | .memRetired .. | .flxLinkInfo .. | .timRead .. | .timPtpStatus .. | .trsCert .. | .hltSensors .. | .hltFurlLog ..
  | .hltAgeing .. | .obsErrHistory .. | .obsRetired .. | .obsVector .. | .obsHalyardArm .. | .obsHalyardFire ..
  | .msixUnmask .. | .halyardInEdge .. | .completionPost .. | .msixMessageSend .. | .sessionExpired ..
  | .openSlotTimeout .. | .halyardPendingFire | .timeMatch .. | .ppsOutPulse => true
  | _ => false

/-- Commands after which capture memory, its stacks and its pages may stand otherwise. -/
def actsOnCapture : Instr → Bool
  | .mgFurlRelease .. | .devReset .. | .mgmtImageEnd .. | .cfgCommit .. | .cfgRollback .. | .slRetrain ..
  | .capRelease .. | .recStart .. | .recStop .. | .recGrant .. | .recRevoke .. | .recAck .. | .recPortReset ..
  | .brlSubmit .. | .timSet .. | .trsFwActivate .. | .obsSelftest .. | .supplyLoss .. | .pwrokRise .. | .pwrokFall
  | .sysResetNFall .. | .sysResetNRise .. | .crystalLoss .. | .trigInEdge .. | .ppsInEdge .. | .genlockInEdge
  | .furlVote .. | .furlRestart .. | .ethFrameRx .. | .oslFs .. | .oslFe .. | .oslLine .. | .oslEmbedded .. | .oslUser ..
  | .hdrCrc .. | .badHead .. | .alignBlock .. | .slLockLost .. | .ledgerTick | .jobComplete .. | .jobRetire ..
  | .headTimeout .. | .frameTimeout .. | .armTimeout | .globalBlockApply | .watchdogExpiry .. | .warmResetEntry ..
  | .refresh .. | .timingRetune | .stackReading .. | .healthEval .. | .selftestStart .. | .selftestEnd ..
  | .selftestRunTimeout .. | .tbvCadenceEdge | .segmentTimeClose .. | .manifestSigned | .nvmeCompletion ..
  | .nvmeCommandTimeout .. | .controllerResetDone .. | .linkActive .. | .recoveryTimeout .. | .decodeBudgetExpiry ..
  | .hostDmaDone .. | .rootPortLinkDown .. | .crystalRunsAgain | .railsDischarged | .firstLineDue .. => true
  | _ => false

/-- Commands after which supplies, straps, boot and reset registers may stand otherwise. -/
def actsOnPower : Instr → Bool
  | .mgFurlRelease .. | .devReset .. | .mgmtImageEnd .. | .trsFwActivate .. | .vddAonRise | .supplyLoss ..
  | .pwrokRise .. | .pwrokFall | .sysResetNFall .. | .sysResetNRise .. | .perstNFall .. | .perstNRise | .hotReset
  | .dlDown | .flr | .refclkStop | .crystalLoss .. | .pmb1Alert .. | .furlVote .. | .furlEntryEnd | .furlRestart ..
  | .trsDebugUnlock .. | .ledgerTick | .tbvCadenceEdge
  | .armTimeout | .globalBlockApply | .watchdogExpiry .. | .warmResetEntry .. | .xtalFail | .railTimeout | .pllLockFail
  | .railDischarge | .healthEval .. | .avsUpdate .. | .powerMapReadVout .. | .powerRampTimeout .. | .selftestEnd ..
  | .selftestRunTimeout .. | .crystalRunsAgain | .railsDischarged => true
  | _ => false

/-- Commands after which TBM or the time bases may stand otherwise. -/
def actsOnTime : Instr → Bool
  | .loWordRead .. | .baseSecLoRead .. | .mgFurlRelease .. | .mgmtImageEnd .. | .timSet .. | .supplyLoss ..
  | .pwrokRise .. | .pwrokFall | .sysResetNFall .. | .sysResetNRise .. | .crystalLoss .. | .trefInLoss | .trefInRestore
  | .ppsInEdge .. | .genlockInEdge | .furlVote .. | .furlRestart .. | .ethFrameRx .. | .armTimeout | .globalBlockApply
  | .watchdogExpiry .. | .warmResetEntry .. | .healthEval .. | .tbvCadenceEdge | .tbvServoUpdate
  | .announceReceiptTimeout .. | .ppsInLoss | .genlockInLoss | .crystalCorrection | .xtalStale | .ptpMessageInterval ..
  | .tbvResidualZero | .crystalRunsAgain | .railsDischarged => true
  | _ => false

/-- Commands after which the readings of health may stand otherwise. -/
def actsOnHealth : Instr → Bool
  | .mgFurlRelease .. | .mgmtImageEnd .. | .supplyLoss .. | .pwrokRise .. | .pwrokFall | .sysResetNFall ..
  | .sysResetNRise .. | .crystalLoss .. | .pmb1Alert .. | .furlVote .. | .furlRestart .. | .droop .. | .armTimeout
  | .globalBlockApply | .watchdogExpiry .. | .warmResetEntry .. | .stackReading .. | .stackUnread .. | .healthEval ..
  | .remoteChannelRead .. | .railMonitorRead .. | .avsUpdate .. | .ageingUpdate | .powerMapReadVout ..
  | .powerRampTimeout .. | .crystalRunsAgain | .railsDischarged => true
  | _ => false

end Sys2Proof.Machine
end

