-- ==== Sys2Proof/Certificates/Slice0/Obligations.lean ====
section
/-! DEFINITION. The statements about the block that are to be proved. `Accepted s b f` says that the command in mailbox b
passes the checks that all commands share; `s.taken b` is the state as the firmware has it while it executes the command;
`.sweep b` completes the undefined opcodes that waited behind it (assumption 5); `.settle` is the firmware's own work after
an event (R52). -/

open Sys2Proof Sys2Proof.Machine

/-! ## The block and its queue -/

/-- A step takes the command at the front of the queue and does to the rest of the state what exec does. -/
def Obligations.StepRunsFrontCommand : Prop :=
  ∀ (c : Instr) (rest : List Instr) (s : State), step { s with pending := c :: rest } = exec c { s with pending := rest }

/-- On an empty queue a step is 4 ns of the time domain: the model's choice (assumption 1). -/
def Obligations.EmptyQueueStepIsOneCycle : Prop :=
  ∀ s : State, s.pending = [] →
    ∃ t, step s = .next t ∧ t.pending = [] ∧
      (s.power.vddAon = false → t = s) ∧
      (s.power.vddAon = true → t.power.aonNs = s.power.aonNs + 4) ∧
      (s.power.vddAon = true → s.power.pllLocked = true → t.time.tbm = s.time.tbm + (increment s.time.k).toNat)

/-- No command and no state makes the block stop: each command of the table completes everywhere, so no run stops. -/
def Obligations.NoCommandStops : Prop :=
  (∀ (c : Instr) (s : State), ∃ t, exec c s = .next t) ∧ ∀ s, Safe s

/-- A command's effect leaves the commands that wait behind it alone. -/
def Obligations.CommandsLeaveTheQueue : Prop :=
  ∀ (c : Instr) (s t : State), exec c s = .next t → t.pending = s.pending

/-- A command that reads, or acts on mailboxes, sessions, rings, interrupts and snapshots alone leaves the rest of the
device as it was: every register, memory, job, stream, link, time base and non-volatile value. -/
def Obligations.MailCommandsLeaveTheDevice : Prop :=
  ∀ (c : Instr) (s t : State), mailOnly c = true → exec c s = .next t →
    t = { s with ncp := t.ncp, vecs := t.vecs, obs := t.obs, free := t.free, outs := t.outs }

/-- Every byte of capture memory, the board and reset registers, the time bases and the readings of health are unchanged
by each command that does not name them; and the firmware's own work after an event changes none of the last three, nor
shrouds, sensors, the endpoint and the engines. -/
def Obligations.CommandsKeepWhatTheyDoNotName : Prop :=
  (∀ (c : Instr) (s t : State), exec c s = .next t →
    (actsOnCapture c = false → t.mem = s.mem) ∧ (actsOnPower c = false → t.power = s.power) ∧
      (actsOnTime c = false → t.time = s.time) ∧ (actsOnHealth c = false → t.health = s.health)) ∧
  (∀ s : State, s.settle.power = s.power ∧ s.settle.time = s.time ∧ s.settle.health = s.health ∧
    s.settle.shrouds = s.shrouds ∧ s.settle.sensors = s.sensors ∧ s.settle.ep = s.ep ∧ s.settle.engines = s.engines ∧
    s.settle.latches = s.latches ∧ s.settle.pending = s.pending)

/-- The tables and the memories are in form right after reset. -/
def Obligations.ResetHasInvariant : Prop := State.reset.Inv

/-- Every step keeps the tables' lengths and the canonical form of both memories. -/
def Obligations.StepKeepsInvariant : Prop :=
  ∀ s t : State, s.Inv → step s = .next t → t.Inv

/-- What reset leaves, for the registers whose reset values the spec's tables give, and the idle mailboxes and rings. -/
def Obligations.ResetRegistersReadZero : Prop :=
  let s := State.reset
  s.pending = [] ∧ s.regGlb 0x08 = 0 ∧ s.regGlb 0x10 = 0 ∧ s.regGlb 0x14 = 0 ∧ s.regGlb 0x20 = 0 ∧ s.regGlb 0x24 = 0 ∧
    s.regGlb 0x34 = 0 ∧
    (∀ n, n < 64 → (s.slot n).st = .idle ∧ (s.slot n).owner = none) ∧
    (∀ n, n < 16 → (s.session n).isOpen = false ∧ (s.session n).prod = 0 ∧ (s.session n).cons = 0) ∧
    (∀ n, n < 56 → s.regSln (0x10000 + 0x1000 * n) = 0) ∧
    (∀ c, c < 64 → (s.ctx c).st = .stopped ∧ s.regCtx (0x10000 + 0x1000 * c) = 0) ∧
    s.regNrg 0x08 = 0 ∧ s.regNrg 0x20 = 4096 ∧ s.regNrg 0x200 = 4096 ∧
    (∀ n, n < 32 → s.regRecStream n 0 = 0) ∧ (∀ p, p < 28 → s.regRecPort p 0 = 0) ∧
    (∀ k, k < 4 → (s.hbm k).st = 0) ∧ s.time.tbm = 0 ∧ (∀ b, b < 5 → s.baseState b = .off)

/-! ## Supplies, resets and the boot (chapters 02 and 03) -/

/-- VDD_AON, the supplies and the fall of PWROK. -/
def Obligations.SuppliesAndPwrokFall : Prop :=
  (∀ s : State, s.power.vddAon = false →
    exec .vddAonRise s = .next { s with power :=
      { s.power with vddAon := true, condition := if s.power.vddio then .reset else .unpowered, coldCause := 0x01, aonNs := 0 } }) ∧
  (∀ (aon : Bool) (s : State), (if aon then s.power.vddAon else s.power.vddio) = true → s.power.condition ≠ .furled →
    ∃ t, exec (.supplyLoss aon) s = .next t ∧ t.power.condition = .unpowered ∧ t.power.pwrok = false ∧ Lost t ∧
      t.time.tbm = 0 ∧ t.nv = { s.nv with clockBase := s.nv.healthClock } ∧
      t.health.restarts = (if aon then [] else s.health.restarts)) ∧
  (∀ s : State, s.power.pwrok = true → s.power.condition ≠ .furled →
    ∃ t, exec .pwrokFall s = .next t ∧ t.power.condition = .reset ∧ t.power.pwrok = false ∧ Lost t ∧ t.time.tbm = 0 ∧
      t.nv = { s.nv with clockBase := s.nv.healthClock } ∧ t.health.restarts = s.health.restarts ∧
      t.power.coldCause = s.power.coldCause)

/-- A cold reset at the rise of PWROK samples the straps, records its cause, counts the boot, and with BOOTSEL 0b100 on a
good board runs the boot ROM to the wait for a first stage. -/
def Obligations.ColdBootSamplesStraps : Prop :=
  ∀ (a : BitVec 2) (env : BootEnv) (s : State), s.power.vddAon = true → s.power.pwrok = false →
    s.power.condition ≠ .furled → s.power.sysResetN = true → s.power.crystalRuns = true → env.good = true →
    ∃ t, exec (.pwrokRise 4 a env) s = .next t ∧ AwaitsFirstStage t ∧ t.power.bootsel = 4 ∧ t.power.mgmtAddr = a ∧
      t.power.resetCause = s.power.coldCause ∧ t.power.coldCause = 0x02 ∧ t.power.warmCount = 0 ∧ t.power.linkResets = 0 ∧
      t.nv.bootCount = s.nv.bootCount + 1 ∧ t.nv.highestGen = s.nv.highestGen ∧ t.cfg = State.reset.cfg ∧ t.time.tbm = 0

/-- SYS_RESET_N rising, rails that have discharged and a crystal that runs again each let the boot go on; the four stops
of the power-up sequence set their code, drive every PWR_EN pin low and set STOPPED in GLB_GLOBAL_CAUSE. -/
def Obligations.BootGoesOnOrStops : Prop :=
  ((∀ (env : BootEnv) (s : State), s.power.condition = .reset → s.power.pwrok = true → s.power.crystalRuns = true →
     s.power.bootsel = 4 → env.good = true → env.discharged = true →
     ∃ t, exec (.sysResetNRise env) s = .next t ∧ AwaitsFirstStage t ∧ t.power.sysResetN = true ∧
       t.nv.bootCount = s.nv.bootCount + 1 ∧ t.power.resetCause = s.power.resetCause) ∧
   (∀ s : State, s.power.bootStage = .waitDischarge → s.power.condition = .running → s.power.crystalRuns = true →
     s.power.bootsel = 4 → s.power.env.good = true →
     ∃ t, exec .railsDischarged s = .next t ∧ AwaitsFirstStage t ∧ t.ncp = s.ncp ∧ t.nv = s.nv ∧ t.cfg = s.cfg) ∧
   (∀ s : State, s.power.bootStage = .waitXtal → s.power.condition = .running → s.power.bootsel = 4 →
     ({ s.power.env with crystal := true } : BootEnv).good = true →
     ∃ t, exec .crystalRunsAgain s = .next t ∧ AwaitsFirstStage t ∧ t.power.crystalRuns = true ∧ t.ncp = s.ncp ∧ t.nv = s.nv)) ∧
  (∀ (s : State) (c : Instr) (stage : BootStage) (code : Byte),
     (c, stage, code) ∈ [(Instr.xtalFail, BootStage.waitXtal, (0xE2 : Byte)), (.railTimeout, .waitRails, 0xE4),
       (.pllLockFail, .waitPll, 0xE5), (.railDischarge, .waitDischarge, 0xEA)] →
     s.power.bootStage = stage →
     ∃ t, exec c s = .next t ∧ t.power.bootCode = code ∧ t.power.bootStage = .stopped ∧
       t.power.pwrEn = List.replicate 16 false ∧ t.ncp.globalCause = s.ncp.globalCause ||| 2#32 ∧
       t.power.resetCause = s.power.resetCause ∧ t.nv = s.nv ∧ t.cfg = s.cfg ∧ t.ncp.sessions = s.ncp.sessions)

/-- The four ways into a warm reset: SYS_RESET_N, which holds the device in RESET, and the watchdog, a lost crystal and a
command whose OK has been posted, after which the boot ROM waits for the rails to discharge. SYS_RESET_N and PERST_N ignore low pulses shorter than
100 ns. -/
def Obligations.WarmResetsKeepAndLose : Prop :=
  ((∀ (low : Nat) (s : State), 10000 ≤ low → s.power.condition = .running →
     ∃ t, exec (.sysResetNFall low) s = .next t ∧ WarmFrom 0x10 s t ∧ Lost t ∧ t.power.condition = .reset ∧
       t.power.sysResetN = false ∧ t.nv = s.nv ∧ t.power.pwrEn = List.replicate 16 false) ∧
   (∀ (env : BootEnv) (s : State), s.power.condition = .running → s.power.pwrok = true → s.power.sysResetN = true →
     env.comparators = 0 → env.discharged = false → s.power.bootsel.toNat ≤ 4 →
     (s.power.watchdogOn = true →
       ∃ t, exec (.watchdogExpiry env) s = .next t ∧ WarmFrom 0x13 s t ∧ Lost t ∧ t.power.bootCode = 0x10 ∧
         t.power.bootStage = .waitDischarge ∧ t.nv.bootCount = s.nv.bootCount + 1) ∧
     (s.power.xtalQualified = true →
       ∃ t, exec (.crystalLoss env) s = .next t ∧ WarmFrom 0x14 s t ∧ Lost t ∧ t.power.crystalRuns = false ∧
         t.power.bootCode = 0x10 ∧ t.nv.bootCount = s.nv.bootCount + 1) ∧
     (∀ (cause : Byte) (asked : Nanos), s.power.warmPending = some (cause, asked) → s.resetAnswered = true →
       ∃ t, exec (.warmResetEntry env) s = .next t ∧ WarmFrom cause s t ∧ Lost t ∧ t.power.warmPending = none ∧
         t.power.bootCode = 0x10 ∧ t.nv.bootCount = s.nv.bootCount + 1))) ∧
  (∀ (low : Nat) (s : State), low < 100 → exec (.sysResetNFall low) s = .next s ∧ exec (.perstNFall low) s = .next s)

/-- The link resets: PERST_N, a hot reset, a link down, REFCLK lost on a trained link, and FLR. PERST_N rises: link
training may start, and LINK_RESET_SEEN is no longer owed once the firmware runs. -/
def Obligations.LinkResetsKeepTheDevice : Prop :=
  (∀ s : State, s.power.condition = .running →
     (∀ low, 100 ≤ low → s.power.perstN = true →
       ∃ t, exec (.perstNFall low) s = .next t ∧ LinkResetFrom s t ∧ t.power.perstN = false ∧ t.ep.st = fxReset) ∧
     (s.epUp = true →
       (∀ c : Instr, c ∈ [Instr.hotReset, .dlDown, .refclkStop] →
         ∃ t, exec c s = .next t ∧ LinkResetFrom s t ∧ t.ep.st = fxDetect) ∧
       (∃ t, exec .flr s = .next t ∧ LinkResetFrom s t ∧ t.ep.st = s.ep.st) ∧
       (∀ d3, exec (.dStateChange d3) s = .next { s with ep := { s.ep with d3 := d3 } }))) ∧
  (∀ s : State, s.power.perstN = false →
     ∃ t, exec .perstNRise s = .next t ∧ t.power.perstN = true ∧
       (s.power.condition = .running → s.power.pllLocked = true → t.ep.st = fxDetect) ∧
       (s.nimlek = true → t.power.linkOwed = false) ∧ t.ncp.sessions = s.ncp.sessions ∧ t.cfg = s.cfg ∧ t.ctxs = s.ctxs)

/-! ## Furl (chapters 02, 03 and 19) -/

/-- A furl vote that its source passes: the device is FURLED, THERMTRIP_N is low, and a fourth furl within the window is
latched. The automatic restart and the management release each write a furl record and leave FURLED by a cold reset of
their own cause. -/
def Obligations.FurlBeginsAndEnds : Prop :=
  (∀ (cause source : Nat) (s : State), s.power.condition = .running ∨ s.power.condition = .reset →
     s.furlTest cause source = true →
     ∃ t, exec (.furlVote cause source) s = .next t ∧ t.power.condition = .furled ∧ t.power.thermtripLow = true ∧
       t.health.furlCause = cause ∧ t.health.furlSource = source ∧ t.health.furlTotal = satInc 8 s.health.furlTotal ∧
       t.health.furlTbm = s.now ∧ t.health.latched = decide (3 ≤ s.recentRestarts) ∧
       t.health.restarts = s.health.restarts ∧ Lost t ∧ t.power.pwrEn = List.replicate 16 false) ∧
  ((∀ s : State, exec .furlEntryEnd s = .next { s with power := { s.power with thermtripLow := false } }) ∧
   (∀ (cool : CoolFacts) (env : BootEnv) (s : State), s.power.condition = .furled → s.power.thermtripLow = false →
     cool.dwellMet = true →
     (s.health.latched = false →
       ∃ t : State, exec (.furlRestart cool env) s = .next (t.leaveReset env) ∧ t.power.condition = .reset ∧
         t.power.resetCause = 0x03 ∧ t.health.restarts = s.power.aonNs :: s.health.restarts ∧
         t.nv.furlLog.getLast? = some (s.furlRecord 0 cool.peak cool.coolingMs)) ∧
     (s.health.latched = true →
       ∃ t : State, exec (.mgFurlRelease 0x4655524C cool env) s = .next (t.leaveReset env) ∧ t.power.condition = .reset ∧
         t.power.resetCause = 0x04 ∧ t.health.restarts = [] ∧ t.health.latched = false ∧
         t.nv.furlLog.getLast? = some (s.furlRecord 2 cool.peak cool.coolingMs))))

/-! ## Registers, doorbells and mailboxes (chapter 04) -/

/-- Host accesses. A read of a pair's low word latches its high word, a read of a base's SEC_LO its time; a read of part of
a word returns the bytes addressed. Writes of 1s
clear the RW1C bits of GLB_INT_SUMMARY and MBX_REJECT_LO but for those that hardware sets in the same cycle. A 32-bit
write acts on its register alone, and a shorter one does nothing. A slot stores what is written to it while it is IDLE;
otherwise the write is counted as ignored. -/
def Obligations.HostAccessesActOnRegisters : Prop :=
  (∀ s : State, s.hostReaches = true →
     (∀ a, isPairLow a = true →
       ∃ t, exec (.loWordRead ⟨a, 4⟩) s = .next t ∧ t = { s with latches := t.latches, outs := t.outs } ∧
         t.outs = .readData a (le 4 (s.readWord a)) :: s.outs ∧ t.readWord (a + 4) = s.regRead (a + 4) % 2 ^ 32) ∧
     (∀ a off len, a % 4 = 0 → off + len ≤ 4 → 0 < len → isPairLow a = false → secLoBase a = none →
       exec (.loWordRead ⟨a + off, len⟩) s = .next (s.out (.readData (a + off) ((le 4 (s.readWord a)).drop off |>.take len)))) ∧
     (∀ b, b < 5 → exec (.baseSecLoRead b) s =
       .next ((s.updBase b fun x => { x with latch := x.time }).out
         (.readData (0x610004 + 0x1000 * b) (le 4 (secLo (s.base b).time))))) ∧
     exec (.baseSecLoRead 5) s = .next ((s.updTime fun x => { x with tbmLatch := x.tbm }).out
       (.readData 0x600010 (le 4 (secLo s.time.tbm))))) ∧
  (∀ (v hw : Word) (s : State), s.hostReaches = true →
     exec (.rw1cClear 0x20 v hw) s = .next (s.updNcp fun n =>
       { n with intSummary := (n.intSummary &&& ~~~(v &&& 0x3FFFFF#32)) ||| (hw &&& 0x3FFFFF#32) }) ∧
     ∃ t, exec (.rw1cClear 0x10028 v hw) s = .next t ∧
       t = { s with ncp := { s.ncp with rejectBits := t.ncp.rejectBits } } ∧
       ∀ i, i < 64 → t.ncp.rejectBits.getLsbD i =
         if i < 32 then (s.ncp.rejectBits.getLsbD i && !v.getLsbD i) || hw.getLsbD i else s.ncp.rejectBits.getLsbD i) ∧
  (∀ s : State, s.hostReaches = true →
     (∀ (a : Nat) (d : List Byte), a % 4 = 0 → a + 4 ≤ 0x100000 → d.length = 4 →
       exec (.registerWrite a d) s = .next (s.writeWord a (fld d 0 4))) ∧
     (∀ k v, k < 16 → v < 2 ^ 32 → exec (.registerWrite (0x10104 + 8 * k) (le 4 v)) s =
       .next (s.updSession k fun x => { x with cons := v % 1024 })) ∧
     (∀ (a : Nat) (d : List Byte), a + d.length ≤ 0x100000 → d.length < 4 → exec (.registerWrite a d) s = .next s)) ∧
  (∀ (n off : Nat) (d : List Byte) (s : State), s.hostReaches = true → n < 64 → 0 < d.length → off + d.length ≤ 0x4000 →
     exec (.slotWrite (0x100000 + 0x4000 * n + off) d) s = .next (
       if (s.slot n).st = .idle then s.updNcp fun x => { x with mem := x.mem.writeN (0x100000 + 0x4000 * n + off) d }
       else s.updNcp fun x => { x with writesIgnored := satInc 16 x.writesIgnored }))

/-- The doorbell of one slot: a slot without a reason against it is RUNG; another sets its reject bit with slot and
reason. Then the reasons. -/
def Obligations.DoorbellsRingOrReject : Prop :=
  (∀ (n : Nat) (s : State), s.hostReaches = true → n < 64 →
     let c := Instr.doorbell (decide (32 ≤ n)) (BitVec.ofNat 32 (2 ^ (n % 32)))
     (s.ringReason n = 0 →
       exec c s = .next (((s.updSlot n fun x =>
         { x with st := .rung, heldSince := s.now, user := x.owner, rang := s.ncp.rings, former := none }).updNcp fun x =>
           { x with rings := x.rings + 1 }).sweep (.slot n))) ∧
     (s.ringReason n ≠ 0 →
       exec c s = .next (s.updNcp fun x =>
         { x with rejectBits := x.rejectBits ||| BitVec.ofNat 64 (2 ^ n), lastRejectSlot := n,
                  lastRejectReason := s.ringReason n, doorbellsRejected := satInc 16 x.doorbellsRejected }))) ∧
  (∀ (n : Nat) (s : State), s.power.condition = .running →
     let sess := fld (s.boxBytes (.slot n) 0 32) 4 1
     (s.fwReady = false → s.ringReason n = 1) ∧
     (s.fwReady = true → (s.slot n).st ≠ .idle → s.ringReason n = 2) ∧
     (s.fwReady = true → (s.slot n).st = .idle →
       (n < 60 → (s.slot n).owner = none → (s.slot n).closing = false → s.ringReason n = 3) ∧
       (n < 60 → (s.slot n).owner = none → (s.slot n).closing = true → s.ringReason n = 5) ∧
       (∀ k, n < 60 → (s.slot n).owner = some k → sess ≠ k → s.ringReason n = 4) ∧
       (∀ k, n < 60 → (s.slot n).owner = some k → sess = k →
         (s.slot n).closing = true ∨ (s.session k).closing = true ∨ (s.session k).isOpen = false → s.ringReason n = 5) ∧
       (∀ k, n < 60 → (s.slot n).owner = some k → sess = k → (s.slot n).closing = false → (s.session k).closing = false →
         (s.session k).isOpen = true → s.ringReason n = 0) ∧
       (60 ≤ n → s.ringReason n = if sess = 0xFF then 0 else 4)))

/-- The release registers return a HELD mailbox to IDLE, and one in any other state stays; an open slot returns by its
time limit. The doorbell of an IDLE management mailbox that the boot ROM or the firmware serves, and a READ frame on the
side-band. -/
def Obligations.ReleasesAndSideBand : Prop :=
  ((∀ (n : Nat) (s : State), s.hostReaches = true → n < 64 →
     exec (.slotRelease (decide (32 ≤ n)) (BitVec.ofNat 32 (2 ^ (n % 32)))) s =
       .next (s.updSlot n fun x => if x.st = .held then { x with st := .idle } else x)) ∧
   (∀ (m : Nat) (s : State), s.power.condition = .running → m < 2 →
     exec (.mgRelease (BitVec.ofNat 32 (2 ^ m))) s =
       .next (s.updMg m fun x => if x.st = .held then { x with st := .idle } else x)) ∧
   (∀ (n : Nat) (s : State), 60 ≤ n → (s.slot n).st = .held → (s.slot n).heldSince + 1000000000 ≤ s.now →
     exec (.openSlotTimeout n) s = .next (s.updSlot n fun x => { x with st := .idle })) ∧
   (∀ (n : Nat) (s : State), s.now < (s.slot n).heldSince + 1000000000 → exec (.openSlotTimeout n) s = .next s)) ∧
  ((∀ (m : Nat) (s : State), m < 2 → s.served (.mgmt m) = true → (s.mg m).st = .idle →
     exec (.mgDoorbell (BitVec.ofNat 32 (2 ^ m))) s = .next ((s.updMg m fun x => { x with st := .rung }).sweep (.mgmt m))) ∧
   (∀ (l n : Nat) (s : State), s.power.condition = .running → l < 2 ^ 24 →
     exec (.mgmtFrame [BitVec.ofNat 8 (s.power.mgmtAddr.toNat * 64 + 1), BitVec.ofNat 8 (l / 65536), BitVec.ofNat 8 (l / 256),
         BitVec.ofNat 8 l] n) s =
       .next (s.out (.miso (0 :: (List.range n).map (fun k => s.mgByte (l + k)))))) ∧
   (∀ (mosi : List Byte) (n : Nat) (s : State), s.power.condition = .running → 4 ≤ mosi.length →
     fld mosi 0 1 / 64 ≠ s.power.mgmtAddr.toNat → exec (.mgmtFrame mosi n) s = .next s))

/-- MSI-X. The message of every vector that owes one, and whose spacing of 2 µs has passed, is sent; before that the row
does nothing. The host unmasks any vector. Then, of what is sent: a message, or the pending bit of a masked vector; and
unmasking sends a pending message once. -/
def Obligations.VectorsSendOrPend : Prop :=
  (∀ (v : Nat) (s : State),
    ((s.vec v).owed = true → s.mayRaise (s.vec v).lastSent 2000 = true →
      exec (.msixMessageSend v) s = .next (s.sendVector v)) ∧
    ((s.vec v).owed = false ∨ s.mayRaise (s.vec v).lastSent 2000 = false → exec (.msixMessageSend v) s = .next s) ∧
    (s.hostReaches = true → exec (.msixUnmask v) s = .next (s.unmask v)) ∧
    (s.hostReaches = false → exec (.msixUnmask v) s = .next s)) ∧
  (∀ (v : Nat) (s : State), s.ep.d3 = false → v < s.vecs.length →
    (let t := s.sendVector v
     (t.vec v).owed = false ∧ (t.vec v).lastSent = some s.now ∧
       (∀ w, w ≠ v → t.vec w = s.vec w) ∧
       t.ncp.intSummary = (if v < 22 then s.ncp.intSummary ||| BitVec.ofNat 32 (2 ^ v) else s.ncp.intSummary) ∧
       (s.ep.msixEn = true → (s.vec v).masked = false → s.ep.fnMask = false →
         t.outs = .msix v (s.vec v).addr (s.vec v).data :: s.outs) ∧
       (s.ep.msixEn = true → (s.vec v).masked = true ∨ s.ep.fnMask = true →
         t.outs = s.outs ∧ (t.vec v).pendingBit = true) ∧
       t = { s with vecs := t.vecs, outs := t.outs, ncp := { s.ncp with intSummary := t.ncp.intSummary } }) ∧
    (let t := s.unmask v
     (t.vec v).masked = false ∧ t = { s with vecs := t.vecs, outs := t.outs } ∧ (∀ w, w ≠ v → t.vec w = s.vec w) ∧
       (s.ep.msixEn = true → s.ep.fnMask = false → (s.vec v).pendingBit = true →
         (t.vec v).pendingBit = false ∧ t.outs = .msix v (s.vec v).addr (s.vec v).data :: s.outs) ∧
       ((s.vec v).pendingBit = false → t.outs = s.outs)))

/-! ## Completions and events (chapter 04) -/

/-- A completion to a host session's ring that has room: the record stands at the producer index with the session's phase,
the index advances, the phase inverts at the wrap, and the slot of a final completion leaves BUSY. When a full ring gets
room, the oldest completion that waited is posted, and undefined opcodes that the session rang first are completed. -/
def Obligations.CompletionRecords : Prop :=
  (∀ (w : WaitCpl) (n k : Nat) (s : State), w.cmd.box = .slot n → n < 60 → w.orphan = false → w.cmd.session = k → k < 16 →
     w.cmd.cookie.length = 8 → s.ncp.sessions.length = 16 → s.ncp.slots.length = 64 → s.ncp.mem.wf = true →
     (s.session k).prod < 1024 →
     (∀ d, w.response = some d → d.length ≤ 16352) →
     let t := s.postNow w
     t.ncp.mem.readN (0x200000 + 0x8000 * k + 32 * (s.session k).prod) 32 =
         cplRecord w.cmd w.status (s.session k).phase (w.final && w.response.isSome) w.result ∧
       (t.session k).prod = ((s.session k).prod + 1) % 1024 ∧
       (t.session k).phase = (if (s.session k).prod = 1023 then !(s.session k).phase else (s.session k).phase) ∧
       (w.final = true → (t.slot n).st = if w.response.isSome then .held else .idle) ∧
       (w.final = false → (t.slot n).st = (s.slot n).st) ∧
       (∀ d, w.final = true → w.response = some d → t.ncp.mem.readN (0x100000 + 0x4000 * n) (8 + d.length) =
         le 4 d.length ++ le 4 w.cmd.seq.toNat ++ d) ∧
       (∀ a, (a < 0x200000 + 0x8000 * k + 32 * (s.session k).prod ∨ 0x200000 + 0x8000 * k + 32 * (s.session k).prod + 32 ≤ a) →
         (a < 0x100000 + 0x4000 * n ∨ 0x100000 + 0x4000 * n + 0x4000 ≤ a) → t.ncp.mem.read a = s.ncp.mem.read a)) ∧
  (∀ (k : Nat) (w : WaitCpl) (s : State), s.ncp.waiting.find? (fun x => x.ring == some k) = some w → s.cqFull k = false →
     w.cmd.opcode ≠ 0x0102 →
     let t := (s.updNcp fun n => { n with waiting := n.waiting.erase w }).postNow w
     exec (.completionPost k) s = .next (t.sweepList (t.rungBy (some k, none))))

/-- An event that is not suppressed, with room in the ring and none lost before it: its record, the producer index and the
phase; a suppressed one changes nothing; with the ring full it is counted lost and GLB_GLOBAL_CAUSE says so. -/
def Obligations.EventRingRecord : Prop :=
  ∀ (code src : Nat) (body : List Byte) (s : State), s.ncp.eqProd < 16384 → s.ncp.mem.wf = true →
    (s.suppressed code = true → s.post code src body = s) ∧
    (s.suppressed code = false → s.ncp.eqLostSince = 0 → s.eqFull = false →
      let t := s.post code src body
      t.ncp.mem.readN (0x280000 + 32 * s.ncp.eqProd) 32 = eventRecord code src s.now s.ncp.eqPhase body ∧
        t.ncp.eqProd = (s.ncp.eqProd + 1) % 16384 ∧
        t.ncp.eqPhase = (if s.ncp.eqProd = 16383 then !s.ncp.eqPhase else s.ncp.eqPhase) ∧
        (∀ a, (a < 0x280000 + 32 * s.ncp.eqProd ∨ 0x280000 + 32 * s.ncp.eqProd + 32 ≤ a) →
          t.ncp.mem.read a = s.ncp.mem.read a)) ∧
    (s.suppressed code = false → s.eqFull = true →
      let t := s.post code src body
      t.ncp.mem = s.ncp.mem ∧ t.ncp.eqProd = s.ncp.eqProd ∧ t.ncp.eqLost = s.ncp.eqLost + 1 ∧
        t.ncp.globalCause.getLsbD 2 = true)

/-! ## Commands of sessions (chapter 04) -/

/-- A command that is taken, but breaks one of the checks that all commands share, completes with the status of the first
check it breaks, and does nothing else of its own. -/
def Obligations.SharedChecksInOrder : Prop :=
  ∀ (b : Mbox) (f : Form) (k : Cmd → State → State) (s : State), s.boxSt b = .rung → (s.cmdIn b).opcode = f.op →
    s.served b = true → s.firstWaits (s.cmdIn b) = false → s.isNext b = true →
    let c := s.cmdIn b
    (∀ e, s.expectedSeq c = some e → c.seq ≠ e →
      s.take b f k = ((s.markTaken c).reply c 0x0104 (le 4 e.toNat) none).sweep b) ∧
    (s.expectedSeq c = none ∨ s.expectedSeq c = some c.seq →
      ((s.taken b).mayCome c f = false → s.take b f k = ((s.taken b).reply c 0x0101 (le 2 c.opcode) none).sweep b) ∧
      ((s.taken b).mayCome c f = true → f.hi < c.len ∨ c.len < f.lo ∨ b.limit < c.len →
        ∃ n, s.take b f k = ((s.taken b).reply c 0x0102 (le 4 n) none).sweep b) ∧
      (∀ n, (s.taken b).mayCome c f = true → f.lo ≤ c.len → c.len ≤ f.hi → c.len ≤ b.limit →
        f.lens.fault c.payload c.len = some n →
        s.take b f k = ((s.taken b).reply c 0x0102 (le 4 n) none).sweep b) ∧
      ((s.taken b).mayCome c f = true → f.lo ≤ c.len → c.len ≤ f.hi → c.len ≤ b.limit →
        f.lens.fault c.payload c.len = none →
        (∀ off, c.headerFault (s.boxBytes b 0 32) f = some off →
          s.take b f k = ((s.taken b).reply c 0x0103 (le 4 off) none).sweep b) ∧
        (c.headerFault (s.boxBytes b 0 32) f = none → f.target = true → c.target ≠ 0 → c.target ≠ (s.taken b).liveNumber →
          s.take b f k = ((s.taken b).reply c 0x0204 (le 4 (s.taken b).liveNumber ++ le 4 1) none).sweep b)))

/-- SESSION_OPEN: the session opens with the slots granted, SESSION_OPENED is raised, and the command completes OK; then
what opening sets: flags, first sequence number, heartbeat of 5 s when none is given, and an empty ring with PHASE 1. -/
def Obligations.SessionsOpen : Prop :=
  (∀ (b : Mbox) (s : State), Accepted s b formSessionOpen →
     let t := s.taken b
     let c := s.cmdIn b
     let p := c.payload
     let slots := t.freeSlots.take (fld p 2 1)
     let map := slots.foldl (fun v n => v + 2 ^ n) 0
     ∀ k, k < 16 → fld p 0 1 = k → (t.session k).isOpen = false → fld p 1 1 ≤ 1 → 1 ≤ fld p 2 1 → fld p 2 1 ≤ 60 →
       fld p 4 4 = 0 ∨ (100 ≤ fld p 4 4 ∧ fld p 4 4 ≤ 60000) → fld p 12 2 / 256 = 3 → fld p 12 2 % 256 ≤ 2 →
       t.freeSlots ≠ [] → fld p 1 1 = 0 ∨ t.ncp.sessions.any (·.primary) = false →
       exec (.sessionOpen b) s = .next ((((t.openSession k slots (fld p 1 1 == 1) (fld p 4 4) (fld p 8 4)).raise 0x0103
         (0x4000 + k) (le 1 k ++ le 1 (fld p 1 1) ++ le 6 0 ++ le 8 map)).ok c
           (le 1 k ++ le 1 slots.length ++ le 2 0 ++ le 8 map ++ [3, 2, 3, 2])).sweep b)) ∧
  (∀ (k : Nat) (slots : List Nat) (primary : Bool) (hb first : Nat) (s : State), k < 16 → s.ncp.sessions.length = 16 →
     s.ncp.slots.length = 64 →
     let t := s.openSession k slots primary hb first
     (t.session k).isOpen = true ∧ (t.session k).primary = primary ∧ (t.session k).expected = BitVec.ofNat 32 first ∧
       (t.session k).heartbeat = (if hb = 0 then 5000 else hb) ∧ (t.session k).prod = 0 ∧ (t.session k).cons = 0 ∧
       (t.session k).phase = true ∧
       (∀ n, n ∈ slots → n < 64 → (t.slot n).owner = some k ∧ (t.slot n).closing = false ∧ (t.slot n).st = (s.slot n).st) ∧
       (∀ n, n ∉ slots → t.slot n = (s.slot n).keepNumber k s.ncp.rings (s.session k).expected) ∧
       (∀ n, (s.slot n).user ≠ some k → n ∉ slots → t.slot n = s.slot n) ∧ (∀ j, j ≠ k → t.session j = s.session j) ∧
       (∀ a, 0x200000 + 0x8000 * k ≤ a → a < 0x208000 + 0x8000 * k → t.ncp.mem.read a = 0) ∧
       (∀ a, a < 0x200000 + 0x8000 * k ∨ 0x208000 + 0x8000 * k ≤ a → t.ncp.mem.read a = s.ncp.mem.read a))

/-- SESSION_CLOSE and an expired session. -/
def Obligations.SessionsClose : Prop :=
  (∀ (b : Mbox) (s : State), Accepted s b formSessionClose → s.ncp.waiting = [] → s.cqFull (s.cmdIn b).session = false →
    (s.taken b).orphaned (s.cmdIn b) = false →
    exec (.sessionClose b) s =
      .next ((((s.taken b).ok (s.cmdIn b) []).closeSession (s.cmdIn b).session false).sweep b)) ∧
  (∀ (k : Nat) (s : State), (s.session k).isOpen = true →
    (2 * (s.session k).heartbeat * 1000000 + (s.session k).lastTaken ≤ s.now →
      exec (.sessionExpired k) s = .next (((s.closeSession k true).setCause 3).raise 0x0102 (0x4000 + k)
        (le 4 k ++ le 4 (s.session k).lastSeq.toNat))) ∧
    (s.now < 2 * (s.session k).heartbeat * 1000000 + (s.session k).lastTaken →
      exec (.sessionExpired k) s = .next s)) ∧
  (∀ (k : Nat) (expired : Bool) (s : State), k < s.ncp.sessions.length →
    let t := s.closeSession k expired
    (t.session k).isOpen = false ∧ (t.session k).primary = false ∧
      (∀ n, (s.slot n).owner = some k → (s.slot n).st = .idle ∨ (s.slot n).st = .held →
        (t.slot n).st = .idle ∧ (t.slot n).owner = none ∧ (t.slot n).closing = expired) ∧
      (∀ n, (s.slot n).owner ≠ some k → s.ncp.waiting = [] → t.slot n = s.slot n) ∧ t.cfg = s.cfg ∧ t.ctxs = s.ctxs)

/-- The remaining commands of sessions and the device, each with the result its row gives; DEV_RESET and TRS_FW_ACTIVATE
ask for a warm reset once the open segments are closed. -/
def Obligations.SessionAndDeviceCommands : Prop :=
  (∀ (b : Mbox) (s : State),
     let t := s.taken b
     let c := s.cmdIn b
     (Accepted s b formSessionHeartbeat → exec (.sessionHeartbeat b) s =
       .next ((t.reply c 0 (le 8 (t.now / 1000000000) ++ le 4 (t.now % 1000000000) ++ le 4 t.liveNumber) none).sweep b)) ∧
     (Accepted s b formDevInfo → exec (.devInfo b) s = .next ((t.reply c 0 [] (some t.devInfo)).sweep b)) ∧
     (Accepted s b formSessionOrphans → exec (.sessionOrphans b) s =
       .next ((t.reply c 0 [] (some (le 4 t.ncp.orphans.length ++
         (t.ncp.orphans.map (fun o => le 1 o.session ++ le 7 0 ++ o.bytes)).flatten))).sweep b)) ∧
     (Accepted s b formEventMask → fld c.payload 0 4 &&& 0xFFFF8003 = 0 → t.fromPrimary c = true →
       exec (.eventMask b) s =
       .next (((t.updNcp fun n => { n with eventMask := BitVec.ofNat 32 (fld c.payload 0 4) }).ok c []).sweep b)) ∧
     (Accepted s b formPrimaryClaim → t.ncp.sessions.any (·.primary) = false → t.orphaned c = false → exec (.primaryClaim b) s =
       .next (((t.updSession c.session fun x => { x with primary := true }).ok c []).sweep b)) ∧
     (Accepted s b formPrimaryClaim → t.ncp.sessions.any (·.primary) = true → exec (.primaryClaim b) s =
       .next ((t.reply c 0x0401 [] none).sweep b))) ∧
  (∀ (b : Mbox) (s : State),
     let t := s.taken b
     let c := s.cmdIn b
     (Accepted s b formDevReset → c.box.isMgmt = true ∨ bit t.policyFlags 1 = false → fld c.payload 0 4 = 0x5741524D →
       exec (.devReset b) s =
         .next ((((t.ok c []).askWarm (if c.box.isMgmt then 0x12 else 0x11)).closeSegments 3).sweep b).settle) ∧
     (Accepted s b formDevReset → c.box.isMgmt = false → bit t.policyFlags 1 = true →
       exec (.devReset b) s = .next ((t.reply c 0x0301 [] none).sweep b).settle) ∧
     (Accepted s b formDevReset → c.box.isMgmt = true ∨ bit t.policyFlags 1 = false → fld c.payload 0 4 ≠ 0x5741524D →
       exec (.devReset b) s = .next ((t.reply c 0x0103 (le 4 32) none).sweep b).settle) ∧
     (Accepted s b formTrsFwActivate → fld c.payload 0 4 = 0 → t.unconfirmed = false → (t.nv.slot t.otherSlot).whole = true →
       exec (.trsFwActivate b) s = .next (((t.updNv fun n => { n with trial := 1 }).ok c []).sweep b).settle) ∧
     (Accepted s b formTrsFwActivate → fld c.payload 0 4 = 1 → bit t.policyFlags 1 = false → t.unconfirmed = false →
       (t.nv.slot t.otherSlot).whole = true → exec (.trsFwActivate b) s =
         .next (((((t.updNv fun n => { n with trial := 1 }).ok c []).askWarm 0x11).closeSegments 3).sweep b).settle))

/-- An image over a management mailbox: begun, its chunks in order, and at its end verified and booted, or refused with
the boot code of the failure. -/
def Obligations.ImageDelivery : Prop :=
  ∀ (b : Mbox) (s : State),
    let t := s.taken b
    let c := s.cmdIn b
    let p := c.payload
    t.awaitsImage = true →
    (Accepted s b formMgmtImageBegin → fld p 0 4 ≤ 1 → fld p 4 4 ≤ imageLimit (fld p 0 4) →
      ∃ u, exec (.mgmtImageBegin b) s = .next ((u.ok c []).sweep b) ∧
        u = { t with ncp := { t.ncp with imageIn := some { kind := fld p 0 4, total := fld p 4 4, data := [] } } }) ∧
    (∀ i, Accepted s b formMgmtImageData → t.ncp.imageIn = some i → fld p 0 4 = i.data.length →
      i.data.length + (p.drop 8).length ≤ i.total →
      ∃ u, exec (.mgmtImageData b) s = .next ((u.ok c []).sweep b) ∧
        u = { t with ncp := { t.ncp with imageIn := some { i with data := i.data ++ p.drop 8 } } }) ∧
    (∀ i, Accepted s b formMgmtImageEnd → t.ncp.imageIn = some i →
      exec (.mgmtImageEnd b) s =
        .next ((((t.accept c 0 []).updNcp fun n => { n with imageIn := none }).imageArrived i).sweep b)) ∧
    (∀ i, t.power.bootStage = .waitFirstStage → i.kind = 0 → i.data.length = i.total →
      let u := t.imageArrived i
      match t.imageFault 0 i.data with
      | none => u.power.bootCode = 0x50 ∧ u.power.bootStage = .waitNimlek ∧ u.trust.mFs = imageDigest i.data
      | some f => u.power.bootCode = f ∧ u.power.bootStage = .waitFirstStage ∧ u.trust = t.trust)

/-! ## Configuration generations (chapter 05) -/

/-- CFG_STAGE_BEGIN, CFG_STAGE_BLOCK with a whole block, CFG_STAGE_DISCARD: what each does to the STAGED generation. A
first chunk that holds a whole block adds it, in place of an earlier block of its type and target. -/
def Obligations.StagingAGeneration : Prop :=
  (∀ (b : Mbox) (s : State),
     let t := s.taken b
     let c := s.cmdIn b
     let p := c.payload
     (Accepted s b formCfgStageBegin → t.cfg.staged = none → t.cfg.armed = none →
       (fld p 0 4 = 0 → exec (.cfgStageBegin b) s =
         .next ((((t.updNv fun x => { x with highestGen := t.nv.highestGen + 1 }).updCfg fun x =>
           { x with staged := some { number := t.nv.highestGen + 1, blocks := [], incomplete := [] } }).ok c
             (le 4 (t.nv.highestGen + 1))).sweep b)) ∧
       (∀ g, fld p 0 4 = 1 → t.cfg.live = some g → exec (.cfgStageBegin b) s =
         .next ((((t.updNv fun x => { x with highestGen := t.nv.highestGen + 1 }).updCfg fun x =>
           { x with staged := some { number := t.nv.highestGen + 1, blocks := g.blocks, incomplete := [] } }).ok c
             (le 4 (t.nv.highestGen + 1))).sweep b))) ∧
     (∀ g g', Accepted s b formCfgStageBlock → t.cfg.staged = some g → c.target = 0 →
       headerBreaks (stagedHeader p).1 (stagedHeader p).2 = none → (stagedHeader p).1.flags = 0 →
       stageChunk g (stagedHeader p).1 (stagedHeader p).2 (fld p 0 4) (p.drop 24) = .inl g' →
       chunkBreaks (stagedHeader p).1.type (g.assembled (stagedHeader p).1 (fld p 0 4) (p.drop 24)) (stagedHeader p).2
         (fld p 0 4) = none → g'.blocks.length + g'.incomplete.length ≤ 4096 → g'.fullLength ≤ 67108864 →
       exec (.cfgStageBlock b) s = .next (((t.updCfg fun x => { x with staged := some g' }).ok c []).sweep b)) ∧
     (∀ g, Accepted s b formCfgStageBlock → t.cfg.staged = some g → c.target ≠ 0 → c.target ≠ g.number →
       exec (.cfgStageBlock b) s = .next ((t.reply c 0x0201 [] none).sweep b)) ∧
     (Accepted s b formCfgStageDiscard → t.cfg.staged.isSome = true → exec (.cfgStageDiscard b) s =
       .next (((t.updCfg fun x => { x with staged := none }).ok c []).sweep b)) ∧
     (Accepted s b formCfgStageDiscard → t.cfg.staged = none → exec (.cfgStageDiscard b) s =
       .next ((t.reply c 0x0202 [] none).sweep b))) ∧
  (∀ (g g' : Gen) (h : Block) (d : List Byte),
     stageChunk g h d.length 0 d = .inl g' →
       g'.number = g.number ∧ blockIn g'.blocks h.type h.target = some { h with payload := d } ∧
       ∀ type target, (type, target) ≠ (h.type, h.target) → blockIn g'.blocks type target = blockIn g.blocks type target)

/-- CFG_VALIDATE answers ACCEPTED, then OK or VALIDATION_FAILED with the first fault; CFG_STATUS and CFG_READ_BLOCK read. -/
def Obligations.ValidatingAndReadingGenerations : Prop :=
  ∀ (b : Mbox) (s : State),
    let t := s.taken b
    let c := s.cmdIn b
    let p := c.payload
    (∀ g, Accepted s b formCfgValidate → t.cfg.staged = some g → (t.accept c 0 []).validate g false = none →
      exec (.cfgValidate b) s = .next (((t.accept c 0 []).finishAll 0x0204 0 0 [] none).sweep b)) ∧
    (∀ g f, Accepted s b formCfgValidate → t.cfg.staged = some g → (t.accept c 0 []).validate g false = some f →
      exec (.cfgValidate b) s =
        .next (((t.accept c 0 []).finishAll 0x0204 0 0x0204 ((t.accept c 0 []).failResult f) none).sweep b)) ∧
    (Accepted s b formCfgStatus → exec (.cfgStatus b) s =
      .next ((t.reply c 0 [] (some (le 4 (t.nv.highestGen + 1) ++ le 4 (t.persistNumber true) ++ le 4 (t.persistNumber false) ++
        le 4 t.probationLeft ++ statusEntry t.cfg.staged 0 false ++ statusEntry t.cfg.armed t.cfg.unapplied.length true ++
        statusEntry t.cfg.live 0 true ++ statusEntry t.cfg.previous 0 true))).sweep b)) ∧
    (∀ g blk, Accepted s b formCfgReadBlock → t.genByNumber (fld p 0 4) = some g →
      blockIn g.blocks (fld p 4 2) (fld p 6 2) = some blk → fld p 12 4 ≤ blk.payload.length →
      exec (.cfgReadBlock b) s =
        .next ((t.reply c 0 [] (some (blk.header ++ (blk.payload.drop (fld p 12 4)).take 16320))).sweep b))

/-- CFG_COMMIT and CFG_ROLLBACK of a generation that validates: accepted, and the generation is ARMED with its changed
blocks waiting to apply; after that the firmware does its own work, in which a generation without a changed block goes LIVE
at once. Then what arming a generation sets. -/
def Obligations.CommitAndRollbackArm : Prop :=
  (∀ (b : Mbox) (g : Gen) (s : State),
    let t := s.taken b
    let c := s.cmdIn b
    let p := c.payload
    let a := t.accept c 0 []
    let ms := if fld p 12 4 = 0 then 1000 else fld p 12 4
    let prob : Probation := { frames := fld p 4 4, limitMs := if fld p 8 4 = 0 then 60000 else fld p 8 4, startTbm := s.now,
                              landed := [], affected := a.affectedBy g }
    t.cfg.armed = none →
    (Accepted s b formCfgCommit → t.cfg.probation = none → t.cfg.staged = some g → fld p 0 4 ≤ 1 → fld p 4 4 ≤ 16777215 →
      fld p 8 4 = 0 ∨ (100 ≤ fld p 8 4 ∧ fld p 8 4 ≤ 3600000) → fld p 12 4 = 0 ∨ (10 ≤ fld p 12 4 ∧ fld p 12 4 ≤ 60000) →
      (a.validate g (fld p 0 4 == 1) = none → exec (.cfgCommit b) s =
        .next ((((a.updCfg fun x =>
          { x with staged := none, persistReq := fld p 0 4 == 1,
                   probation := if fld p 4 4 = 0 then none else some prob }).armGen g .commit ms).settle).sweep b)) ∧
      (∀ f, a.validate g (fld p 0 4 == 1) = some f → exec (.cfgCommit b) s =
        .next ((a.finishAll 0x0205 0 0x0204 (a.failResult f) none).sweep b))) ∧
    (Accepted s b formCfgRollback → t.cfg.previous = some g →
      (a.validate g false = none → exec (.cfgRollback b) s =
        .next ((((a.updCfg fun x => { x with previous := none, probation := none, persistReq := false }).armGen g .rollback
          1000).settle).sweep b)) ∧
      (∀ f, a.validate g false = some f → exec (.cfgRollback b) s =
        .next ((a.finishAll 0x0206 0 0x0204 (a.failResult f) none).sweep b))) ∧
    (Accepted s b formCfgRollback → t.cfg.previous = none →
      exec (.cfgRollback b) s = .next ((t.reply c 0x0203 [] none).sweep b))) ∧
  (∀ (g : Gen) (kind : ArmKind) (ms : Nat) (s : State),
    let u := s.armGen g kind ms
    u.cfg = { s.cfg with armed := some g, armKind := kind, armTbm := s.now, armTimeoutMs := ms,
                         unapplied := changedBlocks s.cfg.inForce g.blocks } ∧
      u = { s with cfg := u.cfg, luts := u.luts, ncp := u.ncp, vecs := u.vecs, obs := u.obs, free := u.free, outs := u.outs })

/-- An ARMED generation whose changed blocks have all applied goes LIVE, and the LIVE one becomes PREVIOUS. Global blocks
whose users have stopped apply, and of a block of decode streams that waits its entries whose stream is idle; the arming
timeout forces what is left, the probation limit passes the probation of a generation that is ARMED or LIVE, and a written persist copy replaces the older of the two. -/
def Obligations.GenerationsApplyAndPersist : Prop :=
  (∀ (g : Gen) (s : State), s.cfg.armed = some g → s.cfg.unapplied = [] → s.cfg.armKind = .commit ∨ s.cfg.armKind = .rollback →
     let t := s.goLive
     t.cfg.live = some g ∧ t.cfg.previous = s.cfg.live ∧ t.cfg.armed = none ∧ t.cfg.staged = s.cfg.staged ∧
       t.cfg.inForce = s.cfg.inForce ∧ t.power = s.power ∧ t.mem = s.mem ∧ t.shrouds = s.shrouds) ∧
  ((∀ (g : Gen) (s : State), s.cfg.arming = some g →
     let t := s.applyGlobals g s.waitingGlobals
     exec .globalBlockApply s = .next (if t.waitingGlobals.head? = some 0x0601 then t.applyIdleDecs g else t).settle) ∧
   (∀ (g : Gen) (type : Nat) (s : State), s.waitingGlobals = [type] → s.globalIdle g type = true →
     s.applyGlobals g s.waitingGlobals = s.applyOneGlobal g type) ∧
   (∀ (g : Gen) (type : Nat) (types : List Nat) (s : State), s.waitingGlobals = type :: types → s.globalIdle g type = false →
     s.applyGlobals g s.waitingGlobals = s) ∧
   (∀ (g : Gen) (s : State), s.cfg.arming = some g → s.cfg.armTbm + 1000000 * s.cfg.armTimeoutMs ≤ s.now →
     let t := each (List.range 64) (fun c s => (s.applyKeys c (s.keysOf c)).2)
       (each (s.forcedCtxs g) (fun c s => s.forceCtx c) s)
     exec .armTimeout s = .next (each ((t.cfg.unapplied.filter (fun k => k.2 == globalTarget)).map (·.1))
       (fun ty s => s.applyOneGlobal g ty) t).settle) ∧
   (∀ s : State, s.now < s.cfg.armTbm + 1000000 * s.cfg.armTimeoutMs → exec .armTimeout s = .next s) ∧
   (∀ (p : Probation) (s : State), s.cfg.probation = some p → p.startTbm + 1000000 * p.limitMs ≤ s.now →
     ∃ t, exec .probationLimit s = .next t ∧ t.cfg.probation = none ∧ t.cfg.live = s.cfg.live ∧
       t.cfg.persisting = s.cfg.persisting ++ (if s.cfg.persistReq then (s.cfg.armed.orElse fun _ => s.cfg.live).toList else [])) ∧
   (∀ (g : Gen) (rest : List Gen) (s : State), s.cfg.persisting = g :: rest → s.nv.newest < 2 → s.nv.persist.length = 2 →
     (∃ t, exec (.cfgPersistDone true 0) s = .next t ∧ t.cfg.persisting = rest ∧ t.nv.newest = 1 - s.nv.newest ∧
       t.nv.persist.getD t.nv.newest none = some g ∧ t.nv.persist.getD s.nv.newest none = s.nv.persist.getD s.nv.newest none) ∧
     (∀ status, ∃ t, exec (.cfgPersistDone false status) s = .next t ∧ t.cfg.persisting = rest ∧ t.nv = s.nv)))

/-! ## The energy ledger and jobs (chapters 01 and 06) -/

/-- A ledger tick once Nimlek runs: windows count from 0, a change of reef and the factors that telemetry has left act from now on, and the newest entry of the
trace is the window's. The window's
arithmetic when no job is considered: the credit, the carry kept, the bank, and debt. -/
def Obligations.EnergyWindows : Prop :=
  (∀ s : State, s.nimlek = true →
     ∃ t, exec .ledgerTick s = .next t ∧ t.ledger.started = true ∧
       t.ledger.window = (if s.ledger.started then s.ledger.window + 1 else 0) ∧ t.ledger.reefAtTick = s.health.reef ∧ t.ledger.factors = s.ledger.nextFactors ∧
       (∃ e rest, t.ledger.trace = e :: rest ∧ e.window = t.ledger.window ∧ e.reef = s.health.reef ∧ rest.length ≤ 255)) ∧
  (∀ s : State, s.considered = [] →
     let t := s.runWindow State.eligible State.admitJob
     let credit : Rat := s.ledger.pEff * 50 / 1000
     let kept := min s.ledger.carry (min credit (12000 - credit))
     let carry := if 0 < s.ledger.carry then kept else s.ledger.carry
     let bank : Rat := if 0 < s.ledger.carry then min (s.bankCap : Rat) (s.ledger.bank + s.ledger.carry - kept) else s.ledger.bank
     let avail := credit - t.ledger.baseline - t.ledger.charges.getD 0 0 + carry
     t.ledger.credit = credit ∧ t.ledger.debt = decide (avail < 0) ∧
       (avail < 0 → t.ledger.carry = avail ∧ t.ledger.bank = bank) ∧
       (0 ≤ avail → t.ledger.carry = 0 ∧ t.ledger.bank = min (s.bankCap : Rat) (bank + avail)) ∧ t.jobs = s.jobs)

/-- One job of the pass neither makes nor loses energy: what is available, what may still be drawn and what is charged
together stay the same, and nothing goes below zero that was not. -/
def Obligations.PassConservesEnergy : Prop :=
  ∀ (eligible : State → Job → Bool) (letIn : Job → State → State) (id : Nat) (a : Pass) (s : State),
    a.charges.length = 7 → (∀ j, s.job id = some j → j.cls < 7) →
    let q := (passOne eligible letIn id (a, s)).1
    q.avail + q.drawLeft + q.charges.sum = a.avail + a.drawLeft + a.charges.sum ∧
      q.bank - q.drawLeft = a.bank - a.drawLeft ∧ (0 ≤ a.avail → 0 ≤ q.avail) ∧ (0 ≤ a.drawLeft → 0 ≤ q.drawLeft) ∧
      q.admitted ≤ a.admitted + 1 ∧ (a.admitted = 2048 → q = a) ∧ (a.halt = true → q = a)

/-- Rail telemetry: the factor that a group has from the next tick on moves a quarter of the way, kept within 0.5 and 2, and
its stale mark clears; for group 0 the leakage of 10 ms is subtracted from what the rails have measured; a group unread for 100 ms is marked and reported; the leakage estimate is refreshed. Then the ledger's
three commands. -/
def Obligations.TelemetryAndLedgerCommands : Prop :=
  ((∀ (g : Nat) (e : Rat) (mw : Nat) (s : State), s.nimlek = true → g < 4 → s.ledger.nextFactors.length = 4 →
     s.ledger.staleGroups.length = 4 → 0 < s.ledger.chargedGroup.getD g 0 →
     let energy : Rat := if g = 0 then e - 10 * s.ledger.leakage else e
     ∃ t, exec (.telemetryRead { groups := (List.replicate 4 none).set g (some e), packageMw := mw }) s = .next t ∧
       t = { s with ledger := t.ledger } ∧
       t.ledger.nextFactors.getD g 1 =
         min (max (s.ledger.nextFactors.getD g 1 * (1 + 1 / 4 * (energy / s.ledger.chargedGroup.getD g 0 - 1))) (1 / 2)) 2 ∧
       (∀ j, j ≠ g → t.ledger.nextFactors.getD j 1 = s.ledger.nextFactors.getD j 1) ∧ t.ledger.factors = s.ledger.factors ∧
       t.ledger.staleGroups.getD g true = false ∧ t.ledger.measuredMw = mw ∧ t.ledger.bank = s.ledger.bank ∧ t.ledger.carry = s.ledger.carry) ∧
   (∀ (seg addr g : Nat) (s : State), s.nimlek = true →
     (s.ledger.telemetryTbm.getD g 0 + 100000000 ≤ s.now → exec (.telemetryStale seg addr g) s =
       .next ((s.updLedger fun x => { x with staleGroups := x.staleGroups.set g true }).raise 0x0803 0
         (le 1 seg ++ le 1 addr ++ le 1 g))) ∧
     (s.now < s.ledger.telemetryTbm.getD g 0 + 100000000 → exec (.telemetryStale seg addr g) s = .next s)) ∧
   (∀ s : State, s.running = true → s.nimlek = true →
     ∃ t, exec .leakageRefresh s = .next t ∧ t = { s with ledger := t.ledger, free := t.free } ∧
       t.ledger.leakage = ((min s.nv.fuses.leakage 20000 : Nat) : Rat) * s.vRatio ^ 2 *
         exp2R ((s.meanTemp.1 - 100) / 25) ∧ t.ledger.bank = s.ledger.bank ∧ t.ledger.factors = s.ledger.factors)) ∧
  (∀ (b : Mbox) (s : State),
     let t := s.taken b
     let c := s.cmdIn b
     let p := c.payload
     (Accepted s b formNrgCostRead → fld p 0 1 ≤ 0x10 →
       exec (.nrgCostRead b) s = .next ((t.reply c 0 [] (some (t.costEntry (fld p 0 1)))).sweep b)) ∧
     (Accepted s b formNrgTrace → 1 ≤ fld p 0 4 → fld p 0 4 ≤ 256 →
       exec (.nrgTrace b) s = .next ((t.reply c 0 [] (some (le 4 (t.ledger.trace.take (fld p 0 4)).length ++ le 4 0 ++
         ((t.ledger.trace.take (fld p 0 4)).map TraceEntry.bytes).flatten))).sweep b)) ∧
     (∀ g, Accepted s b formNrgEstimate → t.cfg.staged = some g →
       exec (.nrgEstimate b) s = .next ((t.reply c 0 ((t.estimate g).map (fun v => le 4 v)).flatten none).sweep b)) ∧
     (Accepted s b formNrgEstimate → t.cfg.staged = none →
       exec (.nrgEstimate b) s = .next ((t.reply c 0x0202 [] none).sweep b)))

/-- An engine takes the job at the head of its queue, a recorder's Write goes to its drive, and the lines of a streamer's unit
leave on the SDI link of its stream; a running job completes with its engine's result; a complete one
retires, and its tag is free. -/
def Obligations.JobsRunCompleteAndRetire : Prop :=
  (∀ (m id : Nat) (rest : List Nat) (j : Job) (s : State), (s.engine m).running = none → (s.engine m).queue = id :: rest →
    s.job id = some j →
    let t := (s.updJob id fun j => { j with st := .running, runTbm := s.now }).updEngine m fun e =>
      { e with queue := rest, running := if manyJobs m then none else some id }
    (j.kind ≠ .recWrite → j.kind ≠ .outUnit → exec (.jobStart m) s = .next t) ∧
    (j.kind = .recWrite → exec (.jobStart m) s = .next (t.startWrite j 0)) ∧
    (j.kind = .outUnit → (s.stream j.object).type = 3 →
      exec (.jobStart m) s = .next (t.out (.lines j.object (j.args.getD 0 0) 0)))) ∧
  (∀ (tag : Nat) (f : JobFacts) (j : Job) (s : State), s.byTag tag = some j → j.st = .running → j.kind ≠ .recWrite →
    j.kind ≠ .selftest →
    exec (.jobComplete tag f) s = .next (s.endJob j (fun s => s.runJob j f) f).settle) ∧
  (∀ (j : Job) (status : Nat) (s : State), s.job j.id = some j → j.superseded = false →
    ∃ k, (s.completeJob j status).job j.id = some k ∧ k.st = .complete ∧ k.status = status ∧
      k.outcome = admittedWord j.cls j.waits ∧ k.endTbm = s.now ∧ k.tag = j.tag) ∧
  (∀ (tag : Nat) (j : Job) (s : State), s.byTag tag = some j → j.st = .complete →
    exec (.jobRetire tag) s = .next (s.retireJob j).settle)

/-! ## Sensor lanes (chapter 07) -/

/-- A shroud whose sensor is up runs through the states of training: to ACTIVE, as far as it has come, or to FAILED with the
first failure of the procedure, a training that is late with TIMEOUT; its time limit and that of a relock fail the shroud. -/
def Obligations.ShroudsTrain : Prop :=
  (∀ (n : Nat) (s : State), n < s.shrouds.length →
     (∀ f : TrainFacts, s.mayTrain n = true → s.trainLate n f = true →
       ∃ t, exec (.shroudTrain n f) s = .next t ∧ (t.shroud n).st = .failed ∧ (t.shroud n).failReason = 0xB ∧ t.cfg = s.cfg) ∧
     (∀ f : TrainFacts, s.mayTrain n = true → s.trainLate n f = false →
       let r := (s.shroud n).train f
       ∃ t, exec (.shroudTrain n f) s = .next t ∧ (∀ m, m ≠ n → t.shroud m = s.shroud m) ∧ t.cfg = s.cfg ∧ t.mem = s.mem ∧
         (r.fail = none → r.sh.st = .active → (t.shroud n).st = .active ∧ (t.shroud n).failReason = 0 ∧
           (t.shroud n).trainUs = f.micros ∧ (t.shroud n).trainTbm = none ∧ t.ctxs = s.ctxs) ∧
         (r.fail = none → r.sh.st ≠ .active → (t.shroud n).st = r.sh.st ∧ (t.shroud n).lanes = r.sh.lanes ∧ t.ctxs = s.ctxs) ∧
         (∀ reason lanes, r.fail = some (reason, lanes) → (t.shroud n).st = .failed ∧ (t.shroud n).failReason = reason ∧
           (t.shroud n).lanes = r.sh.lanes)) ∧
     (∀ x, (s.shroud n).trainTbm = some x →
       (x + 1000000 * (s.shroud n).timeoutMs ≤ s.now →
         ∃ t, exec (.shroudTrainTimeout n) s = .next t ∧ (t.shroud n).st = .failed ∧ (t.shroud n).failReason = 0xB) ∧
       (s.now < x + 1000000 * (s.shroud n).timeoutMs → exec (.shroudTrainTimeout n) s = .next s)) ∧
     (∀ x, (s.shroud n).st = .relock → (s.shroud n).relockTbm.head? = some x →
       (x + 10000000 ≤ s.now →
         ∃ t, exec (.relockTimeout n) s = .next t ∧ (t.shroud n).st = .failed ∧ (t.shroud n).failReason = 0xC) ∧
       (s.now < x + 10000000 → exec (.relockTimeout n) s = .next s))) ∧
  (∀ (n : Nat) (s : State), n < s.shrouds.length → (s.shroud n).entry.isSome = true →
     ((s.startTraining n).shroud n).st = .quiet ∧ ((s.startTraining n).shroud n).trainings = satInc 8 (s.shroud n).trainings ∧
       ((s.startTraining n).shroud n).trainTbm = some s.now ∧
       (∀ l ∈ ((s.startTraining n).shroud n).lanes, l.hdrErr = 0 ∧ l.signal = false ∧ l.cdrLock = false) ∧
       (∀ m, m ≠ n → (s.startTraining n).shroud m = s.shroud m))

/-- Block lock lost on an ACTIVE shroud: RELOCK, or FAILED at the fourth time within 1 s; the ALIGN blocks of a period, two
of which out of step are a loss too; header-error bursts and blocks of unused types. -/
def Obligations.LaneErrors : Prop :=
  (∀ (n : Nat) (s : State),
    ((s.shroud n).scrambled = true →
      exec (.badControl n) s = .next (s.updShroud n fun x => { x with badControl := satInc 16 x.badControl })) ∧
    ((s.shroud n).scrambled = false → exec (.badControl n) s = .next s)) ∧
  ∀ (n : Nat) (s : State), n < s.shrouds.length → (s.shroud n).st = .active → (s.shroud n).testLane = none →
    (∀ (lanes : BitVec 16) (f : LockLoss), lanes ≠ 0 → f.cdr = false → f.relock = none →
      ((s.shroud n).relockTbm.filter (fun t => decide (s.now < t + 1000000000))).length < 3 →
      ∃ u : State, exec (.slLockLost n lanes f) s = .next u.settle ∧ (u.shroud n).st = .relock ∧
        (u.shroud n).relocks = satInc 8 (s.shroud n).relocks ∧ (u.shroud n).relockTbm.head? = some s.now ∧
        ∀ l, l < (s.shroud n).lanes.length → lanes.getLsbD l = true →
          ((u.shroud n).lanes.getD l Lane.reset).blockLock = false ∧
            ((u.shroud n).lanes.getD l Lane.reset).lockLoss = satInc 16 ((s.shroud n).lanes.getD l Lane.reset).lockLoss) ∧
    (∀ (lanes : BitVec 16) (f : LockLoss), lanes ≠ 0 → 3 ≤ ((s.shroud n).relockTbm.filter (fun t => decide (s.now < t + 1000000000))).length →
      ∃ u : State, exec (.slLockLost n lanes f) s = .next u.settle ∧ (u.shroud n).st = .failed ∧ (u.shroud n).failReason = 0xC) ∧
    (∀ (p : AlignPeriod) (pre : BitVec 16), p.inStep = true → ∃ u : State, exec (.alignBlock n p pre) s = .next u.settle ∧ (u.shroud n).st = .active ∧
      (u.shroud n).deskewRun = false ∧ (u.shroud n).deskewErr = (s.shroud n).deskewErr ∧
      ∀ l k, l < (s.shroud n).lanes.length → ((s.shroud n).lanes.getD l Lane.reset).logical = some k →
        ((u.shroud n).lanes.getD l Lane.reset).precodes = (pre.getLsbD k && !(s.shroud n).nrz)) ∧
    (∀ (p : AlignPeriod) (pre : BitVec 16), p.inStep = false → (s.shroud n).deskewRun = false →
      ∃ u : State, exec (.alignBlock n p pre) s = .next u.settle ∧ (u.shroud n).st = .active ∧
        (u.shroud n).deskewErr = satInc 16 (s.shroud n).deskewErr ∧ (u.shroud n).deskewRun = true) ∧
    (∀ (p : AlignPeriod) (pre : BitVec 16), p.inStep = false → (s.shroud n).deskewRun = true →
      ∃ u : State, exec (.alignBlock n p pre) s = .next u.settle ∧ ((u.shroud n).st = .relock ∨ (u.shroud n).st = .failed) ∧
        (u.shroud n).relocks = satInc 8 (s.shroud n).relocks) ∧
    (∀ lane count, lane < 16 → (s.shroud n).lanes.length = 16 →
      ∃ t, exec (.slHdrErrBurst n lane count) s = .next t ∧
        ((t.shroud n).lanes.getD lane Lane.reset).hdrErr =
          ((s.shroud n).lanes.getD lane Lane.reset).hdrErr + BitVec.ofNat 32 count ∧ (t.shroud n).st = .active ∧
        (count ≤ 64 → t.nv = s.nv ∧ t.ncp = s.ncp))

/-- Eye scans and loopback: a scan starts on each lane in use of each ACTIVE shroud, its end stores the smallest openings,
and loopback puts the shroud in TEST and its end brings it back. Then the four commands of the lanes. -/
def Obligations.LaneTestsAndCommands : Prop :=
  ((∀ s : State, ∃ t, exec .periodicEyeScan s = .next t ∧ t = { s with shrouds := t.shrouds } ∧
     ∀ n, n < s.shrouds.length → ((s.shroud n).st ≠ .active → t.shroud n = s.shroud n) ∧
       ((s.shroud n).st = .active → ∀ l, l < (s.shroud n).lanes.length →
         ((t.shroud n).lanes.getD l Lane.reset).scanning =
           (((s.shroud n).lanes.getD l Lane.reset).scanning || ((s.shroud n).lanes.getD l Lane.reset).logical.isSome))) ∧
   (∀ (n lane : Nat) (f : EyeFacts) (s : State), n < s.shrouds.length → lane < (s.shroud n).lanes.length →
     ((s.shroud n).lanes.getD lane Lane.reset).scanning = true →
     ∃ t, exec (.eyeScanDone n lane f) s = .next t ∧ ((t.shroud n).lanes.getD lane Lane.reset).scanning = false ∧
       ((t.shroud n).lanes.getD lane Lane.reset).scanTbm = some s.now ∧
       ((t.shroud n).lanes.getD lane Lane.reset).eyeH = sat 8 (leastOf (eyesOf (s.shroud n).nrz f.h)) ∧
       ((t.shroud n).lanes.getD lane Lane.reset).eyeV = sat 8 (leastOf (eyesOf (s.shroud n).nrz f.v) / 2)) ∧
   (∀ (n lane bits errors : Nat) (s : State), n < s.shrouds.length → (s.shroud n).testLane = some lane →
     lane < (s.shroud n).lanes.length → (s.shroud n).st = .test → s.executing 0x0303 n ≠ [] →
     ∃ t, exec (.loopbackEnd n bits errors) s = .next t ∧ (t.shroud n).st = .active ∧ (t.shroud n).testLane = none ∧
       ((t.shroud n).lanes.getD lane Lane.reset).prbsErr = sat 32 errors)) ∧
  (∀ (b : Mbox) (s : State),
     let t := s.taken b
     let c := s.cmdIn b
     let p := c.payload
     let n := fld p 0 1
     let lane := fld p 1 1
     (genShroud t.cfg.live n).isSome = true →
     (Accepted s b formSlRetrain → lane ≤ 1 → t.armedChanges n = false → t.sensorCaptures (t.shroud n).sensorOf = false →
       exec (.slRetrain b) s = .next ((((t.accept c n []).endLoopback n none).startTraining n).sweep b).settle) ∧
     (Accepted s b formSlEyeScan → t.laneMapped n lane = true → exec (.slEyeScan b) s =
       .next (((t.updShroud n fun x => { x with lanes := upd x.lanes lane (fun l => { l with scanning := true }) }).accept c
         (16 * n + lane) []).sweep b)) ∧
     (Accepted s b formSlLoopback → t.laneMapped n lane = true → 2 ≤ fld p 4 4 → fld p 4 4 ≤ 1000000 →
       (t.shroud n).st = .active → t.sensorCaptures (t.shroud n).sensorOf = false → exec (.slLoopback b) s =
       .next ((((t.noteReceived n).updShroud n fun x => { x with st := .test, testLane := some lane }).accept c n
         [lane, fld p 4 4]).sweep b)) ∧
     (Accepted s b formSlTrainLog → exec (.slTrainLog b) s =
       .next ((t.reply c 0 [] (some (t.shroud n).trainLog)).sweep b)))

/-! ## The sensor link (chapter 08) -/

/-- SCP_READ and SCP_WRITE that the sensor acknowledges or does not, that wait for a port, and one that could not start in
time. -/
def Obligations.ControlPortTransfers : Prop :=
  (∀ (b : Mbox) (f : ScpFacts) (e : List Byte) (s : State),
    let t := s.taken b
    let c := s.cmdIn b
    let p := c.payload
    let n := fld p 0 1
    let addr := if fld p 1 1 = 0 then (t.sensor n).address else fld p 1 1
    n < 16 → genSensor t.cfg.live n = some e → fld e 1 1 ≠ 0 → fld p 1 1 < 128 → 1 ≤ fld p 2 2 → fld p 2 2 ≤ 4096 →
    (f.starts = false ∨ (t.sensor n).portState = 0 →
      let u := (t.updSensor n fun x => { x with scpWait := x.scpWait ++ [(c, s.now)] }).sweep b
      (Accepted s b formScpRead → exec (.scpRead b f) s = .next u) ∧
      (Accepted s b formScpWrite → t.scpLocked n (fld p 1 1) (fld p 4 2) (fld p 2 2) = false →
        exec (.scpWrite b f) s = .next u)) ∧
    (f.starts = true → (t.sensor n).portState ≠ 0 →
    (Accepted s b formScpRead → f.failure = 0 → exec (.scpRead b f) s =
      .next (((t.updSensor n fun x => { x with portState := 1 }).reply c 0 [] (some (fit (2 * fld p 2 2) f.data))).sweep b)) ∧
    (Accepted s b formScpWrite → f.failure = 0 → c.len = 8 + 2 * fld p 2 2 →
      t.scpLocked n (fld p 1 1) (fld p 4 2) (fld p 2 2) = false → exec (.scpWrite b f) s =
      .next ((((t.updSensor n fun x => { x with portState := 1 }).out (.scp n addr (fld p 4 2) (p.drop 8))).ok c []).sweep b)) ∧
    (Accepted s b formScpWrite → c.len = 8 + 2 * fld p 2 2 →
      t.scpLocked n (fld p 1 1) (fld p 4 2) (fld p 2 2) = true → exec (.scpWrite b f) s =
      .next ((t.reply c 0x0201 [] none).sweep b)) ∧
    (Accepted s b formScpRead → f.failure ≠ 0 → f.failure ≠ 2 →
      ∃ u : State, exec (.scpRead b f) s = .next ((u.reply c 0x0501 (le 4 f.failure) none).sweep b) ∧ u.ctxs = t.ctxs ∧
        (n < t.sensors.length → (u.sensor n).scpErr = satInc 16 (t.sensor n).scpErr ∧ (u.sensor n).portState = 3)))) ∧
  (∀ (n : Nat) (c : Cmd) (x : Nanos) (rest : List (Cmd × Nanos)) (s : State), (s.sensor n).scpWait = (c, x) :: rest →
    (x + 10000000 ≤ s.now →
      exec (.scpWaitTimeout n) s = .next (((s.updSensor n fun x => { x with scpWait := rest }).reply c 0x0401 [] none).sweepList
        (s.rungAfter c))) ∧
    (s.now < x + 10000000 → exec (.scpWaitTimeout n) s = .next s))

/-- FS packets: one for a virtual channel that no context is bound to is counted; the first of a frame opens it; a further
shroud's FS of the open frame only joins it. A frame of a capturing context that finds a slot takes the next landing
sequence, the slot's address, both times of the FS and the generation; without a slot it is REFUSED_QUOTA and goes to the
refusal log. -/
def Obligations.FramesOpen : Prop :=
  (∀ (n vc : Nat) (k : Word) (s : State),
     exec (.oslFs n vc k) s = .next (((s.fsCloses n vc k).settle.fs n vc k).settle) ∧
     (s.delivers n = true →
       let sensor := (s.shroud n).sensorOf
       (s.ctxAt sensor vc = none ∨ s.openAt sensor vc = none → s.fsCloses n vc k = s) ∧
       (∀ c o, s.ctxAt sensor vc = some c → s.openAt sensor vc = some o →
         (o.number = k → o.fsFrom.contains n = false → s.fsCloses n vc k = s) ∧
         (o.number ≠ k ∨ o.fsFrom.contains n = true → s.fsCloses n vc k = s.closeFrame sensor vc 1)) ∧
       (s.ctxAt sensor vc = none → s.fs n vc k = s.updSensor sensor fun x => { x with unbound := satInc 16 x.unbound }) ∧
       (∀ c, s.ctxAt sensor vc = some c → s.openAt sensor vc = none →
         s.fs n vc k = (s.updSensor sensor fun x => { x with lastFs := k }).openFrame sensor vc n k c) ∧
       (∀ c o, s.ctxAt sensor vc = some c → s.openAt sensor vc = some o →
         s.fs n vc k = (s.updSensor sensor fun x => { x with lastFs := k }).updOpen sensor vc
           fun o => { o with fsFrom := o.fsFrom ++ [n] }))) ∧
  (∀ (c : Nat) (number : BitVec 32) (g : Bool) (s : State), c < s.ctxs.length → (s.ctx c).trigWait = none →
     s.landMode c = 0 → s.cfg.probation = none → (s.ctx c).counts.length = 16 →
     (∀ k, (s.ctx c).streamSlot = some k →
       let r := s.openRecord c number g
       r.1 = (s.ctx c).nextSeq ∧ r.2.1 = true ∧ (r.2.2.ctx c).nextSeq = (s.ctx c).nextSeq + 1 ∧
         (r.2.2.ctx c).lastSlot = some k ∧ (r.2.2.ctx c).counts.getD 0 0 = (s.ctx c).counts.getD 0 0 + 1 ∧
         ∃ f, (r.2.2.ctx c).frames.getLast? = some f ∧ f.seq = (s.ctx c).nextSeq ∧ f.number = number ∧ f.state = 0 ∧
           f.slot = some k ∧ f.addr = (s.ctx c).ringBase + k * (s.ctx c).slotSize ∧ f.fsTbm = s.time.tbm ∧
           f.genNumber = s.liveNumber) ∧
     ((s.ctx c).streamSlot = none →
       let r := s.openRecord c number g
       r.1 = (s.ctx c).nextSeq ∧ r.2.1 = false ∧ (r.2.2.ctx c).nextSeq = (s.ctx c).nextSeq + 1 ∧
         (r.2.2.ctx c).frames = (s.ctx c).frames ∧ (r.2.2.ctx c).counts.getD 2 0 = (s.ctx c).counts.getD 2 0 + 1 ∧
         ∃ f, (r.2.2.ctx c).refusalLog.head? = some f ∧ f.seq = (s.ctx c).nextSeq ∧ f.state = 2 ∧ f.reason = 1 ∧ f.slot = none))

/-- FE packets and the frame timeout: the last shroud's FE closes the frame, one without an open frame is stray, and the
timeout closes with cause 2. -/
def Obligations.FrameEndCloses : Prop :=
  (∀ (n vc : Nat) (k : Word) (s : State), s.delivers n = true →
    let sensor := (s.shroud n).sensorOf
    (s.ctxAt sensor vc).isSome = true →
    (s.openAt sensor vc = none → exec (.oslFe n vc k) s =
      .next (s.updSensor sensor fun x => { x with stray := satInc 8 x.stray }).settle) ∧
    (∀ o, s.openAt sensor vc = some o → o.number = k → o.feFrom.contains n = false → o.fsFrom.contains n = true →
      (s.shroudsOf sensor).all (fun m => m == n || o.feFrom.contains m) = true →
      exec (.oslFe n vc k) s = .next ((s.updOpen sensor vc fun o => { o with feFrom := o.feFrom ++ [n] }).closeFrame
        sensor vc 0).settle) ∧
    (∀ o, s.openAt sensor vc = some o → o.number ≠ k → (s.sensor sensor).lastClosed.contains (vc, k) = true →
      exec (.oslFe n vc k) s = .next (s.updSensor sensor fun x => { x with stray := satInc 8 x.stray }).settle)) ∧
  (∀ (c : Nat) (link : List Byte) (o : OpenFrame) (s : State), s.link c = some link →
    s.openAt (fld link 0 1) (fld link 1 1) = some o → o.ctx = c →
    let limit := 1000 * (if fld o.link 12 4 = 0 then 100000 else fld o.link 12 4)
    (o.openTbm + limit ≤ s.now → exec (.frameTimeout c) s = .next (s.closeFrame (fld link 0 1) (fld link 1 1) 2).settle) ∧
    (s.now < o.openTbm + limit → exec (.frameTimeout c) s = .next s)) ∧
  (∀ (sensor vc cause : Nat) (s : State), sensor < s.sensors.length → (s.closeFrame sensor vc cause).openAt sensor vc = none)

/-- Line, embedded and user packets of an open frame are placed; without one they are counted. Errors and markers of
packets each count in the sensor's registers. -/
def Obligations.PacketsArePlacedOrCounted : Prop :=
  (∀ (n c : Nat) (p : LongPacket) (s : State), s.delivers n = true → LongPacketBad p = false →
     let sensor := (s.shroud n).sensorOf
     s.ctxAt sensor p.vc = some c →
     (fld ((s.link c).getD []) 2 1 = p.dataType →
       (∀ o, s.openAt sensor p.vc = some o →
         exec (.oslLine n p) s = .next ((s.markerLine sensor n p).placeLine sensor n p o).settle) ∧
       (s.openAt sensor p.vc = none → exec (.oslLine n p) s =
         .next ((s.markerLine sensor n p).updSensor sensor fun x => { x with noFrame := satInc 8 x.noFrame }).settle)) ∧
     (∀ o, bit (fld ((s.link c).getD []) 3 1) 0 = true → s.openAt sensor p.vc = some o →
       exec (.oslEmbedded n p) s = .next (s.placeEmbedded sensor p.vc o p.payload false).settle) ∧
     (∀ o, bit (fld ((s.link c).getD []) 3 1) 1 = true → s.openAt sensor p.vc = some o →
       exec (.oslUser n p) s = .next (s.placeEmbedded sensor p.vc o p.payload true).settle)) ∧
  (∀ (n : Nat) (s : State), s.delivers n = true →
     let sensor := (s.shroud n).sensorOf
     exec (.orphan n) s = .next (s.updSensor sensor fun x => { x with orphan := x.orphan + 1 }) ∧
     exec (.hdrField n) s = .next (s.updSensor sensor fun x => { x with hdrField := satInc 8 x.hdrField }) ∧
     exec (.badHead n none) s = .next (s.updSensor sensor fun x => { x with badHead := satInc 8 x.badHead }).settle ∧
     exec (.hdrCrc n none) s =
       .next ((s.updSensor sensor fun x => { x with hdrCrc := satInc 16 x.hdrCrc }).flagAll sensor lfHeaderLost).settle ∧
     (∀ vc line c, s.ctxAt sensor vc = some c →
       (∃ t, exec (.oslLs n vc line) s = .next t ∧ t = { s with sensors := t.sensors } ∧
         (sensor < s.sensors.length → (t.sensor sensor).lsPending.head? = some (n, vc, line))) ∧
       (∃ t, exec (.oslLe n vc line) s = .next t ∧ t = { s with sensors := t.sensors } ∧
         (sensor < s.sensors.length → (t.sensor sensor).marker =
           if (s.sensor sensor).lastLine.any (fun y => y.1 == n && y.2.1 == vc && y.2.2 != line)
           then satInc 16 (s.sensor sensor).marker else (s.sensor sensor).marker))) ∧
     (∀ vc v c, s.ctxAt sensor vc = some c → sensor < s.sensors.length →
       ∃ t, exec (.oslStat n vc v) s = .next t ∧ (t.sensor sensor).lastStat = v ∧ t.ctxs = s.ctxs ∧ t.mem = s.mem))

/-- A row written into a slot: each tile column's piece of 8 × depth bytes stands in its tile, and no other byte changes. -/
def Obligations.RowsLieInTiles : Prop :=
  ∀ (master addr w d row : Nat) (bytes : List Byte) (s : State), 0 < d → s.mem.bytes.wf = true →
    (∀ x, x < tilesX w → ∀ i, i < 8 * d →
      (s.pageOf (addr + (row / 16 * tilesX w + x) * 128 * d + row % 16 * 8 * d + i)).isSome = true) →
    let t := s.storeRow master addr w d row bytes
    (∀ x, x < tilesX w →
      t.mem.bytes.readN (addr + (row / 16 * tilesX w + x) * 128 * d + row % 16 * 8 * d) (8 * d) = sub bytes (8 * d * x) (8 * d)) ∧
    (∀ a, (∀ x, x < tilesX w → a < addr + (row / 16 * tilesX w + x) * 128 * d + row % 16 * 8 * d ∨
        addr + (row / 16 * tilesX w + x) * 128 * d + row % 16 * 8 * d + 8 * d ≤ a) →
      t.mem.bytes.read a = s.mem.bytes.read a) ∧
    t = { s with mem := t.mem, ncp := t.ncp, vecs := t.vecs, obs := t.obs, free := t.free, outs := t.outs } ∧
      (∀ a, t.pageOf a = s.pageOf a)

/-! ## Contexts (chapter 09) -/

/-- CAP_START, CAP_STOP, CAP_TRIGGER and CAP_SNAP. -/
def Obligations.CaptureControl : Prop :=
  ∀ (b : Mbox) (s : State),
    let t := s.taken b
    let c := s.cmdIn b
    let p := c.payload
    (∀ k, Accepted s b formCapStart → t.maskCtxs p = some [k] → (t.ctx k).st = .stopped → (t.ctx k).stopPending = false →
      ∃ u : State, exec (.capStart b) s = .next ((u.ok c []).sweep b) ∧ u = { t with ctxs := u.ctxs } ∧
        (k < t.ctxs.length → u.ctx k = { t.ctx k with startPending := true }) ∧ (∀ j, j ≠ k → u.ctx j = t.ctx j)) ∧
    (∀ ks, Accepted s b formCapStart → t.maskCtxs p = some ks → (∃ k ∈ ks, (t.ctx k).st = .frozen) →
      exec (.capStart b) s = .next ((t.reply c 0x0401 [] none).sweep b)) ∧
    (∀ k, Accepted s b formCapStop → t.maskCtxs p = some [k] → (t.ctx k).st = .running → (t.ctx k).startPending = false →
      ∃ u : State, exec (.capStop b) s = .next ((u.ok c []).sweep b) ∧ u = { t with ctxs := u.ctxs } ∧
        (k < t.ctxs.length → u.ctx k = { t.ctx k with stopPending := true }) ∧ (∀ j, j ≠ k → u.ctx j = t.ctx j)) ∧
    (∀ ks, Accepted s b formCapTrigger → t.maskCtxs p = some ks → exec (.capTrigger b) s =
      .next (((t.triggerAll ks 0).2.ok c (le 8 (t.triggerAll ks 0).1 ++ le 8 ((t.triggerAll ks 0).2.now / 1000000000))).sweep b)) ∧
    (Accepted s b formCapSnap → t.hasLanding c.ctx = true → t.landMode c.ctx = 2 → 1 ≤ fld p 0 4 → fld p 0 4 ≤ 65535 →
      (t.ctx c.ctx).st = .running → (t.ctx c.ctx).snapOutstanding = false → fld p 0 4 ≤ (t.ctx c.ctx).freeSlots.length →
      exec (.capSnap b) s = .next (((t.updCtx c.ctx fun x =>
        { x with snapLeft := fld p 0 4, snapOpen := 0, snapLanded := 0, snapFirst := x.nextSeq }).ok c []).sweep b))

/-- A trigger reaches a BURST context: a RUNNING one with an open frame enters POST_TRIGGER with that frame as its trigger
frame; one already triggered only counts it. TRIG_IN triggers the contexts that name its pin and edge. -/
def Obligations.TriggersFreezeTheRing : Prop :=
  (∀ (c source : Nat) (f : Frame) (s : State), c < s.ctxs.length → s.landMode c = 1 → (s.inForce 0x0203 c).isSome = true →
    (s.ctx c).st = .running → (s.ctx c).frames.find? (fun f => f.state == 0) = some f →
    let r := s.trigger c source
    r.1 = true ∧ (r.2.ctx c).st = .postTrigger ∧ (r.2.ctx c).trigSeq = some f.seq ∧
      (r.2.ctx c).postLeft = fld (s.landBlock c) 8 4 + 1 ∧
      (r.2.ctx c).frames.map (·.seq) = (s.ctx c).frames.map (·.seq) ∧
      (∀ h ∈ (r.2.ctx c).frames, h.mode = 1 → h.oldRing = false → h.trigIndex = (h.seq - f.seq).toInt)) ∧
  (∀ (c source : Nat) (s : State), s.landMode c = 1 → (s.inForce 0x0203 c).isSome = true →
    (s.ctx c).st = .postTrigger ∨ (s.ctx c).st = .frozen →
    s.trigger c source = (false, s.updCtx c fun y => { y with counts := upd y.counts 6 (· + 1) })) ∧
  (∀ (pin hold : Nat) (rising : Bool) (s : State), s.running = true → pin < 4 → 20 ≤ hold →
    ∃ cs, exec (.trigInEdge pin rising hold) s = .next ((s.triggerAll cs (pin + 1)).2).settle ∧
      ∀ c, c ∈ cs ↔ c < 64 ∧ fld (s.landBlock c) 2 1 = pin + 1 ∧
        (fld (s.landBlock c) 3 1 = 2 ∨ fld (s.landBlock c) 3 1 = if rising then 0 else 1)) ∧
  (∀ (pin hold : Nat) (rising : Bool) (s : State), hold < 20 → s.running = true →
    exec (.trigInEdge pin rising hold) s = .next s.settle) ∧
  (∀ (c : Nat) (s : State), c < s.ctxs.length → ((s.freeze c).ctx c).st = .frozen ∧ ((s.freeze c).ctx c).postLeft = 0 ∧
    ((s.freeze c).ctx c).frames = (s.ctx c).frames)

/-- CAP_RELEASE, CAP_FRAME_RECORD, CAP_COUNTERS, and CAP_READ with the end of its host transfer. -/
def Obligations.CaptureReads : Prop :=
  ∀ (b : Mbox) (s : State),
    let t := s.taken b
    let c := s.cmdIn b
    let p := c.payload
    (Accepted s b formCapFrameRecord → t.hasLanding c.ctx = true → 1 ≤ fld p 4 4 → fld p 4 4 ≤ 127 →
      exec (.capFrameRecord b) s = .next ((t.reply c 0 [] (some ((List.range (fld p 4 4)).map (fun i =>
        (t.ctx c.ctx).recordBytes c.ctx (BitVec.ofNat 32 (fld p 0 4) + BitVec.ofNat 32 i))).flatten)).sweep b)) ∧
    (Accepted s b formCapCounters → t.hasLanding c.ctx = true → exec (.capCounters b) s =
      .next ((t.reply c 0 [] (some (((t.ctx c.ctx).counts.map (fun v => le 4 v.toNat)).flatten))).sweep b)) ∧
    (Accepted s b formCapRelease → t.hasLanding c.ctx = true → 1 ≤ fld p 4 4 → fld p 8 4 ≤ 1 →
      let hit (f : Frame) : Bool := f.state == 1 &&
        (fld p 4 4 == 0xFFFFFFFF || decide ((f.seq - BitVec.ofNat 32 (fld p 0 4)).toNat < fld p 4 4)) &&
        (f.mode == 2 || (f.mode == 1 && (t.ctx c.ctx).st == .frozen))
      exec (.capRelease b) s = .next ((((t.updCtx c.ctx fun y =>
        { y with frames := y.frames.map (fun f => if hit f then { f with state := 4 } else f) }).accept c c.ctx
          (fld p 8 4 :: ((t.ctx c.ctx).frames.filter hit).map (fun f => f.seq.toNat))).sweep b).settle)) ∧
    (∀ f r, Accepted s b formCapRead → bit t.policyFlags 3 = false → t.hasLanding c.ctx = true →
      (t.ctx c.ctx).record (BitVec.ofNat 32 (fld p 0 4)) = some f → fld p 4 1 ≤ 3 → fld p 4 1 = 3 ∨ fld p 5 1 = 0 →
      fld p 16 8 % 64 = 0 → (t.landMode c.ctx = 1 → (t.ctx c.ctx).st ≠ .running ∧ (t.ctx c.ctx).st ≠ .postTrigger) →
      f.state = 1 ∨ f.state = 4 → t.readPlan f (fld p 4 1) (fld p 5 1) = some r →
      1 ≤ fld p 12 4 → fld p 8 4 + fld p 12 4 ≤ r.total → fld p 12 4 * r.size ≤ 268435456 →
      exec (.capRead b) s = .next (((t.accept c c.ctx [f.seq.toNat, fld p 4 1, fld p 5 1, fld p 8 4, fld p 12 4, fld p 16 8]).holdRead
        c.ctx f.seq (fld p 4 1) (fld p 5 1) (· + 1)).sweep b))

/-! ## LUTs, encoders, Barrel and the review decoder (chapters 11 to 14) -/

/-- A loaded LUT unit is ready; ENC_FORCE_IRAP asks an HEVC encoding for a refresh, ENC_PICTURE_RECORD reads records, a
missing one as 0xFFFF_FFFF; Barrel's four commands. -/
def Obligations.ColourEncoderAndBarrelCommands : Prop :=
  ((∀ (unit : Nat) (s : State), exec (.lut3dLoaded unit) s =
     .next { s with luts := upd s.luts unit (fun u => if u.st = 1 then { u with st := 2 } else u) }) ∧
   (∀ (b : Mbox) (s : State),
     let t := s.taken b
     let c := s.cmdIn b
     let p := c.payload
     let e := fld p 0 1
     (Accepted s b formEncForceIrap → t.liveEnc e = some 1 → exec (.encForceIrap b) s =
       .next (((t.updEnc e fun x => { x with refresh := if x.refresh = 0 then 1 else min x.refresh 1 }).ok c []).sweep b)) ∧
     (Accepted s b formEncForceIrap → t.liveEnc e ≠ some 1 → exec (.encForceIrap b) s =
       .next ((t.reply c 0x0103 (le 4 32) none).sweep b)) ∧
     (Accepted s b formEncPictureRecord → (t.liveEnc e).isSome = true → 1 ≤ fld p 2 2 → fld p 2 2 ≤ 255 →
       exec (.encPictureRecord b) s = .next ((t.reply c 0 [] (some ((List.range (fld p 2 2)).map (fun i =>
         (((t.enc e).records.find? (fun r => r.1 == (fld p 4 4 + i) % 2 ^ 32)).map (·.2)).getD
           (le 4 0xFFFFFFFF ++ zeros 60))).flatten)).sweep b)))) ∧
  (∀ (b : Mbox) (s : State),
     let t := s.taken b
     let c := s.cmdIn b
     let p := c.payload
     let n := fld p 0 1
     let modeOk := (fld p 1 1 = 0 ∧ 1 ≤ fld p 3 1 ∧ fld p 3 1 ≤ 3) ∨ (fld p 1 1 = 1 ∧ fld p 3 1 = 0)
     let fresh : BrlCtx :=
       { BrlCtx.reset with isOpen := true, mode := fld p 1 1, wrapper := fld p 2 1, level := fld p 3 1,
                           check := if fld p 2 1 = 1 then 1 else 0, inf := Inflate.start (fld p 2 1),
                           queue := if fld p 1 1 = 0 then byteWords (wrapHeader (fld p 2 1) (fld p 3 1)) else [] }
     (Accepted s b formBrlOpen → modeOk → fld p 2 1 ≤ 2 → n < 64 → (t.brlCtx n).isOpen = false →
       exec (.brlOpen b) s = .next (((t.updBrl n fun _ => fresh).ok c (le 1 n)).sweep b)) ∧
     (∀ k, Accepted s b formBrlOpen → modeOk → fld p 2 1 ≤ 2 → n = 0xFF → k < 64 → (t.brlCtx k).isOpen = false →
       (∀ j, j < k → (t.brlCtx j).isOpen = true) →
       exec (.brlOpen b) s = .next (((t.updBrl k fun _ => fresh).ok c (le 1 k)).sweep b)) ∧
     (n < 64 → (t.brlCtx n).isOpen = true →
       (Accepted s b formBrlSubmit → fld p 1 1 ≤ 1 → fld p 4 4 ≤ 268435456 → 1 ≤ fld p 16 4 → fld p 16 4 ≤ 268435456 →
         (t.brlCtx n).pending = false → (t.brlCtx n).st ≠ 3 →
         ∃ u : State, exec (.brlSubmit b) s = .next (u.sweep b).settle ∧ (u.brlCtx n).st = (t.brlCtx n).st ∧
           (n < t.brl.length → (u.brlCtx n).pending = true) ∧ (u.jobs.length = t.jobs.length + 1) ∧ u.cfg = t.cfg ∧
           u.mem = t.mem ∧ (∃ j, j ∈ u.jobs ∧ j.object = n ∧ j.kind = .barrel ∧ j.cls = 6)) ∧
       (Accepted s b formBrlClose → (t.brlCtx n).pending = false → exec (.brlClose b) s =
         .next (((t.updBrl n fun _ => BrlCtx.reset).ok c []).sweep b)) ∧
       (Accepted s b formBrlClose → (t.brlCtx n).pending = true → exec (.brlClose b) s =
         .next ((t.reply c 0x0401 [] none).sweep b)) ∧
       (Accepted s b formBrlReadContext → (t.brlCtx n).st ≠ 3 → exec (.brlReadContext b) s =
         .next ((t.reply c 0 [] (some ((t.brlCtx n).header n))).sweep b)) ∧
       (Accepted s b formBrlReadContext → (t.brlCtx n).st = 3 → exec (.brlReadContext b) s =
         .next ((t.reply c 0x0204 [] none).sweep b))))

/-- The decoder's commands, each on a stream of the LIVE generation; the end of a command's host transfer, the expiry of a
picture's cycle budget, and the flush that has nothing to wait for. -/
def Obligations.DecoderCommandsAndTransfers : Prop :=
  (∀ (b : Mbox) (s : State),
     let t := s.taken b
     let c := s.cmdIn b
     let p := c.payload
     let n := fld p 0 1
     let k := fld p 1 1
     t.liveDec n = true →
     (Accepted s b formDecSubmit → (t.dec n).entry.isSome = true → 1 ≤ fld p 4 4 →
       fld p 4 4 ≤ fld (t.dec n).ent 12 4 * 1024 → (t.submissions n).length < 16 →
       t.decRing n + fld p 4 4 ≤ fld (t.dec n).ent 12 4 * 1024 → exec (.decSubmit b) s =
       .next ((((t.accept c n [(t.dec n).next, fld p 4 4, if fld p 16 4 = 0 then 0 else t.now + 1000 * fld p 16 4 + 1]).updDec n
         fun d => { d with next := ((t.dec n).next + 1) % 2 ^ 32 }).out (.hostRead (fld p 8 8) (fld p 4 4))).sweep b)) ∧
     (Accepted s b formDecSubmit → (t.dec n).entry.isSome = true → 1 ≤ fld p 4 4 →
       fld p 4 4 ≤ fld (t.dec n).ent 12 4 * 1024 → 16 ≤ (t.submissions n).length →
       exec (.decSubmit b) s = .next ((t.reply c 0x0401 [] none).sweep b)) ∧
     (Accepted s b formDecFlush → exec (.decFlush b) s = .next (((t.accept c n []).pumpFlush n).sweep b)) ∧
     (Accepted s b formDecRestart → t.submissions n = [] → exec (.decRestart b) s =
       .next (((t.updDec n fun d =>
         { d with store := [], awaitIrap := true, slots := d.slots.map (fun v => if v = 1 then 0 else v) }).ok c []).sweep b)) ∧
     (Accepted s b formDecRelease → (t.dec n).slots.getD k 0 = 2 → (t.dec n).slotReleased.getD k false = false →
       exec (.decRelease b) s = .next (((t.giveBack n k).ok c []).sweep b)) ∧
     (Accepted s b formDecRecord → 1 ≤ fld p 2 2 → fld p 2 2 ≤ 255 → exec (.decRecord b) s =
       .next ((t.reply c 0 [] (some ((List.range (fld p 2 2)).map (fun i =>
         (((t.dec n).records.find? (fun r => r.1 == (fld p 4 4 + i) % 2 ^ 32)).map (·.2)).getD
           (le 4 0xFFFFFFFF ++ zeros 60))).flatten)).sweep b)) ∧
     (n < t.decs.length → k < (t.dec n).slots.length → k < (t.dec n).slotReleased.length →
       ((t.dec n).slotReads.getD k 0 = 0 → (∀ x ∈ t.streams, x.sending = none) → (∀ j ∈ t.jobs, j.kind ≠ .outUnit) →
         ((t.giveBack n k).dec n).slots.getD k 2 = 0) ∧
       ((t.dec n).slotReads.getD k 0 ≠ 0 → ((t.giveBack n k).dec n).slots = (t.dec n).slots ∧
         ((t.giveBack n k).dec n).slotReleased.getD k false = true)) ∧
     (Accepted s b formDecRead → (t.dec n).slots.getD k 0 = 2 → 1 ≤ fld p 8 4 →
       fld p 4 4 + fld p 8 4 ≤ decTilesX (t.dec n).ent * decTilesY (t.dec n).ent → fld p 8 4 ≤ 131072 → fld p 16 8 % 64 = 0 →
       exec (.decRead b) s = .next (((t.accept c n [k, fld p 4 4, fld p 8 4]).updDec n fun d =>
         { d with slotReads := upd d.slotReads k (· + 1) }).sweep b))) ∧
  ((∀ (b : Mbox) (f : DmaFacts) (e : ExecCmd) (s : State), s.ncp.exec.find? (fun e => e.cmd.box == b) = some e →
     let whole := f.complete && s.ep.bme && s.ep.st == 6 && !e.cut
     let r := s.countLink 0x0F f.bytes { privilege := some 0, master := some 0x6A }
     (e.cmd.opcode = 0x0407 → exec (.hostDmaDone b f) s = .next (s.endCapRead e f whole).settle) ∧
     (e.cmd.opcode = 0x0A06 → exec (.hostDmaDone b f) s = .next (s.endDecRead e f whole).settle) ∧
     (e.cmd.opcode = 0x0A01 → s.jobs = [] → exec (.hostDmaDone b f) s =
       .next (if whole then r.cutPicture e f.luma (fit (e.arg 1) f.data) else r.endSubmit e 0xC).settle) ∧
     (e.cmd.opcode = 0x0B02 → whole = true → exec (.hostDmaDone b f) s = .next r.settle) ∧
     (∀ j, e.cmd.opcode = 0x0B02 → whole = false →
       s.jobs.find? (fun j => j.kind == .barrel && j.object == e.key && j.st == .running) = some j →
       exec (.hostDmaDone b f) s = .next (r.endJob j (fun s => (0x0501, [], s))).settle) ∧
     (e.cmd.opcode = 0x0507 ∨ e.cmd.opcode = 0x0508 → exec (.hostDmaDone b f) s =
       .next ((if e.args.headD 0 = 0 then r else s).hostCopied e whole f.data).settle)) ∧
   (∀ (tag : Nat) (f : DecFacts) (j : Job) (s : State), s.byTag tag = some j → j.st = .running → j.kind = .decPicture →
     (j.runTbm + s.decBudget j ≤ s.now → exec (.decodeBudgetExpiry tag f) s = .next (s.endJob j (fun s =>
       ((s.runDecode j f true JobFacts.empty).1, [], (s.runDecode j f true JobFacts.empty).2))).settle) ∧
     (s.now < j.runTbm + s.decBudget j → exec (.decodeBudgetExpiry tag f) s = .next s)) ∧
   (∀ (n : Nat) (s : State), n < s.decs.length → s.executing 0x0A02 n ≠ [] → s.submissions n = [] →
     ((s.pumpFlush n).dec n).store = [] ∧ ((s.pumpFlush n).dec n).awaitIrap = true ∧ (s.pumpFlush n).cfg = s.cfg))

/-! ## Recording, drives and outputs (chapter 14) -/

/-- The commands of recording. -/
def Obligations.RecordingCommands : Prop :=
  ∀ (b : Mbox) (s : State),
    let t := s.taken b
    let c := s.cmdIn b
    let p := c.payload
    let n := fld p 0 1
    let x := t.stream n
    (t.liveRecord n = true →
      (Accepted s b formRecStart → t.sealDisabled = false → x.encrypt = false ∨ t.recipientsOk x = true → x.takeOpen = false →
        exec (.recStart b) s = .next ((((t.openTake n).ok c (le 4 ((t.openTake n).stream n).take)).sweep b).settle)) ∧
      (Accepted s b formRecStart → t.sealDisabled = true → exec (.recStart b) s =
        .next ((t.reply c 0x0301 [] none).sweep b).settle) ∧
      (Accepted s b formRecStop → x.takeOpen = true → x.stopAtFs = false → exec (.recStop b) s =
        .next (((t.accept c n []).updStream n fun y =>
          { y with stopAtFs := true, st := if y.st == .stalled then .stalled else .stopping }).sweep b).settle) ∧
      (Accepted s b formRecStop → x.takeOpen = false → exec (.recStop b) s =
        .next ((t.reply c 0 (le 8 x.lastResult.1 ++ le 4 x.lastResult.2) none).sweep b).settle) ∧
      (∀ gs, Accepted s b formRecGrant → fld p 1 1 ≤ 1 → 1 ≤ fld p 2 2 → fld p 2 2 ≤ 512 → c.len = 8 + 24 * fld p 2 2 →
        t.grantList x (fld p 1 1 == 1) 8 (entriesFrom p 8 24 (fld p 2 2)) [] = .inr gs →
        (x.grants.filter Grant.isOut).length + fld p 2 2 ≤ 1024 →
        exec (.recGrant b) s = .next (((({ t with nextGrant := t.nextGrant + fld p 2 2 } : State).updStream n fun y =>
          { y with grants := y.grants ++ gs }).ok c (le 4 t.nextGrant)).sweep b).settle) ∧
      (∀ g, Accepted s b formRecRevoke → g ∈ x.grants → g.isOut = true → fld p 4 4 = g.id → g.id ≠ 0xFFFFFFFF →
        (∀ h, h ∈ x.grants → h.id = g.id → h = g) → x.grants.count g = 1 →
        ∃ u : State, exec (.recRevoke b) s = .next ((u.accept c n [g.count - g.used, g.id]).sweep b).settle ∧
          u = { t with streams := u.streams } ∧ (n < t.streams.length → u.stream n =
            { x with grants := x.grants.map (fun h => if h.id = g.id then { h with count := h.used } else h) })) ∧
      (Accepted s b formRecReport → 1 ≤ fld p 2 2 → fld p 2 2 ≤ 340 → exec (.recReport b) s =
        .next ((t.reply c 0 [] (some (le 4 ((t.nv.reports.getD n []).take (fld p 2 2)).length ++ le 4 0 ++
          ((t.nv.reports.getD n []).take (fld p 2 2)).flatten))).sweep b)) ∧
      (Accepted s b formRecAck → exec (.recAck b) s =
        .next (((t.updNv fun y => { y with reports := upd y.reports n (fun es => es.filter (fun e => fld p 4 4 < fld e 28 4)) }).ok
          c []).sweep b).settle)) ∧
    (t.livePort n = true → (t.drive n).st = .ready →
      (Accepted s b formRecAdmin → fld p 4 4 ≤ 65536 → adminBarred p = false → adminGuarded p = false →
        exec (.recAdmin b) s = .next ((t.startHost c n).sweep b)) ∧
      (Accepted s b formRecIo → fld p 1 1 = 0 → fld p 16 4 * t.lba n (fld p 4 4) ≤ 16777216 →
        exec (.recIo b) s = .next ((t.startHost c n).sweep b)) ∧
      (Accepted s b formRecIo → fld p 1 1 = 1 → (t.grantsOn n).any (fun g => g.meets (fld p 4 4) (fld p 8 8) (fld p 16 4)) = false →
        exec (.recIo b) s = .next ((t.startHost c n).sweep b)) ∧
      (Accepted s b formRecPortReset → exec (.recPortReset b) s =
        .next (((t.accept c n []).portReset n none).sweep b).settle)) ∧
    (x.encrypt = false → n < t.streams.length →
      let u := t.openTake n
      (u.stream n).takeOpen = true ∧ (u.stream n).st = .running ∧ (u.stream n).take = t.nv.takeNumbers.getD n 0 + 1 ∧
        (u.stream n).sealRecs.length = 1 ∧ (∀ m, m ≠ n → u.stream m = t.stream m) ∧ u.mem = t.mem ∧ u.cfg = t.cfg)

/-- What the drives do: a durable flush, an identified controller and its namespaces in turn, an answer to the host's command, the end of a reset,
and the timeout of a command, which resets the controller. What leaves in time order: a segment after 1 s, a manifest that
Cask has signed, the first line of a tile row of an output, whose released unit a job of class C1 sends, or else the gap policy
acts, and the head unit of a reorder stage that has not completed in
time. -/
def Obligations.DrivesSegmentsAndLines : Prop :=
  ((∀ (port : Nat) (f : NvmeFacts) (x : NvmeCmd) (s : State), (s.drive port).cmds.find? (fun y => y.id == f.cmd) = some x →
     f.cfs = false →
     let gone := s.updDrive port fun d => { d with cmds := d.cmds.filter (fun y => y.id != x.id), idleSince := s.now }
     (x.op = 1 → exec (.nvmeCompletion port f) s = .next ((gone.writeDone port x f).pumpHost port).settle) ∧
     (x.op = 2 → f.ok = true → exec (.nvmeCompletion port f) s =
       .next ((each (List.range 32) (fun n s => s.writesDurable n x.id) gone).pumpHost port).settle) ∧
     (x.op = 2 → f.ok = false → exec (.nvmeCompletion port f) s =
       .next ((gone.portReset port (some f.statusField)).pumpHost port).settle) ∧
     ((s.drive port).st = .init → port < s.drives.length →
       (x.op = 6 → f.ok = true → f.nvmSet = true → exec (.nvmeCompletion port f) s =
         .next (((gone.updDrive port fun d => { d with nn := f.nn, mdts := f.mdts, ioQueue := min 1024 (f.mqes + 1) }).nextNamespace
           port 1).pumpHost port).settle) ∧
       (x.op = 6 → f.ok = false ∨ f.nvmSet = false → exec (.nvmeCompletion port f) s =
         .next ((gone.portEnds port false).pumpHost port).settle) ∧
       (x.op = 7 → f.ok = true → exec (.nvmeCompletion port f) s =
         .next (((gone.updDrive port fun d => { d with formats := d.formats ++ [(x.nsid, f.lbaSize)] }).nextNamespace port
           (x.nsid + 1)).pumpHost port).settle) ∧
       (x.op = 7 → f.ok = false → exec (.nvmeCompletion port f) s = .next ((gone.portEnds port false).pumpHost port).settle)) ∧
     (x.op = 3 ∨ x.op = 4 ∨ x.op = 5 → exec (.nvmeCompletion port f) s = .next ((gone.hostEnds port x f).pumpHost port).settle)) ∧
   (∀ (port k : Nat) (s : State),
     (k ≤ (s.drive port).nn → s.nextNamespace port k = s.nvmeCmd port 7 0xFF false 0 0 k 0 0 []) ∧
     ((s.drive port).nn < k → s.nextNamespace port k = s.portEnds port true)) ∧
   (∀ (port : Nat) (s : State),
     let late (x : NvmeCmd) : Bool := decide (x.tbm + 1000000 * (s.stream x.stream).timeoutMs ≤ s.now)
     ((s.drive port).cmds.any late = true → exec (.nvmeCommandTimeout port) s =
       .next ((s.updDrive port fun d => { d with timeouts := satInc 8 d.timeouts }).portReset port (some 0)).settle) ∧
     ((s.drive port).cmds.any late = false → exec (.nvmeCommandTimeout port) s = .next s.settle)) ∧
   (∀ (port : Nat) (fault : Option Nat) (s : State), port < s.drives.length →
     let u := s.portReset port fault
     (u.drive port).st = .resetting ∧ (u.drive port).cmds = [] ∧ (u.drive port).resets = satInc 8 (s.drive port).resets ∧
       (u.drive port).timeouts = (s.drive port).timeouts ∧ u.mem = s.mem ∧ u.cfg = s.cfg) ∧
   (∀ (port : Nat) (s : State), port < s.drives.length → (s.drive port).st = .resetting →
     ((s.drive port).formats ≠ [] → exec (.controllerResetDone port true) s = .next (s.portEnds port true).settle) ∧
     ((s.drive port).formats = [] → exec (.controllerResetDone port true) s = .next (s.bringUp port).settle) ∧
     exec (.controllerResetDone port false) s = .next ((s.portEnds port false).driveFault port 0).settle) ∧
   (∀ (port : Nat) (ok : Bool) (s : State), port < s.drives.length →
     let u := s.portEnds port ok
     (u.drive port).st = (if ok then .ready else .failed) ∧ (u.drive port).idleSince = s.now ∧
       (∀ q, q ≠ port → u.drive q = s.drive q) ∧ u.streams = s.streams ∧ u.mem = s.mem)) ∧
  ((∀ (n : Nat) (g : Segment) (s : State), n < s.streams.length → (s.stream n).segment = some g → g.bytes ≠ 0 →
     (g.tbmFirst + 1000000000 ≤ s.now → exec (.segmentTimeClose n) s = .next (s.closeSegment n 1).settle) ∧
     (s.now < g.tbmFirst + 1000000000 → exec (.segmentTimeClose n) s = .next s) ∧
     ∀ cause, let u := s.closeSegment n cause
       (u.stream n).segment = none ∧ u.trust.sealQueue = s.trust.sealQueue ++ [n] ∧ u.jobs.length = s.jobs.length + 1 ∧
         u.ctxs = s.ctxs ∧ u.cfg = s.cfg ∧ u.mem = s.mem) ∧
   (∀ (j : Job) (s : State), s.jobs.find? (fun j => j.kind == .caskManifest && j.st == .running) = some j →
     exec .manifestSigned s = .next (s.endJob j (fun s => (0, [], s.signNext))).settle) ∧
   (∀ (n : Nat) (r : SealRec) (rest : List Nat) (s : State), s.trust.sealQueue = n :: rest → n < s.streams.length →
     (s.stream n).unsigned = some r → n < s.nv.manifestHash.length →
     let t := s.signNext
     t.trust.sealQueue = rest ∧ t.trust.signatures = s.trust.signatures + 1 ∧
       (∃ whole, whole.length = (put r.bytes 256 (s.nv.manifestHash.getD n (zeros 64))).length + 4627 ∧
         t.nv.manifestHash.getD n [] = sha3 whole ∧
         ∀ y ∈ (s.stream n).sealRecs, y.index = r.index → y.kind = 2 →
           { y with bytes := whole, signed := true } ∈ (t.stream n).sealRecs)) ∧
   (∀ (n k row : Nat) (s : State), n < s.streams.length → (s.stream n).isOutput = true → (s.stream n).type ≠ 2 →
     (s.stream n).sending = some (k, row) →
     let u := s.firstLine n
     exec (.firstLineDue n) s = .next u.settle ∧
       (u.stream n).sending = (if row + 1 < s.outRows (s.stream n) k then some (k, row + 1) else none) ∧
       (∀ r, (s.stream n).ready.find? (fun r => r.1 == k && r.2.2.testBit row) = some r →
         (u.stream n).gaps = (s.stream n).gaps ∧ u.jobs.length = s.jobs.length + 1 ∧
           ∃ j ∈ u.jobs, j.kind = .outUnit ∧ j.object = n ∧ j.unit = row ∧ j.cls = 1) ∧
       ((s.stream n).ready.find? (fun r => r.1 == k && r.2.2.testBit row) = none →
         (u.stream n).gaps = (s.stream n).gaps + 1 ∧ u.jobs = s.jobs ∧
           ((s.stream n).type = 3 →
             .lines n row (if fld (s.stream n).ent 5 1 = 0 ∧ (s.stream n).lastSent.isSome then 1 else 2) ∈ u.outs))) ∧
   (∀ (n : Nat) (u : StreamUnit) (rest : List StreamUnit) (s : State), (s.stream n).units = u :: rest → u.done = false →
     (∀ j, s.job u.job = some j → j.kind ≠ .hevcRow) → (s.stream n).headSince + 1000000 * (s.stream n).headTimeoutMs ≤ s.now →
     exec (.headTimeout n) s = .next (((s.updStream n fun t => { t with units := rest, headSince := s.now }).releaseUnit n
       { u with done := true, gap := 0x0405, status := 0x0405 }).settle)))

/-! ## Capture memory (chapter 15) -/

/-- A refresh of a ready pseudo-channel precharges its open rows, takes over its stack's hot mode and counts, the retuning
counts for each ready one, and the three commands read. -/
def Obligations.CaptureMemoryRows : Prop :=
  (∀ (k : Nat) (s : State), k < 128 → s.mem.pchans.length = 128 → s.mem.hbm.length = 4 → (s.pchan k).ready = true →
    ∃ t, exec (.refresh k) s = .next t ∧
      t = { s with mem := t.mem, ncp := t.ncp, vecs := t.vecs, obs := t.obs, free := t.free, outs := t.outs } ∧
      (s.obs.set = none → t.ncp = s.ncp ∧ t.vecs = s.vecs ∧ t.obs = s.obs ∧ t.outs = s.outs) ∧ (t.pchan k).rows = [] ∧
      (t.pchan k).refreshes = (s.pchan k).refreshes + 1 ∧ (t.pchan k).hot = (s.hbm (k / 32)).hot ∧
      (s.pchan k).landerPeak ≤ (t.pchan k).landerPeak ∧ (∀ j, j ≠ k → t.pchan j = s.pchan j) ∧ t.mem.bytes = s.mem.bytes) ∧
  (∀ (k : Nat) (s : State), (s.pchan k).ready = false → exec (.refresh k) s = .next s) ∧
  (∀ s : State, exec .timingRetune s = .next { s with mem :=
    { s.mem with pchans := s.mem.pchans.map (fun p => if p.ready then { p with retuned := p.retuned + 1 } else p) } }) ∧
  (∀ (b : Mbox) (s : State),
    let t := s.taken b
    let c := s.cmdIn b
    let p := c.payload
    (∀ x, Accepted s b formMemLocate → t.locate (fld p 0 8) = some x → exec (.memLocate b) s =
      .next ((t.reply c 0 (x.bytes (fld p 0 8 % 2097152)) none).sweep b)) ∧
    (Accepted s b formMemLocate → t.locate (fld p 0 8) = none → exec (.memLocate b) s =
      .next ((t.reply c 0x0103 (le 4 32) none).sweep b)) ∧
    (Accepted s b formMemTrainLog → fld p 0 1 < 4 → fld p 1 1 < 32 → exec (.memTrainLog b) s =
      .next ((t.reply c 0 [] (some (t.pchan (32 * fld p 0 1 + fld p 1 1)).trainLog)).sweep b)) ∧
    (Accepted s b formMemTrainLog → fld p 0 1 < 4 → fld p 1 1 = 0xFF → exec (.memTrainLog b) s =
      .next ((t.reply c 0 [] (some ((List.range 32).map (fun i =>
        (t.pchan (32 * fld p 0 1 + i)).trainLog)).flatten)).sweep b)) ∧
    (Accepted s b formMemRetired → 1 ≤ fld p 4 2 → fld p 4 2 ≤ 1023 → exec (.memRetired b) s =
      .next ((t.reply c 0 [] (some (le 4 ((t.nv.memLog.drop (fld p 0 4)).take (fld p 4 2)).length ++ le 4 0 ++
        ((t.nv.memLog.drop (fld p 0 4)).take (fld p 4 2)).flatten))).sweep b)))

/-! ## Flex lanes and the host link (chapter 16) -/

/-- The three commands of flex lanes, for root ports, Ethernet ports and the endpoint; a margin scan and its end. -/
def Obligations.FlexCommandsAndMargins : Prop :=
  (∀ (b : Mbox) (s : State),
    let t := s.taken b
    let c := s.cmdIn b
    let y := fld c.payload 0 1
    let k := fld c.payload 1 1
    (Accepted s b formFlxLinkInfo → y = 0 → k = 0 → exec (.flxLinkInfo b) s =
      .next ((t.reply c 0 (le 4 t.regEpStatus ++ le 4 t.ep.trainUs ++ le 4 (t.marginWord t.ep.margin t.ep.marginTbm)) none).sweep
        b)) ∧
    (Accepted s b formFlxLinkInfo → 1 ≤ y → y ≤ 7 → k ≤ 3 → (t.yard y).mode ≠ 4 → exec (.flxLinkInfo b) s =
      .next ((t.reply c 0 (le 4 (t.regPortStatus y k) ++ le 4 (t.port y k).trainUs ++
        le 4 (t.marginWord (t.port y k).margin (t.port y k).marginTbm)) none).sweep b)) ∧
    (Accepted s b formFlxMargin → y = 0 → k = 0 → t.ep.st = 6 → exec (.flxMargin b) s =
      .next (((t.accept c k []).updEp fun e => { e with scanning := true }).sweep b)) ∧
    (Accepted s b formFlxMargin → 1 ≤ y → y ≤ 7 → t.flexPortAt y k = true → (t.port y k).st = 6 → exec (.flxMargin b) s =
      .next (((t.accept c (16 * y + k) []).updPort y k fun x => { x with scanning := true }).sweep b)) ∧
    (Accepted s b formFlxMargin → 1 ≤ y → y ≤ 7 → t.flexPortAt y k = true → (t.port y k).st ≠ 6 → exec (.flxMargin b) s =
      .next (((t.accept c (16 * y + k) []).finishAll 0x0E02 (16 * y + k) 0x0501 [] none).sweep b)) ∧
    (Accepted s b formFlxRetrain → 1 ≤ y → y ≤ 7 → t.flexPortAt y k = true → (t.yard y).mode ≠ 3 →
      (t.port y k).perstHeld = false → exec (.flxRetrain b) s =
      .next (((t.accept c (16 * y + k) [t.now]).updPort y k fun x =>
        { x with st := if x.st = 6 ∨ x.st = 8 ∨ x.st = 7 then 7 else 2, holdSince := t.now }).sweep b)) ∧
    (Accepted s b formFlxRetrain → 1 ≤ y → y ≤ 7 → t.flexPortAt y k = true → (t.yard y).mode = 3 → (t.port y k).st ≠ 6 →
      exec (.flxRetrain b) s = .next (((t.accept c (16 * y + k) [t.now]).updPort y k fun x =>
        { x with st := if x.st = 6 then 9 else 2 }).sweep b)) ∧
    (Accepted s b formFlxRetrain → 1 ≤ y → y ≤ 7 → t.flexPortAt y k = true → (t.yard y).mode = 3 → (t.port y k).st = 6 →
      exec (.flxRetrain b) s = .next ((((t.accept c (16 * y + k) [t.now]).updPort y k fun x =>
        { x with st := if x.st = 6 then 9 else 2 }).linkDown y k (t.port y k).port 9).sweep b))) ∧
  (∀ s : State, ∃ t, exec .flexMarginScan s = .next t ∧ t = { s with ep := t.ep, yards := t.yards } ∧
    t.ep = { s.ep with scanning := s.ep.scanning || s.ep.st == 6 } ∧
    ∀ y k, y < s.yards.length → k < (s.yard (y + 1)).ports.length → t.port (y + 1) k =
      { s.port (y + 1) k with
        scanning := (s.port (y + 1) k).scanning || ((s.port (y + 1) k).port.isSome && (s.port (y + 1) k).st == 6) }) ∧
  (∀ (f : MarginFacts) (a v : Nat) (as vs : List Nat) (s : State), f.timing = a :: as → f.voltage = v :: vs →
    (s.ep.scanning = true → ∃ t, exec (.flexMarginDone 0 0 f) s = .next t ∧ t.ep.scanning = false ∧
      t.ep.margin = (as.foldl min a, vs.foldl min v) ∧ t.ep.marginTbm = some s.now ∧ t.yards = s.yards) ∧
    (∀ y k, 1 ≤ y → y ≤ s.yards.length → (s.port y k).scanning = true →
      ∃ t, exec (.flexMarginDone y k f) s = .next t ∧ (t.port y k).scanning = false ∧
        (t.port y k).margin = (as.foldl min a, vs.foldl min v) ∧ (t.port y k).marginTbm = some s.now ∧ t.ep = s.ep))

/-- What links do: root ports, Ethernet ports and the endpoint come up, fall, and start again. Errors of a flex port count
always; above 1000 corrected or with an uncorrected one, at most once per second, they raise the event and an entry of
class 6. -/
def Obligations.LinksComeAndGo : Prop :=
  (∀ s : State,
     (∀ p, let y := rootYard p
       let k := rootSlot p
       (s.yard y).mode = 2 → (s.port y k).port = some p →
       (∀ f : LinkFacts, 2 ≤ (s.port y k).st → (s.port y k).st ≤ 5 → s.flexRetired y k = false →
         (fld (s.slotIn y k) 4 1 ≤ f.rate → fld (s.slotIn y k) 5 1 ≤ f.width →
           let u := s.linkActive p f
           exec (.linkActive p f) s = .next u.settle ∧ (u.port y k).st = 6 ∧ (u.port y k).rate = f.rate ∧
             (u.port y k).width = f.width ∧ (u.port y k).trainUs = f.micros ∧ (u.port y k).degraded = false ∧
             (p < s.drives.length → (s.drive p).st = .absent → (u.drive p).st = .init)) ∧
         (f.rate < fld (s.slotIn y k) 4 1 ∨ f.width < fld (s.slotIn y k) 5 1 →
           let u := s.linkActive p f
           exec (.linkActive p f) s = .next u.settle ∧
             ((s.port y k).retried = false → (u.port y k).st = 7 ∧ (u.port y k).retried = true ∧ u.drives = s.drives) ∧
             ((s.port y k).retried = true → (u.port y k).st = 6 ∧ (u.port y k).degraded = true))) ∧
       ((s.port y k).holdSince + 1000000000 ≤ s.now → s.executing 0x0E03 (16 * y + k) = [] →
         (2 ≤ (s.port y k).st → (s.port y k).st ≤ 5 →
           ∃ t, exec (.portRetryDetect p) s = .next t ∧ t = { s with yards := t.yards } ∧ (t.port y k).st = 0xA) ∧
         ((s.port y k).st = 0xA → exec (.portRetryDetect p) s =
           .next (s.updPort y k fun x => { x with st := 2, retried := false, holdSince := s.now }))) ∧
       (s.now < (s.port y k).holdSince + 1000000000 → exec (.portRetryDetect p) s = .next s) ∧
       ((s.port y k).st = 6 → (s.drive p).cmds = [] →
         ((s.drive p).idleSince + 100000 ≤ s.now → exec (.l1Entry p) s =
           .next (if bit (fld (s.slotIn y k) 6 1) 1 then s.updPort y k fun x => { x with st := 8 } else s)) ∧
         (s.now < (s.drive p).idleSince + 100000 → exec (.l1Entry p) s = .next s)) ∧
       ((s.port y k).st = 7 → s.executing 0x0E03 (16 * y + k) = [] →
         ((s.port y k).holdSince + 100000000 ≤ s.now →
           ∃ u : State, exec (.recoveryTimeout p) s = .next u.settle ∧ (u.port y k).st = 0xA ∧
             (u.port y k).linkDowns = satInc 16 (s.port y k).linkDowns) ∧
         (s.now < (s.port y k).holdSince + 100000000 → exec (.recoveryTimeout p) s = .next s.settle)) ∧
       ((s.port y k).st = 6 ∨ (s.port y k).st = 7 ∨ (s.port y k).st = 8 →
         let u := s.rootDown p 2
         exec (.rootPortLinkDown p) s = .next u.settle ∧ (u.port y k).st = 2 ∧ (u.port y k).rate = 0 ∧
           (u.port y k).linkDowns = satInc 16 (s.port y k).linkDowns ∧
           (p < s.drives.length → (s.drive p).st = .ready → (u.drive p).st = .resetting)) ∧
       (p ≠ 28 → (s.port y k).st = 6 → exec (.pcieRecoveryEntry p) s =
         .next (s.updPort y k fun x => { x with st := 7, holdSince := s.now })) ∧
       ((s.port y k).perstHeld = true → 15 ≤ fld (s.slotIn y k) 2 1 ∨ (s.pwr (fld (s.slotIn y k) 2 1)).st = .on →
         let hold := 10000000 * max (fld (s.slotIn y k) 7 1) 10
         ((s.port y k).holdSince + hold ≤ s.now → exec (.perstOutNRelease p) s =
           .next (s.updPort y k fun x => { x with st := 2, perstHeld := false, holdSince := s.now })) ∧
         (s.now < (s.port y k).holdSince + hold → exec (.perstOutNRelease p) s = .next s))) ∧
     (∀ p y k, s.ethAt p = some (y, k) →
       ((s.port y k).st = 6 → exec (.ethSignalLoss p) s = .next ((s.updPort y k fun x =>
         { x with st := 0xA, linkDowns := satInc 16 x.linkDowns }).raise 0x0E02 (0x6000 + y) (le 1 k ++ le 1 p ++ le 1 0xA))) ∧
       (∀ micros, (s.port y k).st = 2 ∨ (s.port y k).st = 9 ∨ (s.port y k).st = 0xA → s.flexRetired y k = false →
         s.executing 0x0E03 (16 * y + k) = [] →
         ∃ t, exec (.ethLinkUp p micros) s = .next t ∧ (t.port y k).st = 6 ∧ (t.port y k).trainUs = micros ∧ t.ep = s.ep ∧
           t.drives = s.drives)) ∧
     (∀ f : EpFacts, 2 ≤ s.ep.st → s.ep.st ≤ 5 →
       ∃ t, exec (.endpointLinkActive f) s = .next t ∧ t.ep.st = 6 ∧ t.ep.rate = f.link.rate ∧ t.ep.width = f.link.width ∧
         t.ep.bme = f.bme ∧ t.ep.mse = f.mse ∧ t.ep.msixEn = f.msixEn ∧ t.ep.trainUs = f.link.micros ∧ t.cfg = s.cfg) ∧
     (s.ep.st = 6 → exec (.pcieRecoveryEntry 28) s = .next { s with ep := { s.ep with st := 7 } })) ∧
  (∀ (y k corr unc : Nat) (s : State), 1 ≤ y → (s.port y k).port.isSome = true →
     (corr ≤ 1000 → unc = 0 → exec (.flxLinkErrors y k corr unc) s = .next (s.updPort y k fun x =>
       { x with rxErr := x.rxErr + BitVec.ofNat 32 corr, uncorr := sat 16 (x.uncorr + unc) })) ∧
     (1000 < corr ∨ 0 < unc → (s.port y k).lastErrEvent = none →
       ∃ t, exec (.flxLinkErrors y k corr unc) s = .next t ∧ (t.port y k).rxErr = (s.port y k).rxErr + BitVec.ofNat 32 corr ∧
         (t.port y k).lastErrEvent = some s.now ∧ t.nv.errSeq = s.nv.errSeq + 1 ∧
         (∃ e rest, t.nv.errLog = e :: rest ∧ e.seq = s.nv.errSeq + 1 ∧ e.cls = 6 ∧ e.loc.kind = 6 ∧ e.loc.unit = y ∧
           e.loc.sub = k ∧ e.detail = corr)))

/-! ## Time bases and network time (chapter 17) -/

/-- TIM_READ, TIM_SET of a FREE base, TIM_PTP_STATUS; what a step of a base does; PTP: frames of an Ethernet port, a
message's way to its base, the announce receipt timeout, the messages the device sends, and PPS_OUT. -/
def Obligations.TimeCommandsAndNetworkTime : Prop :=
  ((∀ (b : Mbox) (s : State),
     let t := s.taken b
     let c := s.cmdIn b
     let p := c.payload
     let n := fld p 0 1
     (Accepted s b formTimRead → exec (.timRead b) s = .next ((t.reply c 0 [] (some (t.tbmField ++
       ((List.range 5).map (fun k => timeField (t.base k).time)).flatten ++
       le 1 (1 + 2 * bitmap ((List.range 5).map (fun k => t.baseState k != .off && t.baseState k != .unset))) ++
       zeros 7))).sweep b)) ∧
     (Accepted s b formTimSet → n < 4 → (t.base n).entry.isSome = true → (t.base n).source = 0 → fld p 16 4 ≤ 999999999 →
       exec (.timSet b) s = .next (((t.stepBase n 1 (((fld p 8 8 * 1000000000 : Nat) + (fld p 16 4 : Nat) : Int) +
         (fld p 20 2 : Rat) / 65536 - (t.base n).ns)).ok c []).sweep b).settle) ∧
     (Accepted s b formTimSet → n ≤ 4 → (t.base n).entry.isSome = true → (t.base n).source = 1 →
       exec (.timSet b) s = .next ((t.reply c 0x0103 (le 4 32) none).sweep b).settle) ∧
     (Accepted s b formTimPtpStatus → n ≤ 4 → (t.base n).entry.isSome = true → (t.base n).role ≠ 0 →
       exec (.timPtpStatus b) s = .next (((t.ptpStatus n).2.reply c 0 [] (some (t.ptpStatus n).1)).sweep b))) ∧
   (∀ (n cause : Nat) (d : Rat) (s : State), n < 4 → s.time.bases.length = 5 →
     let t := s.stepBase n cause d
     (t.base n).time = (s.base n).time + roundRat (d * 4294967296) ∧ (t.base n).steps = satInc 8 (s.base n).steps ∧
       (t.base n).st = (s.base n).st ∧ t.time.tbm = s.time.tbm ∧ (∀ m, m ≠ n → m ≠ 4 → t.base m = s.base m) ∧
       (∀ k x, k < s.ctxs.length → x.timeBase = n →
         (∃ z ∈ s.sensors, ∃ o ∈ z.openFrames, o.ctx = x.ctx ∧ o.seq = some x.seq) →
         (x ∈ (s.ctx k).frames → { x with landFlags := setFlag x.landFlags gfTimeStep } ∈ (t.ctx k).frames) ∧
         (x ∈ (s.ctx k).refusalLog → { x with landFlags := setFlag x.landFlags gfTimeStep } ∈ (t.ctx k).refusalLog)))) ∧
  (∀ s : State,
     (∀ port y k (f : EthFrame), s.ethAt port = some (y, k) → (s.port y k).st = 6 →
       (f.fcsOk = false → exec (.ethFrameRx port f) s =
         .next (s.updPort y k fun x => { x with rxErrors := satInc 16 x.rxErrors }).settle) ∧
       (f.fcsOk = true → f.ours = false ∨ f.ptp = none → exec (.ethFrameRx port f) s =
         .next (s.updPort y k fun x => { x with rxDropped := satInc 16 x.rxDropped }).settle) ∧
       (∀ m b, f.fcsOk = true → f.ours = true → f.ptp = some m → b < 4 →
         (∀ n, n < 4 → ((s.base n).entry.isSome && (s.base n).role != 0 && (s.base n).ethPort == port &&
           (s.base n).domain == m.domain) = (n == b)) →
         exec (.ethFrameRx port f) s = .next (s.ptpIn b m).settle)) ∧
     (∀ b (m : PtpMsg), (s.base b).role = 1 → (s.base b).ptp.master = true → fit 10 m.source = (s.base b).ptp.parent →
       m.kind = 9 → (s.base b).p2p = false → m.seq = (s.base b).ptp.reqSeq →
       s.ptpIn b m = s.updBase b fun x => { x with ptp :=
         { x.ptp with pathDelay := (x.ptp.lastMs + (m.stamp - m.correction - x.ptp.reqSent)) / 2, haveDelay := true } }) ∧
     (∀ b, b < s.time.bases.length → (s.base b).entry.isSome = true → (s.base b).source = 1 → (s.base b).ptp.master = true →
       (∀ f ∈ (s.base b).ptp.foreign, sub f 16 10 = (s.base b).ptp.parent) →
       (∀ f ∈ (s.base b).ptp.foreign, fld f 27 8 + fld (s.base b).ent 11 1 * (s.base b).announceNs ≤ s.now) →
       (s.base b).ptp.foreign ≠ [] → (s.base b).st = .acquiring ∨ (s.base b).st = .locked →
       ∃ t, exec (.announceReceiptTimeout b) s = .next t ∧ (t.base b).st = .holdover ∧ (t.base b).ptp.master = false ∧
         (t.base b).ptp.foreign = [] ∧ (∀ n, n ≠ b → t.base n = s.base n)) ∧
     (∀ b, (s.base b).entry.isSome = true →
       let x := s.base b
       let seq := x.ptp.txSeq
       let asked := s.updBase b fun y => { y with ptp :=
         { y.ptp with txSeq := (seq + 1) % 65536, reqSeq := seq, reqSent := x.stamp } }
       let said := s.updBase b fun y => { y with ptp := { y.ptp with txSeq := (seq + 1) % 65536 } }
       (x.role = 2 → x.st ≠ .unset → exec (.ptpMessageInterval b 0) s = .next (said.ethOut (.ptp b 0 seq x.stamp) 0) ∧
         exec (.ptpMessageInterval b 11) s = .next (said.ethOut (.announce b seq x.quality.1 x.quality.2.1 x.quality.2.2
           (fld x.ent 12 1) (fld x.ent 13 1)) 0)) ∧
       (x.role = 1 → x.p2p = false → x.ptp.master = true →
         exec (.ptpMessageInterval b 1) s = .next (asked.ethOut (.ptp b 1 seq x.stamp) 0)) ∧
       (x.role ≠ 0 → x.p2p = true →
         exec (.ptpMessageInterval b 2) s = .next (asked.ethOut (.ptp b 2 seq x.stamp) 0))) ∧
     (∀ m n, s.obs.counters.any (fun c => c.selects 0x11) = false → s.ethOut m n = s.out m) ∧
     (fld s.timeGlobal 3 1 = 5 → exec .ppsOutPulse s = .next (s.out (.ppsOut (10 * fld s.timeGlobal 4 4)))) ∧
     (∀ b, fld s.timeGlobal 3 1 = b → b < 5 → (s.base b).st ≠ .off → (s.base b).st ≠ .unset →
       exec .ppsOutPulse s = .next (s.out (.ppsOut (10 * fld s.timeGlobal 4 4)))) ∧
     (∀ b, fld s.timeGlobal 3 1 = b → b < 5 → (s.base b).st = .off ∨ (s.base b).st = .unset → exec .ppsOutPulse s = .next s))

/-- One servo update: within the threshold the rate moves by the PI law within the slew limit, and the eighth good one in
a row locks; a step otherwise. The references: TREF_IN, PPS_IN, GENLOCK_IN, cadence edges, the servo of TBV, the losses
that lead to HOLDOVER, and the correction of the crystal. -/
def Obligations.ServoAndReferences : Prop :=
  (∀ (b : Nat) (theta : Rat) (s : State), b < 4 → s.time.bases.length = 5 →
     let x := s.base b
     let abs := if theta < 0 then -theta else theta
     let gap := s.now - x.lastUpdate.getD s.now
     let integral := x.integral + theta / 16
     let lim : Rat := ((if fld x.ent 20 4 ≠ 0 then fld x.ent 20 4 else 500000 : Nat) : Rat) / 1000000000
     let limit : Rat := ((if fld x.ent 16 4 = 0 then 1000000 else fld x.ent 16 4 : Nat) : Rat)
     let y := (s.servo b theta).base b
     (x.st = .acquiring ∨ x.st = .locked → abs ≤ limit →
       y.theta = roundRat theta ∧ y.rate = max (-lim) (min lim (-(theta / 4 + integral) / (gap : Nat))) ∧
         y.integral = integral ∧ y.lastUpdate = some s.now ∧ y.time = x.time ∧
         (x.st = .acquiring → y.st = if abs < 1000 ∧ 7 ≤ x.goodRun then .locked else .acquiring) ∧
         (x.st = .locked → y.st = if 10000 < abs then .acquiring else .locked)) ∧
     (x.st = .acquiring ∨ x.st = .locked → limit < abs →
       y.time = x.time + roundRat (-theta * 4294967296) ∧ y.integral = 0 ∧ y.goodRun = 0 ∧ y.rate = x.rate ∧ y.st = x.st ∧
         y.steps = satInc 8 x.steps) ∧
     (x.st = .unset → x.source ≠ 2 → y.st = .acquiring ∧ y.time = x.time + roundRat (-theta * 4294967296) ∧ y.taken = true)) ∧
  (∀ s : State,
     (s.time.onTref = true → ∃ t, exec .trefInLoss s = .next t ∧ t.time.onTref = false ∧ t.time.trefLost = true ∧
       t.time.tbm = s.time.tbm ∧ t.time.bases = s.time.bases) ∧
     (s.time.trefSelected = true → s.time.trefLost = true → ∃ t, exec .trefInRestore s = .next t ∧ t.time.onTref = true ∧
       t.time.trefLost = false ∧ t.time.k = 0 ∧ t.time.bases = s.time.bases) ∧
     (s.running = true → ∀ b, s.basesOf 2 = [b] →
       (∀ rising : Bool, rising = (fld s.timeGlobal 36 1 == 1) → exec (.ppsInEdge rising) s = .next s.settle) ∧
       (∀ rising : Bool, rising ≠ (fld s.timeGlobal 36 1 == 1) → s.time.ppsLost = false → (s.base b).st = .unset →
         exec (.ppsInEdge rising) s =
           .next (s.servo b (splitPeriod ((s.base b).ns + (s.base b).inputOffset) 1000000000).2).settle)) ∧
     (s.running = true → ∀ b, s.basesOf 3 = [b] → s.time.genlockLost = false → exec .genlockInEdge s =
       .next (s.servo b (splitPeriod ((s.base b).ns + (s.base b).inputOffset) (s.base b).period).2).settle) ∧
     ((s.base 4).entry.isSome = true → s.time.bases.length = 5 → ∃ u : State, exec .tbvCadenceEdge s = .next u.settle ∧
       (u.base 4).lastEdge = (s.base 4).lastEdge + 1 ∧ (u.base 4).toApply = none ∧
       (u.base 4).time = (s.base 4).time + roundRat ((s.base 4).toApply.getD 0 * 4294967296)) ∧
     (∀ n, s.follows = some n → (s.base n).st ≠ .off → (s.base n).st ≠ .unset → exec .tbvServoUpdate s =
       .next (s.servo 4 ((s.base 4).ns + (s.base 4).toApply.getD 0 + (s.base 4).residual - (s.base n).ns))) ∧
     (s.basesOf 2 ≠ [] → s.time.ppsLost = false → s.time.bases.length = 5 →
       (∀ b, b ∈ s.basesOf 2 → (s.base b).lastUpdate.getD 0 + 2000000000 ≤ s.now) → ∃ t, exec .ppsInLoss s = .next t ∧
       t.time.ppsLost = true ∧ ∀ b, b ∈ s.basesOf 2 → (s.base b).st = .acquiring ∨ (s.base b).st = .locked →
         (t.base b).st = .holdover ∧ (t.base b).rate = (s.base b).meanRate) ∧
     (s.basesOf 3 ≠ [] → s.time.genlockLost = false → s.time.bases.length = 5 →
       ((s.base 4).lastUpdate.getD 0 : Nat) + 4 * (s.base 4).period ≤ (s.now : Nat) → ∃ t, exec .genlockInLoss s = .next t ∧
       t.time.genlockLost = true ∧ ∀ b, b ∈ s.basesOf 3 → (s.base b).st = .acquiring ∨ (s.base b).st = .locked →
         (t.base b).st = .holdover ∧ (t.base b).rate = (s.base b).meanRate) ∧
     (s.nimlek = true → s.time.onTref = false → ∀ c, s.xtalChannel = some c →
       (s.health.remotes.getD c Remote.reset).valid = true → ∃ t, exec .crystalCorrection s = .next t ∧
         t.time.k = s.correction (s.health.remotes.getD c Remote.reset).temp ∧ t.time.xtalStale = false ∧
         t.time.xtalTbm = some s.now ∧ t.time.bases = s.time.bases ∧ t.health = s.health) ∧
     (∀ c, s.xtalChannel = some c → s.time.xtalStale = false →
       (s.time.xtalTbm.getD 0 + 1000000000 ≤ s.now → exec .xtalStale s =
         .next ((s.updTime fun t => { t with xtalStale := true }).raise 0x0605 0 (le 1 3 ++ le 1 1))) ∧
       (s.now < s.time.xtalTbm.getD 0 + 1000000000 → exec .xtalStale s = .next s)) ∧
     ((s.base 4).slew ≠ 0 → exec .tbvResidualZero s = .next s) ∧
     ((s.base 4).residual ≠ 0 → (s.base 4).slew = 0 → ∃ t, exec .tbvResidualZero s = .next t ∧
       (s.time.bases.length = 5 → (t.base 4).residual = 0 ∧
         (t.base 4).time = (s.base 4).time + roundRat ((s.base 4).residual * 4294967296)) ∧
       ∀ b, b ≠ 4 → t.base b = s.base b))

/-! ## Trust (chapter 18) -/

/-- Firmware delivery by the host: begin, chunks in order, the end that verifies and stores or refuses, confirmation, and
the commit of a security version, which begins a programming of fuse bits. Then what a whole programming leaves: the new
version, or the owner's hash, its USED bit, the lifecycle OWNED and the key's copy. -/
def Obligations.FirmwareCommands : Prop :=
  (∀ (b : Mbox) (s : State),
    let t := s.taken b
    let c := s.cmdIn b
    let p := c.payload
    (Accepted s b formTrsFwBegin → fld p 0 4 ≤ 1 → fld p 4 4 ≤ imageLimit (fld p 0 4) → t.trust.tried = false →
      exec (.trsFwBegin b) s =
        .next ((((t.updNv fun n => n.setSlot (1 - t.trust.runningSlot) (fun x => x.setImage (fld p 0 4) none)).updTrust fun x =>
          { x with staging := some (fld p 0 4, fld p 4 4, []) }).ok c []).sweep b)) ∧
    (∀ kind total got, Accepted s b formTrsFwData → t.trust.staging = some (kind, total, got) → fld p 0 4 = got.length →
      got.length + (p.drop 8).length ≤ total → exec (.trsFwData b) s =
        .next (((t.updTrust fun x => { x with staging := some (kind, total, got ++ p.drop 8) }).ok c []).sweep b)) ∧
    (∀ kind img, Accepted s b formTrsFwEnd → t.trust.staging = some (kind, img.length, img) →
      ∃ u : State, exec (.trsFwEnd b) s = .next ((u.finishAll 0x0706 0 (t.imageStatus kind img) [] none).sweep b) ∧
        u.trust.staging = none ∧ u.nv.fuses = t.nv.fuses ∧
        if t.imageFault kind img = none then t.imageStatus kind img = 0 ∧
          (u.nv.slot (1 - t.trust.runningSlot)).image kind = some { bytes := img, verified := true }
        else t.imageStatus kind img ≠ 0 ∧ u.nv = t.nv) ∧
    (Accepted s b formTrsFwConfirm → t.trust.tried = true → exec (.trsFwConfirm b) s =
      .next ((((t.updNv fun n => { n with abSlot := t.trust.runningSlot, trial := 0 }).updTrust fun x =>
        { x with tried := false }).ok c []).sweep b)) ∧
    (Accepted s b formTrsFwConfirm → t.trust.tried = false → exec (.trsFwConfirm b) s =
      .next ((t.reply c 0x0103 (le 4 32) none).sweep b)) ∧
    (Accepted s b formTrsSvnCommit → t.nv.fuses.svn < fld p 0 1 → fld p 0 1 ≤ t.trust.fsSvn → fld p 0 1 ≤ t.trust.fwSvn →
      t.trust.tried = false → t.trust.fusing = none →
      exec (.trsSvnCommit b) s = .next ((t.fuse c (.svn t.nv.fuses.svn (fld p 0 1))).sweep b))) ∧
  (∀ (c : Cmd) (s : State),
    (∀ old v, old < v → s.nv.fuses.svn = old → s.trust.fusing = none →
      let u := (s.fuse c (.svn old v)).fuseFinish
      u.nv = { s.nv with fuses := { s.nv.fuses with svn := v } } ∧ u.trust = s.trust ∧
        u.fuseStep = u ∧
        ∃ w : State, u = (w.ok c (le 1 v ++ le 1 (b2n ((s.nv.slot (1 - s.trust.runningSlot)).below v)))).sweepList (s.rungAfter c)) ∧
    (∀ j key, j < 3 → s.nv.fuses.owners.length = 3 → s.nv.fuses.lifecycle ≠ 0 → s.trust.fusing = none →
      s.nv.fuses.lifecycle ≤ 2 →
      let u := (s.fuse c (.enrol j key)).fuseFinish
      u.nv = { s.nv with
          ownerKey := key,
          fuses := { s.nv.fuses with owners := s.nv.fuses.owners.set j (sha3 key),
                                     ownerUsed := s.nv.fuses.ownerUsed.set j true, lifecycle := 2 } } ∧
        u.trust = s.trust ∧ ∃ w : State, u = (w.ok c []).sweepList (s.rungAfter c)) ∧
    (∀ (w : FuseWork) (x y : FuseStep) (rest : List FuseStep), s.trust.fusing = some w → w.steps = x :: y :: rest →
      s.fuseStep = { s with nv := s.nv.program w.goal x,
                            trust := { s.trust with fusing := some { w with steps := y :: rest } } }))

/-- Muster reports, certificates, the enrolment of the first owner, recipients, and the debug challenge and unlock. -/
def Obligations.IdentityAndDebugCommands : Prop :=
  ∀ (b : Mbox) (s : State),
    let t := s.taken b
    let c := s.cmdIn b
    let p := c.payload
    (Accepted s b formTrsMuster → t.nv.fuses.lifecycle ≠ 0 →
      ∃ (u : State) (sig : List Byte), sig.length = 4627 ∧ exec (.trsMuster b) s =
          .next ((u.finishAll 0x0701 0 0 [] (some (t.musterBody p ++ sig ++ zeros 5 ++ fit 7368 (t.trust.certs.getD 0 [])))).sweep
            b) ∧
        u.trust = { t.trust with signatures := t.trust.signatures + 1 } ∧ u.nv = t.nv) ∧
    (Accepted s b formTrsMuster → t.nv.fuses.lifecycle = 0 → exec (.trsMuster b) s =
      .next ((t.reply c 0x0301 [] none).sweep b)) ∧
    (∀ d, Accepted s b formTrsCert → fld p 0 1 ≤ 2 → t.certOf (fld p 0 1) = some d → exec (.trsCert b) s =
      .next ((t.reply c 0 [] (some d)).sweep b)) ∧
    (∀ j, Accepted s b formTrsOwnerEnrol → c.len = 2600 ∨ c.len = 7228 → t.nv.fuses.lifecycle = 1 →
      t.nv.fuses.freeSlot = some j → fld p 0 1 = j → t.trust.fusing = none →
      exec (.trsOwnerEnrol b) s = .next ((t.fuse c (.enrol j (sub p 8 2592))).sweep b)) ∧
    (Accepted s b formTrsRecipients → fld p 0 1 ≤ 31 → fld p 1 1 ≤ 8 → c.len = 8 + 1568 * fld p 1 1 →
      exec (.trsRecipients b) s = .next (((match (numbered (entriesFrom p 8 1568 (fld p 1 1))).find? (fun k =>
          !kemCheck k.2) with
        | some k => t.reply c 0x0103 (le 4 (40 + 1568 * k.1)) none
        | none => (t.updStream (fld p 0 1) fun x => { x with recipients := entriesFrom p 8 1568 (fld p 1 1) }).ok c []) :
          State).sweep b)) ∧
    (Accepted s b formTrsDebugChallenge →
      ∃ (d : List Byte) (u : State), exec (.trsDebugChallenge b) s = .next ((u.reply c 0 [] (some d)).sweep b) ∧
        u.trust = { t.trust with challenge := some (d, t.now) } ∧ u.nv = t.nv ∧ d.take 8 = label "OUV7-DBG" ∧
        sub d 8 8 = fit 8 t.nv.fuses.serial ∧ fld d 48 1 = t.nv.fuses.lifecycle % 256 ∧ d.length = 64) ∧
    (Accepted s b formTrsDebugUnlock → bit t.policyFlags 2 = false → t.streams.any (·.takeOpen) = false →
      (∀ d at_, t.trust.challenge = some (d, at_) → t.now ≤ at_ + 60000000000 →
        if t.debugVerifies d (p.take 4627) = true then
          ∃ u : State, exec (.trsDebugUnlock b) s = .next ((u.ok c []).sweep b) ∧
            u.trust = { t.trust with challenge := none, debugUnlocked := true } ∧ u.nv = t.nv
        else exec (.trsDebugUnlock b) s =
          .next (((t.updTrust fun x => { x with challenge := none }).reply c 0x0302 [] none).sweep b)) ∧
      (t.trust.challenge = none → exec (.trsDebugUnlock b) s = .next (((t.updTrust fun x =>
        { x with challenge := none }).reply c 0x0302 [] none).sweep b)) ∧
      (∀ d at_, t.trust.challenge = some (d, at_) → at_ + 60000000000 < t.now → exec (.trsDebugUnlock b) s =
        .next (((t.updTrust fun x => { x with challenge := none }).reply c 0x0302 [] none).sweep b)))

/-! ## Temperatures, rails and voltage (chapter 19) -/

/-- One health evaluation: the readings taken, sensing degraded below 36 sensors, each zone's level with its hysteresis,
furl pending, the highest reef that a source asks for, and ALERT_N, where no HEALTH_POLICY waits and no fault of the power
map is older than the LIVE generation; such a fault clears. Then the three commands that read the device's health. -/
def Obligations.HealthEvaluationAndCommands : Prop :=
  (∀ (f : HealthFacts) (s : State), s.running = true → s.nimlek = true → s.cfg.arming = none → s.health.levels.length = 5 →
     s.boardDue = false → (∀ x ∈ s.health.power, x.entry.isSome = true → x.st = .fault → x.faultGen = s.liveNumber) →
     ∃ t, exec (.healthEval f) s = .next t ∧ t.health.sensors = (List.range 48).map (fun i => f.temps.getD i 0) ∧
       t.health.comparatorsTripped = f.tripped ∧ t.health.degraded = decide ((t.health.suspect.filter (!·)).length < 36) ∧
       (∀ z x, z < 5 → t.zoneTemp z = some x →
         t.health.levels.getD z 0 = levelOf (t.thresholds z) t.hysteresis x (s.health.levels.getD z 0)) ∧
       t.health.furlPending = ((f.tripped &&& ~~~t.health.comparatorsFailed) != 0 ||
         decide (64 * ((t.health.dieFurl : Int) - 2) ≤ t.health.dieTemp)) ∧
       t.health.reef = t.reefWanted ∧ t.health.alertLow = t.alert ∧ t.time = s.time ∧ t.ctxs = s.ctxs ∧ t.cfg = s.cfg) ∧
  (∀ (e : Nat) (s : State), s.health.power.length = 15 → (s.pwr e).entry.isSome = true → (s.pwr e).st = .fault →
     (s.pwr e).faultGen ≠ s.liveNumber → (s.repower.pwr e).st ≠ .fault ∧ (s.repower.pwr e).entry = (s.pwr e).entry) ∧
  (∀ (b : Mbox) (s : State),
     let t := s.taken b
     let c := s.cmdIn b
     (Accepted s b formHltSensors → exec (.hltSensors b) s =
       .next ((t.reply c 0 [] (some ((t.health.sensors ++ t.health.stackTemp ++ t.health.remotes.map (·.temp)).flatMap (leInt 2) ++
         t.health.rails.flatMap (fun r => le 2 r.mv)))).sweep b)) ∧
     (Accepted s b formHltFurlLog → exec (.hltFurlLog b) s =
       .next ((t.reply c 0 [] (some (le 4 t.nv.furlLog.length ++ le 4 0 ++ t.nv.furlLog.flatten))).sweep b)) ∧
     (Accepted s b formHltAgeing → exec (.hltAgeing b) s =
       .next ((t.reply c 0 (le 8 (floorNat t.health.ageing) ++
         le 4 (sat 32 (floorNat (t.health.ageing * 1000000 / 378691200)))) none).sweep b)))

/-- Readings of stacks, remote channels and rails, droops, the voltage loop, ageing and the health clock. The regulators
of the power map: a ramp that reaches 95 % and stays, readings while on, the ramp timeout and the alert. -/
def Obligations.HealthReadingsAndPowerMap : Prop :=
  (∀ s : State, s.running = true →
     (∀ k temp, k < 4 → s.power.railsUp = true → s.health.stackTemp.length = 4 → s.health.stackTbm.length = 4 →
       s.health.stackUnread.length = 4 → s.mem.hbm.length = 4 →
       ∃ t, exec (.stackReading k temp) s = .next t ∧ t.health.stackTemp.getD k 0 = temp ∧
         t.health.stackTbm.getD k none = some s.now ∧ t.health.stackUnread.getD k true = false ∧ (t.hbm k).temp = temp ∧
         (t.hbm k).hot = (if (s.hbm k).hot then decide (81 * 64 < temp) else decide (85 * 64 < temp)) ∧
         t.mem.bytes = s.mem.bytes ∧ t.power = s.power) ∧
     (∀ k, k < 4 → s.nimlek = true → s.health.stackUnread.getD k false = false →
       (s.health.stackTbm.getD k none = none ∨ (∃ x, s.health.stackTbm.getD k none = some x ∧ x + 10000000 ≤ s.now) →
         exec (.stackUnread k) s =
           .next ((s.updHealth fun h => { h with stackUnread := h.stackUnread.set k true }).hltEvent 0x0822
             (le 1 1 ++ le 1 k ++ le 1 1))) ∧
       (∀ x, s.health.stackTbm.getD k none = some x → s.now < x + 10000000 → exec (.stackUnread k) s = .next s)) ∧
     (∀ (k : Nat) (f : RemoteFacts), k < 12 → s.health.remotes.length = 12 → (s.health.remotes.getD k Remote.reset).mode ≠ 0 →
       ∃ t, exec (.remoteChannelRead k f) s = .next t ∧ t = { s with health := t.health, free := t.free } ∧
         (f.fault = true → (t.health.remotes.getD k Remote.reset).valid = false) ∧
         ((t.health.remotes.getD k Remote.reset).valid = true → -2560 ≤ (t.health.remotes.getD k Remote.reset).temp ∧
           (t.health.remotes.getD k Remote.reset).temp ≤ 9600) ∧
         ∀ j, j ≠ k → t.health.remotes.getD j Remote.reset = s.health.remotes.getD j Remote.reset) ∧
     (∀ n mv : Nat, n < 24 → s.health.rails.length = 24 →
       let set := s.setPoint n
       let r := s.health.rails.getD n Rail.reset
       (20 * ((mv : Int) - set).natAbs ≤ set → r.fault = false →
         ∃ t, exec (.railMonitorRead n mv) s = .next t ∧ t = { s with health := t.health } ∧
           (t.health.rails.getD n Rail.reset).mv = mv % 4096 ∧ (t.health.rails.getD n Rail.reset).fault = false ∧
           (t.health.rails.getD n Rail.reset).out5 = none) ∧
       (set < 20 * ((mv : Int) - set).natAbs → s.power.railsUp = true → s.nimlek = true → r.fault = false →
         (∃ x, r.out5 = some x ∧ x + 100000 ≤ s.now) →
         ∃ t, exec (.railMonitorRead n mv) s = .next t ∧ (t.health.rails.getD n Rail.reset).fault = true ∧
           t.nv.errSeq = s.nv.errSeq + 1)) ∧
     (∀ r, r < 8 → s.power.railsUp = true → s.health.droops.length = 8 →
       ∃ t, exec (.droop r) s = .next t ∧ (t.health.droops.getD r (0, [])).1 = satInc 16 (s.health.droops.getD r (0, [])).1 ∧
         (t.health.droops.getD r (0, [])).2.head? = some s.now ∧ t.power = s.power ∧ t.time = s.time) ∧
     (s.nimlek = true → ∀ f : AvsFacts,
       (f.count * 100 < 98 * f.target → s.health.vcore ≤ 840 →
         ∃ t, exec (.avsUpdate f) s = .next t ∧ t.health.vcore = s.health.vcore + 10 ∧ t.health.lastRaise = some s.now ∧
           t.power.vout = s.power.vout.set 4 (s.health.vcore + 10) ∧ t.outs = .pmbus 0 0x44 (s.health.vcore + 10) :: s.outs) ∧
       (f.target ≤ f.count → ((List.range 8).map (fun r => (s.droopsIn r).length)).sum ≤ 1000 →
         100 * f.count ≤ 103 * f.target → ∃ t, exec (.avsUpdate f) s = .next t ∧ t = { s with health := t.health } ∧
           t.health.vcore = s.health.vcore ∧ t.health.avsHighRun = 0 ∧ t.health.lastRaise = s.health.lastRaise) ∧
       (103 * f.target < 100 * f.count → ((List.range 8).map (fun r => (s.droopsIn r).length)).sum ≤ 1000 →
         99 ≤ s.health.avsHighRun → s.mayRaise s.health.lastRaise 1000000000 = true → 705 ≤ s.health.vcore →
         ∃ t, exec (.avsUpdate f) s = .next t ∧ t.health.vcore = s.health.vcore - 5 ∧
           t.outs = .pmbus 0 0x44 (s.health.vcore - 5) :: s.outs ∧ t.health.lastRaise = s.health.lastRaise)) ∧
     (s.nimlek = true →
       (∃ t, exec .ageingUpdate s = .next t ∧ t = { s with health := t.health, nv := t.nv } ∧
         t.health.ageing = s.health.ageing + exp2R (((s.health.dieTemp : Rat) / 64 - 95) / 10) *
           ((s.health.vcore : Rat) / 800) ^ 4 ∧
         (t.nv.ageing = if s.health.ageWrite + 60000000000 ≤ s.now then t.health.ageing else s.nv.ageing)) ∧
       exec .healthClockWrite s = .next { s with nv := { s.nv with healthClock := s.nv.clockBase + s.now / 1000000000 } })) ∧
  (∀ (e mv : Nat) (s : State), e < 15 → s.health.power.length = 15 →
     ((s.pwr e).st = .ramping → mv * 100 < 95 * (s.pwr e).mv → exec (.powerMapReadVout [(e, mv)]) s =
       .next ((s.updPwr e fun x => { x with vout := mv }).updPwr e fun x => { x with settled := none })) ∧
     ((s.pwr e).st = .ramping → 95 * (s.pwr e).mv ≤ mv * 100 → (s.pwr e).settled = none → 1 ≤ fld (s.pwr e).ent 10 2 →
       exec (.powerMapReadVout [(e, mv)]) s =
         .next ((s.updPwr e fun x => { x with vout := mv }).updPwr e fun x => { x with settled := some s.now })) ∧
     (∀ x, (s.pwr e).st = .ramping → 95 * (s.pwr e).mv ≤ mv * 100 → (s.pwr e).settled = some x →
       x + 1000 * fld (s.pwr e).ent 10 2 ≤ s.now →
       ∃ t, exec (.powerMapReadVout [(e, mv)]) s = .next t ∧ (t.pwr e).st = .on ∧ (t.pwr e).vout = mv) ∧
     ((s.pwr e).st = .on → 9 * (s.pwr e).mv ≤ mv * 10 → mv * 10 ≤ 11 * (s.pwr e).mv → exec (.powerMapReadVout [(e, mv)]) s =
       .next ((s.updPwr e fun x => { x with vout := mv }).updPwr e fun x => { x with badReads := 0 })) ∧
     ((s.pwr e).st = .on → mv * 10 < 9 * (s.pwr e).mv ∨ 11 * (s.pwr e).mv < mv * 10 →
       ((s.pwr e).badReads = 0 → exec (.powerMapReadVout [(e, mv)]) s =
         .next ((s.updPwr e fun x => { x with vout := mv }).updPwr e fun x => { x with badReads := x.badReads + 1 })) ∧
       (1 ≤ (s.pwr e).badReads → ∃ t, exec (.powerMapReadVout [(e, mv)]) s = .next t ∧ (t.pwr e).st = .fault ∧
         s.nv.errSeq < t.nv.errSeq)) ∧
     ((s.pwr e).st = .ramping → (s.pwr e).settled = none →
       ((s.pwr e).rampTbm + 1000000 * (s.pwr e).rampMs ≤ s.now →
         ∃ t, exec (.powerRampTimeout e) s = .next t ∧ (t.pwr e).st = .fault ∧
           (∀ k, k ≠ e → (s.pwr k).entry.isSome = true → (s.pwr k).owner = (s.pwr e).owner → (t.pwr k).st = .off)) ∧
       (s.now < (s.pwr e).rampTbm + 1000000 * (s.pwr e).rampMs → exec (.powerRampTimeout e) s = .next s)) ∧
     (∀ w, exec (.pmb1Alert [(e, w)]) s = .next (
       if w ≠ 0 ∧ ((s.pwr e).st = .ramping ∨ (s.pwr e).st = .on) then s.powerFault e (w % 65536) else s)))

/-! ## Errors, self-tests and Halyard (chapter 20) -/

/-- The commands of errors and self-tests. Errors of engines' memories and logic and of a lockstep pair are logged: each
takes the next sequence number, with its class and location, and counts in its class. -/
def Obligations.ErrorsAndTheirCommands : Prop :=
  (∀ (b : Mbox) (s : State),
     let t := s.taken b
     let c := s.cmdIn b
     let p := c.payload
     (∀ l, Accepted s b formObsSelftest → l = Loc.ofBytes (sub p 8 16) → 1 ≤ fld p 0 1 → fld p 0 1 ≤ 6 →
       l.fault (fld p 0 1) = none → t.obs.tests.any (fun x => x.loc.same l) = false → t.isRetired l = false →
       (t.obs.tests.filter (fun x => !x.running)).length < 64 →
       ∃ u : State, exec (.obsSelftest b) s = .next (u.sweep b).settle ∧ u.nv.errSeq = t.nv.errSeq + 1 ∧
         u.obs.tests = t.obs.tests ++
           [{ cls := fld p 0 1, loc := l, entries := [t.nv.errSeq + 1], running := false, since := t.now }] ∧
         (∃ e rest, u.nv.errLog = e :: rest ∧ e.seq = t.nv.errSeq + 1 ∧ e.flags = 32 ∧ e.outcome = 0 ∧ e.loc = l) ∧
         u.nv.retired = t.nv.retired ∧ u.obs.classCount = t.obs.classCount) ∧
     (Accepted s b formObsErrHistory → 1 ≤ fld p 4 2 → fld p 4 2 ≤ 255 →
       ∃ (u : State) (d : List Byte), exec (.obsErrHistory b) s = .next ((u.reply c 0 [] (some d)).sweep b) ∧
         u = { t with free := u.free } ∧ d.length = 64 * fld p 4 2 ∧ ∀ i, i < fld p 4 2 →
           (∀ e, t.nv.errLog.find? (fun e => e.seq == fld p 0 4 + i) = some e → sub d (64 * i) 64 = e.bytes) ∧
           (t.nv.errLog.find? (fun e => e.seq == fld p 0 4 + i) = none → fld d (64 * i) 4 = 0xFFFFFFFF)) ∧
     (Accepted s b formObsRetired → 1 ≤ fld p 4 2 → fld p 4 2 ≤ 511 → exec (.obsRetired b) s =
       .next ((t.reply c 0 [] (some (le 4 t.nv.retired.length ++
         le 4 ((t.nv.retired.drop (fld p 0 4)).take (fld p 4 2)).length ++
         (((t.nv.retired.drop (fld p 0 4)).take (fld p 4 2)).map (fun r => r.1.bytes ++ le 1 r.2.1 ++ le 7 0 ++
           le 8 r.2.2)).flatten))).sweep b)) ∧
     (∀ l, Accepted s b formObsUnretire → l = Loc.ofBytes p → l.kind = 2 ∨ l.kind = 6 →
       t.nv.retired.any (fun r => r.1.same l) = true →
       ∃ u : State, exec (.obsUnretire b) s = .next ((u.ok c []).sweep b) ∧
         u.nv = { t.nv with retired := t.nv.retired.filter (fun r => !r.1.same l) } ∧ u.obs = t.obs ∧
         (l.kind = 2 → u.unitRetired l.unit = false → l.unit < t.shrouds.length → l.sub < (t.shroud l.unit).lanes.length →
           ((u.shroud l.unit).lanes.getD l.sub Lane.reset).retired = false)) ∧
     (Accepted s b formObsVector → 22 ≤ fld p 0 1 → exec (.obsVector b) s =
       .next (((t.updObs fun o => { o with vectors := o.vectors.filter (fun x => x.1 != fld p 0 1) ++
         (if fld p 2 2 = 0 then [] else [(fld p 0 1, fld p 2 2)]) }).ok c []).sweep b)) ∧
     (Accepted s b formObsHalyardArm → fld p 0 1 ≤ 4 → t.halSource 4 = true → (t.base (fld p 0 1)).st ≠ .off →
       fld p 1 1 ≤ 3 → fld p 16 4 ≤ 999999999 → exec (.obsHalyardArm b) s =
       .next (((t.updObs fun o => { o with matches_ := o.matches_.set (fld p 1 1) (some (fld p 0 1,
         (((fld p 8 8 * 1000000000 + fld p 16 4) * 2 ^ 32 + fld p 20 2 * 2 ^ 16 : Nat) : Int))) }).ok c []).sweep b)) ∧
     (Accepted s b formObsHalyardFire → t.halSource 1 = true → exec (.obsHalyardFire b) s =
       .next (((t.halTrigger 1).ok c (le 4 (t.obs.halSeq + 1).toNat)).sweep b))) ∧
  ((∀ (master bank : Nat) (s : State), s.nimlek = true →
     (Loc.fault { Loc.none with kind := 3, unit := master, sub := bank } 3 = none → exec (.sramParityError master bank) s =
       .next (s.logError 3 { Loc.none with kind := 3, unit := master, sub := bank } (s.engineError master))) ∧
     (Loc.fault (Loc.ofEngine master) 4 = none → exec (.engineLogicFault master) s =
       .next (s.logError 4 (Loc.ofEngine master) (s.engineError master))) ∧
     (master < 2 → exec (.lockstepMismatch master) s =
       .next (s.logError 5 { Loc.none with kind := 5, unit := master } { master := 0x70 }))) ∧
   (∀ (cls : Nat) (l : Loc) (i : ErrInfo) (s : State), cls < s.obs.classCount.length → i.flags = 0 →
     let t := s.logError cls l i
     t.nv.errSeq = s.nv.errSeq + 1 ∧ t.obs.classCount.getD cls 0 = s.obs.classCount.getD cls 0 + 1 ∧
       (∃ e rest, t.nv.errLog = e :: rest ∧ e.seq = s.nv.errSeq + 1 ∧ e.cls = cls ∧ e.loc = l ∧ e.tbm = s.now ∧
         e.master = i.master ∧ e.tag = i.tag ∧ e.ctx = i.ctx ∧ e.detail = i.detail) ∧
       (7 ≤ cls → ∃ e rest, t.nv.errLog = e :: rest ∧ e.outcome = 5 ∧ t.obs.tests = s.obs.tests) ∧ t.mem = s.mem ∧
       t.ctxs = s.ctxs ∧ t.jobs = s.jobs))

/-- A test starts when its run condition holds and its resource is free; it ends with an outcome for each entry; a run
condition that does not come for 60 s ends it NOT_RUN, or with what its scan says and PARTIAL. Halyard's triggers: a pulse when
the spacing of 1 µs has passed, else the one pending trigger, into which later ones merge; its pin, its time matches and the
host's register. -/
def Obligations.SelftestsAndHalyard : Prop :=
  (∀ (i : Nat) (x : Test) (s : State), s.obs.tests[i]? = some x → s.nimlek = true →
     (s.mayStart x = true →
       let u := (s.updTest i fun t => { t with running := true }).beginTest x
       exec (.selftestStart i) s = .next u.settle ∧ u.obs.tests[i]? = some { x with running := true } ∧ u.nv = s.nv) ∧
     (s.mayStart x = false → exec (.selftestStart i) s = .next s.settle) ∧
     (∀ f : TestFacts, s.mayEnd x = true → (s.testPasses x f false).1 = true →
       let u := (s.finishRun x f).endTest i (some true) (s.testPasses x f false).2 0 false
       exec (.selftestEnd i f) s = .next u.settle ∧ u.obs.tests = s.obs.tests.eraseIdx i ∧
         u.nv.retired = s.nv.retired ∧ ∀ e ∈ s.nv.errLog, e.seq ∈ x.entries →
           ∃ g ∈ u.nv.errLog, g.seq = e.seq ∧ g.outcome = (if 3 ≤ e.count then 2 else 1) ∧ g.loc = e.loc ∧
             g.result = (s.testPasses x f false).2) ∧
     (∀ f : TestFacts, s.mayEnd x = true → (s.testPasses x f false).1 = false → x.cls = 2 →
       let u := (s.finishRun x f).endTest i (some false) (s.testPasses x f false).2 0 false
       exec (.selftestEnd i f) s = .next u.settle ∧ u.obs.tests = s.obs.tests.eraseIdx i ∧
         u.nv.retired.any (fun r => r.1.same x.loc) = true ∧
         (x.loc.unit < s.shrouds.length → x.loc.sub < (s.shroud x.loc.unit).lanes.length →
           ((u.shroud x.loc.unit).lanes.getD x.loc.sub Lane.reset).retired = true) ∧
         ∀ e ∈ s.nv.errLog, e.seq ∈ x.entries → ∃ g ∈ u.nv.errLog, g.seq = e.seq ∧ g.outcome = 3) ∧
     (∀ f : TestFacts, s.mayEnd x = false → exec (.selftestEnd i f) s = .next s) ∧
     (∀ f : TestFacts, x.running = false → x.cls ≠ 2 → x.cls ≠ 6 → x.since + 60000000000 ≤ s.now →
       let u := s.endTest i none 0 0 true
       exec (.selftestRunTimeout i f) s = .next u.settle ∧ u.obs.tests = s.obs.tests.eraseIdx i ∧
         ∀ e ∈ s.nv.errLog, e.seq ∈ x.entries → ∃ g ∈ u.nv.errLog, g.seq = e.seq ∧ g.outcome = 4 ∧ g.result = 0) ∧
     (∀ f : TestFacts, x.running = false → x.cls = 2 ∨ x.cls = 6 → s.testScanning x = false →
       x.since + 60000000000 ≤ s.now → exec (.selftestRunTimeout i f) s =
         .next (s.endTest i (some (s.testPasses x f true).1) (s.testPasses x f true).2 4 true).settle) ∧
     (∀ f : TestFacts, x.running = true ∨ s.now < x.since + 60000000000 → exec (.selftestRunTimeout i f) s = .next s)) ∧
  (∀ s : State,
     (∀ v m, s.halListed 0x0904 = false →
       let t := s.halPulse v m
       t.obs.halSeq = s.obs.halSeq + 1 ∧ t.obs.halLast = some s.now ∧ t.obs.snpSources = v ∧ t.obs.halPending = none ∧
         t.obs.counters = s.obs.counters.map (fun c => { c with frozen := c.value, frozenOvf := c.overflow }) ∧
         t.mem = s.mem) ∧
     (∀ src, src < 6 →
       (s.obs.halPending = none → s.mayRaise s.obs.halLast 1000 = true → s.halTrigger src = s.halPulse (2 ^ src) 0) ∧
       (s.obs.halPending = none → s.mayRaise s.obs.halLast 1000 = false →
         s.halTrigger src = { s with obs := { s.obs with halPending := some (2 ^ src, 0) } }) ∧
       (∀ v m, s.obs.halPending = some (v, m) → s.halTrigger src =
         { s with obs := { s.obs with halPending := some (v ||| 2 ^ src, m + 1), halMerged := satInc 16 s.obs.halMerged } })) ∧
     (∀ v : Word, (s.hostReaches = true → v.getLsbD 0 = true → exec (.glbHalyardFire v) s = .next (s.halTrigger 0)) ∧
       (s.hostReaches = false ∨ v.getLsbD 0 = false → exec (.glbHalyardFire v) s = .next s)) ∧
     (∀ hold, (s.running = true → 20 ≤ hold → s.halSource 2 = true → exec (.halyardInEdge hold) s = .next (s.halTrigger 2)) ∧
       (hold < 20 ∨ s.halSource 2 = false → exec (.halyardInEdge hold) s = .next s)) ∧
     (∀ v m, s.obs.halPending = some (v, m) →
       (s.mayRaise s.obs.halLast 1000 = true → exec .halyardPendingFire s = .next (s.halPulse v m)) ∧
       (s.mayRaise s.obs.halLast 1000 = false → exec .halyardPendingFire s = .next s)) ∧
     (∀ m b at_, s.running = true → s.obs.matches_.getD m none = some (b, at_) → (s.base b).st ≠ .off →
       (at_ ≤ (s.base b).time →
         let u := s.updObs fun o => { o with matches_ := o.matches_.set m none }
         exec (.timeMatch m) s = .next (if s.halSource 4 = true then u.halTrigger 4 else u)) ∧
       ((s.base b).time < at_ → exec (.timeMatch m) s = .next s)))
end

