-- ==== Sys2Proof/Laws/State.lean ====
section
/-! SUPPORT. What each update of one part of the state leaves and changes, field by field. -/

namespace Sys2Proof.Machine

open Sys2Proof

/-! ## Lists -/

theorem upd_length {α : Type} (l : List α) (i : Nat) (f : α → α) : (upd l i f).length = l.length := by
  simp [upd]

theorem upd_getD_self {α : Type} {l : List α} {i : Nat} {f : α → α} (d : α) (h : i < l.length) :
    (upd l i f).getD i d = f (l.getD i d) := by
  simp [upd, List.getD_eq_getElem?_getD, h]

theorem upd_getD_of_ne {α : Type} {l : List α} {i j : Nat} {f : α → α} (d : α) (h : j ≠ i) :
    (upd l i f).getD j d = l.getD j d := by
  simp [upd, List.getD_eq_getElem?_getD, Ne.symm h]

theorem each_nil {α σ : Type} (f : α → σ → σ) (s : σ) : each [] f s = s := rfl

theorem each_cons {α σ : Type} (a : α) (l : List α) (f : α → σ → σ) (s : σ) : each (a :: l) f s = each l f (f a s) := rfl

/-- A property that every change of the fold keeps holds at its end. -/
theorem each_keeps {α σ : Type} {P : σ → Prop} {f : α → σ → σ} (l : List α) {s : σ} (hs : P s)
    (hf : ∀ a ∈ l, ∀ t, P t → P (f a t)) : P (each l f s) := by
  induction l generalizing s with
  | nil => exact hs
  | cons a l ih => exact ih (hf a (by simp) s hs) (fun b hb t ht => hf b (by simp [hb]) t ht)

/-! ## Updates -/

@[simp] theorem State.updPower_ncp (s : State) (f : Power → Power) : (s.updPower f).ncp = s.ncp := rfl
@[simp] theorem State.updPower_cfg (s : State) (f : Power → Power) : (s.updPower f).cfg = s.cfg := rfl
@[simp] theorem State.updPower_ledger (s : State) (f : Power → Power) : (s.updPower f).ledger = s.ledger := rfl
@[simp] theorem State.updPower_shrouds (s : State) (f : Power → Power) : (s.updPower f).shrouds = s.shrouds := rfl
@[simp] theorem State.updPower_sensors (s : State) (f : Power → Power) : (s.updPower f).sensors = s.sensors := rfl
@[simp] theorem State.updPower_ctxs (s : State) (f : Power → Power) : (s.updPower f).ctxs = s.ctxs := rfl
@[simp] theorem State.updPower_dev (s : State) (f : Power → Power) : (s.updPower f).dev = s.dev := rfl
@[simp] theorem State.updPower_steep (s : State) (f : Power → Power) : (s.updPower f).steep = s.steep := rfl
@[simp] theorem State.updPower_mash (s : State) (f : Power → Power) : (s.updPower f).mash = s.mash := rfl
@[simp] theorem State.updPower_luts (s : State) (f : Power → Power) : (s.updPower f).luts = s.luts := rfl
@[simp] theorem State.updPower_cacheHits (s : State) (f : Power → Power) : (s.updPower f).cacheHits = s.cacheHits := rfl
@[simp] theorem State.updPower_cacheMisses (s : State) (f : Power → Power) : (s.updPower f).cacheMisses = s.cacheMisses := rfl
@[simp] theorem State.updPower_bandCache (s : State) (f : Power → Power) : (s.updPower f).bandCache = s.bandCache := rfl
@[simp] theorem State.updPower_jobs (s : State) (f : Power → Power) : (s.updPower f).jobs = s.jobs := rfl
@[simp] theorem State.updPower_nextJob (s : State) (f : Power → Power) : (s.updPower f).nextJob = s.nextJob := rfl
@[simp] theorem State.updPower_engines (s : State) (f : Power → Power) : (s.updPower f).engines = s.engines := rfl
@[simp] theorem State.updPower_encs (s : State) (f : Power → Power) : (s.updPower f).encs = s.encs := rfl
@[simp] theorem State.updPower_decs (s : State) (f : Power → Power) : (s.updPower f).decs = s.decs := rfl
@[simp] theorem State.updPower_streams (s : State) (f : Power → Power) : (s.updPower f).streams = s.streams := rfl
@[simp] theorem State.updPower_drives (s : State) (f : Power → Power) : (s.updPower f).drives = s.drives := rfl
@[simp] theorem State.updPower_nextNvme (s : State) (f : Power → Power) : (s.updPower f).nextNvme = s.nextNvme := rfl
@[simp] theorem State.updPower_nextGrant (s : State) (f : Power → Power) : (s.updPower f).nextGrant = s.nextGrant := rfl
@[simp] theorem State.updPower_egress (s : State) (f : Power → Power) : (s.updPower f).egress = s.egress := rfl
@[simp] theorem State.updPower_brl (s : State) (f : Power → Power) : (s.updPower f).brl = s.brl := rfl
@[simp] theorem State.updPower_brlErrors (s : State) (f : Power → Power) : (s.updPower f).brlErrors = s.brlErrors := rfl
@[simp] theorem State.updPower_mem (s : State) (f : Power → Power) : (s.updPower f).mem = s.mem := rfl
@[simp] theorem State.updPower_ep (s : State) (f : Power → Power) : (s.updPower f).ep = s.ep := rfl
@[simp] theorem State.updPower_vecs (s : State) (f : Power → Power) : (s.updPower f).vecs = s.vecs := rfl
@[simp] theorem State.updPower_yards (s : State) (f : Power → Power) : (s.updPower f).yards = s.yards := rfl
@[simp] theorem State.updPower_time (s : State) (f : Power → Power) : (s.updPower f).time = s.time := rfl
@[simp] theorem State.updPower_trust (s : State) (f : Power → Power) : (s.updPower f).trust = s.trust := rfl
@[simp] theorem State.updPower_health (s : State) (f : Power → Power) : (s.updPower f).health = s.health := rfl
@[simp] theorem State.updPower_obs (s : State) (f : Power → Power) : (s.updPower f).obs = s.obs := rfl
@[simp] theorem State.updPower_nv (s : State) (f : Power → Power) : (s.updPower f).nv = s.nv := rfl
@[simp] theorem State.updPower_latches (s : State) (f : Power → Power) : (s.updPower f).latches = s.latches := rfl
@[simp] theorem State.updPower_free (s : State) (f : Power → Power) : (s.updPower f).free = s.free := rfl
@[simp] theorem State.updPower_outs (s : State) (f : Power → Power) : (s.updPower f).outs = s.outs := rfl
@[simp] theorem State.updPower_pending (s : State) (f : Power → Power) : (s.updPower f).pending = s.pending := rfl
@[simp] theorem State.updPower_power (s : State) (f : Power → Power) : (s.updPower f).power = f s.power := rfl
@[simp] theorem State.updNcp_power (s : State) (f : Ncp → Ncp) : (s.updNcp f).power = s.power := rfl
@[simp] theorem State.updNcp_cfg (s : State) (f : Ncp → Ncp) : (s.updNcp f).cfg = s.cfg := rfl
@[simp] theorem State.updNcp_ledger (s : State) (f : Ncp → Ncp) : (s.updNcp f).ledger = s.ledger := rfl
@[simp] theorem State.updNcp_shrouds (s : State) (f : Ncp → Ncp) : (s.updNcp f).shrouds = s.shrouds := rfl
@[simp] theorem State.updNcp_sensors (s : State) (f : Ncp → Ncp) : (s.updNcp f).sensors = s.sensors := rfl
@[simp] theorem State.updNcp_ctxs (s : State) (f : Ncp → Ncp) : (s.updNcp f).ctxs = s.ctxs := rfl
@[simp] theorem State.updNcp_dev (s : State) (f : Ncp → Ncp) : (s.updNcp f).dev = s.dev := rfl
@[simp] theorem State.updNcp_steep (s : State) (f : Ncp → Ncp) : (s.updNcp f).steep = s.steep := rfl
@[simp] theorem State.updNcp_mash (s : State) (f : Ncp → Ncp) : (s.updNcp f).mash = s.mash := rfl
@[simp] theorem State.updNcp_luts (s : State) (f : Ncp → Ncp) : (s.updNcp f).luts = s.luts := rfl
@[simp] theorem State.updNcp_cacheHits (s : State) (f : Ncp → Ncp) : (s.updNcp f).cacheHits = s.cacheHits := rfl
@[simp] theorem State.updNcp_cacheMisses (s : State) (f : Ncp → Ncp) : (s.updNcp f).cacheMisses = s.cacheMisses := rfl
@[simp] theorem State.updNcp_bandCache (s : State) (f : Ncp → Ncp) : (s.updNcp f).bandCache = s.bandCache := rfl
@[simp] theorem State.updNcp_jobs (s : State) (f : Ncp → Ncp) : (s.updNcp f).jobs = s.jobs := rfl
@[simp] theorem State.updNcp_nextJob (s : State) (f : Ncp → Ncp) : (s.updNcp f).nextJob = s.nextJob := rfl
@[simp] theorem State.updNcp_engines (s : State) (f : Ncp → Ncp) : (s.updNcp f).engines = s.engines := rfl
@[simp] theorem State.updNcp_encs (s : State) (f : Ncp → Ncp) : (s.updNcp f).encs = s.encs := rfl
@[simp] theorem State.updNcp_decs (s : State) (f : Ncp → Ncp) : (s.updNcp f).decs = s.decs := rfl
@[simp] theorem State.updNcp_streams (s : State) (f : Ncp → Ncp) : (s.updNcp f).streams = s.streams := rfl
@[simp] theorem State.updNcp_drives (s : State) (f : Ncp → Ncp) : (s.updNcp f).drives = s.drives := rfl
@[simp] theorem State.updNcp_nextNvme (s : State) (f : Ncp → Ncp) : (s.updNcp f).nextNvme = s.nextNvme := rfl
@[simp] theorem State.updNcp_nextGrant (s : State) (f : Ncp → Ncp) : (s.updNcp f).nextGrant = s.nextGrant := rfl
@[simp] theorem State.updNcp_egress (s : State) (f : Ncp → Ncp) : (s.updNcp f).egress = s.egress := rfl
@[simp] theorem State.updNcp_brl (s : State) (f : Ncp → Ncp) : (s.updNcp f).brl = s.brl := rfl
@[simp] theorem State.updNcp_brlErrors (s : State) (f : Ncp → Ncp) : (s.updNcp f).brlErrors = s.brlErrors := rfl
@[simp] theorem State.updNcp_mem (s : State) (f : Ncp → Ncp) : (s.updNcp f).mem = s.mem := rfl
@[simp] theorem State.updNcp_ep (s : State) (f : Ncp → Ncp) : (s.updNcp f).ep = s.ep := rfl
@[simp] theorem State.updNcp_vecs (s : State) (f : Ncp → Ncp) : (s.updNcp f).vecs = s.vecs := rfl
@[simp] theorem State.updNcp_yards (s : State) (f : Ncp → Ncp) : (s.updNcp f).yards = s.yards := rfl
@[simp] theorem State.updNcp_time (s : State) (f : Ncp → Ncp) : (s.updNcp f).time = s.time := rfl
@[simp] theorem State.updNcp_trust (s : State) (f : Ncp → Ncp) : (s.updNcp f).trust = s.trust := rfl
@[simp] theorem State.updNcp_health (s : State) (f : Ncp → Ncp) : (s.updNcp f).health = s.health := rfl
@[simp] theorem State.updNcp_obs (s : State) (f : Ncp → Ncp) : (s.updNcp f).obs = s.obs := rfl
@[simp] theorem State.updNcp_nv (s : State) (f : Ncp → Ncp) : (s.updNcp f).nv = s.nv := rfl
@[simp] theorem State.updNcp_latches (s : State) (f : Ncp → Ncp) : (s.updNcp f).latches = s.latches := rfl
@[simp] theorem State.updNcp_free (s : State) (f : Ncp → Ncp) : (s.updNcp f).free = s.free := rfl
@[simp] theorem State.updNcp_outs (s : State) (f : Ncp → Ncp) : (s.updNcp f).outs = s.outs := rfl
@[simp] theorem State.updNcp_pending (s : State) (f : Ncp → Ncp) : (s.updNcp f).pending = s.pending := rfl
@[simp] theorem State.updNcp_ncp (s : State) (f : Ncp → Ncp) : (s.updNcp f).ncp = f s.ncp := rfl
@[simp] theorem State.updCfg_power (s : State) (f : Cfg → Cfg) : (s.updCfg f).power = s.power := rfl
@[simp] theorem State.updCfg_ncp (s : State) (f : Cfg → Cfg) : (s.updCfg f).ncp = s.ncp := rfl
@[simp] theorem State.updCfg_ledger (s : State) (f : Cfg → Cfg) : (s.updCfg f).ledger = s.ledger := rfl
@[simp] theorem State.updCfg_shrouds (s : State) (f : Cfg → Cfg) : (s.updCfg f).shrouds = s.shrouds := rfl
@[simp] theorem State.updCfg_sensors (s : State) (f : Cfg → Cfg) : (s.updCfg f).sensors = s.sensors := rfl
@[simp] theorem State.updCfg_ctxs (s : State) (f : Cfg → Cfg) : (s.updCfg f).ctxs = s.ctxs := rfl
@[simp] theorem State.updCfg_dev (s : State) (f : Cfg → Cfg) : (s.updCfg f).dev = s.dev := rfl
@[simp] theorem State.updCfg_steep (s : State) (f : Cfg → Cfg) : (s.updCfg f).steep = s.steep := rfl
@[simp] theorem State.updCfg_mash (s : State) (f : Cfg → Cfg) : (s.updCfg f).mash = s.mash := rfl
@[simp] theorem State.updCfg_luts (s : State) (f : Cfg → Cfg) : (s.updCfg f).luts = s.luts := rfl
@[simp] theorem State.updCfg_cacheHits (s : State) (f : Cfg → Cfg) : (s.updCfg f).cacheHits = s.cacheHits := rfl
@[simp] theorem State.updCfg_cacheMisses (s : State) (f : Cfg → Cfg) : (s.updCfg f).cacheMisses = s.cacheMisses := rfl
@[simp] theorem State.updCfg_bandCache (s : State) (f : Cfg → Cfg) : (s.updCfg f).bandCache = s.bandCache := rfl
@[simp] theorem State.updCfg_jobs (s : State) (f : Cfg → Cfg) : (s.updCfg f).jobs = s.jobs := rfl
@[simp] theorem State.updCfg_nextJob (s : State) (f : Cfg → Cfg) : (s.updCfg f).nextJob = s.nextJob := rfl
@[simp] theorem State.updCfg_engines (s : State) (f : Cfg → Cfg) : (s.updCfg f).engines = s.engines := rfl
@[simp] theorem State.updCfg_encs (s : State) (f : Cfg → Cfg) : (s.updCfg f).encs = s.encs := rfl
@[simp] theorem State.updCfg_decs (s : State) (f : Cfg → Cfg) : (s.updCfg f).decs = s.decs := rfl
@[simp] theorem State.updCfg_streams (s : State) (f : Cfg → Cfg) : (s.updCfg f).streams = s.streams := rfl
@[simp] theorem State.updCfg_drives (s : State) (f : Cfg → Cfg) : (s.updCfg f).drives = s.drives := rfl
@[simp] theorem State.updCfg_nextNvme (s : State) (f : Cfg → Cfg) : (s.updCfg f).nextNvme = s.nextNvme := rfl
@[simp] theorem State.updCfg_nextGrant (s : State) (f : Cfg → Cfg) : (s.updCfg f).nextGrant = s.nextGrant := rfl
@[simp] theorem State.updCfg_egress (s : State) (f : Cfg → Cfg) : (s.updCfg f).egress = s.egress := rfl
@[simp] theorem State.updCfg_brl (s : State) (f : Cfg → Cfg) : (s.updCfg f).brl = s.brl := rfl
@[simp] theorem State.updCfg_brlErrors (s : State) (f : Cfg → Cfg) : (s.updCfg f).brlErrors = s.brlErrors := rfl
@[simp] theorem State.updCfg_mem (s : State) (f : Cfg → Cfg) : (s.updCfg f).mem = s.mem := rfl
@[simp] theorem State.updCfg_ep (s : State) (f : Cfg → Cfg) : (s.updCfg f).ep = s.ep := rfl
@[simp] theorem State.updCfg_vecs (s : State) (f : Cfg → Cfg) : (s.updCfg f).vecs = s.vecs := rfl
@[simp] theorem State.updCfg_yards (s : State) (f : Cfg → Cfg) : (s.updCfg f).yards = s.yards := rfl
@[simp] theorem State.updCfg_time (s : State) (f : Cfg → Cfg) : (s.updCfg f).time = s.time := rfl
@[simp] theorem State.updCfg_trust (s : State) (f : Cfg → Cfg) : (s.updCfg f).trust = s.trust := rfl
@[simp] theorem State.updCfg_health (s : State) (f : Cfg → Cfg) : (s.updCfg f).health = s.health := rfl
@[simp] theorem State.updCfg_obs (s : State) (f : Cfg → Cfg) : (s.updCfg f).obs = s.obs := rfl
@[simp] theorem State.updCfg_nv (s : State) (f : Cfg → Cfg) : (s.updCfg f).nv = s.nv := rfl
@[simp] theorem State.updCfg_latches (s : State) (f : Cfg → Cfg) : (s.updCfg f).latches = s.latches := rfl
@[simp] theorem State.updCfg_free (s : State) (f : Cfg → Cfg) : (s.updCfg f).free = s.free := rfl
@[simp] theorem State.updCfg_outs (s : State) (f : Cfg → Cfg) : (s.updCfg f).outs = s.outs := rfl
@[simp] theorem State.updCfg_pending (s : State) (f : Cfg → Cfg) : (s.updCfg f).pending = s.pending := rfl
@[simp] theorem State.updCfg_cfg (s : State) (f : Cfg → Cfg) : (s.updCfg f).cfg = f s.cfg := rfl
@[simp] theorem State.updLedger_power (s : State) (f : Ledger → Ledger) : (s.updLedger f).power = s.power := rfl
@[simp] theorem State.updLedger_ncp (s : State) (f : Ledger → Ledger) : (s.updLedger f).ncp = s.ncp := rfl
@[simp] theorem State.updLedger_cfg (s : State) (f : Ledger → Ledger) : (s.updLedger f).cfg = s.cfg := rfl
@[simp] theorem State.updLedger_shrouds (s : State) (f : Ledger → Ledger) : (s.updLedger f).shrouds = s.shrouds := rfl
@[simp] theorem State.updLedger_sensors (s : State) (f : Ledger → Ledger) : (s.updLedger f).sensors = s.sensors := rfl
@[simp] theorem State.updLedger_ctxs (s : State) (f : Ledger → Ledger) : (s.updLedger f).ctxs = s.ctxs := rfl
@[simp] theorem State.updLedger_dev (s : State) (f : Ledger → Ledger) : (s.updLedger f).dev = s.dev := rfl
@[simp] theorem State.updLedger_steep (s : State) (f : Ledger → Ledger) : (s.updLedger f).steep = s.steep := rfl
@[simp] theorem State.updLedger_mash (s : State) (f : Ledger → Ledger) : (s.updLedger f).mash = s.mash := rfl
@[simp] theorem State.updLedger_luts (s : State) (f : Ledger → Ledger) : (s.updLedger f).luts = s.luts := rfl
@[simp] theorem State.updLedger_cacheHits (s : State) (f : Ledger → Ledger) : (s.updLedger f).cacheHits = s.cacheHits := rfl
@[simp] theorem State.updLedger_cacheMisses (s : State) (f : Ledger → Ledger) : (s.updLedger f).cacheMisses = s.cacheMisses := rfl
@[simp] theorem State.updLedger_bandCache (s : State) (f : Ledger → Ledger) : (s.updLedger f).bandCache = s.bandCache := rfl
@[simp] theorem State.updLedger_jobs (s : State) (f : Ledger → Ledger) : (s.updLedger f).jobs = s.jobs := rfl
@[simp] theorem State.updLedger_nextJob (s : State) (f : Ledger → Ledger) : (s.updLedger f).nextJob = s.nextJob := rfl
@[simp] theorem State.updLedger_engines (s : State) (f : Ledger → Ledger) : (s.updLedger f).engines = s.engines := rfl
@[simp] theorem State.updLedger_encs (s : State) (f : Ledger → Ledger) : (s.updLedger f).encs = s.encs := rfl
@[simp] theorem State.updLedger_decs (s : State) (f : Ledger → Ledger) : (s.updLedger f).decs = s.decs := rfl
@[simp] theorem State.updLedger_streams (s : State) (f : Ledger → Ledger) : (s.updLedger f).streams = s.streams := rfl
@[simp] theorem State.updLedger_drives (s : State) (f : Ledger → Ledger) : (s.updLedger f).drives = s.drives := rfl
@[simp] theorem State.updLedger_nextNvme (s : State) (f : Ledger → Ledger) : (s.updLedger f).nextNvme = s.nextNvme := rfl
@[simp] theorem State.updLedger_nextGrant (s : State) (f : Ledger → Ledger) : (s.updLedger f).nextGrant = s.nextGrant := rfl
@[simp] theorem State.updLedger_egress (s : State) (f : Ledger → Ledger) : (s.updLedger f).egress = s.egress := rfl
@[simp] theorem State.updLedger_brl (s : State) (f : Ledger → Ledger) : (s.updLedger f).brl = s.brl := rfl
@[simp] theorem State.updLedger_brlErrors (s : State) (f : Ledger → Ledger) : (s.updLedger f).brlErrors = s.brlErrors := rfl
@[simp] theorem State.updLedger_mem (s : State) (f : Ledger → Ledger) : (s.updLedger f).mem = s.mem := rfl
@[simp] theorem State.updLedger_ep (s : State) (f : Ledger → Ledger) : (s.updLedger f).ep = s.ep := rfl
@[simp] theorem State.updLedger_vecs (s : State) (f : Ledger → Ledger) : (s.updLedger f).vecs = s.vecs := rfl
@[simp] theorem State.updLedger_yards (s : State) (f : Ledger → Ledger) : (s.updLedger f).yards = s.yards := rfl
@[simp] theorem State.updLedger_time (s : State) (f : Ledger → Ledger) : (s.updLedger f).time = s.time := rfl
@[simp] theorem State.updLedger_trust (s : State) (f : Ledger → Ledger) : (s.updLedger f).trust = s.trust := rfl
@[simp] theorem State.updLedger_health (s : State) (f : Ledger → Ledger) : (s.updLedger f).health = s.health := rfl
@[simp] theorem State.updLedger_obs (s : State) (f : Ledger → Ledger) : (s.updLedger f).obs = s.obs := rfl
@[simp] theorem State.updLedger_nv (s : State) (f : Ledger → Ledger) : (s.updLedger f).nv = s.nv := rfl
@[simp] theorem State.updLedger_latches (s : State) (f : Ledger → Ledger) : (s.updLedger f).latches = s.latches := rfl
@[simp] theorem State.updLedger_free (s : State) (f : Ledger → Ledger) : (s.updLedger f).free = s.free := rfl
@[simp] theorem State.updLedger_outs (s : State) (f : Ledger → Ledger) : (s.updLedger f).outs = s.outs := rfl
@[simp] theorem State.updLedger_pending (s : State) (f : Ledger → Ledger) : (s.updLedger f).pending = s.pending := rfl
@[simp] theorem State.updLedger_ledger (s : State) (f : Ledger → Ledger) : (s.updLedger f).ledger = f s.ledger := rfl
@[simp] theorem State.updMem_power (s : State) (f : MemCtl → MemCtl) : (s.updMem f).power = s.power := rfl
@[simp] theorem State.updMem_ncp (s : State) (f : MemCtl → MemCtl) : (s.updMem f).ncp = s.ncp := rfl
@[simp] theorem State.updMem_cfg (s : State) (f : MemCtl → MemCtl) : (s.updMem f).cfg = s.cfg := rfl
@[simp] theorem State.updMem_ledger (s : State) (f : MemCtl → MemCtl) : (s.updMem f).ledger = s.ledger := rfl
@[simp] theorem State.updMem_shrouds (s : State) (f : MemCtl → MemCtl) : (s.updMem f).shrouds = s.shrouds := rfl
@[simp] theorem State.updMem_sensors (s : State) (f : MemCtl → MemCtl) : (s.updMem f).sensors = s.sensors := rfl
@[simp] theorem State.updMem_ctxs (s : State) (f : MemCtl → MemCtl) : (s.updMem f).ctxs = s.ctxs := rfl
@[simp] theorem State.updMem_dev (s : State) (f : MemCtl → MemCtl) : (s.updMem f).dev = s.dev := rfl
@[simp] theorem State.updMem_steep (s : State) (f : MemCtl → MemCtl) : (s.updMem f).steep = s.steep := rfl
@[simp] theorem State.updMem_mash (s : State) (f : MemCtl → MemCtl) : (s.updMem f).mash = s.mash := rfl
@[simp] theorem State.updMem_luts (s : State) (f : MemCtl → MemCtl) : (s.updMem f).luts = s.luts := rfl
@[simp] theorem State.updMem_cacheHits (s : State) (f : MemCtl → MemCtl) : (s.updMem f).cacheHits = s.cacheHits := rfl
@[simp] theorem State.updMem_cacheMisses (s : State) (f : MemCtl → MemCtl) : (s.updMem f).cacheMisses = s.cacheMisses := rfl
@[simp] theorem State.updMem_bandCache (s : State) (f : MemCtl → MemCtl) : (s.updMem f).bandCache = s.bandCache := rfl
@[simp] theorem State.updMem_jobs (s : State) (f : MemCtl → MemCtl) : (s.updMem f).jobs = s.jobs := rfl
@[simp] theorem State.updMem_nextJob (s : State) (f : MemCtl → MemCtl) : (s.updMem f).nextJob = s.nextJob := rfl
@[simp] theorem State.updMem_engines (s : State) (f : MemCtl → MemCtl) : (s.updMem f).engines = s.engines := rfl
@[simp] theorem State.updMem_encs (s : State) (f : MemCtl → MemCtl) : (s.updMem f).encs = s.encs := rfl
@[simp] theorem State.updMem_decs (s : State) (f : MemCtl → MemCtl) : (s.updMem f).decs = s.decs := rfl
@[simp] theorem State.updMem_streams (s : State) (f : MemCtl → MemCtl) : (s.updMem f).streams = s.streams := rfl
@[simp] theorem State.updMem_drives (s : State) (f : MemCtl → MemCtl) : (s.updMem f).drives = s.drives := rfl
@[simp] theorem State.updMem_nextNvme (s : State) (f : MemCtl → MemCtl) : (s.updMem f).nextNvme = s.nextNvme := rfl
@[simp] theorem State.updMem_nextGrant (s : State) (f : MemCtl → MemCtl) : (s.updMem f).nextGrant = s.nextGrant := rfl
@[simp] theorem State.updMem_egress (s : State) (f : MemCtl → MemCtl) : (s.updMem f).egress = s.egress := rfl
@[simp] theorem State.updMem_brl (s : State) (f : MemCtl → MemCtl) : (s.updMem f).brl = s.brl := rfl
@[simp] theorem State.updMem_brlErrors (s : State) (f : MemCtl → MemCtl) : (s.updMem f).brlErrors = s.brlErrors := rfl
@[simp] theorem State.updMem_ep (s : State) (f : MemCtl → MemCtl) : (s.updMem f).ep = s.ep := rfl
@[simp] theorem State.updMem_vecs (s : State) (f : MemCtl → MemCtl) : (s.updMem f).vecs = s.vecs := rfl
@[simp] theorem State.updMem_yards (s : State) (f : MemCtl → MemCtl) : (s.updMem f).yards = s.yards := rfl
@[simp] theorem State.updMem_time (s : State) (f : MemCtl → MemCtl) : (s.updMem f).time = s.time := rfl
@[simp] theorem State.updMem_trust (s : State) (f : MemCtl → MemCtl) : (s.updMem f).trust = s.trust := rfl
@[simp] theorem State.updMem_health (s : State) (f : MemCtl → MemCtl) : (s.updMem f).health = s.health := rfl
@[simp] theorem State.updMem_obs (s : State) (f : MemCtl → MemCtl) : (s.updMem f).obs = s.obs := rfl
@[simp] theorem State.updMem_nv (s : State) (f : MemCtl → MemCtl) : (s.updMem f).nv = s.nv := rfl
@[simp] theorem State.updMem_latches (s : State) (f : MemCtl → MemCtl) : (s.updMem f).latches = s.latches := rfl
@[simp] theorem State.updMem_free (s : State) (f : MemCtl → MemCtl) : (s.updMem f).free = s.free := rfl
@[simp] theorem State.updMem_outs (s : State) (f : MemCtl → MemCtl) : (s.updMem f).outs = s.outs := rfl
@[simp] theorem State.updMem_pending (s : State) (f : MemCtl → MemCtl) : (s.updMem f).pending = s.pending := rfl
@[simp] theorem State.updMem_mem (s : State) (f : MemCtl → MemCtl) : (s.updMem f).mem = f s.mem := rfl
@[simp] theorem State.updEp_power (s : State) (f : Endpoint → Endpoint) : (s.updEp f).power = s.power := rfl
@[simp] theorem State.updEp_ncp (s : State) (f : Endpoint → Endpoint) : (s.updEp f).ncp = s.ncp := rfl
@[simp] theorem State.updEp_cfg (s : State) (f : Endpoint → Endpoint) : (s.updEp f).cfg = s.cfg := rfl
@[simp] theorem State.updEp_ledger (s : State) (f : Endpoint → Endpoint) : (s.updEp f).ledger = s.ledger := rfl
@[simp] theorem State.updEp_shrouds (s : State) (f : Endpoint → Endpoint) : (s.updEp f).shrouds = s.shrouds := rfl
@[simp] theorem State.updEp_sensors (s : State) (f : Endpoint → Endpoint) : (s.updEp f).sensors = s.sensors := rfl
@[simp] theorem State.updEp_ctxs (s : State) (f : Endpoint → Endpoint) : (s.updEp f).ctxs = s.ctxs := rfl
@[simp] theorem State.updEp_dev (s : State) (f : Endpoint → Endpoint) : (s.updEp f).dev = s.dev := rfl
@[simp] theorem State.updEp_steep (s : State) (f : Endpoint → Endpoint) : (s.updEp f).steep = s.steep := rfl
@[simp] theorem State.updEp_mash (s : State) (f : Endpoint → Endpoint) : (s.updEp f).mash = s.mash := rfl
@[simp] theorem State.updEp_luts (s : State) (f : Endpoint → Endpoint) : (s.updEp f).luts = s.luts := rfl
@[simp] theorem State.updEp_cacheHits (s : State) (f : Endpoint → Endpoint) : (s.updEp f).cacheHits = s.cacheHits := rfl
@[simp] theorem State.updEp_cacheMisses (s : State) (f : Endpoint → Endpoint) : (s.updEp f).cacheMisses = s.cacheMisses := rfl
@[simp] theorem State.updEp_bandCache (s : State) (f : Endpoint → Endpoint) : (s.updEp f).bandCache = s.bandCache := rfl
@[simp] theorem State.updEp_jobs (s : State) (f : Endpoint → Endpoint) : (s.updEp f).jobs = s.jobs := rfl
@[simp] theorem State.updEp_nextJob (s : State) (f : Endpoint → Endpoint) : (s.updEp f).nextJob = s.nextJob := rfl
@[simp] theorem State.updEp_engines (s : State) (f : Endpoint → Endpoint) : (s.updEp f).engines = s.engines := rfl
@[simp] theorem State.updEp_encs (s : State) (f : Endpoint → Endpoint) : (s.updEp f).encs = s.encs := rfl
@[simp] theorem State.updEp_decs (s : State) (f : Endpoint → Endpoint) : (s.updEp f).decs = s.decs := rfl
@[simp] theorem State.updEp_streams (s : State) (f : Endpoint → Endpoint) : (s.updEp f).streams = s.streams := rfl
@[simp] theorem State.updEp_drives (s : State) (f : Endpoint → Endpoint) : (s.updEp f).drives = s.drives := rfl
@[simp] theorem State.updEp_nextNvme (s : State) (f : Endpoint → Endpoint) : (s.updEp f).nextNvme = s.nextNvme := rfl
@[simp] theorem State.updEp_nextGrant (s : State) (f : Endpoint → Endpoint) : (s.updEp f).nextGrant = s.nextGrant := rfl
@[simp] theorem State.updEp_egress (s : State) (f : Endpoint → Endpoint) : (s.updEp f).egress = s.egress := rfl
@[simp] theorem State.updEp_brl (s : State) (f : Endpoint → Endpoint) : (s.updEp f).brl = s.brl := rfl
@[simp] theorem State.updEp_brlErrors (s : State) (f : Endpoint → Endpoint) : (s.updEp f).brlErrors = s.brlErrors := rfl
@[simp] theorem State.updEp_mem (s : State) (f : Endpoint → Endpoint) : (s.updEp f).mem = s.mem := rfl
@[simp] theorem State.updEp_vecs (s : State) (f : Endpoint → Endpoint) : (s.updEp f).vecs = s.vecs := rfl
@[simp] theorem State.updEp_yards (s : State) (f : Endpoint → Endpoint) : (s.updEp f).yards = s.yards := rfl
@[simp] theorem State.updEp_time (s : State) (f : Endpoint → Endpoint) : (s.updEp f).time = s.time := rfl
@[simp] theorem State.updEp_trust (s : State) (f : Endpoint → Endpoint) : (s.updEp f).trust = s.trust := rfl
@[simp] theorem State.updEp_health (s : State) (f : Endpoint → Endpoint) : (s.updEp f).health = s.health := rfl
@[simp] theorem State.updEp_obs (s : State) (f : Endpoint → Endpoint) : (s.updEp f).obs = s.obs := rfl
@[simp] theorem State.updEp_nv (s : State) (f : Endpoint → Endpoint) : (s.updEp f).nv = s.nv := rfl
@[simp] theorem State.updEp_latches (s : State) (f : Endpoint → Endpoint) : (s.updEp f).latches = s.latches := rfl
@[simp] theorem State.updEp_free (s : State) (f : Endpoint → Endpoint) : (s.updEp f).free = s.free := rfl
@[simp] theorem State.updEp_outs (s : State) (f : Endpoint → Endpoint) : (s.updEp f).outs = s.outs := rfl
@[simp] theorem State.updEp_pending (s : State) (f : Endpoint → Endpoint) : (s.updEp f).pending = s.pending := rfl
@[simp] theorem State.updEp_ep (s : State) (f : Endpoint → Endpoint) : (s.updEp f).ep = f s.ep := rfl
@[simp] theorem State.updTime_power (s : State) (f : Time → Time) : (s.updTime f).power = s.power := rfl
@[simp] theorem State.updTime_ncp (s : State) (f : Time → Time) : (s.updTime f).ncp = s.ncp := rfl
@[simp] theorem State.updTime_cfg (s : State) (f : Time → Time) : (s.updTime f).cfg = s.cfg := rfl
@[simp] theorem State.updTime_ledger (s : State) (f : Time → Time) : (s.updTime f).ledger = s.ledger := rfl
@[simp] theorem State.updTime_shrouds (s : State) (f : Time → Time) : (s.updTime f).shrouds = s.shrouds := rfl
@[simp] theorem State.updTime_sensors (s : State) (f : Time → Time) : (s.updTime f).sensors = s.sensors := rfl
@[simp] theorem State.updTime_ctxs (s : State) (f : Time → Time) : (s.updTime f).ctxs = s.ctxs := rfl
@[simp] theorem State.updTime_dev (s : State) (f : Time → Time) : (s.updTime f).dev = s.dev := rfl
@[simp] theorem State.updTime_steep (s : State) (f : Time → Time) : (s.updTime f).steep = s.steep := rfl
@[simp] theorem State.updTime_mash (s : State) (f : Time → Time) : (s.updTime f).mash = s.mash := rfl
@[simp] theorem State.updTime_luts (s : State) (f : Time → Time) : (s.updTime f).luts = s.luts := rfl
@[simp] theorem State.updTime_cacheHits (s : State) (f : Time → Time) : (s.updTime f).cacheHits = s.cacheHits := rfl
@[simp] theorem State.updTime_cacheMisses (s : State) (f : Time → Time) : (s.updTime f).cacheMisses = s.cacheMisses := rfl
@[simp] theorem State.updTime_bandCache (s : State) (f : Time → Time) : (s.updTime f).bandCache = s.bandCache := rfl
@[simp] theorem State.updTime_jobs (s : State) (f : Time → Time) : (s.updTime f).jobs = s.jobs := rfl
@[simp] theorem State.updTime_nextJob (s : State) (f : Time → Time) : (s.updTime f).nextJob = s.nextJob := rfl
@[simp] theorem State.updTime_engines (s : State) (f : Time → Time) : (s.updTime f).engines = s.engines := rfl
@[simp] theorem State.updTime_encs (s : State) (f : Time → Time) : (s.updTime f).encs = s.encs := rfl
@[simp] theorem State.updTime_decs (s : State) (f : Time → Time) : (s.updTime f).decs = s.decs := rfl
@[simp] theorem State.updTime_streams (s : State) (f : Time → Time) : (s.updTime f).streams = s.streams := rfl
@[simp] theorem State.updTime_drives (s : State) (f : Time → Time) : (s.updTime f).drives = s.drives := rfl
@[simp] theorem State.updTime_nextNvme (s : State) (f : Time → Time) : (s.updTime f).nextNvme = s.nextNvme := rfl
@[simp] theorem State.updTime_nextGrant (s : State) (f : Time → Time) : (s.updTime f).nextGrant = s.nextGrant := rfl
@[simp] theorem State.updTime_egress (s : State) (f : Time → Time) : (s.updTime f).egress = s.egress := rfl
@[simp] theorem State.updTime_brl (s : State) (f : Time → Time) : (s.updTime f).brl = s.brl := rfl
@[simp] theorem State.updTime_brlErrors (s : State) (f : Time → Time) : (s.updTime f).brlErrors = s.brlErrors := rfl
@[simp] theorem State.updTime_mem (s : State) (f : Time → Time) : (s.updTime f).mem = s.mem := rfl
@[simp] theorem State.updTime_ep (s : State) (f : Time → Time) : (s.updTime f).ep = s.ep := rfl
@[simp] theorem State.updTime_vecs (s : State) (f : Time → Time) : (s.updTime f).vecs = s.vecs := rfl
@[simp] theorem State.updTime_yards (s : State) (f : Time → Time) : (s.updTime f).yards = s.yards := rfl
@[simp] theorem State.updTime_trust (s : State) (f : Time → Time) : (s.updTime f).trust = s.trust := rfl
@[simp] theorem State.updTime_health (s : State) (f : Time → Time) : (s.updTime f).health = s.health := rfl
@[simp] theorem State.updTime_obs (s : State) (f : Time → Time) : (s.updTime f).obs = s.obs := rfl
@[simp] theorem State.updTime_nv (s : State) (f : Time → Time) : (s.updTime f).nv = s.nv := rfl
@[simp] theorem State.updTime_latches (s : State) (f : Time → Time) : (s.updTime f).latches = s.latches := rfl
@[simp] theorem State.updTime_free (s : State) (f : Time → Time) : (s.updTime f).free = s.free := rfl
@[simp] theorem State.updTime_outs (s : State) (f : Time → Time) : (s.updTime f).outs = s.outs := rfl
@[simp] theorem State.updTime_pending (s : State) (f : Time → Time) : (s.updTime f).pending = s.pending := rfl
@[simp] theorem State.updTime_time (s : State) (f : Time → Time) : (s.updTime f).time = f s.time := rfl
@[simp] theorem State.updTrust_power (s : State) (f : Trust → Trust) : (s.updTrust f).power = s.power := rfl
@[simp] theorem State.updTrust_ncp (s : State) (f : Trust → Trust) : (s.updTrust f).ncp = s.ncp := rfl
@[simp] theorem State.updTrust_cfg (s : State) (f : Trust → Trust) : (s.updTrust f).cfg = s.cfg := rfl
@[simp] theorem State.updTrust_ledger (s : State) (f : Trust → Trust) : (s.updTrust f).ledger = s.ledger := rfl
@[simp] theorem State.updTrust_shrouds (s : State) (f : Trust → Trust) : (s.updTrust f).shrouds = s.shrouds := rfl
@[simp] theorem State.updTrust_sensors (s : State) (f : Trust → Trust) : (s.updTrust f).sensors = s.sensors := rfl
@[simp] theorem State.updTrust_ctxs (s : State) (f : Trust → Trust) : (s.updTrust f).ctxs = s.ctxs := rfl
@[simp] theorem State.updTrust_dev (s : State) (f : Trust → Trust) : (s.updTrust f).dev = s.dev := rfl
@[simp] theorem State.updTrust_steep (s : State) (f : Trust → Trust) : (s.updTrust f).steep = s.steep := rfl
@[simp] theorem State.updTrust_mash (s : State) (f : Trust → Trust) : (s.updTrust f).mash = s.mash := rfl
@[simp] theorem State.updTrust_luts (s : State) (f : Trust → Trust) : (s.updTrust f).luts = s.luts := rfl
@[simp] theorem State.updTrust_cacheHits (s : State) (f : Trust → Trust) : (s.updTrust f).cacheHits = s.cacheHits := rfl
@[simp] theorem State.updTrust_cacheMisses (s : State) (f : Trust → Trust) : (s.updTrust f).cacheMisses = s.cacheMisses := rfl
@[simp] theorem State.updTrust_bandCache (s : State) (f : Trust → Trust) : (s.updTrust f).bandCache = s.bandCache := rfl
@[simp] theorem State.updTrust_jobs (s : State) (f : Trust → Trust) : (s.updTrust f).jobs = s.jobs := rfl
@[simp] theorem State.updTrust_nextJob (s : State) (f : Trust → Trust) : (s.updTrust f).nextJob = s.nextJob := rfl
@[simp] theorem State.updTrust_engines (s : State) (f : Trust → Trust) : (s.updTrust f).engines = s.engines := rfl
@[simp] theorem State.updTrust_encs (s : State) (f : Trust → Trust) : (s.updTrust f).encs = s.encs := rfl
@[simp] theorem State.updTrust_decs (s : State) (f : Trust → Trust) : (s.updTrust f).decs = s.decs := rfl
@[simp] theorem State.updTrust_streams (s : State) (f : Trust → Trust) : (s.updTrust f).streams = s.streams := rfl
@[simp] theorem State.updTrust_drives (s : State) (f : Trust → Trust) : (s.updTrust f).drives = s.drives := rfl
@[simp] theorem State.updTrust_nextNvme (s : State) (f : Trust → Trust) : (s.updTrust f).nextNvme = s.nextNvme := rfl
@[simp] theorem State.updTrust_nextGrant (s : State) (f : Trust → Trust) : (s.updTrust f).nextGrant = s.nextGrant := rfl
@[simp] theorem State.updTrust_egress (s : State) (f : Trust → Trust) : (s.updTrust f).egress = s.egress := rfl
@[simp] theorem State.updTrust_brl (s : State) (f : Trust → Trust) : (s.updTrust f).brl = s.brl := rfl
@[simp] theorem State.updTrust_brlErrors (s : State) (f : Trust → Trust) : (s.updTrust f).brlErrors = s.brlErrors := rfl
@[simp] theorem State.updTrust_mem (s : State) (f : Trust → Trust) : (s.updTrust f).mem = s.mem := rfl
@[simp] theorem State.updTrust_ep (s : State) (f : Trust → Trust) : (s.updTrust f).ep = s.ep := rfl
@[simp] theorem State.updTrust_vecs (s : State) (f : Trust → Trust) : (s.updTrust f).vecs = s.vecs := rfl
@[simp] theorem State.updTrust_yards (s : State) (f : Trust → Trust) : (s.updTrust f).yards = s.yards := rfl
@[simp] theorem State.updTrust_time (s : State) (f : Trust → Trust) : (s.updTrust f).time = s.time := rfl
@[simp] theorem State.updTrust_health (s : State) (f : Trust → Trust) : (s.updTrust f).health = s.health := rfl
@[simp] theorem State.updTrust_obs (s : State) (f : Trust → Trust) : (s.updTrust f).obs = s.obs := rfl
@[simp] theorem State.updTrust_nv (s : State) (f : Trust → Trust) : (s.updTrust f).nv = s.nv := rfl
@[simp] theorem State.updTrust_latches (s : State) (f : Trust → Trust) : (s.updTrust f).latches = s.latches := rfl
@[simp] theorem State.updTrust_free (s : State) (f : Trust → Trust) : (s.updTrust f).free = s.free := rfl
@[simp] theorem State.updTrust_outs (s : State) (f : Trust → Trust) : (s.updTrust f).outs = s.outs := rfl
@[simp] theorem State.updTrust_pending (s : State) (f : Trust → Trust) : (s.updTrust f).pending = s.pending := rfl
@[simp] theorem State.updTrust_trust (s : State) (f : Trust → Trust) : (s.updTrust f).trust = f s.trust := rfl
@[simp] theorem State.updHealth_power (s : State) (f : Health → Health) : (s.updHealth f).power = s.power := rfl
@[simp] theorem State.updHealth_ncp (s : State) (f : Health → Health) : (s.updHealth f).ncp = s.ncp := rfl
@[simp] theorem State.updHealth_cfg (s : State) (f : Health → Health) : (s.updHealth f).cfg = s.cfg := rfl
@[simp] theorem State.updHealth_ledger (s : State) (f : Health → Health) : (s.updHealth f).ledger = s.ledger := rfl
@[simp] theorem State.updHealth_shrouds (s : State) (f : Health → Health) : (s.updHealth f).shrouds = s.shrouds := rfl
@[simp] theorem State.updHealth_sensors (s : State) (f : Health → Health) : (s.updHealth f).sensors = s.sensors := rfl
@[simp] theorem State.updHealth_ctxs (s : State) (f : Health → Health) : (s.updHealth f).ctxs = s.ctxs := rfl
@[simp] theorem State.updHealth_dev (s : State) (f : Health → Health) : (s.updHealth f).dev = s.dev := rfl
@[simp] theorem State.updHealth_steep (s : State) (f : Health → Health) : (s.updHealth f).steep = s.steep := rfl
@[simp] theorem State.updHealth_mash (s : State) (f : Health → Health) : (s.updHealth f).mash = s.mash := rfl
@[simp] theorem State.updHealth_luts (s : State) (f : Health → Health) : (s.updHealth f).luts = s.luts := rfl
@[simp] theorem State.updHealth_cacheHits (s : State) (f : Health → Health) : (s.updHealth f).cacheHits = s.cacheHits := rfl
@[simp] theorem State.updHealth_cacheMisses (s : State) (f : Health → Health) : (s.updHealth f).cacheMisses = s.cacheMisses := rfl
@[simp] theorem State.updHealth_bandCache (s : State) (f : Health → Health) : (s.updHealth f).bandCache = s.bandCache := rfl
@[simp] theorem State.updHealth_jobs (s : State) (f : Health → Health) : (s.updHealth f).jobs = s.jobs := rfl
@[simp] theorem State.updHealth_nextJob (s : State) (f : Health → Health) : (s.updHealth f).nextJob = s.nextJob := rfl
@[simp] theorem State.updHealth_engines (s : State) (f : Health → Health) : (s.updHealth f).engines = s.engines := rfl
@[simp] theorem State.updHealth_encs (s : State) (f : Health → Health) : (s.updHealth f).encs = s.encs := rfl
@[simp] theorem State.updHealth_decs (s : State) (f : Health → Health) : (s.updHealth f).decs = s.decs := rfl
@[simp] theorem State.updHealth_streams (s : State) (f : Health → Health) : (s.updHealth f).streams = s.streams := rfl
@[simp] theorem State.updHealth_drives (s : State) (f : Health → Health) : (s.updHealth f).drives = s.drives := rfl
@[simp] theorem State.updHealth_nextNvme (s : State) (f : Health → Health) : (s.updHealth f).nextNvme = s.nextNvme := rfl
@[simp] theorem State.updHealth_nextGrant (s : State) (f : Health → Health) : (s.updHealth f).nextGrant = s.nextGrant := rfl
@[simp] theorem State.updHealth_egress (s : State) (f : Health → Health) : (s.updHealth f).egress = s.egress := rfl
@[simp] theorem State.updHealth_brl (s : State) (f : Health → Health) : (s.updHealth f).brl = s.brl := rfl
@[simp] theorem State.updHealth_brlErrors (s : State) (f : Health → Health) : (s.updHealth f).brlErrors = s.brlErrors := rfl
@[simp] theorem State.updHealth_mem (s : State) (f : Health → Health) : (s.updHealth f).mem = s.mem := rfl
@[simp] theorem State.updHealth_ep (s : State) (f : Health → Health) : (s.updHealth f).ep = s.ep := rfl
@[simp] theorem State.updHealth_vecs (s : State) (f : Health → Health) : (s.updHealth f).vecs = s.vecs := rfl
@[simp] theorem State.updHealth_yards (s : State) (f : Health → Health) : (s.updHealth f).yards = s.yards := rfl
@[simp] theorem State.updHealth_time (s : State) (f : Health → Health) : (s.updHealth f).time = s.time := rfl
@[simp] theorem State.updHealth_trust (s : State) (f : Health → Health) : (s.updHealth f).trust = s.trust := rfl
@[simp] theorem State.updHealth_obs (s : State) (f : Health → Health) : (s.updHealth f).obs = s.obs := rfl
@[simp] theorem State.updHealth_nv (s : State) (f : Health → Health) : (s.updHealth f).nv = s.nv := rfl
@[simp] theorem State.updHealth_latches (s : State) (f : Health → Health) : (s.updHealth f).latches = s.latches := rfl
@[simp] theorem State.updHealth_free (s : State) (f : Health → Health) : (s.updHealth f).free = s.free := rfl
@[simp] theorem State.updHealth_outs (s : State) (f : Health → Health) : (s.updHealth f).outs = s.outs := rfl
@[simp] theorem State.updHealth_pending (s : State) (f : Health → Health) : (s.updHealth f).pending = s.pending := rfl
@[simp] theorem State.updHealth_health (s : State) (f : Health → Health) : (s.updHealth f).health = f s.health := rfl
@[simp] theorem State.updObs_power (s : State) (f : Obs → Obs) : (s.updObs f).power = s.power := rfl
@[simp] theorem State.updObs_ncp (s : State) (f : Obs → Obs) : (s.updObs f).ncp = s.ncp := rfl
@[simp] theorem State.updObs_cfg (s : State) (f : Obs → Obs) : (s.updObs f).cfg = s.cfg := rfl
@[simp] theorem State.updObs_ledger (s : State) (f : Obs → Obs) : (s.updObs f).ledger = s.ledger := rfl
@[simp] theorem State.updObs_shrouds (s : State) (f : Obs → Obs) : (s.updObs f).shrouds = s.shrouds := rfl
@[simp] theorem State.updObs_sensors (s : State) (f : Obs → Obs) : (s.updObs f).sensors = s.sensors := rfl
@[simp] theorem State.updObs_ctxs (s : State) (f : Obs → Obs) : (s.updObs f).ctxs = s.ctxs := rfl
@[simp] theorem State.updObs_dev (s : State) (f : Obs → Obs) : (s.updObs f).dev = s.dev := rfl
@[simp] theorem State.updObs_steep (s : State) (f : Obs → Obs) : (s.updObs f).steep = s.steep := rfl
@[simp] theorem State.updObs_mash (s : State) (f : Obs → Obs) : (s.updObs f).mash = s.mash := rfl
@[simp] theorem State.updObs_luts (s : State) (f : Obs → Obs) : (s.updObs f).luts = s.luts := rfl
@[simp] theorem State.updObs_cacheHits (s : State) (f : Obs → Obs) : (s.updObs f).cacheHits = s.cacheHits := rfl
@[simp] theorem State.updObs_cacheMisses (s : State) (f : Obs → Obs) : (s.updObs f).cacheMisses = s.cacheMisses := rfl
@[simp] theorem State.updObs_bandCache (s : State) (f : Obs → Obs) : (s.updObs f).bandCache = s.bandCache := rfl
@[simp] theorem State.updObs_jobs (s : State) (f : Obs → Obs) : (s.updObs f).jobs = s.jobs := rfl
@[simp] theorem State.updObs_nextJob (s : State) (f : Obs → Obs) : (s.updObs f).nextJob = s.nextJob := rfl
@[simp] theorem State.updObs_engines (s : State) (f : Obs → Obs) : (s.updObs f).engines = s.engines := rfl
@[simp] theorem State.updObs_encs (s : State) (f : Obs → Obs) : (s.updObs f).encs = s.encs := rfl
@[simp] theorem State.updObs_decs (s : State) (f : Obs → Obs) : (s.updObs f).decs = s.decs := rfl
@[simp] theorem State.updObs_streams (s : State) (f : Obs → Obs) : (s.updObs f).streams = s.streams := rfl
@[simp] theorem State.updObs_drives (s : State) (f : Obs → Obs) : (s.updObs f).drives = s.drives := rfl
@[simp] theorem State.updObs_nextNvme (s : State) (f : Obs → Obs) : (s.updObs f).nextNvme = s.nextNvme := rfl
@[simp] theorem State.updObs_nextGrant (s : State) (f : Obs → Obs) : (s.updObs f).nextGrant = s.nextGrant := rfl
@[simp] theorem State.updObs_egress (s : State) (f : Obs → Obs) : (s.updObs f).egress = s.egress := rfl
@[simp] theorem State.updObs_brl (s : State) (f : Obs → Obs) : (s.updObs f).brl = s.brl := rfl
@[simp] theorem State.updObs_brlErrors (s : State) (f : Obs → Obs) : (s.updObs f).brlErrors = s.brlErrors := rfl
@[simp] theorem State.updObs_mem (s : State) (f : Obs → Obs) : (s.updObs f).mem = s.mem := rfl
@[simp] theorem State.updObs_ep (s : State) (f : Obs → Obs) : (s.updObs f).ep = s.ep := rfl
@[simp] theorem State.updObs_vecs (s : State) (f : Obs → Obs) : (s.updObs f).vecs = s.vecs := rfl
@[simp] theorem State.updObs_yards (s : State) (f : Obs → Obs) : (s.updObs f).yards = s.yards := rfl
@[simp] theorem State.updObs_time (s : State) (f : Obs → Obs) : (s.updObs f).time = s.time := rfl
@[simp] theorem State.updObs_trust (s : State) (f : Obs → Obs) : (s.updObs f).trust = s.trust := rfl
@[simp] theorem State.updObs_health (s : State) (f : Obs → Obs) : (s.updObs f).health = s.health := rfl
@[simp] theorem State.updObs_nv (s : State) (f : Obs → Obs) : (s.updObs f).nv = s.nv := rfl
@[simp] theorem State.updObs_latches (s : State) (f : Obs → Obs) : (s.updObs f).latches = s.latches := rfl
@[simp] theorem State.updObs_free (s : State) (f : Obs → Obs) : (s.updObs f).free = s.free := rfl
@[simp] theorem State.updObs_outs (s : State) (f : Obs → Obs) : (s.updObs f).outs = s.outs := rfl
@[simp] theorem State.updObs_pending (s : State) (f : Obs → Obs) : (s.updObs f).pending = s.pending := rfl
@[simp] theorem State.updObs_obs (s : State) (f : Obs → Obs) : (s.updObs f).obs = f s.obs := rfl
@[simp] theorem State.updNv_power (s : State) (f : Nv → Nv) : (s.updNv f).power = s.power := rfl
@[simp] theorem State.updNv_ncp (s : State) (f : Nv → Nv) : (s.updNv f).ncp = s.ncp := rfl
@[simp] theorem State.updNv_cfg (s : State) (f : Nv → Nv) : (s.updNv f).cfg = s.cfg := rfl
@[simp] theorem State.updNv_ledger (s : State) (f : Nv → Nv) : (s.updNv f).ledger = s.ledger := rfl
@[simp] theorem State.updNv_shrouds (s : State) (f : Nv → Nv) : (s.updNv f).shrouds = s.shrouds := rfl
@[simp] theorem State.updNv_sensors (s : State) (f : Nv → Nv) : (s.updNv f).sensors = s.sensors := rfl
@[simp] theorem State.updNv_ctxs (s : State) (f : Nv → Nv) : (s.updNv f).ctxs = s.ctxs := rfl
@[simp] theorem State.updNv_dev (s : State) (f : Nv → Nv) : (s.updNv f).dev = s.dev := rfl
@[simp] theorem State.updNv_steep (s : State) (f : Nv → Nv) : (s.updNv f).steep = s.steep := rfl
@[simp] theorem State.updNv_mash (s : State) (f : Nv → Nv) : (s.updNv f).mash = s.mash := rfl
@[simp] theorem State.updNv_luts (s : State) (f : Nv → Nv) : (s.updNv f).luts = s.luts := rfl
@[simp] theorem State.updNv_cacheHits (s : State) (f : Nv → Nv) : (s.updNv f).cacheHits = s.cacheHits := rfl
@[simp] theorem State.updNv_cacheMisses (s : State) (f : Nv → Nv) : (s.updNv f).cacheMisses = s.cacheMisses := rfl
@[simp] theorem State.updNv_bandCache (s : State) (f : Nv → Nv) : (s.updNv f).bandCache = s.bandCache := rfl
@[simp] theorem State.updNv_jobs (s : State) (f : Nv → Nv) : (s.updNv f).jobs = s.jobs := rfl
@[simp] theorem State.updNv_nextJob (s : State) (f : Nv → Nv) : (s.updNv f).nextJob = s.nextJob := rfl
@[simp] theorem State.updNv_engines (s : State) (f : Nv → Nv) : (s.updNv f).engines = s.engines := rfl
@[simp] theorem State.updNv_encs (s : State) (f : Nv → Nv) : (s.updNv f).encs = s.encs := rfl
@[simp] theorem State.updNv_decs (s : State) (f : Nv → Nv) : (s.updNv f).decs = s.decs := rfl
@[simp] theorem State.updNv_streams (s : State) (f : Nv → Nv) : (s.updNv f).streams = s.streams := rfl
@[simp] theorem State.updNv_drives (s : State) (f : Nv → Nv) : (s.updNv f).drives = s.drives := rfl
@[simp] theorem State.updNv_nextNvme (s : State) (f : Nv → Nv) : (s.updNv f).nextNvme = s.nextNvme := rfl
@[simp] theorem State.updNv_nextGrant (s : State) (f : Nv → Nv) : (s.updNv f).nextGrant = s.nextGrant := rfl
@[simp] theorem State.updNv_egress (s : State) (f : Nv → Nv) : (s.updNv f).egress = s.egress := rfl
@[simp] theorem State.updNv_brl (s : State) (f : Nv → Nv) : (s.updNv f).brl = s.brl := rfl
@[simp] theorem State.updNv_brlErrors (s : State) (f : Nv → Nv) : (s.updNv f).brlErrors = s.brlErrors := rfl
@[simp] theorem State.updNv_mem (s : State) (f : Nv → Nv) : (s.updNv f).mem = s.mem := rfl
@[simp] theorem State.updNv_ep (s : State) (f : Nv → Nv) : (s.updNv f).ep = s.ep := rfl
@[simp] theorem State.updNv_vecs (s : State) (f : Nv → Nv) : (s.updNv f).vecs = s.vecs := rfl
@[simp] theorem State.updNv_yards (s : State) (f : Nv → Nv) : (s.updNv f).yards = s.yards := rfl
@[simp] theorem State.updNv_time (s : State) (f : Nv → Nv) : (s.updNv f).time = s.time := rfl
@[simp] theorem State.updNv_trust (s : State) (f : Nv → Nv) : (s.updNv f).trust = s.trust := rfl
@[simp] theorem State.updNv_health (s : State) (f : Nv → Nv) : (s.updNv f).health = s.health := rfl
@[simp] theorem State.updNv_obs (s : State) (f : Nv → Nv) : (s.updNv f).obs = s.obs := rfl
@[simp] theorem State.updNv_latches (s : State) (f : Nv → Nv) : (s.updNv f).latches = s.latches := rfl
@[simp] theorem State.updNv_free (s : State) (f : Nv → Nv) : (s.updNv f).free = s.free := rfl
@[simp] theorem State.updNv_outs (s : State) (f : Nv → Nv) : (s.updNv f).outs = s.outs := rfl
@[simp] theorem State.updNv_pending (s : State) (f : Nv → Nv) : (s.updNv f).pending = s.pending := rfl
@[simp] theorem State.updNv_nv (s : State) (f : Nv → Nv) : (s.updNv f).nv = f s.nv := rfl
@[simp] theorem State.updShroud_power (s : State) (n : Nat) (f : Shroud → Shroud) : (s.updShroud n f).power = s.power := rfl
@[simp] theorem State.updShroud_ncp (s : State) (n : Nat) (f : Shroud → Shroud) : (s.updShroud n f).ncp = s.ncp := rfl
@[simp] theorem State.updShroud_cfg (s : State) (n : Nat) (f : Shroud → Shroud) : (s.updShroud n f).cfg = s.cfg := rfl
@[simp] theorem State.updShroud_ledger (s : State) (n : Nat) (f : Shroud → Shroud) : (s.updShroud n f).ledger = s.ledger := rfl
@[simp] theorem State.updShroud_sensors (s : State) (n : Nat) (f : Shroud → Shroud) : (s.updShroud n f).sensors = s.sensors := rfl
@[simp] theorem State.updShroud_ctxs (s : State) (n : Nat) (f : Shroud → Shroud) : (s.updShroud n f).ctxs = s.ctxs := rfl
@[simp] theorem State.updShroud_dev (s : State) (n : Nat) (f : Shroud → Shroud) : (s.updShroud n f).dev = s.dev := rfl
@[simp] theorem State.updShroud_steep (s : State) (n : Nat) (f : Shroud → Shroud) : (s.updShroud n f).steep = s.steep := rfl
@[simp] theorem State.updShroud_mash (s : State) (n : Nat) (f : Shroud → Shroud) : (s.updShroud n f).mash = s.mash := rfl
@[simp] theorem State.updShroud_luts (s : State) (n : Nat) (f : Shroud → Shroud) : (s.updShroud n f).luts = s.luts := rfl
@[simp] theorem State.updShroud_cacheHits (s : State) (n : Nat) (f : Shroud → Shroud) : (s.updShroud n f).cacheHits = s.cacheHits := rfl
@[simp] theorem State.updShroud_cacheMisses (s : State) (n : Nat) (f : Shroud → Shroud) : (s.updShroud n f).cacheMisses = s.cacheMisses := rfl
@[simp] theorem State.updShroud_bandCache (s : State) (n : Nat) (f : Shroud → Shroud) : (s.updShroud n f).bandCache = s.bandCache := rfl
@[simp] theorem State.updShroud_jobs (s : State) (n : Nat) (f : Shroud → Shroud) : (s.updShroud n f).jobs = s.jobs := rfl
@[simp] theorem State.updShroud_nextJob (s : State) (n : Nat) (f : Shroud → Shroud) : (s.updShroud n f).nextJob = s.nextJob := rfl
@[simp] theorem State.updShroud_engines (s : State) (n : Nat) (f : Shroud → Shroud) : (s.updShroud n f).engines = s.engines := rfl
@[simp] theorem State.updShroud_encs (s : State) (n : Nat) (f : Shroud → Shroud) : (s.updShroud n f).encs = s.encs := rfl
@[simp] theorem State.updShroud_decs (s : State) (n : Nat) (f : Shroud → Shroud) : (s.updShroud n f).decs = s.decs := rfl
@[simp] theorem State.updShroud_streams (s : State) (n : Nat) (f : Shroud → Shroud) : (s.updShroud n f).streams = s.streams := rfl
@[simp] theorem State.updShroud_drives (s : State) (n : Nat) (f : Shroud → Shroud) : (s.updShroud n f).drives = s.drives := rfl
@[simp] theorem State.updShroud_nextNvme (s : State) (n : Nat) (f : Shroud → Shroud) : (s.updShroud n f).nextNvme = s.nextNvme := rfl
@[simp] theorem State.updShroud_nextGrant (s : State) (n : Nat) (f : Shroud → Shroud) : (s.updShroud n f).nextGrant = s.nextGrant := rfl
@[simp] theorem State.updShroud_egress (s : State) (n : Nat) (f : Shroud → Shroud) : (s.updShroud n f).egress = s.egress := rfl
@[simp] theorem State.updShroud_brl (s : State) (n : Nat) (f : Shroud → Shroud) : (s.updShroud n f).brl = s.brl := rfl
@[simp] theorem State.updShroud_brlErrors (s : State) (n : Nat) (f : Shroud → Shroud) : (s.updShroud n f).brlErrors = s.brlErrors := rfl
@[simp] theorem State.updShroud_mem (s : State) (n : Nat) (f : Shroud → Shroud) : (s.updShroud n f).mem = s.mem := rfl
@[simp] theorem State.updShroud_ep (s : State) (n : Nat) (f : Shroud → Shroud) : (s.updShroud n f).ep = s.ep := rfl
@[simp] theorem State.updShroud_vecs (s : State) (n : Nat) (f : Shroud → Shroud) : (s.updShroud n f).vecs = s.vecs := rfl
@[simp] theorem State.updShroud_yards (s : State) (n : Nat) (f : Shroud → Shroud) : (s.updShroud n f).yards = s.yards := rfl
@[simp] theorem State.updShroud_time (s : State) (n : Nat) (f : Shroud → Shroud) : (s.updShroud n f).time = s.time := rfl
@[simp] theorem State.updShroud_trust (s : State) (n : Nat) (f : Shroud → Shroud) : (s.updShroud n f).trust = s.trust := rfl
@[simp] theorem State.updShroud_health (s : State) (n : Nat) (f : Shroud → Shroud) : (s.updShroud n f).health = s.health := rfl
@[simp] theorem State.updShroud_obs (s : State) (n : Nat) (f : Shroud → Shroud) : (s.updShroud n f).obs = s.obs := rfl
@[simp] theorem State.updShroud_nv (s : State) (n : Nat) (f : Shroud → Shroud) : (s.updShroud n f).nv = s.nv := rfl
@[simp] theorem State.updShroud_latches (s : State) (n : Nat) (f : Shroud → Shroud) : (s.updShroud n f).latches = s.latches := rfl
@[simp] theorem State.updShroud_free (s : State) (n : Nat) (f : Shroud → Shroud) : (s.updShroud n f).free = s.free := rfl
@[simp] theorem State.updShroud_outs (s : State) (n : Nat) (f : Shroud → Shroud) : (s.updShroud n f).outs = s.outs := rfl
@[simp] theorem State.updShroud_pending (s : State) (n : Nat) (f : Shroud → Shroud) : (s.updShroud n f).pending = s.pending := rfl
@[simp] theorem State.updShroud_shrouds (s : State) (n : Nat) (f : Shroud → Shroud) : (s.updShroud n f).shrouds = upd s.shrouds n f := rfl
@[simp] theorem State.updSensor_power (s : State) (n : Nat) (f : Sensor → Sensor) : (s.updSensor n f).power = s.power := rfl
@[simp] theorem State.updSensor_ncp (s : State) (n : Nat) (f : Sensor → Sensor) : (s.updSensor n f).ncp = s.ncp := rfl
@[simp] theorem State.updSensor_cfg (s : State) (n : Nat) (f : Sensor → Sensor) : (s.updSensor n f).cfg = s.cfg := rfl
@[simp] theorem State.updSensor_ledger (s : State) (n : Nat) (f : Sensor → Sensor) : (s.updSensor n f).ledger = s.ledger := rfl
@[simp] theorem State.updSensor_shrouds (s : State) (n : Nat) (f : Sensor → Sensor) : (s.updSensor n f).shrouds = s.shrouds := rfl
@[simp] theorem State.updSensor_ctxs (s : State) (n : Nat) (f : Sensor → Sensor) : (s.updSensor n f).ctxs = s.ctxs := rfl
@[simp] theorem State.updSensor_dev (s : State) (n : Nat) (f : Sensor → Sensor) : (s.updSensor n f).dev = s.dev := rfl
@[simp] theorem State.updSensor_steep (s : State) (n : Nat) (f : Sensor → Sensor) : (s.updSensor n f).steep = s.steep := rfl
@[simp] theorem State.updSensor_mash (s : State) (n : Nat) (f : Sensor → Sensor) : (s.updSensor n f).mash = s.mash := rfl
@[simp] theorem State.updSensor_luts (s : State) (n : Nat) (f : Sensor → Sensor) : (s.updSensor n f).luts = s.luts := rfl
@[simp] theorem State.updSensor_cacheHits (s : State) (n : Nat) (f : Sensor → Sensor) : (s.updSensor n f).cacheHits = s.cacheHits := rfl
@[simp] theorem State.updSensor_cacheMisses (s : State) (n : Nat) (f : Sensor → Sensor) : (s.updSensor n f).cacheMisses = s.cacheMisses := rfl
@[simp] theorem State.updSensor_bandCache (s : State) (n : Nat) (f : Sensor → Sensor) : (s.updSensor n f).bandCache = s.bandCache := rfl
@[simp] theorem State.updSensor_jobs (s : State) (n : Nat) (f : Sensor → Sensor) : (s.updSensor n f).jobs = s.jobs := rfl
@[simp] theorem State.updSensor_nextJob (s : State) (n : Nat) (f : Sensor → Sensor) : (s.updSensor n f).nextJob = s.nextJob := rfl
@[simp] theorem State.updSensor_engines (s : State) (n : Nat) (f : Sensor → Sensor) : (s.updSensor n f).engines = s.engines := rfl
@[simp] theorem State.updSensor_encs (s : State) (n : Nat) (f : Sensor → Sensor) : (s.updSensor n f).encs = s.encs := rfl
@[simp] theorem State.updSensor_decs (s : State) (n : Nat) (f : Sensor → Sensor) : (s.updSensor n f).decs = s.decs := rfl
@[simp] theorem State.updSensor_streams (s : State) (n : Nat) (f : Sensor → Sensor) : (s.updSensor n f).streams = s.streams := rfl
@[simp] theorem State.updSensor_drives (s : State) (n : Nat) (f : Sensor → Sensor) : (s.updSensor n f).drives = s.drives := rfl
@[simp] theorem State.updSensor_nextNvme (s : State) (n : Nat) (f : Sensor → Sensor) : (s.updSensor n f).nextNvme = s.nextNvme := rfl
@[simp] theorem State.updSensor_nextGrant (s : State) (n : Nat) (f : Sensor → Sensor) : (s.updSensor n f).nextGrant = s.nextGrant := rfl
@[simp] theorem State.updSensor_egress (s : State) (n : Nat) (f : Sensor → Sensor) : (s.updSensor n f).egress = s.egress := rfl
@[simp] theorem State.updSensor_brl (s : State) (n : Nat) (f : Sensor → Sensor) : (s.updSensor n f).brl = s.brl := rfl
@[simp] theorem State.updSensor_brlErrors (s : State) (n : Nat) (f : Sensor → Sensor) : (s.updSensor n f).brlErrors = s.brlErrors := rfl
@[simp] theorem State.updSensor_mem (s : State) (n : Nat) (f : Sensor → Sensor) : (s.updSensor n f).mem = s.mem := rfl
@[simp] theorem State.updSensor_ep (s : State) (n : Nat) (f : Sensor → Sensor) : (s.updSensor n f).ep = s.ep := rfl
@[simp] theorem State.updSensor_vecs (s : State) (n : Nat) (f : Sensor → Sensor) : (s.updSensor n f).vecs = s.vecs := rfl
@[simp] theorem State.updSensor_yards (s : State) (n : Nat) (f : Sensor → Sensor) : (s.updSensor n f).yards = s.yards := rfl
@[simp] theorem State.updSensor_time (s : State) (n : Nat) (f : Sensor → Sensor) : (s.updSensor n f).time = s.time := rfl
@[simp] theorem State.updSensor_trust (s : State) (n : Nat) (f : Sensor → Sensor) : (s.updSensor n f).trust = s.trust := rfl
@[simp] theorem State.updSensor_health (s : State) (n : Nat) (f : Sensor → Sensor) : (s.updSensor n f).health = s.health := rfl
@[simp] theorem State.updSensor_obs (s : State) (n : Nat) (f : Sensor → Sensor) : (s.updSensor n f).obs = s.obs := rfl
@[simp] theorem State.updSensor_nv (s : State) (n : Nat) (f : Sensor → Sensor) : (s.updSensor n f).nv = s.nv := rfl
@[simp] theorem State.updSensor_latches (s : State) (n : Nat) (f : Sensor → Sensor) : (s.updSensor n f).latches = s.latches := rfl
@[simp] theorem State.updSensor_free (s : State) (n : Nat) (f : Sensor → Sensor) : (s.updSensor n f).free = s.free := rfl
@[simp] theorem State.updSensor_outs (s : State) (n : Nat) (f : Sensor → Sensor) : (s.updSensor n f).outs = s.outs := rfl
@[simp] theorem State.updSensor_pending (s : State) (n : Nat) (f : Sensor → Sensor) : (s.updSensor n f).pending = s.pending := rfl
@[simp] theorem State.updSensor_sensors (s : State) (n : Nat) (f : Sensor → Sensor) : (s.updSensor n f).sensors = upd s.sensors n f := rfl
@[simp] theorem State.updCtx_power (s : State) (n : Nat) (f : Context → Context) : (s.updCtx n f).power = s.power := rfl
@[simp] theorem State.updCtx_ncp (s : State) (n : Nat) (f : Context → Context) : (s.updCtx n f).ncp = s.ncp := rfl
@[simp] theorem State.updCtx_cfg (s : State) (n : Nat) (f : Context → Context) : (s.updCtx n f).cfg = s.cfg := rfl
@[simp] theorem State.updCtx_ledger (s : State) (n : Nat) (f : Context → Context) : (s.updCtx n f).ledger = s.ledger := rfl
@[simp] theorem State.updCtx_shrouds (s : State) (n : Nat) (f : Context → Context) : (s.updCtx n f).shrouds = s.shrouds := rfl
@[simp] theorem State.updCtx_sensors (s : State) (n : Nat) (f : Context → Context) : (s.updCtx n f).sensors = s.sensors := rfl
@[simp] theorem State.updCtx_dev (s : State) (n : Nat) (f : Context → Context) : (s.updCtx n f).dev = s.dev := rfl
@[simp] theorem State.updCtx_steep (s : State) (n : Nat) (f : Context → Context) : (s.updCtx n f).steep = s.steep := rfl
@[simp] theorem State.updCtx_mash (s : State) (n : Nat) (f : Context → Context) : (s.updCtx n f).mash = s.mash := rfl
@[simp] theorem State.updCtx_luts (s : State) (n : Nat) (f : Context → Context) : (s.updCtx n f).luts = s.luts := rfl
@[simp] theorem State.updCtx_cacheHits (s : State) (n : Nat) (f : Context → Context) : (s.updCtx n f).cacheHits = s.cacheHits := rfl
@[simp] theorem State.updCtx_cacheMisses (s : State) (n : Nat) (f : Context → Context) : (s.updCtx n f).cacheMisses = s.cacheMisses := rfl
@[simp] theorem State.updCtx_bandCache (s : State) (n : Nat) (f : Context → Context) : (s.updCtx n f).bandCache = s.bandCache := rfl
@[simp] theorem State.updCtx_jobs (s : State) (n : Nat) (f : Context → Context) : (s.updCtx n f).jobs = s.jobs := rfl
@[simp] theorem State.updCtx_nextJob (s : State) (n : Nat) (f : Context → Context) : (s.updCtx n f).nextJob = s.nextJob := rfl
@[simp] theorem State.updCtx_engines (s : State) (n : Nat) (f : Context → Context) : (s.updCtx n f).engines = s.engines := rfl
@[simp] theorem State.updCtx_encs (s : State) (n : Nat) (f : Context → Context) : (s.updCtx n f).encs = s.encs := rfl
@[simp] theorem State.updCtx_decs (s : State) (n : Nat) (f : Context → Context) : (s.updCtx n f).decs = s.decs := rfl
@[simp] theorem State.updCtx_streams (s : State) (n : Nat) (f : Context → Context) : (s.updCtx n f).streams = s.streams := rfl
@[simp] theorem State.updCtx_drives (s : State) (n : Nat) (f : Context → Context) : (s.updCtx n f).drives = s.drives := rfl
@[simp] theorem State.updCtx_nextNvme (s : State) (n : Nat) (f : Context → Context) : (s.updCtx n f).nextNvme = s.nextNvme := rfl
@[simp] theorem State.updCtx_nextGrant (s : State) (n : Nat) (f : Context → Context) : (s.updCtx n f).nextGrant = s.nextGrant := rfl
@[simp] theorem State.updCtx_egress (s : State) (n : Nat) (f : Context → Context) : (s.updCtx n f).egress = s.egress := rfl
@[simp] theorem State.updCtx_brl (s : State) (n : Nat) (f : Context → Context) : (s.updCtx n f).brl = s.brl := rfl
@[simp] theorem State.updCtx_brlErrors (s : State) (n : Nat) (f : Context → Context) : (s.updCtx n f).brlErrors = s.brlErrors := rfl
@[simp] theorem State.updCtx_mem (s : State) (n : Nat) (f : Context → Context) : (s.updCtx n f).mem = s.mem := rfl
@[simp] theorem State.updCtx_ep (s : State) (n : Nat) (f : Context → Context) : (s.updCtx n f).ep = s.ep := rfl
@[simp] theorem State.updCtx_vecs (s : State) (n : Nat) (f : Context → Context) : (s.updCtx n f).vecs = s.vecs := rfl
@[simp] theorem State.updCtx_yards (s : State) (n : Nat) (f : Context → Context) : (s.updCtx n f).yards = s.yards := rfl
@[simp] theorem State.updCtx_time (s : State) (n : Nat) (f : Context → Context) : (s.updCtx n f).time = s.time := rfl
@[simp] theorem State.updCtx_trust (s : State) (n : Nat) (f : Context → Context) : (s.updCtx n f).trust = s.trust := rfl
@[simp] theorem State.updCtx_health (s : State) (n : Nat) (f : Context → Context) : (s.updCtx n f).health = s.health := rfl
@[simp] theorem State.updCtx_obs (s : State) (n : Nat) (f : Context → Context) : (s.updCtx n f).obs = s.obs := rfl
@[simp] theorem State.updCtx_nv (s : State) (n : Nat) (f : Context → Context) : (s.updCtx n f).nv = s.nv := rfl
@[simp] theorem State.updCtx_latches (s : State) (n : Nat) (f : Context → Context) : (s.updCtx n f).latches = s.latches := rfl
@[simp] theorem State.updCtx_free (s : State) (n : Nat) (f : Context → Context) : (s.updCtx n f).free = s.free := rfl
@[simp] theorem State.updCtx_outs (s : State) (n : Nat) (f : Context → Context) : (s.updCtx n f).outs = s.outs := rfl
@[simp] theorem State.updCtx_pending (s : State) (n : Nat) (f : Context → Context) : (s.updCtx n f).pending = s.pending := rfl
@[simp] theorem State.updCtx_ctxs (s : State) (n : Nat) (f : Context → Context) : (s.updCtx n f).ctxs = upd s.ctxs n f := rfl
@[simp] theorem State.updSteep_power (s : State) (n : Nat) (f : SteepCtx → SteepCtx) : (s.updSteep n f).power = s.power := rfl
@[simp] theorem State.updSteep_ncp (s : State) (n : Nat) (f : SteepCtx → SteepCtx) : (s.updSteep n f).ncp = s.ncp := rfl
@[simp] theorem State.updSteep_cfg (s : State) (n : Nat) (f : SteepCtx → SteepCtx) : (s.updSteep n f).cfg = s.cfg := rfl
@[simp] theorem State.updSteep_ledger (s : State) (n : Nat) (f : SteepCtx → SteepCtx) : (s.updSteep n f).ledger = s.ledger := rfl
@[simp] theorem State.updSteep_shrouds (s : State) (n : Nat) (f : SteepCtx → SteepCtx) : (s.updSteep n f).shrouds = s.shrouds := rfl
@[simp] theorem State.updSteep_sensors (s : State) (n : Nat) (f : SteepCtx → SteepCtx) : (s.updSteep n f).sensors = s.sensors := rfl
@[simp] theorem State.updSteep_ctxs (s : State) (n : Nat) (f : SteepCtx → SteepCtx) : (s.updSteep n f).ctxs = s.ctxs := rfl
@[simp] theorem State.updSteep_dev (s : State) (n : Nat) (f : SteepCtx → SteepCtx) : (s.updSteep n f).dev = s.dev := rfl
@[simp] theorem State.updSteep_mash (s : State) (n : Nat) (f : SteepCtx → SteepCtx) : (s.updSteep n f).mash = s.mash := rfl
@[simp] theorem State.updSteep_luts (s : State) (n : Nat) (f : SteepCtx → SteepCtx) : (s.updSteep n f).luts = s.luts := rfl
@[simp] theorem State.updSteep_cacheHits (s : State) (n : Nat) (f : SteepCtx → SteepCtx) : (s.updSteep n f).cacheHits = s.cacheHits := rfl
@[simp] theorem State.updSteep_cacheMisses (s : State) (n : Nat) (f : SteepCtx → SteepCtx) : (s.updSteep n f).cacheMisses = s.cacheMisses := rfl
@[simp] theorem State.updSteep_bandCache (s : State) (n : Nat) (f : SteepCtx → SteepCtx) : (s.updSteep n f).bandCache = s.bandCache := rfl
@[simp] theorem State.updSteep_jobs (s : State) (n : Nat) (f : SteepCtx → SteepCtx) : (s.updSteep n f).jobs = s.jobs := rfl
@[simp] theorem State.updSteep_nextJob (s : State) (n : Nat) (f : SteepCtx → SteepCtx) : (s.updSteep n f).nextJob = s.nextJob := rfl
@[simp] theorem State.updSteep_engines (s : State) (n : Nat) (f : SteepCtx → SteepCtx) : (s.updSteep n f).engines = s.engines := rfl
@[simp] theorem State.updSteep_encs (s : State) (n : Nat) (f : SteepCtx → SteepCtx) : (s.updSteep n f).encs = s.encs := rfl
@[simp] theorem State.updSteep_decs (s : State) (n : Nat) (f : SteepCtx → SteepCtx) : (s.updSteep n f).decs = s.decs := rfl
@[simp] theorem State.updSteep_streams (s : State) (n : Nat) (f : SteepCtx → SteepCtx) : (s.updSteep n f).streams = s.streams := rfl
@[simp] theorem State.updSteep_drives (s : State) (n : Nat) (f : SteepCtx → SteepCtx) : (s.updSteep n f).drives = s.drives := rfl
@[simp] theorem State.updSteep_nextNvme (s : State) (n : Nat) (f : SteepCtx → SteepCtx) : (s.updSteep n f).nextNvme = s.nextNvme := rfl
@[simp] theorem State.updSteep_nextGrant (s : State) (n : Nat) (f : SteepCtx → SteepCtx) : (s.updSteep n f).nextGrant = s.nextGrant := rfl
@[simp] theorem State.updSteep_egress (s : State) (n : Nat) (f : SteepCtx → SteepCtx) : (s.updSteep n f).egress = s.egress := rfl
@[simp] theorem State.updSteep_brl (s : State) (n : Nat) (f : SteepCtx → SteepCtx) : (s.updSteep n f).brl = s.brl := rfl
@[simp] theorem State.updSteep_brlErrors (s : State) (n : Nat) (f : SteepCtx → SteepCtx) : (s.updSteep n f).brlErrors = s.brlErrors := rfl
@[simp] theorem State.updSteep_mem (s : State) (n : Nat) (f : SteepCtx → SteepCtx) : (s.updSteep n f).mem = s.mem := rfl
@[simp] theorem State.updSteep_ep (s : State) (n : Nat) (f : SteepCtx → SteepCtx) : (s.updSteep n f).ep = s.ep := rfl
@[simp] theorem State.updSteep_vecs (s : State) (n : Nat) (f : SteepCtx → SteepCtx) : (s.updSteep n f).vecs = s.vecs := rfl
@[simp] theorem State.updSteep_yards (s : State) (n : Nat) (f : SteepCtx → SteepCtx) : (s.updSteep n f).yards = s.yards := rfl
@[simp] theorem State.updSteep_time (s : State) (n : Nat) (f : SteepCtx → SteepCtx) : (s.updSteep n f).time = s.time := rfl
@[simp] theorem State.updSteep_trust (s : State) (n : Nat) (f : SteepCtx → SteepCtx) : (s.updSteep n f).trust = s.trust := rfl
@[simp] theorem State.updSteep_health (s : State) (n : Nat) (f : SteepCtx → SteepCtx) : (s.updSteep n f).health = s.health := rfl
@[simp] theorem State.updSteep_obs (s : State) (n : Nat) (f : SteepCtx → SteepCtx) : (s.updSteep n f).obs = s.obs := rfl
@[simp] theorem State.updSteep_nv (s : State) (n : Nat) (f : SteepCtx → SteepCtx) : (s.updSteep n f).nv = s.nv := rfl
@[simp] theorem State.updSteep_latches (s : State) (n : Nat) (f : SteepCtx → SteepCtx) : (s.updSteep n f).latches = s.latches := rfl
@[simp] theorem State.updSteep_free (s : State) (n : Nat) (f : SteepCtx → SteepCtx) : (s.updSteep n f).free = s.free := rfl
@[simp] theorem State.updSteep_outs (s : State) (n : Nat) (f : SteepCtx → SteepCtx) : (s.updSteep n f).outs = s.outs := rfl
@[simp] theorem State.updSteep_pending (s : State) (n : Nat) (f : SteepCtx → SteepCtx) : (s.updSteep n f).pending = s.pending := rfl
@[simp] theorem State.updSteep_steep (s : State) (n : Nat) (f : SteepCtx → SteepCtx) : (s.updSteep n f).steep = upd s.steep n f := rfl
@[simp] theorem State.updMash_power (s : State) (n : Nat) (f : MashCtx → MashCtx) : (s.updMash n f).power = s.power := rfl
@[simp] theorem State.updMash_ncp (s : State) (n : Nat) (f : MashCtx → MashCtx) : (s.updMash n f).ncp = s.ncp := rfl
@[simp] theorem State.updMash_cfg (s : State) (n : Nat) (f : MashCtx → MashCtx) : (s.updMash n f).cfg = s.cfg := rfl
@[simp] theorem State.updMash_ledger (s : State) (n : Nat) (f : MashCtx → MashCtx) : (s.updMash n f).ledger = s.ledger := rfl
@[simp] theorem State.updMash_shrouds (s : State) (n : Nat) (f : MashCtx → MashCtx) : (s.updMash n f).shrouds = s.shrouds := rfl
@[simp] theorem State.updMash_sensors (s : State) (n : Nat) (f : MashCtx → MashCtx) : (s.updMash n f).sensors = s.sensors := rfl
@[simp] theorem State.updMash_ctxs (s : State) (n : Nat) (f : MashCtx → MashCtx) : (s.updMash n f).ctxs = s.ctxs := rfl
@[simp] theorem State.updMash_dev (s : State) (n : Nat) (f : MashCtx → MashCtx) : (s.updMash n f).dev = s.dev := rfl
@[simp] theorem State.updMash_steep (s : State) (n : Nat) (f : MashCtx → MashCtx) : (s.updMash n f).steep = s.steep := rfl
@[simp] theorem State.updMash_luts (s : State) (n : Nat) (f : MashCtx → MashCtx) : (s.updMash n f).luts = s.luts := rfl
@[simp] theorem State.updMash_cacheHits (s : State) (n : Nat) (f : MashCtx → MashCtx) : (s.updMash n f).cacheHits = s.cacheHits := rfl
@[simp] theorem State.updMash_cacheMisses (s : State) (n : Nat) (f : MashCtx → MashCtx) : (s.updMash n f).cacheMisses = s.cacheMisses := rfl
@[simp] theorem State.updMash_bandCache (s : State) (n : Nat) (f : MashCtx → MashCtx) : (s.updMash n f).bandCache = s.bandCache := rfl
@[simp] theorem State.updMash_jobs (s : State) (n : Nat) (f : MashCtx → MashCtx) : (s.updMash n f).jobs = s.jobs := rfl
@[simp] theorem State.updMash_nextJob (s : State) (n : Nat) (f : MashCtx → MashCtx) : (s.updMash n f).nextJob = s.nextJob := rfl
@[simp] theorem State.updMash_engines (s : State) (n : Nat) (f : MashCtx → MashCtx) : (s.updMash n f).engines = s.engines := rfl
@[simp] theorem State.updMash_encs (s : State) (n : Nat) (f : MashCtx → MashCtx) : (s.updMash n f).encs = s.encs := rfl
@[simp] theorem State.updMash_decs (s : State) (n : Nat) (f : MashCtx → MashCtx) : (s.updMash n f).decs = s.decs := rfl
@[simp] theorem State.updMash_streams (s : State) (n : Nat) (f : MashCtx → MashCtx) : (s.updMash n f).streams = s.streams := rfl
@[simp] theorem State.updMash_drives (s : State) (n : Nat) (f : MashCtx → MashCtx) : (s.updMash n f).drives = s.drives := rfl
@[simp] theorem State.updMash_nextNvme (s : State) (n : Nat) (f : MashCtx → MashCtx) : (s.updMash n f).nextNvme = s.nextNvme := rfl
@[simp] theorem State.updMash_nextGrant (s : State) (n : Nat) (f : MashCtx → MashCtx) : (s.updMash n f).nextGrant = s.nextGrant := rfl
@[simp] theorem State.updMash_egress (s : State) (n : Nat) (f : MashCtx → MashCtx) : (s.updMash n f).egress = s.egress := rfl
@[simp] theorem State.updMash_brl (s : State) (n : Nat) (f : MashCtx → MashCtx) : (s.updMash n f).brl = s.brl := rfl
@[simp] theorem State.updMash_brlErrors (s : State) (n : Nat) (f : MashCtx → MashCtx) : (s.updMash n f).brlErrors = s.brlErrors := rfl
@[simp] theorem State.updMash_mem (s : State) (n : Nat) (f : MashCtx → MashCtx) : (s.updMash n f).mem = s.mem := rfl
@[simp] theorem State.updMash_ep (s : State) (n : Nat) (f : MashCtx → MashCtx) : (s.updMash n f).ep = s.ep := rfl
@[simp] theorem State.updMash_vecs (s : State) (n : Nat) (f : MashCtx → MashCtx) : (s.updMash n f).vecs = s.vecs := rfl
@[simp] theorem State.updMash_yards (s : State) (n : Nat) (f : MashCtx → MashCtx) : (s.updMash n f).yards = s.yards := rfl
@[simp] theorem State.updMash_time (s : State) (n : Nat) (f : MashCtx → MashCtx) : (s.updMash n f).time = s.time := rfl
@[simp] theorem State.updMash_trust (s : State) (n : Nat) (f : MashCtx → MashCtx) : (s.updMash n f).trust = s.trust := rfl
@[simp] theorem State.updMash_health (s : State) (n : Nat) (f : MashCtx → MashCtx) : (s.updMash n f).health = s.health := rfl
@[simp] theorem State.updMash_obs (s : State) (n : Nat) (f : MashCtx → MashCtx) : (s.updMash n f).obs = s.obs := rfl
@[simp] theorem State.updMash_nv (s : State) (n : Nat) (f : MashCtx → MashCtx) : (s.updMash n f).nv = s.nv := rfl
@[simp] theorem State.updMash_latches (s : State) (n : Nat) (f : MashCtx → MashCtx) : (s.updMash n f).latches = s.latches := rfl
@[simp] theorem State.updMash_free (s : State) (n : Nat) (f : MashCtx → MashCtx) : (s.updMash n f).free = s.free := rfl
@[simp] theorem State.updMash_outs (s : State) (n : Nat) (f : MashCtx → MashCtx) : (s.updMash n f).outs = s.outs := rfl
@[simp] theorem State.updMash_pending (s : State) (n : Nat) (f : MashCtx → MashCtx) : (s.updMash n f).pending = s.pending := rfl
@[simp] theorem State.updMash_mash (s : State) (n : Nat) (f : MashCtx → MashCtx) : (s.updMash n f).mash = upd s.mash n f := rfl
@[simp] theorem State.updEnc_power (s : State) (n : Nat) (f : Encoding → Encoding) : (s.updEnc n f).power = s.power := rfl
@[simp] theorem State.updEnc_ncp (s : State) (n : Nat) (f : Encoding → Encoding) : (s.updEnc n f).ncp = s.ncp := rfl
@[simp] theorem State.updEnc_cfg (s : State) (n : Nat) (f : Encoding → Encoding) : (s.updEnc n f).cfg = s.cfg := rfl
@[simp] theorem State.updEnc_ledger (s : State) (n : Nat) (f : Encoding → Encoding) : (s.updEnc n f).ledger = s.ledger := rfl
@[simp] theorem State.updEnc_shrouds (s : State) (n : Nat) (f : Encoding → Encoding) : (s.updEnc n f).shrouds = s.shrouds := rfl
@[simp] theorem State.updEnc_sensors (s : State) (n : Nat) (f : Encoding → Encoding) : (s.updEnc n f).sensors = s.sensors := rfl
@[simp] theorem State.updEnc_ctxs (s : State) (n : Nat) (f : Encoding → Encoding) : (s.updEnc n f).ctxs = s.ctxs := rfl
@[simp] theorem State.updEnc_dev (s : State) (n : Nat) (f : Encoding → Encoding) : (s.updEnc n f).dev = s.dev := rfl
@[simp] theorem State.updEnc_steep (s : State) (n : Nat) (f : Encoding → Encoding) : (s.updEnc n f).steep = s.steep := rfl
@[simp] theorem State.updEnc_mash (s : State) (n : Nat) (f : Encoding → Encoding) : (s.updEnc n f).mash = s.mash := rfl
@[simp] theorem State.updEnc_luts (s : State) (n : Nat) (f : Encoding → Encoding) : (s.updEnc n f).luts = s.luts := rfl
@[simp] theorem State.updEnc_cacheHits (s : State) (n : Nat) (f : Encoding → Encoding) : (s.updEnc n f).cacheHits = s.cacheHits := rfl
@[simp] theorem State.updEnc_cacheMisses (s : State) (n : Nat) (f : Encoding → Encoding) : (s.updEnc n f).cacheMisses = s.cacheMisses := rfl
@[simp] theorem State.updEnc_bandCache (s : State) (n : Nat) (f : Encoding → Encoding) : (s.updEnc n f).bandCache = s.bandCache := rfl
@[simp] theorem State.updEnc_jobs (s : State) (n : Nat) (f : Encoding → Encoding) : (s.updEnc n f).jobs = s.jobs := rfl
@[simp] theorem State.updEnc_nextJob (s : State) (n : Nat) (f : Encoding → Encoding) : (s.updEnc n f).nextJob = s.nextJob := rfl
@[simp] theorem State.updEnc_engines (s : State) (n : Nat) (f : Encoding → Encoding) : (s.updEnc n f).engines = s.engines := rfl
@[simp] theorem State.updEnc_decs (s : State) (n : Nat) (f : Encoding → Encoding) : (s.updEnc n f).decs = s.decs := rfl
@[simp] theorem State.updEnc_streams (s : State) (n : Nat) (f : Encoding → Encoding) : (s.updEnc n f).streams = s.streams := rfl
@[simp] theorem State.updEnc_drives (s : State) (n : Nat) (f : Encoding → Encoding) : (s.updEnc n f).drives = s.drives := rfl
@[simp] theorem State.updEnc_nextNvme (s : State) (n : Nat) (f : Encoding → Encoding) : (s.updEnc n f).nextNvme = s.nextNvme := rfl
@[simp] theorem State.updEnc_nextGrant (s : State) (n : Nat) (f : Encoding → Encoding) : (s.updEnc n f).nextGrant = s.nextGrant := rfl
@[simp] theorem State.updEnc_egress (s : State) (n : Nat) (f : Encoding → Encoding) : (s.updEnc n f).egress = s.egress := rfl
@[simp] theorem State.updEnc_brl (s : State) (n : Nat) (f : Encoding → Encoding) : (s.updEnc n f).brl = s.brl := rfl
@[simp] theorem State.updEnc_brlErrors (s : State) (n : Nat) (f : Encoding → Encoding) : (s.updEnc n f).brlErrors = s.brlErrors := rfl
@[simp] theorem State.updEnc_mem (s : State) (n : Nat) (f : Encoding → Encoding) : (s.updEnc n f).mem = s.mem := rfl
@[simp] theorem State.updEnc_ep (s : State) (n : Nat) (f : Encoding → Encoding) : (s.updEnc n f).ep = s.ep := rfl
@[simp] theorem State.updEnc_vecs (s : State) (n : Nat) (f : Encoding → Encoding) : (s.updEnc n f).vecs = s.vecs := rfl
@[simp] theorem State.updEnc_yards (s : State) (n : Nat) (f : Encoding → Encoding) : (s.updEnc n f).yards = s.yards := rfl
@[simp] theorem State.updEnc_time (s : State) (n : Nat) (f : Encoding → Encoding) : (s.updEnc n f).time = s.time := rfl
@[simp] theorem State.updEnc_trust (s : State) (n : Nat) (f : Encoding → Encoding) : (s.updEnc n f).trust = s.trust := rfl
@[simp] theorem State.updEnc_health (s : State) (n : Nat) (f : Encoding → Encoding) : (s.updEnc n f).health = s.health := rfl
@[simp] theorem State.updEnc_obs (s : State) (n : Nat) (f : Encoding → Encoding) : (s.updEnc n f).obs = s.obs := rfl
@[simp] theorem State.updEnc_nv (s : State) (n : Nat) (f : Encoding → Encoding) : (s.updEnc n f).nv = s.nv := rfl
@[simp] theorem State.updEnc_latches (s : State) (n : Nat) (f : Encoding → Encoding) : (s.updEnc n f).latches = s.latches := rfl
@[simp] theorem State.updEnc_free (s : State) (n : Nat) (f : Encoding → Encoding) : (s.updEnc n f).free = s.free := rfl
@[simp] theorem State.updEnc_outs (s : State) (n : Nat) (f : Encoding → Encoding) : (s.updEnc n f).outs = s.outs := rfl
@[simp] theorem State.updEnc_pending (s : State) (n : Nat) (f : Encoding → Encoding) : (s.updEnc n f).pending = s.pending := rfl
@[simp] theorem State.updEnc_encs (s : State) (n : Nat) (f : Encoding → Encoding) : (s.updEnc n f).encs = upd s.encs n f := rfl
@[simp] theorem State.updDec_power (s : State) (n : Nat) (f : DecStream → DecStream) : (s.updDec n f).power = s.power := rfl
@[simp] theorem State.updDec_ncp (s : State) (n : Nat) (f : DecStream → DecStream) : (s.updDec n f).ncp = s.ncp := rfl
@[simp] theorem State.updDec_cfg (s : State) (n : Nat) (f : DecStream → DecStream) : (s.updDec n f).cfg = s.cfg := rfl
@[simp] theorem State.updDec_ledger (s : State) (n : Nat) (f : DecStream → DecStream) : (s.updDec n f).ledger = s.ledger := rfl
@[simp] theorem State.updDec_shrouds (s : State) (n : Nat) (f : DecStream → DecStream) : (s.updDec n f).shrouds = s.shrouds := rfl
@[simp] theorem State.updDec_sensors (s : State) (n : Nat) (f : DecStream → DecStream) : (s.updDec n f).sensors = s.sensors := rfl
@[simp] theorem State.updDec_ctxs (s : State) (n : Nat) (f : DecStream → DecStream) : (s.updDec n f).ctxs = s.ctxs := rfl
@[simp] theorem State.updDec_dev (s : State) (n : Nat) (f : DecStream → DecStream) : (s.updDec n f).dev = s.dev := rfl
@[simp] theorem State.updDec_steep (s : State) (n : Nat) (f : DecStream → DecStream) : (s.updDec n f).steep = s.steep := rfl
@[simp] theorem State.updDec_mash (s : State) (n : Nat) (f : DecStream → DecStream) : (s.updDec n f).mash = s.mash := rfl
@[simp] theorem State.updDec_luts (s : State) (n : Nat) (f : DecStream → DecStream) : (s.updDec n f).luts = s.luts := rfl
@[simp] theorem State.updDec_cacheHits (s : State) (n : Nat) (f : DecStream → DecStream) : (s.updDec n f).cacheHits = s.cacheHits := rfl
@[simp] theorem State.updDec_cacheMisses (s : State) (n : Nat) (f : DecStream → DecStream) : (s.updDec n f).cacheMisses = s.cacheMisses := rfl
@[simp] theorem State.updDec_bandCache (s : State) (n : Nat) (f : DecStream → DecStream) : (s.updDec n f).bandCache = s.bandCache := rfl
@[simp] theorem State.updDec_jobs (s : State) (n : Nat) (f : DecStream → DecStream) : (s.updDec n f).jobs = s.jobs := rfl
@[simp] theorem State.updDec_nextJob (s : State) (n : Nat) (f : DecStream → DecStream) : (s.updDec n f).nextJob = s.nextJob := rfl
@[simp] theorem State.updDec_engines (s : State) (n : Nat) (f : DecStream → DecStream) : (s.updDec n f).engines = s.engines := rfl
@[simp] theorem State.updDec_encs (s : State) (n : Nat) (f : DecStream → DecStream) : (s.updDec n f).encs = s.encs := rfl
@[simp] theorem State.updDec_streams (s : State) (n : Nat) (f : DecStream → DecStream) : (s.updDec n f).streams = s.streams := rfl
@[simp] theorem State.updDec_drives (s : State) (n : Nat) (f : DecStream → DecStream) : (s.updDec n f).drives = s.drives := rfl
@[simp] theorem State.updDec_nextNvme (s : State) (n : Nat) (f : DecStream → DecStream) : (s.updDec n f).nextNvme = s.nextNvme := rfl
@[simp] theorem State.updDec_nextGrant (s : State) (n : Nat) (f : DecStream → DecStream) : (s.updDec n f).nextGrant = s.nextGrant := rfl
@[simp] theorem State.updDec_egress (s : State) (n : Nat) (f : DecStream → DecStream) : (s.updDec n f).egress = s.egress := rfl
@[simp] theorem State.updDec_brl (s : State) (n : Nat) (f : DecStream → DecStream) : (s.updDec n f).brl = s.brl := rfl
@[simp] theorem State.updDec_brlErrors (s : State) (n : Nat) (f : DecStream → DecStream) : (s.updDec n f).brlErrors = s.brlErrors := rfl
@[simp] theorem State.updDec_mem (s : State) (n : Nat) (f : DecStream → DecStream) : (s.updDec n f).mem = s.mem := rfl
@[simp] theorem State.updDec_ep (s : State) (n : Nat) (f : DecStream → DecStream) : (s.updDec n f).ep = s.ep := rfl
@[simp] theorem State.updDec_vecs (s : State) (n : Nat) (f : DecStream → DecStream) : (s.updDec n f).vecs = s.vecs := rfl
@[simp] theorem State.updDec_yards (s : State) (n : Nat) (f : DecStream → DecStream) : (s.updDec n f).yards = s.yards := rfl
@[simp] theorem State.updDec_time (s : State) (n : Nat) (f : DecStream → DecStream) : (s.updDec n f).time = s.time := rfl
@[simp] theorem State.updDec_trust (s : State) (n : Nat) (f : DecStream → DecStream) : (s.updDec n f).trust = s.trust := rfl
@[simp] theorem State.updDec_health (s : State) (n : Nat) (f : DecStream → DecStream) : (s.updDec n f).health = s.health := rfl
@[simp] theorem State.updDec_obs (s : State) (n : Nat) (f : DecStream → DecStream) : (s.updDec n f).obs = s.obs := rfl
@[simp] theorem State.updDec_nv (s : State) (n : Nat) (f : DecStream → DecStream) : (s.updDec n f).nv = s.nv := rfl
@[simp] theorem State.updDec_latches (s : State) (n : Nat) (f : DecStream → DecStream) : (s.updDec n f).latches = s.latches := rfl
@[simp] theorem State.updDec_free (s : State) (n : Nat) (f : DecStream → DecStream) : (s.updDec n f).free = s.free := rfl
@[simp] theorem State.updDec_outs (s : State) (n : Nat) (f : DecStream → DecStream) : (s.updDec n f).outs = s.outs := rfl
@[simp] theorem State.updDec_pending (s : State) (n : Nat) (f : DecStream → DecStream) : (s.updDec n f).pending = s.pending := rfl
@[simp] theorem State.updDec_decs (s : State) (n : Nat) (f : DecStream → DecStream) : (s.updDec n f).decs = upd s.decs n f := rfl
@[simp] theorem State.updStream_power (s : State) (n : Nat) (f : Stream → Stream) : (s.updStream n f).power = s.power := rfl
@[simp] theorem State.updStream_ncp (s : State) (n : Nat) (f : Stream → Stream) : (s.updStream n f).ncp = s.ncp := rfl
@[simp] theorem State.updStream_cfg (s : State) (n : Nat) (f : Stream → Stream) : (s.updStream n f).cfg = s.cfg := rfl
@[simp] theorem State.updStream_ledger (s : State) (n : Nat) (f : Stream → Stream) : (s.updStream n f).ledger = s.ledger := rfl
@[simp] theorem State.updStream_shrouds (s : State) (n : Nat) (f : Stream → Stream) : (s.updStream n f).shrouds = s.shrouds := rfl
@[simp] theorem State.updStream_sensors (s : State) (n : Nat) (f : Stream → Stream) : (s.updStream n f).sensors = s.sensors := rfl
@[simp] theorem State.updStream_ctxs (s : State) (n : Nat) (f : Stream → Stream) : (s.updStream n f).ctxs = s.ctxs := rfl
@[simp] theorem State.updStream_dev (s : State) (n : Nat) (f : Stream → Stream) : (s.updStream n f).dev = s.dev := rfl
@[simp] theorem State.updStream_steep (s : State) (n : Nat) (f : Stream → Stream) : (s.updStream n f).steep = s.steep := rfl
@[simp] theorem State.updStream_mash (s : State) (n : Nat) (f : Stream → Stream) : (s.updStream n f).mash = s.mash := rfl
@[simp] theorem State.updStream_luts (s : State) (n : Nat) (f : Stream → Stream) : (s.updStream n f).luts = s.luts := rfl
@[simp] theorem State.updStream_cacheHits (s : State) (n : Nat) (f : Stream → Stream) : (s.updStream n f).cacheHits = s.cacheHits := rfl
@[simp] theorem State.updStream_cacheMisses (s : State) (n : Nat) (f : Stream → Stream) : (s.updStream n f).cacheMisses = s.cacheMisses := rfl
@[simp] theorem State.updStream_bandCache (s : State) (n : Nat) (f : Stream → Stream) : (s.updStream n f).bandCache = s.bandCache := rfl
@[simp] theorem State.updStream_jobs (s : State) (n : Nat) (f : Stream → Stream) : (s.updStream n f).jobs = s.jobs := rfl
@[simp] theorem State.updStream_nextJob (s : State) (n : Nat) (f : Stream → Stream) : (s.updStream n f).nextJob = s.nextJob := rfl
@[simp] theorem State.updStream_engines (s : State) (n : Nat) (f : Stream → Stream) : (s.updStream n f).engines = s.engines := rfl
@[simp] theorem State.updStream_encs (s : State) (n : Nat) (f : Stream → Stream) : (s.updStream n f).encs = s.encs := rfl
@[simp] theorem State.updStream_decs (s : State) (n : Nat) (f : Stream → Stream) : (s.updStream n f).decs = s.decs := rfl
@[simp] theorem State.updStream_drives (s : State) (n : Nat) (f : Stream → Stream) : (s.updStream n f).drives = s.drives := rfl
@[simp] theorem State.updStream_nextNvme (s : State) (n : Nat) (f : Stream → Stream) : (s.updStream n f).nextNvme = s.nextNvme := rfl
@[simp] theorem State.updStream_nextGrant (s : State) (n : Nat) (f : Stream → Stream) : (s.updStream n f).nextGrant = s.nextGrant := rfl
@[simp] theorem State.updStream_egress (s : State) (n : Nat) (f : Stream → Stream) : (s.updStream n f).egress = s.egress := rfl
@[simp] theorem State.updStream_brl (s : State) (n : Nat) (f : Stream → Stream) : (s.updStream n f).brl = s.brl := rfl
@[simp] theorem State.updStream_brlErrors (s : State) (n : Nat) (f : Stream → Stream) : (s.updStream n f).brlErrors = s.brlErrors := rfl
@[simp] theorem State.updStream_mem (s : State) (n : Nat) (f : Stream → Stream) : (s.updStream n f).mem = s.mem := rfl
@[simp] theorem State.updStream_ep (s : State) (n : Nat) (f : Stream → Stream) : (s.updStream n f).ep = s.ep := rfl
@[simp] theorem State.updStream_vecs (s : State) (n : Nat) (f : Stream → Stream) : (s.updStream n f).vecs = s.vecs := rfl
@[simp] theorem State.updStream_yards (s : State) (n : Nat) (f : Stream → Stream) : (s.updStream n f).yards = s.yards := rfl
@[simp] theorem State.updStream_time (s : State) (n : Nat) (f : Stream → Stream) : (s.updStream n f).time = s.time := rfl
@[simp] theorem State.updStream_trust (s : State) (n : Nat) (f : Stream → Stream) : (s.updStream n f).trust = s.trust := rfl
@[simp] theorem State.updStream_health (s : State) (n : Nat) (f : Stream → Stream) : (s.updStream n f).health = s.health := rfl
@[simp] theorem State.updStream_obs (s : State) (n : Nat) (f : Stream → Stream) : (s.updStream n f).obs = s.obs := rfl
@[simp] theorem State.updStream_nv (s : State) (n : Nat) (f : Stream → Stream) : (s.updStream n f).nv = s.nv := rfl
@[simp] theorem State.updStream_latches (s : State) (n : Nat) (f : Stream → Stream) : (s.updStream n f).latches = s.latches := rfl
@[simp] theorem State.updStream_free (s : State) (n : Nat) (f : Stream → Stream) : (s.updStream n f).free = s.free := rfl
@[simp] theorem State.updStream_outs (s : State) (n : Nat) (f : Stream → Stream) : (s.updStream n f).outs = s.outs := rfl
@[simp] theorem State.updStream_pending (s : State) (n : Nat) (f : Stream → Stream) : (s.updStream n f).pending = s.pending := rfl
@[simp] theorem State.updStream_streams (s : State) (n : Nat) (f : Stream → Stream) : (s.updStream n f).streams = upd s.streams n f := rfl
@[simp] theorem State.updDrive_power (s : State) (n : Nat) (f : Drive → Drive) : (s.updDrive n f).power = s.power := rfl
@[simp] theorem State.updDrive_ncp (s : State) (n : Nat) (f : Drive → Drive) : (s.updDrive n f).ncp = s.ncp := rfl
@[simp] theorem State.updDrive_cfg (s : State) (n : Nat) (f : Drive → Drive) : (s.updDrive n f).cfg = s.cfg := rfl
@[simp] theorem State.updDrive_ledger (s : State) (n : Nat) (f : Drive → Drive) : (s.updDrive n f).ledger = s.ledger := rfl
@[simp] theorem State.updDrive_shrouds (s : State) (n : Nat) (f : Drive → Drive) : (s.updDrive n f).shrouds = s.shrouds := rfl
@[simp] theorem State.updDrive_sensors (s : State) (n : Nat) (f : Drive → Drive) : (s.updDrive n f).sensors = s.sensors := rfl
@[simp] theorem State.updDrive_ctxs (s : State) (n : Nat) (f : Drive → Drive) : (s.updDrive n f).ctxs = s.ctxs := rfl
@[simp] theorem State.updDrive_dev (s : State) (n : Nat) (f : Drive → Drive) : (s.updDrive n f).dev = s.dev := rfl
@[simp] theorem State.updDrive_steep (s : State) (n : Nat) (f : Drive → Drive) : (s.updDrive n f).steep = s.steep := rfl
@[simp] theorem State.updDrive_mash (s : State) (n : Nat) (f : Drive → Drive) : (s.updDrive n f).mash = s.mash := rfl
@[simp] theorem State.updDrive_luts (s : State) (n : Nat) (f : Drive → Drive) : (s.updDrive n f).luts = s.luts := rfl
@[simp] theorem State.updDrive_cacheHits (s : State) (n : Nat) (f : Drive → Drive) : (s.updDrive n f).cacheHits = s.cacheHits := rfl
@[simp] theorem State.updDrive_cacheMisses (s : State) (n : Nat) (f : Drive → Drive) : (s.updDrive n f).cacheMisses = s.cacheMisses := rfl
@[simp] theorem State.updDrive_bandCache (s : State) (n : Nat) (f : Drive → Drive) : (s.updDrive n f).bandCache = s.bandCache := rfl
@[simp] theorem State.updDrive_jobs (s : State) (n : Nat) (f : Drive → Drive) : (s.updDrive n f).jobs = s.jobs := rfl
@[simp] theorem State.updDrive_nextJob (s : State) (n : Nat) (f : Drive → Drive) : (s.updDrive n f).nextJob = s.nextJob := rfl
@[simp] theorem State.updDrive_engines (s : State) (n : Nat) (f : Drive → Drive) : (s.updDrive n f).engines = s.engines := rfl
@[simp] theorem State.updDrive_encs (s : State) (n : Nat) (f : Drive → Drive) : (s.updDrive n f).encs = s.encs := rfl
@[simp] theorem State.updDrive_decs (s : State) (n : Nat) (f : Drive → Drive) : (s.updDrive n f).decs = s.decs := rfl
@[simp] theorem State.updDrive_streams (s : State) (n : Nat) (f : Drive → Drive) : (s.updDrive n f).streams = s.streams := rfl
@[simp] theorem State.updDrive_nextNvme (s : State) (n : Nat) (f : Drive → Drive) : (s.updDrive n f).nextNvme = s.nextNvme := rfl
@[simp] theorem State.updDrive_nextGrant (s : State) (n : Nat) (f : Drive → Drive) : (s.updDrive n f).nextGrant = s.nextGrant := rfl
@[simp] theorem State.updDrive_egress (s : State) (n : Nat) (f : Drive → Drive) : (s.updDrive n f).egress = s.egress := rfl
@[simp] theorem State.updDrive_brl (s : State) (n : Nat) (f : Drive → Drive) : (s.updDrive n f).brl = s.brl := rfl
@[simp] theorem State.updDrive_brlErrors (s : State) (n : Nat) (f : Drive → Drive) : (s.updDrive n f).brlErrors = s.brlErrors := rfl
@[simp] theorem State.updDrive_mem (s : State) (n : Nat) (f : Drive → Drive) : (s.updDrive n f).mem = s.mem := rfl
@[simp] theorem State.updDrive_ep (s : State) (n : Nat) (f : Drive → Drive) : (s.updDrive n f).ep = s.ep := rfl
@[simp] theorem State.updDrive_vecs (s : State) (n : Nat) (f : Drive → Drive) : (s.updDrive n f).vecs = s.vecs := rfl
@[simp] theorem State.updDrive_yards (s : State) (n : Nat) (f : Drive → Drive) : (s.updDrive n f).yards = s.yards := rfl
@[simp] theorem State.updDrive_time (s : State) (n : Nat) (f : Drive → Drive) : (s.updDrive n f).time = s.time := rfl
@[simp] theorem State.updDrive_trust (s : State) (n : Nat) (f : Drive → Drive) : (s.updDrive n f).trust = s.trust := rfl
@[simp] theorem State.updDrive_health (s : State) (n : Nat) (f : Drive → Drive) : (s.updDrive n f).health = s.health := rfl
@[simp] theorem State.updDrive_obs (s : State) (n : Nat) (f : Drive → Drive) : (s.updDrive n f).obs = s.obs := rfl
@[simp] theorem State.updDrive_nv (s : State) (n : Nat) (f : Drive → Drive) : (s.updDrive n f).nv = s.nv := rfl
@[simp] theorem State.updDrive_latches (s : State) (n : Nat) (f : Drive → Drive) : (s.updDrive n f).latches = s.latches := rfl
@[simp] theorem State.updDrive_free (s : State) (n : Nat) (f : Drive → Drive) : (s.updDrive n f).free = s.free := rfl
@[simp] theorem State.updDrive_outs (s : State) (n : Nat) (f : Drive → Drive) : (s.updDrive n f).outs = s.outs := rfl
@[simp] theorem State.updDrive_pending (s : State) (n : Nat) (f : Drive → Drive) : (s.updDrive n f).pending = s.pending := rfl
@[simp] theorem State.updDrive_drives (s : State) (n : Nat) (f : Drive → Drive) : (s.updDrive n f).drives = upd s.drives n f := rfl
@[simp] theorem State.updBrl_power (s : State) (n : Nat) (f : BrlCtx → BrlCtx) : (s.updBrl n f).power = s.power := rfl
@[simp] theorem State.updBrl_ncp (s : State) (n : Nat) (f : BrlCtx → BrlCtx) : (s.updBrl n f).ncp = s.ncp := rfl
@[simp] theorem State.updBrl_cfg (s : State) (n : Nat) (f : BrlCtx → BrlCtx) : (s.updBrl n f).cfg = s.cfg := rfl
@[simp] theorem State.updBrl_ledger (s : State) (n : Nat) (f : BrlCtx → BrlCtx) : (s.updBrl n f).ledger = s.ledger := rfl
@[simp] theorem State.updBrl_shrouds (s : State) (n : Nat) (f : BrlCtx → BrlCtx) : (s.updBrl n f).shrouds = s.shrouds := rfl
@[simp] theorem State.updBrl_sensors (s : State) (n : Nat) (f : BrlCtx → BrlCtx) : (s.updBrl n f).sensors = s.sensors := rfl
@[simp] theorem State.updBrl_ctxs (s : State) (n : Nat) (f : BrlCtx → BrlCtx) : (s.updBrl n f).ctxs = s.ctxs := rfl
@[simp] theorem State.updBrl_dev (s : State) (n : Nat) (f : BrlCtx → BrlCtx) : (s.updBrl n f).dev = s.dev := rfl
@[simp] theorem State.updBrl_steep (s : State) (n : Nat) (f : BrlCtx → BrlCtx) : (s.updBrl n f).steep = s.steep := rfl
@[simp] theorem State.updBrl_mash (s : State) (n : Nat) (f : BrlCtx → BrlCtx) : (s.updBrl n f).mash = s.mash := rfl
@[simp] theorem State.updBrl_luts (s : State) (n : Nat) (f : BrlCtx → BrlCtx) : (s.updBrl n f).luts = s.luts := rfl
@[simp] theorem State.updBrl_cacheHits (s : State) (n : Nat) (f : BrlCtx → BrlCtx) : (s.updBrl n f).cacheHits = s.cacheHits := rfl
@[simp] theorem State.updBrl_cacheMisses (s : State) (n : Nat) (f : BrlCtx → BrlCtx) : (s.updBrl n f).cacheMisses = s.cacheMisses := rfl
@[simp] theorem State.updBrl_bandCache (s : State) (n : Nat) (f : BrlCtx → BrlCtx) : (s.updBrl n f).bandCache = s.bandCache := rfl
@[simp] theorem State.updBrl_jobs (s : State) (n : Nat) (f : BrlCtx → BrlCtx) : (s.updBrl n f).jobs = s.jobs := rfl
@[simp] theorem State.updBrl_nextJob (s : State) (n : Nat) (f : BrlCtx → BrlCtx) : (s.updBrl n f).nextJob = s.nextJob := rfl
@[simp] theorem State.updBrl_engines (s : State) (n : Nat) (f : BrlCtx → BrlCtx) : (s.updBrl n f).engines = s.engines := rfl
@[simp] theorem State.updBrl_encs (s : State) (n : Nat) (f : BrlCtx → BrlCtx) : (s.updBrl n f).encs = s.encs := rfl
@[simp] theorem State.updBrl_decs (s : State) (n : Nat) (f : BrlCtx → BrlCtx) : (s.updBrl n f).decs = s.decs := rfl
@[simp] theorem State.updBrl_streams (s : State) (n : Nat) (f : BrlCtx → BrlCtx) : (s.updBrl n f).streams = s.streams := rfl
@[simp] theorem State.updBrl_drives (s : State) (n : Nat) (f : BrlCtx → BrlCtx) : (s.updBrl n f).drives = s.drives := rfl
@[simp] theorem State.updBrl_nextNvme (s : State) (n : Nat) (f : BrlCtx → BrlCtx) : (s.updBrl n f).nextNvme = s.nextNvme := rfl
@[simp] theorem State.updBrl_nextGrant (s : State) (n : Nat) (f : BrlCtx → BrlCtx) : (s.updBrl n f).nextGrant = s.nextGrant := rfl
@[simp] theorem State.updBrl_egress (s : State) (n : Nat) (f : BrlCtx → BrlCtx) : (s.updBrl n f).egress = s.egress := rfl
@[simp] theorem State.updBrl_brlErrors (s : State) (n : Nat) (f : BrlCtx → BrlCtx) : (s.updBrl n f).brlErrors = s.brlErrors := rfl
@[simp] theorem State.updBrl_mem (s : State) (n : Nat) (f : BrlCtx → BrlCtx) : (s.updBrl n f).mem = s.mem := rfl
@[simp] theorem State.updBrl_ep (s : State) (n : Nat) (f : BrlCtx → BrlCtx) : (s.updBrl n f).ep = s.ep := rfl
@[simp] theorem State.updBrl_vecs (s : State) (n : Nat) (f : BrlCtx → BrlCtx) : (s.updBrl n f).vecs = s.vecs := rfl
@[simp] theorem State.updBrl_yards (s : State) (n : Nat) (f : BrlCtx → BrlCtx) : (s.updBrl n f).yards = s.yards := rfl
@[simp] theorem State.updBrl_time (s : State) (n : Nat) (f : BrlCtx → BrlCtx) : (s.updBrl n f).time = s.time := rfl
@[simp] theorem State.updBrl_trust (s : State) (n : Nat) (f : BrlCtx → BrlCtx) : (s.updBrl n f).trust = s.trust := rfl
@[simp] theorem State.updBrl_health (s : State) (n : Nat) (f : BrlCtx → BrlCtx) : (s.updBrl n f).health = s.health := rfl
@[simp] theorem State.updBrl_obs (s : State) (n : Nat) (f : BrlCtx → BrlCtx) : (s.updBrl n f).obs = s.obs := rfl
@[simp] theorem State.updBrl_nv (s : State) (n : Nat) (f : BrlCtx → BrlCtx) : (s.updBrl n f).nv = s.nv := rfl
@[simp] theorem State.updBrl_latches (s : State) (n : Nat) (f : BrlCtx → BrlCtx) : (s.updBrl n f).latches = s.latches := rfl
@[simp] theorem State.updBrl_free (s : State) (n : Nat) (f : BrlCtx → BrlCtx) : (s.updBrl n f).free = s.free := rfl
@[simp] theorem State.updBrl_outs (s : State) (n : Nat) (f : BrlCtx → BrlCtx) : (s.updBrl n f).outs = s.outs := rfl
@[simp] theorem State.updBrl_pending (s : State) (n : Nat) (f : BrlCtx → BrlCtx) : (s.updBrl n f).pending = s.pending := rfl
@[simp] theorem State.updBrl_brl (s : State) (n : Nat) (f : BrlCtx → BrlCtx) : (s.updBrl n f).brl = upd s.brl n f := rfl
@[simp] theorem State.updBase_power (s : State) (n : Nat) (f : Base → Base) : (s.updBase n f).power = s.power := rfl
@[simp] theorem State.updBase_ncp (s : State) (n : Nat) (f : Base → Base) : (s.updBase n f).ncp = s.ncp := rfl
@[simp] theorem State.updBase_cfg (s : State) (n : Nat) (f : Base → Base) : (s.updBase n f).cfg = s.cfg := rfl
@[simp] theorem State.updBase_ledger (s : State) (n : Nat) (f : Base → Base) : (s.updBase n f).ledger = s.ledger := rfl
@[simp] theorem State.updBase_shrouds (s : State) (n : Nat) (f : Base → Base) : (s.updBase n f).shrouds = s.shrouds := rfl
@[simp] theorem State.updBase_sensors (s : State) (n : Nat) (f : Base → Base) : (s.updBase n f).sensors = s.sensors := rfl
@[simp] theorem State.updBase_ctxs (s : State) (n : Nat) (f : Base → Base) : (s.updBase n f).ctxs = s.ctxs := rfl
@[simp] theorem State.updBase_dev (s : State) (n : Nat) (f : Base → Base) : (s.updBase n f).dev = s.dev := rfl
@[simp] theorem State.updBase_steep (s : State) (n : Nat) (f : Base → Base) : (s.updBase n f).steep = s.steep := rfl
@[simp] theorem State.updBase_mash (s : State) (n : Nat) (f : Base → Base) : (s.updBase n f).mash = s.mash := rfl
@[simp] theorem State.updBase_luts (s : State) (n : Nat) (f : Base → Base) : (s.updBase n f).luts = s.luts := rfl
@[simp] theorem State.updBase_cacheHits (s : State) (n : Nat) (f : Base → Base) : (s.updBase n f).cacheHits = s.cacheHits := rfl
@[simp] theorem State.updBase_cacheMisses (s : State) (n : Nat) (f : Base → Base) : (s.updBase n f).cacheMisses = s.cacheMisses := rfl
@[simp] theorem State.updBase_bandCache (s : State) (n : Nat) (f : Base → Base) : (s.updBase n f).bandCache = s.bandCache := rfl
@[simp] theorem State.updBase_jobs (s : State) (n : Nat) (f : Base → Base) : (s.updBase n f).jobs = s.jobs := rfl
@[simp] theorem State.updBase_nextJob (s : State) (n : Nat) (f : Base → Base) : (s.updBase n f).nextJob = s.nextJob := rfl
@[simp] theorem State.updBase_engines (s : State) (n : Nat) (f : Base → Base) : (s.updBase n f).engines = s.engines := rfl
@[simp] theorem State.updBase_encs (s : State) (n : Nat) (f : Base → Base) : (s.updBase n f).encs = s.encs := rfl
@[simp] theorem State.updBase_decs (s : State) (n : Nat) (f : Base → Base) : (s.updBase n f).decs = s.decs := rfl
@[simp] theorem State.updBase_streams (s : State) (n : Nat) (f : Base → Base) : (s.updBase n f).streams = s.streams := rfl
@[simp] theorem State.updBase_drives (s : State) (n : Nat) (f : Base → Base) : (s.updBase n f).drives = s.drives := rfl
@[simp] theorem State.updBase_nextNvme (s : State) (n : Nat) (f : Base → Base) : (s.updBase n f).nextNvme = s.nextNvme := rfl
@[simp] theorem State.updBase_nextGrant (s : State) (n : Nat) (f : Base → Base) : (s.updBase n f).nextGrant = s.nextGrant := rfl
@[simp] theorem State.updBase_egress (s : State) (n : Nat) (f : Base → Base) : (s.updBase n f).egress = s.egress := rfl
@[simp] theorem State.updBase_brl (s : State) (n : Nat) (f : Base → Base) : (s.updBase n f).brl = s.brl := rfl
@[simp] theorem State.updBase_brlErrors (s : State) (n : Nat) (f : Base → Base) : (s.updBase n f).brlErrors = s.brlErrors := rfl
@[simp] theorem State.updBase_mem (s : State) (n : Nat) (f : Base → Base) : (s.updBase n f).mem = s.mem := rfl
@[simp] theorem State.updBase_ep (s : State) (n : Nat) (f : Base → Base) : (s.updBase n f).ep = s.ep := rfl
@[simp] theorem State.updBase_vecs (s : State) (n : Nat) (f : Base → Base) : (s.updBase n f).vecs = s.vecs := rfl
@[simp] theorem State.updBase_yards (s : State) (n : Nat) (f : Base → Base) : (s.updBase n f).yards = s.yards := rfl
@[simp] theorem State.updBase_trust (s : State) (n : Nat) (f : Base → Base) : (s.updBase n f).trust = s.trust := rfl
@[simp] theorem State.updBase_health (s : State) (n : Nat) (f : Base → Base) : (s.updBase n f).health = s.health := rfl
@[simp] theorem State.updBase_obs (s : State) (n : Nat) (f : Base → Base) : (s.updBase n f).obs = s.obs := rfl
@[simp] theorem State.updBase_nv (s : State) (n : Nat) (f : Base → Base) : (s.updBase n f).nv = s.nv := rfl
@[simp] theorem State.updBase_latches (s : State) (n : Nat) (f : Base → Base) : (s.updBase n f).latches = s.latches := rfl
@[simp] theorem State.updBase_free (s : State) (n : Nat) (f : Base → Base) : (s.updBase n f).free = s.free := rfl
@[simp] theorem State.updBase_outs (s : State) (n : Nat) (f : Base → Base) : (s.updBase n f).outs = s.outs := rfl
@[simp] theorem State.updBase_pending (s : State) (n : Nat) (f : Base → Base) : (s.updBase n f).pending = s.pending := rfl
@[simp] theorem State.updBase_time_tbm (s : State) (n : Nat) (f : Base → Base) : (s.updBase n f).time.tbm = s.time.tbm := rfl
@[simp] theorem State.updBase_time_tbmLatch (s : State) (n : Nat) (f : Base → Base) : (s.updBase n f).time.tbmLatch = s.time.tbmLatch := rfl
@[simp] theorem State.updBase_bases (s : State) (n : Nat) (f : Base → Base) : (s.updBase n f).time.bases = upd s.time.bases n f := rfl
@[simp] theorem State.updBase_time_k (s : State) (n : Nat) (f : Base → Base) : (s.updBase n f).time.k = s.time.k := rfl
@[simp] theorem State.updBase_time_onTref (s : State) (n : Nat) (f : Base → Base) : (s.updBase n f).time.onTref = s.time.onTref := rfl
@[simp] theorem State.updBase_time_trefSelected (s : State) (n : Nat) (f : Base → Base) : (s.updBase n f).time.trefSelected = s.time.trefSelected := rfl
@[simp] theorem State.updBase_time_trefLost (s : State) (n : Nat) (f : Base → Base) : (s.updBase n f).time.trefLost = s.time.trefLost := rfl
@[simp] theorem State.updBase_time_xtalStale (s : State) (n : Nat) (f : Base → Base) : (s.updBase n f).time.xtalStale = s.time.xtalStale := rfl
@[simp] theorem State.updBase_time_xtalTemp (s : State) (n : Nat) (f : Base → Base) : (s.updBase n f).time.xtalTemp = s.time.xtalTemp := rfl
@[simp] theorem State.updBase_time_xtalTbm (s : State) (n : Nat) (f : Base → Base) : (s.updBase n f).time.xtalTbm = s.time.xtalTbm := rfl
@[simp] theorem State.updBase_time_global (s : State) (n : Nat) (f : Base → Base) : (s.updBase n f).time.global = s.time.global := rfl
@[simp] theorem State.updBase_time_ppsLost (s : State) (n : Nat) (f : Base → Base) : (s.updBase n f).time.ppsLost = s.time.ppsLost := rfl
@[simp] theorem State.updBase_time_genlockLost (s : State) (n : Nat) (f : Base → Base) : (s.updBase n f).time.genlockLost = s.time.genlockLost := rfl
@[simp] theorem State.updHbm_power (s : State) (n : Nat) (f : Stack → Stack) : (s.updHbm n f).power = s.power := rfl
@[simp] theorem State.updHbm_ncp (s : State) (n : Nat) (f : Stack → Stack) : (s.updHbm n f).ncp = s.ncp := rfl
@[simp] theorem State.updHbm_cfg (s : State) (n : Nat) (f : Stack → Stack) : (s.updHbm n f).cfg = s.cfg := rfl
@[simp] theorem State.updHbm_ledger (s : State) (n : Nat) (f : Stack → Stack) : (s.updHbm n f).ledger = s.ledger := rfl
@[simp] theorem State.updHbm_shrouds (s : State) (n : Nat) (f : Stack → Stack) : (s.updHbm n f).shrouds = s.shrouds := rfl
@[simp] theorem State.updHbm_sensors (s : State) (n : Nat) (f : Stack → Stack) : (s.updHbm n f).sensors = s.sensors := rfl
@[simp] theorem State.updHbm_ctxs (s : State) (n : Nat) (f : Stack → Stack) : (s.updHbm n f).ctxs = s.ctxs := rfl
@[simp] theorem State.updHbm_dev (s : State) (n : Nat) (f : Stack → Stack) : (s.updHbm n f).dev = s.dev := rfl
@[simp] theorem State.updHbm_steep (s : State) (n : Nat) (f : Stack → Stack) : (s.updHbm n f).steep = s.steep := rfl
@[simp] theorem State.updHbm_mash (s : State) (n : Nat) (f : Stack → Stack) : (s.updHbm n f).mash = s.mash := rfl
@[simp] theorem State.updHbm_luts (s : State) (n : Nat) (f : Stack → Stack) : (s.updHbm n f).luts = s.luts := rfl
@[simp] theorem State.updHbm_cacheHits (s : State) (n : Nat) (f : Stack → Stack) : (s.updHbm n f).cacheHits = s.cacheHits := rfl
@[simp] theorem State.updHbm_cacheMisses (s : State) (n : Nat) (f : Stack → Stack) : (s.updHbm n f).cacheMisses = s.cacheMisses := rfl
@[simp] theorem State.updHbm_bandCache (s : State) (n : Nat) (f : Stack → Stack) : (s.updHbm n f).bandCache = s.bandCache := rfl
@[simp] theorem State.updHbm_jobs (s : State) (n : Nat) (f : Stack → Stack) : (s.updHbm n f).jobs = s.jobs := rfl
@[simp] theorem State.updHbm_nextJob (s : State) (n : Nat) (f : Stack → Stack) : (s.updHbm n f).nextJob = s.nextJob := rfl
@[simp] theorem State.updHbm_engines (s : State) (n : Nat) (f : Stack → Stack) : (s.updHbm n f).engines = s.engines := rfl
@[simp] theorem State.updHbm_encs (s : State) (n : Nat) (f : Stack → Stack) : (s.updHbm n f).encs = s.encs := rfl
@[simp] theorem State.updHbm_decs (s : State) (n : Nat) (f : Stack → Stack) : (s.updHbm n f).decs = s.decs := rfl
@[simp] theorem State.updHbm_streams (s : State) (n : Nat) (f : Stack → Stack) : (s.updHbm n f).streams = s.streams := rfl
@[simp] theorem State.updHbm_drives (s : State) (n : Nat) (f : Stack → Stack) : (s.updHbm n f).drives = s.drives := rfl
@[simp] theorem State.updHbm_nextNvme (s : State) (n : Nat) (f : Stack → Stack) : (s.updHbm n f).nextNvme = s.nextNvme := rfl
@[simp] theorem State.updHbm_nextGrant (s : State) (n : Nat) (f : Stack → Stack) : (s.updHbm n f).nextGrant = s.nextGrant := rfl
@[simp] theorem State.updHbm_egress (s : State) (n : Nat) (f : Stack → Stack) : (s.updHbm n f).egress = s.egress := rfl
@[simp] theorem State.updHbm_brl (s : State) (n : Nat) (f : Stack → Stack) : (s.updHbm n f).brl = s.brl := rfl
@[simp] theorem State.updHbm_brlErrors (s : State) (n : Nat) (f : Stack → Stack) : (s.updHbm n f).brlErrors = s.brlErrors := rfl
@[simp] theorem State.updHbm_ep (s : State) (n : Nat) (f : Stack → Stack) : (s.updHbm n f).ep = s.ep := rfl
@[simp] theorem State.updHbm_vecs (s : State) (n : Nat) (f : Stack → Stack) : (s.updHbm n f).vecs = s.vecs := rfl
@[simp] theorem State.updHbm_yards (s : State) (n : Nat) (f : Stack → Stack) : (s.updHbm n f).yards = s.yards := rfl
@[simp] theorem State.updHbm_time (s : State) (n : Nat) (f : Stack → Stack) : (s.updHbm n f).time = s.time := rfl
@[simp] theorem State.updHbm_trust (s : State) (n : Nat) (f : Stack → Stack) : (s.updHbm n f).trust = s.trust := rfl
@[simp] theorem State.updHbm_health (s : State) (n : Nat) (f : Stack → Stack) : (s.updHbm n f).health = s.health := rfl
@[simp] theorem State.updHbm_obs (s : State) (n : Nat) (f : Stack → Stack) : (s.updHbm n f).obs = s.obs := rfl
@[simp] theorem State.updHbm_nv (s : State) (n : Nat) (f : Stack → Stack) : (s.updHbm n f).nv = s.nv := rfl
@[simp] theorem State.updHbm_latches (s : State) (n : Nat) (f : Stack → Stack) : (s.updHbm n f).latches = s.latches := rfl
@[simp] theorem State.updHbm_free (s : State) (n : Nat) (f : Stack → Stack) : (s.updHbm n f).free = s.free := rfl
@[simp] theorem State.updHbm_outs (s : State) (n : Nat) (f : Stack → Stack) : (s.updHbm n f).outs = s.outs := rfl
@[simp] theorem State.updHbm_pending (s : State) (n : Nat) (f : Stack → Stack) : (s.updHbm n f).pending = s.pending := rfl
@[simp] theorem State.updHbm_hbm (s : State) (n : Nat) (f : Stack → Stack) : (s.updHbm n f).mem.hbm = upd s.mem.hbm n f := rfl
@[simp] theorem State.updHbm_mem_pchans (s : State) (n : Nat) (f : Stack → Stack) : (s.updHbm n f).mem.pchans = s.mem.pchans := rfl
@[simp] theorem State.updHbm_mem_table (s : State) (n : Nat) (f : Stack → Stack) : (s.updHbm n f).mem.table = s.mem.table := rfl
@[simp] theorem State.updHbm_mem_regions (s : State) (n : Nat) (f : Stack → Stack) : (s.updHbm n f).mem.regions = s.mem.regions := rfl
@[simp] theorem State.updHbm_mem_bytes (s : State) (n : Nat) (f : Stack → Stack) : (s.updHbm n f).mem.bytes = s.mem.bytes := rfl
@[simp] theorem State.updHbm_mem_migrations (s : State) (n : Nat) (f : Stack → Stack) : (s.updHbm n f).mem.migrations = s.mem.migrations := rfl
@[simp] theorem State.updHbm_mem_tileFirst (s : State) (n : Nat) (f : Stack → Stack) : (s.updHbm n f).mem.tileFirst = s.mem.tileFirst := rfl
@[simp] theorem State.updHbm_mem_tileSecond (s : State) (n : Nat) (f : Stack → Stack) : (s.updHbm n f).mem.tileSecond = s.mem.tileSecond := rfl
@[simp] theorem State.updHbm_mem_fences (s : State) (n : Nat) (f : Stack → Stack) : (s.updHbm n f).mem.fences = s.mem.fences := rfl
@[simp] theorem State.updHbm_mem_unmapped (s : State) (n : Nat) (f : Stack → Stack) : (s.updHbm n f).mem.unmapped = s.mem.unmapped := rfl
@[simp] theorem State.updHbm_mem_landerHold (s : State) (n : Nat) (f : Stack → Stack) : (s.updHbm n f).mem.landerHold = s.mem.landerHold := rfl
@[simp] theorem State.updHbm_mem_lastUnmapped (s : State) (n : Nat) (f : Stack → Stack) : (s.updHbm n f).mem.lastUnmapped = s.mem.lastUnmapped := rfl
@[simp] theorem State.updHbm_mem_maps (s : State) (n : Nat) (f : Stack → Stack) : (s.updHbm n f).mem.maps = s.mem.maps := rfl
@[simp] theorem State.updPc_power (s : State) (n : Nat) (f : PChan → PChan) : (s.updPc n f).power = s.power := rfl
@[simp] theorem State.updPc_ncp (s : State) (n : Nat) (f : PChan → PChan) : (s.updPc n f).ncp = s.ncp := rfl
@[simp] theorem State.updPc_cfg (s : State) (n : Nat) (f : PChan → PChan) : (s.updPc n f).cfg = s.cfg := rfl
@[simp] theorem State.updPc_ledger (s : State) (n : Nat) (f : PChan → PChan) : (s.updPc n f).ledger = s.ledger := rfl
@[simp] theorem State.updPc_shrouds (s : State) (n : Nat) (f : PChan → PChan) : (s.updPc n f).shrouds = s.shrouds := rfl
@[simp] theorem State.updPc_sensors (s : State) (n : Nat) (f : PChan → PChan) : (s.updPc n f).sensors = s.sensors := rfl
@[simp] theorem State.updPc_ctxs (s : State) (n : Nat) (f : PChan → PChan) : (s.updPc n f).ctxs = s.ctxs := rfl
@[simp] theorem State.updPc_dev (s : State) (n : Nat) (f : PChan → PChan) : (s.updPc n f).dev = s.dev := rfl
@[simp] theorem State.updPc_steep (s : State) (n : Nat) (f : PChan → PChan) : (s.updPc n f).steep = s.steep := rfl
@[simp] theorem State.updPc_mash (s : State) (n : Nat) (f : PChan → PChan) : (s.updPc n f).mash = s.mash := rfl
@[simp] theorem State.updPc_luts (s : State) (n : Nat) (f : PChan → PChan) : (s.updPc n f).luts = s.luts := rfl
@[simp] theorem State.updPc_cacheHits (s : State) (n : Nat) (f : PChan → PChan) : (s.updPc n f).cacheHits = s.cacheHits := rfl
@[simp] theorem State.updPc_cacheMisses (s : State) (n : Nat) (f : PChan → PChan) : (s.updPc n f).cacheMisses = s.cacheMisses := rfl
@[simp] theorem State.updPc_bandCache (s : State) (n : Nat) (f : PChan → PChan) : (s.updPc n f).bandCache = s.bandCache := rfl
@[simp] theorem State.updPc_jobs (s : State) (n : Nat) (f : PChan → PChan) : (s.updPc n f).jobs = s.jobs := rfl
@[simp] theorem State.updPc_nextJob (s : State) (n : Nat) (f : PChan → PChan) : (s.updPc n f).nextJob = s.nextJob := rfl
@[simp] theorem State.updPc_engines (s : State) (n : Nat) (f : PChan → PChan) : (s.updPc n f).engines = s.engines := rfl
@[simp] theorem State.updPc_encs (s : State) (n : Nat) (f : PChan → PChan) : (s.updPc n f).encs = s.encs := rfl
@[simp] theorem State.updPc_decs (s : State) (n : Nat) (f : PChan → PChan) : (s.updPc n f).decs = s.decs := rfl
@[simp] theorem State.updPc_streams (s : State) (n : Nat) (f : PChan → PChan) : (s.updPc n f).streams = s.streams := rfl
@[simp] theorem State.updPc_drives (s : State) (n : Nat) (f : PChan → PChan) : (s.updPc n f).drives = s.drives := rfl
@[simp] theorem State.updPc_nextNvme (s : State) (n : Nat) (f : PChan → PChan) : (s.updPc n f).nextNvme = s.nextNvme := rfl
@[simp] theorem State.updPc_nextGrant (s : State) (n : Nat) (f : PChan → PChan) : (s.updPc n f).nextGrant = s.nextGrant := rfl
@[simp] theorem State.updPc_egress (s : State) (n : Nat) (f : PChan → PChan) : (s.updPc n f).egress = s.egress := rfl
@[simp] theorem State.updPc_brl (s : State) (n : Nat) (f : PChan → PChan) : (s.updPc n f).brl = s.brl := rfl
@[simp] theorem State.updPc_brlErrors (s : State) (n : Nat) (f : PChan → PChan) : (s.updPc n f).brlErrors = s.brlErrors := rfl
@[simp] theorem State.updPc_ep (s : State) (n : Nat) (f : PChan → PChan) : (s.updPc n f).ep = s.ep := rfl
@[simp] theorem State.updPc_vecs (s : State) (n : Nat) (f : PChan → PChan) : (s.updPc n f).vecs = s.vecs := rfl
@[simp] theorem State.updPc_yards (s : State) (n : Nat) (f : PChan → PChan) : (s.updPc n f).yards = s.yards := rfl
@[simp] theorem State.updPc_time (s : State) (n : Nat) (f : PChan → PChan) : (s.updPc n f).time = s.time := rfl
@[simp] theorem State.updPc_trust (s : State) (n : Nat) (f : PChan → PChan) : (s.updPc n f).trust = s.trust := rfl
@[simp] theorem State.updPc_health (s : State) (n : Nat) (f : PChan → PChan) : (s.updPc n f).health = s.health := rfl
@[simp] theorem State.updPc_obs (s : State) (n : Nat) (f : PChan → PChan) : (s.updPc n f).obs = s.obs := rfl
@[simp] theorem State.updPc_nv (s : State) (n : Nat) (f : PChan → PChan) : (s.updPc n f).nv = s.nv := rfl
@[simp] theorem State.updPc_latches (s : State) (n : Nat) (f : PChan → PChan) : (s.updPc n f).latches = s.latches := rfl
@[simp] theorem State.updPc_free (s : State) (n : Nat) (f : PChan → PChan) : (s.updPc n f).free = s.free := rfl
@[simp] theorem State.updPc_outs (s : State) (n : Nat) (f : PChan → PChan) : (s.updPc n f).outs = s.outs := rfl
@[simp] theorem State.updPc_pending (s : State) (n : Nat) (f : PChan → PChan) : (s.updPc n f).pending = s.pending := rfl
@[simp] theorem State.updPc_mem_hbm (s : State) (n : Nat) (f : PChan → PChan) : (s.updPc n f).mem.hbm = s.mem.hbm := rfl
@[simp] theorem State.updPc_pchans (s : State) (n : Nat) (f : PChan → PChan) : (s.updPc n f).mem.pchans = upd s.mem.pchans n f := rfl
@[simp] theorem State.updPc_mem_table (s : State) (n : Nat) (f : PChan → PChan) : (s.updPc n f).mem.table = s.mem.table := rfl
@[simp] theorem State.updPc_mem_regions (s : State) (n : Nat) (f : PChan → PChan) : (s.updPc n f).mem.regions = s.mem.regions := rfl
@[simp] theorem State.updPc_mem_bytes (s : State) (n : Nat) (f : PChan → PChan) : (s.updPc n f).mem.bytes = s.mem.bytes := rfl
@[simp] theorem State.updPc_mem_migrations (s : State) (n : Nat) (f : PChan → PChan) : (s.updPc n f).mem.migrations = s.mem.migrations := rfl
@[simp] theorem State.updPc_mem_tileFirst (s : State) (n : Nat) (f : PChan → PChan) : (s.updPc n f).mem.tileFirst = s.mem.tileFirst := rfl
@[simp] theorem State.updPc_mem_tileSecond (s : State) (n : Nat) (f : PChan → PChan) : (s.updPc n f).mem.tileSecond = s.mem.tileSecond := rfl
@[simp] theorem State.updPc_mem_fences (s : State) (n : Nat) (f : PChan → PChan) : (s.updPc n f).mem.fences = s.mem.fences := rfl
@[simp] theorem State.updPc_mem_unmapped (s : State) (n : Nat) (f : PChan → PChan) : (s.updPc n f).mem.unmapped = s.mem.unmapped := rfl
@[simp] theorem State.updPc_mem_landerHold (s : State) (n : Nat) (f : PChan → PChan) : (s.updPc n f).mem.landerHold = s.mem.landerHold := rfl
@[simp] theorem State.updPc_mem_lastUnmapped (s : State) (n : Nat) (f : PChan → PChan) : (s.updPc n f).mem.lastUnmapped = s.mem.lastUnmapped := rfl
@[simp] theorem State.updPc_mem_maps (s : State) (n : Nat) (f : PChan → PChan) : (s.updPc n f).mem.maps = s.mem.maps := rfl
@[simp] theorem State.updVec_power (s : State) (n : Nat) (f : Vec → Vec) : (s.updVec n f).power = s.power := rfl
@[simp] theorem State.updVec_ncp (s : State) (n : Nat) (f : Vec → Vec) : (s.updVec n f).ncp = s.ncp := rfl
@[simp] theorem State.updVec_cfg (s : State) (n : Nat) (f : Vec → Vec) : (s.updVec n f).cfg = s.cfg := rfl
@[simp] theorem State.updVec_ledger (s : State) (n : Nat) (f : Vec → Vec) : (s.updVec n f).ledger = s.ledger := rfl
@[simp] theorem State.updVec_shrouds (s : State) (n : Nat) (f : Vec → Vec) : (s.updVec n f).shrouds = s.shrouds := rfl
@[simp] theorem State.updVec_sensors (s : State) (n : Nat) (f : Vec → Vec) : (s.updVec n f).sensors = s.sensors := rfl
@[simp] theorem State.updVec_ctxs (s : State) (n : Nat) (f : Vec → Vec) : (s.updVec n f).ctxs = s.ctxs := rfl
@[simp] theorem State.updVec_dev (s : State) (n : Nat) (f : Vec → Vec) : (s.updVec n f).dev = s.dev := rfl
@[simp] theorem State.updVec_steep (s : State) (n : Nat) (f : Vec → Vec) : (s.updVec n f).steep = s.steep := rfl
@[simp] theorem State.updVec_mash (s : State) (n : Nat) (f : Vec → Vec) : (s.updVec n f).mash = s.mash := rfl
@[simp] theorem State.updVec_luts (s : State) (n : Nat) (f : Vec → Vec) : (s.updVec n f).luts = s.luts := rfl
@[simp] theorem State.updVec_cacheHits (s : State) (n : Nat) (f : Vec → Vec) : (s.updVec n f).cacheHits = s.cacheHits := rfl
@[simp] theorem State.updVec_cacheMisses (s : State) (n : Nat) (f : Vec → Vec) : (s.updVec n f).cacheMisses = s.cacheMisses := rfl
@[simp] theorem State.updVec_bandCache (s : State) (n : Nat) (f : Vec → Vec) : (s.updVec n f).bandCache = s.bandCache := rfl
@[simp] theorem State.updVec_jobs (s : State) (n : Nat) (f : Vec → Vec) : (s.updVec n f).jobs = s.jobs := rfl
@[simp] theorem State.updVec_nextJob (s : State) (n : Nat) (f : Vec → Vec) : (s.updVec n f).nextJob = s.nextJob := rfl
@[simp] theorem State.updVec_engines (s : State) (n : Nat) (f : Vec → Vec) : (s.updVec n f).engines = s.engines := rfl
@[simp] theorem State.updVec_encs (s : State) (n : Nat) (f : Vec → Vec) : (s.updVec n f).encs = s.encs := rfl
@[simp] theorem State.updVec_decs (s : State) (n : Nat) (f : Vec → Vec) : (s.updVec n f).decs = s.decs := rfl
@[simp] theorem State.updVec_streams (s : State) (n : Nat) (f : Vec → Vec) : (s.updVec n f).streams = s.streams := rfl
@[simp] theorem State.updVec_drives (s : State) (n : Nat) (f : Vec → Vec) : (s.updVec n f).drives = s.drives := rfl
@[simp] theorem State.updVec_nextNvme (s : State) (n : Nat) (f : Vec → Vec) : (s.updVec n f).nextNvme = s.nextNvme := rfl
@[simp] theorem State.updVec_nextGrant (s : State) (n : Nat) (f : Vec → Vec) : (s.updVec n f).nextGrant = s.nextGrant := rfl
@[simp] theorem State.updVec_egress (s : State) (n : Nat) (f : Vec → Vec) : (s.updVec n f).egress = s.egress := rfl
@[simp] theorem State.updVec_brl (s : State) (n : Nat) (f : Vec → Vec) : (s.updVec n f).brl = s.brl := rfl
@[simp] theorem State.updVec_brlErrors (s : State) (n : Nat) (f : Vec → Vec) : (s.updVec n f).brlErrors = s.brlErrors := rfl
@[simp] theorem State.updVec_mem (s : State) (n : Nat) (f : Vec → Vec) : (s.updVec n f).mem = s.mem := rfl
@[simp] theorem State.updVec_ep (s : State) (n : Nat) (f : Vec → Vec) : (s.updVec n f).ep = s.ep := rfl
@[simp] theorem State.updVec_yards (s : State) (n : Nat) (f : Vec → Vec) : (s.updVec n f).yards = s.yards := rfl
@[simp] theorem State.updVec_time (s : State) (n : Nat) (f : Vec → Vec) : (s.updVec n f).time = s.time := rfl
@[simp] theorem State.updVec_trust (s : State) (n : Nat) (f : Vec → Vec) : (s.updVec n f).trust = s.trust := rfl
@[simp] theorem State.updVec_health (s : State) (n : Nat) (f : Vec → Vec) : (s.updVec n f).health = s.health := rfl
@[simp] theorem State.updVec_obs (s : State) (n : Nat) (f : Vec → Vec) : (s.updVec n f).obs = s.obs := rfl
@[simp] theorem State.updVec_nv (s : State) (n : Nat) (f : Vec → Vec) : (s.updVec n f).nv = s.nv := rfl
@[simp] theorem State.updVec_latches (s : State) (n : Nat) (f : Vec → Vec) : (s.updVec n f).latches = s.latches := rfl
@[simp] theorem State.updVec_free (s : State) (n : Nat) (f : Vec → Vec) : (s.updVec n f).free = s.free := rfl
@[simp] theorem State.updVec_outs (s : State) (n : Nat) (f : Vec → Vec) : (s.updVec n f).outs = s.outs := rfl
@[simp] theorem State.updVec_pending (s : State) (n : Nat) (f : Vec → Vec) : (s.updVec n f).pending = s.pending := rfl
@[simp] theorem State.updVec_vecs (s : State) (n : Nat) (f : Vec → Vec) : (s.updVec n f).vecs = upd s.vecs n f := rfl
@[simp] theorem State.updSlot_power (s : State) (n : Nat) (f : Slot → Slot) : (s.updSlot n f).power = s.power := rfl
@[simp] theorem State.updSlot_cfg (s : State) (n : Nat) (f : Slot → Slot) : (s.updSlot n f).cfg = s.cfg := rfl
@[simp] theorem State.updSlot_ledger (s : State) (n : Nat) (f : Slot → Slot) : (s.updSlot n f).ledger = s.ledger := rfl
@[simp] theorem State.updSlot_shrouds (s : State) (n : Nat) (f : Slot → Slot) : (s.updSlot n f).shrouds = s.shrouds := rfl
@[simp] theorem State.updSlot_sensors (s : State) (n : Nat) (f : Slot → Slot) : (s.updSlot n f).sensors = s.sensors := rfl
@[simp] theorem State.updSlot_ctxs (s : State) (n : Nat) (f : Slot → Slot) : (s.updSlot n f).ctxs = s.ctxs := rfl
@[simp] theorem State.updSlot_dev (s : State) (n : Nat) (f : Slot → Slot) : (s.updSlot n f).dev = s.dev := rfl
@[simp] theorem State.updSlot_steep (s : State) (n : Nat) (f : Slot → Slot) : (s.updSlot n f).steep = s.steep := rfl
@[simp] theorem State.updSlot_mash (s : State) (n : Nat) (f : Slot → Slot) : (s.updSlot n f).mash = s.mash := rfl
@[simp] theorem State.updSlot_luts (s : State) (n : Nat) (f : Slot → Slot) : (s.updSlot n f).luts = s.luts := rfl
@[simp] theorem State.updSlot_cacheHits (s : State) (n : Nat) (f : Slot → Slot) : (s.updSlot n f).cacheHits = s.cacheHits := rfl
@[simp] theorem State.updSlot_cacheMisses (s : State) (n : Nat) (f : Slot → Slot) : (s.updSlot n f).cacheMisses = s.cacheMisses := rfl
@[simp] theorem State.updSlot_bandCache (s : State) (n : Nat) (f : Slot → Slot) : (s.updSlot n f).bandCache = s.bandCache := rfl
@[simp] theorem State.updSlot_jobs (s : State) (n : Nat) (f : Slot → Slot) : (s.updSlot n f).jobs = s.jobs := rfl
@[simp] theorem State.updSlot_nextJob (s : State) (n : Nat) (f : Slot → Slot) : (s.updSlot n f).nextJob = s.nextJob := rfl
@[simp] theorem State.updSlot_engines (s : State) (n : Nat) (f : Slot → Slot) : (s.updSlot n f).engines = s.engines := rfl
@[simp] theorem State.updSlot_encs (s : State) (n : Nat) (f : Slot → Slot) : (s.updSlot n f).encs = s.encs := rfl
@[simp] theorem State.updSlot_decs (s : State) (n : Nat) (f : Slot → Slot) : (s.updSlot n f).decs = s.decs := rfl
@[simp] theorem State.updSlot_streams (s : State) (n : Nat) (f : Slot → Slot) : (s.updSlot n f).streams = s.streams := rfl
@[simp] theorem State.updSlot_drives (s : State) (n : Nat) (f : Slot → Slot) : (s.updSlot n f).drives = s.drives := rfl
@[simp] theorem State.updSlot_nextNvme (s : State) (n : Nat) (f : Slot → Slot) : (s.updSlot n f).nextNvme = s.nextNvme := rfl
@[simp] theorem State.updSlot_nextGrant (s : State) (n : Nat) (f : Slot → Slot) : (s.updSlot n f).nextGrant = s.nextGrant := rfl
@[simp] theorem State.updSlot_egress (s : State) (n : Nat) (f : Slot → Slot) : (s.updSlot n f).egress = s.egress := rfl
@[simp] theorem State.updSlot_brl (s : State) (n : Nat) (f : Slot → Slot) : (s.updSlot n f).brl = s.brl := rfl
@[simp] theorem State.updSlot_brlErrors (s : State) (n : Nat) (f : Slot → Slot) : (s.updSlot n f).brlErrors = s.brlErrors := rfl
@[simp] theorem State.updSlot_mem (s : State) (n : Nat) (f : Slot → Slot) : (s.updSlot n f).mem = s.mem := rfl
@[simp] theorem State.updSlot_ep (s : State) (n : Nat) (f : Slot → Slot) : (s.updSlot n f).ep = s.ep := rfl
@[simp] theorem State.updSlot_vecs (s : State) (n : Nat) (f : Slot → Slot) : (s.updSlot n f).vecs = s.vecs := rfl
@[simp] theorem State.updSlot_yards (s : State) (n : Nat) (f : Slot → Slot) : (s.updSlot n f).yards = s.yards := rfl
@[simp] theorem State.updSlot_time (s : State) (n : Nat) (f : Slot → Slot) : (s.updSlot n f).time = s.time := rfl
@[simp] theorem State.updSlot_trust (s : State) (n : Nat) (f : Slot → Slot) : (s.updSlot n f).trust = s.trust := rfl
@[simp] theorem State.updSlot_health (s : State) (n : Nat) (f : Slot → Slot) : (s.updSlot n f).health = s.health := rfl
@[simp] theorem State.updSlot_obs (s : State) (n : Nat) (f : Slot → Slot) : (s.updSlot n f).obs = s.obs := rfl
@[simp] theorem State.updSlot_nv (s : State) (n : Nat) (f : Slot → Slot) : (s.updSlot n f).nv = s.nv := rfl
@[simp] theorem State.updSlot_latches (s : State) (n : Nat) (f : Slot → Slot) : (s.updSlot n f).latches = s.latches := rfl
@[simp] theorem State.updSlot_free (s : State) (n : Nat) (f : Slot → Slot) : (s.updSlot n f).free = s.free := rfl
@[simp] theorem State.updSlot_outs (s : State) (n : Nat) (f : Slot → Slot) : (s.updSlot n f).outs = s.outs := rfl
@[simp] theorem State.updSlot_pending (s : State) (n : Nat) (f : Slot → Slot) : (s.updSlot n f).pending = s.pending := rfl
@[simp] theorem State.updSlot_slots (s : State) (n : Nat) (f : Slot → Slot) : (s.updSlot n f).ncp.slots = upd s.ncp.slots n f := rfl
@[simp] theorem State.updSlot_ncp_sessions (s : State) (n : Nat) (f : Slot → Slot) : (s.updSlot n f).ncp.sessions = s.ncp.sessions := rfl
@[simp] theorem State.updSlot_ncp_mg (s : State) (n : Nat) (f : Slot → Slot) : (s.updSlot n f).ncp.mg = s.ncp.mg := rfl
@[simp] theorem State.updSlot_ncp_mem (s : State) (n : Nat) (f : Slot → Slot) : (s.updSlot n f).ncp.mem = s.ncp.mem := rfl
@[simp] theorem State.updSlot_ncp_rejectBits (s : State) (n : Nat) (f : Slot → Slot) : (s.updSlot n f).ncp.rejectBits = s.ncp.rejectBits := rfl
@[simp] theorem State.updSlot_ncp_lastRejectSlot (s : State) (n : Nat) (f : Slot → Slot) : (s.updSlot n f).ncp.lastRejectSlot = s.ncp.lastRejectSlot := rfl
@[simp] theorem State.updSlot_ncp_lastRejectReason (s : State) (n : Nat) (f : Slot → Slot) : (s.updSlot n f).ncp.lastRejectReason = s.ncp.lastRejectReason := rfl
@[simp] theorem State.updSlot_ncp_writesIgnored (s : State) (n : Nat) (f : Slot → Slot) : (s.updSlot n f).ncp.writesIgnored = s.ncp.writesIgnored := rfl
@[simp] theorem State.updSlot_ncp_doorbellsRejected (s : State) (n : Nat) (f : Slot → Slot) : (s.updSlot n f).ncp.doorbellsRejected = s.ncp.doorbellsRejected := rfl
@[simp] theorem State.updSlot_ncp_exec (s : State) (n : Nat) (f : Slot → Slot) : (s.updSlot n f).ncp.exec = s.ncp.exec := rfl
@[simp] theorem State.updSlot_ncp_waiting (s : State) (n : Nat) (f : Slot → Slot) : (s.updSlot n f).ncp.waiting = s.ncp.waiting := rfl
@[simp] theorem State.updSlot_ncp_orphans (s : State) (n : Nat) (f : Slot → Slot) : (s.updSlot n f).ncp.orphans = s.ncp.orphans := rfl
@[simp] theorem State.updSlot_ncp_eqProd (s : State) (n : Nat) (f : Slot → Slot) : (s.updSlot n f).ncp.eqProd = s.ncp.eqProd := rfl
@[simp] theorem State.updSlot_ncp_eqCons (s : State) (n : Nat) (f : Slot → Slot) : (s.updSlot n f).ncp.eqCons = s.ncp.eqCons := rfl
@[simp] theorem State.updSlot_ncp_eqPhase (s : State) (n : Nat) (f : Slot → Slot) : (s.updSlot n f).ncp.eqPhase = s.ncp.eqPhase := rfl
@[simp] theorem State.updSlot_ncp_eqLost (s : State) (n : Nat) (f : Slot → Slot) : (s.updSlot n f).ncp.eqLost = s.ncp.eqLost := rfl
@[simp] theorem State.updSlot_ncp_eqLostSince (s : State) (n : Nat) (f : Slot → Slot) : (s.updSlot n f).ncp.eqLostSince = s.ncp.eqLostSince := rfl
@[simp] theorem State.updSlot_ncp_eventMask (s : State) (n : Nat) (f : Slot → Slot) : (s.updSlot n f).ncp.eventMask = s.ncp.eventMask := rfl
@[simp] theorem State.updSlot_ncp_intSummary (s : State) (n : Nat) (f : Slot → Slot) : (s.updSlot n f).ncp.intSummary = s.ncp.intSummary := rfl
@[simp] theorem State.updSlot_ncp_globalCause (s : State) (n : Nat) (f : Slot → Slot) : (s.updSlot n f).ncp.globalCause = s.ncp.globalCause := rfl
@[simp] theorem State.updSlot_ncp_imageIn (s : State) (n : Nat) (f : Slot → Slot) : (s.updSlot n f).ncp.imageIn = s.ncp.imageIn := rfl
@[simp] theorem State.updSlot_ncp_fwVersion (s : State) (n : Nat) (f : Slot → Slot) : (s.updSlot n f).ncp.fwVersion = s.ncp.fwVersion := rfl
@[simp] theorem State.updSlot_ncp_rings (s : State) (n : Nat) (f : Slot → Slot) : (s.updSlot n f).ncp.rings = s.ncp.rings := rfl
@[simp] theorem State.updSession_power (s : State) (n : Nat) (f : Session → Session) : (s.updSession n f).power = s.power := rfl
@[simp] theorem State.updSession_cfg (s : State) (n : Nat) (f : Session → Session) : (s.updSession n f).cfg = s.cfg := rfl
@[simp] theorem State.updSession_ledger (s : State) (n : Nat) (f : Session → Session) : (s.updSession n f).ledger = s.ledger := rfl
@[simp] theorem State.updSession_shrouds (s : State) (n : Nat) (f : Session → Session) : (s.updSession n f).shrouds = s.shrouds := rfl
@[simp] theorem State.updSession_sensors (s : State) (n : Nat) (f : Session → Session) : (s.updSession n f).sensors = s.sensors := rfl
@[simp] theorem State.updSession_ctxs (s : State) (n : Nat) (f : Session → Session) : (s.updSession n f).ctxs = s.ctxs := rfl
@[simp] theorem State.updSession_dev (s : State) (n : Nat) (f : Session → Session) : (s.updSession n f).dev = s.dev := rfl
@[simp] theorem State.updSession_steep (s : State) (n : Nat) (f : Session → Session) : (s.updSession n f).steep = s.steep := rfl
@[simp] theorem State.updSession_mash (s : State) (n : Nat) (f : Session → Session) : (s.updSession n f).mash = s.mash := rfl
@[simp] theorem State.updSession_luts (s : State) (n : Nat) (f : Session → Session) : (s.updSession n f).luts = s.luts := rfl
@[simp] theorem State.updSession_cacheHits (s : State) (n : Nat) (f : Session → Session) : (s.updSession n f).cacheHits = s.cacheHits := rfl
@[simp] theorem State.updSession_cacheMisses (s : State) (n : Nat) (f : Session → Session) : (s.updSession n f).cacheMisses = s.cacheMisses := rfl
@[simp] theorem State.updSession_bandCache (s : State) (n : Nat) (f : Session → Session) : (s.updSession n f).bandCache = s.bandCache := rfl
@[simp] theorem State.updSession_jobs (s : State) (n : Nat) (f : Session → Session) : (s.updSession n f).jobs = s.jobs := rfl
@[simp] theorem State.updSession_nextJob (s : State) (n : Nat) (f : Session → Session) : (s.updSession n f).nextJob = s.nextJob := rfl
@[simp] theorem State.updSession_engines (s : State) (n : Nat) (f : Session → Session) : (s.updSession n f).engines = s.engines := rfl
@[simp] theorem State.updSession_encs (s : State) (n : Nat) (f : Session → Session) : (s.updSession n f).encs = s.encs := rfl
@[simp] theorem State.updSession_decs (s : State) (n : Nat) (f : Session → Session) : (s.updSession n f).decs = s.decs := rfl
@[simp] theorem State.updSession_streams (s : State) (n : Nat) (f : Session → Session) : (s.updSession n f).streams = s.streams := rfl
@[simp] theorem State.updSession_drives (s : State) (n : Nat) (f : Session → Session) : (s.updSession n f).drives = s.drives := rfl
@[simp] theorem State.updSession_nextNvme (s : State) (n : Nat) (f : Session → Session) : (s.updSession n f).nextNvme = s.nextNvme := rfl
@[simp] theorem State.updSession_nextGrant (s : State) (n : Nat) (f : Session → Session) : (s.updSession n f).nextGrant = s.nextGrant := rfl
@[simp] theorem State.updSession_egress (s : State) (n : Nat) (f : Session → Session) : (s.updSession n f).egress = s.egress := rfl
@[simp] theorem State.updSession_brl (s : State) (n : Nat) (f : Session → Session) : (s.updSession n f).brl = s.brl := rfl
@[simp] theorem State.updSession_brlErrors (s : State) (n : Nat) (f : Session → Session) : (s.updSession n f).brlErrors = s.brlErrors := rfl
@[simp] theorem State.updSession_mem (s : State) (n : Nat) (f : Session → Session) : (s.updSession n f).mem = s.mem := rfl
@[simp] theorem State.updSession_ep (s : State) (n : Nat) (f : Session → Session) : (s.updSession n f).ep = s.ep := rfl
@[simp] theorem State.updSession_vecs (s : State) (n : Nat) (f : Session → Session) : (s.updSession n f).vecs = s.vecs := rfl
@[simp] theorem State.updSession_yards (s : State) (n : Nat) (f : Session → Session) : (s.updSession n f).yards = s.yards := rfl
@[simp] theorem State.updSession_time (s : State) (n : Nat) (f : Session → Session) : (s.updSession n f).time = s.time := rfl
@[simp] theorem State.updSession_trust (s : State) (n : Nat) (f : Session → Session) : (s.updSession n f).trust = s.trust := rfl
@[simp] theorem State.updSession_health (s : State) (n : Nat) (f : Session → Session) : (s.updSession n f).health = s.health := rfl
@[simp] theorem State.updSession_obs (s : State) (n : Nat) (f : Session → Session) : (s.updSession n f).obs = s.obs := rfl
@[simp] theorem State.updSession_nv (s : State) (n : Nat) (f : Session → Session) : (s.updSession n f).nv = s.nv := rfl
@[simp] theorem State.updSession_latches (s : State) (n : Nat) (f : Session → Session) : (s.updSession n f).latches = s.latches := rfl
@[simp] theorem State.updSession_free (s : State) (n : Nat) (f : Session → Session) : (s.updSession n f).free = s.free := rfl
@[simp] theorem State.updSession_outs (s : State) (n : Nat) (f : Session → Session) : (s.updSession n f).outs = s.outs := rfl
@[simp] theorem State.updSession_pending (s : State) (n : Nat) (f : Session → Session) : (s.updSession n f).pending = s.pending := rfl
@[simp] theorem State.updSession_ncp_slots (s : State) (n : Nat) (f : Session → Session) : (s.updSession n f).ncp.slots = s.ncp.slots := rfl
@[simp] theorem State.updSession_sessions (s : State) (n : Nat) (f : Session → Session) : (s.updSession n f).ncp.sessions = upd s.ncp.sessions n f := rfl
@[simp] theorem State.updSession_ncp_mg (s : State) (n : Nat) (f : Session → Session) : (s.updSession n f).ncp.mg = s.ncp.mg := rfl
@[simp] theorem State.updSession_ncp_mem (s : State) (n : Nat) (f : Session → Session) : (s.updSession n f).ncp.mem = s.ncp.mem := rfl
@[simp] theorem State.updSession_ncp_rejectBits (s : State) (n : Nat) (f : Session → Session) : (s.updSession n f).ncp.rejectBits = s.ncp.rejectBits := rfl
@[simp] theorem State.updSession_ncp_lastRejectSlot (s : State) (n : Nat) (f : Session → Session) : (s.updSession n f).ncp.lastRejectSlot = s.ncp.lastRejectSlot := rfl
@[simp] theorem State.updSession_ncp_lastRejectReason (s : State) (n : Nat) (f : Session → Session) : (s.updSession n f).ncp.lastRejectReason = s.ncp.lastRejectReason := rfl
@[simp] theorem State.updSession_ncp_writesIgnored (s : State) (n : Nat) (f : Session → Session) : (s.updSession n f).ncp.writesIgnored = s.ncp.writesIgnored := rfl
@[simp] theorem State.updSession_ncp_doorbellsRejected (s : State) (n : Nat) (f : Session → Session) : (s.updSession n f).ncp.doorbellsRejected = s.ncp.doorbellsRejected := rfl
@[simp] theorem State.updSession_ncp_exec (s : State) (n : Nat) (f : Session → Session) : (s.updSession n f).ncp.exec = s.ncp.exec := rfl
@[simp] theorem State.updSession_ncp_waiting (s : State) (n : Nat) (f : Session → Session) : (s.updSession n f).ncp.waiting = s.ncp.waiting := rfl
@[simp] theorem State.updSession_ncp_orphans (s : State) (n : Nat) (f : Session → Session) : (s.updSession n f).ncp.orphans = s.ncp.orphans := rfl
@[simp] theorem State.updSession_ncp_eqProd (s : State) (n : Nat) (f : Session → Session) : (s.updSession n f).ncp.eqProd = s.ncp.eqProd := rfl
@[simp] theorem State.updSession_ncp_eqCons (s : State) (n : Nat) (f : Session → Session) : (s.updSession n f).ncp.eqCons = s.ncp.eqCons := rfl
@[simp] theorem State.updSession_ncp_eqPhase (s : State) (n : Nat) (f : Session → Session) : (s.updSession n f).ncp.eqPhase = s.ncp.eqPhase := rfl
@[simp] theorem State.updSession_ncp_eqLost (s : State) (n : Nat) (f : Session → Session) : (s.updSession n f).ncp.eqLost = s.ncp.eqLost := rfl
@[simp] theorem State.updSession_ncp_eqLostSince (s : State) (n : Nat) (f : Session → Session) : (s.updSession n f).ncp.eqLostSince = s.ncp.eqLostSince := rfl
@[simp] theorem State.updSession_ncp_eventMask (s : State) (n : Nat) (f : Session → Session) : (s.updSession n f).ncp.eventMask = s.ncp.eventMask := rfl
@[simp] theorem State.updSession_ncp_intSummary (s : State) (n : Nat) (f : Session → Session) : (s.updSession n f).ncp.intSummary = s.ncp.intSummary := rfl
@[simp] theorem State.updSession_ncp_globalCause (s : State) (n : Nat) (f : Session → Session) : (s.updSession n f).ncp.globalCause = s.ncp.globalCause := rfl
@[simp] theorem State.updSession_ncp_imageIn (s : State) (n : Nat) (f : Session → Session) : (s.updSession n f).ncp.imageIn = s.ncp.imageIn := rfl
@[simp] theorem State.updSession_ncp_fwVersion (s : State) (n : Nat) (f : Session → Session) : (s.updSession n f).ncp.fwVersion = s.ncp.fwVersion := rfl
@[simp] theorem State.updSession_ncp_rings (s : State) (n : Nat) (f : Session → Session) : (s.updSession n f).ncp.rings = s.ncp.rings := rfl
@[simp] theorem State.updMg_power (s : State) (n : Nat) (f : MgBox → MgBox) : (s.updMg n f).power = s.power := rfl
@[simp] theorem State.updMg_cfg (s : State) (n : Nat) (f : MgBox → MgBox) : (s.updMg n f).cfg = s.cfg := rfl
@[simp] theorem State.updMg_ledger (s : State) (n : Nat) (f : MgBox → MgBox) : (s.updMg n f).ledger = s.ledger := rfl
@[simp] theorem State.updMg_shrouds (s : State) (n : Nat) (f : MgBox → MgBox) : (s.updMg n f).shrouds = s.shrouds := rfl
@[simp] theorem State.updMg_sensors (s : State) (n : Nat) (f : MgBox → MgBox) : (s.updMg n f).sensors = s.sensors := rfl
@[simp] theorem State.updMg_ctxs (s : State) (n : Nat) (f : MgBox → MgBox) : (s.updMg n f).ctxs = s.ctxs := rfl
@[simp] theorem State.updMg_dev (s : State) (n : Nat) (f : MgBox → MgBox) : (s.updMg n f).dev = s.dev := rfl
@[simp] theorem State.updMg_steep (s : State) (n : Nat) (f : MgBox → MgBox) : (s.updMg n f).steep = s.steep := rfl
@[simp] theorem State.updMg_mash (s : State) (n : Nat) (f : MgBox → MgBox) : (s.updMg n f).mash = s.mash := rfl
@[simp] theorem State.updMg_luts (s : State) (n : Nat) (f : MgBox → MgBox) : (s.updMg n f).luts = s.luts := rfl
@[simp] theorem State.updMg_cacheHits (s : State) (n : Nat) (f : MgBox → MgBox) : (s.updMg n f).cacheHits = s.cacheHits := rfl
@[simp] theorem State.updMg_cacheMisses (s : State) (n : Nat) (f : MgBox → MgBox) : (s.updMg n f).cacheMisses = s.cacheMisses := rfl
@[simp] theorem State.updMg_bandCache (s : State) (n : Nat) (f : MgBox → MgBox) : (s.updMg n f).bandCache = s.bandCache := rfl
@[simp] theorem State.updMg_jobs (s : State) (n : Nat) (f : MgBox → MgBox) : (s.updMg n f).jobs = s.jobs := rfl
@[simp] theorem State.updMg_nextJob (s : State) (n : Nat) (f : MgBox → MgBox) : (s.updMg n f).nextJob = s.nextJob := rfl
@[simp] theorem State.updMg_engines (s : State) (n : Nat) (f : MgBox → MgBox) : (s.updMg n f).engines = s.engines := rfl
@[simp] theorem State.updMg_encs (s : State) (n : Nat) (f : MgBox → MgBox) : (s.updMg n f).encs = s.encs := rfl
@[simp] theorem State.updMg_decs (s : State) (n : Nat) (f : MgBox → MgBox) : (s.updMg n f).decs = s.decs := rfl
@[simp] theorem State.updMg_streams (s : State) (n : Nat) (f : MgBox → MgBox) : (s.updMg n f).streams = s.streams := rfl
@[simp] theorem State.updMg_drives (s : State) (n : Nat) (f : MgBox → MgBox) : (s.updMg n f).drives = s.drives := rfl
@[simp] theorem State.updMg_nextNvme (s : State) (n : Nat) (f : MgBox → MgBox) : (s.updMg n f).nextNvme = s.nextNvme := rfl
@[simp] theorem State.updMg_nextGrant (s : State) (n : Nat) (f : MgBox → MgBox) : (s.updMg n f).nextGrant = s.nextGrant := rfl
@[simp] theorem State.updMg_egress (s : State) (n : Nat) (f : MgBox → MgBox) : (s.updMg n f).egress = s.egress := rfl
@[simp] theorem State.updMg_brl (s : State) (n : Nat) (f : MgBox → MgBox) : (s.updMg n f).brl = s.brl := rfl
@[simp] theorem State.updMg_brlErrors (s : State) (n : Nat) (f : MgBox → MgBox) : (s.updMg n f).brlErrors = s.brlErrors := rfl
@[simp] theorem State.updMg_mem (s : State) (n : Nat) (f : MgBox → MgBox) : (s.updMg n f).mem = s.mem := rfl
@[simp] theorem State.updMg_ep (s : State) (n : Nat) (f : MgBox → MgBox) : (s.updMg n f).ep = s.ep := rfl
@[simp] theorem State.updMg_vecs (s : State) (n : Nat) (f : MgBox → MgBox) : (s.updMg n f).vecs = s.vecs := rfl
@[simp] theorem State.updMg_yards (s : State) (n : Nat) (f : MgBox → MgBox) : (s.updMg n f).yards = s.yards := rfl
@[simp] theorem State.updMg_time (s : State) (n : Nat) (f : MgBox → MgBox) : (s.updMg n f).time = s.time := rfl
@[simp] theorem State.updMg_trust (s : State) (n : Nat) (f : MgBox → MgBox) : (s.updMg n f).trust = s.trust := rfl
@[simp] theorem State.updMg_health (s : State) (n : Nat) (f : MgBox → MgBox) : (s.updMg n f).health = s.health := rfl
@[simp] theorem State.updMg_obs (s : State) (n : Nat) (f : MgBox → MgBox) : (s.updMg n f).obs = s.obs := rfl
@[simp] theorem State.updMg_nv (s : State) (n : Nat) (f : MgBox → MgBox) : (s.updMg n f).nv = s.nv := rfl
@[simp] theorem State.updMg_latches (s : State) (n : Nat) (f : MgBox → MgBox) : (s.updMg n f).latches = s.latches := rfl
@[simp] theorem State.updMg_free (s : State) (n : Nat) (f : MgBox → MgBox) : (s.updMg n f).free = s.free := rfl
@[simp] theorem State.updMg_outs (s : State) (n : Nat) (f : MgBox → MgBox) : (s.updMg n f).outs = s.outs := rfl
@[simp] theorem State.updMg_pending (s : State) (n : Nat) (f : MgBox → MgBox) : (s.updMg n f).pending = s.pending := rfl
@[simp] theorem State.updMg_ncp_slots (s : State) (n : Nat) (f : MgBox → MgBox) : (s.updMg n f).ncp.slots = s.ncp.slots := rfl
@[simp] theorem State.updMg_ncp_sessions (s : State) (n : Nat) (f : MgBox → MgBox) : (s.updMg n f).ncp.sessions = s.ncp.sessions := rfl
@[simp] theorem State.updMg_mg (s : State) (n : Nat) (f : MgBox → MgBox) : (s.updMg n f).ncp.mg = upd s.ncp.mg n f := rfl
@[simp] theorem State.updMg_ncp_mem (s : State) (n : Nat) (f : MgBox → MgBox) : (s.updMg n f).ncp.mem = s.ncp.mem := rfl
@[simp] theorem State.updMg_ncp_rejectBits (s : State) (n : Nat) (f : MgBox → MgBox) : (s.updMg n f).ncp.rejectBits = s.ncp.rejectBits := rfl
@[simp] theorem State.updMg_ncp_lastRejectSlot (s : State) (n : Nat) (f : MgBox → MgBox) : (s.updMg n f).ncp.lastRejectSlot = s.ncp.lastRejectSlot := rfl
@[simp] theorem State.updMg_ncp_lastRejectReason (s : State) (n : Nat) (f : MgBox → MgBox) : (s.updMg n f).ncp.lastRejectReason = s.ncp.lastRejectReason := rfl
@[simp] theorem State.updMg_ncp_writesIgnored (s : State) (n : Nat) (f : MgBox → MgBox) : (s.updMg n f).ncp.writesIgnored = s.ncp.writesIgnored := rfl
@[simp] theorem State.updMg_ncp_doorbellsRejected (s : State) (n : Nat) (f : MgBox → MgBox) : (s.updMg n f).ncp.doorbellsRejected = s.ncp.doorbellsRejected := rfl
@[simp] theorem State.updMg_ncp_exec (s : State) (n : Nat) (f : MgBox → MgBox) : (s.updMg n f).ncp.exec = s.ncp.exec := rfl
@[simp] theorem State.updMg_ncp_waiting (s : State) (n : Nat) (f : MgBox → MgBox) : (s.updMg n f).ncp.waiting = s.ncp.waiting := rfl
@[simp] theorem State.updMg_ncp_orphans (s : State) (n : Nat) (f : MgBox → MgBox) : (s.updMg n f).ncp.orphans = s.ncp.orphans := rfl
@[simp] theorem State.updMg_ncp_eqProd (s : State) (n : Nat) (f : MgBox → MgBox) : (s.updMg n f).ncp.eqProd = s.ncp.eqProd := rfl
@[simp] theorem State.updMg_ncp_eqCons (s : State) (n : Nat) (f : MgBox → MgBox) : (s.updMg n f).ncp.eqCons = s.ncp.eqCons := rfl
@[simp] theorem State.updMg_ncp_eqPhase (s : State) (n : Nat) (f : MgBox → MgBox) : (s.updMg n f).ncp.eqPhase = s.ncp.eqPhase := rfl
@[simp] theorem State.updMg_ncp_eqLost (s : State) (n : Nat) (f : MgBox → MgBox) : (s.updMg n f).ncp.eqLost = s.ncp.eqLost := rfl
@[simp] theorem State.updMg_ncp_eqLostSince (s : State) (n : Nat) (f : MgBox → MgBox) : (s.updMg n f).ncp.eqLostSince = s.ncp.eqLostSince := rfl
@[simp] theorem State.updMg_ncp_eventMask (s : State) (n : Nat) (f : MgBox → MgBox) : (s.updMg n f).ncp.eventMask = s.ncp.eventMask := rfl
@[simp] theorem State.updMg_ncp_intSummary (s : State) (n : Nat) (f : MgBox → MgBox) : (s.updMg n f).ncp.intSummary = s.ncp.intSummary := rfl
@[simp] theorem State.updMg_ncp_globalCause (s : State) (n : Nat) (f : MgBox → MgBox) : (s.updMg n f).ncp.globalCause = s.ncp.globalCause := rfl
@[simp] theorem State.updMg_ncp_imageIn (s : State) (n : Nat) (f : MgBox → MgBox) : (s.updMg n f).ncp.imageIn = s.ncp.imageIn := rfl
@[simp] theorem State.updMg_ncp_fwVersion (s : State) (n : Nat) (f : MgBox → MgBox) : (s.updMg n f).ncp.fwVersion = s.ncp.fwVersion := rfl
@[simp] theorem State.updMg_ncp_rings (s : State) (n : Nat) (f : MgBox → MgBox) : (s.updMg n f).ncp.rings = s.ncp.rings := rfl
@[simp] theorem State.out_power (s : State) (o : OutMsg) : (s.out o).power = s.power := rfl
@[simp] theorem State.out_ncp (s : State) (o : OutMsg) : (s.out o).ncp = s.ncp := rfl
@[simp] theorem State.out_cfg (s : State) (o : OutMsg) : (s.out o).cfg = s.cfg := rfl
@[simp] theorem State.out_ledger (s : State) (o : OutMsg) : (s.out o).ledger = s.ledger := rfl
@[simp] theorem State.out_shrouds (s : State) (o : OutMsg) : (s.out o).shrouds = s.shrouds := rfl
@[simp] theorem State.out_sensors (s : State) (o : OutMsg) : (s.out o).sensors = s.sensors := rfl
@[simp] theorem State.out_ctxs (s : State) (o : OutMsg) : (s.out o).ctxs = s.ctxs := rfl
@[simp] theorem State.out_dev (s : State) (o : OutMsg) : (s.out o).dev = s.dev := rfl
@[simp] theorem State.out_steep (s : State) (o : OutMsg) : (s.out o).steep = s.steep := rfl
@[simp] theorem State.out_mash (s : State) (o : OutMsg) : (s.out o).mash = s.mash := rfl
@[simp] theorem State.out_luts (s : State) (o : OutMsg) : (s.out o).luts = s.luts := rfl
@[simp] theorem State.out_cacheHits (s : State) (o : OutMsg) : (s.out o).cacheHits = s.cacheHits := rfl
@[simp] theorem State.out_cacheMisses (s : State) (o : OutMsg) : (s.out o).cacheMisses = s.cacheMisses := rfl
@[simp] theorem State.out_bandCache (s : State) (o : OutMsg) : (s.out o).bandCache = s.bandCache := rfl
@[simp] theorem State.out_jobs (s : State) (o : OutMsg) : (s.out o).jobs = s.jobs := rfl
@[simp] theorem State.out_nextJob (s : State) (o : OutMsg) : (s.out o).nextJob = s.nextJob := rfl
@[simp] theorem State.out_engines (s : State) (o : OutMsg) : (s.out o).engines = s.engines := rfl
@[simp] theorem State.out_encs (s : State) (o : OutMsg) : (s.out o).encs = s.encs := rfl
@[simp] theorem State.out_decs (s : State) (o : OutMsg) : (s.out o).decs = s.decs := rfl
@[simp] theorem State.out_streams (s : State) (o : OutMsg) : (s.out o).streams = s.streams := rfl
@[simp] theorem State.out_drives (s : State) (o : OutMsg) : (s.out o).drives = s.drives := rfl
@[simp] theorem State.out_nextNvme (s : State) (o : OutMsg) : (s.out o).nextNvme = s.nextNvme := rfl
@[simp] theorem State.out_nextGrant (s : State) (o : OutMsg) : (s.out o).nextGrant = s.nextGrant := rfl
@[simp] theorem State.out_egress (s : State) (o : OutMsg) : (s.out o).egress = s.egress := rfl
@[simp] theorem State.out_brl (s : State) (o : OutMsg) : (s.out o).brl = s.brl := rfl
@[simp] theorem State.out_brlErrors (s : State) (o : OutMsg) : (s.out o).brlErrors = s.brlErrors := rfl
@[simp] theorem State.out_mem (s : State) (o : OutMsg) : (s.out o).mem = s.mem := rfl
@[simp] theorem State.out_ep (s : State) (o : OutMsg) : (s.out o).ep = s.ep := rfl
@[simp] theorem State.out_vecs (s : State) (o : OutMsg) : (s.out o).vecs = s.vecs := rfl
@[simp] theorem State.out_yards (s : State) (o : OutMsg) : (s.out o).yards = s.yards := rfl
@[simp] theorem State.out_time (s : State) (o : OutMsg) : (s.out o).time = s.time := rfl
@[simp] theorem State.out_trust (s : State) (o : OutMsg) : (s.out o).trust = s.trust := rfl
@[simp] theorem State.out_health (s : State) (o : OutMsg) : (s.out o).health = s.health := rfl
@[simp] theorem State.out_obs (s : State) (o : OutMsg) : (s.out o).obs = s.obs := rfl
@[simp] theorem State.out_nv (s : State) (o : OutMsg) : (s.out o).nv = s.nv := rfl
@[simp] theorem State.out_latches (s : State) (o : OutMsg) : (s.out o).latches = s.latches := rfl
@[simp] theorem State.out_free (s : State) (o : OutMsg) : (s.out o).free = s.free := rfl
@[simp] theorem State.out_pending (s : State) (o : OutMsg) : (s.out o).pending = s.pending := rfl
@[simp] theorem State.out_outs (s : State) (o : OutMsg) : (s.out o).outs = o :: s.outs := rfl
theorem State.updShroud_shroud_self (s : State) (n : Nat) (f : Shroud → Shroud) (h : n < s.shrouds.length) :
    (s.updShroud n f).shroud n = f (s.shroud n) := upd_getD_self _ h
theorem State.updShroud_shroud_of_ne (s : State) (n m : Nat) (f : Shroud → Shroud) (h : m ≠ n) : (s.updShroud n f).shroud m = s.shroud m := upd_getD_of_ne _ h
theorem State.updSensor_sensor_self (s : State) (n : Nat) (f : Sensor → Sensor) (h : n < s.sensors.length) :
    (s.updSensor n f).sensor n = f (s.sensor n) := upd_getD_self _ h
theorem State.updSensor_sensor_of_ne (s : State) (n m : Nat) (f : Sensor → Sensor) (h : m ≠ n) : (s.updSensor n f).sensor m = s.sensor m := upd_getD_of_ne _ h
theorem State.updCtx_ctx_self (s : State) (n : Nat) (f : Context → Context) (h : n < s.ctxs.length) :
    (s.updCtx n f).ctx n = f (s.ctx n) := upd_getD_self _ h
theorem State.updCtx_ctx_of_ne (s : State) (n m : Nat) (f : Context → Context) (h : m ≠ n) : (s.updCtx n f).ctx m = s.ctx m := upd_getD_of_ne _ h
theorem State.updSteep_stp_self (s : State) (n : Nat) (f : SteepCtx → SteepCtx) (h : n < s.steep.length) :
    (s.updSteep n f).stp n = f (s.stp n) := upd_getD_self _ h
theorem State.updSteep_stp_of_ne (s : State) (n m : Nat) (f : SteepCtx → SteepCtx) (h : m ≠ n) : (s.updSteep n f).stp m = s.stp m := upd_getD_of_ne _ h
theorem State.updMash_msh_self (s : State) (n : Nat) (f : MashCtx → MashCtx) (h : n < s.mash.length) :
    (s.updMash n f).msh n = f (s.msh n) := upd_getD_self _ h
theorem State.updMash_msh_of_ne (s : State) (n m : Nat) (f : MashCtx → MashCtx) (h : m ≠ n) : (s.updMash n f).msh m = s.msh m := upd_getD_of_ne _ h
theorem State.updEnc_enc_self (s : State) (n : Nat) (f : Encoding → Encoding) (h : n < s.encs.length) :
    (s.updEnc n f).enc n = f (s.enc n) := upd_getD_self _ h
theorem State.updEnc_enc_of_ne (s : State) (n m : Nat) (f : Encoding → Encoding) (h : m ≠ n) : (s.updEnc n f).enc m = s.enc m := upd_getD_of_ne _ h
theorem State.updDec_dec_self (s : State) (n : Nat) (f : DecStream → DecStream) (h : n < s.decs.length) :
    (s.updDec n f).dec n = f (s.dec n) := upd_getD_self _ h
theorem State.updDec_dec_of_ne (s : State) (n m : Nat) (f : DecStream → DecStream) (h : m ≠ n) : (s.updDec n f).dec m = s.dec m := upd_getD_of_ne _ h
theorem State.updStream_stream_self (s : State) (n : Nat) (f : Stream → Stream) (h : n < s.streams.length) :
    (s.updStream n f).stream n = f (s.stream n) := upd_getD_self _ h
theorem State.updStream_stream_of_ne (s : State) (n m : Nat) (f : Stream → Stream) (h : m ≠ n) : (s.updStream n f).stream m = s.stream m := upd_getD_of_ne _ h
theorem State.updDrive_drive_self (s : State) (n : Nat) (f : Drive → Drive) (h : n < s.drives.length) :
    (s.updDrive n f).drive n = f (s.drive n) := upd_getD_self _ h
theorem State.updDrive_drive_of_ne (s : State) (n m : Nat) (f : Drive → Drive) (h : m ≠ n) : (s.updDrive n f).drive m = s.drive m := upd_getD_of_ne _ h
theorem State.updBrl_brlCtx_self (s : State) (n : Nat) (f : BrlCtx → BrlCtx) (h : n < s.brl.length) :
    (s.updBrl n f).brlCtx n = f (s.brlCtx n) := upd_getD_self _ h
theorem State.updBrl_brlCtx_of_ne (s : State) (n m : Nat) (f : BrlCtx → BrlCtx) (h : m ≠ n) : (s.updBrl n f).brlCtx m = s.brlCtx m := upd_getD_of_ne _ h
theorem State.updBase_base_self (s : State) (n : Nat) (f : Base → Base) (h : n < s.time.bases.length) :
    (s.updBase n f).base n = f (s.base n) := upd_getD_self _ h
theorem State.updBase_base_of_ne (s : State) (n m : Nat) (f : Base → Base) (h : m ≠ n) : (s.updBase n f).base m = s.base m := upd_getD_of_ne _ h
theorem State.updHbm_hbm_self (s : State) (n : Nat) (f : Stack → Stack) (h : n < s.mem.hbm.length) :
    (s.updHbm n f).hbm n = f (s.hbm n) := upd_getD_self _ h
theorem State.updHbm_hbm_of_ne (s : State) (n m : Nat) (f : Stack → Stack) (h : m ≠ n) : (s.updHbm n f).hbm m = s.hbm m := upd_getD_of_ne _ h
theorem State.updPc_pchan_self (s : State) (n : Nat) (f : PChan → PChan) (h : n < s.mem.pchans.length) :
    (s.updPc n f).pchan n = f (s.pchan n) := upd_getD_self _ h
theorem State.updPc_pchan_of_ne (s : State) (n m : Nat) (f : PChan → PChan) (h : m ≠ n) : (s.updPc n f).pchan m = s.pchan m := upd_getD_of_ne _ h
theorem State.updVec_vec_self (s : State) (n : Nat) (f : Vec → Vec) (h : n < s.vecs.length) :
    (s.updVec n f).vec n = f (s.vec n) := upd_getD_self _ h
theorem State.updVec_vec_of_ne (s : State) (n m : Nat) (f : Vec → Vec) (h : m ≠ n) : (s.updVec n f).vec m = s.vec m := upd_getD_of_ne _ h
theorem State.updSlot_slot_self (s : State) (n : Nat) (f : Slot → Slot) (h : n < s.ncp.slots.length) :
    (s.updSlot n f).slot n = f (s.slot n) := upd_getD_self _ h
theorem State.updSlot_slot_of_ne (s : State) (n m : Nat) (f : Slot → Slot) (h : m ≠ n) : (s.updSlot n f).slot m = s.slot m := upd_getD_of_ne _ h
theorem State.updSession_session_self (s : State) (n : Nat) (f : Session → Session) (h : n < s.ncp.sessions.length) :
    (s.updSession n f).session n = f (s.session n) := upd_getD_self _ h
theorem State.updSession_session_of_ne (s : State) (n m : Nat) (f : Session → Session) (h : m ≠ n) : (s.updSession n f).session m = s.session m := upd_getD_of_ne _ h
theorem State.updMg_mg_self (s : State) (n : Nat) (f : MgBox → MgBox) (h : n < s.ncp.mg.length) :
    (s.updMg n f).mg n = f (s.mg n) := upd_getD_self _ h
theorem State.updMg_mg_of_ne (s : State) (n m : Nat) (f : MgBox → MgBox) (h : m ≠ n) : (s.updMg n f).mg m = s.mg m := upd_getD_of_ne _ h

end Sys2Proof.Machine
end

