-- ==== Sys2Proof/Laws/Mailbox.lean ====
section
/-! SUPPORT. What taking a command from a mailbox does: the firmware's state while it executes it, and the one case in which
every check passes. -/

namespace Sys2Proof.Machine

open Sys2Proof

theorem upd_getD_keep {α β : Type} (g : α → β) {f : α → α} (h : ∀ a, g (f a) = g a) (l : List α) (n i : Nat) (d : α) :
    g ((upd l n f).getD i d) = g (l.getD i d) := by
  simp only [upd, List.getD_eq_getElem?_getD, List.getElem?_modify]
  by_cases hi : n = i
  · subst hi; cases l[n]? <;> simp [h]
  · simp [hi]

theorem updSession_expected (s : State) (n i : Nat) {f : Session → Session} (h : ∀ x, (f x).expected = x.expected) :
    ((s.updSession n f).session i).expected = (s.session i).expected :=
  upd_getD_keep Session.expected h s.ncp.sessions n i Session.reset

theorem updMg_expected (s : State) (n i : Nat) {f : MgBox → MgBox} (h : ∀ x, (f x).expected = x.expected) :
    ((s.updMg n f).mg i).expected = (s.mg i).expected :=
  upd_getD_keep MgBox.expected h s.ncp.mg n i MgBox.reset

theorem updSlot_former (s : State) (n i : Nat) {f : Slot → Slot} (h : ∀ x, (f x).former = x.former) :
    ((s.updSlot n f).slot i).former = (s.slot i).former :=
  upd_getD_keep Slot.former h s.ncp.slots n i Slot.reset

/-- Marking a command taken leaves the number its sender must send. -/
theorem markTaken_expectedSeq (s : State) (c : Cmd) : (s.markTaken c).expectedSeq c = s.expectedSeq c := by
  rcases h : c.box with n | m
  · have hf : ∀ g, ((s.updSlot n fun x => { x with st := g }).slot n).former = (s.slot n).former :=
      fun g => updSlot_former s n n (fun _ => rfl)
    have he : ((s.markTaken c).session c.session).expected = (s.session c.session).expected := by
      simp only [State.markTaken, State.setBox, h]
      split
      · rfl
      · exact updSession_expected (s.updSlot n _) c.session c.session (fun _ => rfl)
    have hs : ((s.markTaken c).slot n).former = (s.slot n).former := by
      simp only [State.markTaken, State.setBox, h]
      split
      · exact hf .busy
      · exact hf .busy
    simp only [State.expectedSeq, h, he, hs]
  · simp only [State.expectedSeq, State.markTaken, State.setBox, h]
    exact congrArg some (updMg_expected s m m (fun _ => rfl))

theorem cmdIn_box (s : State) (b : Mbox) : (s.cmdIn b).box = b := rfl

/-- A command that passes every check that all commands share: the owning chapter's part runs on the state as the firmware
has it, and defined opcodes that wait let undefined ones wait with them. -/
theorem take_accepted {s : State} {b : Mbox} {f : Form} (h : Accepted s b f) (k : Cmd → State → State) :
    s.take b f k = (k (s.cmdIn b) (s.taken b)).sweep b := by
  have hr := h.rung; have ho := h.opcode; have hs := h.served; have hf := h.first; have hn := h.next
  have hb : (s.cmdIn b).box.limit = b.limit := rfl
  have h1 : ¬ (f.hi < (s.cmdIn b).len) := Nat.not_lt.mpr h.most
  have h2 : ¬ ((s.cmdIn b).box.limit < (s.cmdIn b).len) := Nat.not_lt.mpr (hb ▸ h.fits)
  have h3 : ¬ ((s.cmdIn b).len < f.lo) := Nat.not_lt.mpr h.least
  have hlive : (f.target && (s.cmdIn b).target != 0 && (s.cmdIn b).target != (s.taken b).liveNumber) = false := by
    cases ht : f.target with
    | false => rfl
    | true => rcases h.live ht with e | e <;> simp [e]
  have hseq : (s.markTaken (s.cmdIn b)).checkSeq (s.cmdIn b) (fun s' => s'.checkForm (s.cmdIn b) (s.boxBytes b 0 32) f k) =
      k (s.cmdIn b) (s.taken b) := by
    have hform : (s.taken b).checkForm (s.cmdIn b) (s.boxBytes b 0 32) f k = k (s.cmdIn b) (s.taken b) := by
      simp only [State.checkForm, h.sender, h.entries, h.header, h1, h2, h3, hlive]
      rfl
    rcases h.seq with e | e
    · have he : (s.markTaken (s.cmdIn b)).expectedSeq (s.cmdIn b) = none := (markTaken_expectedSeq _ _).trans e
      have hadv : s.taken b = s.markTaken (s.cmdIn b) := by
        rw [State.taken]
        revert he
        simp only [State.expectedSeq, State.advanceSeq]
        split
        · simp
        · intro he
          split at he
          · simp_all
          · split at he <;> simp_all
      simp only [State.checkSeq, he]
      rw [← hadv]
      exact hform
    · have he := (markTaken_expectedSeq s (s.cmdIn b)).trans e
      simp only [State.checkSeq, he]
      simp only [ne_eq, not_true_eq_false, if_false]
      exact hform
  simp [State.take, hr, ho, hs, hf, hn, hseq]

end Sys2Proof.Machine
end

