-- ==== Sys2Proof/Laws/Memory.lean ====
section
/-! SUPPORT. The sparse memory: every operation keeps the canonical form, a read after a write, and what a write leaves alone. -/

namespace Sys2Proof.Machine

open Sys2Proof

/-- The canonical form, by the head: entries are not 0 and each address exceeds the one before. -/
theorem Mem.wf_cons (a : Nat) (b : Byte) (m : Mem) :
    Mem.wf ((a, b) :: m) = true ↔ b ≠ 0 ∧ (∀ c ∈ m.head?, a < c.1) ∧ Mem.wf m = true := by
  cases m with
  | nil => simp [Mem.wf]
  | cons c m => obtain ⟨a', b'⟩ := c; simp [Mem.wf, and_assoc]

theorem Mem.head_write (m : Mem) (x : Nat) (v : Byte) (a : Nat) (hx : a < x) (h : ∀ c ∈ m.head?, a < c.1)
    (hw : m.wf = true) : ∀ c ∈ (m.write x v).head?, a < c.1 := by
  cases m with
  | nil => simp only [Mem.write]; split <;> simp_all
  | cons c m =>
    obtain ⟨k, b⟩ := c
    have hk : a < k := h (k, b) (by simp)
    have hm := ((Mem.wf_cons k b m).1 hw).2.1
    simp only [Mem.write]
    split
    · split <;> simp_all
    · split
      · split
        · intro c hc; exact Nat.lt_trans hk (hm c hc)
        · simp_all
      · simp_all

/-- A write keeps the canonical form. -/
theorem Mem.write_wf (m : Mem) (x : Nat) (v : Byte) (h : m.wf = true) : (m.write x v).wf = true := by
  induction m with
  | nil => simp only [Mem.write]; split <;> simp_all [Mem.wf]
  | cons c m ih =>
    obtain ⟨k, b⟩ := c
    have hc := (Mem.wf_cons k b m).1 h
    simp only [Mem.write]
    split
    · split
      · exact h
      · rename_i hlt hv
        exact (Mem.wf_cons _ _ _).2 ⟨hv, by simpa using hlt, h⟩
    · split
      · split
        · exact hc.2.2
        · rename_i hne hv
          subst hne
          exact (Mem.wf_cons _ _ _).2 ⟨hv, hc.2.1, hc.2.2⟩
      · rename_i h1 h2
        exact (Mem.wf_cons _ _ _).2 ⟨hc.1, Mem.head_write m x v k (by omega) hc.2.1 hc.2.2, ih hc.2.2⟩

theorem Mem.writeN_wf (m : Mem) (x : Nat) (d : List Byte) (h : m.wf = true) : (m.writeN x d).wf = true := by
  induction d generalizing m x with
  | nil => exact h
  | cons v vs ih => exact ih _ _ (Mem.write_wf m x v h)

theorem Mem.filter_wf (m : Mem) (p : Nat × Byte → Bool) (h : m.wf = true) : Mem.wf (m.filter p) = true := by
  have key : ∀ (m : Mem), m.wf = true → Mem.wf (m.filter p) = true ∧ ∀ a, (∀ c ∈ m.head?, a < c.1) → ∀ c ∈ (m.filter p).head?, a < c.1 := by
    intro m
    induction m with
    | nil => intro _; simp [Mem.wf]
    | cons c m ih =>
      intro hw
      obtain ⟨k, b⟩ := c
      have hc := (Mem.wf_cons k b m).1 hw
      obtain ⟨i1, i2⟩ := ih hc.2.2
      by_cases hp : p (k, b) = true
      · simp only [List.filter_cons, hp, if_true]
        refine ⟨(Mem.wf_cons _ _ _).2 ⟨hc.1, i2 k hc.2.1, i1⟩, ?_⟩
        intro a ha
        simpa using ha (k, b) (by simp)
      · simp only [List.filter_cons, hp]
        refine ⟨by simpa using i1, ?_⟩
        intro a ha
        have hak : a < k := ha (k, b) (by simp)
        simpa using i2 a (fun c hc' => Nat.lt_trans hak (hc.2.1 c hc'))
  exact (key m h).1

theorem Mem.clear_wf (m : Mem) (lo n : Nat) (h : m.wf = true) : (m.clear lo n).wf = true := Mem.filter_wf m _ h

/-- Nothing below the first address is listed. -/
theorem Mem.read_below (m : Mem) (x : Nat) (hw : m.wf = true) (h : ∀ c ∈ m.head?, x < c.1) : m.read x = 0 := by
  induction m with
  | nil => rfl
  | cons c m ih =>
    obtain ⟨k, b⟩ := c
    have hc := (Mem.wf_cons k b m).1 hw
    have hk : x < k := h (k, b) (by simp)
    simp only [Mem.read, if_neg (by omega : ¬ k = x)]
    exact ih hc.2.2 (fun c hc' => Nat.lt_trans hk (hc.2.1 c hc'))

/-- A read after a write to the same address gives the value written. -/
theorem Mem.read_write_self (m : Mem) (x : Nat) (v : Byte) (h : m.wf = true) : (m.write x v).read x = v := by
  induction m with
  | nil => simp only [Mem.write]; split <;> simp_all [Mem.read]
  | cons c m ih =>
    obtain ⟨k, b⟩ := c
    have hc := (Mem.wf_cons k b m).1 h
    simp only [Mem.write]
    split
    · rename_i hlt
      split
      · rename_i hv; subst hv; exact Mem.read_below _ _ h (by simpa using hlt)
      · simp [Mem.read]
    · split
      · split
        · rename_i _ he hv; subst hv; subst he; exact Mem.read_below _ _ hc.2.2 hc.2.1
        · simp [Mem.read]
      · rename_i _ hne
        have hkx : ¬ k = x := fun e => hne e.symm
        simp only [Mem.read, if_neg hkx]
        exact ih hc.2.2

/-- A write leaves every other address alone. -/
theorem Mem.read_write_of_ne (m : Mem) (x y : Nat) (v : Byte) (hne : y ≠ x) : (m.write x v).read y = m.read y := by
  induction m with
  | nil =>
    simp only [Mem.write]
    split
    · rfl
    · simp [Mem.read, Ne.symm hne]
  | cons c m ih =>
    obtain ⟨k, b⟩ := c
    simp only [Mem.write]
    split
    · split
      · rfl
      · simp [Mem.read, Ne.symm hne]
    · split
      · rename_i he
        subst he
        split <;> simp [Mem.read, Ne.symm hne]
      · by_cases hk : k = y
        · simp [Mem.read, hk]
        · simp [Mem.read, hk, ih]

/-- A write of several bytes leaves every address outside them alone. -/
theorem Mem.read_writeN_of_not (m : Mem) (x y : Nat) (d : List Byte) (h : y < x ∨ x + d.length ≤ y) :
    (m.writeN x d).read y = m.read y := by
  induction d generalizing m x with
  | nil => rfl
  | cons v vs ih =>
    simp only [List.length_cons] at h
    rw [Mem.writeN, ih _ _ (by omega), Mem.read_write_of_ne _ _ _ _ (by omega)]

/-- Each byte written reads back. -/
theorem Mem.read_writeN_self (m : Mem) (x i : Nat) (d : List Byte) (hw : m.wf = true) (h : i < d.length) :
    (m.writeN x d).read (x + i) = d.getD i 0 := by
  induction d generalizing m x i with
  | nil => simp at h
  | cons v vs ih =>
    cases i with
    | zero =>
      rw [Mem.writeN, Mem.read_writeN_of_not _ _ _ _ (by omega)]
      simpa using Mem.read_write_self m x v hw
    | succ i =>
      rw [Mem.writeN, show x + (i + 1) = (x + 1) + i by omega, ih _ _ _ (Mem.write_wf m x v hw) (by simpa using h)]
      simp

theorem Mem.readN_length (m : Mem) (x n : Nat) : (m.readN x n).length = n := by
  induction n generalizing x with
  | zero => rfl
  | succ n ih => simp [Mem.readN, ih]

/-- The bytes written read back as a string. -/
theorem Mem.readN_writeN (m : Mem) (x : Nat) (d : List Byte) (hw : m.wf = true) : (m.writeN x d).readN x d.length = d := by
  induction d generalizing m x with
  | nil => rfl
  | cons v vs ih =>
    simp only [List.length_cons, Mem.readN, Mem.writeN]
    rw [ih _ _ (Mem.write_wf m x v hw), Mem.read_writeN_of_not _ _ _ _ (by omega), Mem.read_write_self m x v hw]

/-- A string that lies apart from the bytes written reads as before. -/
theorem Mem.readN_writeN_of_apart (m : Mem) (x y n : Nat) (d : List Byte) (h : y + n ≤ x ∨ x + d.length ≤ y) :
    (m.writeN x d).readN y n = m.readN y n := by
  induction n generalizing y with
  | zero => rfl
  | succ n ih =>
    simp only [Mem.readN]
    rw [Mem.read_writeN_of_not _ _ _ _ (by omega), ih _ (by omega)]

end Sys2Proof.Machine
end

