-- ==== Sys2Proof/Tests/Slice0.lean ====
section
/-! SUPPORT. The model's own tests: ill-formed commands are refused, small steps give what the spec's text gives, and for
every statement with hypotheses a state and operands that meet them all. The expected values of the steps are taken from the
spec, never from a run of the model. -/

namespace Sys2Proof.Tests

open Sys2Proof Sys2Proof.Machine

set_option Elab.async false

/-! ## Well-formedness refuses -/

theorem test_wf_mailbox : Instr.wf (.devInfo (.slot 64)) = false ∧ Instr.wf (.devInfo (.mgmt 2)) = false ∧
    Instr.wf (.hostDmaDone (.slot 64) ⟨true, 0, [], [], [], none⟩) = false := by decide

theorem test_wf_windows : Instr.wf (.slotWrite 0xFFFFFFF [0, 0]) = false ∧ Instr.wf (.registerWrite 0x10000000 [0]) = false ∧
    Instr.wf (.rw1cClear 0x22 0 0) = false ∧ Instr.wf (.loWordRead ⟨0xFFFFFFE, 4⟩) = false ∧ Instr.wf (.loWordRead ⟨0, 0⟩) = false ∧
    Instr.wf (.baseSecLoRead 6) = false := by decide

theorem test_wf_pins : Instr.wf (.msixUnmask 256) = false ∧ Instr.wf (.trigInEdge 16 true 20) = false ∧
    Instr.wf (.furlVote 0 0) = false ∧ Instr.wf (.furlVote 256 0) = false ∧ Instr.wf (.droop 8) = false := by decide

theorem test_wf_lanes : Instr.wf (.orphan 56) = false ∧ Instr.wf (.oslFs 0 16 0) = false ∧ Instr.wf (.oslFe 56 0 0) = false ∧
    Instr.wf (.oslStat 0 16 0) = false ∧ Instr.wf (.oslLs 0 0 32768) = false ∧ Instr.wf (.oslLe 56 0 0) = false ∧
    Instr.wf (.slHdrErrBurst 0 16 1) = false ∧ Instr.wf (.badControl 56) = false ∧
    Instr.wf (.scpWaitTimeout 16) = false := by decide

theorem test_wf_packets : Instr.wf (.oslLine 0 { vc := 16, dataType := 0x20, line := 0, payload := [0], trailer := 0, errored := false, complete := true }) = false ∧
    Instr.wf (.oslEmbedded 0 { vc := 0, dataType := 256, line := 0, payload := [0], trailer := 0, errored := false, complete := true }) = false ∧
    Instr.wf (.oslUser 0 { vc := 0, dataType := 0x40, line := 32768, payload := [0], trailer := 0, errored := false, complete := true }) = false ∧
    Instr.wf (.oslLine 0 { vc := 0, dataType := 0x20, line := 0, payload := [], trailer := 0, errored := false, complete := true }) = false ∧
    Instr.wf (.badHead 56 none) = false ∧
    Instr.wf (.shroudTrain 0 { noAck := none, lanes := [], upTo := 7, micros := 0 }) = false := by
  decide

theorem test_wf_numbers : Instr.wf (.telemetryStale 0 0 4) = false ∧ Instr.wf (.jobStart 256) = false ∧
    Instr.wf (.jobRetire 4096) = false ∧ Instr.wf (.headTimeout 32) = false ∧ Instr.wf (.frameTimeout 64) = false ∧
    Instr.wf (.completionPost 16) = false ∧ Instr.wf (.msixMessageSend 256) = false ∧ Instr.wf (.openSlotTimeout 64) = false ∧
    Instr.wf (.refresh 128) = false ∧ Instr.wf (.stackUnread 4) = false ∧
    Instr.wf (.remoteChannelRead 12 { fault := false, value := 0 }) = false ∧
    Instr.wf (.railMonitorRead 24 0) = false ∧ Instr.wf (.powerRampTimeout 15) = false ∧ Instr.wf (.timeMatch 4) = false ∧
    Instr.wf (.announceReceiptTimeout 5) = false ∧ Instr.wf (.recoveryTimeout 28) = false ∧ Instr.wf (.ethSignalLoss 8) = false ∧
    Instr.wf (.pcieRecoveryEntry 29) = false ∧ Instr.wf (.lut3dLoaded 16) = false ∧ Instr.wf (.flxLinkErrors 8 0 0 0) = false ∧
    Instr.wf (.sramParityError 256 0) = false ∧ Instr.wf (.lockstepMismatch 2) = false := by decide

/-! ## States to try commands on -/

/-- A device in service: supplies up, boot code 0xF0, the link up, session 0 open and primary with slot 0 granted to it. -/
def service : State :=
  let s := State.reset
  let s := { s with power := { s.power with condition := .running, pwrok := true, perstN := true, bootCode := 0xF0, pllLocked := true,
                                            railsUp := true, xtalQualified := true, watchdogOn := true, bootsel := 4 } }
  let s := { s with ep := { s.ep with st := 6, msixEn := true, bme := true, mse := true } }
  let s := s.updSession 0 fun x => { x with isOpen := true, primary := true }
  s.updSlot 0 fun x => { x with owner := some 0 }

/-- A command rung in a mailbox of a state, with sequence number 0: opcode, session ID, context ID and payload. -/
def rings (b : Mbox) (s : State) (op sess ctx : Nat) (p : List Byte) : State :=
  let s := s.setBox b .rung
  let m := le 2 op ++ le 2 0 ++ le 4 sess ++ le 4 0 ++ le 4 p.length ++ le 4 0 ++ le 4 ctx ++ zeros 8 ++ p
  s.updNcp fun n => { n with mem := n.mem.writeN b.base m }

/-- The same for no context, with a payload of n bytes that memory holds already. -/
def ringsOver (b : Mbox) (s : State) (op sess n : Nat) : State :=
  let s := s.setBox b .rung
  s.updNcp fun x => { x with mem := x.mem.writeN b.base (le 2 op ++ le 2 0 ++ le 4 sess ++ le 4 0 ++ le 4 n ++ le 4 0 ++ le 4 0xFFFFFFFF ++ zeros 8) }

/-- A command of session 0 in slot 0, for no context or for one. -/
def sends (s : State) (op : Nat) (p : List Byte) : State := rings (.slot 0) s op 0 0xFFFFFFFF p
def sendsCtx (s : State) (op ctx : Nat) (p : List Byte) : State := rings (.slot 0) s op 0 ctx p

/-- A command of management mailbox 0. -/
def manages (s : State) (op : Nat) (p : List Byte) : State := rings (.mgmt 0) s op 0xF0 0xFFFFFFFF p

/-- The checks that all commands share, as one test. -/
def acceptedB (s : State) (b : Mbox) (f : Form) : Bool :=
  s.boxSt b == .rung && (s.cmdIn b).opcode == f.op && s.served b && !s.firstWaits (s.cmdIn b) && s.isNext b &&
  (s.expectedSeq (s.cmdIn b) == none || s.expectedSeq (s.cmdIn b) == some (s.cmdIn b).seq) &&
  (s.taken b).mayCome (s.cmdIn b) f && decide (f.lo ≤ (s.cmdIn b).len) && decide ((s.cmdIn b).len ≤ f.hi) &&
  decide ((s.cmdIn b).len ≤ b.limit) && f.lens.fault (s.cmdIn b).payload (s.cmdIn b).len == none && (s.cmdIn b).headerFault (s.boxBytes b 0 32) f == none &&
  (!f.target || (s.cmdIn b).target == 0)

theorem accepted_of {s : State} {b : Mbox} {f : Form} (h : acceptedB s b f = true) : Accepted s b f := by
  simp only [acceptedB, Bool.and_eq_true, Bool.or_eq_true, Bool.not_eq_true', beq_iff_eq, decide_eq_true_eq] at h
  obtain ⟨⟨⟨⟨⟨⟨⟨⟨⟨⟨⟨⟨h1, h2⟩, h3⟩, h4⟩, hn⟩, h5⟩, h6⟩, h7⟩, h8⟩, h9⟩, he⟩, h10⟩, h11⟩ := h
  exact ⟨h1, h2, h3, h4, hn, h5, h6, h7, h8, h9, he, h10, fun ht => by simp_all⟩

/-- Some accepted command of a form has what a clause asks of the state as the firmware has it, and of the command. -/
def Meets (f : Form) (P : State → Cmd → Prop) : Prop :=
  ∃ (b : Mbox) (s : State), Accepted s b f ∧ P (s.taken b) (s.cmdIn b)

theorem meets (s : State) (b : Mbox) {f : Form} {P : State → Cmd → Prop} (h : acceptedB s b f = true)
    (hp : P (s.taken b) (s.cmdIn b)) : Meets f P := ⟨b, s, accepted_of h, hp⟩

/-- A board with which the power-up sequence runs through. -/
def board : BootEnv :=
  { discharged := true, crystal := true, pmbusAck := List.replicate 9 true, railsRise := true, pllsLock := true, comparators := 0,
    flash := [], stackFail := [], sppr := [], pchans := [] }

def cool : CoolFacts := { dwellMet := true, peak := 0, coolingMs := 10000 }

/-! ## Hypotheses that hold somewhere: the block, its supplies and resets -/

theorem meets_EmptyQueueStepIsOneCycle :
    (∃ s : State, s.pending = [] ∧ s.power.vddAon = false) ∧
    (∃ s : State, s.pending = [] ∧ s.power.vddAon = true ∧ s.power.pllLocked = true) :=
  ⟨⟨{ State.reset with power := { Power.reset with vddAon := false } }, by decide +kernel⟩, ⟨service, by decide +kernel⟩⟩

theorem meets_CommandsLeaveTheQueue : ∃ (c : Instr) (s t : State), exec c s = .next t := ⟨.timingRetune, State.reset, _, rfl⟩

theorem meets_MailCommandsLeaveTheDevice : ∃ (c : Instr) (s t : State), mailOnly c = true ∧ exec c s = .next t :=
  ⟨.openSlotTimeout 60, State.reset, _, rfl, rfl⟩

theorem meets_CommandsKeepWhatTheyDoNotName : ∃ (c : Instr) (s t : State), exec c s = .next t ∧ actsOnCapture c = false ∧
    actsOnPower c = false ∧ actsOnTime c = false ∧ actsOnHealth c = false :=
  ⟨.openSlotTimeout 60, State.reset, _, rfl, rfl, rfl, rfl, rfl⟩

theorem meets_StepKeepsInvariant : ∃ s t : State, s.Inv ∧ step s = .next t := ⟨service, _, by unfold State.Inv; decide +kernel, rfl⟩

theorem meets_SuppliesAndPwrokFall :
    (∃ s : State, s.power.vddAon = false) ∧
    (∃ s : State, s.power.vddAon = true ∧ s.power.condition ≠ .furled) ∧
    (∃ s : State, s.power.vddio = true ∧ s.power.condition ≠ .furled) ∧
    (∃ s : State, s.power.pwrok = true ∧ s.power.condition ≠ .furled) :=
  ⟨⟨{ State.reset with power := { Power.reset with vddAon := false } }, by decide +kernel⟩, ⟨service, by decide +kernel⟩,
    ⟨service, by decide +kernel⟩, ⟨service, by decide +kernel⟩⟩

theorem meets_ColdBootSamplesStraps : ∃ (env : BootEnv) (s : State), s.power.vddAon = true ∧ s.power.pwrok = false ∧
    s.power.condition ≠ .furled ∧ s.power.sysResetN = true ∧ s.power.crystalRuns = true ∧ env.good = true :=
  ⟨board, State.reset, by decide +kernel⟩

theorem meets_BootGoesOnOrStops :
    (∃ (env : BootEnv) (s : State), s.power.condition = .reset ∧ s.power.pwrok = true ∧ s.power.crystalRuns = true ∧
      s.power.bootsel = 4 ∧ env.good = true ∧ env.discharged = true) ∧
    (∃ s : State, s.power.bootStage = .waitDischarge ∧ s.power.condition = .running ∧ s.power.crystalRuns = true ∧
      s.power.bootsel = 4 ∧ s.power.env.good = true) ∧
    (∃ s : State, s.power.bootStage = .waitXtal ∧ s.power.condition = .running ∧ s.power.bootsel = 4 ∧
      ({ s.power.env with crystal := true } : BootEnv).good = true) ∧
    (∃ s : State, s.power.bootStage = .waitRails) ∧ (∃ s : State, s.power.bootStage = .waitPll) :=
  ⟨⟨board, { service with power := { service.power with condition := .reset } }, by decide +kernel⟩,
    ⟨{ service with power := { service.power with bootStage := .waitDischarge, env := board } }, by decide +kernel⟩,
    ⟨{ service with power := { service.power with bootStage := .waitXtal, env := board } }, by decide +kernel⟩,
    ⟨{ service with power := { service.power with bootStage := .waitRails } }, rfl⟩,
    ⟨{ service with power := { service.power with bootStage := .waitPll } }, rfl⟩⟩

theorem meets_WarmResetsKeepAndLose :
    (∃ s : State, s.power.condition = .running ∧ s.power.pwrok = true ∧ s.power.sysResetN = true ∧ s.power.watchdogOn = true ∧
      s.power.xtalQualified = true ∧ s.power.bootsel.toNat ≤ 4) ∧
    (∃ env : BootEnv, env.comparators = 0 ∧ env.discharged = false) ∧
    (∃ s : State, s.power.condition = .running ∧ s.power.warmPending = some (0x11, 0) ∧ s.resetAnswered = true) :=
  ⟨⟨service, by decide +kernel⟩, ⟨{ board with discharged := false }, by decide⟩,
    ⟨{ service with power := { service.power with warmPending := some (0x11, 0) } }, by decide +kernel⟩⟩

theorem meets_LinkResetsKeepTheDevice :
    (∃ s : State, s.power.condition = .running ∧ s.power.perstN = true ∧ s.epUp = true) ∧
    (∃ s : State, s.power.perstN = false ∧ s.power.condition = .running ∧ s.power.pllLocked = true ∧ s.nimlek = true) :=
  ⟨⟨service, by decide +kernel⟩, ⟨{ service with power := { service.power with perstN := false } }, by decide +kernel⟩⟩

/-- A device FURLED, with THERMTRIP_N released again. -/
def furled (latched : Bool) : State :=
  { service with power := { service.power with condition := .furled }, health := { service.health with latched := latched } }

theorem meets_FurlBeginsAndEnds :
    (∃ (cause source : Nat) (s : State), s.power.condition = .running ∧ s.furlTest cause source = true) ∧
    (∃ (cool : CoolFacts) (s : State), s.power.condition = .furled ∧ s.power.thermtripLow = false ∧ cool.dwellMet = true ∧
      s.health.latched = false) ∧
    (∃ (cool : CoolFacts) (s : State), s.power.condition = .furled ∧ s.power.thermtripLow = false ∧ cool.dwellMet = true ∧
      s.health.latched = true) :=
  ⟨⟨1, 3, service, by decide +kernel⟩, ⟨cool, furled false, by decide +kernel⟩, ⟨cool, furled true, by decide +kernel⟩⟩

/-! ## Registers, mailboxes, sessions -/

theorem meets_HostAccessesActOnRegisters :
    (∃ s : State, s.hostReaches = true) ∧ isPairLow 0x800008 = true ∧ isPairLow 0x501FF8 = true ∧
    (isPairLow 0x20 = false ∧ secLoBase 0x20 = none ∧ 3 + 1 ≤ 4) ∧
    (∃ s : State, s.hostReaches = true ∧ (s.slot 63).st = .idle) ∧ (∃ s : State, s.hostReaches = true ∧ (s.slot 0).st ≠ .idle) :=
  ⟨⟨service, by decide +kernel⟩, by decide, by decide, by decide, ⟨service, by decide +kernel⟩,
    ⟨service.updSlot 0 fun x => { x with st := .held }, by decide +kernel⟩⟩

theorem meets_DoorbellsRingOrReject :
    (∃ s : State, s.hostReaches = true ∧ s.ringReason 0 = 0) ∧ (∃ s : State, s.hostReaches = true ∧ s.ringReason 63 = 4) ∧
    (∃ s : State, s.power.condition = .running ∧ s.fwReady = false) ∧
    (∃ s : State, s.power.condition = .running ∧ s.fwReady = true ∧ (s.slot 59).st = .rung) ∧
    (∃ s : State, s.power.condition = .running ∧ s.fwReady = true ∧ (s.slot 59).st = .idle ∧ (s.slot 59).owner = none ∧
      (s.slot 59).closing = false) ∧
    (∃ s : State, s.power.condition = .running ∧ s.fwReady = true ∧ (s.slot 59).st = .idle ∧ (s.slot 59).owner = none ∧
      (s.slot 59).closing = true) ∧
    (∃ s : State, s.fwReady = true ∧ (s.slot 0).st = .idle ∧ (s.slot 0).owner = some 0 ∧
      fld (s.boxBytes (.slot 0) 0 32) 4 1 ≠ 0) ∧
    (∃ s : State, s.fwReady = true ∧ (s.slot 0).st = .idle ∧ (s.slot 0).owner = some 0 ∧
      fld (s.boxBytes (.slot 0) 0 32) 4 1 = 0 ∧ (s.slot 0).closing = false ∧ (s.session 0).closing = false ∧ (s.session 0).isOpen = true) ∧
    (∃ s : State, s.fwReady = true ∧ (s.slot 0).st = .idle ∧ (s.slot 0).owner = some 0 ∧
      fld (s.boxBytes (.slot 0) 0 32) 4 1 = 0 ∧ (s.session 0).closing = true) ∧
    (∃ s : State, s.power.condition = .running ∧ s.fwReady = true ∧ (s.slot 60).st = .idle ∧ fld (s.boxBytes (.slot 60) 0 32) 4 1 = 0xFF) :=
  ⟨⟨service, by decide +kernel⟩, ⟨service, by decide +kernel⟩, ⟨{ service with power := { service.power with bootCode := 0 } }, by decide +kernel⟩,
    ⟨service.updSlot 59 fun x => { x with st := .rung }, by decide +kernel⟩, ⟨service, by decide +kernel⟩,
    ⟨service.updSlot 59 fun x => { x with closing := true }, by decide +kernel⟩,
    ⟨service.updNcp fun n => { n with mem := n.mem.writeN 0x100004 [1] }, by decide +kernel⟩, ⟨service, by decide +kernel⟩,
    ⟨service.updSession 0 fun x => { x with closing := true }, by decide +kernel⟩,
    ⟨service.updNcp fun n => { n with mem := n.mem.writeN 0x1F0004 [0xFF] }, by decide +kernel⟩⟩

theorem meets_ReleasesAndSideBand :
    (∃ s : State, s.hostReaches = true ∧ s.power.condition = .running ∧ (s.slot 60).st = .held ∧ (s.slot 60).heldSince + 1000000000 ≤ s.now) ∧
    (∃ s : State, s.now < (s.slot 60).heldSince + 1000000000) ∧
    (∃ s : State, s.served (.mgmt 1) = true ∧ (s.mg 1).st = .idle) ∧
    (∃ mosi : List Byte, 4 ≤ mosi.length ∧ fld mosi 0 1 / 64 ≠ service.power.mgmtAddr.toNat) :=
  ⟨⟨(service.updSlot 60 fun x => { x with st := .held }).updTime fun t => { t with tbm := 4294967296 * 1000000000 }, by decide +kernel⟩,
    ⟨service.updSlot 60 fun x => { x with st := .held }, by decide +kernel⟩, ⟨service, by decide +kernel⟩, ⟨[0x41, 0, 0, 0], by decide +kernel⟩⟩

theorem meets_VectorsSendOrPend :
    (∃ s : State, s.ep.msixEn = true ∧ s.ep.d3 = false ∧ s.ep.fnMask = false ∧ 255 < s.vecs.length ∧ s.hostReaches = true ∧
      (s.vec 255).masked = false ∧ (s.vec 255).owed = true ∧ s.mayRaise (s.vec 255).lastSent 2000 = true) ∧
    (∃ s : State, s.ep.msixEn = true ∧ s.ep.d3 = false ∧ s.ep.fnMask = false ∧ 21 < s.vecs.length ∧
      (s.vec 21).pendingBit = true) ∧
    (∃ s : State, s.ep.msixEn = true ∧ s.ep.d3 = false ∧ s.ep.fnMask = true ∧ (s.vec 0).owed = false ∧ s.hostReaches = false) :=
  ⟨⟨{ service with vecs := upd service.vecs 255 fun x => { x with owed := true, masked := false } }, by decide +kernel⟩,
    ⟨{ service with vecs := upd service.vecs 21 fun x => { x with pendingBit := true } }, by decide +kernel⟩,
    ⟨{ service with ep := { service.ep with st := 2, fnMask := true } }, by decide +kernel⟩⟩

/-- A command of session 0 that a completion is posted for. -/
def aCmd (op : Nat) : Cmd :=
  { box := .slot 0, opcode := op, flags := 0, session := 0, seq := 0, len := 0, target := 0, ctx := 0xFFFFFFFF, cookie := zeros 8,
    payload := [] }

def aWait (final : Bool) : WaitCpl :=
  { cmd := aCmd 0x0104, orphan := false, status := 0, result := [], response := some [1], final := final, first := true }

theorem meets_CompletionRecords :
    (∃ (w : WaitCpl) (s : State), w.cmd.box = .slot 0 ∧ w.orphan = false ∧ w.cmd.session = 0 ∧ w.cmd.cookie.length = 8 ∧
      s.ncp.sessions.length = 16 ∧ s.ncp.slots.length = 64 ∧ s.ncp.mem.wf = true ∧ (s.session 0).prod = 1023 ∧ w.response = some [1]) ∧
    (∃ (w : WaitCpl) (s : State), s.ncp.waiting.find? (fun x => x.ring == some 0) = some w ∧ s.cqFull 0 = false ∧
      w.cmd.opcode ≠ 0x0102) :=
  ⟨⟨aWait true, service.updSession 0 fun x => { x with prod := 1023 }, by decide +kernel⟩,
    ⟨aWait true, service.updNcp fun n => { n with waiting := [aWait true] }, by decide +kernel⟩⟩

theorem meets_EventRingRecord :
    (∃ (code : Nat) (s : State), s.ncp.eqProd < 16384 ∧ s.ncp.mem.wf = true ∧ s.suppressed code = true) ∧
    (∃ (code : Nat) (s : State), s.ncp.eqProd = 16383 ∧ s.ncp.mem.wf = true ∧ s.suppressed code = false ∧ s.ncp.eqLostSince = 0 ∧ s.eqFull = false) ∧
    (∃ (code : Nat) (s : State), s.ncp.eqProd < 16384 ∧ s.ncp.mem.wf = true ∧ s.suppressed code = false ∧ s.eqFull = true) :=
  ⟨⟨0x0201, service.updNcp fun n => { n with eventMask := 4 }, by decide +kernel⟩,
    ⟨0x0201, service.updNcp fun n => { n with eqProd := 16383, eqCons := 5 }, by decide +kernel⟩,
    ⟨0x0201, service.updNcp fun n => { n with eqCons := 1 }, by decide +kernel⟩⟩

theorem meets_SharedChecksInOrder :
    (∃ (f : Form) (s : State), s.boxSt (.slot 0) = .rung ∧ (s.cmdIn (.slot 0)).opcode = f.op ∧ s.served (.slot 0) = true ∧
      s.firstWaits (s.cmdIn (.slot 0)) = false ∧ s.isNext (.slot 0) = true ∧ s.expectedSeq (s.cmdIn (.slot 0)) = some 1 ∧ (s.cmdIn (.slot 0)).seq ≠ 1) ∧
    (∃ (f : Form) (s : State), s.boxSt (.slot 0) = .rung ∧ (s.cmdIn (.slot 0)).opcode = f.op ∧ s.served (.slot 0) = true ∧
      s.firstWaits (s.cmdIn (.slot 0)) = false ∧ s.isNext (.slot 0) = true ∧ s.expectedSeq (s.cmdIn (.slot 0)) = some (s.cmdIn (.slot 0)).seq ∧
      (s.taken (.slot 0)).mayCome (s.cmdIn (.slot 0)) f = false) ∧
    (∃ (f : Form) (s : State), (s.cmdIn (.slot 0)).opcode = f.op ∧ (s.taken (.slot 0)).mayCome (s.cmdIn (.slot 0)) f = true ∧
      (s.cmdIn (.slot 0)).len < f.lo) ∧
    (∃ (f : Form) (s : State), (s.cmdIn (.slot 0)).opcode = f.op ∧ (s.taken (.slot 0)).mayCome (s.cmdIn (.slot 0)) f = true ∧
      f.lo ≤ (s.cmdIn (.slot 0)).len ∧ (s.cmdIn (.slot 0)).len ≤ f.hi ∧
      f.lens.fault (s.cmdIn (.slot 0)).payload (s.cmdIn (.slot 0)).len = none ∧
      (s.cmdIn (.slot 0)).headerFault (s.boxBytes (.slot 0) 0 32) f = some 20) ∧
    (∃ (f : Form) (s : State), (s.cmdIn (.slot 0)).opcode = f.op ∧ (s.taken (.slot 0)).mayCome (s.cmdIn (.slot 0)) f = true ∧
      f.lo ≤ (s.cmdIn (.slot 0)).len ∧ (s.cmdIn (.slot 0)).len ≤ f.hi ∧
      f.lens.fault (s.cmdIn (.slot 0)).payload (s.cmdIn (.slot 0)).len = some 32) ∧
    (∃ (f : Form) (s : State), (s.cmdIn (.slot 0)).headerFault (s.boxBytes (.slot 0) 0 32) f = none ∧ f.target = true ∧
      (s.cmdIn (.slot 0)).target ≠ 0 ∧ (s.cmdIn (.slot 0)).target ≠ (s.taken (.slot 0)).liveNumber) :=
  ⟨⟨formSessionHeartbeat, (sends service 0x0103 []).updSession 0 fun x => { x with expected := 1 }, by decide +kernel⟩,
    ⟨formTrsOwnerEnrol, sends service 0x0703 [], by decide +kernel⟩,
    ⟨formTrsCert, sends service 0x0702 [], by decide +kernel⟩,
    ⟨formTrsCert, sendsCtx service 0x0702 0 (zeros 4), by decide +kernel⟩,
    ⟨formRecGrant, sends service 0x0503 ([0, 0, 1, 0] ++ zeros 52), by decide +kernel⟩,
    ⟨formTrsCert, (sends service 0x0702 (zeros 4)).updNcp fun n => { n with mem := n.mem.writeN 0x100010 [9] }, by decide +kernel⟩⟩

theorem meets_SessionsOpen :
    Meets formSessionOpen (fun t c => fld c.payload 0 1 = 15 ∧ (t.session 15).isOpen = false ∧ fld c.payload 1 1 ≤ 1 ∧
      fld c.payload 2 1 = 60 ∧ fld c.payload 4 4 = 60000 ∧ fld c.payload 12 2 / 256 = 3 ∧ fld c.payload 12 2 % 256 ≤ 2 ∧
      t.freeSlots ≠ []) ∧
    (∃ s : State, s.ncp.sessions.length = 16 ∧ s.ncp.slots.length = 64 ∧ (s.slot 1).user ≠ some 1) :=
  ⟨meets (rings (.slot 60) service 0x0101 0xFF 0xFFFFFFFF ([15, 0, 60, 0] ++ le 4 60000 ++ le 4 0 ++ le 2 0x0300 ++ le 2 0)) (.slot 60)
    (by decide +kernel) (by decide +kernel), ⟨service, by decide +kernel⟩⟩

theorem meets_SessionsClose :
    (∃ (b : Mbox) (s : State), Accepted s b formSessionClose ∧ s.ncp.waiting = [] ∧ s.cqFull (s.cmdIn b).session = false ∧
      (s.taken b).orphaned (s.cmdIn b) = false) ∧
    (∃ s : State, (s.session 0).isOpen = true ∧ 2 * (s.session 0).heartbeat * 1000000 + (s.session 0).lastTaken ≤ s.now) ∧
    (∃ s : State, (s.session 0).isOpen = true ∧ s.now < 2 * (s.session 0).heartbeat * 1000000 + (s.session 0).lastTaken) ∧
    (∃ s : State, (s.slot 0).owner = some 0 ∧ (s.slot 0).st = .held) ∧ (∃ s : State, (s.slot 1).owner ≠ some 0 ∧ s.ncp.waiting = []) :=
  ⟨⟨.slot 0, sends service 0x0102 [], accepted_of (by decide +kernel), by decide +kernel⟩,
    ⟨service.updSession 0 fun x => { x with heartbeat := 0 }, by decide +kernel⟩,
    ⟨service.updSession 0 fun x => { x with heartbeat := 1 }, by decide +kernel⟩,
    ⟨service.updSlot 0 fun x => { x with st := .held }, by decide +kernel⟩, ⟨service, by decide +kernel⟩⟩

/-- Some accepted command of a form comes. -/
def Comes (f : Form) : Prop := ∃ (b : Mbox) (s : State), Accepted s b f

theorem comes (s : State) (b : Mbox) {f : Form} (h : acceptedB s b f = true) : Comes f := ⟨b, s, accepted_of h⟩

/-- A generation LIVE and in force. -/
def runs (bs : List Block) (s : State) : State :=
  s.updCfg fun c => { c with live := some { number := 1, blocks := bs, incomplete := [] }, inForce := bs }

def block (type target : Nat) (payload : List Byte) : Block :=
  { type := type, version := 1, target := target, flags := 0, payload := payload }

def emptyGen : Gen := { number := 2, blocks := [], incomplete := [] }

theorem meets_SessionAndDeviceCommands :
    Comes formSessionHeartbeat ∧ Comes formDevInfo ∧ Comes formSessionOrphans ∧
    Meets formEventMask (fun t c => fld c.payload 0 4 = 0x7FFC ∧ fld c.payload 0 4 &&& 0xFFFF8003 = 0 ∧ t.fromPrimary c = true) ∧
    Meets formPrimaryClaim (fun t c => t.ncp.sessions.any (·.primary) = false ∧ t.orphaned c = false) ∧
    Meets formPrimaryClaim (fun t _ => t.ncp.sessions.any (·.primary) = true) ∧
    Meets formDevReset (fun _ c => c.box.isMgmt = true ∧ fld c.payload 0 4 = 0x5741524D) ∧
    Meets formDevReset (fun t c => bit t.policyFlags 1 = false ∧ fld c.payload 0 4 ≠ 0x5741524D) ∧
    Meets formDevReset (fun t c => c.box.isMgmt = false ∧ bit t.policyFlags 1 = true) ∧
    Meets formTrsFwActivate (fun t c => fld c.payload 0 4 = 0 ∧ t.unconfirmed = false ∧ (t.nv.slot t.otherSlot).whole = true) ∧
    Meets formTrsFwActivate (fun t c => fld c.payload 0 4 = 1 ∧ bit t.policyFlags 1 = false ∧ t.unconfirmed = false ∧
      (t.nv.slot t.otherSlot).whole = true) := by
  let whole (s : State) : State := s.updTrust fun t => { t with runningSlot := 1 }
  refine ⟨comes (sends service 0x0103 []) (.slot 0) (by decide +kernel), comes (sends service 0x0104 []) (.slot 0) (by decide +kernel),
    comes (sends service 0x0106 []) (.slot 0) (by decide +kernel),
    meets (sends service 0x0107 (le 4 0x7FFC)) (.slot 0) (by decide +kernel) (by decide +kernel),
    meets ((sends service 0x0108 []).updSession 0 fun x => { x with primary := false }) (.slot 0) (by decide +kernel) (by decide +kernel),
    meets (sends service 0x0108 []) (.slot 0) (by decide +kernel) (by decide +kernel),
    meets (manages service 0x0105 (le 4 0x5741524D)) (.mgmt 0) (by decide +kernel) (by decide +kernel),
    meets (sends service 0x0105 (le 4 0)) (.slot 0) (by decide +kernel) (by decide +kernel),
    meets (sends (runs [block 0x0B01 0xFFFF (zeros 16 ++ le 4 2)] service) 0x0105 (le 4 0)) (.slot 0) (by decide +kernel) (by decide +kernel),
    meets (whole (sends service 0x0707 (le 4 0))) (.slot 0) (by decide +kernel) (by decide +kernel),
    meets (whole (sends service 0x0707 (le 4 1))) (.slot 0) (by decide +kernel) (by decide +kernel)⟩

/-- A device that waits for an image on its management mailboxes. -/
def awaiting (i : Option ImageIn) : State :=
  { service with power := { service.power with bootCode := 0x40, bootStage := .waitFirstStage }, ncp := { service.ncp with imageIn := i } }

theorem meets_ImageDelivery :
    Meets formMgmtImageBegin (fun t c => t.awaitsImage = true ∧ fld c.payload 0 4 = 1 ∧ fld c.payload 4 4 = imageLimit 1) ∧
    Meets formMgmtImageData (fun t c => t.awaitsImage = true ∧ t.ncp.imageIn = some ⟨0, 2, [1]⟩ ∧ fld c.payload 0 4 = 1 ∧
      1 + (c.payload.drop 8).length ≤ 2) ∧
    Meets formMgmtImageEnd (fun t _ => t.awaitsImage = true ∧ t.ncp.imageIn = some ⟨0, 1, [1]⟩) ∧
    (∃ (i : ImageIn) (t : State), t.awaitsImage = true ∧ t.power.bootStage = .waitFirstStage ∧ i.kind = 0 ∧ i.data.length = i.total) :=
  ⟨meets (manages (awaiting none) 0x0110 (le 4 1 ++ le 4 16777216)) (.mgmt 0) (by decide +kernel) (by decide +kernel),
    meets (manages (awaiting (some ⟨0, 2, [1]⟩)) 0x0111 (le 4 1 ++ le 4 0 ++ [7])) (.mgmt 0) (by decide +kernel) (by decide +kernel),
    meets (manages (awaiting (some ⟨0, 1, [1]⟩)) 0x0112 []) (.mgmt 0) (by decide +kernel) (by decide +kernel),
    ⟨⟨0, 1, [1]⟩, awaiting none, by decide +kernel⟩⟩

/-! ## Configuration, energy and jobs -/

def stages (g : Option Gen) (s : State) : State := s.updCfg fun c => { c with staged := g }

theorem meets_StagingAGeneration :
    Meets formCfgStageBegin (fun t c => t.cfg.staged = none ∧ t.cfg.armed = none ∧ fld c.payload 0 4 = 0) ∧
    Meets formCfgStageBegin (fun t c => t.cfg.staged = none ∧ t.cfg.armed = none ∧ fld c.payload 0 4 = 1 ∧
      t.cfg.live = some { number := 1, blocks := [], incomplete := [] }) ∧
    Meets formCfgStageBlock (fun t c => t.cfg.staged = some emptyGen ∧ c.target = 0 ∧
      headerBreaks (stagedHeader c.payload).1 (stagedHeader c.payload).2 = none ∧ (stagedHeader c.payload).1.flags = 0 ∧
      ∃ g, stageChunk emptyGen (stagedHeader c.payload).1 (stagedHeader c.payload).2 (fld c.payload 0 4) (c.payload.drop 24) = .inl g ∧
        chunkBreaks (stagedHeader c.payload).1.type (emptyGen.assembled (stagedHeader c.payload).1 (fld c.payload 0 4) (c.payload.drop 24))
          (stagedHeader c.payload).2 (fld c.payload 0 4) = none ∧
        g.blocks.length + g.incomplete.length ≤ 4096 ∧ g.fullLength ≤ 67108864) ∧
    Meets formCfgStageBlock (fun t c => t.cfg.staged = some emptyGen ∧ c.target ≠ 0 ∧ c.target ≠ emptyGen.number) ∧
    Meets formCfgStageDiscard (fun t _ => t.cfg.staged.isSome = true) ∧
    Meets formCfgStageDiscard (fun t _ => t.cfg.staged = none) :=
  ⟨meets (sends service 0x0201 (zeros 8)) (.slot 0) (by decide +kernel) (by decide +kernel),
    meets (sends (runs [] service) 0x0201 (le 4 1 ++ zeros 4)) (.slot 0) (by decide +kernel) (by decide +kernel),
    meets (sends (stages (some emptyGen) service) 0x0202 (zeros 8 ++ le 2 0x0801 ++ le 2 1 ++ le 2 0xFFFF ++ le 2 0 ++ le 4 8 ++ zeros 4 ++ zeros 8))
      (.slot 0) (by decide +kernel) ⟨by decide +kernel, by decide +kernel, by decide +kernel, by decide +kernel, _, rfl, by decide +kernel,
        by decide +kernel, by decide +kernel⟩,
    meets ((sends (stages (some emptyGen) service) 0x0202 (zeros 8 ++ le 2 0x0801 ++ le 2 1 ++ le 2 0xFFFF ++ le 2 0 ++ le 4 8 ++ zeros 4 ++ zeros 8)).updNcp
      fun n => { n with mem := n.mem.writeN 0x100010 [9] }) (.slot 0) (by decide +kernel) (by decide +kernel),
    meets (sends (stages (some emptyGen) service) 0x0203 []) (.slot 0) (by decide +kernel) (by decide +kernel),
    meets (sends service 0x0203 []) (.slot 0) (by decide +kernel) (by decide +kernel)⟩

/-- A device whose four stacks are trained. -/
def trained (s : State) : State :=
  s.updMem fun m => { m with hbm := m.hbm.map (fun k => { k with st := 2 }), pchans := m.pchans.map (fun p => { p with ready := true }) }

theorem meets_ValidatingAndReadingGenerations :
    Meets formCfgValidate (fun t c => t.cfg.staged = some emptyGen ∧ (t.accept c 0 []).validate emptyGen false = none) ∧
    Meets formCfgValidate (fun t c => t.cfg.staged = some { emptyGen with blocks := [block 0x0801 3 []] } ∧
      ∃ f, (t.accept c 0 []).validate { emptyGen with blocks := [block 0x0801 3 []] } false = some f) ∧
    Comes formCfgStatus ∧
    Meets formCfgReadBlock (fun t c => t.genByNumber (fld c.payload 0 4) = some { emptyGen with blocks := [block 0x0801 0xFFFF (zeros 8)] } ∧
      blockIn [block 0x0801 0xFFFF (zeros 8)] (fld c.payload 4 2) (fld c.payload 6 2) = some (block 0x0801 0xFFFF (zeros 8)) ∧
      fld c.payload 12 4 = 8) :=
  ⟨meets (sends (stages (some emptyGen) (trained service)) 0x0204 []) (.slot 0) (by decide +kernel) (by decide +kernel),
    meets (sends (stages (some { emptyGen with blocks := [block 0x0801 3 []] }) (trained service)) 0x0204 []) (.slot 0) (by decide +kernel)
      ⟨by decide +kernel, _, rfl⟩,
    comes (sends service 0x0207 []) (.slot 0) (by decide +kernel),
    meets (sends (stages (some { emptyGen with blocks := [block 0x0801 0xFFFF (zeros 8)] }) service) 0x0208
      (le 4 2 ++ le 2 0x0801 ++ le 2 0xFFFF ++ zeros 4 ++ le 4 8)) (.slot 0) (by decide +kernel) (by decide +kernel)⟩

/-- A generation with a block that cannot be. -/
def wrongGen : Gen := { emptyGen with blocks := [block 0x0801 3 []] }

theorem meets_CommitAndRollbackArm :
    Meets formCfgCommit (fun t c => t.cfg.armed = none ∧ t.cfg.probation = none ∧ t.cfg.staged = some emptyGen ∧
      fld c.payload 0 4 = 1 ∧ fld c.payload 4 4 = 16777215 ∧ fld c.payload 8 4 = 3600000 ∧ fld c.payload 12 4 = 60000 ∧
      (t.accept c 0 []).validate emptyGen true = none) ∧
    Meets formCfgCommit (fun t c => t.cfg.armed = none ∧ t.cfg.probation = none ∧ t.cfg.staged = some wrongGen ∧ fld c.payload 0 4 = 0 ∧
      fld c.payload 4 4 = 0 ∧ fld c.payload 8 4 = 0 ∧ fld c.payload 12 4 = 0 ∧ ∃ f, (t.accept c 0 []).validate wrongGen false = some f) ∧
    Meets formCfgRollback (fun t c => t.cfg.armed = none ∧ t.cfg.previous = some emptyGen ∧ (t.accept c 0 []).validate emptyGen false = none) ∧
    Meets formCfgRollback (fun t c => t.cfg.armed = none ∧ t.cfg.previous = some wrongGen ∧
      ∃ f, (t.accept c 0 []).validate wrongGen false = some f) ∧
    Meets formCfgRollback (fun t _ => t.cfg.armed = none ∧ t.cfg.previous = none) :=
  ⟨meets (sends (stages (some emptyGen) (trained service)) 0x0205 (le 4 1 ++ le 4 16777215 ++ le 4 3600000 ++ le 4 60000)) (.slot 0)
      (by decide +kernel) (by decide +kernel),
    meets (sends (stages (some wrongGen) (trained service)) 0x0205 (zeros 16)) (.slot 0) (by decide +kernel)
      ⟨by decide +kernel, by decide +kernel, by decide +kernel, by decide +kernel, by decide +kernel, by decide +kernel, by decide +kernel, _, rfl⟩,
    meets ((sends (trained service) 0x0206 []).updCfg fun c => { c with previous := some emptyGen }) (.slot 0) (by decide +kernel) (by decide +kernel),
    meets ((sends (trained service) 0x0206 []).updCfg fun c => { c with previous := some wrongGen }) (.slot 0) (by decide +kernel)
      ⟨by decide +kernel, by decide +kernel, _, rfl⟩,
    meets (sends service 0x0206 []) (.slot 0) (by decide +kernel) (by decide +kernel)⟩

/-- 1 s into the time domain. -/
def later (s : State) : State := s.updTime fun t => { t with tbm := 4294967296 * 1000000000 }

theorem meets_GenerationsApplyAndPersist :
    (∃ s : State, s.cfg.armed = some emptyGen ∧ s.cfg.unapplied = [] ∧ s.cfg.armKind = .commit) ∧
    (∃ s : State, s.cfg.arming = some emptyGen ∧ s.waitingGlobals = [0x0801] ∧ s.globalIdle emptyGen 0x0801 = true) ∧
    (∃ (g : Gen) (s : State), s.waitingGlobals = [0x0202] ∧ s.globalIdle g 0x0202 = false) ∧
    (∃ s : State, s.cfg.arming = some emptyGen ∧ s.cfg.armTbm + 1000000 * s.cfg.armTimeoutMs ≤ s.now) ∧
    (∃ s : State, s.now < s.cfg.armTbm + 1000000 * s.cfg.armTimeoutMs) ∧
    (∃ s : State, s.cfg.probation = some ⟨1, 1000, 0, [], []⟩ ∧ s.cfg.armed = none ∧ 0 + 1000000 * 1000 ≤ s.now) ∧
    (∃ s : State, s.cfg.persisting = [emptyGen] ∧ s.nv.newest < 2 ∧ s.nv.persist.length = 2) := by
  let busy : State := (((runs [block 0x0202 0xFFFF (le 4 1 ++ le 4 0 ++ [0, 1, 0, 0x10] ++ zeros 12), block 0x0201 0 (zeros 64), block 0x0203 0 (zeros 32)]
    service).updCtx 0 fun x => { x with st := .running })).updCfg fun c => { c with unapplied := [(0x0202, 0xFFFF)] }
  exact ⟨⟨service.updCfg fun c => { c with armed := some emptyGen }, by decide +kernel⟩,
    ⟨service.updCfg fun c => { c with armed := some emptyGen, unapplied := [(0x0801, 0xFFFF)] }, by decide +kernel⟩,
    ⟨emptyGen, busy, by decide +kernel⟩,
    ⟨(later service).updCfg fun c => { c with armed := some emptyGen, armTimeoutMs := 1000 }, by decide +kernel⟩,
    ⟨service.updCfg fun c => { c with armed := some emptyGen, armTimeoutMs := 1000 }, by decide +kernel⟩,
    ⟨(later service).updCfg fun c => { c with probation := some ⟨1, 1000, 0, [], []⟩ }, by decide +kernel⟩,
    ⟨service.updCfg fun c => { c with persisting := [emptyGen] }, by decide +kernel⟩⟩

theorem meets_EnergyWindows : (∃ s : State, s.nimlek = true) ∧ (∃ s : State, s.considered = []) :=
  ⟨⟨service, by decide +kernel⟩, ⟨service, by decide +kernel⟩⟩

/-- A job. -/
def aJob : Job :=
  { id := 1, kind := .outUnit, st := .pending, cls := 1, ctx := none, frame := 0, gen := 0, unit := 0, object := 0, streams := [], deps := [],
    depsRetired := [], units := [], deadline := none, pendingTbm := 0, pendingWindow := 0, waits := 0, tag := some 0, engine := 0x69,
    startTbm := 0, endTbm := 0, status := 0, outcome := 0, superseded := false, args := [], data := [], counted := false, runTbm := 0 }

def withJob (j : Job) : State := { service with jobs := [j] }

theorem meets_PassConservesEnergy : ∃ (a : Pass) (s : State), a.charges.length = 7 ∧ (∀ j, s.job 1 = some j → j.cls < 7) ∧
    s.job 1 = some aJob ∧ 0 ≤ a.avail ∧ 0 ≤ a.drawLeft :=
  ⟨⟨1, 0, 0, 0, false, false, List.replicate 7 0, []⟩, withJob aJob, rfl, fun j h => by
    have : j = aJob := by simpa [State.job, withJob, aJob] using h.symm
    subst this; decide, by decide +kernel, by decide, by decide⟩

theorem meets_TelemetryAndLedgerCommands :
    (∃ s : State, s.nimlek = true ∧ s.ledger.nextFactors.length = 4 ∧ s.ledger.staleGroups.length = 4 ∧ 0 < s.ledger.chargedGroup.getD 3 0) ∧
    (∃ s : State, s.running = true ∧ s.nimlek = true ∧ s.ledger.telemetryTbm.getD 3 0 + 100000000 ≤ s.now) ∧
    (∃ s : State, s.nimlek = true ∧ s.now < s.ledger.telemetryTbm.getD 3 0 + 100000000) ∧
    Meets formNrgCostRead (fun _ c => fld c.payload 0 1 = 0x10) ∧ Meets formNrgTrace (fun _ c => fld c.payload 0 4 = 1) ∧
    Meets formNrgTrace (fun _ c => fld c.payload 0 4 = 256) ∧ Meets formNrgEstimate (fun t _ => t.cfg.staged = some emptyGen) ∧
    Meets formNrgEstimate (fun t _ => t.cfg.staged = none) :=
  ⟨⟨{ service with ledger := { service.ledger with chargedGroup := [0, 0, 0, 1] } }, by decide +kernel⟩, ⟨later service, by decide +kernel⟩,
    ⟨service, by decide +kernel⟩, meets (sends service 0x0801 (le 4 16)) (.slot 0) (by decide +kernel) (by decide +kernel),
    meets (sends service 0x0802 (le 4 1)) (.slot 0) (by decide +kernel) (by decide +kernel),
    meets (sends service 0x0802 (le 4 256)) (.slot 0) (by decide +kernel) (by decide +kernel),
    meets (sends (stages (some emptyGen) service) 0x0803 []) (.slot 0) (by decide +kernel) (by decide +kernel),
    meets (sends service 0x0803 []) (.slot 0) (by decide +kernel) (by decide +kernel)⟩

theorem meets_JobsRunCompleteAndRetire :
    (∃ s : State, (s.engine 0x69).running = none ∧ (s.engine 0x69).queue = [1] ∧ s.job 1 = some aJob ∧ aJob.kind = .outUnit ∧
      (s.stream aJob.object).type = 3) ∧
    (∀ k, ∃ (j : Job) (s : State), (s.engine 0x69).running = none ∧ (s.engine 0x69).queue = [1] ∧ s.job 1 = some j ∧ j.kind = k) ∧
    (∃ (j : Job) (s : State), s.byTag 0 = some j ∧ j.st = .running ∧ j.kind ≠ .recWrite ∧ j.kind ≠ .selftest) ∧
    (∃ s : State, s.job aJob.id = some aJob ∧ aJob.superseded = false) ∧
    (∃ (j : Job) (s : State), s.byTag 0 = some j ∧ j.st = .complete) :=
  ⟨⟨{ withJob aJob with engines := [{ Engine.reset 0x69 with queue := [1] }], streams := [{ Stream.reset with entry := some ([0, 3] ++ zeros 62) }] }, by decide +kernel⟩,
    fun k => ⟨{ aJob with kind := k }, { withJob { aJob with kind := k } with engines := [{ Engine.reset 0x69 with queue := [1] }] }, rfl, rfl, rfl, rfl⟩,
    ⟨{ aJob with st := .running }, withJob { aJob with st := .running }, by decide +kernel⟩, ⟨withJob aJob, by decide +kernel⟩,
    ⟨{ aJob with st := .complete }, withJob { aJob with st := .complete }, by decide +kernel⟩⟩

/-! ## Lanes, the sensor link and landing -/

/-- The SHROUD_SET entry of shroud 0 on sensor 0, one lane wide on lane 0; the SENSOR_SET entry of sensor 0, port in I3C mode. -/
def shroudEntry : List Byte := [0, 0, 0, 1, 0, 0, 2, 0] ++ le 4 4000 ++ le 2 1 ++ zeros 18
def sensorEntry : List Byte := [0, 1, 0, 0x10] ++ zeros 12

/-- A LINK_CONTEXT on sensor 0, virtual channel 0, data type 0x20 with embedded and user packets; a LANDING_CONTEXT of a mode. -/
def linkBlock : List Byte := [0, 0, 0x20, 3] ++ zeros 60
def landing (mode : Nat) : List Byte := [BitVec.ofNat 8 mode, 0, 1, 0, 8, 0, 0, 0] ++ zeros 24

/-- Context 0 in a mode on shroud 0, which is ACTIVE on one lane. -/
def camera (mode : Nat) : State :=
  let s := runs [block 0x0101 0xFFFF (le 4 1 ++ le 4 0 ++ shroudEntry), block 0x0202 0xFFFF (le 4 1 ++ le 4 0 ++ sensorEntry),
    block 0x0201 0 linkBlock, block 0x0203 0 (landing mode)] service
  let s := s.updShroud 0 fun x =>
    { x with st := .active, entry := some shroudEntry, lanes := upd x.lanes 0 (fun l => { l with logical := some 0, scanning := true }) }
  let s := s.updSensor 0 fun x => { x with entry := some sensorEntry, railsUp := true }
  s.updCtx 0 fun x => { x with st := .running, slotCount := 2, slotSize := 4096 }

/-- Context 0 stopped, so that its sensor captures nothing. -/
def still (s : State) : State := s.updCtx 0 fun x => { x with st := .stopped }

/-- A lane that carries the training word of logical lane 0 of a bond of one shroud, one lane wide. -/
def laneGood : LaneFacts :=
  { signal := true, cdrLock := true, seen := [{ header := 2, bytes := [0x2D, 0, 0, 1, 0, 0] ++ trainPattern, run := 288 }], delay := 0,
    headers := 64, preHeaders := 64, sweep := List.replicate 16 0, eyes := { h := [12, 12, 12], v := [24, 24, 24] }, eqMicros := 2000, ffePre := 0,
    ffePost := 0, dfe := 0 }

def training (found : Bool) (upTo : Nat) : TrainFacts :=
  { noAck := none, lanes := List.replicate 16 { laneGood with signal := found }, upTo := upTo, micros := 5 }

/-- Shroud 0 in QUIET, its training begun. -/
def trainingNow : State := ((camera 0).updShroud 0 fun x => { x with st := .quiet, trainTbm := some 0 }).updSensor 0 fun x => { x with portState := 1 }

theorem meets_ShroudsTrain :
    (∃ (f : TrainFacts) (s : State), s.mayTrain 0 = true ∧ s.trainLate 0 f = false ∧ ((s.shroud 0).train f).fail = none ∧ ((s.shroud 0).train f).sh.st = .active) ∧
    (∃ (f : TrainFacts) (s : State), s.mayTrain 0 = true ∧ s.trainLate 0 f = false ∧ ((s.shroud 0).train f).fail = none ∧ ((s.shroud 0).train f).sh.st = .scramble) ∧
    (∃ (f : TrainFacts) (s : State), s.mayTrain 0 = true ∧ s.trainLate 0 f = false ∧ ((s.shroud 0).train f).fail = some (1, 1)) ∧
    (∃ (f : TrainFacts) (s : State), s.mayTrain 0 = true ∧ s.trainLate 0 f = true) ∧
    (∃ s : State, (s.shroud 0).trainTbm = some 0 ∧ 0 + 1000000 * (s.shroud 0).timeoutMs ≤ s.now) ∧
    (∃ s : State, (s.shroud 0).trainTbm = some 0 ∧ s.now < 0 + 1000000 * (s.shroud 0).timeoutMs) ∧
    (∃ s : State, 0 < s.shrouds.length ∧ (s.shroud 0).st = .relock ∧ (s.shroud 0).relockTbm.head? = some 0 ∧ 0 + 10000000 ≤ s.now) ∧
    (∃ s : State, 0 < s.shrouds.length ∧ (s.shroud 0).st = .relock ∧ (s.shroud 0).relockTbm.head? = some 0 ∧ s.now < 0 + 10000000) ∧
    (∃ s : State, 0 < s.shrouds.length ∧ (s.shroud 0).entry.isSome = true) := by
  let lost : State := (camera 0).updShroud 0 fun x => { x with st := .relock, relockTbm := [0] }
  exact ⟨⟨training true 7, trainingNow, by decide +kernel⟩, ⟨training true 4, trainingNow, by decide +kernel⟩,
    ⟨training false 7, trainingNow, by decide +kernel⟩, ⟨training true 7, later trainingNow, by decide +kernel⟩, ⟨later trainingNow, by decide +kernel⟩, ⟨trainingNow, by decide +kernel⟩,
    ⟨later lost, by decide +kernel⟩, ⟨lost, by decide +kernel⟩, ⟨camera 0, by decide +kernel⟩⟩

theorem meets_LaneErrors :
    (∃ s : State, (s.shroud 55).scrambled = true) ∧ (∃ s : State, (s.shroud 55).scrambled = false) ∧
    (∃ (lanes : BitVec 16) (f : LockLoss) (s : State), 0 < s.shrouds.length ∧ (s.shroud 0).st = .active ∧ (s.shroud 0).testLane = none ∧ lanes ≠ 0 ∧ f.cdr = false ∧
      f.relock = none ∧ (s.shroud 0).deskewRun = false ∧ (s.shroud 0).lanes.length = 16 ∧
      ((s.shroud 0).relockTbm.filter (fun t => decide (s.now < t + 1000000000))).length < 3) ∧
    (∃ s : State, 0 < s.shrouds.length ∧ (s.shroud 0).st = .active ∧ (s.shroud 0).testLane = none ∧ (s.shroud 0).deskewRun = true) ∧
    (∃ s : State, (s.shroud 0).st = .active ∧ (s.shroud 0).testLane = none ∧ 3 ≤ ((s.shroud 0).relockTbm.filter (fun t => decide (s.now < t + 1000000000))).length) :=
  ⟨⟨service.updShroud 55 fun x => { x with st := .relock }, by decide +kernel⟩, ⟨service, by decide +kernel⟩,
    ⟨1, ⟨false, none, 0, 0⟩, camera 0, by decide +kernel⟩, ⟨(camera 0).updShroud 0 fun x => { x with deskewRun := true }, by decide +kernel⟩,
    ⟨(camera 0).updShroud 0 fun x => { x with relockTbm := [0, 0, 0] }, by decide +kernel⟩⟩

theorem meets_LaneTestsAndCommands :
    (∃ s : State, 0 < s.shrouds.length ∧ 0 < (s.shroud 0).lanes.length ∧ ((s.shroud 0).lanes.getD 0 Lane.reset).scanning = true) ∧
    (∃ s : State, (s.shroud 0).testLane = some 15 ∧ 15 < (s.shroud 0).lanes.length ∧ (s.shroud 0).st = .test ∧ s.executing 0x0303 0 ≠ []) ∧
    Meets formSlRetrain (fun t c => (genShroud t.cfg.live (fld c.payload 0 1)).isSome = true ∧ fld c.payload 1 1 = 1 ∧
      t.armedChanges 0 = false ∧ t.sensorCaptures (t.shroud 0).sensorOf = false) ∧
    Meets formSlEyeScan (fun t c => (genShroud t.cfg.live (fld c.payload 0 1)).isSome = true ∧ t.laneMapped 0 (fld c.payload 1 1) = true) ∧
    Meets formSlLoopback (fun t c => (genShroud t.cfg.live (fld c.payload 0 1)).isSome = true ∧ t.laneMapped 0 (fld c.payload 1 1) = true ∧
      fld c.payload 4 4 = 1000000 ∧ (t.shroud 0).st = .active ∧ t.sensorCaptures (t.shroud 0).sensorOf = false) ∧
    Meets formSlTrainLog (fun t c => (genShroud t.cfg.live (fld c.payload 0 1)).isSome = true) := by
  let e : ExecCmd := { cmd := aCmd 0x0303, orphan := false, key := 0, args := [15, 2], cut := false }
  exact ⟨⟨camera 0, by decide +kernel⟩,
    ⟨((camera 0).updShroud 0 fun x => { x with st := .test, testLane := some 15 }).updNcp fun n => { n with exec := [e] }, by decide +kernel⟩,
    meets (sends (still (camera 0)) 0x0301 [0, 1, 0, 0]) (.slot 0) (by decide +kernel) (by decide +kernel),
    meets (sends (camera 0) 0x0302 (zeros 4)) (.slot 0) (by decide +kernel) (by decide +kernel),
    meets (sends (still (camera 0)) 0x0303 (zeros 4 ++ le 4 1000000)) (.slot 0) (by decide +kernel) (by decide +kernel),
    meets (sends (camera 0) 0x0304 (zeros 4)) (.slot 0) (by decide +kernel) (by decide +kernel)⟩

def scp (failure : Nat) : ScpFacts := { starts := true, failure := failure, reached := 0, data := [1, 2] }

/-- Context 0's sensor with its control port on. -/
def ported : State := (camera 0).updSensor 0 fun x => { x with portState := 1 }

theorem meets_ControlPortTransfers :
    Meets formScpRead (fun t c => (scp 0).starts = true ∧ (t.sensor 0).portState ≠ 0 ∧ (scp 0).failure = 0 ∧ genSensor t.cfg.live (fld c.payload 0 1) = some sensorEntry ∧
      fld sensorEntry 1 1 ≠ 0 ∧ fld c.payload 1 1 = 127 ∧ fld c.payload 2 2 = 4096) ∧
    Meets formScpRead (fun t c => (t.sensor 0).portState ≠ 0 ∧ (scp 1).failure ≠ 0 ∧ (scp 1).failure ≠ 2 ∧ genSensor t.cfg.live (fld c.payload 0 1) = some sensorEntry ∧
      fld c.payload 1 1 < 128 ∧ fld c.payload 2 2 = 1 ∧ 0 < t.sensors.length) ∧
    Meets formScpWrite (fun t c => genSensor t.cfg.live (fld c.payload 0 1) = some sensorEntry ∧ fld c.payload 2 2 = 1 ∧ c.len = 8 + 2 * 1 ∧
      t.scpLocked 0 (fld c.payload 1 1) (fld c.payload 4 2) 1 = false) ∧
    Meets formScpWrite (fun t c => genSensor t.cfg.live (fld c.payload 0 1) = some sensorEntry ∧ fld c.payload 2 2 = 1 ∧ c.len = 8 + 2 * 1 ∧
      t.scpLocked 0 (fld c.payload 1 1) (fld c.payload 4 2) 1 = true) ∧
    Meets formScpWrite (fun t c => (t.sensor 0).portState = 0 ∧ t.scpLocked 0 (fld c.payload 1 1) (fld c.payload 4 2) 1 = false ∧
      genSensor t.cfg.live (fld c.payload 0 1) = some sensorEntry ∧ fld c.payload 2 2 = 1) ∧
    Meets formScpRead (fun t c => ({ scp 0 with starts := false } : ScpFacts).starts = false ∧
      genSensor t.cfg.live (fld c.payload 0 1) = some sensorEntry ∧ fld c.payload 1 1 = 127 ∧ fld c.payload 2 2 = 4096) ∧
    (∃ s : State, (s.sensor 0).scpWait = [(aCmd 0x0320, 0)] ∧ 0 + 10000000 ≤ s.now) ∧
    (∃ s : State, (s.sensor 0).scpWait = [(aCmd 0x0320, 0)] ∧ s.now < 0 + 10000000) :=
  ⟨meets (sends ported 0x0320 ([0, 127] ++ le 2 4096 ++ zeros 4)) (.slot 0) (by decide +kernel) (by decide +kernel),
    meets (sends ported 0x0320 ([0, 0] ++ le 2 1 ++ zeros 4)) (.slot 0) (by decide +kernel) (by decide +kernel),
    meets (sends (camera 0) 0x0321 ([0, 0] ++ le 2 1 ++ zeros 4 ++ [9, 9])) (.slot 0) (by decide +kernel) (by decide +kernel),
    meets (sends (camera 0) 0x0321 ([0, 0] ++ le 2 1 ++ le 2 0xF000 ++ zeros 2 ++ [9, 9])) (.slot 0) (by decide +kernel) (by decide +kernel),
    meets (sends (camera 0) 0x0321 ([0, 0] ++ le 2 1 ++ zeros 4 ++ [9, 9])) (.slot 0) (by decide +kernel) (by decide +kernel),
    meets (sends (camera 0) 0x0320 ([0, 127] ++ le 2 4096 ++ zeros 4)) (.slot 0) (by decide +kernel) (by decide +kernel),
    ⟨later ((camera 0).updSensor 0 fun x => { x with scpWait := [(aCmd 0x0320, 0)] }), by decide +kernel⟩,
    ⟨(camera 0).updSensor 0 fun x => { x with scpWait := [(aCmd 0x0320, 0)] }, by decide +kernel⟩⟩

/-- An open frame of context 0. -/
def openNow : OpenFrame :=
  { ctx := 0, vc := 0, number := 5, openTbm := 0, seq := some 0, lands := true, fsFrom := [0], feFrom := [], rowsIn := 0, rowsPad := 0, bands := 0, flags := 0,
    link := linkBlock, embedBytes := 0, userBytes := 0 }

def filming (mode : Nat) : State := (camera mode).updSensor 0 fun x => { x with openFrames := [openNow] }

/-- A frame of context 0. -/
def aFrame (state mode : Nat) : Frame :=
  { seq := 0, number := 5, ctx := 0, mode := mode, state := state, reason := 0, slot := some 0, addr := 0, tagBase := 0, genNumber := 1, linkFlags := 0,
    landFlags := 0, outcome := 0, created := 0, retired := 0, hasOutcome := false, trigIndex := 0, fsTbm := 0, fsBase := default,
    closeTbm := 0, timeBase := 0, closeCause := 0, embedBytes := 0, width := 64, height := 16, depth := 16, pad := 0, slotSize := 4096, blocks := [],
    jobsPending := 0, reads := 0, first := false, genReset := false, finalCounted := false, creating := false, rawMade := true, holds := 0,
    prev := none, ranges := [], oldRing := false }

def holdsFrame (state mode : Nat) (s : State) : State := s.updCtx 0 fun x => { x with frames := [aFrame state mode] }

theorem meets_FramesOpen :
    (∃ s : State, s.delivers 0 = true ∧ s.ctxAt (s.shroud 0).sensorOf 1 = none) ∧
    (∃ s : State, s.delivers 0 = true ∧ s.ctxAt (s.shroud 0).sensorOf 0 = some 0 ∧ s.openAt (s.shroud 0).sensorOf 0 = none) ∧
    (∃ s : State, s.delivers 0 = true ∧ s.ctxAt (s.shroud 0).sensorOf 0 = some 0 ∧ s.openAt (s.shroud 0).sensorOf 0 = some { openNow with fsFrom := [1] } ∧
      openNow.number = 5 ∧ ({ openNow with fsFrom := [1] } : OpenFrame).fsFrom.contains 0 = false) ∧
    (∃ s : State, s.delivers 0 = true ∧ s.ctxAt (s.shroud 0).sensorOf 0 = some 0 ∧ s.openAt (s.shroud 0).sensorOf 0 = some openNow ∧
      openNow.fsFrom.contains 0 = true) ∧
    (∃ s : State, 0 < s.ctxs.length ∧ (s.ctx 0).trigWait = none ∧ s.landMode 0 = 0 ∧ s.cfg.probation = none ∧ (s.ctx 0).counts.length = 16 ∧
      (s.ctx 0).streamSlot = some 0) ∧
    (∃ s : State, 0 < s.ctxs.length ∧ (s.ctx 0).trigWait = none ∧ s.landMode 0 = 0 ∧ s.cfg.probation = none ∧ (s.ctx 0).counts.length = 16 ∧
      (s.ctx 0).streamSlot = none) :=
  ⟨⟨camera 0, by decide +kernel⟩, ⟨camera 0, by decide +kernel⟩,
    ⟨(camera 0).updSensor 0 fun x => { x with openFrames := [{ openNow with fsFrom := [1] }] }, by decide +kernel⟩, ⟨filming 0, by decide +kernel⟩, ⟨camera 0, by decide +kernel⟩,
    ⟨(holdsFrame 0 0 (camera 0)).updCtx 0 fun x => { x with slotCount := 1 }, by decide +kernel⟩⟩

theorem meets_FrameEndCloses :
    (∃ s : State, s.delivers 0 = true ∧ (s.ctxAt (s.shroud 0).sensorOf 0).isSome = true ∧ s.openAt (s.shroud 0).sensorOf 0 = none) ∧
    (∃ s : State, s.delivers 0 = true ∧ (s.ctxAt (s.shroud 0).sensorOf 0).isSome = true ∧ s.openAt (s.shroud 0).sensorOf 0 = some openNow ∧
      openNow.feFrom.contains 0 = false ∧ openNow.fsFrom.contains 0 = true ∧
      (s.shroudsOf (s.shroud 0).sensorOf).all (fun m => m == 0 || openNow.feFrom.contains m) = true) ∧
    (∃ s : State, s.delivers 0 = true ∧ (s.ctxAt (s.shroud 0).sensorOf 0).isSome = true ∧ s.openAt (s.shroud 0).sensorOf 0 = some openNow ∧
      openNow.number ≠ 4 ∧ (s.sensor (s.shroud 0).sensorOf).lastClosed.contains (0, 4) = true) ∧
    (∃ s : State, s.link 0 = some linkBlock ∧ s.openAt (fld linkBlock 0 1) (fld linkBlock 1 1) = some openNow ∧ openNow.ctx = 0 ∧
      openNow.openTbm + 1000 * 100000 ≤ s.now ∧ fld openNow.link 12 4 = 0) ∧
    (∃ s : State, s.link 0 = some linkBlock ∧ s.openAt (fld linkBlock 0 1) (fld linkBlock 1 1) = some openNow ∧ openNow.ctx = 0 ∧
      s.now < openNow.openTbm + 1000 * 100000) ∧
    (∃ s : State, 15 < s.sensors.length) :=
  ⟨⟨camera 0, by decide +kernel⟩, ⟨filming 0, by decide +kernel⟩,
    ⟨(filming 0).updSensor 0 fun x => { x with lastClosed := [(0, 4)] }, by decide +kernel⟩, ⟨later (filming 0), by decide +kernel⟩,
    ⟨filming 0, by decide +kernel⟩, ⟨service, by decide +kernel⟩⟩

def packet : LongPacket := { vc := 0, dataType := 0x20, line := 1, payload := [], trailer := 0, errored := false, complete := true }

theorem meets_PacketsArePlacedOrCounted :
    (∃ s : State, s.delivers 0 = true ∧ LongPacketBad packet = false ∧ s.ctxAt (s.shroud 0).sensorOf packet.vc = some 0 ∧
      fld ((s.link 0).getD []) 2 1 = packet.dataType ∧ bit (fld ((s.link 0).getD []) 3 1) 0 = true ∧ bit (fld ((s.link 0).getD []) 3 1) 1 = true ∧
      s.openAt (s.shroud 0).sensorOf packet.vc = some openNow) ∧
    (∃ s : State, s.delivers 0 = true ∧ s.ctxAt (s.shroud 0).sensorOf packet.vc = some 0 ∧ s.openAt (s.shroud 0).sensorOf packet.vc = none ∧
      (s.shroud 0).sensorOf < s.sensors.length) :=
  ⟨⟨filming 0, by decide +kernel⟩, ⟨camera 0, by decide +kernel⟩⟩

theorem meets_RowsLieInTiles : ∃ s : State, s.mem.bytes.wf = true ∧ ∀ x, x < tilesX 64 → ∀ i, i < 8 * 16 →
    (s.pageOf (0 + (15 / 16 * tilesX 64 + x) * 128 * 16 + 15 % 16 * 8 * 16 + i)).isSome = true :=
  ⟨service.updMem fun m => { m with table := [⟨0, 0, 0, 0, none⟩] }, by decide +kernel⟩

theorem meets_CaptureControl :
    Meets formCapStart (fun t c => t.maskCtxs c.payload = some [0] ∧ (t.ctx 0).st = .stopped ∧ (t.ctx 0).stopPending = false ∧ 0 < t.ctxs.length) ∧
    Meets formCapStart (fun t c => t.maskCtxs c.payload = some [0] ∧ ∃ k ∈ [0], (t.ctx k).st = .frozen) ∧
    Meets formCapStop (fun t c => t.maskCtxs c.payload = some [0] ∧ (t.ctx 0).st = .running ∧ (t.ctx 0).startPending = false) ∧
    Meets formCapTrigger (fun t c => t.maskCtxs c.payload = some [0]) ∧
    Meets formCapSnap (fun t c => t.hasLanding c.ctx = true ∧ t.landMode c.ctx = 2 ∧ fld c.payload 0 4 = 2 ∧ (t.ctx c.ctx).st = .running ∧
      (t.ctx c.ctx).snapOutstanding = false ∧ 2 ≤ (t.ctx c.ctx).freeSlots.length) :=
  ⟨meets (sends (still (camera 0)) 0x0401 (le 8 1)) (.slot 0) (by decide +kernel) (by decide +kernel),
    meets (sends ((camera 1).updCtx 0 fun x => { x with st := .frozen }) 0x0401 (le 8 1)) (.slot 0) (by decide +kernel) (by decide +kernel),
    meets (sends (camera 0) 0x0402 (le 8 1)) (.slot 0) (by decide +kernel) (by decide +kernel),
    meets (sends (camera 1) 0x0403 (le 8 1)) (.slot 0) (by decide +kernel) (by decide +kernel),
    meets (sendsCtx (camera 2) 0x0404 0 (le 4 2)) (.slot 0) (by decide +kernel) (by decide +kernel)⟩

theorem meets_TriggersFreezeTheRing :
    (∃ s : State, 0 < s.ctxs.length ∧ s.landMode 0 = 1 ∧ (s.inForce 0x0203 0).isSome = true ∧ (s.ctx 0).st = .running ∧
      (s.ctx 0).frames.find? (fun f => f.state == 0) = some (aFrame 0 1)) ∧
    (∃ s : State, s.landMode 0 = 1 ∧ (s.inForce 0x0203 0).isSome = true ∧ (s.ctx 0).st = .postTrigger) ∧
    (∃ s : State, s.landMode 0 = 1 ∧ (s.inForce 0x0203 0).isSome = true ∧ (s.ctx 0).st = .frozen) ∧ (∃ s : State, s.running = true) :=
  ⟨⟨holdsFrame 0 1 (camera 1), by decide +kernel⟩, ⟨(camera 1).updCtx 0 fun x => { x with st := .postTrigger }, by decide +kernel⟩,
    ⟨(camera 1).updCtx 0 fun x => { x with st := .frozen }, by decide +kernel⟩, ⟨service, by decide +kernel⟩⟩

theorem meets_CaptureReads :
    Meets formCapFrameRecord (fun t c => t.hasLanding c.ctx = true ∧ fld c.payload 4 4 = 127) ∧
    Meets formCapCounters (fun t c => t.hasLanding c.ctx = true) ∧
    Meets formCapRelease (fun t c => t.hasLanding c.ctx = true ∧ fld c.payload 4 4 = 0xFFFFFFFF ∧ fld c.payload 8 4 = 1 ∧
      aFrame 1 2 ∈ (t.ctx c.ctx).frames) ∧
    Meets formCapRead (fun t c => bit t.policyFlags 3 = false ∧ t.hasLanding c.ctx = true ∧
      (t.ctx c.ctx).record (BitVec.ofNat 32 (fld c.payload 0 4)) = some (aFrame 1 0) ∧ fld c.payload 4 1 = 0 ∧ fld c.payload 5 1 = 0 ∧
      fld c.payload 16 8 % 64 = 0 ∧ t.landMode c.ctx ≠ 1 ∧ ∃ r, t.readPlan (aFrame 1 0) 0 0 = some r ∧ fld c.payload 12 4 = 1 ∧
        0 + 1 ≤ r.total ∧ 1 * r.size ≤ 268435456) ∧
    Meets formCapRead (fun t c => bit t.policyFlags 3 = false ∧ t.hasLanding c.ctx = true ∧
      (t.ctx c.ctx).record (BitVec.ofNat 32 (fld c.payload 0 4)) = some (aFrame 4 1) ∧ fld c.payload 4 1 = 0 ∧ fld c.payload 5 1 = 0 ∧
      fld c.payload 16 8 % 64 = 0 ∧ t.landMode c.ctx = 1 ∧ (t.ctx c.ctx).st ≠ .running ∧ (t.ctx c.ctx).st ≠ .postTrigger ∧
      ∃ r, t.readPlan (aFrame 4 1) 0 0 = some r ∧ fld c.payload 12 4 = 1 ∧ 0 + 1 ≤ r.total ∧ 1 * r.size ≤ 268435456) :=
  ⟨meets (sendsCtx (camera 0) 0x0406 0 (le 4 0 ++ le 4 127)) (.slot 0) (by decide +kernel) (by decide +kernel),
    meets (sendsCtx (camera 0) 0x0408 0 []) (.slot 0) (by decide +kernel) (by decide +kernel),
    meets (sendsCtx (holdsFrame 1 2 (camera 2)) 0x0405 0 (le 4 0 ++ le 4 0xFFFFFFFF ++ le 4 1)) (.slot 0) (by decide +kernel) (by decide +kernel),
    meets (sendsCtx (holdsFrame 1 0 (camera 0)) 0x0407 0 (zeros 12 ++ le 4 1 ++ zeros 8)) (.slot 0) (by decide +kernel)
      ⟨by decide +kernel, by decide +kernel, by decide +kernel, by decide +kernel, by decide +kernel, by decide +kernel, by decide +kernel,
        _, rfl, by decide +kernel, by decide +kernel, by decide +kernel⟩,
    meets (sendsCtx (still (holdsFrame 4 1 (camera 1))) 0x0407 0 (zeros 12 ++ le 4 1 ++ zeros 8)) (.slot 0) (by decide +kernel)
      ⟨by decide +kernel, by decide +kernel, by decide +kernel, by decide +kernel, by decide +kernel, by decide +kernel, by decide +kernel,
        by decide +kernel, by decide +kernel, _, rfl, by decide +kernel, by decide +kernel, by decide +kernel⟩⟩

/-! ## Colour, encoders, Barrel, the decoder -/

/-- A STREAM_SET with RECORD stream 0 on port 0, a FLEX_SET with root port 0 and an Ethernet yard 6, a DEC_STREAMS with stream 0, an HEVC
encoding 0 of context 0, a TIME_BASE and a SENSOR_SET. -/
def recordEntry : List Byte := zeros 16 ++ [1, 20] ++ zeros 46
def decEntry : List Byte := [0, 0, 0, 0] ++ le 2 64 ++ le 2 8 ++ zeros 4 ++ le 4 1024 ++ zeros 16
def yard1 : List Byte := [1, 2, 0, 0] ++ zeros 12 ++ [1, 0, 0xF, 0, 1, 1, 0, 0] ++ zeros 56

def studio : State :=
  runs [block 0x0502 0 (le 4 1 ++ zeros 132), block 0x0601 0xFFFF (le 4 1 ++ zeros 4 ++ decEntry),
    block 0x0701 0xFFFF (le 4 1 ++ zeros 4 ++ recordEntry), block 0x0901 0xFFFF (le 4 1 ++ zeros 4 ++ yard1)] service

theorem meets_ColourEncoderAndBarrelCommands :
    Meets formEncForceIrap (fun t c => t.liveEnc (fld c.payload 0 1) = some 1) ∧
    Meets formEncForceIrap (fun t c => t.liveEnc (fld c.payload 0 1) ≠ some 1) ∧
    Meets formEncPictureRecord (fun t c => (t.liveEnc (fld c.payload 0 1)).isSome = true ∧ fld c.payload 2 2 = 255) ∧
    Meets formBrlOpen (fun t c => fld c.payload 1 1 = 0 ∧ fld c.payload 3 1 = 3 ∧ fld c.payload 2 1 = 2 ∧ fld c.payload 0 1 = 63 ∧
      (t.brlCtx 63).isOpen = false) ∧
    Meets formBrlOpen (fun t c => fld c.payload 1 1 = 1 ∧ fld c.payload 3 1 = 0 ∧ fld c.payload 0 1 = 0xFF ∧ (t.brlCtx 1).isOpen = false ∧
      ∀ j, j < 1 → (t.brlCtx j).isOpen = true) ∧
    Meets formBrlSubmit (fun t c => (t.brlCtx (fld c.payload 0 1)).isOpen = true ∧ fld c.payload 1 1 = 1 ∧ fld c.payload 4 4 = 268435456 ∧
      fld c.payload 16 4 = 1 ∧ (t.brlCtx 0).pending = false ∧ (t.brlCtx 0).st ≠ 3) ∧
    Meets formBrlClose (fun t c => (t.brlCtx (fld c.payload 0 1)).isOpen = true ∧ (t.brlCtx (fld c.payload 0 1)).pending = false) ∧
    Meets formBrlClose (fun t c => (t.brlCtx (fld c.payload 0 1)).isOpen = true ∧ (t.brlCtx (fld c.payload 0 1)).pending = true) ∧
    Meets formBrlReadContext (fun t c => (t.brlCtx (fld c.payload 0 1)).isOpen = true ∧ (t.brlCtx (fld c.payload 0 1)).st ≠ 3) ∧
    Meets formBrlReadContext (fun t c => (t.brlCtx (fld c.payload 0 1)).isOpen = true ∧ (t.brlCtx (fld c.payload 0 1)).st = 3) := by
  let opened (p : Bool) : State := service.updBrl 0 fun x => { x with isOpen := true, pending := p }
  exact ⟨meets (sends studio 0x0C01 (zeros 4)) (.slot 0) (by decide +kernel) (by decide +kernel),
    meets (sends service 0x0C01 (zeros 4)) (.slot 0) (by decide +kernel) (by decide +kernel),
    meets (sends studio 0x0C02 ([0, 0] ++ le 2 255 ++ zeros 4)) (.slot 0) (by decide +kernel) (by decide +kernel),
    meets (sends service 0x0B01 [63, 0, 2, 3]) (.slot 0) (by decide +kernel) (by decide +kernel),
    meets (sends (opened false) 0x0B01 [0xFF, 1, 0, 0]) (.slot 0) (by decide +kernel) (by decide +kernel),
    meets (sends (opened false) 0x0B02 ([0, 1, 0, 0] ++ le 4 268435456 ++ zeros 8 ++ le 4 1 ++ zeros 12)) (.slot 0) (by decide +kernel) (by decide +kernel),
    meets (sends (opened false) 0x0B03 (zeros 4)) (.slot 0) (by decide +kernel) (by decide +kernel),
    meets (sends (opened true) 0x0B03 (zeros 4)) (.slot 0) (by decide +kernel) (by decide +kernel),
    meets (sends (opened true) 0x0B04 (zeros 4)) (.slot 0) (by decide +kernel) (by decide +kernel),
    meets (sends ((opened true).updBrl 0 fun x => { x with st := 3 }) 0x0B04 (zeros 4)) (.slot 0) (by decide +kernel) (by decide +kernel)⟩

/-- A command that executes. -/
def runsCmd (op key : Nat) (args : List Nat) : ExecCmd := { cmd := aCmd op, orphan := false, key := key, args := args, cut := false }
def withExec (es : List ExecCmd) (s : State) : State := s.updNcp fun n => { n with exec := es }

def decoding : State := studio.updDec 0 fun d => { d with entry := some decEntry, slots := [2], slotReads := [0], slotReleased := [false] }

theorem meets_DecoderCommandsAndTransfers :
    Meets formDecSubmit (fun t c => t.liveDec (fld c.payload 0 1) = true ∧ (t.dec 0).entry.isSome = true ∧ fld c.payload 4 4 = 1048576 ∧
      fld c.payload 4 4 ≤ fld (t.dec 0).ent 12 4 * 1024 ∧ (t.submissions 0).length < 16 ∧
      t.decRing 0 + fld c.payload 4 4 ≤ fld (t.dec 0).ent 12 4 * 1024) ∧
    Meets formDecSubmit (fun t c => t.liveDec (fld c.payload 0 1) = true ∧ (t.dec 0).entry.isSome = true ∧ fld c.payload 4 4 = 1 ∧
      (t.submissions 0).length = 16) ∧
    Meets formDecFlush (fun t c => t.liveDec (fld c.payload 0 1) = true) ∧
    Meets formDecRestart (fun t c => t.liveDec (fld c.payload 0 1) = true ∧ t.submissions 0 = []) ∧
    Meets formDecRelease (fun t c => t.liveDec (fld c.payload 0 1) = true ∧ (t.dec 0).slots.getD (fld c.payload 1 1) 0 = 2 ∧
      (t.dec 0).slotReleased.getD (fld c.payload 1 1) false = false ∧ 0 < t.decs.length ∧ 0 < (t.dec 0).slots.length ∧
      0 < (t.dec 0).slotReleased.length ∧ (t.dec 0).slotReads.getD 0 0 = 0 ∧ (∀ x ∈ t.streams, x.sending = none) ∧ t.jobs = []) ∧
    Meets formDecRecord (fun t c => t.liveDec (fld c.payload 0 1) = true ∧ fld c.payload 2 2 = 255) ∧
    Meets formDecRead (fun t c => t.liveDec (fld c.payload 0 1) = true ∧ (t.dec 0).slots.getD (fld c.payload 1 1) 0 = 2 ∧ fld c.payload 8 4 = 1 ∧
      fld c.payload 4 4 + 1 ≤ decTilesX (t.dec 0).ent * decTilesY (t.dec 0).ent ∧ fld c.payload 16 8 % 64 = 0) ∧
    (∀ op ∈ [0x0407, 0x0A06, 0x0A01, 0x0B02, 0x0507, 0x0508], ∃ s : State,
      s.ncp.exec.find? (fun e => e.cmd.box == .slot 0) = some (runsCmd op 0 []) ∧ (runsCmd op 0 []).cmd.opcode = op ∧ s.jobs = [] ∧
      (true && s.ep.bme && s.ep.st == 6 && !(runsCmd op 0 []).cut) = true) ∧
    (∃ s : State, s.jobs.find? (fun j => j.kind == .barrel && j.object == 0 && j.st == .running) ≠ none) ∧
    (∃ (j : Job) (s : State), s.byTag 0 = some j ∧ j.st = .running ∧ j.kind = .decPicture ∧ j.runTbm + s.decBudget j ≤ s.now) ∧
    (∃ (j : Job) (s : State), s.byTag 0 = some j ∧ j.st = .running ∧ j.kind = .decPicture ∧ s.now < j.runTbm + s.decBudget j) ∧
    (∃ s : State, 0 < s.decs.length ∧ s.executing 0x0A02 0 ≠ [] ∧ s.submissions 0 = []) := by
  refine ⟨meets (sends decoding 0x0A01 (zeros 4 ++ le 4 1048576 ++ zeros 16)) (.slot 0) (by decide +kernel) (by decide +kernel),
    meets (sends (withExec (List.replicate 16 (runsCmd 0x0A01 0 [0, 1, 0])) decoding) 0x0A01 (zeros 4 ++ le 4 1 ++ zeros 16)) (.slot 0)
      (by decide +kernel) (by decide +kernel),
    meets (sends decoding 0x0A02 (zeros 4)) (.slot 0) (by decide +kernel) (by decide +kernel),
    meets (sends decoding 0x0A03 (zeros 4)) (.slot 0) (by decide +kernel) (by decide +kernel),
    meets (sends decoding 0x0A04 (zeros 4)) (.slot 0) (by decide +kernel) (by decide +kernel),
    meets (sends decoding 0x0A05 ([0, 0] ++ le 2 255 ++ zeros 4)) (.slot 0) (by decide +kernel) (by decide +kernel),
    meets (sends decoding 0x0A06 (zeros 8 ++ le 4 1 ++ zeros 12)) (.slot 0) (by decide +kernel) (by decide +kernel), ?_,
    ⟨withJob { aJob with kind := .barrel, st := .running }, by decide +kernel⟩,
    ⟨{ aJob with kind := .decPicture, st := .running }, later (withJob { aJob with kind := .decPicture, st := .running }), by decide +kernel⟩,
    ⟨{ aJob with kind := .decPicture, st := .running, runTbm := 1 }, withJob { aJob with kind := .decPicture, st := .running, runTbm := 1 }, by decide +kernel⟩,
    ⟨withExec [runsCmd 0x0A02 0 []] service, by decide +kernel⟩⟩
  intro op h
  exact ⟨withExec [runsCmd op 0 []] service, rfl, rfl, rfl, by decide +kernel +revert⟩

/-! ## Recording, drives and outputs -/

def recording (s : State) : State := s.updStream 0 fun x => { x with entry := some recordEntry }
def readyDrive (s : State) : State := s.updDrive 0 fun d => { d with st := .ready, formats := [(1, 512)] }
def grant1 : Grant := { id := 1, isSeal := false, port := 0, nsid := 1, first := 0, count := 4096, used := 0, faulted := false }

theorem meets_RecordingCommands :
    Meets formRecStart (fun t c => t.liveRecord (fld c.payload 0 1) = true ∧ t.sealDisabled = false ∧ (t.stream 0).encrypt = false ∧
      (t.stream 0).takeOpen = false ∧ 0 < t.streams.length) ∧
    Meets formRecStart (fun t c => t.liveRecord (fld c.payload 0 1) = true ∧ t.sealDisabled = true) ∧
    Meets formRecStop (fun t c => t.liveRecord (fld c.payload 0 1) = true ∧ (t.stream 0).takeOpen = true ∧ (t.stream 0).stopAtFs = false) ∧
    Meets formRecStop (fun t c => t.liveRecord (fld c.payload 0 1) = true ∧ (t.stream 0).takeOpen = false) ∧
    Meets formRecGrant (fun t c => t.liveRecord (fld c.payload 0 1) = true ∧ fld c.payload 1 1 = 0 ∧ fld c.payload 2 2 = 1 ∧ c.len = 8 + 24 ∧
      t.grantList (t.stream 0) false 8 (entriesFrom c.payload 8 24 1) [] = .inr [grant1] ∧
      ((t.stream 0).grants.filter Grant.isOut).length + 1 ≤ 1024) ∧
    Meets formRecRevoke (fun t c => t.liveRecord (fld c.payload 0 1) = true ∧ grant1 ∈ (t.stream 0).grants ∧ grant1.isOut = true ∧
      fld c.payload 4 4 = grant1.id ∧ grant1.id ≠ 0xFFFFFFFF ∧ (∀ h, h ∈ (t.stream 0).grants → h.id = grant1.id → h = grant1) ∧
      (t.stream 0).grants.count grant1 = 1) ∧
    Meets formRecReport (fun t c => t.liveRecord (fld c.payload 0 1) = true ∧ fld c.payload 2 2 = 340) ∧
    Meets formRecAck (fun t c => t.liveRecord (fld c.payload 0 1) = true) ∧
    Meets formRecAdmin (fun t c => t.livePort (fld c.payload 0 1) = true ∧ (t.drive 0).st = .ready ∧ fld c.payload 4 4 = 65536 ∧
      adminBarred c.payload = false ∧ adminGuarded c.payload = false) ∧
    Meets formRecIo (fun t c => t.livePort (fld c.payload 0 1) = true ∧ (t.drive 0).st = .ready ∧ fld c.payload 1 1 = 0 ∧
      fld c.payload 16 4 * t.lba 0 (fld c.payload 4 4) = 16777216) ∧
    Meets formRecIo (fun t c => t.livePort (fld c.payload 0 1) = true ∧ (t.drive 0).st = .ready ∧ fld c.payload 1 1 = 1 ∧
      (t.grantsOn 0).any (fun g => g.meets (fld c.payload 4 4) (fld c.payload 8 8) (fld c.payload 16 4)) = false) ∧
    Meets formRecPortReset (fun t c => t.livePort (fld c.payload 0 1) = true ∧ (t.drive 0).st = .ready) ∧
    (∃ s : State, (s.stream 31).encrypt = false ∧ 31 < s.streams.length) := by
  let rec_ (f : Stream → Stream) : State := (recording (readyDrive studio)).updStream 0 f
  exact ⟨meets (sends (recording studio) 0x0501 (zeros 4)) (.slot 0) (by decide +kernel) (by decide +kernel),
    meets (sends ((recording studio).updTrust fun t => { t with debugUnlocked := true }) 0x0501 (zeros 4)) (.slot 0) (by decide +kernel) (by decide +kernel),
    meets (sends (rec_ fun x => { x with takeOpen := true }) 0x0502 (zeros 4)) (.slot 0) (by decide +kernel) (by decide +kernel),
    meets (sends (recording studio) 0x0502 (zeros 4)) (.slot 0) (by decide +kernel) (by decide +kernel),
    meets (sends (recording (readyDrive studio)) 0x0503 ([0, 0, 1, 0] ++ zeros 4 ++ zeros 4 ++ le 4 1 ++ le 8 0 ++ le 8 4096)) (.slot 0)
      (by decide +kernel) (by decide +kernel),
    meets (sends (rec_ fun x => { x with grants := [grant1] }) 0x0504 (zeros 4 ++ le 4 1)) (.slot 0) (by decide +kernel) (by decide +kernel),
    meets (sends (recording studio) 0x0505 ([0, 0] ++ le 2 340)) (.slot 0) (by decide +kernel) (by decide +kernel),
    meets (sends (recording studio) 0x0506 (zeros 8)) (.slot 0) (by decide +kernel) (by decide +kernel),
    meets (sends (readyDrive studio) 0x0507 (zeros 4 ++ le 4 65536 ++ zeros 8 ++ [2] ++ zeros 63)) (.slot 0) (by decide +kernel) (by decide +kernel),
    meets (sends (readyDrive studio) 0x0508 (zeros 4 ++ le 4 1 ++ zeros 8 ++ le 4 32768 ++ zeros 12)) (.slot 0) (by decide +kernel) (by decide +kernel),
    meets (sends (readyDrive studio) 0x0508 ([0, 1] ++ zeros 30)) (.slot 0) (by decide +kernel) (by decide +kernel),
    meets (sends (readyDrive studio) 0x0509 (zeros 4)) (.slot 0) (by decide +kernel) (by decide +kernel), ⟨service, by decide +kernel⟩⟩

def nvme (op : Nat) : NvmeCmd := { id := 0, op := op, stream := 0, isSeal := false, job := 0, nsid := 1, tbm := 0, tries := 0 }
def answer : NvmeFacts :=
  { cmd := 0, ok := true, statusField := 0, dnr := false, retryable := false, cfs := false, dw0 := 0, dw1 := 0, nvmSet := true, nn := 2, lbaSize := 4096, mdts := 5, mqes := 63 }
def driveWith (st : DriveSt) (cs : List NvmeCmd) : State := service.updDrive 27 fun d => { d with st := st, cmds := cs, nn := 2, formats := [(1, 512)] }

def aSegment : Segment :=
  { index := 0, firstByte := 0, bytes := 1, hashes := [], tags := [], chunk := [1], discs := [], gen := 0, digest := [], tbmFirst := 0, tbmLast := 0,
    baseFirst := default, baseLast := default, written := [] }

def aUnit : StreamUnit :=
  { seq := 0, job := 0, done := false, gap := 0, bytes := [], status := 0, frame := 0, picture := 0, row := 0, rows := 1, fsTbm := 0, deadline := none }

/-- An ST 2110 output stream that sends. -/
def sender (ready : List (Nat × Nanos × Nat)) : State :=
  service.updStream 31 fun x => { x with entry := some ([31, 1] ++ zeros 62), sending := some (4, 0), ready := ready }

theorem meets_DrivesSegmentsAndLines :
    (∀ op ∈ [1, 2, 3, 4, 5], ∃ s : State, (s.drive 27).cmds.find? (fun y => y.id == answer.cmd) = some (nvme op) ∧ answer.cfs = false ∧
      answer.ok = true) ∧
    (∃ f : NvmeFacts, f.cfs = false ∧ f.ok = false) ∧
    (∀ op ∈ [6, 7], ∃ s : State, (s.drive 27).cmds.find? (fun y => y.id == answer.cmd) = some (nvme op) ∧ answer.cfs = false ∧
      (s.drive 27).st = .init ∧ 27 < s.drives.length ∧ answer.ok = true ∧ answer.nvmSet = true) ∧
    (∃ s : State, (s.drive 27).cmds.any (fun x => decide (x.tbm + 1000000 * (s.stream x.stream).timeoutMs ≤ s.now)) = true) ∧
    (∃ s : State, (s.drive 27).cmds.any (fun x => decide (x.tbm + 1000000 * (s.stream x.stream).timeoutMs ≤ s.now)) = false) ∧
    (∃ s : State, 27 < s.drives.length ∧ (s.drive 27).st = .resetting ∧ (s.drive 27).formats ≠ []) ∧
    (∃ s : State, 27 < s.drives.length ∧ (s.drive 27).st = .resetting ∧ (s.drive 27).formats = []) ∧
    (∃ s : State, 0 < s.streams.length ∧ (s.stream 0).segment = some aSegment ∧ aSegment.bytes ≠ 0 ∧ aSegment.tbmFirst + 1000000000 ≤ s.now) ∧
    (∃ s : State, (s.stream 0).segment = some aSegment ∧ aSegment.bytes ≠ 0 ∧ s.now < aSegment.tbmFirst + 1000000000) ∧
    (∃ (j : Job) (s : State), s.jobs.find? (fun j => j.kind == .caskManifest && j.st == .running) = some j) ∧
    (∃ (r : SealRec) (s : State), s.trust.sealQueue = [0] ∧ 0 < s.streams.length ∧ (s.stream 0).unsigned = some r ∧ 0 < s.nv.manifestHash.length) ∧
    (∃ s : State, 31 < s.streams.length ∧ (s.stream 31).isOutput = true ∧ (s.stream 31).type ≠ 2 ∧ (s.stream 31).sending = some (4, 0) ∧
      (s.stream 31).ready.find? (fun r => r.1 == 4 && r.2.2.testBit 0) = some (4, 0, 1)) ∧
    (∃ s : State, 31 < s.streams.length ∧ (s.stream 31).isOutput = true ∧ (s.stream 31).sending = some (4, 0) ∧
      (s.stream 31).type = 3 ∧ (s.stream 31).ready.find? (fun r => r.1 == 4 && r.2.2.testBit 0) = none) ∧
    (∃ s : State, 2 ≤ (s.drive 27).nn) ∧ (∃ s : State, (s.drive 27).nn < 3) ∧
    (∃ (u : StreamUnit) (s : State), (s.stream 31).units = [u] ∧ u.done = false ∧ s.job u.job = none ∧
      (s.stream 31).headSince + 1000000 * (s.stream 31).headTimeoutMs ≤ s.now) := by
  let r : SealRec := { index := 0, kind := 2, bytes := zeros 512, signed := false, placed := false }
  let s : State := (service.updStream 0 fun x => { x with sealRecs := [r] }).updTrust fun t => { t with sealQueue := [0] }
  let cut (s : State) : State := s.updStream 0 fun x => { x with segment := some aSegment }
  let reset (known : List (Nat × Nat)) : State := (driveWith .resetting []).updDrive 27 fun d => { d with formats := known }
  let sdi (ready : List (Nat × Nanos × Nat)) : State := (sender ready).updStream 31 fun x => { x with entry := some ([31, 3] ++ zeros 62) }
  refine ⟨fun op h => ⟨driveWith .ready [nvme op], rfl, rfl, rfl⟩, ⟨{ answer with ok := false }, by decide⟩,
    fun op h => ⟨driveWith .init [nvme op], rfl, rfl, by decide +kernel +revert, by decide +kernel +revert, rfl, rfl⟩,
    ⟨(later (later (driveWith .ready [nvme 1]))).updTime fun t => { t with tbm := 4294967296 * 60000000000 }, by decide +kernel⟩,
    ⟨driveWith .ready [nvme 1], by decide +kernel⟩,
    ⟨reset [(1, 512)], by decide +kernel⟩, ⟨reset [], by decide +kernel⟩,
    ⟨later (cut service), by decide +kernel⟩, ⟨cut service, by decide +kernel⟩,
    ⟨{ aJob with kind := .caskManifest, st := .running }, withJob { aJob with kind := .caskManifest, st := .running }, by decide +kernel⟩,
    ⟨r, s, by decide +kernel⟩,
    ⟨sdi [(4, 0, 1)], by decide +kernel⟩, ⟨sdi [(4, 0, 2)], by decide +kernel⟩,
    ⟨driveWith .ready [], by decide +kernel⟩, ⟨driveWith .ready [], by decide +kernel⟩, ⟨aUnit, later (service.updStream 31 fun x => { x with units := [aUnit] }), by decide +kernel⟩⟩

/-! ## Capture memory, flex lanes, time -/

/-- A TABLES page of stack 0 mapped at address 0. -/
def mapped (s : State) : State :=
  s.updMem fun m => { m with table := [{ logical := 0, physical := 0, map := 0, kind := 4, migrateTo := none }] }

theorem meets_CaptureMemoryRows :
    (∃ s : State, s.mem.pchans.length = 128 ∧ s.mem.hbm.length = 4 ∧ (s.pchan 127).ready = true ∧ s.obs.set = none) ∧
    (∃ s : State, (s.pchan 0).ready = false) ∧
    Meets formMemLocate (fun t c => (t.locate (fld c.payload 0 8)).isSome = true) ∧
    Meets formMemLocate (fun t c => t.locate (fld c.payload 0 8) = none) ∧
    Meets formMemTrainLog (fun _ c => fld c.payload 0 1 = 3 ∧ fld c.payload 1 1 = 31) ∧
    Meets formMemTrainLog (fun _ c => fld c.payload 0 1 = 3 ∧ fld c.payload 1 1 = 0xFF) ∧
    Meets formMemRetired (fun _ c => fld c.payload 4 2 = 1) ∧ Meets formMemRetired (fun _ c => fld c.payload 4 2 = 1023) :=
  ⟨⟨trained service, by decide +kernel⟩, ⟨State.reset, by decide +kernel⟩,
    meets (sends (mapped service) 0x0D01 (le 8 2097151)) (.slot 0) (by decide +kernel) (by decide +kernel),
    meets (sends service 0x0D01 (le 8 0)) (.slot 0) (by decide +kernel) (by decide +kernel),
    meets (sends service 0x0D02 [3, 31, 0, 0]) (.slot 0) (by decide +kernel) (by decide +kernel),
    meets (sends service 0x0D02 [3, 0xFF, 0, 0]) (.slot 0) (by decide +kernel) (by decide +kernel),
    meets (sends service 0x0D03 (le 4 0 ++ le 2 1 ++ zeros 2)) (.slot 0) (by decide +kernel) (by decide +kernel),
    meets (manages service 0x0D03 (le 4 0 ++ le 2 1023 ++ zeros 2)) (.mgmt 0) (by decide +kernel) (by decide +kernel)⟩

def updYard (y : Nat) (f : Yard → Yard) (s : State) : State := { s with yards := upd s.yards (y - 1) f }

/-- A yard in root or Ethernet mode with an entry for slot 0 and port p there, in a state. -/
def slot0 : List Byte := [1, 0, 0, 0, 3, 4, 3, 0]
def wired (y mode p st : Nat) (f : FlexPort → FlexPort) : State :=
  let s := updYard y (fun yd => { yd with mode := mode, entry := some ([BitVec.ofNat 8 y, BitVec.ofNat 8 mode, 0, 0] ++ zeros 12 ++ slot0) }) service
  s.updPort y 0 fun x => f { x with port := some p, st := st }

theorem meets_FlexCommandsAndMargins :
    Meets formFlxLinkInfo (fun _ c => fld c.payload 0 1 = 0 ∧ fld c.payload 1 1 = 0) ∧
    Meets formFlxLinkInfo (fun t c => fld c.payload 0 1 = 7 ∧ fld c.payload 1 1 = 3 ∧ (t.yard 7).mode ≠ 4) ∧
    Meets formFlxMargin (fun t c => fld c.payload 0 1 = 0 ∧ fld c.payload 1 1 = 0 ∧ t.ep.st = 6) ∧
    Meets formFlxMargin (fun t c => fld c.payload 0 1 = 1 ∧ t.flexPortAt 1 (fld c.payload 1 1) = true ∧ (t.port 1 (fld c.payload 1 1)).st = 6) ∧
    Meets formFlxMargin (fun t c => fld c.payload 0 1 = 7 ∧ t.flexPortAt 7 (fld c.payload 1 1) = true ∧ (t.port 7 (fld c.payload 1 1)).st ≠ 6) ∧
    Meets formFlxRetrain (fun t c => fld c.payload 0 1 = 1 ∧ t.flexPortAt 1 (fld c.payload 1 1) = true ∧ (t.yard 1).mode ≠ 3 ∧
      (t.port 1 (fld c.payload 1 1)).perstHeld = false) ∧
    Meets formFlxRetrain (fun t c => fld c.payload 0 1 = 7 ∧ t.flexPortAt 7 (fld c.payload 1 1) = true ∧ (t.yard 7).mode = 3 ∧
      (t.port 7 (fld c.payload 1 1)).st ≠ 6) ∧
    Meets formFlxRetrain (fun t c => fld c.payload 0 1 = 7 ∧ t.flexPortAt 7 (fld c.payload 1 1) = true ∧ (t.yard 7).mode = 3 ∧
      (t.port 7 (fld c.payload 1 1)).st = 6) ∧
    (∃ (f : MarginFacts) (s : State), f.timing = [5] ∧ f.voltage = [9] ∧ s.ep.scanning = true) ∧
    (∃ s : State, 7 ≤ s.yards.length ∧ (s.port 7 0).scanning = true) :=
  ⟨meets (sends service 0x0E01 (zeros 4)) (.slot 0) (by decide +kernel) (by decide +kernel),
    meets (sends service 0x0E01 [7, 3, 0, 0]) (.slot 0) (by decide +kernel) (by decide +kernel),
    meets (sends service 0x0E02 (zeros 4)) (.slot 0) (by decide +kernel) (by decide +kernel),
    meets (sends (wired 1 2 0 6 id) 0x0E02 [1, 0, 0, 0]) (.slot 0) (by decide +kernel) (by decide +kernel),
    meets (sends (wired 7 3 4 2 id) 0x0E02 [7, 0, 0, 0]) (.slot 0) (by decide +kernel) (by decide +kernel),
    meets (sends (wired 1 2 0 6 fun x => { x with perstHeld := false }) 0x0E03 [1, 0, 0, 0]) (.slot 0) (by decide +kernel) (by decide +kernel),
    meets (sends (wired 7 3 4 2 id) 0x0E03 [7, 0, 0, 0]) (.slot 0) (by decide +kernel) (by decide +kernel),
    meets (sends (wired 7 3 4 6 id) 0x0E03 [7, 0, 0, 0]) (.slot 0) (by decide +kernel) (by decide +kernel),
    ⟨⟨[5], [9]⟩, service.updEp fun e => { e with scanning := true }, by decide +kernel⟩,
    ⟨wired 7 3 4 6 fun x => { x with scanning := true }, by decide +kernel⟩⟩

def gen4 (width : Nat) : LinkFacts := { rate := 3, width := width, flit := false, micros := 7 }

/-- Root port 24 in yard 7, slot 0, in a state; Ethernet port 7 in yard 7, slot 0. -/
def root24 (st : Nat) (f : FlexPort → FlexPort) : State := wired 7 2 24 st f
def eth7 (st : Nat) : State := wired 7 3 7 st id

theorem meets_LinksComeAndGo :
    (∃ s : State, (s.yard 7).mode = 2 ∧ (s.port 7 0).port = some 24 ∧ (s.port 7 0).st = 5 ∧ s.flexRetired 7 0 = false ∧
      fld (s.slotIn 7 0) 4 1 ≤ (gen4 4).rate ∧ fld (s.slotIn 7 0) 5 1 ≤ (gen4 4).width ∧ (gen4 1).width < fld (s.slotIn 7 0) 5 1 ∧
      24 < s.drives.length ∧ (s.drive 24).st = .absent ∧ (s.port 7 0).holdSince + 1000000000 ≤ s.now ∧ s.executing 0x0E03 112 = []) ∧
    (∃ s : State, (s.yard 7).mode = 2 ∧ (s.port 7 0).port = some 24 ∧ (s.port 7 0).st = 0xA ∧ (s.port 7 0).holdSince + 1000000000 ≤ s.now ∧
      s.executing 0x0E03 112 = []) ∧
    (∃ s : State, (s.yard 7).mode = 2 ∧ (s.port 7 0).port = some 24 ∧ s.now < (s.port 7 0).holdSince + 1000000000) ∧
    (∃ s : State, (s.yard 7).mode = 2 ∧ (s.port 7 0).port = some 24 ∧ (s.port 7 0).st = 6 ∧ (s.drive 24).cmds = [] ∧
      (s.drive 24).idleSince + 100000 ≤ s.now) ∧
    (∃ s : State, (s.port 7 0).st = 6 ∧ (s.drive 24).cmds = [] ∧ s.now < (s.drive 24).idleSince + 100000) ∧
    (∃ s : State, (s.yard 7).mode = 2 ∧ (s.port 7 0).port = some 24 ∧ (s.port 7 0).st = 7 ∧ s.executing 0x0E03 112 = [] ∧
      (s.port 7 0).holdSince + 100000000 ≤ s.now) ∧
    (∃ s : State, (s.port 7 0).st = 7 ∧ s.executing 0x0E03 112 = [] ∧ s.now < (s.port 7 0).holdSince + 100000000) ∧
    (∃ s : State, (s.yard 7).mode = 2 ∧ (s.port 7 0).port = some 24 ∧ (s.port 7 0).perstHeld = true ∧
      15 ≤ fld (s.slotIn 7 0) 2 1 ∧ (s.port 7 0).holdSince + 10000000 * max (fld (s.slotIn 7 0) 7 1) 10 ≤ s.now) ∧
    (∃ s : State, (s.yard 7).mode = 2 ∧ (s.port 7 0).port = some 24 ∧ (s.port 7 0).perstHeld = true ∧
      15 ≤ fld (s.slotIn 7 0) 2 1 ∧ s.now < (s.port 7 0).holdSince + 10000000 * max (fld (s.slotIn 7 0) 7 1) 10) ∧
    (∃ s : State, s.ethAt 7 = some (7, 0) ∧ (s.port 7 0).st = 6) ∧
    (∃ s : State, s.ethAt 7 = some (7, 0) ∧ (s.port 7 0).st = 0xA ∧ s.flexRetired 7 0 = false ∧ s.executing 0x0E03 112 = []) ∧
    (∃ s : State, s.ep.st = 2) ∧ (∃ s : State, s.ep.st = 6) ∧
    (∃ s : State, (s.port 7 0).port.isSome = true ∧ (s.port 7 0).lastErrEvent = none) := by
  let held : State := updYard 7 (fun yd => { yd with entry := some (zeros 18 ++ [15]) }) (root24 2 fun x => { x with perstHeld := true })
  exact ⟨⟨later (root24 5 id), by decide +kernel⟩, ⟨later (root24 0xA id), by decide +kernel⟩, ⟨root24 0xA id, by decide +kernel⟩,
    ⟨later (root24 6 id), by decide +kernel⟩, ⟨root24 6 id, by decide +kernel⟩, ⟨later (root24 7 id), by decide +kernel⟩, ⟨root24 7 id, by decide +kernel⟩,
    ⟨later held, by decide +kernel⟩, ⟨held, by decide +kernel⟩, ⟨eth7 6, by decide +kernel⟩, ⟨eth7 0xA, by decide +kernel⟩,
    ⟨service.updEp fun e => { e with st := 2 }, by decide +kernel⟩, ⟨service, by decide +kernel⟩, ⟨eth7 6, by decide +kernel⟩⟩

/-- Base n with an entry of a source and a role on Ethernet port 7, in a state. -/
def based (n source role : Nat) (st : BaseSt) (f : Base → Base) (s : State) : State :=
  s.updBase n fun x => f { x with st := st, entry := some ([BitVec.ofNat 8 n, BitVec.ofNat 8 source, BitVec.ofNat 8 role, 0, 7] ++ zeros 59) }

def delayResp : PtpMsg :=
  { kind := 9, domain := 0, twoStep := false, seq := 0, source := zeros 10, stamp := 0, correction := 0, gm := zeros 8, clockClass := 6, accuracy := 0,
    variance := 0, priority1 := 0, priority2 := 0, stepsRemoved := 0 }

def mastered (b : Base) : Base := { b with ptp := { b.ptp with master := true, parent := zeros 10, foreign := [zeros 35], reqSeq := 0 } }

/-- Base 3 as a PTP client of port 7 that measures the delay peer to peer. -/
def p2pBase : State := service.updBase 3 fun x => { x with st := .locked, entry := some ([3, 1, 1, 0, 7, 0, 1] ++ zeros 57) }

theorem meets_TimeCommandsAndNetworkTime :
    Comes formTimRead ∧
    Meets formTimSet (fun t c => fld c.payload 0 1 = 3 ∧ (t.base 3).entry.isSome = true ∧ (t.base 3).source = 0 ∧ fld c.payload 16 4 = 999999999) ∧
    Meets formTimSet (fun t c => fld c.payload 0 1 = 3 ∧ (t.base 3).entry.isSome = true ∧ (t.base 3).source = 1) ∧
    Meets formTimPtpStatus (fun t c => fld c.payload 0 1 = 3 ∧ (t.base 3).entry.isSome = true ∧ (t.base 3).role ≠ 0) ∧
    (∃ s : State, s.time.bases.length = 5) ∧
    (∃ (x : Frame) (s : State), 63 < s.ctxs.length ∧ x.timeBase = 3 ∧ (∃ z ∈ s.sensors, ∃ o ∈ z.openFrames, o.ctx = x.ctx ∧ o.seq = some x.seq) ∧
      x ∈ (s.ctx 63).frames ∧ x ∈ (s.ctx 63).refusalLog) ∧
    (∃ s : State, s.ethAt 7 = some (7, 0) ∧ (s.port 7 0).st = 6 ∧
      ∀ n, n < 4 → ((s.base n).entry.isSome && (s.base n).role != 0 && (s.base n).ethPort == 7 && (s.base n).domain == delayResp.domain) =
        (n == 3)) ∧
    (∃ s : State, (s.base 3).role = 1 ∧ (s.base 3).ptp.master = true ∧ fit 10 delayResp.source = (s.base 3).ptp.parent ∧
      (s.base 3).p2p = false ∧ delayResp.seq = (s.base 3).ptp.reqSeq) ∧
    (∃ s : State, 3 < s.time.bases.length ∧ (s.base 3).entry.isSome = true ∧ (s.base 3).source = 1 ∧ (s.base 3).ptp.master = true ∧
      (∀ f ∈ (s.base 3).ptp.foreign, sub f 16 10 = (s.base 3).ptp.parent) ∧
      (∀ f ∈ (s.base 3).ptp.foreign, fld f 27 8 + fld (s.base 3).ent 11 1 * (s.base 3).announceNs ≤ s.now) ∧
      (s.base 3).ptp.foreign ≠ [] ∧ (s.base 3).st = .locked) ∧
    (∃ s : State, (s.base 0).entry.isSome = true ∧ (s.base 0).role = 2 ∧ (s.base 0).st ≠ .unset) ∧
    (∃ s : State, (s.base 3).entry.isSome = true ∧ (s.base 3).role = 1 ∧ (s.base 3).p2p = false ∧ (s.base 3).ptp.master = true) ∧
    (∃ s : State, (s.base 3).entry.isSome = true ∧ (s.base 3).role ≠ 0 ∧ (s.base 3).p2p = true) ∧
    (∃ s : State, s.obs.counters.any (fun c => c.selects 0x11) = false) ∧
    (∃ s : State, fld s.timeGlobal 3 1 = 5) ∧
    (∃ s : State, fld s.timeGlobal 3 1 = 4 ∧ (s.base 4).st ≠ .off ∧ (s.base 4).st ≠ .unset) ∧
    (∃ s : State, fld s.timeGlobal 3 1 = 4 ∧ (s.base 4).st = .unset) := by
  let open_ : Frame := { aFrame 0 1 with timeBase := 3 }
  let global (p : Byte) (s : State) : State := s.updTime fun t => { t with global := some ([0, 0xFF, 0, p] ++ zeros 44) }
  exact ⟨comes (sends service 0x0601 []) (.slot 0) (by decide +kernel),
    meets (sends (based 3 0 0 .unset id service) 0x0602 ([3] ++ zeros 15 ++ le 4 999999999 ++ zeros 4)) (.slot 0) (by decide +kernel) (by decide +kernel),
    meets (sends (based 3 1 1 .unset id service) 0x0602 ([3] ++ zeros 23)) (.slot 0) (by decide +kernel) (by decide +kernel),
    meets (sends (based 3 1 1 .unset id service) 0x0603 [3, 0, 0, 0]) (.slot 0) (by decide +kernel) (by decide +kernel),
    ⟨service, by decide +kernel⟩,
    ⟨open_, (service.updCtx 63 fun x => { x with frames := [open_], refusalLog := [open_] }).updSensor 0 fun x => { x with openFrames := [openNow] },
      by decide +kernel⟩,
    ⟨based 3 1 1 .unset id (eth7 6), by decide +kernel⟩,
    ⟨based 3 1 1 .locked mastered service, by decide +kernel⟩, ⟨based 3 1 1 .locked mastered service, by decide +kernel⟩,
    ⟨based 0 0 2 .free id service, by decide +kernel⟩, ⟨based 3 1 1 .locked mastered service, by decide +kernel⟩,
    ⟨p2pBase, by decide +kernel⟩, ⟨service, by decide +kernel⟩, ⟨global 5 service, by decide +kernel⟩,
    ⟨global 4 (based 4 0 0 .free id service), by decide +kernel⟩, ⟨global 4 (based 4 0 0 .unset id service), by decide +kernel⟩⟩

theorem meets_ServoAndReferences :
    (∃ s : State, s.time.bases.length = 5 ∧ (s.base 3).st = .acquiring ∧ (s.base 3).goodRun = 7) ∧
    (∃ s : State, s.time.bases.length = 5 ∧ (s.base 3).st = .locked) ∧ (∃ s : State, (s.base 3).st = .unset ∧ (s.base 3).source ≠ 2) ∧
    (∃ s : State, s.time.onTref = true) ∧ (∃ s : State, s.time.trefSelected = true ∧ s.time.trefLost = true) ∧
    (∃ s : State, s.running = true ∧ s.basesOf 2 = [3] ∧ s.time.ppsLost = false ∧ (s.base 3).st = .unset ∧ s.time.bases.length = 5) ∧
    (∃ s : State, s.running = true ∧ s.basesOf 3 = [4] ∧ s.time.genlockLost = false ∧ s.time.bases.length = 5 ∧ (s.base 4).st = .locked) ∧
    (∃ s : State, (s.base 4).entry.isSome = true ∧ s.time.bases.length = 5) ∧
    (∃ s : State, s.follows = some 3 ∧ (s.base 3).st ≠ .off ∧ (s.base 3).st ≠ .unset) ∧
    (∃ s : State, s.basesOf 2 ≠ [] ∧ s.time.ppsLost = false ∧ s.time.bases.length = 5 ∧
      (∀ b, b ∈ s.basesOf 2 → (s.base b).lastUpdate.getD 0 + 2000000000 ≤ s.now) ∧ 3 ∈ s.basesOf 2 ∧ (s.base 3).st = .locked) ∧
    (∃ s : State, s.basesOf 3 ≠ [] ∧ s.time.genlockLost = false ∧ s.time.bases.length = 5 ∧
      ((s.base 4).lastUpdate.getD 0 : Nat) + 4 * (s.base 4).period ≤ (s.now : Nat) ∧ 4 ∈ s.basesOf 3 ∧ (s.base 4).st = .locked) ∧
    (∃ s : State, s.nimlek = true ∧ s.time.onTref = false ∧ s.xtalChannel = some 11 ∧
      (s.health.remotes.getD 11 Remote.reset).valid = true ∧ s.time.xtalStale = false ∧ s.now < s.time.xtalTbm.getD 0 + 1000000000) ∧
    (∃ s : State, s.xtalChannel = some 11 ∧ s.time.xtalStale = false ∧ s.time.xtalTbm.getD 0 + 1000000000 ≤ s.now) ∧
    (∃ s : State, (s.base 4).slew ≠ 0) ∧ (∃ s : State, (s.base 4).residual ≠ 0 ∧ (s.base 4).slew = 0 ∧ s.time.bases.length = 5) := by
  let crystal : State := { service with
    time := { service.time with global := some ([0, 11, 0, 0xFF] ++ zeros 44) },
    health := { service.health with remotes := upd service.health.remotes 11 fun r => { r with valid := true } } }
  let long (s : State) : State := s.updTime fun t => { t with tbm := 4294967296 * 10000000000 }
  exact ⟨⟨based 3 1 1 .acquiring (fun x => { x with goodRun := 7 }) service, by decide +kernel⟩,
    ⟨based 3 1 1 .locked id service, by decide +kernel⟩, ⟨based 3 1 1 .unset id service, by decide +kernel⟩,
    ⟨service.updTime fun t => { t with onTref := true }, by decide +kernel⟩,
    ⟨service.updTime fun t => { t with trefSelected := true, trefLost := true }, by decide +kernel⟩,
    ⟨based 3 2 0 .unset id service, by decide +kernel⟩, ⟨based 4 3 0 .locked id service, by decide +kernel⟩,
    ⟨based 4 3 0 .locked id service, by decide +kernel⟩, ⟨based 3 1 1 .free id (based 4 7 0 .locked id service), by decide +kernel⟩,
    ⟨long (based 3 2 0 .locked id service), by decide +kernel⟩, ⟨long (based 4 3 0 .locked id service), by decide +kernel⟩,
    ⟨crystal, by decide +kernel⟩, ⟨long crystal, by decide +kernel⟩, ⟨based 4 3 0 .locked (fun x => { x with residual := 1 }) service, by decide +kernel⟩,
    ⟨based 4 3 0 .locked (fun x => { x with residual := 1 / 1000000000 }) service, by decide +kernel⟩⟩

/-! ## Trust -/

def staged (total : Nat) (got : List Byte) (s : State) : State := s.updTrust fun t => { t with staging := some (1, total, got) }
def fused (f : Fuses → Fuses) (s : State) : State := s.updNv fun n => { n with fuses := f n.fuses }

theorem meets_FirmwareCommands :
    Meets formTrsFwBegin (fun t c => fld c.payload 0 4 = 1 ∧ fld c.payload 4 4 = imageLimit 1 ∧ t.trust.tried = false) ∧
    Meets formTrsFwData (fun t c => t.trust.staging = some (1, 2, [5]) ∧ fld c.payload 0 4 = 1 ∧ 1 + (c.payload.drop 8).length = 2) ∧
    Meets formTrsFwEnd (fun t _ => t.trust.staging = some (1, [(5 : Byte)].length, [5])) ∧
    Meets formTrsFwConfirm (fun t _ => t.trust.tried = true) ∧ Meets formTrsFwConfirm (fun t _ => t.trust.tried = false) ∧
    Meets formTrsSvnCommit (fun t c => t.nv.fuses.svn < fld c.payload 0 1 ∧ fld c.payload 0 1 ≤ t.trust.fsSvn ∧ fld c.payload 0 1 ≤ t.trust.fwSvn ∧
      fld c.payload 0 1 = 48 ∧ t.trust.tried = false ∧ t.trust.fusing = none) ∧
    (∃ s : State, s.nv.fuses.svn = 0 ∧ 0 < 48 ∧ s.trust.fusing = none ∧ s.nv.fuses.owners.length = 3 ∧ s.nv.fuses.lifecycle ≠ 0 ∧
      s.nv.fuses.lifecycle ≤ 2) ∧
    (∃ (w : FuseWork) (s : State), s.trust.fusing = some w ∧ w.steps = [.svn 1, .svn 2]) :=
  ⟨meets (sends service 0x0704 (le 4 1 ++ le 4 (imageLimit 1))) (.slot 0) (by decide +kernel) (by decide +kernel),
    meets (sends (staged 2 [5] service) 0x0705 (le 4 1 ++ zeros 4 ++ [6])) (.slot 0) (by decide +kernel) (by decide +kernel),
    meets (sends (staged 1 [5] service) 0x0706 []) (.slot 0) (by decide +kernel) (by decide +kernel),
    meets (sends (service.updTrust fun t => { t with tried := true }) 0x0708 []) (.slot 0) (by decide +kernel) (by decide +kernel),
    meets (sends service 0x0708 []) (.slot 0) (by decide +kernel) (by decide +kernel),
    meets (sends (service.updTrust fun t => { t with fsSvn := 48, fwSvn := 48 }) 0x0709 [48, 0, 0, 0]) (.slot 0) (by decide +kernel)
      (by decide +kernel), ⟨fused (fun f => { f with svn := 0 }) service, by decide +kernel⟩,
    ⟨{ cmd := aCmd 0x0709, goal := .svn 0 2, steps := [.svn 1, .svn 2] },
      service.updTrust fun t => { t with fusing := some { cmd := aCmd 0x0709, goal := .svn 0 2, steps := [.svn 1, .svn 2] } }, rfl, rfl⟩⟩

set_option maxRecDepth 100000 in
theorem meets_IdentityAndDebugCommands :
    Meets formTrsMuster (fun t _ => t.nv.fuses.lifecycle ≠ 0) ∧ Meets formTrsMuster (fun t _ => t.nv.fuses.lifecycle = 0) ∧
    Meets formTrsCert (fun t c => fld c.payload 0 1 = 2 ∧ (t.certOf (fld c.payload 0 1)).isSome = true) ∧
    Meets formTrsOwnerEnrol (fun t c => c.len = 2600 ∧ t.nv.fuses.lifecycle = 1 ∧ t.nv.fuses.freeSlot = some 2 ∧ fld c.payload 0 1 = 2 ∧ t.trust.fusing = none) ∧
    Meets formTrsRecipients (fun _ c => fld c.payload 0 1 = 31 ∧ fld c.payload 1 1 = 1 ∧ c.len = 8 + 1568 * fld c.payload 1 1) ∧
    Comes formTrsDebugChallenge ∧
    Meets formTrsDebugUnlock (fun t _ => bit t.policyFlags 2 = false ∧ t.streams.any (·.takeOpen) = false ∧
      t.trust.challenge = some ([], 0) ∧ t.now ≤ 60000000000) ∧
    Meets formTrsDebugUnlock (fun t _ => bit t.policyFlags 2 = false ∧ t.streams.any (·.takeOpen) = false ∧ t.trust.challenge = none) ∧
    Meets formTrsDebugUnlock (fun t _ => bit t.policyFlags 2 = false ∧ t.streams.any (·.takeOpen) = false ∧
      t.trust.challenge = some ([], 0) ∧ 60000000000 < t.now) := by
  let asked (s : State) : State := s.updTrust fun t => { t with challenge := some ([], 0) }
  let late (s : State) : State := s.updTime fun t => { t with tbm := 4294967296 * 60000000001 }
  exact ⟨meets (sends service 0x0701 (zeros 64)) (.slot 0) (by decide +kernel) (by decide +kernel),
    meets (sends (fused (fun f => { f with lifecycle := 0 }) service) 0x0701 (zeros 64)) (.slot 0) (by decide +kernel) (by decide +kernel),
    meets (sends service 0x0702 [2, 0, 0, 0]) (.slot 0) (by decide +kernel) (by decide +kernel),
    meets ((ringsOver (.mgmt 0) (fused (fun f => { f with lifecycle := 1, ownerUsed := [true, true, false] }) service) 0x0703 0xF0 2600).updNcp fun n =>
      { n with mem := n.mem.writeN ((Mbox.mgmt 0).base + 32) [2] }) (.mgmt 0)
      (by decide +kernel) (by decide +kernel),
    meets ((ringsOver (.slot 0) service 0x070A 0 1576).updNcp fun n => { n with mem := n.mem.writeN 0x100020 [31, 1] }) (.slot 0) (by decide +kernel) (by decide +kernel),
    comes (sends service 0x070B []) (.slot 0) (by decide +kernel),
    meets (ringsOver (.slot 0) (asked service) 0x070C 0 4628) (.slot 0) (by decide +kernel) (by decide +kernel),
    meets (ringsOver (.slot 0) service 0x070C 0 4628) (.slot 0) (by decide +kernel) (by decide +kernel),
    meets (ringsOver (.slot 0) (late (asked service)) 0x070C 0 4628) (.slot 0) (by decide +kernel) (by decide +kernel)⟩

/-! ## Health, errors, self-tests -/

/-- Entry 14 of the power map at 12,000 mV with a settle time of 1 µs, in a state. -/
def powered (st : PwrSt) (f : PwrEntry → PwrEntry) : State :=
  service.updPwr 14 fun x => f { x with entry := some (zeros 4 ++ le 2 12000 ++ zeros 4 ++ le 2 1 ++ zeros 4), st := st, settled := none, badReads := 0 }

theorem meets_HealthEvaluationAndCommands :
    (∃ s : State, s.running = true ∧ s.nimlek = true ∧ s.cfg.arming = none ∧ s.health.levels.length = 5 ∧ s.boardDue = false ∧
      ∀ x ∈ s.health.power, x.entry.isSome = true → x.st = .fault → x.faultGen = s.liveNumber) ∧
    (∃ s : State, s.health.power.length = 15 ∧ (s.pwr 14).entry.isSome = true ∧ (s.pwr 14).st = .fault ∧ (s.pwr 14).faultGen ≠ s.liveNumber) ∧
    Comes formHltSensors ∧ Comes formHltFurlLog ∧ Comes formHltAgeing :=
  ⟨⟨service, by decide +kernel⟩, ⟨powered .fault fun x => { x with faultGen := 1 }, by decide +kernel⟩, comes (sends service 0x0820 []) (.slot 0) (by decide +kernel),
    comes (sends service 0x0821 []) (.slot 0) (by decide +kernel), comes (manages service 0x0822 []) (.mgmt 0) (by decide +kernel)⟩

theorem meets_HealthReadingsAndPowerMap :
    (∃ s : State, s.running = true ∧ s.nimlek = true ∧ s.power.railsUp = true ∧ s.health.stackTemp.length = 4 ∧
      s.health.stackTbm.length = 4 ∧ s.health.stackUnread.length = 4 ∧ s.mem.hbm.length = 4 ∧ s.health.stackUnread.getD 3 false = false ∧
      s.health.remotes.length = 12 ∧ (s.health.remotes.getD 11 Remote.reset).mode ≠ 0 ∧ s.health.rails.length = 24 ∧
      (s.health.rails.getD 23 Rail.reset).fault = false ∧ s.health.droops.length = 8 ∧ s.health.vcore ≤ 840 ∧
      ((List.range 8).map (fun r => (s.droopsIn r).length)).sum ≤ 1000 ∧ s.health.stackTbm.getD 3 none = none) ∧
    (∃ s : State, s.running = true ∧ s.nimlek = true ∧ s.health.stackUnread.getD 3 false = false ∧ s.health.stackTbm.getD 3 none = some 0 ∧
      s.now < 0 + 10000000) ∧
    (∃ s : State, s.running = true ∧ s.nimlek = true ∧ 99 ≤ s.health.avsHighRun ∧ s.mayRaise s.health.lastRaise 1000000000 = true ∧
      705 ≤ s.health.vcore) ∧
    (∃ s : State, s.running = true ∧ s.power.railsUp = true ∧ s.nimlek = true ∧ s.setPoint 23 < 20 * ((0 : Int) - s.setPoint 23).natAbs ∧
      (s.health.rails.getD 23 Rail.reset).fault = false ∧ ∃ x, (s.health.rails.getD 23 Rail.reset).out5 = some x ∧ x + 100000 ≤ s.now) ∧
    (∃ s : State, s.health.power.length = 15 ∧ (s.pwr 14).st = .ramping ∧ 0 * 100 < 95 * (s.pwr 14).mv ∧ 95 * (s.pwr 14).mv ≤ 12000 * 100 ∧
      (s.pwr 14).settled = none ∧ 1 ≤ fld (s.pwr 14).ent 10 2) ∧
    (∃ s : State, s.health.power.length = 15 ∧ (s.pwr 14).st = .ramping ∧ (s.pwr 14).settled = some 0 ∧ 0 + 1000 * fld (s.pwr 14).ent 10 2 ≤ s.now) ∧
    (∃ s : State, s.health.power.length = 15 ∧ (s.pwr 14).st = .on ∧ 9 * (s.pwr 14).mv ≤ 12000 * 10 ∧ 12000 * 10 ≤ 11 * (s.pwr 14).mv ∧
      11 * (s.pwr 14).mv < 65535 * 10 ∧ (s.pwr 14).badReads = 0) ∧
    (∃ s : State, s.health.power.length = 15 ∧ (s.pwr 14).st = .on ∧ 1 ≤ (s.pwr 14).badReads) ∧
    (∃ s : State, s.health.power.length = 15 ∧ (s.pwr 14).st = .ramping ∧ (s.pwr 14).settled = none ∧
      (s.pwr 14).rampTbm + 1000000 * (s.pwr 14).rampMs ≤ s.now) ∧
    (∃ s : State, s.health.power.length = 15 ∧ (s.pwr 14).st = .ramping ∧ (s.pwr 14).settled = none ∧
      s.now < (s.pwr 14).rampTbm + 1000000 * (s.pwr 14).rampMs) := by
  let timed (s : State) : State := s.updTime fun t => { t with tbm := 4294967296 * 100000 }
  let remote : State := { service with
    health := { service.health with remotes := upd service.health.remotes 11 fun r => { r with mode := 1 } } }
  let out : State := { timed service with
    health := { service.health with rails := upd service.health.rails 23 fun r => { r with out5 := some 0 } } }
  let read3 : State := service.updHealth fun h => { h with stackTbm := h.stackTbm.set 3 (some 0) }
  exact ⟨⟨remote, by decide +kernel⟩, ⟨read3, by decide +kernel⟩, ⟨service.updHealth fun h => { h with avsHighRun := 99 }, by decide +kernel⟩, ⟨out, by decide +kernel, by decide +kernel, by decide +kernel, by decide +kernel, by decide +kernel, 0, by decide +kernel⟩,
    ⟨powered .ramping id, by decide +kernel⟩, ⟨timed (powered .ramping fun x => { x with settled := some 0 }), by decide +kernel⟩,
    ⟨powered .on id, by decide +kernel⟩, ⟨powered .on fun x => { x with badReads := 1 }, by decide +kernel⟩,
    ⟨later (powered .ramping id), by decide +kernel⟩, ⟨powered .ramping id, by decide +kernel⟩⟩

def laneLoc : Loc := { Loc.none with kind := 2, unit := 55, sub := 15 }
def retires (l : Loc) (s : State) : State := s.updNv fun n => { n with retired := [(l, 0, 0)] }
def observing (sources : Nat) (s : State) : State := s.updObs fun o => { o with set := some (zeros 4 ++ le 4 sources ++ zeros 88) }

theorem meets_ErrorsAndTheirCommands :
    Meets formObsSelftest (fun t c => fld c.payload 0 1 = 2 ∧ Loc.ofBytes (sub c.payload 8 16) = laneLoc ∧ laneLoc.fault 2 = none ∧
      t.obs.tests.any (fun x => x.loc.same laneLoc) = false ∧ t.isRetired laneLoc = false ∧
      (t.obs.tests.filter (fun x => !x.running)).length < 64) ∧
    Meets formObsErrHistory (fun _ c => fld c.payload 4 2 = 255) ∧ Meets formObsRetired (fun _ c => fld c.payload 4 2 = 511) ∧
    Meets formObsUnretire (fun t c => Loc.ofBytes c.payload = laneLoc ∧ t.nv.retired.any (fun r => r.1.same laneLoc) = true) ∧
    Meets formObsVector (fun _ c => fld c.payload 0 1 = 22) ∧
    Meets formObsHalyardArm (fun t c => fld c.payload 0 1 = 4 ∧ t.halSource 4 = true ∧ (t.base 4).st ≠ .off ∧ fld c.payload 1 1 = 3 ∧
      fld c.payload 16 4 = 999999999) ∧
    Meets formObsHalyardFire (fun t _ => t.halSource 1 = true) ∧
    (∃ s : State, s.nimlek = true) ∧ Loc.fault { Loc.none with kind := 3, unit := 0, sub := 255 } 3 = none ∧ Loc.fault (Loc.ofEngine 0) 4 = none ∧
    (∃ (i : ErrInfo) (s : State), 8 < s.obs.classCount.length ∧ i.flags = 0) :=
  ⟨meets (sends service 0x0901 ([2] ++ zeros 7 ++ [2, 55, 15] ++ zeros 13)) (.slot 0) (by decide +kernel) (by decide +kernel),
    meets (sends service 0x0902 (zeros 4 ++ le 2 255 ++ zeros 2)) (.slot 0) (by decide +kernel) (by decide +kernel),
    meets (manages service 0x0903 (zeros 4 ++ le 2 511 ++ zeros 2)) (.mgmt 0) (by decide +kernel) (by decide +kernel),
    meets (sends (retires laneLoc service) 0x0904 ([2, 55, 15] ++ zeros 13)) (.slot 0) (by decide +kernel) (by decide +kernel),
    meets (sends service 0x0905 ([22, 0] ++ le 2 0x0904)) (.slot 0) (by decide +kernel) (by decide +kernel),
    meets (sends (observing 16 (based 4 3 0 .locked id service)) 0x0906 ([4, 3] ++ zeros 14 ++ le 4 999999999 ++ zeros 4)) (.slot 0)
      (by decide +kernel) (by decide +kernel),
    meets (sends (observing 2 service) 0x0907 []) (.slot 0) (by decide +kernel) (by decide +kernel),
    ⟨service, by decide +kernel⟩, by decide, by decide,
    ⟨{ master := 0 }, service, by decide +kernel⟩⟩

def laneTest (running : Bool) : Test := { cls := 2, loc := laneLoc, entries := [1], running := running, since := 0 }
def pairTest : Test := { cls := 5, loc := { Loc.none with kind := 5 }, entries := [1], running := false, since := 0 }
def testing (x : Test) : State := service.updObs fun o => { o with tests := [x] }
def found (fail : Bool) : TestFacts := { fail := fail, result := b2n fail, dq := [] }

theorem meets_SelftestsAndHalyard :
    (∃ (x : Test) (s : State), s.obs.tests[0]? = some x ∧ s.nimlek = true ∧ s.mayStart x = true) ∧
    (∃ (x : Test) (s : State), s.obs.tests[0]? = some x ∧ s.nimlek = true ∧ s.mayStart x = false ∧ s.mayEnd x = false) ∧
    (∃ (x : Test) (s : State), s.obs.tests[0]? = some x ∧ s.nimlek = true ∧ s.mayEnd x = true ∧ (s.testPasses x (found false) false).1 = true) ∧
    (∃ (x : Test) (s : State), s.obs.tests[0]? = some x ∧ s.nimlek = true ∧ s.mayEnd x = true ∧ (s.testPasses x (found true) false).1 = false ∧
      x.cls = 2) ∧
    (∃ (x : Test) (s : State), s.obs.tests[0]? = some x ∧ s.nimlek = true ∧ x.running = false ∧ x.cls ≠ 2 ∧ x.cls ≠ 6 ∧
      x.since + 60000000000 ≤ s.now) ∧
    (∃ (x : Test) (s : State), s.obs.tests[0]? = some x ∧ s.nimlek = true ∧ x.running = false ∧ x.cls = 2 ∧ s.testScanning x = false ∧
      x.since + 60000000000 ≤ s.now) ∧
    (∃ (x : Test) (s : State), s.obs.tests[0]? = some x ∧ s.nimlek = true ∧ s.now < x.since + 60000000000) ∧
    (∃ s : State, s.obs.halPending = none ∧ s.mayRaise s.obs.halLast 1000 = true ∧ s.halListed 0x0904 = false) ∧
    (∃ s : State, s.obs.halPending = none ∧ s.mayRaise s.obs.halLast 1000 = false) ∧
    (∃ s : State, s.obs.halPending = some (1, 0) ∧ s.mayRaise s.obs.halLast 1000 = true) ∧
    (∃ s : State, s.obs.halPending = some (1, 0) ∧ s.mayRaise s.obs.halLast 1000 = false) ∧
    (∃ s : State, s.hostReaches = true) ∧ (∃ s : State, s.hostReaches = false) ∧
    (∃ s : State, s.running = true ∧ s.halSource 2 = true) ∧ (∃ s : State, s.halSource 2 = false) ∧
    (∃ s : State, s.running = true ∧ s.obs.matches_.getD 3 none = some (4, 0) ∧ (s.base 4).st ≠ .off ∧ 0 ≤ (s.base 4).time) ∧
    (∃ s : State, s.running = true ∧ s.obs.matches_.getD 3 none = some (4, 1) ∧ (s.base 4).st ≠ .off ∧ (s.base 4).time < 1) := by
  let armed (at_ : Int) : State := (based 4 3 0 .locked (fun x => { x with time := 0 }) service).updObs fun o =>
    { o with matches_ := o.matches_.set 3 (some (4, at_)) }
  let minute (s : State) : State := s.updTime fun t => { t with tbm := 4294967296 * 60000000000 }
  let open_ (s : State) : State := s.updShroud 55 fun x => { x with lanes := upd x.lanes 15 fun y => { y with eyeH := 20, eyeV := 25 } }
  exact ⟨⟨laneTest false, testing (laneTest false), by decide +kernel⟩, ⟨{ laneTest false with loc := { laneLoc with unit := 0 } },
      (camera 0).updObs (fun o => { o with tests := [{ laneTest false with loc := { laneLoc with unit := 0 } }] }), by decide +kernel⟩,
    ⟨laneTest true, open_ (testing (laneTest true)), by decide +kernel⟩, ⟨laneTest true, testing (laneTest true), by decide +kernel⟩,
    ⟨pairTest, minute (testing pairTest), by decide +kernel⟩, ⟨laneTest false, minute (testing (laneTest false)), by decide +kernel⟩,
    ⟨pairTest, testing pairTest, by decide +kernel⟩, ⟨service, by decide +kernel⟩,
    ⟨service.updObs fun o => { o with halLast := some service.now }, by decide +kernel⟩,
    ⟨service.updObs fun o => { o with halPending := some (1, 0) }, by decide +kernel⟩,
    ⟨service.updObs fun o => { o with halPending := some (1, 0), halLast := some service.now }, by decide +kernel⟩,
    ⟨service, by decide +kernel⟩, ⟨State.reset, by decide +kernel⟩, ⟨observing 4 service, by decide +kernel⟩, ⟨service, by decide +kernel⟩,
    ⟨armed 0, by decide +kernel⟩, ⟨armed 1, by decide +kernel⟩⟩

/-! ## Small steps and functions: the expected values are the spec's or a published standard's -/

/-- The state after a command; the state itself where it does not go on. -/
def after (c : Instr) (s : State) : State := match exec c s with | .next t => t | _ => s

/-- The check values of CRC-32C and of the CRC-16 for the digits 1 to 9. -/
theorem test_crc_check_values : crc32c [0x31, 0x32, 0x33, 0x34, 0x35, 0x36, 0x37, 0x38, 0x39] = 0xE3069283 ∧
    crc16 [0x31, 0x32, 0x33, 0x34, 0x35, 0x36, 0x37, 0x38, 0x39] = 0x29B1 := by decide +kernel

/-- FIPS 202: SHA3-512 of the three letters abc, its first eight bytes. -/
theorem test_sha3_abc : (sha3 [0x61, 0x62, 0x63]).take 8 = [0xB7, 0x51, 0x85, 0x0B, 0x1A, 0x57, 0x16, 0x8A] := by decide +kernel

/-- IEEE 754: one tenth in binary32, the largest binary16, and a tie that goes to even. -/
theorem test_floats : f32Bits (1 / 10) = 0x3DCCCCCD ∧ f16Bits 65504 = 0x7BFF ∧ f16Bits (1 + 1 / 2048) = 0x3C00 ∧
    f16Bits (1 + 3 / 2048) = 0x3C02 := by decide +kernel

/-- R617: entered at the threshold, left below threshold less hysteresis. -/
theorem test_levels : levelOf [90, 95, 100] 4 90 0 = 1 ∧ levelOf [90, 95, 100] 4 86 1 = 1 ∧ levelOf [90, 95, 100] 4 85 1 = 0 ∧
    levelOf [90, 95, 100] 4 100 0 = 3 ∧ levelOf [90, 95, 100] 4 95 3 = 2 := by decide

/-- R22, R24: a raw tile of 12-bit samples is 1,536 bytes; a width of 65 takes two tiles, a height of 16 one. -/
theorem test_tiles : 128 * 12 = 1536 ∧ tilesX 65 = 2 ∧ tilesY 16 = 1 ∧ tilesY 17 = 2 := by decide

/-- R116: slot 0 of an open session rings with a heartbeat in it; slot 59, which no session holds, does not. -/
theorem test_doorbell_rings : ((after (.doorbell false 1) (service.updNcp fun n => { n with mem := n.mem.writeN 0x100000 (le 2 0x0103) })).slot 0).st = .rung ∧
    ((after (.doorbell true 0x08000000) service).slot 59).st = .idle := by decide +kernel

/-- R113: a write to a slot that is not idle leaves its bytes as they were; one to an idle slot lands. -/
theorem test_slot_write : (after (.slotWrite 0x100000 [7, 7, 7, 7]) service).boxBytes (.slot 0) 0 4 = [7, 7, 7, 7] ∧
    (after (.slotWrite 0x100000 [7, 7, 7, 7]) (service.updSlot 0 fun x => { x with st := .rung })).boxBytes (.slot 0) 0 4 = zeros 4 := by
  decide +kernel

/-- SESSION_CLOSE: a session that closes itself is open no more. -/
theorem test_session_close_idles : ((after (.sessionClose (.slot 0)) (sends service 0x0102 [])).session 0).isOpen = false := by decide +kernel

/-- R61, R64: two comparators take a running device to FURLED. -/
theorem test_furl_vote : (after (.furlVote 1 3) service).power.condition = .furled := by decide +kernel

/-- R61: the always-on supply is lost. -/
theorem test_supply_loss : (after (.supplyLoss true) service).power.vddAon = false := by decide +kernel

/-- R527: a vector that is unmasked with its pending bit set sends its message. -/
theorem test_unmask_sends : ((after (.msixUnmask 255) { service with vecs := upd service.vecs 255 fun x =>
    { x with pendingBit := true } }).vec 255).pendingBit = false := by decide +kernel

/-- R500: a retune reaches each pseudo-channel that is ready. -/
theorem test_retune : ((after .timingRetune (trained service)).pchan 127).retuned = ((trained service).pchan 127).retuned + 1 := by decide +kernel

/-- R650: the pulse that the host fires at GLB takes the next number; a second within 1 µs waits. -/
theorem test_halyard_spacing : (after (.glbHalyardFire 1) service).obs.halSeq = 1 ∧
    (after (.glbHalyardFire 1) (after (.glbHalyardFire 1) service)).obs.halPending = some (1, 0) := by decide +kernel

/-- R538: a margin scan asks the endpoint in L0. -/
theorem test_margin_scan : (after .flexMarginScan service).ep.scanning = true := by decide +kernel

/-- R35: a job that its engine completes is COMPLETE, and keeps its tag. -/
theorem test_job_retire_frees : (after (.jobRetire 0) (withJob { aJob with st := .complete })).byTag 0 = none := by decide +kernel

/-- RFC 1951: a block of the fixed codes, with the text abc six times as three literals and a match. -/
theorem test_inflate : (let r := (Inflate.start 0).job [75, 76, 74, 78, 68, 69, 0] 100
    (r.2.made.reverse, r.2.stopped)) = ((List.replicate 6 [0x61, 0x62, 0x63]).flatten, true) := by decide +kernel

/-- R233: an NRZ lane that arrives inverted matches with header 01 and each byte inverted; a PAM4 lane, with header 00 and each byte
XOR 0x55. -/
theorem test_inverted_lane :
    (matchForm true { header := 1, bytes := invertBytes true ([0x2D, 7, 0, 1, 0, 0] ++ trainPattern), run := 288 }).map (·.1) = some true ∧
    (matchForm false { header := 0, bytes := invertBytes false ([0x2D, 7, 0, 1, 0, 0] ++ trainPattern), run := 288 }).map (·.2) =
      some ([0x2D, 7, 0, 1, 0, 0] ++ trainPattern) ∧
    matchForm false { header := 0, bytes := [0x2D, 7, 0, 1, 0, 0] ++ trainPattern, run := 288 } = none := by decide

/-- R593: the committed security version is programmed one bit a cycle. -/
theorem test_fuse_bit : let c := aCmd 0x0709
    let s := (service.updTrust fun t => { t with fusing := some { cmd := c, goal := .svn 0 2, steps := [.svn 1, .svn 2] } }).fuseStep
    s.nv.fuses.svn = 1 ∧ (s.trust.fusing.map (·.steps)) = some [.svn 2] := by decide +kernel


/-- FIPS 197: entries of the S-box, and its worked column of MixColumns. -/
theorem test_aes_steps : sboxOf 0x53 = 0xED ∧ sboxOf 0 = 0x63 ∧ mixColumn [0xDB, 0x13, 0x53, 0x45] = [0x8E, 0x4D, 0xA1, 0xBC] := by
  decide +kernel

/-- R410: 2^x at whole x. -/
theorem test_exp2 : exp2R 0 = 1 ∧ exp2R 3 = 8 ∧ exp2R (-1) = 1 / 2 := by decide +kernel

/-- R381: a negative value that binary16 rounds to zero keeps its sign. -/
theorem test_negative_zero : f16Bits (-1 / 2 ^ 40) = 0x8000 ∧ f16Bits 0 = 0 := by decide +kernel

/-- R456: the next namespace is identified after the one before, and after the last the port is READY. -/
theorem test_namespaces :
    ((after (.nvmeCompletion 27 answer) (driveWith .init [nvme 7])).drive 27).cmds.map (·.nsid) = [2] := by
  decide +kernel
end Sys2Proof.Tests
end

/-! SUPPORT. State.reset, entry by entry: every table holds its reset entry at every number. -/

namespace Sys2Proof.Machine

open Sys2Proof

@[simp] theorem reset_slot (n : Nat) : State.reset.slot n = Slot.reset := List.getElem?_getD_replicate_default_eq ..
@[simp] theorem reset_session (n : Nat) : State.reset.session n = Session.reset := List.getElem?_getD_replicate_default_eq ..
@[simp] theorem reset_shroud (n : Nat) : State.reset.shroud n = Shroud.reset := List.getElem?_getD_replicate_default_eq ..
@[simp] theorem reset_ctx (c : Nat) : State.reset.ctx c = Context.reset := List.getElem?_getD_replicate_default_eq ..
@[simp] theorem reset_stream (n : Nat) : State.reset.stream n = Stream.reset := List.getElem?_getD_replicate_default_eq ..
@[simp] theorem reset_drive (p : Nat) : State.reset.drive p = Drive.reset := List.getElem?_getD_replicate_default_eq ..
@[simp] theorem reset_hbm (k : Nat) : State.reset.hbm k = Stack.reset := List.getElem?_getD_replicate_default_eq ..
@[simp] theorem reset_base (b : Nat) : State.reset.base b = Base.reset := List.getElem?_getD_replicate_default_eq ..

/-- No base is configured, so TBV follows none and every base reports OFF (R552). -/
theorem reset_baseState (b : Nat) : State.reset.baseState b = .off := by
  have hfollows : State.reset.follows = none := by simp [State.follows, Base.reset]
  unfold State.baseState
  split
  · simp [hfollows, Base.reset]
  · simp [Base.reset]

/-- An offset at the start of a block of 0x1000 from 0x10000 on names its block. -/
theorem blockStart (n : Nat) : ¬ 0x10000 + 0x1000 * n < 0x10000 ∧ (0x10000 + 0x1000 * n - 0x10000) / 0x1000 = n ∧
    (0x10000 + 0x1000 * n) % 0x1000 = 0 := by omega

/-- The shroud blocks of SLN lie 0x1000 apart from 0x10000 on. -/
theorem regSln_block (s : State) (n : Nat) (h : n < 56) : s.regSln (0x10000 + 0x1000 * n) = s.regShroud (s.shroud n) 0 := by
  obtain ⟨hlow, hnum, hoff⟩ := blockStart n
  simp only [State.regSln, hlow, hnum, hoff, h, if_true, if_false]

/-- The context blocks of CTX lie 0x1000 apart from 0x10000 on. -/
theorem regCtx_block (s : State) (c : Nat) (h : c < 64) : s.regCtx (0x10000 + 0x1000 * c) = s.regCtxBlock c 0 := by
  obtain ⟨hlow, hnum, hoff⟩ := blockStart c
  simp only [State.regCtx, hlow, hnum, hoff, h, if_true, if_false]

/-- A shroud without an entry and without a lane that precodes reads 0 in its status register. -/
theorem reset_regShroud : State.reset.regShroud Shroud.reset 0 = 0 := by decide +kernel

/-- A context that never ran reads 0 in its status register: nothing lands in a frame, since no sensor has one open. -/
theorem reset_regCtxBlock (c : Nat) : State.reset.regCtxBlock c 0 = 0 := by
  have hland : State.reset.landBlock c = [] := rfl
  have hbands : State.reset.landedBands c = 0 := rfl
  have hhold : State.reset.holding c = false := by simp [State.holding, Context.reset]
  simp [State.regCtxBlock, hland, hbands, hhold, Context.reset, CapSt.code, Context.snapOutstanding, fld, leNat, b2n]

/-- A stream without an entry is IDLE, of type 0 and without members. -/
theorem reset_regRecStream (n : Nat) : State.reset.regRecStream n 0 = 0 := by
  simp [State.regRecStream, Stream.reset, RecSt.code, Stream.type, Stream.srcKind, Stream.isRecord, Stream.ent, fld, leNat]

/-- A drive port is ABSENT, no stream holds a grant of it, and it has no command. -/
theorem reset_regRecPort (p : Nat) : State.reset.regRecPort p 0 = 0 := by
  have hgrants : State.reset.streams.filter (fun t => t.grants.any (fun g => g.port == p && g.isOut)) = [] := by
    exact List.filter_eq_nil_iff.2 fun t ht => by simp [(List.mem_replicate.1 ht).2, Stream.reset]
  simp [State.regRecPort, hgrants, Drive.reset, DriveSt.code]

/-- GLB_STATUS: boot code 0, no session open or primary, not FW_READY and not degraded. -/
theorem reset_glbStatus : State.reset.regGlb 0x08 = 0 := by decide +kernel

/-- A correction factor of 1 reads 4096 (R245). -/
theorem reset_factorRegister : State.reset.regNrg 0x200 = 4096 := by decide +kernel

/-- Settles O9 (offset 0x14 of GLB is GLB_HEARTBEAT): tables by their reset entries, block registers by the
block that their offset names, the other registers by evaluation. -/
theorem resetRegistersReadZero : Obligations.ResetRegistersReadZero := by
  refine ⟨rfl, reset_glbStatus, rfl, rfl, rfl, rfl, rfl, fun n _ => ?slots, fun n _ => ?sessions, fun n hn => ?shrouds,
    fun c hc => ⟨?ctxs, ?ctxBlocks⟩, rfl, rfl, reset_factorRegister, fun n _ => reset_regRecStream n,
    fun p _ => reset_regRecPort p, fun k _ => ?stack, rfl, fun b _ => reset_baseState b⟩
  case slots => simp [Slot.reset]
  case sessions => simp [Session.reset]
  case shrouds => rw [regSln_block _ _ hn, reset_shroud, reset_regShroud]
  case ctxs => simp [Context.reset]
  case ctxBlocks => rw [regCtx_block _ _ hc, reset_regCtxBlock]
  case stack => simp [Stack.reset]

end Sys2Proof.Machine

/-! SUPPORT. What events and messages leave alone: a record, a message and a Halyard pulse act on mailboxes, vectors and
snapshots; closing a segment leaves the board, the time, the readings of health and the non-volatile store. -/

namespace Sys2Proof.Machine

open Sys2Proof

/-! ## Events and messages -/

/-- `t` is `s` but for mailboxes, vectors, observability, free values and what has left the device. -/
def MailFrame (s t : State) : Prop :=
  ∃ n v o f us, t = { s with ncp := n, vecs := v, obs := o, free := f, outs := us }

theorem MailFrame.refl (s : State) : MailFrame s s := ⟨_, _, _, _, _, rfl⟩

theorem MailFrame.trans {s t u : State} (h₁ : MailFrame s t) (h₂ : MailFrame t u) : MailFrame s u := by
  obtain ⟨_, _, _, _, _, rfl⟩ := h₁
  obtain ⟨_, _, _, _, _, rfl⟩ := h₂
  exact ⟨_, _, _, _, _, rfl⟩

theorem MailFrame.ite {s t u : State} {c : Prop} [Decidable c] (ht : MailFrame s t) (hu : MailFrame s u) :
    MailFrame s (if c then t else u) := by
  split
  · exact ht
  · exact hu

theorem MailFrame.each {α : Type} {f : α → State → State} (hf : ∀ a t, MailFrame t (f a t)) (l : List α) (s : State) :
    MailFrame s (each l f s) :=
  each_keeps l (.refl s) fun a _ t ht => ht.trans (hf a t)

theorem updNcp_mailFrame (s : State) (f : Ncp → Ncp) : MailFrame s (s.updNcp f) := ⟨_, _, _, _, _, rfl⟩

theorem updVec_mailFrame (s : State) (v : Nat) (f : Vec → Vec) : MailFrame s (s.updVec v f) := ⟨_, _, _, _, _, rfl⟩

theorem out_mailFrame (s : State) (o : OutMsg) : MailFrame s (s.out o) := ⟨_, _, _, _, _, rfl⟩

theorem sendVector_mailFrame (s : State) (v : Nat) : MailFrame s (s.sendVector v) := by
  have hsum : MailFrame s (if v < 22 then { s with ncp := { s.ncp with intSummary := s.ncp.intSummary ||| BitVec.ofNat 32 (2 ^ v) } }
      else s) := .ite ⟨_, _, _, _, _, rfl⟩ (.refl s)
  refine hsum.trans ((updVec_mailFrame _ v _).trans (.ite (.refl _) (.ite (updVec_mailFrame _ v _) (out_mailFrame _ _))))

theorem askVector_mailFrame (s : State) (v : Nat) : MailFrame s (s.askVector v) :=
  .ite (sendVector_mailFrame s v) (updVec_mailFrame s v _)

theorem setCause_mailFrame (s : State) (b : Nat) : MailFrame s (s.setCause b) :=
  (updNcp_mailFrame s _).trans (askVector_mailFrame _ 0)

theorem eqWrite_mailFrame (s : State) (code src : Nat) (body : List Byte) : MailFrame s (s.eqWrite code src body) :=
  ⟨_, _, _, _, _, rfl⟩

theorem eqOwed_mailFrame (s : State) : MailFrame s s.eqOwed :=
  .ite (.refl s) ((eqWrite_mailFrame s _ _ _).trans ((updNcp_mailFrame _ _).trans (askVector_mailFrame _ 17)))

theorem post_mailFrame (s : State) (code src : Nat) (body : List Byte) : MailFrame s (s.post code src body) := by
  have hlost (t : State) : MailFrame t (if t.eqFull then
      (t.updNcp fun n => { n with eqLost := n.eqLost + 1, eqLostSince := n.eqLostSince + 1 }).setCause 2
      else (t.eqWrite code src body).askVector 17) :=
    .ite ((updNcp_mailFrame t _).trans (setCause_mailFrame _ 2)) ((eqWrite_mailFrame t code src body).trans (askVector_mailFrame _ 17))
  exact .ite (.refl s) ((eqOwed_mailFrame s).trans ((hlost _).trans (.each (fun v t => askVector_mailFrame t v) _ _)))

theorem halPulse_mailFrame (s : State) (sources merged : Nat) : MailFrame s (s.halPulse sources merged) := by
  have hbank (o : Obs) (f : Nat) : MailFrame s { s with obs := o, free := f } := ⟨_, _, _, _, _, rfl⟩
  have hpend (t : State) (o : Obs) : MailFrame t { t with obs := o } := ⟨_, _, _, _, _, rfl⟩
  exact (hbank _ _).trans ((MailFrame.ite (out_mailFrame _ _) (.refl _)).trans ((askVector_mailFrame _ 20).trans
    ((post_mailFrame _ _ _ _).trans (.ite (hpend _ _) (.refl _)))))

theorem halTrigger_mailFrame (s : State) (source : Nat) : MailFrame s (s.halTrigger source) := by
  unfold State.halTrigger
  split
  · exact ⟨_, _, _, _, _, rfl⟩
  · exact .ite (halPulse_mailFrame s _ _) ⟨_, _, _, _, _, rfl⟩

/-- Raising an event acts on the mail alone, the Halyard pulse that it triggers included (R126, R650). -/
theorem raise_mailFrame (s : State) (code src : Nat) (body : List Byte) : MailFrame s (s.raise code src body) :=
  (post_mailFrame s code src body).trans (.ite (halTrigger_mailFrame _ 1) (.refl _))

/-! ## The board, the time, health and the non-volatile store -/

/-- What a warm reset keeps or counts lies in these four parts of the state. -/
structure SameBoard (s t : State) : Prop where
  power  : t.power = s.power
  time   : t.time = s.time
  health : t.health = s.health
  nv     : t.nv = s.nv

theorem SameBoard.refl (s : State) : SameBoard s s := ⟨rfl, rfl, rfl, rfl⟩

theorem SameBoard.trans {s t u : State} (h₁ : SameBoard s t) (h₂ : SameBoard t u) : SameBoard s u :=
  ⟨h₂.power.trans h₁.power, h₂.time.trans h₁.time, h₂.health.trans h₁.health, h₂.nv.trans h₁.nv⟩

theorem MailFrame.sameBoard {s t : State} (h : MailFrame s t) : SameBoard s t := by
  obtain ⟨_, _, _, _, _, rfl⟩ := h
  exact ⟨rfl, rfl, rfl, rfl⟩

theorem updStream_sameBoard (s : State) (n : Nat) (f : Stream → Stream) : SameBoard s (s.updStream n f) := ⟨rfl, rfl, rfl, rfl⟩

theorem updTrust_sameBoard (s : State) (f : Trust → Trust) : SameBoard s (s.updTrust f) := ⟨rfl, rfl, rfl, rfl⟩

theorem openSegment_sameBoard (s : State) (n first : Nat) (discs : List (List Byte)) :
    SameBoard s (s.openSegment n first discs) := ⟨rfl, rfl, rfl, rfl⟩

theorem addSealRec_sameBoard (s : State) (n kind : Nat) (bytes : List Byte) (signed : Bool) :
    SameBoard s (s.addSealRec n kind bytes signed) := ⟨rfl, rfl, rfl, rfl⟩

/-- A new job touches the job list alone, refused or not. -/
theorem addJob_sameBoard (s : State) (j : Job) : SameBoard s (s.addJob j).2 := by
  unfold State.addJob
  dsimp only
  split
  · exact ⟨rfl, rfl, rfl, rfl⟩
  · split
    · exact ⟨rfl, rfl, rfl, rfl⟩
    · exact ⟨rfl, rfl, rfl, rfl⟩

/-- A rate-limited event leaves what its event and its mark leave. -/
theorem raiseLimited_sameBoard (s : State) (last : Option Nanos) (span : Nanos) (code src : Nat) (body : List Byte)
    {mark : Option Nanos → State → State} (hmark : ∀ t u, SameBoard u (mark t u)) :
    SameBoard s (s.raiseLimited last span code src body mark) := by
  unfold State.raiseLimited
  split
  · exact (raise_mailFrame s code src body).sameBoard.trans (hmark _ _)
  · exact .refl s

/-- Closing a segment leaves the four parts: an empty one leaves at most a new segment, another adds its manifest, the job
that signs it and at most one event (R597, R603). -/
theorem closeSegment_sameBoard (s : State) (n cause : Nat) : SameBoard s (s.closeSegment n cause) := by
  unfold State.closeSegment
  dsimp only
  split
  next => exact .refl s
  next g _ =>
    split
    next =>
      split
      · exact updStream_sameBoard s n _
      · exact (updStream_sameBoard s n _).trans (openSegment_sameBoard _ n _ _)
    next =>
      have hqueued (kind : Nat) (body : List Byte) (f : Trust → Trust) (j : Job) :
          SameBoard s (((((s.updStream n fun x => { x with segment := none }).addSealRec n kind body false).updTrust f).addJob j).2) :=
        (updStream_sameBoard s n _).trans ((addSealRec_sameBoard _ n kind body false).trans
          ((updTrust_sameBoard _ f).trans (addJob_sameBoard _ j)))
      split
      · exact (hqueued _ _ _ _).trans (raiseLimited_sameBoard _ _ _ _ _ _ fun _ u => updTrust_sameBoard u _)
      · exact hqueued _ _ _ _

theorem closeSegments_sameBoard (s : State) (cause : Nat) : SameBoard s (s.closeSegments cause) :=
  each_keeps _ (.refl s) fun n _ t ht => ht.trans (closeSegment_sameBoard t n cause)

end Sys2Proof.Machine

/-! SUPPORT. Resets: what `wipe` and the entries of a reset lose, keep and record, and the boot that waits for the rails. -/

namespace Sys2Proof.Machine

open Sys2Proof

/-! ## What a reset loses -/

/-- Every reset of the whole device loses what R89 lists. -/
theorem wipe_lost (s : State) (warm : Bool) : Lost (s.wipe warm) where
  ncp := rfl
  cfg := rfl
  ledger := rfl
  ctxs := rfl
  jobs := rfl
  streams := rfl
  mem := rfl
  ep := rfl
  yards := rfl
  bases := by cases warm <;> rfl
  trust := rfl
  obs := rfl

theorem Lost.updPower {t : State} (h : Lost t) (f : Power → Power) : Lost (t.updPower f) :=
  ⟨h.ncp, h.cfg, h.ledger, h.ctxs, h.jobs, h.streams, h.mem, h.ep, h.yards, h.bases, h.trust, h.obs⟩

theorem Lost.updHealth {t : State} (h : Lost t) (f : Health → Health) : Lost (t.updHealth f) :=
  ⟨h.ncp, h.cfg, h.ledger, h.ctxs, h.jobs, h.streams, h.mem, h.ep, h.yards, h.bases, h.trust, h.obs⟩

theorem Lost.updNv {t : State} (h : Lost t) (f : Nv → Nv) : Lost (t.updNv f) :=
  ⟨h.ncp, h.cfg, h.ledger, h.ctxs, h.jobs, h.streams, h.mem, h.ep, h.yards, h.bases, h.trust, h.obs⟩

/-! ## Supplies and PWROK -/

theorem furlCut_of_not_furled {s : State} (h : s.power.condition ≠ .furled) : s.furlCut = s :=
  if_neg (by simpa using h)

/-- A supply in range that falls outside FURLED: a whole reset, and with VDD_AON the furl history goes (R61, R89). -/
theorem supplyLoss_of_on {s : State} {aon : Bool} (hon : (if aon then s.power.vddAon else s.power.vddio) = true)
    (hfurl : s.power.condition ≠ .furled) :
    Lost (s.supplyLoss aon) ∧ (s.supplyLoss aon).power.condition = .unpowered ∧ (s.supplyLoss aon).power.pwrok = false ∧
      (s.supplyLoss aon).time.tbm = 0 ∧ (s.supplyLoss aon).nv = { s.nv with clockBase := s.nv.healthClock } ∧
      (s.supplyLoss aon).health.restarts = if aon then [] else s.health.restarts := by
  have hup : ¬ ((aon && !s.power.vddAon) || (!aon && !s.power.vddio)) = true := by
    cases aon with
    | false => simpa using hon
    | true => simpa using hon
  simp only [State.supplyLoss, if_neg hup, furlCut_of_not_furled hfurl]
  cases aon with
  | false =>
    simp only [Bool.false_eq_true, if_false]
    exact ⟨(wipe_lost s false).updPower _, rfl, rfl, rfl, rfl, rfl⟩
  | true =>
    simp only [if_true]
    exact ⟨((wipe_lost s false).updPower _).updHealth _, rfl, rfl, rfl, rfl, rfl⟩

theorem pwrokFall_of_high {s : State} (hok : s.power.pwrok = true) (hfurl : s.power.condition ≠ .furled) :
    s.pwrokFall = (s.updPower fun p => { p with pwrok := false }).wipe false := by
  simp [State.pwrokFall, hok, hfurl]

/-- Settles O10, each edge by the equation of its row. That both rails up with PWROK low are RESET, and a lost VDDIO_18 leaves
UNPOWERED, is the choice of log entry 33. -/
theorem suppliesAndPwrokFall : Obligations.SuppliesAndPwrokFall := by
  refine ⟨fun s hoff => ?rise, fun aon s hon hfurl => ?loss, fun s hok hfurl => ?fall⟩
  case rise =>
    have hrise : s.aonRise = s.updPower fun p =>
        { p with vddAon := true, condition := if p.vddio then .reset else .unpowered, coldCause := 0x01, aonNs := 0 } :=
      if_neg (by simp [hoff])
    exact congrArg Host.Outcome.next hrise
  case loss =>
    obtain ⟨hlost, hcondition, hpwrok, htbm, hnv, hrestarts⟩ := supplyLoss_of_on hon hfurl
    exact ⟨s.supplyLoss aon, rfl, hcondition, hpwrok, hlost, htbm, hnv, hrestarts⟩
  case fall =>
    exact ⟨_, congrArg Host.Outcome.next (pwrokFall_of_high hok hfurl), rfl, rfl, wipe_lost _ false, rfl, rfl, rfl, rfl⟩

/-! ## Entering a warm reset -/

/-- The falling rails show on the pins alone. -/
theorem dropRails_outs (s : State) (ordered : Bool) : ∃ us, s.dropRails ordered = { s with outs := us } :=
  each_keeps (P := fun t => ∃ us, t = { s with outs := us }) _ ⟨_, rfl⟩ fun _ _ t ht => by
    obtain ⟨us, rfl⟩ := ht
    exact ⟨_, rfl⟩

/-- A warm reset is the wipe of R89 with its cause and its count, however the rails have shown on the pins. -/
theorem enterWarm_eq (s : State) (cause : Byte) : ∃ us, s.enterWarm cause =
    (State.wipe { s with outs := us } true).updPower fun p =>
      { p with resetCause := cause, warmCount := satInc 16 p.warmCount, bootCold := false } := by
  obtain ⟨us, hdrop⟩ := dropRails_outs s (cause == 0x11 || cause == 0x12 || cause == 0x15)
  exact ⟨us, by rw [State.enterWarm, hdrop]⟩

theorem enterWarm_lost (s : State) (cause : Byte) : Lost (s.enterWarm cause) := (wipe_lost _ true).updPower _

theorem enterWarm_nv (s : State) (cause : Byte) : (s.enterWarm cause).nv = s.nv := by
  obtain ⟨us, h⟩ := enterWarm_eq s cause
  rw [h]
  rfl

/-- The power state on entering a warm reset: pins and straps as they were, the rest as `toReset` leaves it. -/
theorem enterWarm_power (s : State) (cause : Byte) : (s.enterWarm cause).power =
    { s.power.toReset true with resetCause := cause, warmCount := satInc 16 s.power.warmCount, bootCold := false } := by
  obtain ⟨us, h⟩ := enterWarm_eq s cause
  rw [h]
  rfl

/-- Entering a warm reset records its cause and counts it, and keeps what R89 and R90 say it keeps. -/
theorem enterWarm_warmFrom (s : State) (cause : Byte) : WarmFrom cause s (s.enterWarm cause) := by
  obtain ⟨us, h⟩ := enterWarm_eq s cause
  rw [h]
  exact ⟨rfl, rfl, rfl, ⟨rfl, rfl⟩, rfl, rfl, ⟨rfl, rfl, rfl⟩, ⟨rfl, rfl⟩, ⟨rfl, rfl⟩, ⟨rfl, rfl⟩, rfl⟩

/-! ## The boot after a warm reset -/

/-- The boot ROM at code 0x10, waiting for the rails to discharge (R92, R97). -/
def State.bootWaiting (s : State) (env : BootEnv) : State :=
  (((s.updPower fun p => { p with condition := .running, env := env, bootCode := 0x10, bootSource := s.firstSource }).updNv
    fun n => { n with bootCount := n.bootCount + 1 }).updHealth fun h => { h with comparatorsFailed := env.comparators }).updPower
    fun p => { p with bootStage := .waitDischarge }

/-- A warm boot with good comparators, a BOOTSEL that names a source and rails that still hold charge waits for their
discharge. -/
theorem boot_waits {s : State} {env : BootEnv} (hcomp : env.comparators = 0) (hcharged : env.discharged = false)
    (hsel : s.power.bootsel.toNat ≤ 4) (hwarm : s.power.bootCold = false) : s.boot env = s.bootWaiting env := by
  have hfurl : ¬ 2 ≤ popCount 4 env.comparators.toNat := by rw [hcomp]; decide
  have hstop : ¬ 4 < s.power.bootsel.toNat := by omega
  simp [State.boot, State.bootWaiting, State.updPower, State.updNv, State.updHealth, hfurl, hstop, hcharged, hwarm]

/-- A device that has gone through a warm reset from `s` and waits in the boot ROM for its rails to discharge. -/
structure WarmBoot (cause : Byte) (s t : State) : Prop where
  kept      : WarmFrom cause s t
  lost      : Lost t
  code      : t.power.bootCode = 0x10
  stage     : t.power.bootStage = .waitDischarge
  count     : t.nv.bootCount = s.nv.bootCount + 1
  crystal   : t.power.crystalRuns = s.power.crystalRuns
  unpending : t.power.warmPending = none

theorem WarmFrom.bootWaiting {cause : Byte} {s t : State} (h : WarmFrom cause s t) (env : BootEnv) :
    WarmFrom cause s (t.bootWaiting env) :=
  ⟨h.cause, h.count, h.links, h.straps, h.tbm, h.fuses, h.gens, h.errors, h.retired, h.furls, h.ageing⟩

theorem Lost.bootWaiting {t : State} (h : Lost t) (env : BootEnv) : Lost (t.bootWaiting env) :=
  (((h.updPower _).updNv _).updHealth _).updPower _

/-- A warm reset with PWROK and SYS_RESET_N high starts the boot at once (R94). -/
theorem enterWarm_leaveReset {s : State} {env : BootEnv} (cause : Byte) (hok : s.power.pwrok = true)
    (hpin : s.power.sysResetN = true) (hcomp : env.comparators = 0) (hcharged : env.discharged = false)
    (hsel : s.power.bootsel.toNat ≤ 4) : WarmBoot cause s ((s.enterWarm cause).leaveReset env) := by
  have hboot : (s.enterWarm cause).leaveReset env = (s.enterWarm cause).bootWaiting env := by
    have hleave : (s.enterWarm cause).leaveReset env = (s.enterWarm cause).boot env := by
      simp [State.leaveReset, enterWarm_power, Power.toReset, hok, hpin]
    rw [hleave]
    exact boot_waits hcomp hcharged (by simpa [enterWarm_power, Power.toReset] using hsel) (by simp [enterWarm_power])
  rw [hboot]
  exact {
    kept := (enterWarm_warmFrom s cause).bootWaiting env
    lost := (enterWarm_lost s cause).bootWaiting env
    code := rfl
    stage := rfl
    count := by simp [State.bootWaiting, enterWarm_nv]
    crystal := by simp [State.bootWaiting, enterWarm_power, Power.toReset]
    unpending := by simp [State.bootWaiting, enterWarm_power, Power.toReset] }

/-- Two states agree in everything that a warm reset keeps or counts. -/
structure SameHistory (s u : State) : Prop where
  counts : u.power.warmCount = s.power.warmCount ∧ u.power.linkResets = s.power.linkResets
  straps : u.power.bootsel = s.power.bootsel ∧ u.power.mgmtAddr = s.power.mgmtAddr
  tbm    : u.time.tbm = s.time.tbm
  health : u.health = s.health
  nv     : u.nv = s.nv

theorem SameBoard.sameHistory {s u : State} (h : SameBoard s u) : SameHistory s u := by
  obtain ⟨hpower, htime, hhealth, hnv⟩ := h
  refine ⟨?_, ?_, ?_, hhealth, hnv⟩
  · simp [hpower]
  · simp [hpower]
  · rw [htime]

/-- What came before a warm reset and left its history alone is not seen after it. -/
theorem WarmFrom.of_sameHistory {cause : Byte} {s u t : State} (h : WarmFrom cause u t) (hsu : SameHistory s u) :
    WarmFrom cause s t := by
  obtain ⟨⟨hwarm, hlink⟩, ⟨hsel, haddr⟩, htbmU, hhealth, hnv⟩ := hsu
  obtain ⟨hcause, hcount, hlinks, hstraps, htbm, hfuses, hgens, herrors, hretired, hfurls, hageing⟩ := h
  rw [hwarm] at hcount
  rw [hlink] at hlinks
  rw [hsel, haddr] at hstraps
  rw [htbmU] at htbm
  rw [hhealth] at hfurls hageing
  rw [hnv] at hfuses hgens herrors hretired hfurls
  exact ⟨hcause, hcount, hlinks, hstraps, htbm, hfuses, hgens, herrors, hretired, hfurls, hageing⟩

/-! ## The four causes -/

/-- A long low pulse on SYS_RESET_N holds a running device in a warm reset (R91, R94). -/
theorem sysResetFall_long {low : Nat} {s : State} (hlow : 10000 ≤ low) (hrun : s.power.condition = .running) :
    s.sysResetFall low = (s.updPower fun p => { p with sysResetN := false }).enterWarm 0x10 := by
  have h100 : ¬ low < 100 := by omega
  have h10us : ¬ low < 10000 := by omega
  simp [State.sysResetFall, h100, h10us, State.running, hrun]

theorem watchdog_resets {env : BootEnv} {s : State} (hrun : s.power.condition = .running) (hdog : s.power.watchdogOn = true) :
    exec (.watchdogExpiry env) s = .next ((s.enterWarm 0x13).leaveReset env) :=
  congrArg Host.Outcome.next (if_pos (by simp [State.running, hrun, hdog]))

theorem crystalLoss_resets {env : BootEnv} {s : State} (hrun : s.power.condition = .running)
    (hxtal : s.power.xtalQualified = true) :
    s.crystalLoss env = ((s.updPower fun p => { p with crystalRuns := false }).enterWarm 0x14).leaveReset env := by
  simp [State.crystalLoss, State.running, hrun, hxtal]

/-- A reset that a command asked for, once its OK is posted: within 100 ms the open segments close first (R91, R597). -/
theorem warmEntry_resets {env : BootEnv} {s : State} {cause : Byte} {asked : Nanos} (hrun : s.power.condition = .running)
    (hpend : s.power.warmPending = some (cause, asked)) (hans : s.resetAnswered = true) :
    ∃ u, SameBoard s u ∧ s.warmEntry env = (u.enterWarm cause).leaveReset env := by
  refine ⟨if asked + ms 100 ≤ s.now then s else s.closeSegments 3, ?_, ?_⟩
  · split
    · exact .refl s
    · exact closeSegments_sameBoard s 3
  · simp [State.warmEntry, hpend, State.running, hrun, hans]

/-- Low pulses shorter than 100 ns are ignored on both pins (R88). -/
theorem shortPulses_ignored {low : Nat} (s : State) (h : low < 100) : s.sysResetFall low = s ∧ s.perstFall low = s :=
  ⟨if_pos h, if_pos (by simp [h])⟩

/-- Settles O13: the pin holds the device in RESET, the other causes enter the boot, and what changes before the reset leaves
its history alone. -/
theorem warmResetsKeepAndLose : Obligations.WarmResetsKeepAndLose := by
  refine ⟨⟨fun low s hlow hrun => ?pin, fun env s hrun hok hpin hcomp hcharged hsel =>
    ⟨fun hdog => ?watchdog, fun hxtal => ?crystal, fun cause asked hpend hans => ?command⟩⟩, fun low s hshort => ?short⟩
  case pin =>
    let u := s.updPower fun p => { p with sysResetN := false }
    have hsu : SameHistory s u := ⟨⟨rfl, rfl⟩, ⟨rfl, rfl⟩, rfl, rfl, rfl⟩
    have hpower := enterWarm_power u 0x10
    exact ⟨u.enterWarm 0x10, congrArg Host.Outcome.next (sysResetFall_long hlow hrun),
      (enterWarm_warmFrom u 0x10).of_sameHistory hsu, enterWarm_lost u 0x10, by rw [hpower]; rfl, by rw [hpower]; rfl,
      enterWarm_nv u 0x10, by rw [hpower]; rfl⟩
  case watchdog =>
    have h := enterWarm_leaveReset 0x13 hok hpin hcomp hcharged hsel
    exact ⟨_, watchdog_resets hrun hdog, h.kept, h.lost, h.code, h.stage, h.count⟩
  case crystal =>
    let u := s.updPower fun p => { p with crystalRuns := false }
    have hsu : SameHistory s u := ⟨⟨rfl, rfl⟩, ⟨rfl, rfl⟩, rfl, rfl, rfl⟩
    have h : WarmBoot 0x14 u _ := enterWarm_leaveReset 0x14 hok hpin hcomp hcharged hsel
    exact ⟨_, congrArg Host.Outcome.next (crystalLoss_resets hrun hxtal), h.kept.of_sameHistory hsu, h.lost, h.crystal, h.code,
      h.count⟩
  case command =>
    obtain ⟨u, hboard, hentry⟩ := warmEntry_resets (env := env) hrun hpend hans
    obtain ⟨hokU, hpinU, hselU⟩ : u.power.pwrok = true ∧ u.power.sysResetN = true ∧ u.power.bootsel.toNat ≤ 4 := by
      rw [hboard.power]; exact ⟨hok, hpin, hsel⟩
    have h := enterWarm_leaveReset cause hokU hpinU hcomp hcharged hselU
    exact ⟨_, congrArg Host.Outcome.next hentry, h.kept.of_sameHistory hboard.sameHistory, h.lost, h.unpending, h.code,
      hboard.nv ▸ h.count⟩
  case short =>
    obtain ⟨hsys, hperst⟩ := shortPulses_ignored s hshort
    exact ⟨congrArg Host.Outcome.next hsys, congrArg Host.Outcome.next hperst⟩

end Sys2Proof.Machine

/-! SUPPORT. What every function of the model leaves alone, one lemma for each in the model's order: the functions that act on the
mail leave all other parts; the others leave the queue and those of supplies, time, health and capture memory that they do not
name; what the firmware's own work is made of leaves shrouds, sensors, endpoint, engines and latches besides. -/

namespace Sys2Proof.Machine

open Sys2Proof

/-! ## What is left alone -/

/-- Supplies, time bases, readings of health and the queue are as before. -/
@[simp] abbrev Steady (s t : State) : Prop :=
  t.power = s.power ∧ t.time = s.time ∧ t.health = s.health ∧ t.pending = s.pending

/-- Capture memory is as before besides. -/
@[simp] abbrev Undisturbed (s t : State) : Prop := Steady s t ∧ t.mem = s.mem

/-- What the firmware's own work after an event leaves alone (R52). -/
@[simp] abbrev KeepsCore (s t : State) : Prop :=
  Steady s t ∧ t.shrouds = s.shrouds ∧ t.sensors = s.sensors ∧ t.ep = s.ep ∧ t.engines = s.engines ∧ t.latches = s.latches

/-- Capture memory is as before besides. -/
@[simp] abbrev KeepsRim (s t : State) : Prop := KeepsCore s t ∧ t.mem = s.mem

/-- Only mailboxes, vectors, observability, free values and outputs may differ: `MailFrame`, part by part. -/
@[simp] abbrev MailOnly (s t : State) : Prop :=
  t.power = s.power ∧ t.cfg = s.cfg ∧ t.ledger = s.ledger ∧ t.shrouds = s.shrouds ∧ t.sensors = s.sensors ∧ t.ctxs = s.ctxs ∧
    t.dev = s.dev ∧ t.steep = s.steep ∧ t.mash = s.mash ∧ t.luts = s.luts ∧ t.cacheHits = s.cacheHits ∧
    t.cacheMisses = s.cacheMisses ∧ t.bandCache = s.bandCache ∧ t.jobs = s.jobs ∧ t.nextJob = s.nextJob ∧
    t.engines = s.engines ∧ t.encs = s.encs ∧ t.decs = s.decs ∧ t.streams = s.streams ∧ t.drives = s.drives ∧
    t.nextNvme = s.nextNvme ∧ t.nextGrant = s.nextGrant ∧ t.egress = s.egress ∧ t.brl = s.brl ∧ t.brlErrors = s.brlErrors ∧
    t.mem = s.mem ∧ t.ep = s.ep ∧ t.yards = s.yards ∧ t.time = s.time ∧ t.trust = s.trust ∧ t.health = s.health ∧
    t.nv = s.nv ∧ t.latches = s.latches ∧ t.pending = s.pending

/-! Functions that name some of supplies, time and health leave the others of the three, and the queue. -/

@[simp] abbrev KeepsPowerTime (s t : State) : Prop := t.power = s.power ∧ t.time = s.time ∧ t.pending = s.pending
@[simp] abbrev KeepsPowerTimeMem (s t : State) : Prop := t.power = s.power ∧ t.time = s.time ∧ t.pending = s.pending ∧ t.mem = s.mem
@[simp] abbrev KeepsPowerHealth (s t : State) : Prop := t.power = s.power ∧ t.health = s.health ∧ t.pending = s.pending
@[simp] abbrev KeepsPowerHealthMem (s t : State) : Prop :=
  t.power = s.power ∧ t.health = s.health ∧ t.pending = s.pending ∧ t.mem = s.mem
@[simp] abbrev KeepsTimeHealth (s t : State) : Prop := t.time = s.time ∧ t.health = s.health ∧ t.pending = s.pending
@[simp] abbrev KeepsTimeHealthMem (s t : State) : Prop :=
  t.time = s.time ∧ t.health = s.health ∧ t.pending = s.pending ∧ t.mem = s.mem
@[simp] abbrev KeepsTimeMem (s t : State) : Prop := t.time = s.time ∧ t.pending = s.pending ∧ t.mem = s.mem
@[simp] abbrev KeepsHealth (s t : State) : Prop := t.health = s.health ∧ t.pending = s.pending

theorem Steady.trans {s t u : State} (h : Steady s t) (h' : Steady t u) : Steady s u := by
  simp_all

theorem Undisturbed.trans {s t u : State} (h : Undisturbed s t) (h' : Undisturbed t u) : Undisturbed s u := by
  simp_all

theorem KeepsCore.trans {s t u : State} (h : KeepsCore s t) (h' : KeepsCore t u) : KeepsCore s u := by
  simp_all

theorem MailOnly.trans {s t u : State} (h : MailOnly s t) (h' : MailOnly t u) : MailOnly s u := by
  simp_all

theorem MailFrame.mailOnly {s t : State} (h : MailFrame s t) : MailOnly s t := by
  obtain ⟨_, _, _, _, _, rfl⟩ := h
  simp

theorem MailOnly.eq {s t : State} (h : MailOnly s t) :
    t = { s with ncp := t.ncp, vecs := t.vecs, obs := t.obs, free := t.free, outs := t.outs } := by
  cases s
  cases t
  simp_all

/-! ## Parts of a choice and of a fold -/

@[simp] theorem snd_ite {α β : Type} (c : Prop) [Decidable c] (p q : α × β) :
    (if c then p else q).2 = if c then p.2 else q.2 := apply_ite ..

@[simp] theorem power_ite (c : Prop) [Decidable c] (s t : State) : (if c then s else t).power = if c then s.power else t.power := apply_ite ..
@[simp] theorem cfg_ite (c : Prop) [Decidable c] (s t : State) : (if c then s else t).cfg = if c then s.cfg else t.cfg := apply_ite ..
@[simp] theorem ledger_ite (c : Prop) [Decidable c] (s t : State) : (if c then s else t).ledger = if c then s.ledger else t.ledger := apply_ite ..
@[simp] theorem shrouds_ite (c : Prop) [Decidable c] (s t : State) : (if c then s else t).shrouds = if c then s.shrouds else t.shrouds := apply_ite ..
@[simp] theorem sensors_ite (c : Prop) [Decidable c] (s t : State) : (if c then s else t).sensors = if c then s.sensors else t.sensors := apply_ite ..
@[simp] theorem ctxs_ite (c : Prop) [Decidable c] (s t : State) : (if c then s else t).ctxs = if c then s.ctxs else t.ctxs := apply_ite ..
@[simp] theorem dev_ite (c : Prop) [Decidable c] (s t : State) : (if c then s else t).dev = if c then s.dev else t.dev := apply_ite ..
@[simp] theorem steep_ite (c : Prop) [Decidable c] (s t : State) : (if c then s else t).steep = if c then s.steep else t.steep := apply_ite ..
@[simp] theorem mash_ite (c : Prop) [Decidable c] (s t : State) : (if c then s else t).mash = if c then s.mash else t.mash := apply_ite ..
@[simp] theorem luts_ite (c : Prop) [Decidable c] (s t : State) : (if c then s else t).luts = if c then s.luts else t.luts := apply_ite ..
@[simp] theorem cacheHits_ite (c : Prop) [Decidable c] (s t : State) : (if c then s else t).cacheHits = if c then s.cacheHits else t.cacheHits := apply_ite ..
@[simp] theorem cacheMisses_ite (c : Prop) [Decidable c] (s t : State) : (if c then s else t).cacheMisses = if c then s.cacheMisses else t.cacheMisses := apply_ite ..
@[simp] theorem bandCache_ite (c : Prop) [Decidable c] (s t : State) : (if c then s else t).bandCache = if c then s.bandCache else t.bandCache := apply_ite ..
@[simp] theorem jobs_ite (c : Prop) [Decidable c] (s t : State) : (if c then s else t).jobs = if c then s.jobs else t.jobs := apply_ite ..
@[simp] theorem nextJob_ite (c : Prop) [Decidable c] (s t : State) : (if c then s else t).nextJob = if c then s.nextJob else t.nextJob := apply_ite ..
@[simp] theorem engines_ite (c : Prop) [Decidable c] (s t : State) : (if c then s else t).engines = if c then s.engines else t.engines := apply_ite ..
@[simp] theorem encs_ite (c : Prop) [Decidable c] (s t : State) : (if c then s else t).encs = if c then s.encs else t.encs := apply_ite ..
@[simp] theorem decs_ite (c : Prop) [Decidable c] (s t : State) : (if c then s else t).decs = if c then s.decs else t.decs := apply_ite ..
@[simp] theorem streams_ite (c : Prop) [Decidable c] (s t : State) : (if c then s else t).streams = if c then s.streams else t.streams := apply_ite ..
@[simp] theorem drives_ite (c : Prop) [Decidable c] (s t : State) : (if c then s else t).drives = if c then s.drives else t.drives := apply_ite ..
@[simp] theorem nextNvme_ite (c : Prop) [Decidable c] (s t : State) : (if c then s else t).nextNvme = if c then s.nextNvme else t.nextNvme := apply_ite ..
@[simp] theorem nextGrant_ite (c : Prop) [Decidable c] (s t : State) : (if c then s else t).nextGrant = if c then s.nextGrant else t.nextGrant := apply_ite ..
@[simp] theorem egress_ite (c : Prop) [Decidable c] (s t : State) : (if c then s else t).egress = if c then s.egress else t.egress := apply_ite ..
@[simp] theorem brl_ite (c : Prop) [Decidable c] (s t : State) : (if c then s else t).brl = if c then s.brl else t.brl := apply_ite ..
@[simp] theorem brlErrors_ite (c : Prop) [Decidable c] (s t : State) : (if c then s else t).brlErrors = if c then s.brlErrors else t.brlErrors := apply_ite ..
@[simp] theorem mem_ite (c : Prop) [Decidable c] (s t : State) : (if c then s else t).mem = if c then s.mem else t.mem := apply_ite ..
@[simp] theorem ep_ite (c : Prop) [Decidable c] (s t : State) : (if c then s else t).ep = if c then s.ep else t.ep := apply_ite ..
@[simp] theorem yards_ite (c : Prop) [Decidable c] (s t : State) : (if c then s else t).yards = if c then s.yards else t.yards := apply_ite ..
@[simp] theorem time_ite (c : Prop) [Decidable c] (s t : State) : (if c then s else t).time = if c then s.time else t.time := apply_ite ..
@[simp] theorem trust_ite (c : Prop) [Decidable c] (s t : State) : (if c then s else t).trust = if c then s.trust else t.trust := apply_ite ..
@[simp] theorem health_ite (c : Prop) [Decidable c] (s t : State) : (if c then s else t).health = if c then s.health else t.health := apply_ite ..
@[simp] theorem nv_ite (c : Prop) [Decidable c] (s t : State) : (if c then s else t).nv = if c then s.nv else t.nv := apply_ite ..
@[simp] theorem latches_ite (c : Prop) [Decidable c] (s t : State) : (if c then s else t).latches = if c then s.latches else t.latches := apply_ite ..
@[simp] theorem pending_ite (c : Prop) [Decidable c] (s t : State) : (if c then s else t).pending = if c then s.pending else t.pending := apply_ite ..

/-- A part that each change of a fold keeps is kept by the fold. -/
theorem each_proj {α β : Type} {π : State → β} {f : α → State → State} (h : ∀ a t, π (f a t) = π t) (l : List α) (s : State) :
    π (each l f s) = π s :=
  each_keeps (P := fun t => π t = π s) l rfl fun a _ t ht => (h a t).trans ht

section

variable {α : Type} {f : α → State → State}

@[simp] theorem each_power (h : ∀ a t, (f a t).power = t.power) (l : List α) (s : State) : (each l f s).power = s.power := each_proj h l s
@[simp] theorem each_cfg (h : ∀ a t, (f a t).cfg = t.cfg) (l : List α) (s : State) : (each l f s).cfg = s.cfg := each_proj h l s
@[simp] theorem each_ledger (h : ∀ a t, (f a t).ledger = t.ledger) (l : List α) (s : State) : (each l f s).ledger = s.ledger := each_proj h l s
@[simp] theorem each_shrouds (h : ∀ a t, (f a t).shrouds = t.shrouds) (l : List α) (s : State) : (each l f s).shrouds = s.shrouds := each_proj h l s
@[simp] theorem each_sensors (h : ∀ a t, (f a t).sensors = t.sensors) (l : List α) (s : State) : (each l f s).sensors = s.sensors := each_proj h l s
@[simp] theorem each_ctxs (h : ∀ a t, (f a t).ctxs = t.ctxs) (l : List α) (s : State) : (each l f s).ctxs = s.ctxs := each_proj h l s
@[simp] theorem each_dev (h : ∀ a t, (f a t).dev = t.dev) (l : List α) (s : State) : (each l f s).dev = s.dev := each_proj h l s
@[simp] theorem each_steep (h : ∀ a t, (f a t).steep = t.steep) (l : List α) (s : State) : (each l f s).steep = s.steep := each_proj h l s
@[simp] theorem each_mash (h : ∀ a t, (f a t).mash = t.mash) (l : List α) (s : State) : (each l f s).mash = s.mash := each_proj h l s
@[simp] theorem each_luts (h : ∀ a t, (f a t).luts = t.luts) (l : List α) (s : State) : (each l f s).luts = s.luts := each_proj h l s
@[simp] theorem each_cacheHits (h : ∀ a t, (f a t).cacheHits = t.cacheHits) (l : List α) (s : State) : (each l f s).cacheHits = s.cacheHits := each_proj h l s
@[simp] theorem each_cacheMisses (h : ∀ a t, (f a t).cacheMisses = t.cacheMisses) (l : List α) (s : State) : (each l f s).cacheMisses = s.cacheMisses := each_proj h l s
@[simp] theorem each_bandCache (h : ∀ a t, (f a t).bandCache = t.bandCache) (l : List α) (s : State) : (each l f s).bandCache = s.bandCache := each_proj h l s
@[simp] theorem each_jobs (h : ∀ a t, (f a t).jobs = t.jobs) (l : List α) (s : State) : (each l f s).jobs = s.jobs := each_proj h l s
@[simp] theorem each_nextJob (h : ∀ a t, (f a t).nextJob = t.nextJob) (l : List α) (s : State) : (each l f s).nextJob = s.nextJob := each_proj h l s
@[simp] theorem each_engines (h : ∀ a t, (f a t).engines = t.engines) (l : List α) (s : State) : (each l f s).engines = s.engines := each_proj h l s
@[simp] theorem each_encs (h : ∀ a t, (f a t).encs = t.encs) (l : List α) (s : State) : (each l f s).encs = s.encs := each_proj h l s
@[simp] theorem each_decs (h : ∀ a t, (f a t).decs = t.decs) (l : List α) (s : State) : (each l f s).decs = s.decs := each_proj h l s
@[simp] theorem each_streams (h : ∀ a t, (f a t).streams = t.streams) (l : List α) (s : State) : (each l f s).streams = s.streams := each_proj h l s
@[simp] theorem each_drives (h : ∀ a t, (f a t).drives = t.drives) (l : List α) (s : State) : (each l f s).drives = s.drives := each_proj h l s
@[simp] theorem each_nextNvme (h : ∀ a t, (f a t).nextNvme = t.nextNvme) (l : List α) (s : State) : (each l f s).nextNvme = s.nextNvme := each_proj h l s
@[simp] theorem each_nextGrant (h : ∀ a t, (f a t).nextGrant = t.nextGrant) (l : List α) (s : State) : (each l f s).nextGrant = s.nextGrant := each_proj h l s
@[simp] theorem each_egress (h : ∀ a t, (f a t).egress = t.egress) (l : List α) (s : State) : (each l f s).egress = s.egress := each_proj h l s
@[simp] theorem each_brl (h : ∀ a t, (f a t).brl = t.brl) (l : List α) (s : State) : (each l f s).brl = s.brl := each_proj h l s
@[simp] theorem each_brlErrors (h : ∀ a t, (f a t).brlErrors = t.brlErrors) (l : List α) (s : State) : (each l f s).brlErrors = s.brlErrors := each_proj h l s
@[simp] theorem each_mem (h : ∀ a t, (f a t).mem = t.mem) (l : List α) (s : State) : (each l f s).mem = s.mem := each_proj h l s
@[simp] theorem each_ep (h : ∀ a t, (f a t).ep = t.ep) (l : List α) (s : State) : (each l f s).ep = s.ep := each_proj h l s
@[simp] theorem each_yards (h : ∀ a t, (f a t).yards = t.yards) (l : List α) (s : State) : (each l f s).yards = s.yards := each_proj h l s
@[simp] theorem each_time (h : ∀ a t, (f a t).time = t.time) (l : List α) (s : State) : (each l f s).time = s.time := each_proj h l s
@[simp] theorem each_trust (h : ∀ a t, (f a t).trust = t.trust) (l : List α) (s : State) : (each l f s).trust = s.trust := each_proj h l s
@[simp] theorem each_health (h : ∀ a t, (f a t).health = t.health) (l : List α) (s : State) : (each l f s).health = s.health := each_proj h l s
@[simp] theorem each_nv (h : ∀ a t, (f a t).nv = t.nv) (l : List α) (s : State) : (each l f s).nv = s.nv := each_proj h l s
@[simp] theorem each_latches (h : ∀ a t, (f a t).latches = t.latches) (l : List α) (s : State) : (each l f s).latches = s.latches := each_proj h l s
@[simp] theorem each_pending (h : ∀ a t, (f a t).pending = t.pending) (l : List α) (s : State) : (each l f s).pending = s.pending := each_proj h l s

end

/-! ## Draws and updates -/

@[simp] theorem drawNat_mailOnly (s : State) : MailOnly s s.drawNat.2 := by
  simp [State.drawNat]

@[simp] theorem drawBool_mailOnly (s : State) : MailOnly s s.drawBool.2 := by
  simp [State.drawBool]

@[simp] theorem pick_mailOnly (s : State) (n : Nat) : MailOnly s (s.pick n).2 := by
  simp [State.pick]

@[simp] theorem choose_mailOnly {α : Type} (s : State) (l : List α) : MailOnly s (s.choose l).2 := by
  simp [State.choose]

@[simp] theorem drivePins_keepsTimeHealthMem (s : State) (g : PinGroup) : KeepsTimeHealthMem s (s.drivePins g) := by
  simp [State.drivePins]

@[simp] theorem releasePins_keepsTimeHealthMem (s : State) (g : PinGroup) : KeepsTimeHealthMem s (s.releasePins g) := by
  simp [State.releasePins]

@[simp] theorem out_mailOnly (s : State) (o : OutMsg) : MailOnly s (s.out o) := by
  simp [State.out]

@[simp] theorem updPort_keepsRim (s : State) (y k : Nat) (f : FlexPort → FlexPort) : KeepsRim s (s.updPort y k f) := by
  simp [State.updPort]

/-! ## Mailboxes -/

@[simp] theorem setBox_mailOnly (s : State) (b : Mbox) (st : SlotState) : MailOnly s (s.setBox b st) := by
  unfold State.setBox
  split <;> simp

/-! ## Events, counters and the error log -/

@[simp] theorem sendVector_mailOnly (s : State) (v : Nat) : MailOnly s (s.sendVector v) := by
  simp [State.sendVector]

@[simp] theorem askVector_mailOnly (s : State) (v : Nat) : MailOnly s (s.askVector v) := by
  simp [State.askVector]

@[simp] theorem setCause_mailOnly (s : State) (b : Nat) : MailOnly s (s.setCause b) := by
  simp [State.setCause]

@[simp] theorem eqWrite_mailOnly (s : State) (code src : Nat) (body : List Byte) :
    MailOnly s (s.eqWrite code src body) := by
  simp [State.eqWrite]

@[simp] theorem eqOwed_mailOnly (s : State) : MailOnly s s.eqOwed := by
  simp [State.eqOwed]

@[simp] theorem post_mailOnly (s : State) (code src : Nat) (body : List Byte) : MailOnly s (s.post code src body) := by
  simp [State.post]

@[simp] theorem halPulse_mailOnly (s : State) (sources merged : Nat) : MailOnly s (s.halPulse sources merged) := by
  simp [State.halPulse]

@[simp] theorem halTrigger_mailOnly (s : State) (source : Nat) : MailOnly s (s.halTrigger source) := by
  unfold State.halTrigger
  split <;> simp

@[simp] theorem raise_mailOnly (s : State) (code src : Nat) (body : List Byte) : MailOnly s (s.raise code src body) := by
  simp [State.raise]

@[simp] theorem count_mailOnly (s : State) (event n : Nat) (t : Tagged) : MailOnly s (s.count event n t) := by
  simp [State.count]

@[simp] theorem countLink_mailOnly (s : State) (event n : Nat) (t : Tagged) : MailOnly s (s.countLink event n t) := by
  simp [State.countLink]

@[simp] theorem dmaOut_mailOnly (s : State) (host : Nat) (data : List Byte) : MailOnly s (s.dmaOut host data) := by
  simp [State.dmaOut]

@[simp] theorem ethOut_mailOnly (s : State) (m : OutMsg) (n : Nat) : MailOnly s (s.ethOut m n) := by
  simp [State.ethOut]

@[simp] theorem countOther_mailOnly (s : State) (events : List Nat) : MailOnly s (s.countOther events) := by
  simp [State.countOther]

@[simp] theorem hist_mailOnly (s : State) (kind ns : Nat) (master cls : Option Nat) :
    MailOnly s (s.hist kind ns master cls) := by
  simp [State.hist]

@[simp] theorem setErrEntry_undisturbed (s : State) (seq : Nat) (f : ErrEntry → ErrEntry) :
    Undisturbed s (s.setErrEntry seq f) := by
  simp [State.setErrEntry]

@[simp] theorem errUpdated_mailOnly (s : State) (seq : Nat) : MailOnly s (s.errUpdated seq) := by
  unfold State.errUpdated
  split <;> simp

@[simp] theorem errDecide_undisturbed (s : State) (seq : Nat) (passed : Option Bool) (result extra : Nat) :
    Undisturbed s (s.errDecide seq passed result extra) := by
  simp [State.errDecide]

@[simp] theorem scanAtOnce_undisturbed (s : State) (l : Loc) : Undisturbed s (s.scanAtOnce l) := by
  simp [State.scanAtOnce]

@[simp] theorem errWrite_undisturbed (s : State) (cls : Nat) (l : Loc) (i : ErrInfo) :
    Undisturbed s (s.errWrite cls l i) := by
  simp [State.errWrite]

@[simp] theorem errQueue_undisturbed (s : State) (cls : Nat) (l : Loc) (seq : Nat) :
    Undisturbed s (s.errQueue cls l seq) := by
  simp [State.errQueue]

@[simp] theorem logError_undisturbed (s : State) (cls : Nat) (l : Loc) (i : ErrInfo) :
    Undisturbed s (s.logError cls l i) := by
  simp [State.logError]

/-! ## Jobs and engines -/

@[simp] theorem updEngine_undisturbed (s : State) (m : Nat) (f : Engine → Engine) : Undisturbed s (s.updEngine m f) := by
  simp [State.updEngine]

@[simp] theorem updJob_keepsRim (s : State) (id : Nat) (f : Job → Job) : KeepsRim s (s.updJob id f) := by
  simp [State.updJob]

@[simp] theorem mapJobs_keepsRim (s : State) (f : Job → Job) : KeepsRim s (s.mapJobs f) := by
  simp [State.mapJobs]

@[simp] theorem refuseJob_keepsRim (s : State) (id reason : Nat) : KeepsRim s (s.refuseJob id reason) := by
  simp [State.refuseJob]

@[simp] theorem addJob_keepsRim (s : State) (j : Job) : KeepsRim s (s.addJob j).2 := by
  unfold State.addJob
  dsimp only
  split
  · simp
  · split <;> simp

@[simp] theorem sample_mailOnly (s : State) (j : Job) : MailOnly s (s.sample j) := by
  unfold State.sample
  split <;> simp

@[simp] theorem letIn_keepsTimeHealth (s : State) (j : Job) : KeepsTimeHealth s (s.letIn j) := by
  unfold State.letIn
  dsimp only
  split <;> simp

@[simp] theorem startJob_undisturbed (s : State) (m : Nat) : Undisturbed s (s.startJob m).2 := by
  unfold State.startJob
  dsimp only
  split
  · split <;> simp
  · simp

@[simp] theorem completeJob_steady (s : State) (j : Job) (status : Nat) : Steady s (s.completeJob j status) := by
  simp [State.completeJob]

@[simp] theorem requeue_keepsTimeHealth (s : State) (m : Nat) : KeepsTimeHealth s (s.requeue m) := by
  simp [State.requeue]

@[simp] theorem updFrame_keepsRim (s : State) (c : Nat) (seq : BitVec 32) (f : Frame → Frame) :
    KeepsRim s (s.updFrame c seq f) := by
  simp [State.updFrame]

@[simp] theorem addFrameJob_keepsCore (s : State) (c : Nat) (seq : BitVec 32) (j : Job) :
    KeepsCore s (s.addFrameJob c seq j).2 := by
  simp [State.addFrameJob]

@[simp] theorem addUnitJob_keepsCore (s : State) (j : Job) : KeepsCore s (s.addUnitJob j).2 := by
  unfold State.addUnitJob
  dsimp only
  split <;> simp

/-! ## Commands, completions and doorbells -/

@[simp] theorem putResponse_mailOnly (s : State) (c : Cmd) (d : List Byte) : MailOnly s (s.putResponse c d) := by
  simp [State.putResponse]

@[simp] theorem leaveBusy_mailOnly (s : State) (c : Cmd) (response : Option (List Byte)) :
    MailOnly s (s.leaveBusy c response) := by
  unfold State.leaveBusy
  split <;> simp

@[simp] theorem postNow_mailOnly (s : State) (w : WaitCpl) : MailOnly s (s.postNow w) := by
  unfold State.postNow
  dsimp only
  split <;> simp

@[simp] theorem postCpl_mailOnly (s : State) (w : WaitCpl) : MailOnly s (s.postCpl w) := by
  unfold State.postCpl
  split <;> simp

@[simp] theorem cmdLatency_mailOnly (s : State) (c : Cmd) : MailOnly s (s.cmdLatency c) := by
  unfold State.cmdLatency
  split <;> simp

@[simp] theorem reply_mailOnly (s : State) (c : Cmd) (status : Nat) (result : List Byte) (response : Option (List Byte)) :
    MailOnly s (s.reply c status result response) := by
  simp [State.reply]

@[simp] theorem ok_mailOnly (s : State) (c : Cmd) (result : List Byte) : MailOnly s (s.ok c result) := by
  simp [State.ok]

@[simp] theorem badField_mailOnly (s : State) (c : Cmd) (payloadOff : Nat) : MailOnly s (s.badField c payloadOff) := by
  simp [State.badField]

@[simp] theorem badLength_mailOnly (s : State) (c : Cmd) (n : Nat) : MailOnly s (s.badLength c n) := by
  simp [State.badLength]

@[simp] theorem fail_mailOnly (s : State) (c : Cmd) (status : Nat) : MailOnly s (s.fail c status) := by
  simp [State.fail]

@[simp] theorem accept_mailOnly (s : State) (c : Cmd) (key : Nat) (args : List Nat) : MailOnly s (s.accept c key args) := by
  simp [State.accept]

@[simp] theorem finish_mailOnly (s : State) (e : ExecCmd) (status : Nat) (result : List Byte) (response : Option
    (List Byte)) :
    MailOnly s (s.finish e status result response) := by
  simp [State.finish]

@[simp] theorem finishAll_mailOnly (s : State) (op key status : Nat) (result : List Byte) (response : Option (List Byte)) :
    MailOnly s (s.finishAll op key status result response) := by
  simp [State.finishAll]

@[simp] theorem advanceSeq_mailOnly (s : State) (c : Cmd) : MailOnly s (s.advanceSeq c) := by
  unfold State.advanceSeq
  split
  · simp
  · split
    · simp
    · split <;> simp

@[simp] theorem markTaken_mailOnly (s : State) (c : Cmd) : MailOnly s (s.markTaken c) := by
  unfold State.markTaken
  split <;> simp

/-- A property that mail leaves alone survives the check of a form, where what follows the check keeps it. -/
theorem checkForm_keeps {P : State → Prop} (hmail : ∀ t u, MailOnly t u → P t → P u) {k : Cmd → State → State}
    (hk : ∀ c t, P t → P (k c t)) (c : Cmd) (hdr : List Byte) (f : Form) {s : State} (hs : P s) :
    P (s.checkForm c hdr f k) := by
  unfold State.checkForm
  split
  · exact hmail _ _ (by simp) hs
  · split
    · exact hmail _ _ (by simp) hs
    · split
      · exact hmail _ _ (by simp) hs
      · split
        · exact hmail _ _ (by simp) hs
        · split
          · exact hmail _ _ (by simp) hs
          · exact hk c s hs

/-- The same for the check of a sequence number. -/
theorem checkSeq_keeps {P : State → Prop} (hmail : ∀ t u, MailOnly t u → P t → P u) {k : State → State}
    (hk : ∀ t, P t → P (k t)) (c : Cmd) {s : State} (hs : P s) : P (s.checkSeq c k) := by
  unfold State.checkSeq
  split
  · exact hk s hs
  · split
    · exact hmail _ _ (by simp) hs
    · exact hk _ (hmail _ _ (by simp) hs)

@[simp] theorem checkSeq_mailOnly {k : State → State} (hk : ∀ t, MailOnly t (k t)) (s : State) (c : Cmd) :
    MailOnly s (s.checkSeq c k) :=
  checkSeq_keeps (P := MailOnly s) (fun _ _ htu ht => ht.trans htu) (fun t ht => ht.trans (hk t)) c (by simp)

@[simp] theorem sweepOne_mailOnly (s : State) (b : Mbox) : MailOnly s (s.sweepOne b) := by
  simp [State.sweepOne]

@[simp] theorem sweepList_mailOnly (s : State) (bs : List Mbox) : MailOnly s (s.sweepList bs) := by
  simp [State.sweepList]

@[simp] theorem sweep_mailOnly (s : State) (b : Mbox) : MailOnly s (s.sweep b) := by
  simp [State.sweep]

/-- A property that mail leaves alone survives a command, where the command's own effect keeps it. -/
theorem take_keeps {P : State → Prop} (hmail : ∀ t u, MailOnly t u → P t → P u) {k : Cmd → State → State}
    (hk : ∀ c t, P t → P (k c t)) (b : Mbox) (f : Form) {s : State} (hs : P s) : P (s.take b f k) := by
  unfold State.take
  extract_lets c hdr
  split
  · exact hs
  · have htaken : P (s.markTaken c) := hmail s _ (markTaken_mailOnly s c) hs
    exact hmail _ _ (sweep_mailOnly _ b)
      (checkSeq_keeps hmail (fun t ht => checkForm_keeps hmail hk c hdr f ht) c htaken)

@[simp] theorem take_mailOnly {k : Cmd → State → State} (hk : ∀ c t, MailOnly t (k c t)) (s : State) (b : Mbox) (f : Form) :
    MailOnly s (s.take b f k) :=
  take_keeps (P := MailOnly s) (fun _ _ htu ht => ht.trans htu) (fun c t ht => ht.trans (hk c t)) b f (by simp)

@[simp] theorem take_power {k : Cmd → State → State} (hk : ∀ c t, (k c t).power = t.power) (s : State) (b : Mbox) (f : Form) :
    (s.take b f k).power = s.power :=
  take_keeps (P := fun t => t.power = s.power) (fun t u htu ht => by simp [htu, ht]) (fun c t ht => (hk c t).trans ht) b f rfl

@[simp] theorem take_time {k : Cmd → State → State} (hk : ∀ c t, (k c t).time = t.time) (s : State) (b : Mbox) (f : Form) :
    (s.take b f k).time = s.time :=
  take_keeps (P := fun t => t.time = s.time) (fun t u htu ht => by simp [htu, ht]) (fun c t ht => (hk c t).trans ht) b f rfl

@[simp] theorem take_health {k : Cmd → State → State} (hk : ∀ c t, (k c t).health = t.health) (s : State) (b : Mbox) (f : Form) :
    (s.take b f k).health = s.health :=
  take_keeps (P := fun t => t.health = s.health) (fun t u htu ht => by simp [htu, ht]) (fun c t ht => (hk c t).trans ht) b f rfl

@[simp] theorem take_mem {k : Cmd → State → State} (hk : ∀ c t, (k c t).mem = t.mem) (s : State) (b : Mbox) (f : Form) :
    (s.take b f k).mem = s.mem :=
  take_keeps (P := fun t => t.mem = s.mem) (fun t u htu ht => by simp [htu, ht]) (fun c t ht => (hk c t).trans ht) b f rfl

@[simp] theorem take_pending {k : Cmd → State → State} (hk : ∀ c t, (k c t).pending = t.pending) (s : State) (b : Mbox) (f : Form) :
    (s.take b f k).pending = s.pending :=
  take_keeps (P := fun t => t.pending = s.pending) (fun t u htu ht => by simp [htu, ht]) (fun c t ht => (hk c t).trans ht) b f rfl

@[simp] theorem ring_mailOnly (s : State) (n : Nat) : MailOnly s (s.ring n) := by
  simp [State.ring]

@[simp] theorem ringAll_mailOnly (s : State) (hi : Bool) (v : Word) : MailOnly s (s.ringAll hi v) := by
  simp [State.ringAll]

@[simp] theorem releaseAll_mailOnly (s : State) (hi : Bool) (v : Word) : MailOnly s (s.releaseAll hi v) :=
  each_keeps (P := MailOnly s) _ (by simp) fun _ _ t ht => by simp [ht]

@[simp] theorem mgRing_mailOnly (s : State) (v : Nat) : MailOnly s (s.mgRing v) := by
  simp [State.mgRing]

@[simp] theorem mgFree_mailOnly (s : State) (v : Nat) : MailOnly s (s.mgFree v) := 
  each_keeps (P := MailOnly s) _ (by simp) fun _ _ t ht => by simp [ht]

@[simp] theorem writeSlot_mailOnly (s : State) (n off : Nat) (d : List Byte) : MailOnly s (s.writeSlot n off d) := by
  simp [State.writeSlot]

@[simp] theorem unmask_mailOnly (s : State) (v : Nat) : MailOnly s (s.unmask v) := by
  simp [State.unmask]

/-! ## Sessions -/

@[simp] theorem orphanWaiting_mailOnly (s : State) (n : Nat) : MailOnly s (s.orphanWaiting n) := by
  simp [State.orphanWaiting]

@[simp] theorem closeSession_mailOnly (s : State) (n : Nat) (expired : Bool) : MailOnly s (s.closeSession n expired) := by
  simp [State.closeSession]

@[simp] theorem openSession_mailOnly (s : State) (k : Nat) (slots : List Nat) (primary : Bool) (heartbeat first : Nat) :
    MailOnly s (s.openSession k slots primary heartbeat first) := by
  unfold State.openSession
  dsimp only
  have slots_mailOnly (t : State) :
    MailOnly t (each slots (fun n s => s.updSlot n fun x => { x with owner := some k, closing := false, expired := false }) t) :=
    each_keeps (P := MailOnly t) _ (by simp) fun _ _ u hu => by simp [hu]
  simp [slots_mailOnly]

@[simp] theorem sessionOpenBody_mailOnly (c : Cmd) (s : State) : MailOnly s (sessionOpenBody c s) := by
  unfold sessionOpenBody
  dsimp only
  repeat' split
  all_goals simp

@[simp] theorem sessionCloseBody_mailOnly (c : Cmd) (s : State) : MailOnly s (sessionCloseBody c s) := by
  simp [sessionCloseBody]

@[simp] theorem sessionHeartbeatBody_mailOnly (c : Cmd) (s : State) : MailOnly s (sessionHeartbeatBody c s) := by
  simp [sessionHeartbeatBody]

@[simp] theorem devInfoBody_mailOnly (c : Cmd) (s : State) : MailOnly s (devInfoBody c s) := by
  simp [devInfoBody]

@[simp] theorem askWarm_keepsTimeHealth (s : State) (cause : Byte) : KeepsTimeHealth s (s.askWarm cause) := by
  simp [State.askWarm]

@[simp] theorem sessionOrphansBody_mailOnly (c : Cmd) (s : State) : MailOnly s (sessionOrphansBody c s) := by
  simp [sessionOrphansBody]

@[simp] theorem eventMaskBody_mailOnly (c : Cmd) (s : State) : MailOnly s (eventMaskBody c s) := by
  simp [eventMaskBody]

@[simp] theorem primaryClaimBody_mailOnly (c : Cmd) (s : State) : MailOnly s (primaryClaimBody c s) := by
  simp [primaryClaimBody]

/-! ## Staging -/

@[simp] theorem cfgStageBeginBody_undisturbed (c : Cmd) (s : State) : Undisturbed s (cfgStageBeginBody c s) := by
  simp [cfgStageBeginBody]

@[simp] theorem cfgStageBlockBody_undisturbed (c : Cmd) (s : State) : Undisturbed s (cfgStageBlockBody c s) := by
  unfold cfgStageBlockBody
  dsimp only
  repeat' split
  all_goals simp

@[simp] theorem cfgStageDiscardBody_undisturbed (c : Cmd) (s : State) : Undisturbed s (cfgStageDiscardBody c s) := by
  simp [cfgStageDiscardBody]

@[simp] theorem cfgStatusBody_mailOnly (c : Cmd) (s : State) : MailOnly s (cfgStatusBody c s) := by
  simp [cfgStatusBody]

@[simp] theorem cfgReadBlockBody_mailOnly (c : Cmd) (s : State) : MailOnly s (cfgReadBlockBody c s) := by
  unfold cfgReadBlockBody
  dsimp only
  split
  · simp
  · split <;> simp

@[simp] theorem loadLuts_keepsRim (s : State) (bs : List Block) : KeepsRim s (s.loadLuts bs) := by
  unfold State.loadLuts
  refine each_keeps (P := KeepsRim s) _ (by simp) fun _ _ t ht => ?_
  dsimp only
  split
  · exact ht
  · split <;> simp [ht]

@[simp] theorem armGen_keepsRim (s : State) (g : Gen) (kind : ArmKind) (timeoutMs : Nat) :
    KeepsRim s (s.armGen g kind timeoutMs) := by
  simp [State.armGen]

@[simp] theorem probationFail_keepsRim (s : State) (row ctx : Nat) : KeepsRim s (s.probationFail row ctx) := by
  unfold State.probationFail
  dsimp only
  split
  · simp
  · split
    · simp
    · split <;> simp

/-! ## Capture memory -/

@[simp] theorem unmappedAt_keepsCore (s : State) (master addr : Nat) : KeepsCore s (s.unmappedAt master addr) := by
  unfold State.unmappedAt State.raiseLimited
  dsimp only
  split <;> simp

@[simp] theorem access_keepsCore (s : State) (event master addr n : Nat) (c : Cell) :
    KeepsCore s (s.access event master addr n c) := by
  simp [State.access]

@[simp] theorem reach_keepsCore (s : State) (event master addr n : Nat) : KeepsCore s (s.reach event master addr n) := by
  unfold State.reach
  refine each_keeps (P := KeepsCore s) _ (by simp) fun a _ t ht => ?_
  dsimp only
  split
  · split <;> simp [ht]
  · simp [ht]

@[simp] theorem reachPage_keepsCore (s : State) (page : Nat) : KeepsCore s (s.reachPage page) :=
  each_keeps (P := KeepsCore s) _ (by simp) fun _ _ t ht => by simp [ht]

@[simp] theorem capWrite_keepsCore (s : State) (master addr : Nat) (d : List Byte) :
    KeepsCore s (s.capWrite master addr d) := by
  simp [State.capWrite]

@[simp] theorem mapPage_keepsCore (s : State) (logical kind stack : Nat) : KeepsCore s (s.mapPage logical kind stack) := by
  unfold State.mapPage
  dsimp only
  split <;> simp

@[simp] theorem mapPages_keepsCore (s : State) (first kind : Nat) (js : List Nat) :
    KeepsCore s (s.mapPages first kind js) := by
  unfold State.mapPages
  refine each_keeps (P := KeepsCore s) _ (by simp) fun a _ t ht => ?_
  split
  · simp [ht]
  · exact ht

@[simp] theorem unmapFrom_keepsCore (s : State) (r : Region) (j : Nat) : KeepsCore s (s.unmapFrom r j) := by
  simp [State.unmapFrom]

@[simp] theorem alloc_keepsCore (s : State) (use owner kind bytes : Nat) : KeepsCore s (s.alloc use owner kind bytes) := by
  unfold State.alloc
  generalize ceilDiv bytes pageBytes = pages
  revert pages
  -- `id` keeps the page count a variable for the kernel, which else evaluates the division on unary numbers
  refine id fun pages => ?_
  dsimp only
  split
  · simp
  · split <;> simp

@[simp] theorem release_keepsCore (s : State) (use owner : Nat) : KeepsCore s (s.release use owner) := by
  unfold State.release
  split <;> simp

@[simp] theorem retirePage_keepsCore (s : State) (p logical : Nat) : KeepsCore s (s.retirePage p logical) := by
  simp [State.retirePage]

@[simp] theorem repairRow_keepsTimeHealth (s : State) (l : Loc) : KeepsTimeHealth s (s.repairRow l) := by
  simp [State.repairRow]

@[simp] theorem startMigration_keepsCore (s : State) (p : Nat) (retireOld : Bool) :
    KeepsCore s (s.startMigration p retireOld) := by
  unfold State.startMigration
  dsimp only
  split <;> simp

@[simp] theorem retireRowPage_keepsTimeHealth (s : State) (p : Nat) : KeepsTimeHealth s (s.retireRowPage p) := by
  simp [State.retireRowPage]

@[simp] theorem memLasting_keepsTimeHealth (s : State) (l : Loc) : KeepsTimeHealth s (s.memLasting l).2 := by
  simp [State.memLasting]

@[simp] theorem endMigration_keepsCore (s : State) (m : Migration) : KeepsCore s (s.endMigration m) := by
  unfold State.endMigration
  dsimp only
  split <;> simp

@[simp] theorem retireWaiting_keepsCore (s : State) : KeepsCore s s.retireWaiting := by
  simp [State.retireWaiting]

@[simp] theorem againMigration_keepsTimeHealth (s : State) (m : Migration) : KeepsTimeHealth s (s.againMigration m) := by
  simp [State.againMigration]

@[simp] theorem eccAt_steady (s : State) (c : Cell) : Steady s (s.eccAt c) := by
  simp [State.eccAt]

@[simp] theorem eccSeen_steady (s : State) (l : List Nat) (i : ErrInfo) : Steady s (s.eccSeen l i) := by
  unfold State.eccSeen
  refine each_keeps (P := Steady s) _ (by simp) fun a _ t ht => ?_
  split <;> simp [ht]

@[simp] theorem tileMiss_steady (s : State) (m : TileMiss) (tagAddr : Nat) (i : ErrInfo) (quiet : Bool) :
    Steady s (s.tileMiss m tagAddr i quiet) := by
  unfold State.tileMiss
  refine each_keeps (P := Steady s) _ (by simp) fun a _ t ht => ?_
  split <;> simp [ht]

@[simp] theorem refresh_steady (s : State) (pc : Nat) : Steady s (s.refresh pc) := by
  simp [State.refresh]

@[simp] theorem hotMode_keepsPowerTime (s : State) (k : Nat) (temp : Int) : KeepsPowerTime s (s.hotMode k temp) := by
  simp [State.hotMode]

@[simp] theorem memLocateBody_mailOnly (c : Cmd) (s : State) : MailOnly s (memLocateBody c s) := by
  unfold memLocateBody
  dsimp only
  split <;> simp

@[simp] theorem memTrainLogBody_mailOnly (c : Cmd) (s : State) : MailOnly s (memTrainLogBody c s) := by
  simp [memTrainLogBody]

@[simp] theorem memRetiredBody_mailOnly (c : Cmd) (s : State) : MailOnly s (memRetiredBody c s) := by
  simp [memRetiredBody]

/-! ## Segments and seal records -/

@[simp] theorem sign_undisturbed (s : State) (seed msg : List Byte) : Undisturbed s (s.sign seed msg).2 := by
  simp [State.sign]

@[simp] theorem openSegment_keepsRim (s : State) (n first : Nat) (discs : List (List Byte)) :
    KeepsRim s (s.openSegment n first discs) := by
  simp [State.openSegment]

@[simp] theorem addSealRec_keepsRim (s : State) (n kind : Nat) (bytes : List Byte) (signed : Bool) :
    KeepsRim s (s.addSealRec n kind bytes signed) := by
  simp [State.addSealRec]

@[simp] theorem closeSegment_keepsRim (s : State) (n cause : Nat) : KeepsRim s (s.closeSegment n cause) := by
  unfold State.closeSegment
  dsimp only
  split <;> simp [State.raiseLimited]

@[simp] theorem absorb_steady (s : State) (n fuel : Nat) (d : List Byte) : Steady s (s.absorb n fuel d).2 := by
  induction fuel generalizing s d with
  | zero => simp [State.absorb]
  | succ fuel ih =>
    unfold State.absorb
    split
    · simp
    · dsimp only
      split <;> simp [ih]

@[simp] theorem absorbAll_steady (s : State) (n : Nat) (d : List Byte) : Steady s (s.absorbAll n d).2 := by
  simp [State.absorbAll]

@[simp] theorem discontinuity_keepsPowerHealthMem (s : State) (base cause : Nat) (stepNs : Int) :
    KeepsPowerHealthMem s (s.discontinuity base cause stepNs) := by
  unfold State.discontinuity
  refine each_keeps (P := KeepsPowerHealthMem s) _ (by simp) fun a _ t ht => ?_
  dsimp only
  split <;> simp [ht]

@[simp] theorem closeSegments_keepsCore (s : State) (cause : Nat) : KeepsCore s (s.closeSegments cause) := by
  simp [State.closeSegments]

@[simp] theorem signNext_steady (s : State) : Steady s s.signNext := by
  unfold State.signNext
  dsimp only
  split
  · simp
  · split <;> simp

@[simp] theorem wrapFor_mailOnly (s : State) (n : Nat) (key header : List Byte) :
    MailOnly s (s.wrapFor n key header).2 := by
  simp [State.wrapFor]

@[simp] theorem wrapAll_mailOnly (s : State) (n : Nat) (header : List Byte) (ks : List (List Byte)) :
    MailOnly s (s.wrapAll n header ks).2 := by
  induction ks generalizing s with
  | nil => simp [State.wrapAll]
  | cons k ks ih => simp [State.wrapAll, ih]

@[simp] theorem makeKeyRecord_steady (s : State) (n : Nat) : Steady s (s.makeKeyRecord n).2 := by
  simp [State.makeKeyRecord]

/-! ## Generations as they apply -/

@[simp] theorem startPersist_keepsRim (s : State) : KeepsRim s s.startPersist := by
  simp [State.startPersist]

@[simp] theorem probationPass_keepsRim (s : State) : KeepsRim s s.probationPass := by
  simp [State.probationPass]

@[simp] theorem noteCaptured_keepsCore (s : State) : KeepsCore s s.noteCaptured := by
  unfold State.noteCaptured
  split <;> simp

@[simp] theorem probationCheck_keepsCore (s : State) : KeepsCore s s.probationCheck := by
  unfold State.probationCheck
  dsimp only
  split <;> simp

@[simp] theorem policyLive_keepsCore (s : State) (before now : Option Gen) : KeepsCore s (s.policyLive before now) := by
  unfold State.policyLive
  dsimp only
  split <;> simp

@[simp] theorem goLive_keepsCore (s : State) : KeepsCore s s.goLive := by
  unfold State.goLive
  dsimp only
  split
  · simp
  · split
    · simp
    · split <;> simp

@[simp] theorem allocNew_keepsCore (s : State) (use c kind bytes : Nat) : KeepsCore s (s.allocNew use c kind bytes) := by
  simp [State.allocNew]

@[simp] theorem layRing_keepsCore (s : State) (c : Nat) : KeepsCore s (s.layRing c) := by
  unfold State.layRing
  split <;> simp

@[simp] theorem storeMap_keepsCore (s : State) (base : Nat) (p : List Byte) : KeepsCore s (s.storeMap base p) := by
  simp [State.storeMap]

@[simp] theorem setRing_keepsCore (s : State) (c : Nat) (k : RingKind) (r : FrameRing) : KeepsCore s (s.setRing c k r) := by
  unfold State.setRing
  split <;> simp

@[simp] theorem putRing_keepsCore (s : State) (c : Nat) (k : RingKind) (q : BitVec 32) (d : List Byte) :
    KeepsCore s (s.putRing c k q d) := by
  simp [State.putRing]

@[simp] theorem sizeRange_keepsCore (s : State) (use owner kind bytes : Nat) :
    KeepsCore s (s.sizeRange use owner kind bytes) := by
  simp [State.sizeRange]

@[simp] theorem layRings_keepsCore (s : State) (c : Nat) : KeepsCore s (s.layRings c) := by
  simp [State.layRings]

@[simp] theorem layDeveloper_keepsCore (s : State) (c : Nat) (types : List Nat) : KeepsCore s (s.layDeveloper c types) := by
  unfold State.layDeveloper
  extract_lets b hit give rings worked given base mapped
  have hgive (use bytes : Nat) (t : State) : KeepsCore t (give use bytes t) := by simp [give]
  have hworked : KeepsCore s worked := by simp [worked, rings, hgive]
  have hmapped : KeepsCore s mapped := by
    unfold mapped
    split
    · refine each_keeps (P := KeepsCore s) _ (by simp [given, hgive, hworked]) fun i _ t ht => ?_
      split <;> simp [ht]
    · exact hworked
  simp [hgive, hmapped]

@[simp] theorem freeOld_keepsCore (s : State) : KeepsCore s s.freeOld := by
  simp [State.freeOld]

@[simp] theorem setAside_keepsCore (s : State) (e : Nat) (upto : BitVec 32) : KeepsCore s (s.setAside e upto) := by
  simp [State.setAside]

@[simp] theorem freeEncs_keepsCore (s : State) : KeepsCore s s.freeEncs := by
  unfold State.freeEncs
  refine each_keeps (P := KeepsCore s) _ (by simp) fun k _ t ht => ?_
  dsimp only
  split
  · exact ht
  · split <;> simp [ht]

@[simp] theorem layEncodings_keepsCore (s : State) (c : Nat) (before : List (Nat × Nat × List Byte)) :
    KeepsCore s (s.layEncodings c before) := by
  unfold State.layEncodings
  dsimp only
  refine each_keeps (P := KeepsCore s) _ (each_keeps (P := KeepsCore s) _ (by simp) fun (e, codec, ent) _ t ht => ?removed)
    fun (e, codec, ent) _ t ht => ?laid
  case removed =>
    dsimp only
    split
    · exact ht
    · split <;> simp [ht]
  case laid =>
    dsimp only
    split <;> split <;> (try split) <;> simp [ht]

@[simp] theorem applyKeys_keepsCore (s : State) (c : Nat) (keys : List (Nat × Nat)) :
    KeepsCore s (s.applyKeys c keys).2 := by
  unfold State.applyKeys
  split <;> simp

@[simp] theorem applyCtx_steady (s : State) (c : Nat) : Steady s (s.applyCtx c).2 := by
  simp [State.applyCtx]

/-! ## The energy ledger -/

@[simp] theorem noteReceived_undisturbed (s : State) (n : Nat) : Undisturbed s (s.noteReceived n) := by
  simp [State.noteReceived]

@[simp] theorem chargeReceived_keepsTimeHealth (s : State) : KeepsTimeHealth s s.chargeReceived := by
  simp [State.chargeReceived]

theorem passOne_keepsTimeHealth {eligible : State → Job → Bool} {letIn : Job → State → State}
    (hin : ∀ j t, KeepsTimeHealth t (letIn j t)) (id : Nat) (p : Pass × State) :
    KeepsTimeHealth p.2 (passOne eligible letIn id p).2 := by
  unfold passOne
  split
  split
  · simp
  · split
    · simp
    · split
      · simp
      · dsimp only
        split
        · split <;> simp
        · simp [hin]

@[simp] theorem runWindow_keepsTimeHealth {letIn : Job → State → State}
    (hin : ∀ j t, KeepsTimeHealth t (letIn j t)) (s : State) (eligible : State → Job → Bool) :
    KeepsTimeHealth s (s.runWindow eligible letIn) := by
  unfold State.runWindow
  extract_lets l credit cap kept bank carry lanes baseG baseline c0mem c0bits avail draw draw' groups p0 ids
  have hpass (a : Pass) : KeepsTimeHealth s (ids.foldl (fun acc id => passOne eligible letIn id acc) (a, s)).2 :=
    List.foldlRecOn (motive := fun p : Pass × State => KeepsTimeHealth s p.2) _ _ (by simp)
      fun p hp id _ => by simp [hp, passOne_keepsTimeHealth hin]
  simp [hpass, State.raiseLimited]

@[simp] theorem deliver_keepsCore (s : State) (j : Job) (w : BitVec 32) : KeepsCore s (s.deliver j w) := by
  unfold State.deliver
  split <;> simp

@[simp] theorem refusalEvent_keepsTimeHealth (s : State) : KeepsTimeHealth s s.refusalEvent := by
  simp [State.refusalEvent]

@[simp] theorem telemetry_undisturbed (s : State) (t : Telemetry) : Undisturbed s (s.telemetry t) := by
  unfold State.telemetry
  extract_lets one s'
  have hone : Undisturbed s s' := each_keeps (P := Undisturbed s) _ (by simp) fun g _ u hu => by
    unfold one
    split <;> simp [hu]
  simp [hone]

/-! ## Sensor lanes -/

@[simp] theorem ltc_mailOnly (s : State) (sensor reg v : Nat) : MailOnly s (s.ltc sensor reg v) := by
  simp [State.ltc]

@[simp] theorem scpFault_undisturbed (s : State) (sensor failure addr reg : Nat) (firmware : Bool) :
    Undisturbed s (s.scpFault sensor failure addr reg firmware) := by
  simp [State.scpFault]

@[simp] theorem fwTransfer_undisturbed {done : State → State} (hdone : ∀ t, Undisturbed t (done t)) (s : State) (sensor addr reg : Nat) :
    Undisturbed s (s.fwTransfer sensor addr reg done) := by
  simp [State.fwTransfer, hdone]

@[simp] theorem sendCcc_keepsTimeMem (s : State) (n addr : Nat) (code : Ccc) : KeepsTimeMem s (s.sendCcc n addr code) := by
  simp [State.sendCcc]

@[simp] theorem portSync_keepsTimeMem (s : State) (n : Nat) : KeepsTimeMem s (s.portSync n) := by
  simp [State.portSync]

@[simp] theorem srefSync_keepsTimeMem (s : State) : KeepsTimeMem s s.srefSync := by
  simp [State.srefSync]

@[simp] theorem startTraining_undisturbed (s : State) (n : Nat) : Undisturbed s (s.startTraining n) := by
  simp [State.startTraining]

@[simp] theorem flagOpen_undisturbed (s : State) (a b c : Nat) : Undisturbed s (s.flagOpen a b c) := by
  unfold State.flagOpen
  refine each_keeps (P := Undisturbed s) _ (by simp) fun a _ t ht => ?_
  dsimp only
  split <;> simp [ht]

@[simp] theorem flagAll_undisturbed (s : State) (sensor b : Nat) : Undisturbed s (s.flagAll sensor b) := by
  simp [State.flagAll]

@[simp] theorem linkLost_undisturbed (s : State) (sensor : Nat) : Undisturbed s (s.linkLost sensor) := by
  simp [State.linkLost]

@[simp] theorem failShroud_undisturbed (s : State) (n reason lanes : Nat) :
    Undisturbed s (s.failShroud n reason lanes) := by
  simp [State.failShroud]

@[simp] theorem trainShroud_undisturbed (s : State) (n : Nat) (t : TrainFacts) : Undisturbed s (s.trainShroud n t) := by
  unfold State.trainShroud
  dsimp only
  split
  · split <;> simp
  · simp

@[simp] theorem trainTimeout_undisturbed (s : State) (n micros : Nat) : Undisturbed s (s.trainTimeout n micros) := by
  simp [State.trainTimeout]

@[simp] theorem linkLossInProbation_undisturbed (s : State) (n : Nat) : Undisturbed s (s.linkLossInProbation n) := by
  simp [State.linkLossInProbation]

@[simp] theorem endLoopback_undisturbed (s : State) (n : Nat) (counted : Option (Nat × Nat)) :
    Undisturbed s (s.endLoopback n counted) := by
  simp [State.endLoopback]

@[simp] theorem relocked_steady (s : State) (n : Nat) (f : RelockFacts) : Steady s (s.relocked n f) := by
  simp [State.relocked]

@[simp] theorem enterRelock_steady (s : State) (n : Nat) (ls : List Nat) (cdr : Option Nat) (counted : Option (Nat × Nat))
    (relock : Option RelockFacts) :
    Steady s (s.enterRelock n ls cdr counted relock) := by
  unfold State.enterRelock
  split <;> simp

@[simp] theorem lockLost_steady (s : State) (n : Nat) (lanes : BitVec 16) (f : LockLoss) :
    Steady s (s.lockLost n lanes f) := by
  unfold State.lockLost
  split <;> simp

@[simp] theorem drawSearch_undisturbed (s : State) (n : Nat) : Undisturbed s (s.drawSearch n) := by
  simp [State.drawSearch]

@[simp] theorem relockTimeout_undisturbed (s : State) (n : Nat) : Undisturbed s (s.relockTimeout n) := by
  simp [State.relockTimeout]

@[simp] theorem trackDfe_steady (s : State) (n : Nat) : Steady s (s.trackDfe n) := by
  simp [State.trackDfe]

@[simp] theorem alignPeriod_steady (s : State) (n : Nat) (p : AlignPeriod) (precode : BitVec 16) :
    Steady s (s.alignPeriod n p precode) := by
  simp [State.alignPeriod]

@[simp] theorem hdrErrBurst_undisturbed (s : State) (n lane count : Nat) : Undisturbed s (s.hdrErrBurst n lane count) := by
  simp [State.hdrErrBurst, State.raiseLimited]

@[simp] theorem eyeDone_undisturbed (s : State) (n lane : Nat) (f : EyeFacts) : Undisturbed s (s.eyeDone n lane f) := by
  simp [State.eyeDone]

@[simp] theorem loopbackDone_undisturbed (s : State) (n bits errors : Nat) :
    Undisturbed s (s.loopbackDone n bits errors) := by
  unfold State.loopbackDone
  dsimp only
  split <;> simp

@[simp] theorem slRetrainBody_steady (c : Cmd) (s : State) : Steady s (slRetrainBody c s) := by
  simp [slRetrainBody]

@[simp] theorem slEyeScanBody_undisturbed (c : Cmd) (s : State) : Undisturbed s (slEyeScanBody c s) := by
  simp [slEyeScanBody]

@[simp] theorem slLoopbackBody_undisturbed (c : Cmd) (s : State) : Undisturbed s (slLoopbackBody c s) := by
  simp [slLoopbackBody]

@[simp] theorem slTrainLogBody_mailOnly (c : Cmd) (s : State) : MailOnly s (slTrainLogBody c s) := by
  simp [slTrainLogBody]

@[simp] theorem scpTransfer_undisturbed (s : State) (c : Cmd) (write : Bool) (f : ScpFacts) :
    Undisturbed s (s.scpTransfer c write f) := by
  simp [State.scpTransfer]

/-! ## Landing -/

@[simp] theorem skipReference_steady (s : State) (c : Nat) (q : BitVec 32) : Steady s (s.skipReference c q) := by
  unfold State.skipReference
  dsimp only
  split <;> simp

@[simp] theorem supersede_steady (s : State) (c k : Nat) : Steady s (s.supersede c k) := by
  simp [State.supersede]

@[simp] theorem takeSlot_steady (s : State) (c k : Nat) : Steady s (s.takeSlot c k) := by
  simp [State.takeSlot]

@[simp] theorem chooseSlot_steady (s : State) (c mode : Nat) : Steady s (s.chooseSlot c mode).2 := by
  unfold State.chooseSlot
  dsimp only
  split
  · simp
  · split <;> simp

@[simp] theorem updOpen_steady (s : State) (sensor vc : Nat) (f : OpenFrame → OpenFrame) :
    Steady s (s.updOpen sensor vc f) := by
  simp [State.updOpen]

@[simp] theorem refusing_steady (s : State) (c : Nat) (flagged : Bool) (seq : BitVec 32) :
    Steady s (s.refusing c flagged seq) := by
  simp [State.refusing, State.raiseLimited]

@[simp] theorem setTrigger_undisturbed (s : State) (c : Nat) (q : BitVec 32) (t : Nanos) (source fsNs : Nat) :
    Undisturbed s (s.setTrigger c q t source fsNs) := by
  simp [State.setTrigger]

@[simp] theorem trigger_undisturbed (s : State) (c source : Nat) : Undisturbed s (s.trigger c source).2 := by
  unfold State.trigger
  dsimp only
  repeat' split
  all_goals simp

@[simp] theorem freeze_steady (s : State) (c : Nat) : Steady s (s.freeze c) := by
  simp [State.freeze]

@[simp] theorem snapDone_steady (s : State) (c : Nat) : Steady s (s.snapDone c) := by
  simp [State.snapDone]

@[simp] theorem stopCapture_steady (s : State) (c : Nat) : Steady s (s.stopCapture c) := by
  simp [State.stopCapture]

@[simp] theorem storeRow_steady (s : State) (master addr w d row : Nat) (bytes : List Byte) :
    Steady s (s.storeRow master addr w d row bytes) := by
  simp [State.storeRow]

@[simp] theorem countLanded_steady (s : State) (n : Nat) : Steady s (s.countLanded n) := by
  simp [State.countLanded]

@[simp] theorem landBand_steady (s : State) (master : Nat) (f : Frame) (b : Nat) : Steady s (s.landBand master f b) := by
  simp [State.landBand]

@[simp] theorem fillRow_steady (s : State) (sensor vc row : Nat) (bytes : List Byte) (asPad : Bool) :
    Steady s (s.fillRow sensor vc row bytes asPad) := by
  unfold State.fillRow
  dsimp only
  split
  · simp
  · split
    · simp
    · split <;> simp

@[simp] theorem tap_steady (s : State) (c row : Nat) (link payload : List Byte) : Steady s (s.tap c row link payload) := by
  unfold State.tap
  split <;> simp

@[simp] theorem addFlicker_steady (s : State) (c : Nat) (q : BitVec 32) (gen form tNum tDen tRef : Nat)
    (first : BitVec 32) (tap : FlickTap) (fk : List Byte) :
    Steady s (s.addFlicker c q gen form tNum tDen tRef first tap fk) := by
  simp [State.addFlicker]

@[simp] theorem rowProfile_steady (s : State) (c : Nat) (f : Frame) (fk core : List Byte) :
    Steady s (s.rowProfile c f fk core) := by
  simp [State.rowProfile]

@[simp] theorem seriesSample_steady (s : State) (c : Nat) (f : Frame) (fk core : List Byte) :
    Steady s (s.seriesSample c f fk core) := by
  simp [State.seriesSample]

@[simp] theorem landedSteep_steady (s : State) (c : Nat) (q : BitVec 32) : Steady s (s.landedSteep c q) := by
  unfold State.landedSteep
  split
  · simp
  · split <;> simp

@[simp] theorem countFinal_keepsCore (s : State) (c : Nat) (seq : BitVec 32) : KeepsCore s (s.countFinal c seq) := by
  unfold State.countFinal
  dsimp only
  split <;> simp

@[simp] theorem probationLanded_steady (s : State) (c opened : Nat) : Steady s (s.probationLanded c opened) := by
  simp [State.probationLanded]

@[simp] theorem fenceDone_steady (s : State) : Steady s s.fenceDone := by
  simp [State.fenceDone]

@[simp] theorem closeRecord_steady (s : State) (o : OpenFrame) (q w : BitVec 32) (cause : Nat) :
    Steady s (s.closeRecord o q w cause) := by
  unfold State.closeRecord
  dsimp only
  split <;> simp [State.raiseLimited]

@[simp] theorem closeFrame_steady (s : State) (sensor vc cause : Nat) : Steady s (s.closeFrame sensor vc cause) := by
  unfold State.closeFrame
  split
  · simp
  · split <;> simp

@[simp] theorem startStop_steady (s : State) (c : Nat) : Steady s (s.startStop c) := by
  simp [State.startStop]

@[simp] theorem stopTakes_steady (s : State) (c : Nat) : Steady s (s.stopTakes c) := by
  simp [State.stopTakes]

@[simp] theorem openRecord_steady (s : State) (c : Nat) (number : BitVec 32) (genReset : Bool) :
    Steady s (s.openRecord c number genReset).2.2 := by
  unfold State.openRecord
  dsimp only
  split
  · split <;> simp
  · simp

@[simp] theorem openFrame_steady (s : State) (sensor vc shroud : Nat) (number : BitVec 32) (c : Nat) :
    Steady s (s.openFrame sensor vc shroud number c) := by
  simp [State.openFrame]

@[simp] theorem unbound_undisturbed (s : State) (sensor : Nat) : Undisturbed s (s.unbound sensor) := by
  simp [State.unbound]

@[simp] theorem fsCloses_steady (s : State) (shroud vc : Nat) (number : BitVec 32) :
    Steady s (s.fsCloses shroud vc number) := by
  unfold State.fsCloses
  dsimp only
  split
  · simp
  · split <;> simp

@[simp] theorem fs_steady (s : State) (shroud vc : Nat) (number : BitVec 32) : Steady s (s.fs shroud vc number) := by
  unfold State.fs
  dsimp only
  split
  · simp
  · split
    · simp
    · split <;> simp

@[simp] theorem stray_steady (s : State) (sensor : Nat) : Steady s (s.stray sensor) := by
  simp [State.stray]

@[simp] theorem fe_steady (s : State) (shroud vc : Nat) (number : BitVec 32) : Steady s (s.fe shroud vc number) := by
  unfold State.fe
  dsimp only
  split
  · simp
  · split
    · simp
    · split <;> simp

@[simp] theorem checkPayload_steady (s : State) (sensor : Nat) (p : LongPacket) (line : Bool) :
    Steady s (s.checkPayload sensor p line) := by
  simp [State.checkPayload]

@[simp] theorem drainFifo_steady (s : State) (shroud : Nat) : Steady s (s.drainFifo shroud) := by
  simp [State.drainFifo]

@[simp] theorem enterFifo_steady (s : State) (shroud c bytes : Nat) : Steady s (s.enterFifo shroud c bytes).2 := by
  simp [State.enterFifo, State.raiseLimited]

@[simp] theorem fillWindow_steady (s : State) (sensor vc m : Nat) : Steady s (s.fillWindow sensor vc m) := by
  unfold State.fillWindow
  split <;> simp

@[simp] theorem placeLine_steady (s : State) (sensor shroud : Nat) (p : LongPacket) (o : OpenFrame) :
    Steady s (s.placeLine sensor shroud p o) := by
  unfold State.placeLine
  repeat' split
  all_goals simp

@[simp] theorem markerLine_steady (s : State) (sensor shroud : Nat) (p : LongPacket) :
    Steady s (s.markerLine sensor shroud p) := by
  simp [State.markerLine]

@[simp] theorem noFrame_steady (s : State) (sensor : Nat) : Steady s (s.noFrame sensor) := by
  simp [State.noFrame]

@[simp] theorem line_steady (s : State) (shroud : Nat) (p : LongPacket) : Steady s (s.line shroud p) := by
  unfold State.line
  dsimp only
  repeat' split
  all_goals simp

@[simp] theorem placeEmbedded_steady (s : State) (sensor vc : Nat) (o : OpenFrame) (d : List Byte) (user : Bool) :
    Steady s (s.placeEmbedded sensor vc o d user) := by
  unfold State.placeEmbedded
  dsimp only
  split <;> simp

@[simp] theorem data_steady (s : State) (shroud : Nat) (p : LongPacket) (user : Bool) :
    Steady s (s.data shroud p user) := by
  unfold State.data
  dsimp only
  repeat' split
  all_goals simp

@[simp] theorem mark_undisturbed (s : State) (shroud vc line : Nat) (start : Bool) :
    Undisturbed s (s.mark shroud vc line start) := by
  simp [State.mark]

@[simp] theorem stat_undisturbed (s : State) (shroud vc : Nat) (value : Word) : Undisturbed s (s.stat shroud vc value) := by
  simp [State.stat]

@[simp] theorem cutPacket_steady (s : State) (shroud : Nat) (cut : Option LongPacket) :
    Steady s (s.cutPacket shroud cut) := by
  unfold State.cutPacket
  split <;> simp

@[simp] theorem hdrCrc_steady (s : State) (shroud : Nat) (cut : Option LongPacket) : Steady s (s.hdrCrc shroud cut) := by
  simp [State.hdrCrc]

@[simp] theorem badHead_steady (s : State) (shroud : Nat) (cut : Option LongPacket) : Steady s (s.badHead shroud cut) := by
  simp [State.badHead]

@[simp] theorem frameTimeout_steady (s : State) (c cause : Nat) : Steady s (s.frameTimeout c cause) := by
  unfold State.frameTimeout
  dsimp only
  split
  · simp
  · split <;> simp

@[simp] theorem each_updCtx_undisturbed (cs : List Nat) (f : Nat → Context → Context) (s : State) :
    Undisturbed s (each cs (fun k s => s.updCtx k (f k)) s) :=
  each_keeps (P := Undisturbed s) _ (by simp) fun _ _ t ht => by simp [ht]

@[simp] theorem capStartBody_undisturbed (c : Cmd) (s : State) : Undisturbed s (capStartBody c s) := by
  unfold capStartBody
  split
  · simp
  · split <;> simp

@[simp] theorem capStopBody_undisturbed (c : Cmd) (s : State) : Undisturbed s (capStopBody c s) := by
  unfold capStopBody
  split <;> simp

@[simp] theorem triggerAll_undisturbed (s : State) (cs : List Nat) (source : Nat) :
    Undisturbed s (s.triggerAll cs source).2 := by
  unfold State.triggerAll
  exact List.foldlRecOn (motive := fun p : Nat × State => Undisturbed s p.2) cs _ (by simp) fun p hp k _ => by simp [hp]

@[simp] theorem capTriggerBody_undisturbed (c : Cmd) (s : State) : Undisturbed s (capTriggerBody c s) := by
  unfold capTriggerBody
  split <;> simp

@[simp] theorem trigEdge_steady (s : State) (pin : Nat) (rising : Bool) (hold : Nat) :
    Steady s (s.trigEdge pin rising hold) := by
  simp [State.trigEdge]

@[simp] theorem badCtx_mailOnly (s : State) (c : Cmd) : MailOnly s (s.badCtx c) := by
  simp [State.badCtx]

@[simp] theorem capSnapBody_undisturbed (c : Cmd) (s : State) : Undisturbed s (capSnapBody c s) := by
  simp [capSnapBody]

@[simp] theorem capFrameRecordBody_mailOnly (c : Cmd) (s : State) : MailOnly s (capFrameRecordBody c s) := by
  simp [capFrameRecordBody]

@[simp] theorem capCountersBody_mailOnly (c : Cmd) (s : State) : MailOnly s (capCountersBody c s) := by
  simp [capCountersBody]

/-! ## Steep -/

@[simp] theorem reachTiles_steady (s : State) (master : Nat) (ts : List Tiles) : Steady s (s.reachTiles master ts) := by
  simp [State.reachTiles]

@[simp] theorem countMisses_steady (s : State) (f : JobFacts) (ts : List Tiles) (j : Job) :
    Steady s (s.countMisses f ts j) := by
  simp [State.countMisses]

@[simp] theorem flagTiles_steady (s : State) (j : Job) (failed : Bool) : Steady s (s.flagTiles j failed) := by
  unfold State.flagTiles
  split <;> simp

@[simp] theorem putTiles_steady (s : State) (master : Nat) (t : Tiles) (k : Nat) (ds : List (List Byte)) :
    Steady s (s.putTiles master t k ds) := by
  simp [State.putTiles]

@[simp] theorem updDev_keepsRim (s : State) (c : Nat) (q : BitVec 32) (f : FrameDev → FrameDev) :
    KeepsRim s (s.updDev c q f) := by
  simp [State.updDev]

@[simp] theorem claimWork_keepsTimeHealth (s : State) (c : Nat) (q : BitVec 32) : KeepsTimeHealth s (s.claimWork c q) := by
  unfold State.claimWork
  split <;> simp

@[simp] theorem beginDev_keepsCore (s : State) (f : Frame) : KeepsCore s (s.beginDev f) := by
  simp [State.beginDev]

@[simp] theorem cutBand_keepsCore (s : State) (d : FrameDev) (b cls : Nat) (deadline : Option Nanos) :
    KeepsCore s (s.cutBand d b cls deadline) := by
  simp [State.cutBand]

@[simp] theorem runBand_steady (s : State) (j : Job) (f : JobFacts) : Steady s (s.runBand j f).2 := by
  unfold State.runBand
  split <;> simp

@[simp] theorem bandEnded_keepsCore (s : State) (j : Job) (ok : Bool) : KeepsCore s (s.bandEnded j ok) := by
  simp [State.bandEnded]

@[simp] theorem bandRetired_keepsCore (s : State) (j : Job) : KeepsCore s (s.bandRetired j) := by
  unfold State.bandRetired
  dsimp only
  split <;> simp

@[simp] theorem flickEnded_keepsCore (s : State) (j : Job) (outcome : BitVec 32) (refused : Bool) :
    KeepsCore s (s.flickEnded j outcome refused) := by
  simp [State.flickEnded]

/-! ## Mash -/

@[simp] theorem updOut_keepsRim (s : State) (c : Nat) (q : BitVec 32) (o : Nat) (f : OutFrame → OutFrame) :
    KeepsRim s (s.updOut c q o f) := by
  simp [State.updOut]

@[simp] theorem claimOut_keepsTimeHealth (s : State) (c : Nat) (q : BitVec 32) : KeepsTimeHealth s (s.claimOut c q) := by
  unfold State.claimOut
  split
  · simp
  · split
    · simp
    · refine each_keeps (P := KeepsTimeHealth s) _ (by simp) fun e _ t ht => ?_
      dsimp only
      split <;> simp [ht]

@[simp] theorem cutMash_keepsCore (s : State) (d : FrameDev) (b cls : Nat) (deadline : Option Nanos) (streams : List
    (Nat × Nat)) :
    KeepsCore s (s.cutMash d b cls deadline streams) := by
  simp [State.cutMash]

@[simp] theorem cacheRead_steady (s : State) (c : Nat) (q : BitVec 32) (tiles : List Nat) (failed : Nat → Bool) :
    Steady s (s.cacheRead c q tiles failed) := by
  simp [State.cacheRead]

theorem Steady.updDev {s t : State} (h : Steady s t) (c : Nat) (q : BitVec 32) (f : FrameDev → FrameDev) :
    Steady s (t.updDev c q f) := by
  simpa using h

theorem Steady.updMash {s t : State} (h : Steady s t) (n : Nat) (f : MashCtx → MashCtx) : Steady s (t.updMash n f) := by
  simpa using h

@[simp] theorem runMash_steady (s : State) (j : Job) (f : JobFacts) : Steady s (s.runMash j f).2 := by
  unfold State.runMash
  split
  next => simp
  next d _ =>
    extract_lets c reads f' missed cached
    dsimp only
    refine Steady.trans (Steady.updMash (Steady.updDev ?_ _ _ _) _ _) (flagTiles_steady _ _ _)
    split
    · simp [cached, missed]
    · refine each_keeps (P := Steady s) _ (by simp [cached, missed]) fun a _ t ht => ?_
      split <;> simp [ht]

@[simp] theorem mashEnd_keepsCore (s : State) (j : Job) (ok : Bool) : KeepsCore s (s.mashEnd j ok) := by
  unfold State.mashEnd
  dsimp only
  split <;> simp

@[simp] theorem mashRetired_keepsCore (s : State) (j : Job) : KeepsCore s (s.mashRetired j) := by
  unfold State.mashRetired
  dsimp only
  split <;> simp

@[simp] theorem drainLuts_keepsCore (s : State) : KeepsCore s s.drainLuts := by
  simp [State.drainLuts]

/-! ## Units of streams -/

@[simp] theorem addUnit_keepsRim (s : State) (n : Nat) (u : StreamUnit) : KeepsRim s (s.addUnit n u) := by
  simp [State.addUnit]

@[simp] theorem mapUnits_keepsCore (s : State) (job : Nat) (f : StreamUnit → StreamUnit) :
    KeepsCore s (s.mapUnits job f) := by
  simp [State.mapUnits]

@[simp] theorem endUnits_keepsCore (s : State) (j : Job) (gap : Bool) (bytes : List Byte) (status : Nat) :
    KeepsCore s (s.endUnits j gap bytes status) := by
  simp [State.endUnits]

/-! ## Encoders -/

@[simp] theorem beginPicture_keepsCore (s : State) (e number : Nat) : KeepsCore s (s.beginPicture e number) := by
  unfold State.beginPicture
  dsimp only
  split <;> simp

@[simp] theorem updPic_keepsCore (s : State) (e number : Nat) (f : Picture → Picture) :
    KeepsCore s (s.updPic e number f) := by
  simp [State.updPic]

@[simp] theorem updRow_keepsCore (s : State) (e number k : Nat) (f : EncRow → EncRow) :
    KeepsCore s (s.updRow e number k f) := by
  simp [State.updRow]

@[simp] theorem issueRow_keepsTimeHealth (s : State) (j : Job) : KeepsTimeHealth s (s.issueRow j) := by
  unfold State.issueRow
  dsimp only
  split <;> split <;> simp

@[simp] theorem putRecon_steady (s : State) (j : Job) (p : Picture) (rows : List (List Nat)) :
    Steady s (s.putRecon j p rows) := by
  unfold State.putRecon
  split <;> simp

@[simp] theorem runRow_steady (s : State) (j : Job) (f : JobFacts) : Steady s (s.runRow j f).2.2 := by
  unfold State.runRow
  dsimp only
  split
  · simp
  · split <;> simp

@[simp] theorem loseRow_keepsCore (s : State) (e number k status : Nat) : KeepsCore s (s.loseRow e number k status) := by
  unfold State.loseRow
  dsimp only
  split <;> simp

@[simp] theorem rowEnded_keepsCore (s : State) (j : Job) (status : Nat) : KeepsCore s (s.rowEnded j status) := by
  simp [State.rowEnded]

@[simp] theorem endPicture_keepsCore (s : State) (e : Nat) (p : Picture) : KeepsCore s (s.endPicture e p) := by
  simp [State.endPicture, State.raiseLimited]

@[simp] theorem rowRetired_keepsCore (s : State) (j : Job) : KeepsCore s (s.rowRetired j) := by
  unfold State.rowRetired
  dsimp only
  split <;> simp

@[simp] theorem newPicture_keepsCore (s : State) (e : Nat) (f : Frame) (ent : List Byte) (type refresh poc : Nat)
    (isRef : Bool) :
    KeepsCore s (s.newPicture e f ent type refresh poc isRef) := by
  simp [State.newPicture]

@[simp] theorem cutRow_keepsCore (s : State) (e : Nat) (p : Picture) (f : Frame) (k : Nat) :
    KeepsCore s (s.cutRow e p f k) := by
  simp [State.cutRow]

@[simp] theorem cutRows_keepsCore (s : State) (e number : Nat) (f : Frame) (landed : Nat → Bool) :
    KeepsCore s (s.cutRows e number f landed) := by
  unfold State.cutRows
  split
  · simp
  · refine each_keeps (P := KeepsCore s) _ (by simp) fun k _ t ht => ?_
    split <;> simp [ht]

@[simp] theorem cutGop_keepsCore (s : State) (e c : Nat) (last : Bool) (fuel : Nat) :
    KeepsCore s (s.cutGop e c last fuel) := by
  induction fuel generalizing s with
  | zero => simp [State.cutGop]
  | succ fuel ih =>
    unfold State.cutGop
    extract_lets x entry blocks alike
    split
    next => simp
    next =>
      split
      next => simp [ih]
      next =>
        extract_lets f ent n m cause opened started g g' frames more cut planned
        have hcut : KeepsCore s cut := each_keeps (P := KeepsCore s) _ (by simp) fun y _ t ht => by
          split <;> simp [ht]
        split
        · simp [ih, started, opened]
        · split
          · simp
          · simp [ih, planned, hcut]

@[simp] theorem encForceIrapBody_undisturbed (c : Cmd) (s : State) : Undisturbed s (encForceIrapBody c s) := by
  unfold encForceIrapBody
  dsimp only
  split <;> simp

@[simp] theorem encPictureRecordBody_mailOnly (c : Cmd) (s : State) : MailOnly s (encPictureRecordBody c s) := by
  simp [encPictureRecordBody]

/-! ## Recording -/

@[simp] theorem addRec_keepsCore (s : State) (n kind : Nat) (u : Option StreamUnit) (opened : optParam (List Byte) []) :
    KeepsCore s (s.addRec n kind u opened) := by
  simp [State.addRec]

@[simp] theorem rawPayload_steady (s : State) (t : Stream) (u : StreamUnit) (f : JobFacts) (j : Job) :
    Steady s (s.rawPayload t u f j).2.2.2 := by
  unfold State.rawPayload
  split <;> simp

@[simp] theorem runCask_steady (s : State) (j : Job) (f : JobFacts) : Steady s (s.runCask j f).2 := by
  unfold State.runCask
  dsimp only
  split
  · simp
  · split <;> simp

@[simp] theorem recordUnit_keepsCore (s : State) (n : Nat) (u : StreamUnit) : KeepsCore s (s.recordUnit n u) := by
  simp [State.recordUnit]

@[simp] theorem stall_keepsCore (s : State) (n cause : Nat) : KeepsCore s (s.stall n cause) := by
  simp [State.stall]

@[simp] theorem keepStripe_keepsCore (s : State) (n : Nat) (z : Stripe) : KeepsCore s (s.keepStripe n z) := by
  have hfold : KeepsCore s (z.pieces.foldl (fun (a : List Piece × State) p =>
      let (id, s) := a.2.addUnitJob (a.2.writeJob n z p)
      (a.1 ++ [{ p with job := id }], s)) (([] : List Piece), s)).2 :=
    List.foldlRecOn (motive := fun p : List Piece × State => KeepsCore s p.2) _ _ (by simp) fun p hp k _ => by simp [hp]
  simpa [State.keepStripe] using hfold

@[simp] theorem grantLow_keepsCore (s : State) (n : Nat) (placed : Bool) : KeepsCore s (s.grantLow n placed) := by
  simp [State.grantLow]

@[simp] theorem placeStripe_keepsCore (s : State) (n index : Nat) (d : List Byte) (relocated final : Bool) :
    KeepsCore s (s.placeStripe n index d relocated final) := by
  unfold State.placeStripe
  dsimp only
  split <;> simp

@[simp] theorem formStripes_keepsCore (s : State) (n fuel : Nat) : KeepsCore s (s.formStripes n fuel) := by
  induction fuel generalizing s with
  | zero => simp [State.formStripes]
  | succ fuel ih => simp [State.formStripes, ih]

@[simp] theorem placeSeals_keepsCore (s : State) (n fuel : Nat) : KeepsCore s (s.placeSeals n fuel) := by
  induction fuel generalizing s with
  | zero => simp [State.placeSeals]
  | succ fuel ih =>
    unfold State.placeSeals
    dsimp only
    split
    · simp
    · split
      · simp
      · split <;> simp [ih]

@[simp] theorem report_keepsCore (s : State) (n : Nat) (zs : List Stripe) : KeepsCore s (s.report n zs) := by
  unfold State.report
  extract_lets t runs logged
  have hlogged : KeepsCore s logged := each_keeps (P := KeepsCore s) _ (by simp) fun _ _ u hu => by simp [hu]
  simp [hlogged, State.raiseLimited]

@[simp] theorem reportDurable_keepsCore (s : State) (n : Nat) : KeepsCore s (s.reportDurable n) := by
  simp [State.reportDurable]

@[simp] theorem nvmePost_keepsRim (s : State) (p op n : Nat) (isS : Bool) (job tries nsid : Nat) :
    KeepsRim s (s.nvmePost p op n isS job tries nsid) := by
  simp [State.nvmePost]

@[simp] theorem nvmeCmd_keepsRim (s : State) (p op n : Nat) (isS : Bool) (job tries nsid lba lbas : Nat)
    (data : List Byte) :
    KeepsRim s (s.nvmeCmd p op n isS job tries nsid lba lbas data) := by
  simp [State.nvmeCmd]

@[simp] theorem mapPieces_keepsCore (s : State) (n : Nat) (f : Stripe → Piece → Piece) : KeepsCore s (s.mapPieces n f) := by
  simp [State.mapPieces]

@[simp] theorem startWrite_undisturbed (s : State) (j : Job) (tries : Nat) : Undisturbed s (s.startWrite j tries) := by
  simp [State.startWrite]

@[simp] theorem flush_keepsCore (s : State) (n p : Nat) : KeepsCore s (s.flush n p) := by
  simp [State.flush]

@[simp] theorem flushAll_keepsCore (s : State) (n : Nat) : KeepsCore s (s.flushAll n) := by
  simp [State.flushAll]

@[simp] theorem relocate_undisturbed (s : State) (n p : Nat) : Undisturbed s (s.relocate n p).2 := by
  unfold State.relocate
  extract_lets t zs ids hit cut ended failed unqueued dropped
  have hfailed : Undisturbed s failed := each_keeps (P := Undisturbed s) _ (by simp [ended, cut]) fun j _ u hu => by
    split <;> simp [hu]
  exact each_keeps (P := Undisturbed s) _ (by simp [dropped, unqueued, hfailed]) fun z _ u hu => by
    split <;> simp [hu]

@[simp] theorem placeAgain_keepsCore (s : State) (n : Nat) : KeepsCore s (s.placeAgain n) := by
  simp [State.placeAgain]

@[simp] theorem relocateAll_undisturbed (s : State) (p : Nat) : Undisturbed s (s.relocateAll p).2 :=
  List.foldlRecOn (motive := fun a : Nat × State => Undisturbed s a.2) _ _ (by simp) fun a ha n _ => by simp [ha]

@[simp] theorem driveFault_undisturbed (s : State) (p status : Nat) : Undisturbed s (s.driveFault p status) := by
  simp [State.driveFault]

@[simp] theorem failAtDrive_mailOnly (s : State) (p : Nat) : MailOnly s (s.failAtDrive p) := by
  simp [State.failAtDrive]

@[simp] theorem portReset_undisturbed (s : State) (p : Nat) (fault : Option Nat) : Undisturbed s (s.portReset p fault) := by
  unfold State.portReset
  split <;> simp

@[simp] theorem writesDurable_steady (s : State) (n id : Nat) : Steady s (s.writesDurable n id) := by
  unfold State.writesDurable
  extract_lets t ids mapped ended new
  have hended : Steady s ended := each_keeps (P := Steady s) _ (by simp [mapped]) fun i _ u hu => by
    split <;> simp [hu]
  simp [hended]

@[simp] theorem dropRecs_keepsCore (s : State) (n : Nat) : KeepsCore s (s.dropRecs n) := by
  unfold State.dropRecs
  extract_lets t size safe done freed
  have hfreed : KeepsCore s freed := by
    unfold freed
    split
    · refine each_keeps (P := KeepsCore s) _ (by simp) fun r _ u hu => ?_
      split
      · split <;> simp [hu]
      · exact hu
    · simp
  simp [hfreed]

@[simp] theorem closeTake_keepsCore (s : State) (n : Nat) : KeepsCore s (s.closeTake n) := by
  simp [State.closeTake]

@[simp] theorem endTake_keepsCore (s : State) (n : Nat) : KeepsCore s (s.endTake n) := by
  simp [State.endTake]

@[simp] theorem stopIdle_keepsCore (s : State) (n : Nat) : KeepsCore s (s.stopIdle n) := by
  simp [State.stopIdle]

@[simp] theorem pumpRevoke_keepsCore (s : State) (n : Nat) : KeepsCore s (s.pumpRevoke n) := by
  simp [State.pumpRevoke]

@[simp] theorem pumpRecord_keepsCore (s : State) (n : Nat) : KeepsCore s (s.pumpRecord n) := by
  simp [State.pumpRecord]

/-! ## Drives -/

@[simp] theorem openTake_steady (s : State) (n : Nat) : Steady s (s.openTake n) := by
  simp [State.openTake]

@[simp] theorem recStartBody_steady (c : Cmd) (s : State) : Steady s (recStartBody c s) := by
  simp [recStartBody]

@[simp] theorem recStopBody_steady (c : Cmd) (s : State) : Steady s (recStopBody c s) := by
  simp [recStopBody]

@[simp] theorem recGrantBody_steady (c : Cmd) (s : State) : Steady s (recGrantBody c s) := by
  unfold recGrantBody
  dsimp only
  repeat' split
  all_goals simp

@[simp] theorem recRevokeBody_steady (c : Cmd) (s : State) : Steady s (recRevokeBody c s) := by
  simp [recRevokeBody]

@[simp] theorem recReportBody_mailOnly (c : Cmd) (s : State) : MailOnly s (recReportBody c s) := by
  simp [recReportBody]

@[simp] theorem recAckBody_steady (c : Cmd) (s : State) : Steady s (recAckBody c s) := by
  simp [recAckBody]

@[simp] theorem setArgs_mailOnly (s : State) (e : ExecCmd) (a : List Nat) : MailOnly s (s.setArgs e a) := by
  simp [State.setArgs]

@[simp] theorem sendHost_undisturbed (s : State) (e : ExecCmd) (data : List Byte) : Undisturbed s (s.sendHost e data) := by
  simp [State.sendHost]

@[simp] theorem pumpHost_undisturbed (s : State) (p : Nat) : Undisturbed s (s.pumpHost p) := by
  simp [State.pumpHost]

@[simp] theorem startHost_undisturbed (s : State) (c : Cmd) (port : Nat) : Undisturbed s (s.startHost c port) := by
  simp [State.startHost]

@[simp] theorem recAdminBody_undisturbed (c : Cmd) (s : State) : Undisturbed s (recAdminBody c s) := by
  simp [recAdminBody]

@[simp] theorem recIoBody_undisturbed (c : Cmd) (s : State) : Undisturbed s (recIoBody c s) := by
  simp [recIoBody]

@[simp] theorem hostDone_mailOnly (s : State) (e : ExecCmd) (f : NvmeFacts) : MailOnly s (s.hostDone e f) := by
  simp [State.hostDone]

@[simp] theorem hostCopied_steady (s : State) (e : ExecCmd) (whole : Bool) (data : List Byte) :
    Steady s (s.hostCopied e whole data) := by
  simp [State.hostCopied]

@[simp] theorem bringUp_steady (s : State) (p : Nat) : Steady s (s.bringUp p) := by
  simp [State.bringUp]

@[simp] theorem portEnds_steady (s : State) (p : Nat) (ok : Bool) : Steady s (s.portEnds p ok) := by
  simp [State.portEnds]

@[simp] theorem recPortResetBody_steady (c : Cmd) (s : State) : Steady s (recPortResetBody c s) := by
  simp [recPortResetBody]

@[simp] theorem writeDone_steady (s : State) (p : Nat) (x : NvmeCmd) (f : NvmeFacts) : Steady s (s.writeDone p x f) := by
  unfold State.writeDone
  dsimp only
  repeat' split
  all_goals simp

@[simp] theorem hostEnds_steady (s : State) (p : Nat) (x : NvmeCmd) (f : NvmeFacts) : Steady s (s.hostEnds p x f) := by
  unfold State.hostEnds
  split <;> simp

@[simp] theorem nextNamespace_steady (s : State) (p k : Nat) : Steady s (s.nextNamespace p k) := by
  simp [State.nextNamespace]

@[simp] theorem identified_steady (s : State) (p : Nat) (x : NvmeCmd) (f : NvmeFacts) : Steady s (s.identified p x f) := by
  simp [State.identified]

@[simp] theorem nvmeDone_steady (s : State) (p : Nat) (f : NvmeFacts) : Steady s (s.nvmeDone p f) := by
  unfold State.nvmeDone
  split
  · simp
  · split
    · simp
    · split <;> simp

@[simp] theorem nvmeTimeout_steady (s : State) (p : Nat) : Steady s (s.nvmeTimeout p) := by
  simp [State.nvmeTimeout]

@[simp] theorem resetDone_steady (s : State) (p : Nat) (ok : Bool) : Steady s (s.resetDone p ok) := by
  simp [State.resetDone]

/-! ## Flex lanes -/

@[simp] theorem linkUp_mailOnly (s : State) (y k : Nat) (port : Option Nat) (rate width micros : Nat) :
    MailOnly s (s.linkUp y k port rate width micros) := by
  simp [State.linkUp]

@[simp] theorem linkDown_mailOnly (s : State) (y k : Nat) (port : Option Nat) (st : Nat) :
    MailOnly s (s.linkDown y k port st) := by
  simp [State.linkDown]

@[simp] theorem perstRelease_undisturbed (s : State) (p : Nat) : Undisturbed s (s.perstRelease p) := by
  simp [State.perstRelease]

@[simp] theorem retrainEnds_mailOnly (s : State) (y k : Nat) (ok : Bool) : MailOnly s (s.retrainEnds y k ok) := by
  simp [State.retrainEnds]

@[simp] theorem countRetrain_undisturbed (s : State) (y k : Nat) : Undisturbed s (s.countRetrain y k).2 := by
  simp [State.countRetrain]

@[simp] theorem testScan_undisturbed (s : State) (y k : Nat) : Undisturbed s (s.testScan y k) := by
  simp [State.testScan]

@[simp] theorem linkActive_steady (s : State) (p : Nat) (f : LinkFacts) : Steady s (s.linkActive p f) := by
  simp [State.linkActive]

@[simp] theorem retryDetect_undisturbed (s : State) (p : Nat) : Undisturbed s (s.retryDetect p) := by
  simp [State.retryDetect]

@[simp] theorem rootDown_undisturbed (s : State) (p st : Nat) : Undisturbed s (s.rootDown p st) := by
  simp [State.rootDown]

@[simp] theorem rootLinkDown_steady (s : State) (p : Nat) : Steady s (s.rootLinkDown p) := by
  simp [State.rootLinkDown]

@[simp] theorem recoveryTimeout_steady (s : State) (p : Nat) : Steady s (s.recoveryTimeout p) := by
  simp [State.recoveryTimeout]

@[simp] theorem recoveryEntry_undisturbed (s : State) (p : Nat) : Undisturbed s (s.recoveryEntry p) := by
  simp [State.recoveryEntry]

@[simp] theorem l1Entry_undisturbed (s : State) (p : Nat) : Undisturbed s (s.l1Entry p) := by
  simp [State.l1Entry]

@[simp] theorem ethDown_undisturbed (s : State) (p : Nat) : Undisturbed s (s.ethDown p) := by
  unfold State.ethDown
  split <;> simp

@[simp] theorem ethUp_undisturbed (s : State) (p micros : Nat) : Undisturbed s (s.ethUp p micros) := by
  unfold State.ethUp
  split <;> simp

@[simp] theorem epActive_undisturbed (s : State) (f : EpFacts) : Undisturbed s (s.epActive f) := by
  simp [State.epActive]

@[simp] theorem flexErrors_undisturbed (s : State) (y k corr unc : Nat) : Undisturbed s (s.flexErrors y k corr unc) := by
  simp [State.flexErrors]

@[simp] theorem marginScan_undisturbed (s : State) : Undisturbed s s.marginScan := by
  simp [State.marginScan]

@[simp] theorem marginDone_undisturbed (s : State) (y k : Nat) (f : MarginFacts) : Undisturbed s (s.marginDone y k f) := by
  simp [State.marginDone]

@[simp] theorem flxLinkInfoBody_mailOnly (c : Cmd) (s : State) : MailOnly s (flxLinkInfoBody c s) := by
  simp [flxLinkInfoBody]

@[simp] theorem flxMarginBody_undisturbed (c : Cmd) (s : State) : Undisturbed s (flxMarginBody c s) := by
  simp [flxMarginBody]

@[simp] theorem flxRetrainBody_undisturbed (c : Cmd) (s : State) : Undisturbed s (flxRetrainBody c s) := by
  simp [flxRetrainBody]

/-! ## Trust -/

@[simp] theorem trsMusterBody_undisturbed (c : Cmd) (s : State) : Undisturbed s (trsMusterBody c s) := by
  simp [trsMusterBody]

@[simp] theorem trsCertBody_mailOnly (c : Cmd) (s : State) : MailOnly s (trsCertBody c s) := by
  unfold trsCertBody
  dsimp only
  split
  · simp
  · split <;> simp

@[simp] theorem fuseEnd_undisturbed (s : State) (w : FuseWork) : Undisturbed s (s.fuseEnd w) := by
  unfold State.fuseEnd
  split <;> simp

@[simp] theorem fuseStep_undisturbed (s : State) : Undisturbed s s.fuseStep := by
  unfold State.fuseStep
  split
  · simp
  · split <;> simp

@[simp] theorem fuseSteps_undisturbed (s : State) (fuel : Nat) : Undisturbed s (s.fuseSteps fuel) := by
  induction fuel generalizing s with
  | zero => simp [State.fuseSteps]
  | succ fuel ih => simp [State.fuseSteps, ih]

@[simp] theorem fuseFinish_undisturbed (s : State) : Undisturbed s s.fuseFinish := by
  unfold State.fuseFinish
  split <;> simp

@[simp] theorem fuse_undisturbed (s : State) (c : Cmd) (goal : FuseGoal) : Undisturbed s (s.fuse c goal) := by
  simp [State.fuse]

@[simp] theorem trsOwnerEnrolBody_undisturbed (c : Cmd) (s : State) : Undisturbed s (trsOwnerEnrolBody c s) := by
  unfold trsOwnerEnrolBody
  dsimp only
  repeat' split
  all_goals simp

@[simp] theorem trsFwBeginBody_undisturbed (c : Cmd) (s : State) : Undisturbed s (trsFwBeginBody c s) := by
  simp [trsFwBeginBody]

@[simp] theorem trsFwDataBody_undisturbed (c : Cmd) (s : State) : Undisturbed s (trsFwDataBody c s) := by
  unfold trsFwDataBody
  split <;> simp

@[simp] theorem trsFwEndBody_undisturbed (c : Cmd) (s : State) : Undisturbed s (trsFwEndBody c s) := by
  unfold trsFwEndBody
  dsimp only
  split <;> simp

@[simp] theorem trsFwActivateBody_keepsTimeHealth (c : Cmd) (s : State) : KeepsTimeHealth s (trsFwActivateBody c s) := by
  simp [trsFwActivateBody]

@[simp] theorem trsFwConfirmBody_undisturbed (c : Cmd) (s : State) : Undisturbed s (trsFwConfirmBody c s) := by
  simp [trsFwConfirmBody]

@[simp] theorem trsSvnCommitBody_undisturbed (c : Cmd) (s : State) : Undisturbed s (trsSvnCommitBody c s) := by
  simp [trsSvnCommitBody]

@[simp] theorem trsRecipientsBody_undisturbed (c : Cmd) (s : State) : Undisturbed s (trsRecipientsBody c s) := by
  unfold trsRecipientsBody
  dsimp only
  split
  · simp
  · split
    · simp
    · split <;> simp

@[simp] theorem trsDebugChallengeBody_undisturbed (c : Cmd) (s : State) : Undisturbed s (trsDebugChallengeBody c s) := by
  simp [trsDebugChallengeBody]

@[simp] theorem trsDebugUnlockBody_keepsTimeHealthMem (c : Cmd) (s : State) :
    KeepsTimeHealthMem s (trsDebugUnlockBody c s) := by
  unfold trsDebugUnlockBody
  dsimp only
  split
  · simp
  · split
    · simp
    · split <;> simp

/-! ## Time bases -/

@[simp] theorem changeBase_keepsPowerHealthMem (s : State) (b : Nat) (f : Base → Base) :
    KeepsPowerHealthMem s (s.changeBase b f) := by
  simp [State.changeBase]

@[simp] theorem setBaseSt_keepsPowerHealth (s : State) (b : Nat) (st : BaseSt) : KeepsPowerHealth s (s.setBaseSt b st) := by
  simp [State.setBaseSt]

@[simp] theorem crossMatches_mailOnly (s : State) (b : Nat) (old new : Int) : MailOnly s (s.crossMatches b old new) := by
  unfold State.crossMatches
  refine each_keeps (P := MailOnly s) _ (by simp) fun m _ t ht => ?_
  split
  · split
    · simp [ht]
    · exact ht
  · exact ht

@[simp] theorem touchStep_keepsPowerHealthMem (s : State) (b cause : Nat) (step : Rat) :
    KeepsPowerHealthMem s (s.touchStep b cause step) := by
  simp [State.touchStep]

@[simp] theorem moveBase_keepsPowerHealthMem (s : State) (b : Nat) (d : Rat) : KeepsPowerHealthMem s (s.moveBase b d) := by
  simp [State.moveBase]

@[simp] theorem rephase_keepsPowerHealthMem (s : State) (d : Rat) (whole : Bool) :
    KeepsPowerHealthMem s (s.rephase d whole) := by
  simp [State.rephase]

@[simp] theorem stepBase_keepsPowerHealthMem (s : State) (b cause : Nat) (d : Rat) :
    KeepsPowerHealthMem s (s.stepBase b cause d) := by
  simp [State.stepBase]

@[simp] theorem residualZero_keepsPowerHealthMem (s : State) : KeepsPowerHealthMem s s.residualZero := by
  simp [State.residualZero]

@[simp] theorem holdover_keepsPowerHealthMem (s : State) (b : Nat) : KeepsPowerHealthMem s (s.holdover b) := by
  simp [State.holdover]

@[simp] theorem servo_keepsPowerHealthMem (s : State) (b : Nat) (theta : Rat) :
    KeepsPowerHealthMem s (s.servo b theta) := by
  simp [State.servo]

@[simp] theorem tbvUpdate_keepsPowerHealthMem (s : State) : KeepsPowerHealthMem s s.tbvUpdate := by
  unfold State.tbvUpdate
  split <;> simp

@[simp] theorem refEvent_mailOnly (s : State) (ref : Nat) (lost : Bool) : MailOnly s (s.refEvent ref lost) := by
  simp [State.refEvent]

@[simp] theorem crystalCorrection_keepsPowerHealthMem (s : State) : KeepsPowerHealthMem s s.crystalCorrection := by
  unfold State.crystalCorrection
  split
  · simp
  · split <;> simp

@[simp] theorem markXtalStale_keepsPowerHealthMem (s : State) : KeepsPowerHealthMem s s.markXtalStale := by
  simp [State.markXtalStale]

@[simp] theorem trefLoss_keepsPowerHealthMem (s : State) : KeepsPowerHealthMem s s.trefLoss := by
  simp [State.trefLoss]

@[simp] theorem trefRestore_keepsPowerHealthMem (s : State) : KeepsPowerHealthMem s s.trefRestore := by
  simp [State.trefRestore]

@[simp] theorem ppsEdge_keepsPowerHealth (s : State) (rising : Bool) : KeepsPowerHealth s (s.ppsEdge rising) := by
  simp [State.ppsEdge]

@[simp] theorem genlockEdge_keepsPowerHealth (s : State) : KeepsPowerHealth s s.genlockEdge := by
  simp [State.genlockEdge]

@[simp] theorem ppsLoss_keepsPowerHealthMem (s : State) : KeepsPowerHealthMem s s.ppsLoss := by
  simp [State.ppsLoss]

@[simp] theorem genlockLoss_keepsPowerHealthMem (s : State) : KeepsPowerHealthMem s s.genlockLoss := by
  simp [State.genlockLoss]

@[simp] theorem ppsPulse_mailOnly (s : State) : MailOnly s s.ppsPulse := by
  simp [State.ppsPulse]

@[simp] theorem updPtp_keepsPowerHealthMem (s : State) (b : Nat) (f : PtpState → PtpState) :
    KeepsPowerHealthMem s (s.updPtp b f) := by
  simp [State.updPtp]

@[simp] theorem selectMaster_keepsPowerHealthMem (s : State) (b : Nat) : KeepsPowerHealthMem s (s.selectMaster b) := by
  unfold State.selectMaster
  dsimp only
  split <;> simp

@[simp] theorem announce_keepsPowerHealth (s : State) (b : Nat) (m : PtpMsg) : KeepsPowerHealth s (s.announce b m) := by
  simp [State.announce]

@[simp] theorem announceTimeout_keepsPowerHealthMem (s : State) (b : Nat) :
    KeepsPowerHealthMem s (s.announceTimeout b) := by
  simp [State.announceTimeout]

@[simp] theorem synced_keepsPowerHealth (s : State) (b : Nat) (arrival origin : Int) :
    KeepsPowerHealth s (s.synced b arrival origin) := by
  simp [State.synced]

@[simp] theorem ptpIn_keepsPowerHealth (s : State) (b : Nat) (m : PtpMsg) : KeepsPowerHealth s (s.ptpIn b m) := by
  unfold State.ptpIn
  split <;> split <;> simp

@[simp] theorem ethFrame_keepsPowerHealth (s : State) (port : Nat) (f : EthFrame) :
    KeepsPowerHealth s (s.ethFrame port f) := by
  unfold State.ethFrame
  repeat' split
  all_goals simp

@[simp] theorem ptpOut_keepsPowerHealthMem (s : State) (b kind : Nat) : KeepsPowerHealthMem s (s.ptpOut b kind) := by
  simp [State.ptpOut]

@[simp] theorem ptpStatus_mailOnly (s : State) (b : Nat) : MailOnly s (s.ptpStatus b).2 := by
  simp [State.ptpStatus]

@[simp] theorem latchBase_keepsPowerHealthMem (s : State) (b : Nat) : KeepsPowerHealthMem s (s.latchBase b) := by
  simp [State.latchBase]

@[simp] theorem timReadBody_mailOnly (c : Cmd) (s : State) : MailOnly s (timReadBody c s) := by
  simp [timReadBody]

@[simp] theorem timSetBody_keepsPowerHealth (c : Cmd) (s : State) : KeepsPowerHealth s (timSetBody c s) := by
  simp [timSetBody]

@[simp] theorem timPtpStatusBody_mailOnly (c : Cmd) (s : State) : MailOnly s (timPtpStatusBody c s) := by
  simp [timPtpStatusBody]

/-! ## Barrel -/

@[simp] theorem runBarrel_steady (s : State) (j : Job) (f : JobFacts) : Steady s (s.runBarrel j f).2 := by
  unfold State.runBarrel
  dsimp only
  split <;> simp

@[simp] theorem brlRetired_keepsCore (s : State) (j : Job) : KeepsCore s (s.brlRetired j) := by
  unfold State.brlRetired
  dsimp only
  split <;> simp

@[simp] theorem brlOpenBody_undisturbed (c : Cmd) (s : State) : Undisturbed s (brlOpenBody c s) := by
  unfold brlOpenBody
  dsimp only
  repeat' split
  all_goals simp

@[simp] theorem brlSubmitBody_steady (c : Cmd) (s : State) : Steady s (brlSubmitBody c s) := by
  simp [brlSubmitBody]

@[simp] theorem brlCloseBody_undisturbed (c : Cmd) (s : State) : Undisturbed s (brlCloseBody c s) := by
  simp [brlCloseBody]

@[simp] theorem brlReadContextBody_mailOnly (c : Cmd) (s : State) : MailOnly s (brlReadContextBody c s) := by
  simp [brlReadContextBody]

/-! ## The review decoder -/

@[simp] theorem ringIn_steady (s : State) (n : Nat) (d : List Byte) : Steady s (s.ringIn n d) := by
  simp [State.ringIn]

@[simp] theorem claimSlot_keepsTimeHealth (s : State) (j : Job) : KeepsTimeHealth s (s.claimSlot j) := by
  unfold State.claimSlot
  dsimp only
  split
  · simp
  · split <;> simp

@[simp] theorem patchRec_keepsRim (s : State) (n pic : Nat) (f : List Byte → List Byte) :
    KeepsRim s (s.patchRec n pic f) := by
  simp [State.patchRec]

@[simp] theorem outputPic_keepsRim (s : State) (n : Nat) (p : Stored) : KeepsRim s (s.outputPic n p) := by
  simp [State.outputPic]

@[simp] theorem bump_keepsRim (s : State) (n : Nat) (more : List Stored → Bool) (fuel : Nat) :
    KeepsRim s (s.bump n more fuel) := by
  induction fuel generalizing s with
  | zero => simp [State.bump]
  | succ fuel ih =>
    unfold State.bump
    dsimp only
    split
    · simp
    · split <;> simp [ih]

@[simp] theorem addDecRec_keepsCore (s : State) (n pic : Nat) (r : List Byte) : KeepsCore s (s.addDecRec n pic r) := by
  simp [State.addDecRec]

@[simp] theorem openPic_steady (s : State) (master n pic : Nat) (f : DecUnit) : Steady s (s.openPic master n pic f) := by
  unfold State.openPic
  extract_lets d kept sub planes filled
  have hfilled : Steady s filled := each_keeps (P := Steady s) _ (by simp [kept]) fun poc _ t ht => by
    dsimp only
    split <;> simp [ht]
  simp [hfilled]

@[simp] theorem storePic_steady (s : State) (master n pic slot entry : Nat) (f : DecUnit) (r : Nat) :
    Steady s (s.storePic master n pic slot entry f r) := by
  simp [State.storePic]

@[simp] theorem runDecode_steady (s : State) (j : Job) (facts : DecFacts) (cut : Bool) (g : JobFacts) :
    Steady s (s.runDecode j facts cut g).2 := by
  simp [State.runDecode]

@[simp] theorem decRefused_keepsCore (s : State) (n pic r : Nat) : KeepsCore s (s.decRefused n pic r) := by
  simp [State.decRefused, State.raiseLimited]

@[simp] theorem finishSubmit_keepsCore (s : State) (e : ExecCmd) : KeepsCore s (s.finishSubmit e) := by
  simp [State.finishSubmit]

@[simp] theorem decRetired_keepsCore (s : State) (j : Job) : KeepsCore s (s.decRetired j) := by
  unfold State.decRetired
  dsimp only
  repeat' split
  all_goals simp

@[simp] theorem endSubmit_steady (s : State) (e : ExecCmd) (r : Nat) : Steady s (s.endSubmit e r) := by
  simp [State.endSubmit]

@[simp] theorem cutPicture_steady (s : State) (e : ExecCmd) (luma : Option Nat) (data : List Byte) :
    Steady s (s.cutPicture e luma data) := by
  simp [State.cutPicture]

@[simp] theorem pumpFlush_keepsRim (s : State) (n : Nat) : KeepsRim s (s.pumpFlush n) := by
  unfold State.pumpFlush
  split
  · simp
  · split <;> simp

@[simp] theorem decSubmitBody_undisturbed (c : Cmd) (s : State) : Undisturbed s (decSubmitBody c s) := by
  simp [decSubmitBody]

@[simp] theorem decFlushBody_undisturbed (c : Cmd) (s : State) : Undisturbed s (decFlushBody c s) := by
  simp [decFlushBody]

@[simp] theorem decRestartBody_undisturbed (c : Cmd) (s : State) : Undisturbed s (decRestartBody c s) := by
  simp [decRestartBody]

@[simp] theorem giveBack_keepsRim (s : State) (n k : Nat) : KeepsRim s (s.giveBack n k) := by
  simp [State.giveBack]

@[simp] theorem freeDecSlots_keepsCore (s : State) : KeepsCore s s.freeDecSlots := by
  simp [State.freeDecSlots]

@[simp] theorem decReleaseBody_undisturbed (c : Cmd) (s : State) : Undisturbed s (decReleaseBody c s) := by
  simp [decReleaseBody]

@[simp] theorem decRecordBody_mailOnly (c : Cmd) (s : State) : MailOnly s (decRecordBody c s) := by
  simp [decRecordBody]

@[simp] theorem decReadBody_undisturbed (c : Cmd) (s : State) : Undisturbed s (decReadBody c s) := by
  simp [decReadBody]

/-! ## The work of the firmware after an event -/

@[simp] theorem cutSteep_keepsCore (s : State) (f : Frame) : KeepsCore s (s.cutSteep f) := by
  unfold State.cutSteep
  dsimp only
  split <;> simp

@[simp] theorem makeMash_keepsCore (s : State) (d : FrameDev) (k : Nat) : KeepsCore s (s.makeMash d k) := by
  unfold State.makeMash
  extract_lets cls dl id todo
  have hunits (nums : List (Nat × Nat)) : KeepsCore s (todo.foldl (fun (a : List (Nat × Nat) × State) x =>
      let (e, t, n) := x
      (a.1 ++ [(n, (a.2.stream n).nextUnit)], a.2.addUnit n (unitOf d.frame id 0 t (outTilesY e) dl))) (nums, s)).2 :=
    List.foldlRecOn (motive := fun a : List (Nat × Nat) × State => KeepsCore s a.2) _ _ (by simp) fun a ha x _ => by simp [ha]
  simp [hunits]

@[simp] theorem cutMashes_keepsCore (s : State) (f : Frame) : KeepsCore s (s.cutMashes f) := by
  unfold State.cutMashes
  split <;> simp

@[simp] theorem cutEnc_keepsCore (s : State) (f : Frame) (x : Nat × Nat × List Byte) : KeepsCore s (s.cutEnc f x) := by
  simp [State.cutEnc]

@[simp] theorem addRaw_keepsCore (s : State) (f : Frame) (n : Nat) : KeepsCore s (s.addRaw f n) := by
  simp [State.addRaw]

@[simp] theorem cutRaw_keepsCore (s : State) (f : Frame) : KeepsCore s (s.cutRaw f) := by
  simp [State.cutRaw]

@[simp] theorem cutFrame_keepsCore (s : State) (c : Nat) (q : BitVec 32) : KeepsCore s (s.cutFrame c q) := by
  unfold State.cutFrame
  split <;> simp

@[simp] theorem cutEncoding_keepsCore (s : State) (e : Nat) : KeepsCore s (s.cutEncoding e) := by
  unfold State.cutEncoding
  split
  next => simp
  next c _ =>
    refine each_keeps (P := KeepsCore s) _ (by simp) fun p _ t ht => ?_
    split <;> simp [ht]

@[simp] theorem drainBurst_keepsCore (s : State) (c : Nat) : KeepsCore s (s.drainBurst c) := by
  simp [State.drainBurst]

@[simp] theorem cutAll_keepsCore (s : State) : KeepsCore s s.cutAll := by
  simp [State.cutAll]

@[simp] theorem admitJob_keepsTimeHealth (j : Job) (s : State) : KeepsTimeHealth s (State.admitJob j s) := by
  unfold State.admitJob
  split <;> simp

@[simp] theorem addOut_keepsCore (s : State) (n row key : Nat) (q : BitVec 32) (coded : Nat) (deadline : Option Nanos) :
    KeepsCore s (s.addOut n row key q coded deadline) := by
  simp [State.addOut]

@[simp] theorem putLines_mailOnly (s : State) (n row how bytes : Nat) : MailOnly s (s.putLines n row how bytes) := by
  simp [State.putLines]

@[simp] theorem sendUnit_mailOnly (s : State) (j : Job) : MailOnly s (s.sendUnit j) := by
  simp [State.sendUnit]

@[simp] theorem gapRow_keepsCore (s : State) (n row : Nat) : KeepsCore s (s.gapRow n row) := by
  simp [State.gapRow, State.raiseLimited]

@[simp] theorem unsent_keepsCore (s : State) (j : Job) : KeepsCore s (s.unsent j) := by
  simp [State.unsent]

@[simp] theorem testWaits_mailOnly (s : State) (j : Job) : MailOnly s (s.testWaits j) := by
  simp [State.testWaits]

@[simp] theorem onEnd_keepsCore (s : State) (j : Job) (status : Nat) (bytes : List Byte) :
    KeepsCore s (s.onEnd j status bytes) := by
  unfold State.onEnd
  repeat' split
  all_goals simp

@[simp] theorem retireJob_keepsCore (s : State) (j : Job) : KeepsCore s (s.retireJob j) := by
  unfold State.retireJob
  dsimp only
  repeat' split
  all_goals simp

@[simp] theorem retireRefused_keepsCore (s : State) : KeepsCore s s.retireRefused := by
  simp [State.retireRefused]

@[simp] theorem recreate_keepsTimeHealth (s : State) : KeepsTimeHealth s s.recreate := by
  unfold State.recreate
  extract_lets gone rows owed signed
  have hrows : KeepsTimeHealth s rows := by
    refine each_keeps (P := KeepsTimeHealth s) _ (by simp) fun n _ t ht => ?_
    refine each_keeps (P := KeepsTimeHealth s) _ ?_ fun z _ u hu => ?_
    · exact each_keeps (P := KeepsTimeHealth s) _ ht fun r _ u hu => by simp [hu]
    · exact each_keeps (P := KeepsTimeHealth s) _ hu fun r _ u hu => by simp [hu]
  have hsigned : KeepsTimeHealth s signed :=
    each_keeps (P := KeepsTimeHealth s) _ hrows fun r _ u hu => by simp [hu]
  exact each_keeps (P := KeepsTimeHealth s) _ hsigned fun r _ u hu => by simp [hu]

@[simp] theorem sendRow_keepsCore (s : State) (n : Nat) (u : StreamUnit) : KeepsCore s (s.sendRow n u) := by
  simp [State.sendRow]

@[simp] theorem readyUnit_keepsCore (s : State) (n : Nat) (u : StreamUnit) : KeepsCore s (s.readyUnit n u) := by
  simp [State.readyUnit]

@[simp] theorem releaseUnit_keepsCore (s : State) (n : Nat) (u : StreamUnit) : KeepsCore s (s.releaseUnit n u) := by
  simp [State.releaseUnit]

@[simp] theorem pumpUnits_keepsCore (s : State) (n fuel : Nat) : KeepsCore s (s.pumpUnits n fuel) := by
  induction fuel generalizing s with
  | zero => simp [State.pumpUnits]
  | succ fuel ih =>
    unfold State.pumpUnits
    split
    · simp
    · split <;> simp [ih]

@[simp] theorem headTimeout_steady (s : State) (n : Nat) : Steady s (s.headTimeout n) := by
  unfold State.headTimeout
  dsimp only
  split
  · simp
  · split
    · simp
    · split <;> simp

@[simp] theorem freeDev_keepsCore (s : State) : KeepsCore s s.freeDev := by
  simp [State.freeDev]

@[simp] theorem pumpRelease_keepsCore (s : State) (c : Nat) : KeepsCore s (s.pumpRelease c) := by
  simp [State.pumpRelease]

@[simp] theorem shrinkRing_keepsCore (s : State) (c : Nat) : KeepsCore s (s.shrinkRing c) := by
  unfold State.shrinkRing
  dsimp only
  split <;> simp

@[simp] theorem countFinals_keepsCore (s : State) (c : Nat) : KeepsCore s (s.countFinals c) := by
  simp [State.countFinals]

@[simp] theorem applyIdle_keepsCore (s : State) (c : Nat) : KeepsCore s (s.applyIdle c) := by
  simp [State.applyIdle]

@[simp] theorem settleOnce_keepsCore (s : State) : KeepsCore s s.settleOnce := by
  simp [State.settleOnce]

@[simp] theorem settleN_keepsCore (s : State) (fuel : Nat) : KeepsCore s (s.settleN fuel) := by
  induction fuel generalizing s with
  | zero => simp [State.settleN]
  | succ fuel ih => simp [State.settleN, ih]

@[simp] theorem settle_keepsCore (s : State) : KeepsCore s s.settle :=
  settleN_keepsCore s 8

/-! ## Outputs -/

@[simp] theorem putPayloadId_mailOnly (s : State) (n : Nat) : MailOnly s (s.putPayloadId n) :=
  each_keeps (P := MailOnly s) _ (by simp) fun _ _ t ht => by simp [ht]

@[simp] theorem beginFrame_keepsHealth (s : State) (n : Nat) : KeepsHealth s (s.beginFrame n) := by
  unfold State.beginFrame
  dsimp only
  split <;> simp

@[simp] theorem firstLine_steady (s : State) (n : Nat) : Steady s (s.firstLine n) := by
  unfold State.firstLine
  dsimp only
  split
  · simp
  · split
    · simp
    · split <;> simp

@[simp] theorem applyShift_keepsHealth (s : State) : KeepsHealth s s.applyShift := by
  unfold State.applyShift
  split <;> simp

@[simp] theorem fsyncEdge_keepsHealth (s : State) (count : Nat) : KeepsHealth s (s.fsyncEdge count) := by
  unfold State.fsyncEdge
  refine each_keeps (P := KeepsHealth s) _ (by simp) fun n _ t ht => ?_
  dsimp only
  split
  · simp [ht]
  · split
    · simp [ht]
    · split <;> simp [ht]

@[simp] theorem cadenceEdge_keepsHealth (s : State) : KeepsHealth s s.cadenceEdge := by
  simp [State.cadenceEdge]

/-! ## The power map -/

@[simp] theorem updPwr_keepsTimeMem (s : State) (e : Nat) (f : PwrEntry → PwrEntry) : KeepsTimeMem s (s.updPwr e f) := by
  simp [State.updPwr]

@[simp] theorem switchRail_keepsTimeMem (s : State) (e : Nat) (on : Bool) : KeepsTimeMem s (s.switchRail e on) := by
  simp [State.switchRail]

@[simp] theorem nextRail_keepsTimeMem (s : State) (o : Nat × Nat) : KeepsTimeMem s (s.nextRail o) := by
  unfold State.nextRail
  dsimp only
  split
  · simp
  · split <;> simp

@[simp] theorem railOff_keepsTimeMem (s : State) (e : Nat) : KeepsTimeMem s (s.railOff e) := by
  simp [State.railOff]

@[simp] theorem sensorRails_keepsTimeMem (s : State) (n : Nat) : KeepsTimeMem s (s.sensorRails n) := by
  simp [State.sensorRails]

@[simp] theorem allRails_keepsTimeMem (s : State) : KeepsTimeMem s s.allRails := by
  simp [State.allRails]

@[simp] theorem powerFault_keepsTimeMem (s : State) (e word : Nat) : KeepsTimeMem s (s.powerFault e word) := by
  simp [State.powerFault]

@[simp] theorem holdFrom_keepsTimeMem (s : State) (e : Nat) : KeepsTimeMem s (s.holdFrom e) := by
  simp [State.holdFrom]

@[simp] theorem readVout_keepsTimeMem (s : State) (e mv : Nat) : KeepsTimeMem s (s.readVout e mv) := by
  unfold State.readVout
  dsimp only
  split <;> simp

/-! ## Ticks, engines and host transfers -/

@[simp] theorem applyObs_keepsTimeHealth (s : State) (p : Option (List Byte)) : KeepsTimeHealth s (s.applyObs p) := by
  simp [State.applyObs]

@[simp] theorem applyAtTick_keepsTimeHealth (s : State) (g : Gen) (type : Nat) :
    KeepsTimeHealth s (s.applyAtTick g type) := by
  simp [State.applyAtTick]

@[simp] theorem applyPolicy_keepsTimeHealth (s : State) : KeepsTimeHealth s s.applyPolicy := by
  unfold State.applyPolicy
  split <;> simp

@[simp] theorem refuseDue_keepsTimeHealth (s : State) : KeepsTimeHealth s s.refuseDue := by
  unfold State.refuseDue
  refine each_keeps (P := KeepsTimeHealth s) _ (by simp) fun j _ t ht => ?_
  split <;> simp [ht]

@[simp] theorem tick_keepsTimeHealth (s : State) : KeepsTimeHealth s s.tick := by
  simp [State.tick]

@[simp] theorem startNext_undisturbed (s : State) (m : Nat) : Undisturbed s (s.startNext m) := by
  have hstart := startJob_undisturbed s m
  unfold State.startNext
  rcases hs : s.startJob m with ⟨_ | j, t⟩
  · simp_all
  · rw [hs] at hstart
    simp only
    split
    · simp_all
    · split <;> simp_all

@[simp] theorem runOut_steady (s : State) (j : Job) (f : JobFacts) : Steady s (s.runOut j f).2 := by
  simp [State.runOut]

@[simp] theorem runJob_steady (s : State) (j : Job) (f : JobFacts) : Steady s (s.runJob j f).2.2 := by
  unfold State.runJob
  split <;> simp

@[simp] theorem endJob_steady {run : State → Nat × List Byte × State} (hrun : ∀ t, Steady t (run t).2.2) (s : State)
    (j : Job) (f : JobFacts) :
    Steady s (s.endJob j run f) := by
  unfold State.endJob
  cases j.superseded with
  | true =>
    dsimp only [if_true]
    split <;> simp
  | false =>
    dsimp only
    split <;> simp [hrun]

@[simp] theorem jobDone_steady (s : State) (tag : Nat) (f : JobFacts) : Steady s (s.jobDone tag f) := by
  unfold State.jobDone
  split <;> simp

@[simp] theorem holdRead_undisturbed (s : State) (c : Nat) (q : BitVec 32) (kind buffer : Nat) (by_ : Nat → Nat) :
    Undisturbed s (s.holdRead c q kind buffer by_) := by
  simp [State.holdRead]

@[simp] theorem capReadBody_undisturbed (c : Cmd) (s : State) : Undisturbed s (capReadBody c s) := by
  unfold capReadBody
  dsimp only
  repeat' split
  all_goals simp

@[simp] theorem copyOut_steady (s : State) (r : ReadPlan) (first n host : Nat) (f : DmaFacts) (whole : Bool) (ctx : Nat) :
    Steady s (s.copyOut r first n host f whole ctx).2.2.2 := by
  unfold State.copyOut
  repeat' split
  all_goals simp

@[simp] theorem endCapRead_steady (s : State) (e : ExecCmd) (f : DmaFacts) (whole : Bool) :
    Steady s (s.endCapRead e f whole) := by
  unfold State.endCapRead
  dsimp only
  split <;> simp

@[simp] theorem endDecRead_steady (s : State) (e : ExecCmd) (f : DmaFacts) (whole : Bool) :
    Steady s (s.endDecRead e f whole) := by
  simp [State.endDecRead]

@[simp] theorem dmaDone_steady (s : State) (b : Mbox) (f : DmaFacts) : Steady s (s.dmaDone b f) := by
  unfold State.dmaDone
  dsimp only
  repeat' split
  all_goals simp

@[simp] theorem nrgCostReadBody_mailOnly (c : Cmd) (s : State) : MailOnly s (nrgCostReadBody c s) := by
  simp [nrgCostReadBody]

@[simp] theorem nrgTraceBody_mailOnly (c : Cmd) (s : State) : MailOnly s (nrgTraceBody c s) := by
  simp [nrgTraceBody]

@[simp] theorem capReleaseBody_steady (c : Cmd) (s : State) : Steady s (capReleaseBody c s) := by
  simp [capReleaseBody]

/-! ## Commands on generations -/

@[simp] theorem cfgValidateBody_mailOnly (c : Cmd) (s : State) : MailOnly s (cfgValidateBody c s) := by
  unfold cfgValidateBody
  dsimp only
  split
  · simp
  · split <;> simp

@[simp] theorem cfgCommitBody_steady (c : Cmd) (s : State) : Steady s (cfgCommitBody c s) := by
  unfold cfgCommitBody
  dsimp only
  repeat' split
  all_goals simp

@[simp] theorem cfgRollbackBody_steady (c : Cmd) (s : State) : Steady s (cfgRollbackBody c s) := by
  unfold cfgRollbackBody
  dsimp only
  split
  · simp
  · split
    · simp
    · split <;> simp

@[simp] theorem nrgEstimateBody_mailOnly (c : Cmd) (s : State) : MailOnly s (nrgEstimateBody c s) := by
  unfold nrgEstimateBody
  split <;> simp

/-! ## Health -/

@[simp] theorem hltEvent_mailOnly (s : State) (code : Nat) (body : List Byte) : MailOnly s (s.hltEvent code body) := by
  simp [State.hltEvent]

@[simp] theorem stackReading_keepsPowerTime (s : State) (k : Nat) (temp : Int) :
    KeepsPowerTime s (s.stackReading k temp) := by
  simp [State.stackReading]

@[simp] theorem remoteRead_keepsPowerTimeMem (s : State) (c : Nat) (f : RemoteFacts) :
    KeepsPowerTimeMem s (s.remoteRead c f) := by
  simp [State.remoteRead]

@[simp] theorem railRead_keepsPowerTimeMem (s : State) (n mv : Nat) : KeepsPowerTimeMem s (s.railRead n mv) := by
  simp [State.railRead]

@[simp] theorem droop_keepsPowerTimeMem (s : State) (r : Nat) : KeepsPowerTimeMem s (s.droop r) := by
  simp [State.droop, State.raiseLimited]

@[simp] theorem setVcore_keepsTimeMem (s : State) (mv : Nat) : KeepsTimeMem s (s.setVcore mv) := by
  simp [State.setVcore]

@[simp] theorem avs_keepsTimeMem (s : State) (f : AvsFacts) : KeepsTimeMem s (s.avs f) := by
  unfold State.avs
  dsimp only
  repeat' split
  all_goals simp

@[simp] theorem meanTemp_mailOnly (s : State) : MailOnly s s.meanTemp.2 := by
  unfold State.meanTemp
  split <;> simp

@[simp] theorem age_keepsPowerTimeMem (s : State) : KeepsPowerTimeMem s s.age := by
  unfold State.age
  extract_lets t aged
  split
  · exact ⟨rfl, rfl, rfl, rfl⟩
  · exact ⟨rfl, rfl, rfl, rfl⟩

@[simp] theorem hltSensorsBody_mailOnly (c : Cmd) (s : State) : MailOnly s (hltSensorsBody c s) := by
  simp [hltSensorsBody]

@[simp] theorem hltFurlLogBody_mailOnly (c : Cmd) (s : State) : MailOnly s (hltFurlLogBody c s) := by
  simp [hltFurlLogBody]

@[simp] theorem hltAgeingBody_mailOnly (c : Cmd) (s : State) : MailOnly s (hltAgeingBody c s) := by
  simp [hltAgeingBody]

/-! ## Self-tests and observability -/

@[simp] theorem testJob_steady (s : State) (t : Test) (deps : List Nat) : Steady s (s.testJob t deps) := by
  simp [State.testJob]

@[simp] theorem beginTest_steady (s : State) (t : Test) : Steady s (s.beginTest t) := by
  unfold State.beginTest
  split <;> simp

@[simp] theorem updTest_mailOnly (s : State) (i : Nat) (f : Test → Test) : MailOnly s (s.updTest i f) := by
  simp [State.updTest]

@[simp] theorem startTest_steady (s : State) (i : Nat) : Steady s (s.startTest i) := by
  unfold State.startTest
  split <;> simp

@[simp] theorem recordRetired_keepsTimeHealth (s : State) (l : Loc) (cls : Nat) :
    KeepsTimeHealth s (s.recordRetired l cls) := by
  simp [State.recordRetired]

@[simp] theorem retireResource_keepsTimeHealth (s : State) (l : Loc) (cls : Nat) :
    KeepsTimeHealth s (s.retireResource l cls) := by
  simp [State.retireResource]

@[simp] theorem lasting_keepsTimeHealth (s : State) (cls : Nat) (l : Loc) : KeepsTimeHealth s (s.lasting cls l).2 := by
  unfold State.lasting
  split <;> simp

@[simp] theorem spareAgain_keepsTimeHealth (s : State) (p : Nat) : KeepsTimeHealth s (s.spareAgain p) := by
  simp [State.spareAgain]

@[simp] theorem selftestDone_mailOnly (s : State) (seq status : Nat) : MailOnly s (s.selftestDone seq status) := by
  simp [State.selftestDone]

@[simp] theorem endTest_keepsTimeHealth (s : State) (i : Nat) (r : Option Bool) (result flags : Nat) (busy : Bool) :
    KeepsTimeHealth s (s.endTest i r result flags busy) := by
  unfold State.endTest
  split <;> simp

@[simp] theorem finishRun_keepsTimeHealth (s : State) (t : Test) (f : TestFacts) : KeepsTimeHealth s (s.finishRun t f) := by
  unfold State.finishRun
  split <;> split <;> simp

@[simp] theorem obsSelftestBody_steady (c : Cmd) (s : State) : Steady s (obsSelftestBody c s) := by
  unfold obsSelftestBody
  dsimp only
  split
  · simp
  · split <;> simp

@[simp] theorem errHistory_mailOnly (s : State) (first fuel : Nat) : MailOnly s (s.errHistory first fuel).2 := by
  induction fuel generalizing s first with
  | zero => simp [State.errHistory]
  | succ fuel ih =>
    unfold State.errHistory
    split <;> simp [ih]

@[simp] theorem obsErrHistoryBody_mailOnly (c : Cmd) (s : State) : MailOnly s (obsErrHistoryBody c s) := by
  simp [obsErrHistoryBody]

@[simp] theorem obsRetiredBody_mailOnly (c : Cmd) (s : State) : MailOnly s (obsRetiredBody c s) := by
  simp [obsRetiredBody]

@[simp] theorem obsUnretireBody_undisturbed (c : Cmd) (s : State) : Undisturbed s (obsUnretireBody c s) := by
  simp [obsUnretireBody]

@[simp] theorem obsVectorBody_mailOnly (c : Cmd) (s : State) : MailOnly s (obsVectorBody c s) := by
  simp [obsVectorBody]

@[simp] theorem obsHalyardArmBody_mailOnly (c : Cmd) (s : State) : MailOnly s (obsHalyardArmBody c s) := by
  simp [obsHalyardArmBody]

@[simp] theorem obsHalyardFireBody_mailOnly (c : Cmd) (s : State) : MailOnly s (obsHalyardFireBody c s) := by
  simp [obsHalyardFireBody]

/-! ## Boot and resets -/

@[simp] theorem stopBoot_keepsTimeHealthMem (s : State) (code : Byte) (stage : BootStage) :
    KeepsTimeHealthMem s (s.stopBoot code stage) := by
  simp [State.stopBoot]

@[simp] theorem stopPower_keepsTimeHealthMem (s : State) (code : Byte) : KeepsTimeHealthMem s (s.stopPower code) := by
  simp [State.stopPower]

@[simp] theorem linkSeen_keepsTimeHealthMem (s : State) : KeepsTimeHealthMem s s.linkSeen := by
  simp [State.linkSeen]

@[simp] theorem devResetBody_keepsTimeHealth (c : Cmd) (s : State) : KeepsTimeHealth s (devResetBody c s) := by
  simp [devResetBody]

@[simp] theorem mgmtImageBeginBody_mailOnly (c : Cmd) (s : State) : MailOnly s (mgmtImageBeginBody c s) := by
  simp [mgmtImageBeginBody]

@[simp] theorem mgmtImageDataBody_mailOnly (c : Cmd) (s : State) : MailOnly s (mgmtImageDataBody c s) := by
  unfold mgmtImageDataBody
  split
  · simp
  · split <;> simp

/-! ## Host and management accesses -/

@[simp] theorem readEffect_keepsPowerHealthMem (s : State) (a : Nat) : KeepsPowerHealthMem s (s.readEffect a) := by
  unfold State.readEffect
  split
  · simp
  · split <;> simp

@[simp] theorem readStep_keepsPowerHealthMem (s : State) (a : Nat) : KeepsPowerHealthMem s (s.readStep a).2 := by
  simp [State.readStep]

@[simp] theorem readWords_keepsPowerHealthMem (fuel a : Nat) (s : State) :
    KeepsPowerHealthMem s (State.readWords fuel a s).2 := by
  induction fuel generalizing a s with
  | zero => simp [State.readWords]
  | succ fuel ih => simp [State.readWords, ih]

@[simp] theorem hostRead_keepsPowerHealthMem (s : State) (a len : Nat) : KeepsPowerHealthMem s (s.hostRead a len) := by
  simp [State.hostRead]

theorem updNcp_undisturbed (s : State) (f : Ncp → Ncp) : Undisturbed s (s.updNcp f) := by simp

theorem updObs_undisturbed (s : State) (f : Obs → Obs) : Undisturbed s (s.updObs f) := by simp

theorem latches_undisturbed (s : State) (l : List (Nat × Word)) : Undisturbed s { s with latches := l } := by simp

theorem askVector_undisturbed (s : State) (v : Nat) : Undisturbed s (s.askVector v) := by simp

@[simp] theorem clearBits_undisturbed (s : State) (a v hw : Nat) : Undisturbed s (s.clearBits a v hw) := by
  unfold State.clearBits
  extract_lets m causes old ovf cleared
  split
  · exact updNcp_undisturbed s _
  · split
    · split
      · exact updNcp_undisturbed s _
      · exact (updNcp_undisturbed s _).trans (askVector_undisturbed causes 0)
    · split
      · exact updNcp_undisturbed s _
      · split
        · exact updNcp_undisturbed s _
        · split
          · simp
          · exact (updObs_undisturbed s _).trans (latches_undisturbed cleared _)

@[simp] theorem writeMsix_mailOnly (s : State) (off v : Nat) : MailOnly s (s.writeMsix off v) := by
  unfold State.writeMsix
  split <;> simp

theorem updSession_undisturbed (s : State) (n : Nat) (f : Session → Session) : Undisturbed s (s.updSession n f) := by simp

theorem writeMsix_undisturbed (s : State) (n v : Nat) : Undisturbed s (s.writeMsix n v) := by simp

@[simp] theorem writeWord_undisturbed (s : State) (a v : Nat) : Undisturbed s (s.writeWord a v) := by
  unfold State.writeWord
  split
  · simp
  · split
    · split <;> simp
    · split
      · simp
      · split
        · simp
        · split
          · exact updSession_undisturbed s _ _
          · split
            · simp
            · split
              · exact writeMsix_undisturbed s _ _
              · simp

@[simp] theorem writeSlots_mailOnly (s : State) (addr : Nat) (data : List Byte) : MailOnly s (s.writeSlots addr data) := by
  simp [State.writeSlots]

@[simp] theorem writeRings_mailOnly (s : State) (addr : Nat) (data : List Byte) : MailOnly s (s.writeRings addr data) := by
  simp [State.writeRings]

@[simp] theorem hostWrite_undisturbed (s : State) (addr : Nat) (data : List Byte) :
    Undisturbed s (s.hostWrite addr data) := by
  simp [State.hostWrite]

@[simp] theorem mgPut_mailOnly (s : State) (l : Nat) (b : Byte) : MailOnly s (s.mgPut l b) := by
  simp [State.mgPut]

@[simp] theorem mgWrite_mailOnly (s : State) (l : Nat) (d : List Byte) : MailOnly s (s.mgWrite l d) := by
  simp [State.mgWrite]

@[simp] theorem mgFrame_mailOnly (s : State) (mosi : List Byte) (readLen : Nat) : MailOnly s (s.mgFrame mosi readLen) := by
  simp [State.mgFrame]

/-! ## Pins and links -/

@[simp] theorem aonRise_keepsTimeHealthMem (s : State) : KeepsTimeHealthMem s s.aonRise := by
  simp [State.aonRise]

theorem vecs_mailFrame (s : State) (v : List Vec) : MailFrame s { s with vecs := v } := ⟨_, _, _, _, _, rfl⟩

theorem updObs_mailFrame (s : State) (f : Obs → Obs) : MailFrame s (s.updObs f) := ⟨_, _, _, _, _, rfl⟩

@[simp] theorem loseHost_mailOnly (s : State) : MailOnly s s.loseHost := by
  unfold State.loseHost
  extract_lets orphaned cut cleared
  have horphaned : MailOnly s orphaned := each_keeps (P := MailOnly s) _ (by simp) fun _ _ t ht => by simp [ht]
  exact horphaned.trans
    (((updNcp_mailFrame orphaned _).trans (vecs_mailFrame cleared _)).trans (updObs_mailFrame _ _)).mailOnly

@[simp] theorem linkReset_keepsTimeHealthMem (s : State) (st : Nat) (keep : Bool) :
    KeepsTimeHealthMem s (s.linkReset st keep) := by
  simp [State.linkReset]

@[simp] theorem perstFall_keepsTimeHealthMem (s : State) (lowNs : Nat) : KeepsTimeHealthMem s (s.perstFall lowNs) := by
  simp [State.perstFall]

@[simp] theorem perstRise_keepsTimeHealthMem (s : State) : KeepsTimeHealthMem s s.perstRise := by
  simp [State.perstRise]

@[simp] theorem hostLinkLost_keepsTimeHealthMem (s : State) : KeepsTimeHealthMem s s.hostLinkLost := by
  simp [State.hostLinkLost]

@[simp] theorem refclkStop_keepsTimeHealthMem (s : State) : KeepsTimeHealthMem s s.refclkStop := by
  simp [State.refclkStop]

/-! ## Every command -/

section

variable {c : Instr} {s t : State} (h : exec c s = .next t)

include h

theorem exec_mailOnly (hc : mailOnly c = true) : MailOnly s t := by
  cases c <;> cases hc <;> obtain rfl := Host.Outcome.next.inj h
  case completionPost | halyardPendingFire | timeMatch => split <;> simp
  case doorbell | slotRelease | slotWrite | glbHalyardFire | mgmtFrame | mgDoorbell | mgRelease | msixUnmask | halyardInEdge |
      msixMessageSend | sessionExpired | openSlotTimeout | ppsOutPulse => simp
  all_goals exact take_mailOnly (fun _ _ => by simp) _ _ _

theorem exec_mem (hc : actsOnCapture c = false) : t.mem = s.mem := by
  cases c <;> cases hc <;> obtain rfl := Host.Outcome.next.inj h
  any_goals simp; done
  all_goals split <;> simp

theorem exec_power (hc : actsOnPower c = false) : t.power = s.power := by
  cases c <;> cases hc <;> obtain rfl := Host.Outcome.next.inj h
  any_goals simp; done
  all_goals split <;> simp

theorem exec_time (hc : actsOnTime c = false) : t.time = s.time := by
  cases c <;> cases hc <;> obtain rfl := Host.Outcome.next.inj h
  any_goals simp; done
  all_goals split <;> simp

theorem exec_health (hc : actsOnHealth c = false) : t.health = s.health := by
  cases c <;> cases hc <;> obtain rfl := Host.Outcome.next.inj h
  any_goals simp; done
  all_goals split <;> simp

end

/-- Settles O5: each such command acts on the mail alone, by the lemma of its function. -/
theorem mailCommandsLeaveTheDevice : Obligations.MailCommandsLeaveTheDevice :=
  fun _ _ _ hc h => (exec_mailOnly h hc).eq

/-- Settles O6: each command by the lemmas of the functions that it is made of, and the firmware's own work by its own. -/
theorem commandsKeepWhatTheyDoNotName : Obligations.CommandsKeepWhatTheyDoNotName := by
  refine ⟨fun c s t h => ⟨exec_mem h, exec_power h, exec_time h, exec_health h⟩, fun s => ?settle⟩
  obtain ⟨⟨hpower, htime, hhealth, hpending⟩, hshrouds, hsensors, hep, hengines, hlatches⟩ := settle_keepsCore s
  exact ⟨hpower, htime, hhealth, hshrouds, hsensors, hep, hengines, hlatches, hpending⟩

end Sys2Proof.Machine

/-! SUPPORT. Jobs on their engines: what the head of a queue does when it starts, and what a completion records. -/

namespace Sys2Proof.Machine

open Sys2Proof

theorem updEngine_jobs (s : State) (m : Nat) (f : Engine → Engine) : (s.updEngine m f).jobs = s.jobs := rfl

/-- A change that keeps a job's number reaches that job. -/
theorem updJob_job_same {s : State} {id : Nat} {f : Job → Job} (hf : ∀ j, (f j).id = j.id) :
    (s.updJob id f).job id = (s.job id).map f := by
  have hnum (j : Job) : ((if j.id = id then f j else j).id == id) = (j.id == id) := by
    split <;> simp [hf]
  simp only [State.job, State.updJob, List.find?_map, Function.comp_def, hnum]
  cases hj : s.jobs.find? (fun j => j.id == id) with
  | none => rfl
  | some j => simp [show j.id = id by simpa using List.find?_some hj]

/-- The state in which an engine's head job runs. -/
def State.headStarted (s : State) (m id : Nat) (rest : List Nat) : State :=
  (s.updJob id fun j => { j with st := .running, runTbm := s.now }).updEngine m fun e =>
    { e with queue := rest, running := if manyJobs m then none else some id }

theorem startJob_head {s : State} {m id : Nat} {rest : List Nat} {j : Job} (hidle : (s.engine m).running = none)
    (hqueue : (s.engine m).queue = id :: rest) (hjob : s.job id = some j) :
    s.startJob m = (some j, s.headStarted m id rest) := by
  simp [State.startJob, State.headStarted, hidle, hqueue, hjob]

theorem startNext_head {s : State} {m id : Nat} {rest : List Nat} {j : Job} (hidle : (s.engine m).running = none)
    (hqueue : (s.engine m).queue = id :: rest) (hjob : s.job id = some j) :
    s.startNext m = if j.kind == .recWrite then (s.headStarted m id rest).startWrite j 0
      else if j.kind == .outUnit then (s.headStarted m id rest).sendUnit j else s.headStarted m id rest := by
  simp only [State.startNext, startJob_head hidle hqueue hjob]

/-- On an SDI link a streamer job puts its lines out (R472). -/
theorem sendUnit_sdi {s : State} {j : Job} (h : (s.stream j.object).type = 3) :
    s.sendUnit j = s.out (.lines j.object (j.args.getD 0 0) 0) := by
  simp [State.sendUnit, State.putLines, h]

/-- A completion records its status, outcome and time in the job, which keeps its tag (R35, R41). -/
theorem completeJob_job {s : State} {j : Job} (status : Nat) (hjob : s.job j.id = some j) (hlive : j.superseded = false) :
    (s.completeJob j status).job j.id =
      some { j with st := .complete, status := status, outcome := admittedWord j.cls j.waits, endTbm := s.now } := by
  have hjobs : (s.completeJob j status).jobs = (s.updJob j.id fun j' => { j' with
      st := .complete, status := status, outcome := admittedWord j.cls j.waits, endTbm := s.now }).jobs := by
    simp [State.completeJob, hlive, updEngine_jobs]
  have hsame := updJob_job_same (s := s) (id := j.id) (f := fun j' => { j' with
      st := .complete, status := status, outcome := admittedWord j.cls j.waits, endTbm := s.now }) fun _ => rfl
  rw [State.job, hjobs, ← State.job, hsame, hjob]
  rfl

/-- Settles O34: the start by the engine's head, the ends by the equations of their rows. -/
theorem jobsRunCompleteAndRetire : Obligations.JobsRunCompleteAndRetire := by
  refine ⟨fun m id rest j s hidle hqueue hjob => ?start, fun tag f j s htag hrun hwrite htest => ?ends,
    fun j status s hjob hlive => ⟨_, completeJob_job status hjob hlive, rfl, rfl, rfl, rfl, rfl⟩,
    fun tag j s htag hdone => ?retires⟩
  case start =>
    have hstart := startNext_head hidle hqueue hjob
    refine ⟨fun hwrite hunit => congrArg Host.Outcome.next (hstart.trans ?other),
      fun hwrite => congrArg Host.Outcome.next (hstart.trans ?write),
      fun hunit htype => congrArg Host.Outcome.next (hstart.trans ?unit)⟩
    case other => simp [hwrite, hunit, State.headStarted]
    case write => simp [hwrite, State.headStarted]
    case unit =>
      have hsdi : ((s.headStarted m id rest).stream j.object).type = 3 := htype
      simpa [hunit, State.headStarted] using sendUnit_sdi hsdi
  case ends => simp [exec, execJobComplete, State.jobDone, htag, hrun, hwrite, htest]
  case retires => simp [exec, execJobRetire, htag, hdone]

end Sys2Proof.Machine

/-! SUPPORT. A row of a frame in its tiles: what a store to capture memory changes besides the bytes, and where the pieces of the tile
columns lie. -/

namespace Sys2Proof.Machine

open Sys2Proof

/-! ## What a store changes besides the bytes -/

/-- All but the mail and capture memory is as before, and the same pages are valid. -/
@[simp] abbrev MemMailOnly (s t : State) : Prop :=
  MailOnly { s with mem := t.mem } t ∧ t.mem.table = s.mem.table

theorem MemMailOnly.refl (s : State) : MemMailOnly s s := by simp

theorem MemMailOnly.trans {s t u : State} (h : MemMailOnly s t) (h' : MemMailOnly t u) : MemMailOnly s u := by
  simp_all

theorem MemMailOnly.eq {s t : State} (h : MemMailOnly s t) :
    t = { s with mem := t.mem, ncp := t.ncp, vecs := t.vecs, obs := t.obs, free := t.free, outs := t.outs } :=
  MailOnly.eq h.1

theorem MemMailOnly.pageOf {s t : State} (h : MemMailOnly s t) (addr : Nat) : t.pageOf addr = s.pageOf addr := by
  simp [State.pageOf, h.2]

/-- The bytes are as before besides. -/
@[simp] abbrev ReachOnly (s t : State) : Prop := MemMailOnly s t ∧ t.mem.bytes = s.mem.bytes

theorem ReachOnly.trans {s t u : State} (h : ReachOnly s t) (h' : ReachOnly t u) : ReachOnly s u :=
  ⟨h.1.trans h'.1, h'.2.trans h.2⟩

theorem MailOnly.reachOnly {s t : State} (h : MailOnly s t) : ReachOnly s t := by
  simp_all

theorem unmappedAt_reachOnly (s : State) (master addr : Nat) : ReachOnly s (s.unmappedAt master addr) := by
  unfold State.unmappedAt State.raiseLimited
  dsimp only
  split <;> simp [State.updMem]

theorem request_reachOnly (s : State) (c : Cell) : ReachOnly s (s.updPc (c.stack * 32 + c.pc) fun p => p.request c.bank c.row) := by
  simp [State.updPc]

theorem access_reachOnly (s : State) (event master addr n : Nat) (c : Cell) : ReachOnly s (s.access event master addr n c) := by
  unfold State.access
  extract_lets pc tag opened counted
  have hopened : ReachOnly s opened :=
    (MailOnly.reachOnly (by simp)).trans (request_reachOnly (if (s.pchan pc).rows.contains (c.bank, c.row) then s else s.count 0x04 1 tag) c)
  have hcounted : ReachOnly s counted := hopened.trans (MailOnly.reachOnly (count_mailOnly _ _ _ _))
  split
  · exact hcounted.trans (MailOnly.reachOnly ((drawNat_mailOnly _).trans (hist_mailOnly _ _ _ _ _)))
  · exact hcounted

theorem reach_reachOnly (s : State) (event master addr n : Nat) : ReachOnly s (s.reach event master addr n) := by
  unfold State.reach
  refine each_keeps (P := ReachOnly s) _ (by simp) fun a _ t ht => ht.trans ?_
  extract_lets first n
  split
  · have hfirst := access_reachOnly t event master first n
    split
    · split
      · exact (hfirst _).trans (access_reachOnly _ _ _ _ _ _)
      · exact hfirst _
    · exact hfirst _
  · exact unmappedAt_reachOnly t _ _

/-- A store to valid pages writes its bytes. -/
theorem capWrite_of_valid {s : State} {addr : Nat} {d : List Byte} (master : Nat) (hd : 0 < d.length)
    (hvalid : ∀ i < d.length, (s.pageOf (addr + i)).isSome = true) :
    MemMailOnly s (s.capWrite master addr d) ∧ (s.capWrite master addr d).mem.bytes = s.mem.bytes.writeN addr d := by
  obtain ⟨hreach, hbytes⟩ := reach_reachOnly s 3 master addr d.length
  have hfirst := hvalid 0 hd
  have hlast := hvalid (d.length - 1) (by omega)
  rw [← Nat.add_sub_assoc hd] at hlast
  rw [← hreach.pageOf] at hfirst hlast
  have hwrite : s.capWrite master addr d =
      (s.reach 3 master addr d.length).updMem fun m => { m with bytes := m.bytes.writeN addr d } := by
    simp only [State.capWrite]
    rw [if_pos]
    simpa using ⟨hfirst, hlast⟩
  rw [hwrite]
  exact ⟨hreach.trans (by simp [State.updMem]), by simp only [State.updMem, hbytes]⟩

/-! ## Pieces stored one after another -/

section

variable (place : Nat → Nat) (piece : Nat → List Byte)

/-- The pieces of a list of columns stored in sparse memory, each at its place. -/
def writePieces (l : List Nat) (m : Mem) : Mem := each l (fun x m => m.writeN (place x) (piece x)) m

theorem writePieces_wf (l : List Nat) {m : Mem} (hwf : m.wf = true) : (writePieces place piece l m).wf = true :=
  each_keeps (P := fun m => Mem.wf m = true) l hwf fun _ _ _ h => Mem.writeN_wf _ _ _ h

theorem read_writePieces_of_not {l : List Nat} {a : Nat} (m : Mem) (hout : ∀ x ∈ l, a < place x ∨ place x + (piece x).length ≤ a) :
    (writePieces place piece l m).read a = m.read a :=
  each_keeps (P := fun m' => Mem.read m' a = m.read a) l rfl fun x hx _ h => (Mem.read_writeN_of_not _ _ _ _ (hout x hx)).trans h

theorem readN_writePieces_of_apart {l : List Nat} {a n : Nat} (m : Mem)
    (hout : ∀ x ∈ l, a + n ≤ place x ∨ place x + (piece x).length ≤ a) : (writePieces place piece l m).readN a n = m.readN a n :=
  each_keeps (P := fun m' => Mem.readN m' a n = m.readN a n) l rfl fun x hx _ h =>
    (Mem.readN_writeN_of_apart _ _ _ _ _ (hout x hx)).trans h

/-- Pieces that lie apart from each other all read back. -/
theorem readN_writePieces {l : List Nat} {x : Nat} {m : Mem} (hwf : m.wf = true) (hx : x ∈ l)
    (hapart : ∀ y, y ≠ x → place x + (piece x).length ≤ place y ∨ place y + (piece y).length ≤ place x) :
    (writePieces place piece l m).readN (place x) (piece x).length = piece x := by
  induction l generalizing m with
  | nil => cases hx
  | cons y ys ih =>
    change (writePieces place piece ys (m.writeN (place y) (piece y))).readN _ _ = _
    by_cases hlater : x ∈ ys
    · exact ih (Mem.writeN_wf _ _ _ hwf) hlater
    · obtain rfl : x = y := (List.mem_cons.1 hx).resolve_right hlater
      rw [readN_writePieces_of_apart place piece _ fun z hz => hapart z fun e => hlater (e ▸ hz)]
      exact Mem.readN_writeN _ _ _ hwf

/-- Pieces on valid pages are stored one after another, with nothing else changed. -/
theorem storePieces (master : Nat) {l : List Nat} {s : State} (hpos : ∀ x ∈ l, 0 < (piece x).length)
    (hvalid : ∀ x ∈ l, ∀ i < (piece x).length, (s.pageOf (place x + i)).isSome = true) :
    let t := each l (fun x s => s.capWrite master (place x) (piece x)) s
    MemMailOnly s t ∧ t.mem.bytes = writePieces place piece l s.mem.bytes := by
  induction l generalizing s with
  | nil => exact ⟨.refl s, rfl⟩
  | cons x xs ih =>
    obtain ⟨hmail, hbytes⟩ := capWrite_of_valid master (hpos x (by simp)) (hvalid x (by simp))
    obtain ⟨hmail', hbytes'⟩ := ih (s := s.capWrite master (place x) (piece x)) (fun y hy => hpos y (by simp [hy]))
      fun y hy i hi => by simpa [hmail.pageOf] using hvalid y (by simp [hy]) i hi
    exact ⟨hmail.trans hmail', hbytes'.trans (by rw [hbytes]; rfl)⟩

end

/-! ## The pieces of a row -/

/-- The place of a row's piece in tile column `x` (R22, R23). -/
def pieceAt (addr w d row x : Nat) : Nat := addr + (row / 16 * tilesX w + x) * 128 * d + row % 16 * 8 * d

theorem length_sub (p : List Byte) (off n : Nat) : (sub p off n).length = n := by
  simp [sub]

/-- The places of two columns are at least a tile apart. -/
theorem pieceAt_of_lt {x y : Nat} (addr w d row : Nat) (h : x < y) : pieceAt addr w d row x + 8 * d ≤ pieceAt addr w d row y := by
  obtain ⟨k, rfl⟩ := Nat.exists_eq_add_of_lt h
  simp only [pieceAt]
  nlinarith [Nat.zero_le (k * d)]

theorem pieceAt_apart {x y : Nat} (addr w d row : Nat) (h : y ≠ x) :
    pieceAt addr w d row x + 8 * d ≤ pieceAt addr w d row y ∨ pieceAt addr w d row y + 8 * d ≤ pieceAt addr w d row x :=
  (Nat.lt_or_gt_of_ne h).symm.imp (pieceAt_of_lt addr w d row) (pieceAt_of_lt addr w d row)

/-- Settles O42: a row is stored piece by piece, and the pieces of its tile columns lie apart. -/
theorem rowsLieInTiles : Obligations.RowsLieInTiles := by
  intro master addr w d row bytes s hd hwf hvalid t
  have hlen (x : Nat) : (sub bytes (8 * d * x) (8 * d)).length = 8 * d := length_sub _ _ _
  obtain ⟨hmail, hbytes⟩ : MemMailOnly s t ∧ t.mem.bytes =
      writePieces (pieceAt addr w d row) (fun x => sub bytes (8 * d * x) (8 * d)) (List.range (tilesX w)) s.mem.bytes :=
    storePieces _ _ master (fun x _ => by simp only [hlen]; omega) fun x hx i hi => by
      simp only [hlen] at hi
      exact hvalid x (List.mem_range.1 hx) i hi
  refine ⟨fun x hx => ?piece, fun a hout => ?outside, hmail.eq, hmail.pageOf⟩
  case piece =>
    have hread := readN_writePieces (pieceAt addr w d row) (fun x => sub bytes (8 * d * x) (8 * d)) hwf (List.mem_range.2 hx)
      fun y hy => by simpa only [hlen] using pieceAt_apart addr w d row hy
    simp only [hlen] at hread
    exact (congrArg (fun m => Mem.readN m _ _) hbytes).trans hread
  case outside =>
    refine (congrArg (fun m => Mem.read m a) hbytes).trans (read_writePieces_of_not _ _ _ fun x hx => ?_)
    simpa only [hlen, pieceAt] using hout x (List.mem_range.1 hx)

end Sys2Proof.Machine

/-! SUPPORT. A drive reset in a context's probation: the Write that it ends HW_FAULT is a fatal error of R175. -/

namespace Sys2Proof.Machine

open Sys2Proof

/-- The Write, on port 0, of the only stripe that stream 0 still has to make durable. -/
def resetPiece : Piece := { job := 1, grant := 1, lba := 0, lbas := 8, off := 0, len := 4096, st := 0, flush := 0, again := false }

def resetStripe : Stripe :=
  { index := 0, isSeal := false, port := 0, pieces := [resetPiece], data := [], relocated := false, final := false, stride := 1 }

/-- The recorder job of that Write, which carries the context of the frame that it records (`State.writeJob`). -/
def resetJob : Job := { Job.make .recWrite 2 with id := 1, st := .running, ctx := some 0 }

/-- Context 0 is in probation, its apply point come (R174). -/
def resetProbation : Probation :=
  { frames := 2, limitMs := 1000, startTbm := 0, landed := [{ ctx := 0, frames := 0, sinceTbm := 0, captured := false }], affected := [0] }

def recordingInProbation : State :=
  { ((State.reset.updStream 0 fun x => { x with stripes := [resetStripe] }).updCfg fun c => { c with probation := some resetProbation }) with
    jobs := [resetJob] }

theorem probation_before : recordingInProbation.cfg.probation = some resetProbation := rfl

/-- The reset relocates the stripe, and its job's HW_FAULT ends the probation (R175, R466). -/
theorem probation_after : (recordingInProbation.portReset 0 none).cfg.probation = none := by decide +kernel

theorem portReset_changes_cfg : (recordingInProbation.portReset 0 none).cfg ≠ recordingInProbation.cfg := fun h => by
  have hprobation := congrArg Cfg.probation h
  rw [probation_before, probation_after] at hprobation
  cases hprobation

/-- Refutes O49: a reset of a port ends the Writes on it HW_FAULT, and in the probation of a Write's context that is a fatal error,
which changes the configuration. -/
theorem not_drivesSegmentsAndLines : ¬ Obligations.DrivesSegmentsAndLines := by
  rintro ⟨⟨-, -, -, hreset, -, -⟩, -⟩
  obtain ⟨-, -, -, -, -, hcfg⟩ := hreset 0 none recordingInProbation (by decide)
  exact portReset_changes_cfg hcfg

end Sys2Proof.Machine

/-! SUPPORT. The power-up sequence on a board on which every stage passes: the boot ROM's way to the wait for a first stage,
stage by stage in the order of R97. -/

namespace Sys2Proof.Machine

open Sys2Proof

/-! ## The stages of the power-up sequence -/

/-- The parts of a good board. -/
theorem parts_of_good {e : BootEnv} (h : e.good = true) :
    e.crystal = true ∧ (∀ i < 9, e.pmbusAck.getD i false = true) ∧ e.railsRise = true ∧ e.pllsLock = true ∧ e.comparators = 0 := by
  simpa [BootEnv.good, and_assoc] using h

/-- The crystal is qualified: code 0x20. -/
def Power.crystalIn (p : Power) : Power := { p with bootCode := 0x20, xtalQualified := true, aonOnXtal := true, bootStage := .idle }

/-- The nine rails have their boot voltages: code 0x30. The groups of outputs driven are `g`. -/
def Power.railsIn (p : Power) (g : List PinGroup) : Power :=
  { p with bootCode := 0x30, railsUp := true, pwrEn := List.replicate 9 true ++ List.replicate 7 false,
           vout := bootVolts ++ p.vout.drop 9, driven := g }

/-- The synthesisers have locked and the Mast waits for a first stage: code 0x40. -/
def Power.mastWaits (p : Power) (g : List PinGroup) : Power :=
  { p with bootCode := 0x40, pllLocked := true, mastRuns := true, bootStage := .waitFirstStage, driven := g }

theorem bootXtal_qualifies {s : State} (hcrystal : s.power.env.crystal = true) (hruns : s.power.crystalRuns = true) :
    s.bootXtal = (s.updPower Power.crystalIn).bootRails :=
  if_pos (by simp [hcrystal, hruns])

/-- The PMBus writes show on the pins alone. -/
theorem bootVoltages_eq (s : State) (n : Nat) : ∃ g us, s.bootVoltages n =
    { s with power := { s.power with vout := bootVolts.take n ++ s.power.vout.drop n, driven := g }, outs := us } := by
  obtain ⟨us, hwrites⟩ : ∃ us, each (List.range n) (fun i s => s.out (.pmbus 0 (0x40 + i) (bootVolts.getD i 0)))
      (s.drivePins (.pmbus 0)) = { s.drivePins (.pmbus 0) with outs := us } :=
    each_keeps (P := fun t => ∃ us, t = { s.drivePins (.pmbus 0) with outs := us }) _ ⟨_, rfl⟩ fun _ _ t ht => by
      obtain ⟨us, rfl⟩ := ht
      exact ⟨_, rfl⟩
  exact ⟨_, us, by rw [State.bootVoltages, hwrites]; rfl⟩

/-- Every address acknowledges and every rail rises (R97, R99). -/
theorem bootRails_rise {s : State} (hack : ∀ i < 9, s.power.env.pmbusAck.getD i false = true) (hrise : s.power.env.railsRise = true) :
    ∃ g us, s.bootRails = State.bootPlls { s with power := s.power.railsIn g, outs := us } := by
  have hall : (List.range 9).takeWhile (fun i => s.power.env.pmbusAck.getD i false) = List.range 9 :=
    List.takeWhile_eq_self_iff.2 fun i hi => hack i (List.mem_range.1 hi)
  obtain ⟨g, us, hvolts⟩ := bootVoltages_eq s 9
  refine ⟨if g.contains .pwrEn then g else g ++ [.pwrEn], us, ?_⟩
  simp only [State.bootRails, hall, List.length_range, lt_irrefl, if_false, hvolts, State.drivePins, State.updPower, hrise, if_true]
  rfl

/-- BOOTSEL 0b100 names MGMT_SPI, from which no image has come yet (R69). -/
theorem bootMast_mgmtSpi {s : State} (hsel : s.power.bootsel = 4) :
    s.bootMast = s.updPower fun p => { p with bootStage := .waitFirstStage } := by
  have hfour : s.power.bootsel.toNat = 4 := by rw [hsel]; rfl
  simp only [State.bootMast, hfour]

/-- The synthesisers lock; with PERST_N high the endpoint may train from here on (R105, R530). -/
theorem bootPlls_lock {s : State} (hlock : s.power.env.pllsLock = true) (hsel : s.power.bootsel = 4) :
    ∃ g e, s.bootPlls = { s with power := s.power.mastWaits g, ep := e } := by
  simp only [State.bootPlls, hlock, if_true]
  split
  · exact ⟨_, _, bootMast_mgmtSpi hsel⟩
  · exact ⟨_, _, bootMast_mgmtSpi hsel⟩

/-! ## The whole sequence -/

/-- What the power-up sequence makes of the power state: crystal, rails and synthesisers in turn. After the rails the groups of
outputs `g` are driven, at the end `g'`. -/
def Power.poweredUp (p : Power) (g g' : List PinGroup) : Power := (p.crystalIn.railsIn g).mastWaits g'

theorem bootXtal_poweredUp {s : State} (hgood : s.power.env.good = true) (hruns : s.power.crystalRuns = true)
    (hsel : s.power.bootsel = 4) : ∃ g g' e us, s.bootXtal = { s with power := s.power.poweredUp g g', ep := e, outs := us } := by
  obtain ⟨hcrystal, hack, hrise, hlock, -⟩ := parts_of_good hgood
  obtain ⟨g, us, hrails⟩ := bootRails_rise (s := s.updPower Power.crystalIn) hack hrise
  obtain ⟨g', e, hplls⟩ := bootPlls_lock (s := { s with power := s.power.crystalIn.railsIn g, outs := us }) hlock hsel
  exact ⟨g, g', e, us, (bootXtal_qualifies hcrystal hruns).trans (hrails.trans hplls)⟩

/-- The boot ROM at code 0x10, before the sequence begins. -/
def State.bootStarted (s : State) (env : BootEnv) : State :=
  { s with
    power := { s.power with condition := .running, env := env, bootCode := 0x10, bootStage := .idle, bootSource := s.firstSource }
    nv := { s.nv with bootCount := s.nv.bootCount + 1 }
    health := { s.health with comparatorsFailed := env.comparators } }

/-- A boot that finds its comparators good and its rails discharged goes straight to the crystal (R92, R97, R623). -/
theorem boot_starts {s : State} {env : BootEnv} (hcomp : env.comparators = 0) (hsel : s.power.bootsel.toNat ≤ 4)
    (hrails : s.power.bootCold = true ∨ env.discharged = true) : s.boot env = (s.bootStarted env).bootXtal := by
  have hfurl : ¬ 2 ≤ popCount 4 env.comparators.toNat := by rw [hcomp]; decide
  have hstop : ¬ 4 < s.power.bootsel.toNat := by omega
  have hdown : ¬ (!s.power.bootCold && !env.discharged) = true := by simpa [or_iff_not_imp_left] using hrails
  exact (if_neg hfurl).trans ((if_neg hstop).trans (if_neg hdown))

/-- The boot of a good board under BOOTSEL 0b100 runs to the wait for a first stage. -/
theorem boot_poweredUp {s : State} {env : BootEnv} (hgood : env.good = true) (hruns : s.power.crystalRuns = true)
    (hsel : s.power.bootsel = 4) (hrails : s.power.bootCold = true ∨ env.discharged = true) : ∃ g g' e us,
    s.boot env = { s.bootStarted env with power := (s.bootStarted env).power.poweredUp g g', ep := e, outs := us } := by
  obtain ⟨-, -, -, -, hcomp⟩ := parts_of_good hgood
  have hsource : s.power.bootsel.toNat ≤ 4 := by rw [hsel]; decide
  rw [boot_starts hcomp hsource hrails]
  exact bootXtal_poweredUp hgood hruns hsel

/-- From rails that were off, the sequence has brought up all that R97 to R105 ask for at the wait. -/
theorem awaitsFirstStage_of_poweredUp {t : State} {p : Power} {g g' : List PinGroup} (hpower : t.power = p.poweredUp g g')
    (hrun : p.condition = .running) (hoff : p.vout.length = 9) : AwaitsFirstStage t := by
  have hvolts : bootVolts ++ p.vout.drop 9 = bootVolts := by rw [List.drop_eq_nil_of_le hoff.le, List.append_nil]
  rw [Power.poweredUp] at hpower
  exact {
    condition := by rw [hpower]; exact hrun
    code := by rw [hpower]; rfl
    stage := by rw [hpower]; rfl
    enables := by rw [hpower]; rfl
    volts := by rw [hpower]; exact hvolts
    crystal := by rw [hpower]; rfl
    plls := by rw [hpower]; rfl }

/-! ## The cold boot -/

/-- PWROK rises with the always-on supply in range and no furl: the straps are sampled and the cold reset ends (R69, R94). -/
theorem pwrokRise_of_low {s : State} {b : BitVec 3} {a : BitVec 2} {env : BootEnv} (haon : s.power.vddAon = true)
    (hlow : s.power.pwrok = false) (hfurl : s.power.condition ≠ .furled) :
    s.pwrokRise b a env = ((s.updPower fun p => { p with vddio := true, pwrok := true, bootsel := b, mgmtAddr := a }).enterCold
      s.power.coldCause).leaveReset env := by
  have hrise : ¬ (!s.power.vddAon || s.power.pwrok) = true := by simp [haon, hlow]
  exact (if_neg hrise).trans (if_neg (by simpa [State.updPower] using hfurl))

/-- A reset with PWROK and SYS_RESET_N high ends at once (R94). -/
theorem leaveReset_boots {s : State} {env : BootEnv} (hreset : s.power.condition = .reset) (hok : s.power.pwrok = true)
    (hpin : s.power.sysResetN = true) : s.leaveReset env = s.boot env :=
  if_pos (by simp [hreset, hok, hpin])

/-- Settles O11: the cold reset ends with the rise of PWROK, and the boot runs through the power-up sequence. -/
theorem coldBootSamplesStraps : Obligations.ColdBootSamplesStraps := by
  intro a env s haon hlow hfurl hpin hruns hgood
  let u := (s.updPower fun p => { p with vddio := true, pwrok := true, bootsel := 4, mgmtAddr := a }).enterCold s.power.coldCause
  obtain ⟨g, g', e, us, hboot⟩ := boot_poweredUp (s := u) hgood hruns rfl (.inl rfl)
  have hexec : exec (.pwrokRise 4 a env) s = .next (u.boot env) :=
    congrArg Host.Outcome.next ((pwrokRise_of_low haon hlow hfurl).trans (leaveReset_boots rfl rfl hpin))
  rw [hboot] at hexec
  exact ⟨_, hexec, awaitsFirstStage_of_poweredUp rfl rfl rfl, rfl, rfl, rfl, rfl, rfl, rfl, rfl, rfl, rfl, rfl⟩

end Sys2Proof.Machine

/-! SUPPORT. Furl: what the vote, the automatic restart and the release record and lose (R61, R64, R624, R625). -/

namespace Sys2Proof.Machine

open Sys2Proof

/-- A vote acts on a device in RUNNING or RESET whose source passes its test (R61, R621). -/
theorem furlVote_of_passes {cause source : Nat} {s : State} (hon : s.power.condition = .running ∨ s.power.condition = .reset)
    (htest : s.furlTest cause source = true) : s.furlVote cause source = s.furl cause source := by
  refine if_pos ?_
  simpa [State.running, htest] using hon

/-- What leaves the device is no part of what a reset loses. -/
theorem Lost.out {t : State} (h : Lost t) (o : OutMsg) : Lost (t.out o) :=
  ⟨h.ncp, h.cfg, h.ledger, h.ctxs, h.jobs, h.streams, h.mem, h.ep, h.yards, h.bases, h.trust, h.obs⟩

/-- A furl abandons all that a whole reset loses (R64, R89). -/
theorem furl_lost (s : State) (cause source : Nat) : Lost (s.furl cause source) :=
  (((wipe_lost s false).updHealth _).updPower _).out _

/-- The newest of the 64 furl records is the one just copied (R93, R625). -/
theorem copyFurl_newest (s : State) (flags : Nat) (peak : Int) (coolingMs : Nat) :
    (s.copyFurl flags peak coolingMs).nv.furlLog.getLast? = some (s.furlRecord flags peak coolingMs) := by
  have hkept : ¬ (s.nv.furlLog ++ [s.furlRecord flags peak coolingMs]).length ≤ s.nv.furlLog.length + 1 - 64 := by
    simp only [List.length_append, List.length_singleton]
    omega
  simp only [State.copyFurl, State.updNv, List.getLast?_drop, if_neg hkept, List.getLast?_concat]

/-- A device whose cooling has held the dwell, with furl entry over, may restart (R624). -/
theorem cooled_of_dwell {s : State} {cool : CoolFacts} (hfurl : s.power.condition = .furled) (hentry : s.power.thermtripLow = false)
    (hdwell : cool.dwellMet = true) : s.cooled cool = true := by
  simp [State.cooled, hfurl, hentry, hdwell]

/-- The automatic restart of an unlatched furl, up to the boot: a cold reset that joins the history (R624). -/
def State.restarted (s : State) (cool : CoolFacts) : State :=
  ((s.copyFurl 0 cool.peak cool.coolingMs).updHealth fun h => { h with restarts := s.power.aonNs :: h.restarts }).enterCold 0x03

/-- The release of a latched furl, up to the boot: a cold reset with the history cleared (R144). -/
def State.released (s : State) (cool : CoolFacts) : State :=
  ((s.copyFurl 2 cool.peak cool.coolingMs).updHealth fun h => { h with restarts := [], latched := false }).enterCold 0x04

theorem furlRestart_of_cooled {s : State} {cool : CoolFacts} {env : BootEnv} (hcool : s.cooled cool = true)
    (hlatch : s.health.latched = false) : s.furlRestart cool env = (s.restarted cool).leaveReset env :=
  if_pos (by simp [hcool, hlatch])

theorem furlRelease_of_cooled {s : State} {cool : CoolFacts} {env : BootEnv} (hcool : s.cooled cool = true)
    (hlatch : s.health.latched = true) : s.furlRelease 0x4655524C cool env = (s.released cool).leaveReset env :=
  if_pos (by simp [hcool, hlatch])

/-- Settles O15. That FURLED begins with the vote and furl entry lies in it is the reading of log entry 15. -/
theorem furlBeginsAndEnds : Obligations.FurlBeginsAndEnds := by
  refine ⟨fun cause source s hon htest => ?vote, fun s => rfl, fun cool env s hfurl hentry hdwell =>
    ⟨fun hlatch => ?restart, fun hlatch => ?release⟩⟩
  case vote =>
    exact ⟨_, congrArg Host.Outcome.next (furlVote_of_passes hon htest), rfl, rfl, rfl, rfl, rfl, rfl, rfl, rfl,
      furl_lost s cause source, rfl⟩
  case restart =>
    exact ⟨s.restarted cool, congrArg Host.Outcome.next (furlRestart_of_cooled (cooled_of_dwell hfurl hentry hdwell) hlatch),
      rfl, rfl, rfl, copyFurl_newest s 0 cool.peak cool.coolingMs⟩
  case release =>
    exact ⟨s.released cool, congrArg Host.Outcome.next (furlRelease_of_cooled (cooled_of_dwell hfurl hentry hdwell) hlatch),
      rfl, rfl, rfl, rfl, copyFurl_newest s 2 cool.peak cool.coolingMs⟩

end Sys2Proof.Machine

/-! SUPPORT. One cycle of the time domain, which a step on an empty queue stands for (assumption 1). -/

namespace Sys2Proof.Machine

open Sys2Proof

@[simp] theorem trainPort_undisturbed (s : State) (y k : Nat) : Undisturbed s (s.trainPort y k) := by
  simp [State.trainPort]

@[simp] theorem trainLinks_undisturbed (s : State) : Undisturbed s s.trainLinks := by
  simp [State.trainLinks]

@[simp] theorem retrainLimits_mailOnly (s : State) : MailOnly s s.retrainLimits := by
  simp [State.retrainLimits]

/-- The time domain advances TBM by the increment of its correction (R550). -/
theorem advance_tbm (s : State) : s.advance.time.tbm = s.time.tbm + (increment s.time.k).toNat := by
  simp [State.advance]

theorem advance_aonNs (s : State) : s.advance.power.aonNs = s.power.aonNs := by
  simp [State.advance, apply_ite Power.aonNs]

theorem advance_pending (s : State) : s.advance.pending = s.pending := by
  simp [State.advance]

/-- The always-on domain counts its 4 ns before anything else. -/
def State.aonTick (s : State) : State := s.updPower fun p => { p with aonNs := p.aonNs + 4 }

theorem cycle_of_off {s : State} (h : s.power.vddAon = false) : s.cycle = s := if_pos (by simp [h])

theorem cycle_of_locked {s : State} (hon : s.power.vddAon = true) (hlock : s.power.pllLocked = true) :
    s.cycle = s.aonTick.advance.trainLinks.retrainLimits.fuseStep := by
  simp [State.cycle, State.aonTick, hon, hlock]

theorem cycle_of_unlocked {s : State} (hon : s.power.vddAon = true) (hlock : s.power.pllLocked = false) :
    ∃ f, s.cycle = s.aonTick.updTime f := by
  simp only [State.cycle, State.aonTick, hon, hlock, State.updPower_power, Bool.not_true, Bool.false_eq_true, if_false]
  split
  · exact ⟨_, rfl⟩
  · exact ⟨id, rfl⟩

theorem cycle_pending (s : State) : s.cycle.pending = s.pending := by
  cases hon : s.power.vddAon with
  | false => rw [cycle_of_off hon]
  | true =>
    cases hlock : s.power.pllLocked with
    | true => simp [cycle_of_locked hon hlock, advance_pending, State.aonTick]
    | false =>
      obtain ⟨f, h⟩ := cycle_of_unlocked hon hlock
      rw [h]
      rfl

theorem cycle_aonNs {s : State} (hon : s.power.vddAon = true) : s.cycle.power.aonNs = s.power.aonNs + 4 := by
  cases hlock : s.power.pllLocked with
  | true => simp [cycle_of_locked hon hlock, advance_aonNs, State.aonTick]
  | false =>
    obtain ⟨f, h⟩ := cycle_of_unlocked hon hlock
    rw [h]
    rfl

theorem cycle_tbm_of_locked {s : State} (hon : s.power.vddAon = true) (hlock : s.power.pllLocked = true) :
    s.cycle.time.tbm = s.time.tbm + (increment s.time.k).toNat := by
  simp [cycle_of_locked hon hlock, advance_tbm, State.aonTick]

/-- Settles O2: the cycle of assumption 1, with the synthesiser of the time domain locked and without. -/
theorem emptyQueueStepIsOneCycle : Obligations.EmptyQueueStepIsOneCycle := fun s hempty =>
  ⟨s.cycle, by simp [step, hempty], (cycle_pending s).trans hempty, cycle_of_off, cycle_aonNs, cycle_tbm_of_locked⟩

end Sys2Proof.Machine

/-! SUPPORT. What events leave of the mailboxes: only the ring of events and the interrupt causes move. -/

namespace Sys2Proof.Machine

open Sys2Proof

/-- Of the mailboxes an event touches the ring of events and the interrupt causes alone. -/
def EventFrame (s t : State) : Prop :=
  ∃ m p ph l ls i g, t.ncp =
    { s.ncp with mem := m, eqProd := p, eqPhase := ph, eqLost := l, eqLostSince := ls, intSummary := i, globalCause := g }

theorem EventFrame.refl (s : State) : EventFrame s s := ⟨_, _, _, _, _, _, _, rfl⟩

theorem EventFrame.trans {s t u : State} (h₁ : EventFrame s t) (h₂ : EventFrame t u) : EventFrame s u := by
  obtain ⟨_, _, _, _, _, _, _, h₁⟩ := h₁
  obtain ⟨_, _, _, _, _, _, _, h₂⟩ := h₂
  exact ⟨_, _, _, _, _, _, _, by rw [h₂, h₁]⟩

theorem EventFrame.ite {s t u : State} {c : Prop} [Decidable c] (ht : EventFrame s t) (hu : EventFrame s u) :
    EventFrame s (if c then t else u) := by
  split
  · exact ht
  · exact hu

theorem EventFrame.slots {s t : State} (h : EventFrame s t) : t.ncp.slots = s.ncp.slots := by
  obtain ⟨_, _, _, _, _, _, _, h⟩ := h
  rw [h]

theorem EventFrame.sessions {s t : State} (h : EventFrame s t) : t.ncp.sessions = s.ncp.sessions := by
  obtain ⟨_, _, _, _, _, _, _, h⟩ := h
  rw [h]

/-- A message sets at most its bit of the summary (R110). -/
theorem sendVector_ncp (s : State) (v : Nat) : ∃ i, (s.sendVector v).ncp = { s.ncp with intSummary := i } := by
  have hsent (t : State) (vec : Vec) : State.ncp (if !t.ep.msixEn || t.ep.d3 then t
      else if vec.masked || t.ep.fnMask then t.updVec v (fun x => { x with pendingBit := true })
      else t.out (.msix v vec.addr vec.data)) = t.ncp := by
    split
    · rfl
    · split <;> rfl
  by_cases hv : v < 22
  · exact ⟨_, by simp only [State.sendVector, hv, if_true, hsent]; rfl⟩
  · exact ⟨s.ncp.intSummary, by simp only [State.sendVector, hv, if_false, hsent]; rfl⟩

theorem askVector_ncp (s : State) (v : Nat) : ∃ i, (s.askVector v).ncp = { s.ncp with intSummary := i } := by
  unfold State.askVector
  split
  · exact sendVector_ncp s v
  · exact ⟨_, rfl⟩

theorem askVector_eventFrame (s : State) (v : Nat) : EventFrame s (s.askVector v) := by
  obtain ⟨_, h⟩ := askVector_ncp s v
  exact ⟨_, _, _, _, _, _, _, h⟩

theorem eqWrite_eventFrame (s : State) (code src : Nat) (body : List Byte) : EventFrame s (s.eqWrite code src body) :=
  ⟨_, _, _, _, _, _, _, rfl⟩

theorem updLost_eventFrame (s : State) (l : Ncp → BitVec 32) (ls : Ncp → Nat) :
    EventFrame s (s.updNcp fun n => { n with eqLost := l n, eqLostSince := ls n }) := ⟨_, _, _, _, _, _, _, rfl⟩

theorem setCause_eventFrame (s : State) (b : Nat) : EventFrame s (s.setCause b) :=
  .trans ⟨_, _, _, _, _, _, _, rfl⟩ (askVector_eventFrame _ 0)

theorem eqOwed_eventFrame (s : State) : EventFrame s s.eqOwed :=
  .ite (.refl s) ((eqWrite_eventFrame s _ _ _).trans
    ((updLost_eventFrame _ Ncp.eqLost fun _ => 0).trans (askVector_eventFrame _ 17)))

theorem post_eventFrame (s : State) (code src : Nat) (body : List Byte) : EventFrame s (s.post code src body) := by
  have hwritten (t : State) : EventFrame t (if t.eqFull then
      (t.updNcp fun n => { n with eqLost := n.eqLost + 1, eqLostSince := n.eqLostSince + 1 }).setCause 2
      else (t.eqWrite code src body).askVector 17) :=
    .ite ((updLost_eventFrame t _ _).trans (setCause_eventFrame _ 2))
      ((eqWrite_eventFrame t code src body).trans (askVector_eventFrame _ 17))
  exact .ite (.refl s) ((eqOwed_eventFrame s).trans ((hwritten _).trans
    (each_keeps _ (.refl _) fun v _ t ht => ht.trans (askVector_eventFrame t v))))

theorem halPulse_eventFrame (s : State) (sources merged : Nat) : EventFrame s (s.halPulse sources merged) := by
  have hsame {t u : State} (h : u.ncp = t.ncp) : EventFrame t u := ⟨_, _, _, _, _, _, _, h⟩
  unfold State.halPulse
  extract_lets n o recs frozen pinned asked posted
  have hpinned : EventFrame s pinned := .ite (hsame rfl) (hsame rfl)
  exact hpinned.trans ((askVector_eventFrame _ 20).trans ((post_eventFrame _ _ _ _).trans (.ite (hsame rfl) (.refl _))))

theorem halTrigger_eventFrame (s : State) (source : Nat) : EventFrame s (s.halTrigger source) := by
  unfold State.halTrigger
  split
  · exact .refl s
  · exact .ite (halPulse_eventFrame s _ _) (.refl s)

theorem raise_eventFrame (s : State) (code src : Nat) (body : List Byte) : EventFrame s (s.raise code src body) :=
  (post_eventFrame s code src body).trans (.ite (halTrigger_eventFrame _ 1) (.refl _))

end Sys2Proof.Machine

/-! SUPPORT. Link resets (R95, R136): what is lost with the host's link, and what the device keeps. -/

namespace Sys2Proof.Machine

open Sys2Proof

/-! ## Slots of a lost link -/

/-- A slot is BUSY only where it was. -/
def BusyFrom (s t : State) : Prop := ∀ n, (t.slot n).st = .busy → (s.slot n).st = .busy

theorem BusyFrom.trans {s t u : State} (h₁ : BusyFrom s t) (h₂ : BusyFrom t u) : BusyFrom s u := fun n h => h₁ n (h₂ n h)

theorem updSlot_busyFrom (s : State) (m : Nat) {f : Slot → Slot} (hf : ∀ x, (f x).st = .busy → x.st = .busy) :
    BusyFrom s (s.updSlot m f) := by
  intro n
  by_cases hn : n = m
  · subst hn
    by_cases hlen : n < s.ncp.slots.length
    · have hself : (s.updSlot n f).slot n = f (s.slot n) := upd_getD_self Slot.reset hlen
      rw [hself]
      exact hf _
    · have hpast : (s.updSlot n f).slot n = Slot.reset :=
        List.getD_eq_default _ _ (by simpa [State.updSlot, upd_length] using hlen)
      rw [hpast]
      nofun
  · have hother : (s.updSlot m f).slot n = s.slot n := upd_getD_of_ne Slot.reset hn
    rw [hother]
    exact id

/-- The record of a completion that loses its session is an orphan; the last one frees the slot (R133). -/
theorem postNow_orphan_busyFrom (s : State) {w : WaitCpl} {n : Nat} (hbox : w.cmd.box = .slot n) :
    BusyFrom s (s.postNow { w with orphan := true }) := by
  simp only [State.postNow, hbox, if_true]
  split
  · exact updSlot_busyFrom { s with ncp := _, free := _ } n (fun _ => nofun)
  · exact fun _ => id

theorem orphanWaiting_busyFrom (s : State) (n : Nat) : BusyFrom s (s.orphanWaiting n) := by
  refine each_keeps (P := BusyFrom s) _ (fun _ => id) fun w hw t ht => ht.trans ?_
  obtain ⟨-, hring⟩ := List.mem_filter.1 hw
  cases hbox : w.cmd.box with
  | slot m => exact postNow_orphan_busyFrom t hbox
  | mgmt m => simp [WaitCpl.ring, hbox] at hring

theorem slot_linkReset (sl : Slot) : sl.linkReset.owner = none ∧
    (sl.linkReset.st = .idle ∨ sl.linkReset.st = .busy ∧ sl.st = .busy) := by
  unfold Slot.linkReset
  split
  next hbusy => exact ⟨rfl, .inr ⟨rfl, by simpa using hbusy⟩⟩
  next => exact ⟨rfl, .inl rfl⟩

/-- The host's mailboxes after its link is lost: every slot reset but for a BUSY one, and every session closed (R95, R136). -/
theorem loseHost_mailboxes (s : State) : ∃ u, BusyFrom s u ∧ s.loseHost.ncp.slots = u.ncp.slots.map Slot.linkReset ∧
    s.loseHost.ncp.sessions = State.reset.ncp.sessions := by
  unfold State.loseHost
  extract_lets orphaned cut cleared
  have hbusy : BusyFrom s orphaned :=
    each_keeps (P := BusyFrom s) _ (fun _ => id) fun k _ t ht => ht.trans (orphanWaiting_busyFrom t k)
  clear_value orphaned
  exact ⟨orphaned, hbusy, rfl, rfl⟩

/-- The slots of a lost link are granted to nobody, and those that were BUSY stay so (R136). -/
theorem loseHost_slots (s : State) (n : Nat) : (s.loseHost.slot n).owner = none ∧
    ((s.loseHost.slot n).st = .idle ∨ (s.loseHost.slot n).st = .busy ∧ (s.slot n).st = .busy) := by
  obtain ⟨u, hbusy, hslots, -⟩ := loseHost_mailboxes s
  have hslot : s.loseHost.slot n = (u.slot n).linkReset := by
    rw [State.slot, hslots]
    exact List.getD_map u.ncp.slots Slot.reset Slot.linkReset
  obtain ⟨howner, hst⟩ := slot_linkReset (u.slot n)
  rw [hslot]
  exact ⟨howner, hst.imp_right fun ⟨hnow, hwas⟩ => ⟨hnow, hbusy n hwas⟩⟩

theorem loseHost_sessions (s : State) : s.loseHost.ncp.sessions = State.reset.ncp.sessions := by
  obtain ⟨-, -, -, h⟩ := loseHost_mailboxes s
  exact h

/-! ## What a link reset keeps -/

theorem LinkResetFrom.raise {s t : State} (h : LinkResetFrom s t) (code src : Nat) (body : List Byte) :
    LinkResetFrom s (t.raise code src body) := by
  have hmail := raise_eventFrame t code src body
  have hslot (n : Nat) : (t.raise code src body).slot n = t.slot n := congrArg (·.getD n Slot.reset) hmail.slots
  obtain ⟨hcount, hcause, hsessions, hslots, hcfg, hctxs, hjobs, hstreams, hmem, htime, hnv, hhealth⟩ := h
  refine ⟨?_, ?_, hmail.sessions.trans hsessions, fun n => hslot n ▸ hslots n, ?_, ?_, ?_, ?_, ?_, ?_, ?_, ?_⟩ <;>
    simp [hcount, hcause, hcfg, hctxs, hjobs, hstreams, hmem, htime, hnv, hhealth]

theorem LinkResetFrom.linkSeen {s t : State} (h : LinkResetFrom s t) : LinkResetFrom s t.linkSeen := by
  unfold State.linkSeen
  dsimp only
  split
  · have hposted : LinkResetFrom s (t.updPower fun p => { p with linkOwed := false }) :=
      ⟨h.count, h.cause, h.sessions, h.slots, h.cfg, h.ctxs, h.jobs, h.streams, h.mem, h.time, h.nv, h.health⟩
    exact hposted.raise _ _ _
  · exact h

/-- A link reset loses the host's part and counts itself, whether FLX_LINK_DOWN follows or not (R95, R136). -/
theorem linkReset_from (s : State) (st : Nat) (keep : Bool) : LinkResetFrom s (s.linkReset st keep) := by
  have hmail := loseHost_mailOnly s
  have hslots := loseHost_slots s
  have hsessions := loseHost_sessions s
  unfold State.linkReset
  generalize s.loseHost = u at *
  extract_lets was busy lost counted
  have hcounted : LinkResetFrom s counted := by
    refine ⟨?_, ?_, hsessions, hslots, ?_, ?_, ?_, ?_, ?_, ?_, ?_, ?_⟩ <;> simp [counted, lost, hmail]
  split
  · exact hcounted.raise _ _ _
  · exact hcounted

theorem linkReset_ep (s : State) (st : Nat) (keep : Bool) : (s.linkReset st keep).ep = s.ep.linkReset st keep := by
  simp [State.linkReset]

theorem linkSeen_ep (s : State) : s.linkSeen.ep = s.ep := by simp [State.linkSeen]

/-! ## The ways to lose the link -/

theorem perstFall_long {low : Nat} {s : State} (hlow : 100 ≤ low) (hhigh : s.power.perstN = true)
    (hrun : s.power.condition = .running) :
    s.perstFall low = (s.updPower fun p => { p with perstN := false }).linkReset fxReset false := by
  have hshort : ¬ low < 100 := by omega
  simp [State.perstFall, State.running, hshort, hhigh, hrun]

theorem hostLinkLost_of_up {s : State} (hup : s.epUp = true) : s.hostLinkLost = (s.linkReset fxDetect false).linkSeen := if_pos hup

theorem hostLinkLost_from {s : State} (hup : s.epUp = true) : LinkResetFrom s s.hostLinkLost ∧ s.hostLinkLost.ep.st = fxDetect := by
  rw [hostLinkLost_of_up hup]
  exact ⟨(linkReset_from s fxDetect false).linkSeen, by simp [linkSeen_ep, linkReset_ep, Endpoint.linkReset]⟩

/-! ## PERST_N rising -/

/-- With PERST_N high and the firmware running nothing stays owed (R136, R153). -/
theorem linkSeen_unowed {s : State} (hperst : s.power.perstN = true) (hfw : s.nimlek = true) :
    s.linkSeen.power.linkOwed = false := by
  simp [State.linkSeen, hperst, hfw, apply_ite Power.linkOwed]

theorem linkSeen_eventFrame (s : State) : EventFrame s s.linkSeen := by
  have hunowed : EventFrame s (s.updPower fun p => { p with linkOwed := false }) := ⟨_, _, _, _, _, _, _, rfl⟩
  exact .ite (hunowed.trans (raise_eventFrame _ _ _ _)) (.refl s)

/-- PERST_N rises: the endpoint of a running device whose synthesisers have locked may train (R530). -/
def State.perstHigh (s : State) : State :=
  let t := s.updPower fun p => { p with perstN := true }
  if t.running && t.power.pllLocked then (t.drivePins (.lanes 0)).updEp fun e => { e with st := fxDetect } else t

theorem perstRise_of_low {s : State} (hlow : s.power.perstN = false) : s.perstRise = s.perstHigh.linkSeen := if_neg (by simp [hlow])

theorem perstHigh_ep {s : State} (hrun : s.power.condition = .running) (hlock : s.power.pllLocked = true) :
    s.perstHigh.ep.st = fxDetect := by
  simp [State.perstHigh, State.running, hrun, hlock]

/-- The rise itself sets the pin and leaves mailboxes, configuration and contexts. -/
theorem perstHigh_rises (s : State) : s.perstHigh.power.perstN = true ∧ s.perstHigh.nimlek = s.nimlek ∧
    s.perstHigh.ncp = s.ncp ∧ s.perstHigh.cfg = s.cfg ∧ s.perstHigh.ctxs = s.ctxs := by
  unfold State.perstHigh
  dsimp only
  split
  · exact ⟨rfl, rfl, rfl, rfl, rfl⟩
  · exact ⟨rfl, rfl, rfl, rfl, rfl⟩

/-- LINK_RESET_SEEN, posted or not, leaves the pin, the sessions, the configuration and the contexts. -/
theorem linkSeen_keeps (s : State) : s.linkSeen.power.perstN = s.power.perstN ∧ s.linkSeen.ncp.sessions = s.ncp.sessions ∧
    s.linkSeen.cfg = s.cfg ∧ s.linkSeen.ctxs = s.ctxs := by
  refine ⟨?_, (linkSeen_eventFrame s).sessions, ?_, ?_⟩
  · simp [State.linkSeen, apply_ite Power.perstN]
  · simp [State.linkSeen]
  · simp [State.linkSeen]

/-- Settles O14: each way to lose the link is one link reset, whatever LINK_RESET_SEEN and FLX_LINK_DOWN then post; a D-state
change is none (R529). -/
theorem linkResetsKeepTheDevice : Obligations.LinkResetsKeepTheDevice := by
  refine ⟨fun s hrun => ⟨fun low hlow hhigh => ?perst, fun hup => ⟨fun c hc => ?lost, ?flr, fun d3 => ?dstate⟩⟩,
    fun s hlow => ?rise⟩
  case perst =>
    have hfall := perstFall_long hlow hhigh hrun
    have h := linkReset_from (s.updPower fun p => { p with perstN := false }) fxReset false
    refine ⟨_, congrArg Host.Outcome.next hfall, ?_, ?_, ?_⟩
    · exact ⟨h.count, h.cause, h.sessions, h.slots, h.cfg, h.ctxs, h.jobs, h.streams, h.mem, h.time, h.nv, h.health⟩
    · simp [State.linkReset]
    · simp [linkReset_ep, Endpoint.linkReset]
  case lost =>
    obtain ⟨hfrom, hst⟩ := hostLinkLost_from hup
    refine ⟨s.hostLinkLost, ?_, hfrom, hst⟩
    simp only [List.mem_cons, List.not_mem_nil, or_false] at hc
    obtain rfl | rfl | rfl := hc
    · rfl
    · rfl
    · exact congrArg Host.Outcome.next (if_pos hup)
  case flr =>
    exact ⟨_, congrArg Host.Outcome.next (if_pos hup), (linkReset_from s s.ep.st true).linkSeen,
      by simp [linkSeen_ep, linkReset_ep, Endpoint.linkReset]⟩
  case dstate => exact congrArg Host.Outcome.next (if_pos hup)
  case rise =>
    obtain ⟨hpin, hfw, hncp, hcfg, hctxs⟩ := perstHigh_rises s
    obtain ⟨hpin', hsessions', hcfg', hctxs'⟩ := linkSeen_keeps s.perstHigh
    exact ⟨s.perstHigh.linkSeen, congrArg Host.Outcome.next (perstRise_of_low hlow), hpin'.trans hpin,
      fun hrun hlock => (congrArg Endpoint.st (linkSeen_ep _)).trans (perstHigh_ep hrun hlock),
      fun hnimlek => linkSeen_unowed hpin (hfw.trans hnimlek), hsessions'.trans (congrArg Ncp.sessions hncp),
      hcfg'.trans hcfg, hctxs'.trans hctxs⟩

end Sys2Proof.Machine

/-! SUPPORT. The boot after a wait, and its stops: with nine boot voltages listed it runs to the wait for a first stage, with a
tenth not to what AwaitsFirstStage says of them. -/

namespace Sys2Proof.Machine

open Sys2Proof

/-! ## What holds of nine rails -/

/-- The power-up sequence from the crystal on, where the nine boot voltages of R97 are all that is listed. -/
theorem bootXtal_awaits {s : State} (hgood : s.power.env.good = true) (hruns : s.power.crystalRuns = true)
    (hsel : s.power.bootsel = 4) (hrun : s.power.condition = .running) (hnine : s.power.vout.length = 9) :
    ∃ p e us, s.bootXtal = { s with power := p, ep := e, outs := us } ∧ AwaitsFirstStage s.bootXtal ∧ p.crystalRuns = true := by
  obtain ⟨g, g', e, us, h⟩ := bootXtal_poweredUp hgood hruns hsel
  exact ⟨_, e, us, h, awaitsFirstStage_of_poweredUp (by rw [h]) hrun hnine, hruns⟩

theorem sysResetNRise_awaits {env : BootEnv} {s : State} (hreset : s.power.condition = .reset) (hok : s.power.pwrok = true)
    (hruns : s.power.crystalRuns = true) (hsel : s.power.bootsel = 4) (hgood : env.good = true) (hdown : env.discharged = true)
    (hnine : s.power.vout.length = 9) :
    ∃ t, exec (.sysResetNRise env) s = .next t ∧ AwaitsFirstStage t ∧ t.power.sysResetN = true ∧
      t.nv.bootCount = s.nv.bootCount + 1 ∧ t.power.resetCause = s.power.resetCause := by
  let u := s.updPower fun p => { p with sysResetN := true }
  obtain ⟨g, g', e, us, hboot⟩ := boot_poweredUp (s := u) hgood hruns hsel (.inr hdown)
  have hexec : exec (.sysResetNRise env) s = .next (u.boot env) := congrArg Host.Outcome.next (leaveReset_boots hreset hok rfl)
  rw [hboot] at hexec
  exact ⟨_, hexec, awaitsFirstStage_of_poweredUp rfl rfl hnine, rfl, rfl, rfl⟩

theorem railsDischarged_awaits {s : State} (hstage : s.power.bootStage = .waitDischarge) (hrun : s.power.condition = .running)
    (hruns : s.power.crystalRuns = true) (hsel : s.power.bootsel = 4) (hgood : s.power.env.good = true)
    (hnine : s.power.vout.length = 9) :
    ∃ t, exec .railsDischarged s = .next t ∧ AwaitsFirstStage t ∧ t.ncp = s.ncp ∧ t.nv = s.nv ∧ t.cfg = s.cfg := by
  let u := s.updPower fun p => { p with bootStage := .idle }
  obtain ⟨p, e, us, hboot, hawaits, -⟩ := bootXtal_awaits (s := u) hgood hruns hsel hrun hnine
  refine ⟨u.bootXtal, congrArg Host.Outcome.next (if_pos (by simp [hstage])), hawaits, ?_⟩
  rw [hboot]
  exact ⟨rfl, rfl, rfl⟩

theorem crystalRunsAgain_awaits {s : State} (hstage : s.power.bootStage = .waitXtal) (hrun : s.power.condition = .running)
    (hsel : s.power.bootsel = 4) (hgood : ({ s.power.env with crystal := true } : BootEnv).good = true)
    (hnine : s.power.vout.length = 9) :
    ∃ t, exec .crystalRunsAgain s = .next t ∧ AwaitsFirstStage t ∧ t.power.crystalRuns = true ∧ t.ncp = s.ncp ∧ t.nv = s.nv := by
  let u := s.updPower fun p => { p with crystalRuns := true, env := { p.env with crystal := true } }
  obtain ⟨p, e, us, hboot, hawaits, hruns⟩ := bootXtal_awaits (s := u) hgood rfl hsel hrun hnine
  refine ⟨u.bootXtal, congrArg Host.Outcome.next (if_pos (by simp [hstage])), hawaits, ?_⟩
  rw [hboot]
  exact ⟨hruns, rfl, rfl⟩

/-- A stop of the power-up sequence: its code, no rail driven, and STOPPED in GLB_GLOBAL_CAUSE (R100, R110). -/
theorem stopPower_stops (s : State) (code : Byte) :
    (s.stopPower code).power.bootCode = code ∧ (s.stopPower code).power.bootStage = .stopped ∧
      (s.stopPower code).power.pwrEn = List.replicate 16 false ∧
      (s.stopPower code).ncp.globalCause = s.ncp.globalCause ||| 2#32 ∧
      (s.stopPower code).power.resetCause = s.power.resetCause ∧ (s.stopPower code).nv = s.nv ∧ (s.stopPower code).cfg = s.cfg ∧
      (s.stopPower code).ncp.sessions = s.ncp.sessions := by
  let u := ((s.releasePins .pwrEn).updPower fun p =>
    { p with pwrEn := List.replicate 16 false, railsUp := false, bootCode := code, bootStage := .stopped }).updNcp fun n =>
      { n with globalCause := n.globalCause ||| 2#32 }
  have hstop : s.stopPower code = u.askVector 0 := rfl
  obtain ⟨i, hncp⟩ := askVector_ncp u 0
  rw [hstop, hncp]
  simp [u, State.releasePins]

/-- The four rows that stop the power-up sequence, each at its stage (R92, R97, R99, R100). -/
theorem stopRow_stops {s : State} {c : Instr} {stage : BootStage} {code : Byte}
    (hrow : (c, stage, code) ∈ [(Instr.xtalFail, BootStage.waitXtal, (0xE2 : Byte)), (.railTimeout, .waitRails, 0xE4),
      (.pllLockFail, .waitPll, 0xE5), (.railDischarge, .waitDischarge, 0xEA)])
    (hstage : s.power.bootStage = stage) : exec c s = .next (s.stopPower code) := by
  simp only [List.mem_cons, Prod.mk.injEq, List.not_mem_nil, or_false] at hrow
  obtain ⟨rfl, rfl, rfl⟩ | ⟨rfl, rfl, rfl⟩ | ⟨rfl, rfl, rfl⟩ | ⟨rfl, rfl, rfl⟩ := hrow
  · exact congrArg Host.Outcome.next (if_pos (by simp [hstage]))
  · exact congrArg Host.Outcome.next (if_pos (by simp [hstage]))
  · exact congrArg Host.Outcome.next (if_pos (by simp [hstage]))
  · exact congrArg Host.Outcome.next (if_pos (by simp [hstage]))

/-! ## A tenth rail -/

/-- A board on which every stage of the power-up sequence passes. -/
def soundBoard : BootEnv :=
  { discharged := true, crystal := true, pmbusAck := List.replicate 9 true, railsRise := true, pllsLock := true, comparators := 0,
    flash := [], stackFail := [], sppr := [], pchans := [] }

/-- A device in RESET under BOOTSEL 0b100 whose list of boot voltages has a tenth entry, for a rail that R97 does not have. -/
def tenRails : State :=
  State.reset.updPower fun p =>
    { p with condition := .reset, pwrok := true, crystalRuns := true, bootsel := 4, vout := List.replicate 10 0 }

/-- The boot sets the nine entries of R97 and keeps the tenth. -/
theorem sysResetRise_tenRails :
    ((tenRails.updPower fun p => { p with sysResetN := true }).leaveReset soundBoard).power.vout.length = 10 := by decide +kernel

/-- Refutes O12: it asks that after the boot the nine voltages of R97 are all that is listed, and bounds the list nowhere
before; with a tenth entry the boot sets nine and keeps the tenth. Of nine entries the lemmas above show the statement; that the
stops 0xE5 and 0xEA too release the rails is deduced in log entry 18. -/
theorem not_bootGoesOnOrStops : ¬ Obligations.BootGoesOnOrStops := by
  rintro ⟨⟨hrise, -, -⟩, -⟩
  obtain ⟨t, hexec, hawaits, -⟩ := hrise soundBoard tenRails rfl rfl rfl rfl (by decide) rfl
  obtain rfl := Host.Outcome.next.inj hexec
  have hnine := congrArg List.length hawaits.volts
  rw [sysResetRise_tenRails] at hnine
  cases hnine

end Sys2Proof.Machine

/-! SUPPORT. A command that passes the shared checks: what its row answers. -/

namespace Sys2Proof.Machine

open Sys2Proof

/-- What a command does that passes the checks that all commands share. -/
theorem take_next {s u : State} {b : Mbox} {f : Form} {k : Cmd → State → State} (h : Accepted s b f)
    (hk : k (s.cmdIn b) (s.taken b) = u) :
    (.next (s.take b f k) : Host.Outcome State Fault Refusal) = .next (u.sweep b) := by
  rw [take_accepted h, hk]

end Sys2Proof.Machine

/-! SUPPORT. Images over a management mailbox (R103, R143, R152, R580). -/

namespace Sys2Proof.Machine

open Sys2Proof

/-! ## The image commands -/

/-- A command that neither a host session nor an open slot may send came over a management mailbox (R142). -/
theorem mgmt_of_accepted {s : State} {b : Mbox} {f : Form} (h : Accepted s b f) (hhost : f.host = false)
    (hopen : f.inOpen = false) : ∃ m, b = .mgmt m := by
  cases b with
  | slot n =>
    have hsender := h.sender
    rw [State.mayCome, cmdIn_box] at hsender
    simp [hhost, hopen] at hsender
  | mgmt m => exact ⟨m, rfl⟩

/-- ACCEPTED goes to MG_CPL and leaves the image as it has come in. -/
theorem accept_mgmt_imageIn {s : State} {c : Cmd} {m : Nat} (hbox : c.box = .mgmt m) (key : Nat) (args : List Nat) :
    (s.accept c key args).ncp.imageIn = s.ncp.imageIn := by
  simp [State.accept, State.cmdLatency, State.postCpl, WaitCpl.ring, State.postNow, State.drawBool, hbox]

theorem mgmtImageBeginBody_begins {c : Cmd} {s : State} (hwait : s.awaitsImage = true) (hkind : fld c.payload 0 4 ≤ 1)
    (htotal : fld c.payload 4 4 ≤ imageLimit (fld c.payload 0 4)) :
    mgmtImageBeginBody c s = (s.updNcp fun n =>
      { n with imageIn := some { kind := fld c.payload 0 4, total := fld c.payload 4 4, data := [] } }).ok c [] := by
  have hkind' : ¬ 1 < fld c.payload 0 4 := by omega
  have htotal' : ¬ imageLimit (fld c.payload 0 4) < fld c.payload 4 4 := by omega
  simp [mgmtImageBeginBody, hkind', htotal', hwait]

theorem mgmtImageDataBody_appends {c : Cmd} {s : State} {i : ImageIn} (hwait : s.awaitsImage = true)
    (himage : s.ncp.imageIn = some i) (hoff : fld c.payload 0 4 = i.data.length)
    (hfits : i.data.length + (c.payload.drop 8).length ≤ i.total) : mgmtImageDataBody c s =
      (s.updNcp fun n => { n with imageIn := some { i with data := i.data ++ c.payload.drop 8 } }).ok c [] := by
  have hpast : ¬ i.total < i.data.length + (c.payload.drop 8).length := by omega
  simp only [mgmtImageDataBody, hwait, himage, hoff, hpast, bne_self_eq_false, decide_false, Bool.or_self, Bool.not_true,
    Bool.false_eq_true, if_false]

theorem mgmtImageEndBody_hands {c : Cmd} {s : State} {i : ImageIn} {m : Nat} (hbox : c.box = .mgmt m) (hwait : s.awaitsImage = true)
    (himage : s.ncp.imageIn = some i) :
    mgmtImageEndBody c s = ((s.accept c 0 []).updNcp fun n => { n with imageIn := none }).imageArrived i := by
  simp only [mgmtImageEndBody, hwait, accept_mgmt_imageIn hbox, himage, Bool.not_true, Bool.false_eq_true, if_false]

/-! ## A whole first stage -/

/-- One that verifies is measured and runs: code 0x50 (R103, R105). -/
theorem imageArrived_sound {s : State} {i : ImageIn} (hstage : s.power.bootStage = .waitFirstStage) (hkind : i.kind = 0)
    (hwhole : i.data.length = i.total) (hsound : s.imageFault 0 i.data = none) : s.imageArrived i =
      ((s.finishAll 0x0112 0 stOk [] none).runFirst i.data).updPower fun p => { p with bootSource := 3 } := by
  simp [State.imageArrived, hstage, hkind, hwhole, hsound]

/-- One that does not stops the boot with the code of its fault, and another is awaited (R104). -/
theorem imageArrived_faulty {s : State} {i : ImageIn} {code : Byte} (hstage : s.power.bootStage = .waitFirstStage)
    (hkind : i.kind = 0) (hwhole : i.data.length = i.total) (hfault : s.imageFault 0 i.data = some code) : s.imageArrived i =
      (s.stopBoot code .waitFirstStage).finishAll 0x0112 0 (s.imageStatus 0 i.data) [] none := by
  simp [State.imageArrived, hstage, hkind, hwhole, hfault]

/-- Settles O26, each command by its body after the shared checks. That MGMT_IMAGE_END is accepted and ends in one step is the
reading of log entry 24, when an image is awaited that of entry 18. -/
theorem imageDelivery : Obligations.ImageDelivery := by
  intro b s t c p hwait
  refine ⟨fun h hkind htotal => ?begin, fun i h himage hoff hfits => ?data, fun i h himage => ?imageEnd,
    fun i hstage hkind hwhole => ?first⟩
  case begin => exact ⟨_, take_next h (mgmtImageBeginBody_begins hwait hkind htotal), rfl⟩
  case data => exact ⟨_, take_next h (mgmtImageDataBody_appends hwait himage hoff hfits), rfl⟩
  case imageEnd =>
    obtain ⟨m, rfl⟩ := mgmt_of_accepted h rfl rfl
    exact take_next h (mgmtImageEndBody_hands rfl hwait himage)
  case first =>
    intro u
    split
    next hsound =>
      have hu : u = _ := imageArrived_sound hstage hkind hwhole hsound
      rw [hu]
      exact ⟨rfl, rfl, rfl⟩
    next code hfault =>
      have hu : u = _ := imageArrived_faulty hstage hkind hwhole hfault
      rw [hu]
      simp [State.stopBoot]

end Sys2Proof.Machine

/-! SUPPORT. Firmware delivery by the host, and the programming of fuse bits (R590–R593). -/

namespace Sys2Proof.Machine

open Sys2Proof

/-! ## Fuse bits -/

theorem hashPrefix_whole {h : List Byte} (hlen : h.length = 64) : hashPrefix h 512 = h := by
  refine List.ext_getElem List.length_mapIdx fun i hi _ => ?_
  have hlt : i < 64 := by simpa [hashPrefix, hlen] using hi
  have hall : min 8 (512 - 8 * i) = 8 := by omega
  simp only [hashPrefix, List.getElem_mapIdx]
  rw [hall, Nat.mod_eq_of_lt h[i].isLt, BitVec.ofNat_toNat, BitVec.setWidth_eq]

theorem le_length (k n : Nat) : (le k n).length = k := by
  induction k generalizing n with
  | zero => rfl
  | succ k ih => simp [le, ih]

theorem sha3_length (m : List Byte) : (sha3 m).length = 64 := by
  simp [sha3, Function.comp_def, le_length]

/-- The store once each of the bits is programmed. -/
def Nv.programAll (n : Nv) (goal : FuseGoal) (bits : List FuseStep) : Nv := bits.foldl (fun m x => m.program goal x) n

theorem programAll_append (n : Nv) (goal : FuseGoal) (xs ys : List FuseStep) :
    n.programAll goal (xs ++ ys) = (n.programAll goal xs).programAll goal ys := List.foldl_append

/-- The bits of a security version, in ascending order, leave the last (R592). -/
theorem programAll_svn (n : Nv) (goal : FuseGoal) (old k : Nat) :
    n.programAll goal ((List.range' (old + 1) (k + 1)).map .svn) = { n with fuses := { n.fuses with svn := old + 1 + k } } := by
  induction k with
  | zero => rfl
  | succ k ih =>
    rw [List.range'_1_concat, List.map_append, programAll_append, ih]
    rfl

/-- The bits of a hash, in ascending order, leave those programmed so far (R593). -/
theorem programAll_hashBits (n : Nv) (j k : Nat) (key : List Byte) :
    n.programAll (.enrol j key) ((List.range (k + 1)).map (.hashBit j)) =
      { n with fuses := { n.fuses with owners := n.fuses.owners.set j (hashPrefix (sha3 key) (k + 1)) } } := by
  induction k with
  | zero => rfl
  | succ k ih =>
    rw [List.range_succ, List.map_append, programAll_append, ih]
    simp [Nv.programAll, Nv.program]

theorem programAll_plan_svn (n : Nv) {old new : Nat} (h : old < new) :
    n.programAll (.svn old new) (n.fuses.plan (.svn old new)) = { n with fuses := { n.fuses with svn := new } } := by
  obtain ⟨k, rfl⟩ : ∃ k, new = old + 1 + k := ⟨new - (old + 1), by omega⟩
  have hbits : old + 1 + k - old = k + 1 := by omega
  rw [Fuses.plan, hbits]
  exact programAll_svn n _ old k

/-- A whole enrolment: the hash, USED with the key's copy, and OWNED, which a part that has an owner already is (R593). -/
theorem programAll_plan_enrol (n : Nv) (j : Nat) (key : List Byte) (hnew : n.fuses.lifecycle = 1 ∨ n.fuses.lifecycle = 2) :
    n.programAll (.enrol j key) (n.fuses.plan (.enrol j key)) =
      { n with
          ownerKey := key,
          fuses := { n.fuses with owners := n.fuses.owners.set j (sha3 key),
                                  ownerUsed := n.fuses.ownerUsed.set j true, lifecycle := 2 } } := by
  rw [Fuses.plan, programAll_append, programAll_append, programAll_hashBits n j 511 key, hashPrefix_whole (sha3_length key)]
  obtain h | h := hnew
  · simp [h, Nv.programAll, Nv.program]
  · simp only [h]
    rfl

theorem plan_svn_ne_nil (f : Fuses) {old new : Nat} (h : old < new) : f.plan (.svn old new) ≠ [] := by
  simp only [Fuses.plan, ne_eq, List.map_eq_nil_iff, List.range'_eq_nil_iff]
  omega

theorem plan_enrol_ne_nil (f : Fuses) (j : Nat) (key : List Byte) : f.plan (.enrol j key) ≠ [] := by simp [Fuses.plan]

/-! ## A programming -/

/-- The device with the store `n` and the programming `w` under way. -/
def State.programming (s : State) (n : Nv) (w : FuseWork) : State :=
  { s with nv := n, trust := { s.trust with fusing := some w } }

theorem fuseEnd_nv (s : State) (w : FuseWork) : (s.fuseEnd w).nv = s.nv := by
  unfold State.fuseEnd
  split <;> simp

theorem fuseEnd_trust (s : State) (w : FuseWork) : (s.fuseEnd w).trust = { s.trust with fusing := none } := by
  unfold State.fuseEnd
  split <;> simp

theorem fuseStep_of_idle {s : State} (h : s.trust.fusing = none) : s.fuseStep = s := by
  simp [State.fuseStep, h]

/-- One bit of several: it is programmed, and the rest waits. -/
theorem fuseStep_of_more {s : State} {w : FuseWork} {x y : FuseStep} {rest : List FuseStep}
    (hfusing : s.trust.fusing = some w) (hsteps : w.steps = x :: y :: rest) :
    s.fuseStep = s.programming (s.nv.program w.goal x) { w with steps := y :: rest } := by
  simp [State.fuseStep, hfusing, hsteps, State.updNv, State.updTrust, State.programming]

/-- The last bit: it is programmed, and the programming ends. -/
theorem fuseStep_of_last {s : State} {w : FuseWork} {x : FuseStep} (hfusing : s.trust.fusing = some w) (hsteps : w.steps = [x]) :
    s.fuseStep = (s.programming (s.nv.program w.goal x) { w with steps := [] }).fuseEnd { w with steps := [] } := by
  simp [State.fuseStep, hfusing, hsteps, State.updNv, State.updTrust, State.programming]

/-- As many steps as there are bits program them all and end; one more finds nothing under way. -/
theorem fuseSteps_all {s : State} {w : FuseWork} {x : FuseStep} {rest : List FuseStep} (hfusing : s.trust.fusing = some w)
    (hsteps : w.steps = x :: rest) : s.fuseSteps (rest.length + 2) =
      (s.programming (s.nv.programAll w.goal w.steps) { w with steps := [] }).fuseEnd { w with steps := [] } := by
  induction rest generalizing s w x with
  | nil =>
    have hidle (t : State) (v : FuseWork) : (t.fuseEnd v).fuseStep = t.fuseEnd v := fuseStep_of_idle (by rw [fuseEnd_trust])
    simp only [List.length_nil, State.fuseSteps, fuseStep_of_last hfusing hsteps, hidle, hsteps]
    rfl
  | cons y rest ih =>
    rw [List.length_cons, State.fuseSteps, fuseStep_of_more hfusing hsteps, ih rfl rfl, hsteps]
    rfl

theorem fuseFinish_fuse (s : State) (c : Cmd) (goal : FuseGoal) (hplan : s.nv.fuses.plan goal ≠ []) :
    (s.fuse c goal).fuseFinish = (s.programming (s.nv.programAll goal (s.nv.fuses.plan goal))
      { cmd := c, goal := goal, steps := [] }).fuseEnd { cmd := c, goal := goal, steps := [] } := by
  obtain ⟨x, rest, h⟩ := List.exists_cons_of_ne_nil hplan
  have hfusing : (s.fuse c goal).trust.fusing = some { cmd := c, goal := goal, steps := s.nv.fuses.plan goal } := rfl
  have hall := fuseSteps_all hfusing h
  rw [State.fuseFinish, hfusing]
  simp only [h, List.length_cons] at hall ⊢
  exact hall

/-- A programming that runs to its end leaves its bits in the store alone, with none under way (R593). -/
theorem fuseFinish_fuse_programs {s : State} (c : Cmd) {goal : FuseGoal} (hplan : s.nv.fuses.plan goal ≠ [])
    (hidle : s.trust.fusing = none) :
    (s.fuse c goal).fuseFinish.nv = s.nv.programAll goal (s.nv.fuses.plan goal) ∧ (s.fuse c goal).fuseFinish.trust = s.trust := by
  rw [fuseFinish_fuse s c goal hplan, fuseEnd_nv, fuseEnd_trust]
  exact ⟨rfl, by rw [← hidle]; rfl⟩

/-- The end of a version's programming answers the version, and whether the other slot now falls below it (R592). -/
theorem fuseEnd_svn (s : State) (c : Cmd) (old new : Nat) : ∃ u : State, s.fuseEnd { cmd := c, goal := .svn old new, steps := [] } =
    (u.ok c (le 1 new ++ le 1 (b2n ((s.nv.slot (1 - s.trust.runningSlot)).below new)))).sweepList (s.rungAfter c) := ⟨_, rfl⟩

theorem fuseEnd_enrol (s : State) (c : Cmd) (j : Nat) (key : List Byte) : ∃ u : State,
    s.fuseEnd { cmd := c, goal := .enrol j key, steps := [] } = (u.ok c []).sweepList (s.rungAfter c) := ⟨_, rfl⟩

/-! ## The commands of firmware delivery -/

theorem accept_keeps (s : State) (c : Cmd) (key : Nat) (args : List Nat) :
    (s.accept c key args).trust = s.trust ∧ (s.accept c key args).nv = s.nv := by simp

theorem setSlot_slot (n : Nv) (k : Nat) (f : ImgSlot → ImgSlot) : (n.setSlot k f).slot k = f (n.slot k) := by
  by_cases h : k = 0
  · simp [Nv.setSlot, Nv.slot, h]
  · simp [Nv.setSlot, Nv.slot, h]

theorem setSlot_fuses (n : Nv) (k : Nat) (f : ImgSlot → ImgSlot) : (n.setSlot k f).fuses = n.fuses := by
  unfold Nv.setSlot
  split
  · rfl
  · rfl

theorem setImage_image (x : ImgSlot) (kind : Nat) (i : Option Image) : (x.setImage kind i).image kind = i := by
  by_cases h : kind = 0
  · simp [ImgSlot.setImage, ImgSlot.image, h]
  · simp [ImgSlot.setImage, ImgSlot.image, h]

/-- The verdict on an image rests on the fuses alone (R580). -/
theorem imageStatus_of_nv {s t : State} (h : t.nv = s.nv) (kind : Nat) (img : List Byte) :
    t.imageStatus kind img = s.imageStatus kind img := by
  simp [State.imageStatus, State.imageFault, h]

theorem imageStatus_of_sound {s : State} {kind : Nat} {img : List Byte} (h : s.imageFault kind img = none) :
    s.imageStatus kind img = stOk := by
  simp [State.imageStatus, h]

theorem imageStatus_of_fault {s : State} {kind : Nat} {img : List Byte} (h : s.imageFault kind img ≠ none) :
    s.imageStatus kind img ≠ stOk := by
  unfold State.imageStatus
  split
  · contradiction
  · decide
  · split
    · decide
    · split
      · decide
      · decide

theorem trsFwBeginBody_begins {c : Cmd} {s : State} (hkind : fld c.payload 0 4 ≤ 1)
    (htotal : fld c.payload 4 4 ≤ imageLimit (fld c.payload 0 4)) (htried : s.trust.tried = false) :
    trsFwBeginBody c s = ((s.updNv fun n =>
      n.setSlot (1 - s.trust.runningSlot) (fun x => x.setImage (fld c.payload 0 4) none)).updTrust
        fun x => { x with staging := some (fld c.payload 0 4, fld c.payload 4 4, []) }).ok c [] := by
  have hkind' : ¬ 1 < fld c.payload 0 4 := by omega
  have htotal' : ¬ imageLimit (fld c.payload 0 4) < fld c.payload 4 4 := by omega
  simp [trsFwBeginBody, hkind', htotal', State.unconfirmed, htried, State.otherSlot]

theorem trsFwDataBody_appends {c : Cmd} {s : State} {kind total : Nat} {got : List Byte}
    (hstaging : s.trust.staging = some (kind, total, got)) (hoff : fld c.payload 0 4 = got.length)
    (hfits : got.length + (c.payload.drop 8).length ≤ total) :
    trsFwDataBody c s = (s.updTrust fun x => { x with staging := some (kind, total, got ++ c.payload.drop 8) }).ok c [] := by
  have hpast : ¬ total < got.length + (c.payload.drop 8).length := by omega
  simp only [trsFwDataBody, hstaging, hoff, hpast, bne_self_eq_false, decide_false, Bool.or_self, Bool.false_eq_true, if_false]

/-- Where a sound image has been stored, its event posted (R590). -/
def State.stored (s : State) (kind : Nat) (img : List Byte) : State :=
  (s.updNv fun n => n.setSlot s.otherSlot fun x => x.setImage kind (some { bytes := img, verified := true })).raise 0x0701 srcDevice
    (le 1 kind ++ le 1 s.otherSlot ++ le 1 (imageSvn img) ++ le 1 0 ++ le 4 (imageVersion img))

theorem stored_nv (s : State) (kind : Nat) (img : List Byte) : (s.stored kind img).nv =
    s.nv.setSlot s.otherSlot fun x => x.setImage kind (some { bytes := img, verified := true }) := by simp [State.stored]

theorem stored_trust (s : State) (kind : Nat) (img : List Byte) : (s.stored kind img).trust = s.trust := by simp [State.stored]

/-- TRS_FW_END of a whole image: accepted, the staging over, the image stored where it is sound, and the status of the checks. -/
theorem trsFwEndBody_whole (c : Cmd) {s : State} {kind : Nat} {img : List Byte}
    (hstaging : s.trust.staging = some (kind, img.length, img)) :
    ∃ u : State, u.trust = { s.trust with staging := none } ∧ u.nv = s.nv ∧
      trsFwEndBody c s =
        (if s.imageFault kind img = none then u.stored kind img else u).finishAll 0x0706 0 (s.imageStatus kind img) [] none := by
  obtain ⟨htrust, hnv⟩ := accept_keeps s c 0 []
  let u := (s.accept c 0 []).updTrust fun t => { t with staging := none }
  have hu : u.trust = { s.trust with staging := none } := congrArg (fun t : Trust => { t with staging := none }) htrust
  have hverdict : u.imageStatus kind img = s.imageStatus kind img := imageStatus_of_nv hnv kind img
  refine ⟨u, hu, hnv, ?_⟩
  have hend : trsFwEndBody c s = if u.imageStatus kind img != stOk then u.finishAll 0x0706 0 (u.imageStatus kind img) [] none
      else (u.stored kind img).finishAll 0x0706 0 stOk [] none := by
    simp only [trsFwEndBody, htrust, hstaging, bne_self_eq_false, Bool.false_eq_true, if_false]
    rfl
  rw [hend, hverdict]
  by_cases hsound : s.imageFault kind img = none
  · rw [imageStatus_of_sound hsound, if_pos hsound]
    rfl
  · rw [if_pos (bne_iff_ne.2 (imageStatus_of_fault hsound)), if_neg hsound]

theorem trsFwConfirmBody_tried {c : Cmd} {s : State} (h : s.trust.tried = true) : trsFwConfirmBody c s =
    ((s.updNv fun n => { n with abSlot := s.trust.runningSlot, trial := 0 }).updTrust fun x => { x with tried := false }).ok c [] :=
  if_neg (by simp [h])

theorem trsFwConfirmBody_untried {c : Cmd} {s : State} (h : s.trust.tried = false) :
    trsFwConfirmBody c s = s.reply c 0x0103 (le 4 32) none := if_pos (by simp [h])

theorem trsSvnCommitBody_fuses {c : Cmd} {s : State} (habove : s.nv.fuses.svn < fld c.payload 0 1)
    (hfs : fld c.payload 0 1 ≤ s.trust.fsSvn) (hfw : fld c.payload 0 1 ≤ s.trust.fwSvn)
    (htried : s.trust.tried = false) (hidle : s.trust.fusing = none) :
    trsSvnCommitBody c s = s.fuse c (.svn s.nv.fuses.svn (fld c.payload 0 1)) := by
  have hfinish : s.fuseFinish = s := by simp [State.fuseFinish, hidle]
  simp [trsSvnCommitBody, hfinish, Nat.not_le.2 habove, Nat.not_lt.2 hfs, Nat.not_lt.2 hfw, State.unconfirmed, htried]

/-- Settles O55: the commands by their bodies after the shared checks, a whole programming by induction on its bits. One bit a
cycle, USED and the life cycle last, is the choice of log entry 14; TRS_FW_END in one step the reading of entry 24. -/
theorem firmwareCommands : Obligations.FirmwareCommands := by
  refine ⟨fun b s => ⟨fun h hkind htotal htried => ?begin, fun kind total got h hstaging hoff hfits => ?data,
    fun kind img h hstaging => ?fwEnd, fun h htried => ?confirm, fun h htried => ?unconfirmed,
    fun h habove hfs hfw htried hidle => ?commit⟩,
    fun c s => ⟨fun old v habove hold hidle => ?svn, fun j key _ _ hvendor hidle hlife => ?enrol,
      fun w x y rest hfusing hsteps => ?bit⟩⟩
  case begin => exact take_next h (trsFwBeginBody_begins hkind htotal htried)
  case data => exact take_next h (trsFwDataBody_appends hstaging hoff hfits)
  case fwEnd =>
    obtain ⟨u, htrust, hnv, hbody⟩ := trsFwEndBody_whole (s.cmdIn b) hstaging
    refine ⟨_, take_next h hbody, ?_⟩
    have hother : u.otherSlot = 1 - (s.taken b).trust.runningSlot := by rw [State.otherSlot, htrust]
    split
    next hsound =>
      refine ⟨by rw [stored_trust, htrust], by rw [stored_nv, setSlot_fuses, hnv], imageStatus_of_sound hsound, ?_⟩
      rw [stored_nv, ← hother, setSlot_slot, setImage_image]
    next hfault => exact ⟨by rw [htrust], by rw [hnv], imageStatus_of_fault hfault, hnv⟩
  case confirm => exact take_next h (trsFwConfirmBody_tried htried)
  case unconfirmed => exact take_next h (trsFwConfirmBody_untried htried)
  case commit => exact take_next h (trsSvnCommitBody_fuses habove hfs hfw htried hidle)
  case svn =>
    subst hold
    have hplan := plan_svn_ne_nil s.nv.fuses habove
    obtain ⟨hnv, htrust⟩ := fuseFinish_fuse_programs c hplan hidle
    rw [programAll_plan_svn s.nv habove] at hnv
    refine ⟨hnv, htrust, fuseStep_of_idle (htrust ▸ hidle), ?_⟩
    rw [fuseFinish_fuse s c _ hplan, programAll_plan_svn s.nv habove]
    exact fuseEnd_svn _ c _ v
  case enrol =>
    have hplan := plan_enrol_ne_nil s.nv.fuses j key
    obtain ⟨hnv, htrust⟩ := fuseFinish_fuse_programs c hplan hidle
    rw [programAll_plan_enrol s.nv j key (by omega)] at hnv
    refine ⟨hnv, htrust, ?_⟩
    rw [fuseFinish_fuse s c _ hplan]
    exact fuseEnd_enrol _ c j key
  case bit => exact fuseStep_of_more hfusing hsteps

end Sys2Proof.Machine

/-! SUPPORT. The invariant along every function of the model, one lemma for each in the model's order: `h.raise` is the invariant of
`s.raise ..` from the invariant `h` of `s`, so that a proof names the functions that a body applies, in their order. -/

namespace Sys2Proof.Machine

open Sys2Proof

/-! ## What the invariant rests on -/

/-- How many entries the tables of the mailboxes have. -/
def Ncp.lengths (n : Ncp) : List Nat := [n.slots.length, n.sessions.length, n.mg.length]

/-- Of the mailboxes, what the invariant speaks of. -/
def Ncp.kept (n : Ncp) : List Nat × Mem := (n.lengths, n.mem)

/-- How many entries the tables of capture memory have. -/
def MemCtl.lengths (m : MemCtl) : List Nat := [m.hbm.length, m.pchans.length]

/-- Of capture memory, what the invariant speaks of. -/
def MemCtl.kept (m : MemCtl) : List Nat × Mem := (m.lengths, m.bytes)

/-- Of the whole state, what the invariant speaks of. -/
def State.kept (s : State) : List Nat × Bool := (s.shape, s.memoriesOk)

theorem numbered_length {α : Type} (l : List α) : (numbered l).length = l.length := by
  simp [numbered]

section

variable {s t : State}

/-- The same shape, and memories as canonical as before. -/
theorem State.Inv.of_shape (h : s.Inv) (hshape : t.shape = s.shape) (hmem : s.memoriesOk = true → t.memoriesOk = true) : t.Inv :=
  ⟨hshape.trans h.1, hmem h.2⟩

theorem State.Inv.congr (h : s.Inv) (hkept : t.kept = s.kept) : t.Inv := by
  obtain ⟨hshape, hmem⟩ := Prod.mk.inj hkept
  exact h.of_shape hshape hmem.trans

/-- Tables whose entries change, but not their sizes. -/
theorem State.Inv.resize (h : s.Inv) (hshape : t.shape = s.shape) (hmem : t.memoriesOk = s.memoriesOk) : t.Inv :=
  h.of_shape hshape hmem.trans

theorem State.Inv.ite {c : Prop} [Decidable c] (hs : s.Inv) (ht : t.Inv) : (if c then s else t).Inv := by
  split
  · exact hs
  · exact ht

theorem State.Inv.iteSnd {α : Type} {p q : α × State} {c : Prop} [Decidable c] (hp : p.2.Inv) (hq : q.2.Inv) :
    (if c then p else q).2.Inv := by
  split
  · exact hp
  · exact hq

theorem State.Inv.each {α : Type} {l : List α} {f : α → State → State} (h : s.Inv) (hf : ∀ a t, t.Inv → (f a t).Inv) :
    (each l f s).Inv :=
  each_keeps l h fun a _ t ht => hf a t ht

theorem State.Inv.foldl {α β : Type} {l : List α} {f : β × State → α → β × State} {p : β × State} (h : p.2.Inv)
    (hf : ∀ p a, p.2.Inv → (f p a).2.Inv) : (l.foldl f p).2.Inv :=
  List.foldlRecOn (motive := fun p : β × State => p.2.Inv) l f h fun p hp a _ => hf p a hp

/-! ## Updates of one part -/

/-- The memory of the mailboxes changes, to a canonical one if it was canonical. -/
theorem State.Inv.updNcpMem {f : Ncp → Ncp} (h : s.Inv) (hlen : ∀ n, (f n).lengths = n.lengths)
    (hmem : ∀ n, n.mem.wf = true → (f n).mem.wf = true) : (s.updNcp f).Inv := by
  have hlen := hlen s.ncp
  simp only [Ncp.lengths, List.cons.injEq, and_true] at hlen
  refine h.of_shape (by simp [State.shape, hlen]) fun hok => ?_
  simp only [State.memoriesOk, Bool.and_eq_true] at hok ⊢
  exact ⟨hmem _ hok.1, hok.2⟩

theorem State.Inv.updNcp {f : Ncp → Ncp} (h : s.Inv) (hkept : ∀ n, (f n).kept = n.kept) : (s.updNcp f).Inv :=
  h.updNcpMem (fun n => (Prod.mk.inj (hkept n)).1) fun n hok => (Prod.mk.inj (hkept n)).2 ▸ hok

/-- The bytes of capture memory change, to a canonical memory if it was canonical. -/
theorem State.Inv.updMemBytes {f : MemCtl → MemCtl} (h : s.Inv) (hlen : ∀ m, (f m).lengths = m.lengths)
    (hmem : ∀ m, m.bytes.wf = true → (f m).bytes.wf = true) : (s.updMem f).Inv := by
  have hlen := hlen s.mem
  simp only [MemCtl.lengths, List.cons.injEq, and_true] at hlen
  refine h.of_shape (by simp [State.shape, hlen]) fun hok => ?_
  simp only [State.memoriesOk, Bool.and_eq_true] at hok ⊢
  exact ⟨hok.1, hmem _ hok.2⟩

theorem State.Inv.updMem {f : MemCtl → MemCtl} (h : s.Inv) (hkept : ∀ m, (f m).kept = m.kept) : (s.updMem f).Inv :=
  h.updMemBytes (fun m => (Prod.mk.inj (hkept m)).1) fun m hok => (Prod.mk.inj (hkept m)).2 ▸ hok

theorem State.Inv.updTime {f : Time → Time} (h : s.Inv) (hlen : ∀ x, (f x).bases.length = x.bases.length) : (s.updTime f).Inv :=
  h.resize (by simp [State.shape, hlen]) rfl

/-! ## Shared operations -/

theorem State.Inv.drawNat (h : s.Inv) : s.drawNat.2.Inv := h.congr rfl

theorem State.Inv.drawBool (h : s.Inv) : s.drawBool.2.Inv := h.congr rfl

theorem State.Inv.pick {n : Nat} (h : s.Inv) : (s.pick n).2.Inv := .iteSnd h (h.congr (by rfl))

theorem State.Inv.choose {α : Type} {l : List α} (h : s.Inv) : (s.choose l).2.Inv := h.pick

theorem State.Inv.updPower {f : Power → Power} (h : s.Inv) : (s.updPower f).Inv := h.congr rfl

theorem State.Inv.updCfg {f : Cfg → Cfg} (h : s.Inv) : (s.updCfg f).Inv := h.congr rfl

theorem State.Inv.updLedger {f : Ledger → Ledger} (h : s.Inv) : (s.updLedger f).Inv := h.congr rfl

theorem State.Inv.updEp {f : Endpoint → Endpoint} (h : s.Inv) : (s.updEp f).Inv := h.congr rfl

theorem State.Inv.updTrust {f : Trust → Trust} (h : s.Inv) : (s.updTrust f).Inv := h.congr rfl

theorem State.Inv.updHealth {f : Health → Health} (h : s.Inv) : (s.updHealth f).Inv := h.congr rfl

theorem State.Inv.updObs {f : Obs → Obs} (h : s.Inv) : (s.updObs f).Inv := h.congr rfl

theorem State.Inv.updNv {f : Nv → Nv} (h : s.Inv) : (s.updNv f).Inv := h.congr rfl

theorem State.Inv.drivePins {g : PinGroup} (h : s.Inv) : (s.drivePins g).Inv := h.updPower

theorem State.Inv.releasePins {g : PinGroup} (h : s.Inv) : (s.releasePins g).Inv := h.updPower

theorem State.Inv.out {o : OutMsg} (h : s.Inv) : (s.out o).Inv := h.congr rfl

theorem State.Inv.updShroud {n : Nat} {f : Shroud → Shroud} (h : s.Inv) : (s.updShroud n f).Inv :=
  h.resize (by simp [State.shape, upd_length]) rfl

theorem State.Inv.updSensor {n : Nat} {f : Sensor → Sensor} (h : s.Inv) : (s.updSensor n f).Inv :=
  h.resize (by simp [State.shape, upd_length]) rfl

theorem State.Inv.updCtx {n : Nat} {f : Context → Context} (h : s.Inv) : (s.updCtx n f).Inv :=
  h.resize (by simp [State.shape, upd_length]) rfl

theorem State.Inv.updSteep {n : Nat} {f : SteepCtx → SteepCtx} (h : s.Inv) : (s.updSteep n f).Inv := h.congr rfl

theorem State.Inv.updMash {n : Nat} {f : MashCtx → MashCtx} (h : s.Inv) : (s.updMash n f).Inv := h.congr rfl

theorem State.Inv.updEnc {n : Nat} {f : Encoding → Encoding} (h : s.Inv) : (s.updEnc n f).Inv := h.congr rfl

theorem State.Inv.updDec {n : Nat} {f : DecStream → DecStream} (h : s.Inv) : (s.updDec n f).Inv := h.congr rfl

theorem State.Inv.updStream {n : Nat} {f : Stream → Stream} (h : s.Inv) : (s.updStream n f).Inv :=
  h.resize (by simp [State.shape, upd_length]) rfl

theorem State.Inv.updDrive {n : Nat} {f : Drive → Drive} (h : s.Inv) : (s.updDrive n f).Inv :=
  h.resize (by simp [State.shape, upd_length]) rfl

theorem State.Inv.updBrl {n : Nat} {f : BrlCtx → BrlCtx} (h : s.Inv) : (s.updBrl n f).Inv := h.congr rfl

theorem State.Inv.updBase {n : Nat} {f : Base → Base} (h : s.Inv) : (s.updBase n f).Inv :=
  h.resize (by simp [State.shape, upd_length]) rfl

theorem State.Inv.updHbm {n : Nat} {f : Stack → Stack} (h : s.Inv) : (s.updHbm n f).Inv :=
  h.resize (by simp [State.shape, upd_length]) rfl

theorem State.Inv.updPc {n : Nat} {f : PChan → PChan} (h : s.Inv) : (s.updPc n f).Inv :=
  h.resize (by simp [State.shape, upd_length]) rfl

theorem State.Inv.updVec {n : Nat} {f : Vec → Vec} (h : s.Inv) : (s.updVec n f).Inv :=
  h.resize (by simp [State.shape, upd_length]) rfl

theorem State.Inv.updSlot {n : Nat} {f : Slot → Slot} (h : s.Inv) : (s.updSlot n f).Inv :=
  h.resize (by simp [State.shape, upd_length]) rfl

theorem State.Inv.updSession {n : Nat} {f : Session → Session} (h : s.Inv) : (s.updSession n f).Inv :=
  h.resize (by simp [State.shape, upd_length]) rfl

theorem State.Inv.updMg {n : Nat} {f : MgBox → MgBox} (h : s.Inv) : (s.updMg n f).Inv :=
  h.resize (by simp [State.shape, upd_length]) rfl

theorem State.Inv.updPort {y k : Nat} {f : FlexPort → FlexPort} (h : s.Inv) : (s.updPort y k f).Inv := h.congr rfl

/-! ## Operands -/

theorem State.Inv.setBox {b : Mbox} {st : SlotState} (h : s.Inv) : (s.setBox b st).Inv := by
  unfold State.setBox
  split
  · exact h.updSlot
  · exact h.updMg

/-! ## Messages, events, pulses and counters -/

theorem State.Inv.sendVector {v : Nat} (h : s.Inv) : (s.sendVector v).Inv := by
  unfold State.sendVector
  extract_lets old t vec u
  have ht : t.Inv := .ite (h.congr (by rfl)) h
  have hu : u.Inv := ht.updVec
  exact .ite hu (.ite hu.updVec hu.out)

theorem State.Inv.askVector {v : Nat} (h : s.Inv) : (s.askVector v).Inv := .ite h.sendVector h.updVec

theorem State.Inv.setCause {b : Nat} (h : s.Inv) : (s.setCause b).Inv := (h.updNcp (by intro; rfl)).askVector

theorem State.Inv.eqWrite {code src : Nat} {body : List Byte} (h : s.Inv) : (s.eqWrite code src body).Inv :=
  h.of_shape rfl fun hok => by
    simp only [State.memoriesOk, Bool.and_eq_true, State.eqWrite] at hok ⊢
    exact ⟨Mem.writeN_wf _ _ _ hok.1, hok.2⟩

theorem State.Inv.eqOwed (h : s.Inv) : s.eqOwed.Inv := .ite h (h.eqWrite.updNcp (by intro; rfl)).askVector

theorem State.Inv.post {code src : Nat} {body : List Byte} (h : s.Inv) : (s.post code src body).Inv := by
  unfold State.post
  split
  · exact h
  · exact (State.Inv.ite (h.eqOwed.updNcp (by intro; rfl)).setCause h.eqOwed.eqWrite.askVector).each fun _ _ ht => ht.askVector

theorem State.Inv.halPulse {sources merged : Nat} (h : s.Inv) : (s.halPulse sources merged).Inv := by
  unfold State.halPulse
  extract_lets n o recs t u v w old
  have ht : t.Inv := h.congr rfl
  have hu : u.Inv := .ite ht.out ht
  have hv : v.Inv := hu.askVector
  have hw : w.Inv := hv.post
  exact .ite (hw.congr (by rfl)) hw

theorem State.Inv.halTrigger {source : Nat} (h : s.Inv) : (s.halTrigger source).Inv := by
  unfold State.halTrigger
  split
  · exact h.congr (by rfl)
  · exact .ite h.halPulse (h.congr (by rfl))

theorem State.Inv.raise {code src : Nat} {body : List Byte} (h : s.Inv) : (s.raise code src body).Inv :=
  .ite h.post.halTrigger h.post

theorem State.Inv.raiseLimited {last : Option Nanos} {span : Nanos} {code src : Nat} {body : List Byte}
    {mark : Option Nanos → State → State} (h : s.Inv) (hmark : ∀ x t, t.Inv → (mark x t).Inv) :
    (s.raiseLimited last span code src body mark).Inv :=
  .ite (hmark _ _ h.raise) h

theorem State.Inv.count {event n : Nat} {t : Tagged} (h : s.Inv) : (s.count event n t).Inv :=
  .ite h (.ite (h.congr (by rfl)).halTrigger (h.congr (by rfl)))

theorem State.Inv.countLink {event n : Nat} {t : Tagged} (h : s.Inv) : (s.countLink event n t).Inv := .ite h.drawNat.count h

theorem State.Inv.dmaOut {host : Nat} {data : List Byte} (h : s.Inv) : (s.dmaOut host data).Inv := h.out.countLink

theorem State.Inv.ethOut {m : OutMsg} {n : Nat} (h : s.Inv) : (s.ethOut m n).Inv := h.out.countLink

theorem State.Inv.countOther {events : List Nat} (h : s.Inv) : (s.countOther events).Inv := by
  unfold State.countOther
  extract_lets hit more crossed old t
  have ht : t.Inv := h.congr rfl
  exact .ite h (.ite ht.halTrigger ht)

theorem State.Inv.hist {kind ns : Nat} {master cls : Option Nat} (h : s.Inv) : (s.hist kind ns master cls).Inv := h.congr rfl

theorem State.Inv.setErrEntry {seq : Nat} {f : ErrEntry → ErrEntry} (h : s.Inv) : (s.setErrEntry seq f).Inv := h.congr rfl

theorem State.Inv.errUpdated {seq : Nat} (h : s.Inv) : (s.errUpdated seq).Inv := by
  unfold State.errUpdated
  split
  · exact h
  · exact h.askVector.raise

theorem State.Inv.errDecide {seq : Nat} {passed : Option Bool} {result extra : Nat} (h : s.Inv) :
    (s.errDecide seq passed result extra).Inv :=
  h.setErrEntry.errUpdated

theorem State.Inv.scanAtOnce {l : Loc} (h : s.Inv) : (s.scanAtOnce l).Inv :=
  .ite h.updShroud (.ite h.updEp (.ite h.updPort h))

theorem State.Inv.errWrite {cls : Nat} {l : Loc} {i : ErrInfo} (h : s.Inv) : (s.errWrite cls l i).Inv :=
  .ite (h.congr (by rfl)).askVector.raise.halTrigger (h.congr (by rfl)).askVector.raise

theorem State.Inv.errQueue {cls : Nat} {l : Loc} {seq : Nat} (h : s.Inv) : (s.errQueue cls l seq).Inv := by
  unfold State.errQueue
  extract_lets t u v
  have ht : t.Inv := h.setErrEntry
  exact .ite h.setErrEntry.errUpdated (.ite (ht.congr (by rfl)) (.ite h.setErrEntry.errDecide h.updObs.scanAtOnce))

theorem State.Inv.logError {cls : Nat} {l : Loc} {i : ErrInfo} (h : s.Inv) : (s.logError cls l i).Inv :=
  .ite h.errWrite h.errWrite.errQueue

/-! ## Jobs and engines -/

theorem State.Inv.updEngine {m : Nat} {f : Engine → Engine} (h : s.Inv) : (s.updEngine m f).Inv := h.congr rfl

theorem State.Inv.updJob {id : Nat} {f : Job → Job} (h : s.Inv) : (s.updJob id f).Inv := h.congr rfl

theorem State.Inv.mapJobs {f : Job → Job} (h : s.Inv) : (s.mapJobs f).Inv := h.congr rfl

theorem State.Inv.refuseJob {id reason : Nat} (h : s.Inv) : (s.refuseJob id reason).Inv := h.updJob

theorem State.Inv.addJob {j : Job} (h : s.Inv) : (s.addJob j).2.Inv := by
  unfold State.addJob
  extract_lets id full j' t u
  have ht : t.Inv := h.congr rfl
  have hu : u.Inv := by
    unfold u
    split
    · exact ht.refuseJob
    · split
      · exact ht.refuseJob
      · exact ht
  exact hu

theorem State.Inv.sample {j : Job} (h : s.Inv) : (s.sample j).Inv := by
  unfold State.sample
  split
  · exact h
  · exact .ite h (.ite h.updObs h.drawNat.updObs)

theorem State.Inv.letIn {j : Job} (h : s.Inv) : (s.letIn j).Inv := by
  unfold State.letIn
  extract_lets used
  dsimp only
  split
  · exact h.choose.choose.updJob.updEngine.count.hist
  · exact h.choose.choose

theorem State.Inv.startJob {m : Nat} (h : s.Inv) : (s.startJob m).2.Inv := by
  unfold State.startJob
  extract_lets e
  split
  · split
    · exact h.updJob.updEngine
    · exact h
  · exact h

theorem State.Inv.completeJob {j : Job} {status : Nat} (h : s.Inv) : (s.completeJob j status).Inv := h.updJob.updEngine.count.hist

theorem State.Inv.requeue {m : Nat} (h : s.Inv) : (s.requeue m).Inv := h.updEngine.each fun _ _ ht => ht.updJob

theorem State.Inv.updFrame {c : Nat} {seq : BitVec 32} {f : Frame → Frame} (h : s.Inv) : (s.updFrame c seq f).Inv := h.updCtx

theorem State.Inv.addFrameJob {c : Nat} {seq : BitVec 32} {j : Job} (h : s.Inv) : (s.addFrameJob c seq j).2.Inv := h.addJob.updFrame

theorem State.Inv.addUnitJob {j : Job} (h : s.Inv) : (s.addUnitJob j).2.Inv := by
  unfold State.addUnitJob
  dsimp only
  split
  · exact .ite h.addJob.updFrame h.addJob
  · exact h.addJob

/-! ## Mailboxes -/

theorem State.Inv.putResponse {c : Cmd} {d : List Byte} (h : s.Inv) : (s.putResponse c d).Inv :=
  h.updNcpMem (by intro; rfl) fun _ => Mem.writeN_wf _ _ _

theorem State.Inv.leaveBusy {c : Cmd} {response : Option (List Byte)} (h : s.Inv) : (s.leaveBusy c response).Inv := by
  unfold State.leaveBusy
  split
  · exact h.putResponse.setBox
  · exact h.setBox

theorem State.Inv.postNow {w : WaitCpl} (h : s.Inv) : (s.postNow w).Inv := by
  unfold State.postNow
  extract_lets c resp k q t u v
  have ht : t.Inv := h.updNcpMem (by intro; rfl) fun _ => Mem.writeN_wf _ _ _
  have hu : u.Inv := ht.updSession
  have hv : v.Inv := .ite hu.leaveBusy hu
  split
  · exact .ite h.drawBool.updMg.leaveBusy h.drawBool.updMg
  · split
    · dsimp only
      split
      · exact (h.drawBool.updNcp (by intro; rfl)).updSlot
      · exact h.drawBool
    · split
      · exact .ite (h.drawBool.updNcpMem (by intro; rfl) fun _ => Mem.writeN_wf _ _ _).leaveBusy.updSlot
          (h.drawBool.updNcpMem (by intro; rfl) fun _ => Mem.writeN_wf _ _ _)
      · exact .ite hv hv.askVector

theorem State.Inv.postCpl {w : WaitCpl} (h : s.Inv) : (s.postCpl w).Inv := by
  unfold State.postCpl
  split
  · exact .ite (h.updNcp (by intro; rfl)) h.postNow
  · exact h.postNow

theorem State.Inv.cmdLatency {c : Cmd} (h : s.Inv) : (s.cmdLatency c).Inv := by
  unfold State.cmdLatency
  split
  · exact h.hist
  · exact h

theorem State.Inv.reply {c : Cmd} {status : Nat} {result : List Byte} {response : Option (List Byte)} (h : s.Inv) :
    (s.reply c status result response).Inv :=
  h.cmdLatency.postCpl

theorem State.Inv.ok {c : Cmd} {result : List Byte} (h : s.Inv) : (s.ok c result).Inv := h.reply

theorem State.Inv.badField {c : Cmd} {payloadOff : Nat} (h : s.Inv) : (s.badField c payloadOff).Inv := h.reply

theorem State.Inv.badLength {c : Cmd} {n : Nat} (h : s.Inv) : (s.badLength c n).Inv := h.reply

theorem State.Inv.fail {c : Cmd} {status : Nat} (h : s.Inv) : (s.fail c status).Inv := h.reply

theorem State.Inv.accept {c : Cmd} {key : Nat} {args : List Nat} (h : s.Inv) :
    (s.accept c key args).Inv := h.cmdLatency.postCpl.updNcp (by intro; rfl)

theorem State.Inv.finish {e : ExecCmd} {status : Nat} {result : List Byte} {response : Option (List Byte)} (h : s.Inv) :
    (s.finish e status result response).Inv :=
  (h.updNcp (by intro; rfl)).postCpl

theorem State.Inv.finishAll {op key status : Nat} {result : List Byte} {response : Option (List Byte)} (h : s.Inv) :
    (s.finishAll op key status result response).Inv :=
  h.each fun _ _ ht => ht.finish

theorem State.Inv.advanceSeq {c : Cmd} (h : s.Inv) : (s.advanceSeq c).Inv := by
  unfold State.advanceSeq
  split
  · exact h.updMg
  · split
    · exact h
    · split
      · exact h.updNcp (by simp [Ncp.kept, Ncp.lengths])
      · exact h.updSession

theorem State.Inv.markTaken {c : Cmd} (h : s.Inv) : (s.markTaken c).Inv := by
  unfold State.markTaken
  extract_lets t
  have ht : t.Inv := h.setBox
  split
  · exact ht
  · exact .ite ht ht.updSession

theorem State.Inv.checkForm {c : Cmd} {hdr : List Byte} {f : Form} {k : Cmd → State → State} (h : s.Inv)
    (hk : ∀ c t, t.Inv → (k c t).Inv) : (s.checkForm c hdr f k).Inv := by
  unfold State.checkForm
  split
  · exact h.reply
  · split
    · exact h.badLength
    · split
      · exact h.badLength
      · split
        · exact h.reply
        · exact .ite h.reply (hk c s h)

theorem State.Inv.checkSeq {c : Cmd} {k : State → State} (h : s.Inv) (hk : ∀ t, t.Inv → (k t).Inv) : (s.checkSeq c k).Inv := by
  unfold State.checkSeq
  split
  · exact hk s h
  · exact .ite h.reply (hk _ h.advanceSeq)

theorem State.Inv.sweepOne {b : Mbox} (h : s.Inv) : (s.sweepOne b).Inv := .ite h (h.markTaken.checkSeq (fun _ ht => ht.reply))

theorem State.Inv.sweepList {bs : List Mbox} (h : s.Inv) : (s.sweepList bs).Inv := h.each fun _ _ ht => ht.sweepOne

theorem State.Inv.sweep {b : Mbox} (h : s.Inv) : (s.sweep b).Inv := h.sweepList

theorem State.Inv.take {b : Mbox} {f : Form} {k : Cmd → State → State} (h : s.Inv) (hk : ∀ c t, t.Inv → (k c t).Inv) :
    (s.take b f k).Inv :=
  .ite h (h.markTaken.checkSeq fun _ ht => ht.checkForm hk).sweep

theorem State.Inv.ring {n : Nat} (h : s.Inv) : (s.ring n).Inv := .ite (h.updSlot.updNcp (by intro; rfl)).sweep (h.updNcp (by intro; rfl))

theorem State.Inv.ringAll {hi : Bool} {v : Word} (h : s.Inv) : (s.ringAll hi v).Inv := h.each fun _ _ ht => ht.ring

theorem State.Inv.releaseAll {hi : Bool} {v : Word} (h : s.Inv) : (s.releaseAll hi v).Inv := h.each fun _ _ ht => ht.updSlot

theorem State.Inv.mgRing {v : Nat} (h : s.Inv) : (s.mgRing v).Inv := h.each (fun _ _ ht => .ite ht.updMg.sweep ht)

theorem State.Inv.mgFree {v : Nat} (h : s.Inv) : (s.mgFree v).Inv := h.each fun _ _ ht => ht.updMg

theorem State.Inv.writeSlot {n off : Nat} {d : List Byte} (h : s.Inv) : (s.writeSlot n off d).Inv :=
  .ite (h.updNcpMem (by intro; rfl) fun _ => Mem.writeN_wf _ _ _) (h.updNcp (by intro; rfl))

theorem State.Inv.unmask {v : Nat} (h : s.Inv) : (s.unmask v).Inv := .ite h.updVec.updVec.out h.updVec

/-! ## Sessions -/

theorem State.Inv.orphanWaiting {n : Nat} (h : s.Inv) : (s.orphanWaiting n).Inv := (h.updNcp (by intro; rfl)).each fun _ _ ht => ht.postNow

theorem State.Inv.closeSession {n : Nat} {expired : Bool} (h : s.Inv) : (s.closeSession n expired).Inv :=
  (h.updNcp (by simp [Ncp.kept, Ncp.lengths])).orphanWaiting.updSession.raise

theorem State.Inv.openSession {k : Nat} {slots : List Nat} {primary : Bool} {heartbeat first : Nat} (h : s.Inv) :
    (s.openSession k slots primary heartbeat first).Inv := by
  have hkept := h.drawNat.updNcp (f := fun x => { x with slots := x.slots.map (Slot.keepNumber k x.rings (s.session k).expected) })
    (by simp [Ncp.kept, Ncp.lengths])
  exact (hkept.updSession.each fun _ _ ht => ht.updSlot).updNcpMem (by intro; rfl) fun _ => Mem.clear_wf _ _ _

theorem State.Inv.sessionOpenBody {c : Cmd} (h : s.Inv) : (sessionOpenBody c s).Inv := by
  unfold Machine.sessionOpenBody
  extract_lets p want role nslots hb ver free k slots map
  clear_value k
  refine .ite h.badField (.ite h.badField (.ite h.badField (.ite h.badField (.ite h.fail ?_))))
  split
  · exact h.fail
  · exact h.openSession.raise.ok

theorem State.Inv.sessionCloseBody {c : Cmd} (h : s.Inv) : (sessionCloseBody c s).Inv :=
  .ite h.ok (.ite h.ok.updSession h.ok.closeSession)

theorem State.Inv.sessionHeartbeatBody {c : Cmd} (h : s.Inv) : (sessionHeartbeatBody c s).Inv := h.ok

theorem State.Inv.devInfoBody {c : Cmd} (h : s.Inv) : (devInfoBody c s).Inv := h.reply

theorem State.Inv.askWarm {cause : Byte} (h : s.Inv) : (s.askWarm cause).Inv := h.updPower

theorem State.Inv.sessionOrphansBody {c : Cmd} (h : s.Inv) : (sessionOrphansBody c s).Inv := h.reply

theorem State.Inv.eventMaskBody {c : Cmd} (h : s.Inv) : (eventMaskBody c s).Inv :=
  .ite h.fail (.ite h.badField (h.updNcp (by intro; rfl)).ok)

theorem State.Inv.primaryClaimBody {c : Cmd} (h : s.Inv) : (primaryClaimBody c s).Inv :=
  .ite h.fail (.ite h.ok h.updSession.ok)

/-! ## Staging of generations -/

theorem State.Inv.cfgStageBeginBody {c : Cmd} (h : s.Inv) : (cfgStageBeginBody c s).Inv :=
  .ite h.fail (.ite h.badField h.updNv.updCfg.ok)

theorem State.Inv.cfgStageBlockBody {c : Cmd} (h : s.Inv) : (cfgStageBlockBody c s).Inv := by
  unfold Machine.cfgStageBlockBody
  extract_lets p
  dsimp only
  split
  · exact h.fail
  · split
    · exact h.fail
    · split
      · exact h.badField
      · split
        · exact .ite h.badField (.ite h.badLength h.updCfg.ok)
        · split
          · exact h.badField
          · split
            · exact h.badField
            · exact .ite h.badField (.ite h.fail h.updCfg.ok)

theorem State.Inv.cfgStageDiscardBody {c : Cmd} (h : s.Inv) : (cfgStageDiscardBody c s).Inv := .ite h.fail h.updCfg.ok

theorem State.Inv.cfgStatusBody {c : Cmd} (h : s.Inv) : (cfgStatusBody c s).Inv := h.reply

theorem State.Inv.cfgReadBlockBody {c : Cmd} (h : s.Inv) : (cfgReadBlockBody c s).Inv := by
  unfold Machine.cfgReadBlockBody
  extract_lets p off
  split
  · exact h.badField
  · split
    · exact h.badField
    · exact .ite h.badField h.reply

theorem State.Inv.loadLuts {bs : List Block} (h : s.Inv) : (s.loadLuts bs).Inv := by
  unfold State.loadLuts
  refine h.each fun _ t ht => ?_
  split
  · exact ht
  · dsimp only
    split
    · exact ht.choose.congr (by rfl)
    · exact ht.choose

theorem State.Inv.armGen {g : Gen} {kind : ArmKind} {timeoutMs : Nat} (h : s.Inv) : (s.armGen g kind timeoutMs).Inv :=
  h.updCfg.loadLuts.raise

theorem State.Inv.probationFail {row ctx : Nat} (h : s.Inv) : (s.probationFail row ctx).Inv := by
  unfold State.probationFail
  split
  · exact h
  · split
    · exact h
    · extract_lets t u failed
      have ht : t.Inv := h.updCfg
      have hu : u.Inv := ht.finishAll.finishAll
      split
      · exact hu.updCfg.loadLuts
      · exact ht.updCfg.armGen
      · exact ht

/-! ## Capture memory -/

theorem State.Inv.unmappedAt {master addr : Nat} (h : s.Inv) : (s.unmappedAt master addr).Inv :=
  (h.updMem (by intro; rfl)).raiseLimited fun _ _ ht => ht.updMem (by intro; rfl)

theorem State.Inv.access {event master addr n : Nat} {c : Cell} (h : s.Inv) : (s.access event master addr n c).Inv := by
  unfold State.access
  extract_lets pc t u v
  have hu : u.Inv := (State.Inv.ite h h.count).updPc
  have hv : v.Inv := hu.count
  exact .ite hv.drawNat.hist hv

theorem State.Inv.reach {event master addr n : Nat} (h : s.Inv) : (s.reach event master addr n).Inv := by
  unfold State.reach
  refine h.each fun _ t ht => ?_
  extract_lets first n'
  split
  · extract_lets u old
    have hu : u.Inv := ht.access
    split
    · exact .ite hu.access hu
    · exact hu
  · exact ht.unmappedAt

theorem State.Inv.reachPage {page : Nat} (h : s.Inv) : (s.reachPage page).Inv := h.each fun _ _ ht => ht.updPc

theorem State.Inv.capWrite {master addr : Nat} {d : List Byte} (h : s.Inv) : (s.capWrite master addr d).Inv :=
  .ite (h.reach.updMemBytes (by intro; rfl) fun _ => Mem.writeN_wf _ _ _)
    (h.reach.each fun _ _ ht => .ite (ht.updMemBytes (by intro; rfl) fun _ => Mem.write_wf _ _ _) ht)

theorem State.Inv.mapPage {logical kind stack : Nat} (h : s.Inv) : (s.mapPage logical kind stack).Inv := by
  unfold State.mapPage
  dsimp only
  split
  · exact h.choose.updMem (by intro; rfl)
  · exact h.choose

theorem State.Inv.mapPages {first kind : Nat} {js : List Nat} (h : s.Inv) : (s.mapPages first kind js).Inv := by
  unfold State.mapPages
  extract_lets good
  refine h.each fun _ t ht => ?_
  split
  · exact ht.mapPage
  · exact ht

theorem State.Inv.unmapFrom {r : Region} {j : Nat} (h : s.Inv) : (s.unmapFrom r j).Inv :=
  h.updMemBytes (by intro; rfl) fun _ => Mem.clear_wf _ _ _

theorem State.Inv.alloc {use owner kind bytes : Nat} (h : s.Inv) : (s.alloc use owner kind bytes).Inv := by
  unfold State.alloc
  generalize ceilDiv bytes pageBytes = pages
  revert pages
  -- `id` keeps the page count a variable for the kernel, which else evaluates the division on unary numbers
  refine id fun pages => ?_
  dsimp only
  split
  · exact (State.Inv.ite h.unmapFrom h.mapPages).updMem (by intro; rfl)
  · split
    · exact h.choose
    · exact (h.choose.updMem (by intro; rfl)).mapPages

theorem State.Inv.release {use owner : Nat} (h : s.Inv) : (s.release use owner).Inv := by
  unfold State.release
  split
  · exact h
  · exact h.unmapFrom.updMem (by intro; rfl)

theorem State.Inv.retirePage {p : Nat} {logical : Nat} (h : s.Inv) : (s.retirePage p logical).Inv :=
  .ite h (.ite (.ite h h.updNv.updHbm.raise) h.updNv.raise)

theorem State.Inv.repairRow {l : Loc} (h : s.Inv) : (s.repairRow l).Inv := h.updNv.updHbm.raise

theorem State.Inv.startMigration {p : Nat} {retireOld : Bool} (h : s.Inv) : (s.startMigration p retireOld).Inv := by
  unfold State.startMigration
  extract_lets k t
  have ht : t.Inv := h.updHbm
  split
  · exact .ite h.updHbm (h.addJob.updHbm.updMem (by intro; rfl))
  · exact ht.raise
  · exact .ite h.retirePage h

theorem State.Inv.retireRowPage {p : Nat} (h : s.Inv) : (s.retireRowPage p).Inv := .ite (h.updMem (by intro; rfl)) h.startMigration

theorem State.Inv.memLasting {l : Loc} (h : s.Inv) : (s.memLasting l).2.Inv := .iteSnd h.repairRow h.retireRowPage

theorem State.Inv.endMigration {m : Migration} (h : s.Inv) : (s.endMigration m).Inv := by
  unfold State.endMigration
  extract_lets logical t tag u v w
  have ht : t.Inv := h.reachPage.reachPage
  have hu : u.Inv := ht.count.count
  have hv : v.Inv := hu.updMem (by intro; rfl)
  have hw : w.Inv := .ite hv.retirePage hv
  split
  · exact hw.updHbm.startMigration
  · exact hw

theorem State.Inv.retireWaiting (h : s.Inv) : s.retireWaiting.Inv := h.each (fun _ _ ht => ht.each (fun _ _ hu => hu.updHbm.retirePage))

theorem State.Inv.againMigration {m : Migration} (h : s.Inv) : (s.againMigration m).Inv := h.addJob.updMem (by intro; rfl)

theorem State.Inv.eccAt {c : Cell} (h : s.Inv) : (s.eccAt c).Inv := h.updHbm.updPc

theorem State.Inv.eccSeen {l : List Nat} {i : ErrInfo} (h : s.Inv) : (s.eccSeen l i).Inv := by
  unfold State.eccSeen
  refine h.each fun _ t ht => ?_
  split
  · exact ht.eccAt.logError
  · exact ht

theorem State.Inv.tileMiss {m : TileMiss} {tagAddr : Nat} {i : ErrInfo} {quiet : Bool} (h : s.Inv) :
    (s.tileMiss m tagAddr i quiet).Inv := by
  unfold State.tileMiss
  extract_lets t u
  have ht : t.Inv := h.updMem (by intro; rfl)
  have hu : u.Inv := ht.count
  refine hu.each fun _ v hv => ?_
  split
  · exact hv
  · exact .ite (.ite hv.eccAt hv) ((State.Inv.ite hv.eccAt hv).logError)

theorem State.Inv.refresh {pc : Nat} (h : s.Inv) : (s.refresh pc).Inv :=
  .ite h (h.drawNat.drawNat.drawNat.drawNat.updPc.updHbm.count.count.countOther.updMem (by intro; rfl))

theorem State.Inv.hotMode {k : Nat} {temp : Int} (h : s.Inv) : (s.hotMode k temp).Inv := .ite h.updHbm.raise h.updHbm

theorem State.Inv.memLocateBody {c : Cmd} (h : s.Inv) : (memLocateBody c s).Inv := by
  unfold Machine.memLocateBody
  extract_lets a
  split
  · exact h.ok
  · exact h.badField

theorem State.Inv.memTrainLogBody {c : Cmd} (h : s.Inv) : (memTrainLogBody c s).Inv :=
  .ite h.badField (.ite h.badField h.reply)

theorem State.Inv.memRetiredBody {c : Cmd} (h : s.Inv) : (memRetiredBody c s).Inv := .ite h.badField h.reply

/-! ## Sealed capture -/

theorem State.Inv.sign {seed msg : List Byte} (h : s.Inv) : (s.sign seed msg).2.Inv := h.congr rfl

theorem State.Inv.openSegment {n first : Nat} {discs : List (List Byte)} (h : s.Inv) : (s.openSegment n first discs).Inv := h.updStream

theorem State.Inv.addSealRec {n kind : Nat} {bytes : List Byte} {signed : Bool} (h : s.Inv) : (s.addSealRec n kind bytes signed).Inv :=
  h.updStream

theorem State.Inv.closeSegment {n cause : Nat} (h : s.Inv) : (s.closeSegment n cause).Inv := by
  unfold State.closeSegment
  extract_lets t u old
  have hu : u.Inv := h.updStream
  split
  · exact h
  · split
    · exact .ite h.updStream h.updStream.openSegment
    · extract_lets g body v w x₁
      have hv : v.Inv := hu.addSealRec
      have hw : w.Inv := hv.updTrust
      have hx₁ : x₁.Inv := hw.addJob
      exact .ite (hx₁.raiseLimited (fun _ _ ht => ht.updTrust)) hx₁

theorem State.Inv.absorb {n fuel : Nat} {d : List Byte} (h : s.Inv) : (s.absorb n fuel d).2.Inv := by
  induction fuel generalizing s d with
  | zero => exact h
  | succ fuel ih =>
    unfold State.absorb
    split
    · exact h
    · dsimp only
      split
      · exact ih h.openSegment
      · exact ih (.ite h.updStream.closeSegment h.updStream)

theorem State.Inv.absorbAll {n : Nat} {d : List Byte} (h : s.Inv) : (s.absorbAll n d).2.Inv := h.absorb

theorem State.Inv.discontinuity {base cause : Nat} {stepNs : Int} (h : s.Inv) : (s.discontinuity base cause stepNs).Inv := by
  unfold State.discontinuity
  refine h.each fun _ t ht => ?_
  split
  · exact ht
  · exact .ite ht.updStream ht.closeSegment.openSegment

theorem State.Inv.closeSegments {cause : Nat} (h : s.Inv) : (s.closeSegments cause).Inv := h.each fun _ _ ht => ht.closeSegment

theorem State.Inv.signNext (h : s.Inv) : s.signNext.Inv := by
  unfold State.signNext
  split
  · exact h
  · extract_lets t
    have ht : t.Inv := h.updTrust
    split
    · exact ht
    · extract_lets body
      dsimp only
      exact ht.sign.updStream.updNv

theorem State.Inv.issueCerts (h : s.Inv) : s.issueCerts.Inv := by
  unfold State.issueCerts
  extract_lets a
  dsimp only
  exact h.sign.sign.updTrust

theorem State.Inv.wrapFor {n : Nat} {key header : List Byte} (h : s.Inv) : (s.wrapFor n key header).2.Inv := h.congr rfl

theorem State.Inv.wrapAll {n : Nat} {header : List Byte} {ks : List (List Byte)} (h : s.Inv) : (s.wrapAll n header ks).2.Inv := by
  induction ks generalizing s with
  | nil => exact h
  | cons k ks ih =>
    unfold State.wrapAll
    dsimp only
    exact ih h.wrapFor

theorem State.Inv.makeKeyRecord {n : Nat} (h : s.Inv) : (s.makeKeyRecord n).2.Inv := by
  unfold State.makeKeyRecord
  extract_lets t r header
  dsimp only
  exact h.wrapAll.sign

/-! ## Application of generations -/

theorem State.Inv.startPersist (h : s.Inv) : s.startPersist.Inv := .ite h.updCfg h

theorem State.Inv.probationPass (h : s.Inv) : s.probationPass.Inv := h.updCfg.raise.startPersist

theorem State.Inv.noteCaptured (h : s.Inv) : s.noteCaptured.Inv := by
  unfold State.noteCaptured
  split
  · exact h
  · exact h.updCfg

theorem State.Inv.probationCheck (h : s.Inv) : s.probationCheck.Inv := by
  unfold State.probationCheck
  extract_lets t
  have ht : t.Inv := h.noteCaptured
  split
  · exact ht
  · exact .ite ht.probationPass ht

theorem State.Inv.policyLive {before now : Option Gen} (h : s.Inv) : (s.policyLive before now).Inv := by
  unfold State.policyLive
  extract_lets pol
  split
  · exact h
  · exact .ite h h.updNv.raise

theorem State.Inv.goLive (h : s.Inv) : s.goLive.Inv := by
  unfold State.goLive
  split
  · exact h
  next g _ =>
    split
    · exact h
    · extract_lets old kind t u v w undo now x
      clear_value kind
      have ht : t.Inv := h.updCfg
      have hw : w.Inv := ht.raise.policyLive.closeSegments.finishAll.finishAll
      have hx : x.Inv := h.updCfg
      cases kind with
      | commit => exact .ite hw.startPersist hw.probationCheck
      | rollback => exact .ite hw.startPersist hw.probationCheck
      | auto failed row ctx => exact .ite hx.raise hx.raise.raise.policyLive.closeSegments

theorem State.Inv.allocNew {use c kind bytes : Nat} (h : s.Inv) : (s.allocNew use c kind bytes).Inv := h.alloc

theorem State.Inv.layRing {c : Nat} (h : s.Inv) : (s.layRing c).Inv := by
  unfold State.layRing
  split
  · exact h.alloc.allocNew.alloc.updCtx
  · exact h.release.updCtx

theorem State.Inv.storeMap {base : Nat} {p : List Byte} (h : s.Inv) : (s.storeMap base p).Inv := h.capWrite.capWrite

theorem State.Inv.setRing {c : Nat} {k : RingKind} {r : FrameRing} (h : s.Inv) : (s.setRing c k r).Inv := by
  unfold State.setRing
  split
  · exact h.updSteep
  · exact h.updMash
  · exact h.updSteep
  · exact h.updSteep

theorem State.Inv.putRing {c : Nat} {k : RingKind} {q : BitVec 32} {d : List Byte} (h : s.Inv) : (s.putRing c k q d).Inv :=
  .ite h.setRing (h.setRing.capWrite.each (fun _ _ ht => ht.capWrite))

theorem State.Inv.sizeRange {use owner kind bytes : Nat} (h : s.Inv) : (s.sizeRange use owner kind bytes).Inv :=
  .ite h.release h.alloc

theorem State.Inv.layRings {c : Nat} (h : s.Inv) : (s.layRings c).Inv := h.sizeRange.updSteep

theorem State.Inv.layDeveloper {c : Nat} {types : List Nat} (h : s.Inv) : (s.layDeveloper c types).Inv := by
  unfold State.layDeveloper
  extract_lets b hit give t u v base w
  have hgive (use bytes : Nat) (x : State) (hx : x.Inv) : (give use bytes x).Inv := by
    exact .ite hx hx.allocNew
  have ht : t.Inv := .ite h.layRings h
  have hu : u.Inv := .ite (hgive _ _ _ (hgive _ _ _ ht)) ht
  have hv : v.Inv := hgive _ _ _ hu
  have hw : w.Inv := by
    refine .ite (hv.each fun _ _ hx => ?_) hu
    split
    · exact hx.storeMap
    · exact hx
  exact .ite (hgive _ _ _ hw) hw

theorem State.Inv.freeOld (h : s.Inv) : s.freeOld.Inv := h.each (fun _ _ ht => .ite ht.release ht)

theorem State.Inv.setAside {e : Nat} {upto : BitVec 32} (h : s.Inv) : (s.setAside e upto).Inv :=
  .ite h.updEnc.release.release ((h.congr (by rfl)).updEnc.mapJobs.updMem (by intro; rfl))

theorem State.Inv.freeEncs (h : s.Inv) : s.freeEncs.Inv := by
  unfold State.freeEncs
  refine h.each fun _ t ht => ?_
  extract_lets x u
  have hu : u.Inv := ht.updEnc.release.release
  split
  · exact ht
  · exact .ite ht hu.updEnc

theorem State.Inv.layEncodings {c : Nat} {before : List (Nat × Nat × List Byte)} (h : s.Inv) : (s.layEncodings c before).Inv := by
  unfold State.layEncodings
  extract_lets b after here t
  have ht : t.Inv := h.each fun _ u hu => .ite hu (.ite hu.setAside (hu.congr (by rfl)))
  refine ht.each fun x u hu => ?_
  obtain ⟨e, codec, ent⟩ := x
  dsimp -zeta only
  extract_lets same v w
  have hv : v.Inv := by
    unfold v
    split
    · exact hu.setAside
    · exact hu
  have hw : w.Inv := .ite hu.updEnc hv.updEnc
  exact (State.Inv.ite hw.alloc hw).alloc

theorem State.Inv.applyKeys {c : Nat} {keys : List (Nat × Nat)} (h : s.Inv) : (s.applyKeys c keys).2.Inv := by
  unfold State.applyKeys
  split
  · exact h
  · split
    · exact h
    · extract_lets before types t u v w
      have ht : t.Inv := h.updCfg
      have hu : u.Inv := .ite ht.layRing ht
      have hv : v.Inv := hu.layDeveloper.layEncodings
      have hw : w.Inv := .ite hv.updSteep hv
      exact hw

theorem State.Inv.applyCtx {c : Nat} (h : s.Inv) : (s.applyCtx c).2.Inv := h.applyKeys

/-! ## The energy ledger -/

theorem State.Inv.noteReceived {n : Nat} (h : s.Inv) : (s.noteReceived n).Inv := h.updLedger.updShroud

theorem State.Inv.chargeReceived (h : s.Inv) : s.chargeReceived.Inv :=
  h.resize (by simp [State.shape, State.chargeReceived]) rfl

theorem State.Inv.passOne {eligible : State → Job → Bool} {letIn : Job → State → State} {id : Nat} {p : Pass × State} (h : p.2.Inv)
    (hin : ∀ j t, t.Inv → (letIn j t).Inv) : (passOne eligible letIn id p).2.Inv := by
  unfold Machine.passOne
  dsimp only
  split
  · exact h
  · split
    · exact h
    · split
      · exact h
      · split
        · split
          · exact h
          · exact h
        · exact hin _ _ h.count

theorem State.Inv.runWindow {eligible : State → Job → Bool} {letIn : Job → State → State} (h : s.Inv)
    (hin : ∀ j t, t.Inv → (letIn j t).Inv) : (s.runWindow eligible letIn).Inv := by
  unfold State.runWindow
  extract_lets l credit cap kept bank carry lanes baseG baseline c0mem c0bits avail draw draw' groups p0 ids
  have hpass : (ids.foldl (fun acc id => Machine.passOne eligible letIn id acc) (p0, s)).2.Inv :=
    State.Inv.foldl h fun _ _ hp => hp.passOne hin
  exact .ite (State.Inv.raiseLimited hpass.mapJobs.updLedger fun _ _ ht => ht.updLedger) hpass.mapJobs.updLedger

theorem State.Inv.deliver {j : Job} {w : BitVec 32} (h : s.Inv) : (s.deliver j w).Inv := by
  unfold State.deliver
  extract_lets c waited bump o t u v
  have ht : t.Inv := h.updLedger
  have hu : u.Inv := ht.count
  have hv : v.Inv := .ite hu.count hu
  split
  · exact hv
  · exact hv.updCtx.updFrame

theorem State.Inv.refusalEvent (h : s.Inv) : s.refusalEvent.Inv := .ite h h.raise.updLedger

theorem State.Inv.telemetry {t : Telemetry} (h : s.Inv) : (s.telemetry t).Inv := by
  unfold State.telemetry
  extract_lets one u
  have hu : u.Inv := h.each fun g v hv => by
    dsimp only [one]
    split
    · exact hv
    · exact hv.updLedger
  exact hu.updLedger

/-! ## Sensor lanes and control ports -/

theorem State.Inv.ltc {sensor reg v : Nat} (h : s.Inv) : (s.ltc sensor reg v).Inv := h.out

theorem State.Inv.scpFault {sensor failure addr reg : Nat} {firmware : Bool} (h : s.Inv) :
    (s.scpFault sensor failure addr reg firmware).Inv :=
  h.updSensor.raise

theorem State.Inv.fwTransfer {sensor addr reg : Nat} {done : State → State} (h : s.Inv) (hdone : ∀ t, t.Inv → (done t).Inv) :
    (s.fwTransfer sensor addr reg done).Inv := by
  unfold State.fwTransfer
  dsimp only
  exact .ite h.pick (.ite (hdone _ h.pick) h.pick.pick.scpFault)

theorem State.Inv.sendCcc {n addr : Nat} {code : Ccc} (h : s.Inv) : (s.sendCcc n addr code).Inv := h.fwTransfer (fun _ ht => ht.out)

theorem State.Inv.portSync {n : Nat} (h : s.Inv) : (s.portSync n).Inv := by
  unfold State.portSync
  extract_lets x e on t
  have ht : t.Inv := h.drivePins.updSensor
  split
  · exact .ite ht.sendCcc.sendCcc ht
  · exact .ite ((State.Inv.ite h.sendCcc h).updSensor) h

theorem State.Inv.srefSync (h : s.Inv) : s.srefSync.Inv := h.each (fun _ _ ht => .ite ht.updPower ht.updPower.drivePins)

theorem State.Inv.startTraining {n : Nat} (h : s.Inv) : (s.startTraining n).Inv := .ite h h.noteReceived.updShroud

theorem State.Inv.flagOpen {sensor vc b : Nat} (h : s.Inv) : (s.flagOpen sensor vc b).Inv := by
  unfold State.flagOpen
  refine h.each fun _ t ht => ?_
  extract_lets w u
  have hu : u.Inv := ht.updSensor
  split
  · exact hu.updFrame
  · exact hu

theorem State.Inv.flagAll {sensor b : Nat} (h : s.Inv) : (s.flagAll sensor b).Inv := h.each fun _ _ ht => ht.flagOpen

theorem State.Inv.linkLost {sensor : Nat} (h : s.Inv) : (s.linkLost sensor).Inv := h.flagAll

theorem State.Inv.failShroud {n reason lanes : Nat} (h : s.Inv) : (s.failShroud n reason lanes).Inv :=
  (((h.updShroud.fwTransfer (fun _ ht => ht.ltc)).raise).linkLost).finishAll

theorem State.Inv.trainShroud {n : Nat} {t : TrainFacts} (h : s.Inv) : (s.trainShroud n t).Inv := by
  unfold State.trainShroud
  extract_lets x r at_ old u v w x₁ x₂ x₃
  have hu : u.Inv := h.updShroud
  have hv : v.Inv := hu.each fun _ _ ht => ht.ltc
  have hw : w.Inv := .ite hv.raise hv
  have hx₁ : x₁.Inv := by
    unfold x₁
    split
    · dsimp only
      exact hw.pick.scpFault
    · exact hw
  have hx₂ : x₂.Inv := hw.updShroud
  have hx₃ : x₃.Inv := hx₂.raise
  split
  · exact hx₁.updShroud.failShroud
  · exact .ite hx₃.finishAll hw

theorem State.Inv.trainTimeout {n micros : Nat} (h : s.Inv) : (s.trainTimeout n micros).Inv := h.updShroud.failShroud

theorem State.Inv.linkLossInProbation {n : Nat} (h : s.Inv) : (s.linkLossInProbation n).Inv := h.each fun _ _ ht => ht.probationFail

theorem State.Inv.endLoopback {n : Nat} {counted : Option (Nat × Nat)} (h : s.Inv) : (s.endLoopback n counted).Inv :=
  .ite h h.drawNat.drawNat.updShroud.finishAll

theorem State.Inv.relocked {n : Nat} {f : RelockFacts} (h : s.Inv) : (s.relocked n f).Inv := by
  unfold State.relocked
  extract_lets sh u hit ls found tries t
  have ht : t.Inv := h.updShroud
  exact .ite ht.failShroud (.ite ht ht.updShroud.raise)

theorem State.Inv.enterRelock {n : Nat} {ls : List Nat} {cdr : Option Nat} {counted : Option (Nat × Nat)}
    {relock : Option RelockFacts} (h : s.Inv) :
    (s.enterRelock n ls cdr counted relock).Inv := by
  unfold State.enterRelock
  extract_lets sh t recent gone lose u v w
  have ht : t.Inv := h.endLoopback.noteReceived
  have hu : u.Inv := ht.updShroud
  have hv : v.Inv := hu.raise
  have hw : w.Inv := hv.linkLost.linkLossInProbation
  split
  · exact hw.failShroud
  · split
    · exact hw.relocked
    · exact hw

theorem State.Inv.lockLost {n : Nat} {lanes : BitVec 16} {f : LockLoss} (h : s.Inv) : (s.lockLost n lanes f).Inv := by
  unfold State.lockLost
  extract_lets sh spared zero cdr ls
  split
  · split
    · exact h.relocked
    · exact h
  · exact .ite h (.ite h h.enterRelock)

theorem State.Inv.drawSearch {n : Nat} (h : s.Inv) : (s.drawSearch n).Inv := by
  unfold State.drawSearch
  refine h.each fun _ t ht => ?_
  split
  · exact ht
  · dsimp only
    exact ht.pick.pick.updShroud

theorem State.Inv.relockTimeout {n : Nat} (h : s.Inv) : (s.relockTimeout n).Inv := .ite h.drawSearch.failShroud h

theorem State.Inv.trackDfe {n : Nat} (h : s.Inv) : (s.trackDfe n).Inv := by
  unfold State.trackDfe
  split
  · exact h
  · refine h.each fun _ t ht => ?_
    split
    · exact ht
    · dsimp only
      exact ht.pick.updShroud

theorem State.Inv.alignPeriod {n : Nat} {p : AlignPeriod} {precode : BitVec 16} (h : s.Inv) : (s.alignPeriod n p precode).Inv :=
  .ite h (.ite h.updShroud.trackDfe.enterRelock h.updShroud.trackDfe)

theorem State.Inv.hdrErrBurst {n lane count : Nat} (h : s.Inv) : (s.hdrErrBurst n lane count).Inv := by
  unfold State.hdrErrBurst
  extract_lets sh l setLane t u
  have hset (x : State) (f : Lane → Lane) (hx : x.Inv) : (setLane x f).Inv := hx.updShroud
  have ht : t.Inv := hset _ _ h
  have hu : u.Inv := ht.raiseLimited fun _ _ ht => ht.updShroud
  exact .ite h (.ite ht (.ite (hset _ _ hu).logError hu))

theorem State.Inv.eyeDone {n lane : Nat} {f : EyeFacts} (h : s.Inv) : (s.eyeDone n lane f).Inv := .ite h h.updShroud.finishAll

theorem State.Inv.loopbackDone {n bits errors : Nat} (h : s.Inv) : (s.loopbackDone n bits errors).Inv := by
  unfold State.loopbackDone
  extract_lets sh
  split
  · exact h
  · exact .ite h h.updShroud.finishAll

theorem State.Inv.slRetrainBody {c : Cmd} (h : s.Inv) : (slRetrainBody c s).Inv := by
  unfold Machine.slRetrainBody
  extract_lets n force capturing t u
  have ht : t.Inv := h.accept.endLoopback
  have hu : u.Inv := ht.startTraining
  exact .ite h.badField (.ite h.fail (.ite hu.linkLossInProbation hu))

theorem State.Inv.slEyeScanBody {c : Cmd} (h : s.Inv) : (slEyeScanBody c s).Inv :=
  .ite h.badField (.ite h.badField h.updShroud.accept)

theorem State.Inv.slLoopbackBody {c : Cmd} (h : s.Inv) : (slLoopbackBody c s).Inv := by
  unfold Machine.slLoopbackBody
  extract_lets n lane us
  split
  · exact h.badField
  · split
    · exact h.badField
    · exact .ite h.badField (.ite h.fail h.noteReceived.updShroud.accept)

theorem State.Inv.slTrainLogBody {c : Cmd} (h : s.Inv) : (slTrainLogBody c s).Inv := .ite h.badField h.reply

theorem State.Inv.scpTransfer {c : Cmd} {write : Bool} {f : ScpFacts} (h : s.Inv) : (s.scpTransfer c write f).Inv := by
  unfold State.scpTransfer
  extract_lets p n count reg addr at_ t
  have ht : t.Inv := h.updSensor
  exact .ite h.badField (.ite h.badField (.ite h.badField (.ite h.badField (.ite h.fail
    (.ite h.updSensor (.ite h.scpFault.reply (.ite ht.out.ok ht.reply)))))))

/-! ## Landing -/

theorem State.Inv.skipReference {c : Nat} {q : BitVec 32} (h : s.Inv) : (s.skipReference c q).Inv := by
  unfold State.skipReference
  extract_lets ran t
  have ht : t.Inv := h.congr rfl
  split
  · exact h
  · exact .ite h (.ite ht.updSteep ht)

theorem State.Inv.supersede {c k : Nat} (h : s.Inv) : (s.supersede c k).Inv := h.each fun _ _ ht => ht.skipReference.mapJobs.updCtx

theorem State.Inv.takeSlot {c k : Nat} (h : s.Inv) : (s.takeSlot c k).Inv := h.updCtx

theorem State.Inv.chooseSlot {c mode : Nat} (h : s.Inv) : (s.chooseSlot c mode).2.Inv := by
  unfold State.chooseSlot
  extract_lets x
  split
  · exact .iteSnd h h.supersede.takeSlot
  · dsimp only
    split
    · exact (State.Inv.iteSnd h h.choose).takeSlot
    · exact .iteSnd h h.choose

theorem State.Inv.updOpen {sensor vc : Nat} {f : OpenFrame → OpenFrame} (h : s.Inv) : (s.updOpen sensor vc f).Inv := h.updSensor

theorem State.Inv.refusing {c : Nat} {flagged : Bool} {seq : BitVec 32} (h : s.Inv) : (s.refusing c flagged seq).Inv :=
  h.updCtx.raiseLimited fun _ _ ht => ht.updCtx

theorem State.Inv.setTrigger {c : Nat} {q : BitVec 32} {t : Nanos} {source fsNs : Nat} (h : s.Inv) : (s.setTrigger c q t source fsNs).Inv :=
  h.updCtx.raise

theorem State.Inv.trigger {c source : Nat} (h : s.Inv) : (s.trigger c source).2.Inv := by
  unfold State.trigger
  extract_lets x
  split
  · exact h
  · split
    · exact h
    · exact h.updCtx
    · exact h.updCtx
    · split
      · exact h.setTrigger
      · exact h.updCtx

theorem State.Inv.freeze {c : Nat} (h : s.Inv) : (s.freeze c).Inv := h.updCtx.raise

theorem State.Inv.snapDone {c : Nat} (h : s.Inv) : (s.snapDone c).Inv := h.updCtx.raise

theorem State.Inv.stopCapture {c : Nat} (h : s.Inv) : (s.stopCapture c).Inv := by
  unfold State.stopCapture
  extract_lets x t u
  have ht : t.Inv := h.updCtx
  have hu : u.Inv := ht.updCtx.raise
  exact .ite ht.freeze (.ite (.ite hu.snapDone hu) ht)

theorem State.Inv.storeRow {master addr w d row : Nat} {bytes : List Byte} (h : s.Inv) : (s.storeRow master addr w d row bytes).Inv :=
  h.each fun _ _ ht => ht.capWrite

theorem State.Inv.countLanded {n : Nat} (h : s.Inv) : (s.countLanded n).Inv := h.updLedger

theorem State.Inv.landBand {master : Nat} {f : Frame} {b : Nat} (h : s.Inv) : (s.landBand master f b).Inv :=
  ((h.each (fun _ _ ht => ht.storeRow)).each (fun _ _ ht => ht.capWrite)).countLanded

theorem State.Inv.fillRow {sensor vc row : Nat} {bytes : List Byte} {asPad : Bool} (h : s.Inv) :
    (s.fillRow sensor vc row bytes asPad).Inv := by
  unfold State.fillRow
  split
  · exact h
  · extract_lets hgt t o' done u
    have ht : t.Inv := h.updOpen
    have hu : u.Inv := .ite ht.updOpen ht
    split
    · exact hu
    · split
      · exact hu
      · exact .ite hu (.ite hu.storeRow.countLanded.landBand hu.storeRow.countLanded)

theorem State.Inv.tap {c row : Nat} {link payload : List Byte} (h : s.Inv) : (s.tap c row link payload).Inv := by
  unfold State.tap
  split
  · exact h
  · exact h.updSteep

theorem State.Inv.addFlicker {c : Nat} {q : BitVec 32} {gen form tNum tDen tRef : Nat} {first : BitVec 32} {tap : FlickTap}
    {fk : List Byte} (h : s.Inv) : (s.addFlicker c q gen form tNum tDen tRef first tap fk).Inv :=
  h.addFrameJob

theorem State.Inv.rowProfile {c : Nat} {f : Frame} {fk core : List Byte} (h : s.Inv) : (s.rowProfile c f fk core).Inv :=
  .ite h.updSteep h.updSteep.putRing.countLanded.addFlicker

theorem State.Inv.seriesSample {c : Nat} {f : Frame} {fk core : List Byte} (h : s.Inv) : (s.seriesSample c f fk core).Inv := by
  unfold State.seriesSample
  extract_lets period gap t x stride sum cnt full y u v
  have ht : t.Inv := .ite h.updSteep h
  have hu : u.Inv := ht.updSteep.countLanded
  have hv : v.Inv := hu.addFlicker
  exact .ite ht.updSteep (.ite hu hv.updSteep)

theorem State.Inv.landedSteep {c : Nat} {q : BitVec 32} (h : s.Inv) : (s.landedSteep c q).Inv := by
  unfold State.landedSteep
  split
  · exact h
  · extract_lets core t
    have ht : t.Inv := by
      unfold t
      dsimp only
      split
      · exact .ite ((State.Inv.ite h.rowProfile h).seriesSample) (.ite h.rowProfile h)
      · exact h
    exact ht.updSteep

theorem State.Inv.countFinal {c : Nat} {seq : BitVec 32} (h : s.Inv) : (s.countFinal c seq).Inv := by
  unfold State.countFinal
  extract_lets x
  split
  · exact h
  · exact .ite h.updFrame.updCtx h

theorem State.Inv.probationLanded {c opened : Nat} (h : s.Inv) : (s.probationLanded c opened).Inv := h.updCfg.probationCheck

theorem State.Inv.fenceDone (h : s.Inv) : s.fenceDone.Inv := h.updMem (by intro; rfl)

theorem State.Inv.closeRecord {o : OpenFrame} {q : BitVec 32} {w : BitVec 32} {cause : Nat} (h : s.Inv) :
    (s.closeRecord o q w cause).Inv := by
  unfold State.closeRecord
  extract_lets c mask x refuse t u v f snap x₁ x₂ x₃ x₄ x₅ y x₆
  have ht : t.Inv := .ite h.fenceDone h
  have hu : u.Inv := ht.updFrame
  have hv : v.Inv := .ite (hu.raiseLimited (fun _ _ ht => ht.updCtx)) hu
  have hx₁ : x₁.Inv := hv.updCtx
  have hx₂ : x₂.Inv := hv.updCtx
  have hx₃ : x₃.Inv := .ite hx₁.refusing (.ite hx₂.landedSteep.probationLanded hv)
  have hx₄ : x₄.Inv := hx₃.updCtx
  have hx₅ : x₅.Inv := .ite (.ite hx₄.snapDone hx₄) hx₃
  have hx₆ : x₆.Inv := hx₅.updCtx
  split
  · exact .ite (.ite hx₆.freeze hx₆) hx₅
  · exact hx₅

theorem State.Inv.closeFrame {sensor vc cause : Nat} (h : s.Inv) : (s.closeFrame sensor vc cause).Inv := by
  unfold State.closeFrame
  split
  · exact h
  · extract_lets hgt missing w row t u
    have ht : t.Inv := h.each fun _ _ ht => ht.fillRow
    have hu : u.Inv := ht.updSensor
    split
    · exact hu.closeRecord
    · exact hu

theorem State.Inv.startStop {c : Nat} (h : s.Inv) : (s.startStop c).Inv := by
  unfold State.startStop
  extract_lets x t
  have ht : t.Inv := h.updCtx.updSteep
  split
  · exact .ite h.stopCapture h
  · exact .ite h.stopCapture (.ite ht.raise h)

theorem State.Inv.stopTakes {c : Nat} (h : s.Inv) : (s.stopTakes c).Inv :=
  h.resize (by simp [State.shape, State.stopTakes]) rfl

theorem State.Inv.openRecord {c : Nat} {number : BitVec 32} {genReset : Bool} (h : s.Inv) : (s.openRecord c number genReset).2.2.Inv := by
  unfold State.openRecord
  extract_lets mode
  dsimp only
  split
  · split
    · exact h.chooseSlot.updCtx.updCtx.setTrigger
    · exact h.chooseSlot.updCtx.updCtx
  · exact h.chooseSlot.updCtx.updCtx.refusing.probationFail

theorem State.Inv.openFrame {sensor vc shroud : Nat} {number : BitVec 32} {c : Nat} (h : s.Inv) :
    (s.openFrame sensor vc shroud number c).Inv := by
  unfold State.openFrame
  have happlied := h.applyCtx (c := c)
  generalize s.applyCtx c = applied at happlied ⊢
  obtain ⟨types, u⟩ := applied
  dsimp -zeta only at happlied ⊢
  extract_lets stopped live link tapped o
  have hlive : live.Inv := happlied.startStop.stopTakes.goLive
  have htapped : tapped.Inv := .ite hlive.updSteep hlive
  have hplaced : (if tapped.givesSeq c then
      let (q, lands, v) := tapped.openRecord c number (types.contains 0x0201 || types.contains 0x0301)
      ({ o with seq := some q, lands := lands }, v)
    else if tapped.capturing c || (tapped.ctx c).st == .frozen then
      (o, tapped.updCtx c fun x => { x with counts := upd x.counts 4 (· + 1) })
    else (o, tapped)).2.Inv := .iteSnd htapped.openRecord (.iteSnd htapped.updCtx htapped)
  exact .ite hlive (.ite hplaced.updSensor.flagOpen hplaced.updSensor)

theorem State.Inv.unbound {sensor : Nat} (h : s.Inv) : (s.unbound sensor).Inv := h.updSensor

theorem State.Inv.fsCloses {shroud vc : Nat} {number : BitVec 32} (h : s.Inv) : (s.fsCloses shroud vc number).Inv := by
  unfold State.fsCloses
  extract_lets sensor
  split
  · exact h
  · split
    · exact .ite h h.closeFrame
    · exact h

theorem State.Inv.fs {shroud vc : Nat} {number : BitVec 32} (h : s.Inv) : (s.fs shroud vc number).Inv := by
  unfold State.fs
  extract_lets sensor t
  have ht : t.Inv := h.updSensor
  split
  · exact h
  · split
    · exact h.unbound
    · split
      · exact ht.updOpen
      · exact ht.openFrame

theorem State.Inv.stray {sensor : Nat} (h : s.Inv) : (s.stray sensor).Inv := h.updSensor

theorem State.Inv.fe {shroud vc : Nat} {number : BitVec 32} (h : s.Inv) : (s.fe shroud vc number).Inv := by
  unfold State.fe
  extract_lets sensor
  split
  · exact h
  · split
    · exact h.unbound
    · split
      · exact h.stray
      · extract_lets ofClosed t u
        have ht : t.Inv := .ite h.flagOpen h
        have hu : u.Inv := ht.updOpen
        exact .ite h.stray (.ite hu.closeFrame hu)

theorem State.Inv.checkPayload {sensor : Nat} {p : LongPacket} {line : Bool} (h : s.Inv) : (s.checkPayload sensor p line).Inv :=
  .ite h (.ite h.updSensor.flagOpen.flagOpen h.updSensor.flagOpen)

theorem State.Inv.drainFifo {shroud : Nat} (h : s.Inv) : (s.drainFifo shroud).Inv := h.updShroud

theorem State.Inv.enterFifo {shroud c bytes : Nat} (h : s.Inv) : (s.enterFifo shroud c bytes).2.Inv := by
  unfold State.enterFifo
  extract_lets t x recent u v w level x₁
  have ht : t.Inv := h.drainFifo
  have hu : u.Inv := ht.updShroud
  have hv : v.Inv := hu.updCtx
  have hw : w.Inv := hv.raiseLimited fun _ _ ht => ht.updShroud
  have hx₁ : x₁.Inv := ht.updShroud
  exact .iteSnd hw (State.Inv.iteSnd (hx₁.raiseLimited (fun _ _ ht => ht.updShroud)) hx₁)

theorem State.Inv.fillWindow {sensor vc m : Nat} (h : s.Inv) : (s.fillWindow sensor vc m).Inv := by
  unfold State.fillWindow
  split
  · exact h
  · exact h.each fun _ _ ht => ht.fillRow

theorem State.Inv.placeLine {sensor shroud : Nat} {p : LongPacket} {o : OpenFrame} (h : s.Inv) : (s.placeLine sensor shroud p o).Inv := by
  unfold State.placeLine
  extract_lets w d len k flag t u v data whole
  have hflag (x : State) (b : Nat) (hx : x.Inv) : (flag x b).Inv := hx.flagOpen
  have ht : t.Inv := .ite (hflag _ _ h) h
  have hu : u.Inv := .ite (hflag _ _ ht.updSensor) ht
  have hv : v.Inv := .ite (hflag _ _ hu.updSensor) hu
  have henter : (if o.lands then v.enterFifo shroud o.ctx len else (true, v)).2.Inv := .iteSnd hv.enterFifo hv
  refine .ite (hflag _ _ h) (.ite (hflag _ _ h) (.ite (hflag _ _ h) ?_))
  dsimp only
  refine .ite ?_ (State.Inv.ite henter.tap henter).fillRow.fillWindow
  split
  · exact henter.updFrame
  · exact henter

theorem State.Inv.markerLine {sensor shroud : Nat} {p : LongPacket} (h : s.Inv) : (s.markerLine sensor shroud p).Inv := h.updSensor

theorem State.Inv.noFrame {sensor : Nat} (h : s.Inv) : (s.noFrame sensor).Inv := h.updSensor

theorem State.Inv.line {shroud : Nat} {p : LongPacket} (h : s.Inv) : (s.line shroud p).Inv := by
  unfold State.line
  extract_lets sensor t u
  have ht : t.Inv := h.checkPayload
  have hu : u.Inv := ht.markerLine
  split
  · exact h
  · split
    · exact ht.unbound
    · split
      · exact ht.unbound
      · split
        · exact hu.noFrame
        · exact hu.placeLine

theorem State.Inv.placeEmbedded {sensor vc : Nat} {o : OpenFrame} {d : List Byte} {user : Bool} (h : s.Inv) :
    (s.placeEmbedded sensor vc o d user).Inv := by
  unfold State.placeEmbedded
  extract_lets room fitBytes t u v
  have ht : t.Inv := .ite h.flagOpen h
  have hu : u.Inv := ht.updOpen
  have hv : v.Inv := hu.countLanded
  split
  · exact hu
  · exact .ite hu (.ite hv.capWrite hv.capWrite)

theorem State.Inv.data {shroud : Nat} {p : LongPacket} {user : Bool} (h : s.Inv) : (s.data shroud p user).Inv := by
  unfold State.data
  extract_lets sensor t
  have ht : t.Inv := h.checkPayload
  split
  · exact h
  · split
    · exact ht.unbound
    · split
      · exact ht.unbound
      · split
        · exact ht.noFrame
        · exact ht.placeEmbedded

theorem State.Inv.mark {shroud vc line : Nat} {start : Bool} (h : s.Inv) : (s.mark shroud vc line start).Inv :=
  .ite h (.ite h.unbound (.ite h.updSensor h.updSensor))

theorem State.Inv.stat {shroud vc : Nat} {value : Word} (h : s.Inv) : (s.stat shroud vc value).Inv := by
  unfold State.stat
  extract_lets sensor recent t
  have ht : t.Inv := h.updSensor
  exact .ite h (.ite h.unbound (.ite ht.updSensor.raise ht))

theorem State.Inv.cutPacket {shroud : Nat} {cut : Option LongPacket} (h : s.Inv) : (s.cutPacket shroud cut).Inv := by
  unfold State.cutPacket
  split
  · exact h
  · exact .ite h.data (.ite h.data h.line)

theorem State.Inv.hdrCrc {shroud : Nat} {cut : Option LongPacket} (h : s.Inv) : (s.hdrCrc shroud cut).Inv :=
  .ite h h.cutPacket.updSensor.flagAll

theorem State.Inv.badHead {shroud : Nat} {cut : Option LongPacket} (h : s.Inv) : (s.badHead shroud cut).Inv :=
  .ite h h.cutPacket.updSensor

theorem State.Inv.frameTimeout {c cause : Nat} (h : s.Inv) : (s.frameTimeout c cause).Inv := by
  unfold State.frameTimeout
  split
  · exact h
  · extract_lets sensor vc
    split
    · exact .ite h.closeFrame h
    · exact h

theorem State.Inv.capStartBody {c : Cmd} (h : s.Inv) : (capStartBody c s).Inv := by
  unfold Machine.capStartBody
  split
  · exact h.badField
  · exact .ite h.fail ((h.each (fun _ _ ht => ht.updCtx)).ok)

theorem State.Inv.capStopBody {c : Cmd} (h : s.Inv) : (capStopBody c s).Inv := by
  unfold Machine.capStopBody
  split
  · exact h.badField
  · exact (h.each (fun _ _ ht => ht.updCtx)).ok

theorem State.Inv.triggerAll {cs : List Nat} {source : Nat} (h : s.Inv) : (s.triggerAll cs source).2.Inv :=
  State.Inv.foldl h fun _ _ hp => hp.trigger

theorem State.Inv.capTriggerBody {c : Cmd} (h : s.Inv) : (capTriggerBody c s).Inv := by
  unfold Machine.capTriggerBody
  split
  · exact h.badField
  · exact h.triggerAll.ok

theorem State.Inv.trigEdge {pin : Nat} {rising : Bool} {hold : Nat} (h : s.Inv) : (s.trigEdge pin rising hold).Inv :=
  .ite h h.triggerAll

theorem State.Inv.badCtx {c : Cmd} (h : s.Inv) : (s.badCtx c).Inv := h.reply

theorem State.Inv.capSnapBody {c : Cmd} (h : s.Inv) : (capSnapBody c s).Inv := by
  unfold Machine.capSnapBody
  extract_lets k n
  split
  · exact h.badCtx
  · exact .ite h.badField (.ite h.fail (.ite h.fail h.updCtx.ok))

theorem State.Inv.capFrameRecordBody {c : Cmd} (h : s.Inv) : (capFrameRecordBody c s).Inv :=
  .ite h.badCtx (.ite h.badField h.reply)

theorem State.Inv.capCountersBody {c : Cmd} (h : s.Inv) : (capCountersBody c s).Inv := .ite h.badCtx h.reply

/-! ## Steep -/

theorem State.Inv.reachTiles {master : Nat} {ts : List Tiles} (h : s.Inv) : (s.reachTiles master ts).Inv :=
  h.each (fun _ _ ht => ht.reach.reach.each (fun _ _ hu => hu.count))

theorem State.Inv.countMisses {f : JobFacts} {ts : List Tiles} {j : Job} (h : s.Inv) : (s.countMisses f ts j).Inv :=
  h.reachTiles.each fun _ _ ht => ht.tileMiss

theorem State.Inv.flagTiles {j : Job} {failed : Bool} (h : s.Inv) : (s.flagTiles j failed).Inv := by
  unfold State.flagTiles
  split
  · exact .ite h.updFrame h
  · exact h

theorem State.Inv.putTiles {master : Nat} {t : Tiles} {k : Nat} {ds : List (List Byte)} (h : s.Inv) : (s.putTiles master t k ds).Inv :=
  h.each fun _ _ ht => ht.capWrite.capWrite

theorem State.Inv.updDev {c : Nat} {q : BitVec 32} {f : FrameDev → FrameDev} (h : s.Inv) : (s.updDev c q f).Inv := h.congr rfl

theorem State.Inv.claimWork {c : Nat} {q : BitVec 32} (h : s.Inv) : (s.claimWork c q).Inv := by
  unfold State.claimWork
  split
  · exact h
  · exact .ite h h.choose.updDev

theorem State.Inv.beginDev {f : Frame} (h : s.Inv) : (s.beginDev f).Inv := .ite h (.ite (h.congr (by rfl)) (h.congr (by rfl)).updSteep)

theorem State.Inv.cutBand {d : FrameDev} {b cls : Nat} {deadline : Option Nanos} (h : s.Inv) : (s.cutBand d b cls deadline).Inv :=
  h.addFrameJob.updDev

theorem State.Inv.runBand {j : Job} {f : JobFacts} (h : s.Inv) : (s.runBand j f).2.Inv := by
  unfold State.runBand
  split
  · exact h
  · extract_lets b reads f' t whole zero lost n
    have ht : t.Inv := h.countMisses
    exact (State.Inv.ite ht.drawNat.putTiles.putTiles.updSteep ht.drawNat.putTiles).updDev.flagTiles

theorem State.Inv.bandEnded {j : Job} {ok : Bool} (h : s.Inv) : (s.bandEnded j ok).Inv := .ite h.updDev.updSteep h.updDev

theorem State.Inv.bandRetired {j : Job} (h : s.Inv) : (s.bandRetired j).Inv := by
  unfold State.bandRetired
  extract_lets c t
  have ht : t.Inv := h.updDev
  split
  · exact ht
  · exact .ite ht ht.putRing.updSteep

theorem State.Inv.flickEnded {j : Job} {outcome : BitVec 32} {refused : Bool} (h : s.Inv) : (s.flickEnded j outcome refused).Inv :=
  h.putRing.updSteep

/-! ## Mash -/

theorem State.Inv.updOut {c : Nat} {q : BitVec 32} {o : Nat} {f : OutFrame → OutFrame} (h : s.Inv) : (s.updOut c q o f).Inv := h.updDev

theorem State.Inv.claimOut {c : Nat} {q : BitVec 32} (h : s.Inv) : (s.claimOut c q).Inv := by
  unfold State.claimOut
  split
  · exact h
  · split
    · exact h
    · refine h.updDev.each fun _ t ht => ?_
      dsimp only
      split
      · exact ht.choose.updDev
      · exact ht.choose

theorem State.Inv.cutMash {d : FrameDev} {b cls : Nat} {deadline : Option Nanos} {streams : List (Nat × Nat)} (h : s.Inv) :
    (s.cutMash d b cls deadline streams).Inv :=
  h.addFrameJob.updDev

theorem State.Inv.cacheRead {c : Nat} {q : BitVec 32} {tiles : List Nat} {failed : Nat → Bool} (h : s.Inv) :
    (s.cacheRead c q tiles failed).Inv :=
  h.each (fun _ _ ht => .ite ((ht.congr (by rfl)).congr (by rfl)) ((ht.congr (by rfl)).congr (by rfl)))

theorem State.Inv.runMash {j : Job} {f : JobFacts} (h : s.Inv) : (s.runMash j f).2.Inv := by
  unfold State.runMash
  split
  · exact h
  · extract_lets c reads f' t u lost bad todo
    have ht : t.Inv := h.countMisses
    have hu : u.Inv := ht.cacheRead
    dsimp only
    refine State.Inv.flagTiles ?_
    refine State.Inv.updMash ?_
    refine State.Inv.updDev ?_
    split
    · exact hu.drawNat
    · refine hu.drawNat.each fun _ v hv => ?_
      split
      · exact hv
      · exact hv.putTiles

theorem State.Inv.mashEnd {j : Job} {ok : Bool} (h : s.Inv) : (s.mashEnd j ok).Inv := by
  unfold State.mashEnd
  extract_lets c
  split
  · exact h
  · extract_lets t
    have ht : t.Inv := h.updDev
    refine ht.each fun _ u hu => ?_
    dsimp only
    split
    · split
      · exact (State.Inv.ite hu.updOut.updDev.updMash hu.updOut.updDev).updMash
      · exact .ite hu.updOut.updDev.updMash hu.updOut.updDev
    · split
      · exact (State.Inv.ite hu.updOut.updDev.updMash hu.updOut.updDev).updMash
      · exact .ite hu.updOut.updDev.updMash hu.updOut.updDev

theorem State.Inv.mashRetired {j : Job} (h : s.Inv) : (s.mashRetired j).Inv := by
  unfold State.mashRetired
  extract_lets c t
  have ht : t.Inv := h.updDev
  split
  · exact ht
  · exact .ite ht ht.putRing.updMash

theorem State.Inv.drainLuts (h : s.Inv) : s.drainLuts.Inv := (h.congr (by rfl)).loadLuts

/-! ## Streams -/

theorem State.Inv.addUnit {n : Nat} {u : StreamUnit} (h : s.Inv) : (s.addUnit n u).Inv := h.updStream

theorem State.Inv.mapUnits {job : Nat} {f : StreamUnit → StreamUnit} (h : s.Inv) : (s.mapUnits job f).Inv :=
  h.resize (by simp [State.shape, State.mapUnits]) rfl

theorem State.Inv.endUnits {j : Job} {gap : Bool} {bytes : List Byte} {status : Nat} (h : s.Inv) : (s.endUnits j gap bytes status).Inv :=
  (h.each (fun _ _ ht => .ite ht ht.updStream)).mapUnits

/-! ## Encoders -/

theorem State.Inv.beginPicture {e number : Nat} (h : s.Inv) : (s.beginPicture e number).Inv := by
  unfold State.beginPicture
  extract_lets x
  split
  · exact h
  · extract_lets late blocks cause idr pos n p y taken
    have hplaced : (if y.codec = 1 then
        s.choose ((List.range (fld p.entry 16 1 + fld p.entry 5 1 + 1)).filter (fun k => !taken.contains k))
      else (none, s)).2.Inv := .iteSnd h.choose h
    exact .ite hplaced.updEnc.raise hplaced.updEnc

theorem State.Inv.updPic {e number : Nat} {f : Picture → Picture} (h : s.Inv) : (s.updPic e number f).Inv := h.updEnc

theorem State.Inv.updRow {e number k : Nat} {f : EncRow → EncRow} (h : s.Inv) : (s.updRow e number k f).Inv := h.updPic

theorem State.Inv.issueRow {j : Job} (h : s.Inv) : (s.issueRow j).Inv := by
  unfold State.issueRow
  extract_lets t x
  have ht : t.Inv := by
    unfold t
    split
    · exact h.beginPicture
    · exact h
  dsimp only
  split
  · exact ht
  · exact ht.updPic.updRow

theorem State.Inv.putRecon {j : Job} {p : Picture} {rows : List (List Nat)} (h : s.Inv) : (s.putRecon j p rows).Inv := by
  unfold State.putRecon
  split
  · exact h.putTiles
  · exact h

theorem State.Inv.runRow {j : Job} {f : JobFacts} (h : s.Inv) : (s.runRow j f).2.2.Inv := by
  unfold State.runRow
  extract_lets x src f' t lost u
  have ht : t.Inv := h.countMisses
  have hu : u.Inv := ht.flagTiles
  split
  · exact hu
  · split
    · exact hu
    · exact hu.updRow.putRecon

theorem State.Inv.loseRow {e number k status : Nat} (h : s.Inv) : (s.loseRow e number k status).Inv := by
  unfold State.loseRow
  extract_lets t u v
  have ht : t.Inv := h.beginPicture
  have hu : u.Inv := ht.updRow
  have hv : v.Inv := hu.updEnc
  split
  · exact ht
  · exact .ite hu (.ite hv.updEnc hv)

theorem State.Inv.rowEnded {j : Job} {status : Nat} (h : s.Inv) : (s.rowEnded j status).Inv := .ite h.updRow.loseRow h.updRow

theorem State.Inv.endPicture {e : Nat} {p : Picture} (h : s.Inv) : (s.endPicture e p).Inv := by
  unfold State.endPicture
  extract_lets x n size charge vmax v0 v clamped fl lost miss flags rec_ old hist mean t u
  have ht : t.Inv := h.updEnc
  have hu : u.Inv := .ite ht (ht.raiseLimited (fun _ _ ht => ht.updEnc))
  exact .ite (hu.raiseLimited (fun _ _ ht => ht.updEnc)) hu

theorem State.Inv.rowRetired {j : Job} (h : s.Inv) : (s.rowRetired j).Inv := by
  unfold State.rowRetired
  extract_lets t u
  have ht : t.Inv := h.updRow
  have hu : u.Inv := ht.updPic
  split
  · exact hu
  · exact .ite hu.endPicture hu

theorem State.Inv.newPicture {e : Nat} {f : Frame} {ent : List Byte} {type refresh poc : Nat} {isRef : Bool} (h : s.Inv) :
    (s.newPicture e f ent type refresh poc isRef).Inv :=
  h.updEnc

theorem State.Inv.cutRow {e : Nat} {p : Picture} {f : Frame} {k : Nat} (h : s.Inv) : (s.cutRow e p f k).Inv :=
  ((h.addFrameJob.each (fun _ _ ht => ht.addUnit)).updPic).updRow

theorem State.Inv.cutRows {e number : Nat} {f : Frame} {landed : Nat → Bool} (h : s.Inv) : (s.cutRows e number f landed).Inv := by
  unfold State.cutRows
  split
  · exact h
  · extract_lets todo now_
    refine h.each fun _ t ht => ?_
    split
    · exact ht.cutRow
    · exact ht

theorem State.Inv.cutGop {e c fuel : Nat} {last : Bool} (h : s.Inv) : (s.cutGop e c last fuel).Inv := by
  induction fuel generalizing s with
  | zero => exact h
  | succ fuel ih =>
    unfold State.cutGop
    dsimp only
    split
    · exact h
    · split
      · exact ih h.updEnc
      · refine .ite (ih h.newPicture.updEnc) (.ite h (ih (State.Inv.updEnc (h.each fun _ t ht => ?_))))
        split
        · exact ht.newPicture
        · exact ht

theorem State.Inv.encForceIrapBody {c : Cmd} (h : s.Inv) : (encForceIrapBody c s).Inv := by
  unfold Machine.encForceIrapBody
  extract_lets e
  split
  · exact h.updEnc.ok
  · exact h.badField

theorem State.Inv.encPictureRecordBody {c : Cmd} (h : s.Inv) : (encPictureRecordBody c s).Inv :=
  .ite h.badField (.ite h.badField h.reply)

/-! ## Recording -/

theorem State.Inv.addRec {n kind : Nat} {u : Option StreamUnit} {opened : List Byte} (h : s.Inv) : (s.addRec n kind u opened).Inv :=
  h.addUnitJob.updStream

theorem State.Inv.rawPayload {t : Stream} {u : StreamUnit} {f : JobFacts} {j : Job} (h : s.Inv) : (s.rawPayload t u f j).2.2.2.Inv := by
  unfold State.rawPayload
  split
  · exact h
  · dsimp only
    refine State.Inv.reach ?_
    split
    · exact .ite h.countMisses (h.countMisses.each (fun _ _ ht => ht.putTiles))
    · exact (State.Inv.ite h.countMisses (h.countMisses.each (fun _ _ ht => ht.putTiles))).updFrame

theorem State.Inv.runCask {j : Job} {f : JobFacts} (h : s.Inv) : (s.runCask j f).2.Inv := by
  unfold State.runCask
  extract_lets n t
  split
  · exact h
  · dsimp only
    refine .ite (State.Inv.closeSegment ?sealed) ?sealed
    refine State.Inv.updStream (State.Inv.absorbAll ?_)
    split
    · exact h
    · exact h
    · split
      · exact h.rawPayload
      · exact h
    · exact h

theorem State.Inv.recordUnit {n : Nat} {u : StreamUnit} (h : s.Inv) : (s.recordUnit n u).Inv :=
  .ite h (.ite h.updStream.addRec.probationFail h.updStream.addRec)

theorem State.Inv.stall {n cause : Nat} (h : s.Inv) : (s.stall n cause).Inv := .ite h (.ite h.updStream h.updStream.raise)

theorem State.Inv.keepStripe {n : Nat} {z : Stripe} (h : s.Inv) : (s.keepStripe n z).Inv := by
  unfold State.keepStripe
  dsimp only
  refine State.Inv.updStream (State.Inv.foldl h fun _ _ hp => ?_)
  exact hp.addUnitJob

theorem State.Inv.grantLow {n : Nat} {placed : Bool} (h : s.Inv) : (s.grantLow n placed).Inv :=
  .ite h.updStream (.ite h.raise.updStream h)

theorem State.Inv.placeStripe {n index : Nat} {d : List Byte} {relocated final : Bool} (h : s.Inv) :
    (s.placeStripe n index d relocated final).Inv := by
  unfold State.placeStripe
  extract_lets t step
  split
  · exact h
  · exact h.updStream.keepStripe.grantLow

theorem State.Inv.formStripes {n fuel : Nat} (h : s.Inv) : (s.formStripes n fuel).Inv := by
  induction fuel generalizing s with
  | zero => exact h
  | succ fuel ih =>
    unfold State.formStripes
    exact .ite h (ih h.placeStripe.updStream)

theorem State.Inv.placeSeals {n fuel : Nat} (h : s.Inv) : (s.placeSeals n fuel).Inv := by
  induction fuel generalizing s with
  | zero => exact h
  | succ fuel ih =>
    unfold State.placeSeals
    dsimp only
    split
    · exact h
    · split
      · exact h
      · split
        · exact h
        · exact ih h.updStream.keepStripe

theorem State.Inv.report {n : Nat} {zs : List Stripe} (h : s.Inv) : (s.report n zs).Inv := by
  unfold State.report
  extract_lets t runs u
  have hu : u.Inv := h.each fun _ _ ht => ht.updNv
  exact .ite hu (hu.raiseLimited (fun _ _ ht => ht.updStream))

theorem State.Inv.reportDurable {n : Nat} (h : s.Inv) : (s.reportDurable n).Inv := .ite h h.report.updStream

theorem State.Inv.nvmePost {p op n : Nat} {isS : Bool} {job tries nsid : Nat} (h : s.Inv) : (s.nvmePost p op n isS job tries nsid).Inv :=
  (h.congr (by rfl)).updPort.updDrive

theorem State.Inv.nvmeCmd {p op n : Nat} {isS : Bool} {job tries nsid lba lbas : Nat} {data : List Byte} (h : s.Inv) :
    (s.nvmeCmd p op n isS job tries nsid lba lbas data).Inv :=
  h.nvmePost.out

theorem State.Inv.mapPieces {n : Nat} {f : Stripe → Piece → Piece} (h : s.Inv) : (s.mapPieces n f).Inv := h.updStream

theorem State.Inv.startWrite {j : Job} {tries : Nat} (h : s.Inv) : (s.startWrite j tries).Inv := h.nvmeCmd

theorem State.Inv.flush {n p : Nat} (h : s.Inv) : (s.flush n p).Inv :=
  .ite h ((h.each (fun _ _ ht => ht.mapPieces.updStream)).nvmeCmd)

theorem State.Inv.flushAll {n : Nat} (h : s.Inv) : (s.flushAll n).Inv := h.each (fun _ _ ht => .ite ht.flush ht)

theorem State.Inv.relocate {n p : Nat} (h : s.Inv) : (s.relocate n p).2.Inv := by
  unfold State.relocate
  extract_lets t zs ids hit u v w x₁ x₂ x₃
  have hu : u.Inv := h.updStream
  have hv : v.Inv := hu.mapJobs
  have hw : w.Inv := by
    unfold w
    refine hv.each fun _ x₄ hx₄ => ?_
    split
    · exact hx₄.probationFail
    · exact hx₄
  have hx₁ : x₁.Inv := hw.congr (by rfl)
  have hx₂ : x₂.Inv := hx₁.updDrive
  have hx₃ : x₃.Inv := hx₂.each (fun _ _ ht => .ite ht.updStream ht.updStream)
  exact hx₃

theorem State.Inv.placeAgain {n : Nat} (h : s.Inv) : (s.placeAgain n).Inv :=
  h.each (fun _ _ ht => .ite ht ht.updStream.placeStripe)

theorem State.Inv.relocateAll {p : Nat} (h : s.Inv) : (s.relocateAll p).2.Inv :=
  State.Inv.foldl h fun _ _ hp => hp.relocate

theorem State.Inv.driveFault {p status : Nat} (h : s.Inv) : (s.driveFault p status).Inv := by
  unfold State.driveFault
  dsimp only
  exact h.relocateAll.raise.logError

theorem State.Inv.failAtDrive {p : Nat} (h : s.Inv) : (s.failAtDrive p).Inv := h.each fun _ _ ht => ht.finish

theorem State.Inv.portReset {p : Nat} {fault : Option Nat} (h : s.Inv) : (s.portReset p fault).Inv := by
  unfold State.portReset
  extract_lets t u
  have ht : t.Inv := h.updDrive
  have hu : u.Inv := by
    unfold u
    split
    · exact ht.driveFault
    · exact ht.relocateAll
  exact hu.updDrive.failAtDrive

theorem State.Inv.writesDurable {n id : Nat} (h : s.Inv) : (s.writesDurable n id).Inv := by
  unfold State.writesDurable
  extract_lets t ids u v new
  have hu : u.Inv := h.mapPieces
  have hv : v.Inv := by
    unfold v
    refine hu.each fun _ w hw => ?_
    split
    · exact hw.completeJob
    · exact hw
  exact hv.updStream.reportDurable

theorem State.Inv.dropRecs {n : Nat} (h : s.Inv) : (s.dropRecs n).Inv := by
  unfold State.dropRecs
  extract_lets t size safe done u
  have hu : u.Inv := by
    unfold u
    split
    · refine h.each fun _ v hv => ?_
      split
      · exact .ite hv.updFrame hv
      · exact hv
    · exact h
  exact hu.updStream

theorem State.Inv.closeTake {n : Nat} (h : s.Inv) : (s.closeTake n).Inv := .ite h.updStream.addRec h

theorem State.Inv.endTake {n : Nat} (h : s.Inv) : (s.endTake n).Inv :=
  .ite h (.ite h.flushAll h.flushAll.updStream.raise.finishAll)

theorem State.Inv.stopIdle {n : Nat} (h : s.Inv) : (s.stopIdle n).Inv := .ite h.updStream h

theorem State.Inv.pumpRevoke {n : Nat} (h : s.Inv) : (s.pumpRevoke n).Inv :=
  h.each (fun _ _ ht => .ite ht.finish (ht.each (fun _ _ hu => hu.flush)))

theorem State.Inv.pumpRecord {n : Nat} (h : s.Inv) : (s.pumpRecord n).Inv := by
  unfold State.pumpRecord
  extract_lets t u v w x₁
  have ht : t.Inv := h.pumpRevoke
  have hu : u.Inv := ht.stopIdle.closeTake.reportDurable
  have hv : v.Inv := hu.placeAgain.placeSeals
  have hw : w.Inv := hv.formStripes
  have hx₁ : x₁.Inv := .ite hw.stall.grantLow hw
  exact .ite hx₁.dropRecs.endTake ht

/-! ## Drive ports -/

theorem State.Inv.openTake {n : Nat} (h : s.Inv) : (s.openTake n).Inv := by
  unfold State.openTake
  extract_lets t no key u v start w x₁ x₂
  have hu : u.Inv := .ite (h.congr (by rfl)) h
  have hv : v.Inv := hu.updNv
  have hw : w.Inv := hv.updStream
  have hx₁ : x₁.Inv := hw.addSealRec
  have hx₂ : x₂.Inv := .ite hx₁.makeKeyRecord.addSealRec hx₁
  exact hx₂.addRec.raise

theorem State.Inv.recStartBody {c : Cmd} (h : s.Inv) : (recStartBody c s).Inv :=
  .ite h.badField (.ite h.fail (.ite h.fail h.openTake.ok))

theorem State.Inv.recStopBody {c : Cmd} (h : s.Inv) : (recStopBody c s).Inv :=
  .ite h.badField (.ite h.ok (.ite h.fail h.accept.updStream))

theorem State.Inv.recGrantBody {c : Cmd} (h : s.Inv) : (recGrantBody c s).Inv := by
  unfold Machine.recGrantBody
  extract_lets p n k t first u
  have hu : u.Inv := h.congr rfl
  split
  · exact h.badField
  · split
    · exact h.badField
    · split
      · exact h.badField
      · split
        · exact h.badField
        · exact .ite h.fail hu.updStream.ok

theorem State.Inv.recRevokeBody {c : Cmd} (h : s.Inv) : (recRevokeBody c s).Inv :=
  .ite h.badField (.ite h.badField h.updStream.accept)

theorem State.Inv.recReportBody {c : Cmd} (h : s.Inv) : (recReportBody c s).Inv :=
  .ite h.badField (.ite h.badField h.reply)

theorem State.Inv.recAckBody {c : Cmd} (h : s.Inv) : (recAckBody c s).Inv := .ite h.badField h.updNv.ok

theorem State.Inv.setArgs {e : ExecCmd} {a : List Nat} (h : s.Inv) : (s.setArgs e a).Inv := h.updNcp (by intro; rfl)

theorem State.Inv.sendHost {e : ExecCmd} {data : List Byte} (h : s.Inv) : (s.sendHost e data).Inv :=
  (State.Inv.ite h.nvmePost.out h.nvmeCmd).setArgs

theorem State.Inv.pumpHost {p : Nat} (h : s.Inv) : (s.pumpHost p).Inv :=
  h.each (fun _ _ ht => .ite ht (.ite ht.setArgs.out ht.sendHost))

theorem State.Inv.startHost {c : Cmd} {port : Nat} (h : s.Inv) : (s.startHost c port).Inv := h.accept.pumpHost

theorem State.Inv.recAdminBody {c : Cmd} (h : s.Inv) : (recAdminBody c s).Inv := by
  unfold Machine.recAdminBody
  extract_lets p port
  split
  · exact h.badField
  · exact .ite h.badField (.ite h.fail (.ite h.fail h.startHost))

theorem State.Inv.recIoBody {c : Cmd} (h : s.Inv) : (recIoBody c s).Inv := by
  unfold Machine.recIoBody
  extract_lets p port op n
  split
  · exact h.badField
  · split
    · exact h.badField
    · exact .ite h.fail (.ite h.badField (.ite h.badField h.startHost))

theorem State.Inv.hostDone {e : ExecCmd} {f : NvmeFacts} (h : s.Inv) : (s.hostDone e f).Inv := by
  unfold State.hostDone
  extract_lets p res
  split
  · exact .ite h.setArgs h.finish
  · exact .ite h.finish (.ite h.setArgs h.finish)

theorem State.Inv.hostCopied {e : ExecCmd} {whole : Bool} {data : List Byte} (h : s.Inv) : (s.hostCopied e whole data).Inv := by
  unfold State.hostCopied
  extract_lets stage a t
  have ht : t.Inv := h.dmaOut
  split
  · exact h
  · exact .ite h.finish (.ite (.ite h.sendHost h.finish) ht.finish)

theorem State.Inv.bringUp {p : Nat} (h : s.Inv) : (s.bringUp p).Inv := h.updDrive.nvmeCmd

theorem State.Inv.portEnds {p : Nat} {ok : Bool} (h : s.Inv) : (s.portEnds p ok).Inv := h.updDrive.finishAll

theorem State.Inv.recPortResetBody {c : Cmd} (h : s.Inv) : (recPortResetBody c s).Inv :=
  .ite h.badField (.ite h.accept.finishAll h.accept.portReset)

theorem State.Inv.writeDone {p : Nat} {x : NvmeCmd} {f : NvmeFacts} (h : s.Inv) : (s.writeDone p x f).Inv := by
  unfold State.writeDone
  split
  · exact .ite (h.mapPieces.congr (by rfl)).count.updStream.flush (h.mapPieces.congr (by rfl)).count.updStream
  · split
    · extract_lets t
      have ht : t.Inv := h.updDrive
      split
      · exact ht.startWrite
      · exact ht
    · exact h.updStream.driveFault

theorem State.Inv.hostEnds {p : Nat} {x : NvmeCmd} {f : NvmeFacts} (h : s.Inv) : (s.hostEnds p x f).Inv := by
  unfold State.hostEnds
  split
  · exact h
  · exact .ite h.updDrive.sendHost.updDrive h.hostDone

theorem State.Inv.nextNamespace {p k : Nat} (h : s.Inv) : (s.nextNamespace p k).Inv := .ite h.nvmeCmd h.portEnds

theorem State.Inv.identified {p : Nat} {x : NvmeCmd} {f : NvmeFacts} (h : s.Inv) : (s.identified p x f).Inv := by
  unfold State.identified
  split
  · exact h
  · split
    · exact .ite h.updDrive.nextNamespace h.portEnds
    · exact .ite h.portEnds h.updDrive.nextNamespace

theorem State.Inv.nvmeDone {p : Nat} {f : NvmeFacts} (h : s.Inv) : (s.nvmeDone p f).Inv := by
  unfold State.nvmeDone
  split
  · exact h
  · split
    · exact h.portReset
    · extract_lets t u
      have ht : t.Inv := h.updDrive
      have hu : u.Inv := by
        unfold u
        split
        · exact ht.writeDone
        · exact .ite (ht.each (fun _ _ ht => ht.writesDurable)) ht.portReset
        · exact ht.identified
        · exact ht.identified
        · exact ht.hostEnds
      exact hu.pumpHost

theorem State.Inv.nvmeTimeout {p : Nat} (h : s.Inv) : (s.nvmeTimeout p).Inv := .ite h h.updDrive.portReset

theorem State.Inv.resetDone {p : Nat} {ok : Bool} (h : s.Inv) : (s.resetDone p ok).Inv :=
  .ite h (.ite h.portEnds.driveFault (.ite h.bringUp h.portEnds))

/-! ## Flex lanes and the host link -/

theorem State.Inv.linkUp {y k : Nat} {port : Option Nat} {rate width micros : Nat} (h : s.Inv) :
    (s.linkUp y k port rate width micros).Inv :=
  h.raise

theorem State.Inv.linkDown {y k : Nat} {port : Option Nat} {st : Nat} (h : s.Inv) : (s.linkDown y k port st).Inv := h.raise

theorem State.Inv.applySlot {y k : Nat} {old new : Option (List Byte)} (h : s.Inv) : (s.applySlot y k old new).Inv := by
  unfold State.applySlot
  split
  · exact h
  · extract_lets x fresh fresh' t p rootThen rootNow u v
    have ht : t.Inv := h.updPort
    have hu : u.Inv := .ite ht.drivePins ht
    have hv : v.Inv := .ite hu.updDrive hu
    exact .ite hv.linkDown hv

theorem State.Inv.applyYard {y : Nat} {new : Option (List Byte)} (h : s.Inv) : (s.applyYard y new).Inv := by
  unfold State.applyYard
  extract_lets old mode t u
  have ht : t.Inv := h.congr rfl
  have hu : u.Inv := .ite ht ht.drivePins
  exact .ite h (hu.each (fun _ _ ht => ht.applySlot))

theorem State.Inv.updSdi (h : s.Inv) : s.updSdi.Inv := by
  unfold State.updSdi
  extract_lets want
  refine h.each fun _ t ht => ?_
  extract_lets x now old u
  have hu : u.Inv := ht.congr (by rfl)
  exact hu.each (fun _ _ ht => .ite ht.linkUp (.ite ht.linkDown ht))

theorem State.Inv.applyFlex {p : List Byte} (h : s.Inv) : (s.applyFlex p).Inv := (h.each (fun _ _ ht => ht.applyYard)).updSdi

theorem State.Inv.perstRelease {p : Nat} (h : s.Inv) : (s.perstRelease p).Inv := .ite h h.updPort

theorem State.Inv.retrainEnds {y k : Nat} {ok : Bool} (h : s.Inv) : (s.retrainEnds y k ok).Inv := h.finishAll

theorem State.Inv.countRetrain {y k : Nat} (h : s.Inv) : (s.countRetrain y k).2.Inv := h.updPort

theorem State.Inv.testScan {y k : Nat} (h : s.Inv) : (s.testScan y k).Inv := .ite h.updPort h

theorem State.Inv.linkActive {p : Nat} {f : LinkFacts} (h : s.Inv) : (s.linkActive p f).Inv := by
  unfold State.linkActive
  extract_lets y k x e training short fresh t u v w x₁ x₂
  have ht : t.Inv := h.updPort
  have hu : u.Inv := .ite ht.linkUp ht
  have hv : v.Inv := hu.updPort.testScan
  have hw : w.Inv := .ite hv.raise hv
  have hx₁ : x₁.Inv := hw.updDrive
  have hx₂ : x₂.Inv := hx₁.retrainEnds
  exact .ite h (.ite hu.updPort (.ite hx₂.bringUp hx₂))

theorem State.Inv.retryDetect {p : Nat} (h : s.Inv) : (s.retryDetect p).Inv := by
  unfold State.retryDetect
  extract_lets y k x
  split
  · exact h
  · exact .ite h.countRetrain.updPort.retrainEnds (.ite h.updPort h)

theorem State.Inv.rootDown {p st : Nat} (h : s.Inv) : (s.rootDown p st).Inv := .ite h.updPort.linkDown.portReset h.updPort.linkDown

theorem State.Inv.rootLinkDown {p : Nat} (h : s.Inv) : (s.rootLinkDown p).Inv := .ite h.rootDown h

theorem State.Inv.recoveryTimeout {p : Nat} (h : s.Inv) : (s.recoveryTimeout p).Inv := .ite h h.countRetrain.rootDown.retrainEnds

theorem State.Inv.recoveryEntry {p : Nat} (h : s.Inv) : (s.recoveryEntry p).Inv := .ite h.updEp (.ite h.updPort h)

theorem State.Inv.l1Entry {p : Nat} (h : s.Inv) : (s.l1Entry p).Inv := .ite h.updPort h

theorem State.Inv.ethDown {p : Nat} (h : s.Inv) : (s.ethDown p).Inv := by
  unfold State.ethDown
  split
  · exact h
  · exact .ite h h.updPort.linkDown

theorem State.Inv.ethUp {p micros : Nat} (h : s.Inv) : (s.ethUp p micros).Inv := by
  unfold State.ethUp
  split
  · exact h
  · exact .ite h h.updPort.testScan.linkUp.retrainEnds

theorem State.Inv.epActive {f : EpFacts} (h : s.Inv) : (s.epActive f).Inv := by
  unfold State.epActive
  extract_lets st t u
  have ht : t.Inv := h.updEp
  have hu : u.Inv := .ite ht.linkUp ht
  exact .ite h (.ite (hu.each (fun _ _ ht => ht.unmask)) hu)

theorem State.Inv.retrainLimits (h : s.Inv) : s.retrainLimits.Inv := h.each fun _ _ ht => ht.retrainEnds

theorem State.Inv.trainPort {y k : Nat} (h : s.Inv) : (s.trainPort y k).Inv := by
  unfold State.trainPort
  extract_lets x mode
  split
  · exact h
  · split
    · exact h.drawNat.updPort
    · exact .ite (.ite h.drawNat.updPort h.drawNat) h

theorem State.Inv.trainLinks (h : s.Inv) : s.trainLinks.Inv := by
  unfold State.trainLinks
  extract_lets t
  have ht : t.Inv := .ite h.drawNat.updEp h
  exact ht.each (fun _ _ ht => .ite ht (ht.each (fun _ _ hu => hu.trainPort)))

theorem State.Inv.flexErrors {y k corr unc : Nat} (h : s.Inv) : (s.flexErrors y k corr unc).Inv := by
  unfold State.flexErrors
  extract_lets raised last old
  dsimp only
  split
  · exact .ite h.drawNat.updEp h.drawNat.updEp.updEp.raise.logError
  · exact .ite h.updPort h.updPort.updPort.raise.logError

theorem State.Inv.marginScan (h : s.Inv) : s.marginScan.Inv := by
  unfold State.marginScan
  extract_lets t
  have ht : t.Inv := h.updEp
  exact ht.congr (by rfl)

theorem State.Inv.marginDone {y k : Nat} {f : MarginFacts} (h : s.Inv) : (s.marginDone y k f).Inv :=
  .ite h ((State.Inv.ite h.updEp h.updPort).finishAll)

theorem State.Inv.flxLinkInfoBody {c : Cmd} (h : s.Inv) : (flxLinkInfoBody c s).Inv := by
  unfold Machine.flxLinkInfoBody
  extract_lets y k on
  split
  · exact h.badField
  · split
    · exact .ite h.badField h.ok
    · exact .ite (.ite h.badField h.ok) (.ite h.badField h.ok)

theorem State.Inv.flxMarginBody {c : Cmd} (h : s.Inv) : (flxMarginBody c s).Inv := by
  unfold Machine.flxMarginBody
  extract_lets y k st t
  have ht : t.Inv := h.accept
  split
  · exact h.badField
  · exact .ite h.badField (.ite ht.finishAll (.ite ht.updEp ht.updPort))

theorem State.Inv.flxRetrainBody {c : Cmd} (h : s.Inv) : (flxRetrainBody c s).Inv := by
  unfold Machine.flxRetrainBody
  extract_lets y k x t u
  have ht : t.Inv := h.accept
  have hu : u.Inv := ht.updPort
  split
  · exact h.badField
  · split
    · exact h.badField
    · exact .ite (.ite hu.linkDown hu) (.ite ht.retrainEnds ht.updPort)

/-! ## Trust -/

theorem State.Inv.trsMusterBody {c : Cmd} (h : s.Inv) : (trsMusterBody c s).Inv := by
  unfold Machine.trsMusterBody
  split
  · exact h.fail
  · extract_lets t body
    have ht : t.Inv := h.accept
    dsimp only
    exact ht.sign.finishAll

theorem State.Inv.trsCertBody {c : Cmd} (h : s.Inv) : (trsCertBody c s).Inv := by
  unfold Machine.trsCertBody
  extract_lets kind
  split
  · exact h.badField
  · split
    · exact h.fail
    · exact h.reply

theorem State.Inv.fuseEnd {w : FuseWork} (h : s.Inv) : (s.fuseEnd w).Inv := by
  unfold State.fuseEnd
  extract_lets next t u
  have ht : t.Inv := h.updTrust
  have hu : u.Inv := by
    unfold u
    split
    · exact ht.raise.ok
    · exact ht.raise.ok
  exact hu.sweepList

theorem State.Inv.fuseStep (h : s.Inv) : s.fuseStep.Inv := by
  unfold State.fuseStep
  split
  · exact h
  · split
    · exact h.fuseEnd
    · exact .ite h.updNv.updTrust.fuseEnd h.updNv.updTrust

theorem State.Inv.fuseSteps {n : Nat} (h : s.Inv) : (s.fuseSteps n).Inv := by
  induction n generalizing s with
  | zero => exact h
  | succ n ih => exact ih h.fuseStep

theorem State.Inv.fuseFinish (h : s.Inv) : s.fuseFinish.Inv := by
  unfold State.fuseFinish
  split
  · exact h
  · exact h.fuseSteps

theorem State.Inv.fuse {c : Cmd} {goal : FuseGoal} (h : s.Inv) : (s.fuse c goal).Inv := h.updTrust

theorem State.Inv.trsOwnerEnrolBody {c : Cmd} (h : s.Inv) : (trsOwnerEnrolBody c s).Inv := by
  unfold Machine.trsOwnerEnrolBody
  extract_lets t p slot key f current
  have ht : t.Inv := h.fuseFinish
  split
  · exact ht.badField
  · split
    · exact ht.fail
    · split
      · exact ht.updNv.ok
      · split
        · exact ht.fail
        · split
          · exact ht.badField
          · split
            · exact ht.fuse
            · extract_lets msg
              split
              · exact .ite ht.fuse ht.fail
              · exact ht.fail

theorem State.Inv.trsFwBeginBody {c : Cmd} (h : s.Inv) : (trsFwBeginBody c s).Inv := by
  unfold Machine.trsFwBeginBody
  extract_lets kind total t
  have ht : t.Inv := h.updNv
  exact .ite h.badField (.ite h.badField (.ite h.fail ht.updTrust.ok))

theorem State.Inv.trsFwDataBody {c : Cmd} (h : s.Inv) : (trsFwDataBody c s).Inv := by
  unfold Machine.trsFwDataBody
  extract_lets d
  split
  · exact h.badField
  · exact .ite h.badField h.updTrust.ok

theorem State.Inv.trsFwEndBody {c : Cmd} (h : s.Inv) : (trsFwEndBody c s).Inv := by
  unfold Machine.trsFwEndBody
  extract_lets t u k
  have ht : t.Inv := h.accept
  have hu : u.Inv := ht.updTrust
  split
  · exact ht.finishAll
  · exact .ite hu.finishAll (.ite hu.finishAll hu.updNv.raise.finishAll)

theorem State.Inv.trsFwActivateBody {c : Cmd} (h : s.Inv) : (trsFwActivateBody c s).Inv := by
  unfold Machine.trsFwActivateBody
  extract_lets now t
  have ht : t.Inv := h.updNv.ok
  split
  · exact h.fail
  · exact .ite h.fail (.ite h.fail (.ite ht.askWarm.closeSegments ht))

theorem State.Inv.trsFwConfirmBody {c : Cmd} (h : s.Inv) : (trsFwConfirmBody c s).Inv := .ite h.badField h.updNv.updTrust.ok

theorem State.Inv.trsSvnCommitBody {c : Cmd} (h : s.Inv) : (trsSvnCommitBody c s).Inv :=
  .ite h.fuseFinish.badField (.ite h.fuseFinish.fail h.fuseFinish.fuse)

theorem State.Inv.trsRecipientsBody {c : Cmd} (h : s.Inv) : (trsRecipientsBody c s).Inv := by
  unfold Machine.trsRecipientsBody
  extract_lets p n r keys
  split
  · exact h.badField
  · split
    · exact h.badField
    · split
      · exact h.badField
      · exact h.updStream.ok

theorem State.Inv.trsDebugChallengeBody {c : Cmd} (h : s.Inv) : (trsDebugChallengeBody c s).Inv := (h.congr (by rfl)).updTrust.reply

theorem State.Inv.trsDebugUnlockBody {c : Cmd} (h : s.Inv) : (trsDebugUnlockBody c s).Inv := by
  unfold Machine.trsDebugUnlockBody
  extract_lets ch t u l
  clear_value ch
  have ht : t.Inv := h.updTrust
  have hu : u.Inv := ht.drivePins.updTrust
  refine .ite h.fail (.ite h.fail ?_)
  split
  · exact ht.fail
  · exact .ite ht.fail hu.raise.ok

/-! ## Time bases -/

theorem State.Inv.changeBase {b : Nat} {f : Base → Base} (h : s.Inv) : (s.changeBase b f).Inv :=
  h.updBase.each (fun _ _ ht => .ite ht ht.raise)

theorem State.Inv.setBaseSt {b : Nat} {st : BaseSt} (h : s.Inv) : (s.setBaseSt b st).Inv := h.changeBase

theorem State.Inv.crossMatches {b : Nat} {old new : Int} (h : s.Inv) : (s.crossMatches b old new).Inv := by
  unfold State.crossMatches
  refine h.each fun _ t ht => ?_
  split
  · exact .ite (.ite ht.updObs.halTrigger ht.updObs) ht
  · exact ht

theorem State.Inv.touchStep {b cause : Nat} {step : Rat} (h : s.Inv) : (s.touchStep b cause step).Inv := by
  unfold State.touchStep
  extract_lets isOpen mark t
  have ht : t.Inv := h.resize (by simp [t, State.shape]) rfl
  exact ht.discontinuity

theorem State.Inv.moveBase {b : Nat} {d : Rat} (h : s.Inv) : (s.moveBase b d).Inv := h.updBase.crossMatches

theorem State.Inv.rephase {d : Rat} {whole : Bool} (h : s.Inv) : (s.rephase d whole).Inv := h.updBase.raise

theorem State.Inv.stepBase {b cause : Nat} {d : Rat} (h : s.Inv) : (s.stepBase b cause d).Inv :=
  (State.Inv.ite h.moveBase.raise.rephase h.moveBase.raise).touchStep

theorem State.Inv.residualZero (h : s.Inv) : s.residualZero.Inv := .ite h h.updBase.raise

theorem State.Inv.holdover {b : Nat} (h : s.Inv) : (s.holdover b).Inv := .ite h.changeBase h

theorem State.Inv.servo {b : Nat} {theta : Rat} (h : s.Inv) : (s.servo b theta).Inv := by
  unfold State.servo
  extract_lets x tbv first t abs u v ready w gap integral lim a run st st'
  have ht : t.Inv := h.updBase
  have hu : u.Inv := .ite ht.changeBase ht
  have hv : v.Inv := hu.updBase
  have hw : w.Inv := .ite hv.changeBase hv
  exact .ite (.ite hv.updBase.rephase hw.stepBase) hu.changeBase

theorem State.Inv.tbvUpdate (h : s.Inv) : s.tbvUpdate.Inv := by
  unfold State.tbvUpdate
  split
  · exact h
  · exact .ite h h.servo

theorem State.Inv.refEvent {ref : Nat} {lost : Bool} (h : s.Inv) : (s.refEvent ref lost).Inv := h.raise

theorem State.Inv.crystalCorrection (h : s.Inv) : s.crystalCorrection.Inv := by
  unfold State.crystalCorrection
  split
  · exact h
  · split
    · exact h.updTime (by intro; rfl)
    · exact .ite h (.ite (h.updTime (by intro; rfl)).refEvent (h.updTime (by intro; rfl)))

theorem State.Inv.markXtalStale (h : s.Inv) : s.markXtalStale.Inv := .ite h (h.updTime (by intro; rfl)).refEvent

theorem State.Inv.trefLoss (h : s.Inv) : s.trefLoss.Inv := .ite h (h.updTime (by intro; rfl)).crystalCorrection.refEvent

theorem State.Inv.trefRestore (h : s.Inv) : s.trefRestore.Inv := .ite h (h.updTime (by intro; rfl)).refEvent

theorem State.Inv.ppsEdge {rising : Bool} (h : s.Inv) : (s.ppsEdge rising).Inv := by
  unfold State.ppsEdge
  split
  · exact h
  · exact h.each (fun _ _ ht => .ite ht ((State.Inv.ite (ht.updTime (by intro; rfl)).refEvent ht).servo))

theorem State.Inv.genlockEdge (h : s.Inv) :
    s.genlockEdge.Inv := h.each (fun _ _ ht => (State.Inv.ite (ht.updTime (by intro; rfl)).refEvent ht).servo)

theorem State.Inv.ppsLoss (h : s.Inv) : s.ppsLoss.Inv := .ite h (((h.updTime (by intro; rfl)).each (fun _ _ ht => ht.holdover)).refEvent)

theorem State.Inv.genlockLoss (h : s.Inv) :
    s.genlockLoss.Inv := .ite h (((h.updTime (by intro; rfl)).each (fun _ _ ht => ht.holdover)).refEvent)

theorem State.Inv.ppsPulse (h : s.Inv) : s.ppsPulse.Inv := .ite h.out h

theorem State.Inv.updPtp {b : Nat} {f : PtpState → PtpState} (h : s.Inv) : (s.updPtp b f).Inv := h.updBase

theorem State.Inv.selectMaster {b : Nat} (h : s.Inv) : (s.selectMaster b).Inv := by
  unfold State.selectMaster
  extract_lets p
  split
  · exact h.updPtp
  · exact .ite h.updPtp.raise h.updPtp

theorem State.Inv.announce {b : Nat} {m : PtpMsg} (h : s.Inv) : (s.announce b m).Inv := .ite h.updPtp.selectMaster h.updPtp

theorem State.Inv.announceTimeout {b : Nat} (h : s.Inv) : (s.announceTimeout b).Inv :=
  .ite h (.ite h.updPtp.selectMaster h.updPtp.selectMaster.holdover)

theorem State.Inv.synced {b : Nat} {arrival origin : Int} (h : s.Inv) : (s.synced b arrival origin).Inv :=
  .ite h.updPtp h.updPtp.updPtp.servo

theorem State.Inv.ptpIn {b : Nat} {m : PtpMsg} (h : s.Inv) : (s.ptpIn b m).Inv := by
  unfold State.ptpIn
  extract_lets x p here fromParent
  split
  · split
    · exact .ite h h.ethOut
    · exact .ite h.ethOut h
    · exact h
  · split
    · exact h.announce
    · exact .ite h (.ite h.updPtp h.synced)
    · exact .ite h.synced h
    · exact .ite h.updPtp h
    · exact .ite h.ethOut h
    · exact .ite h (.ite h.updPtp h.updPtp)
    · exact .ite h.updPtp h
    · exact h

theorem State.Inv.ethFrame {port : Nat} {f : EthFrame} (h : s.Inv) : (s.ethFrame port f).Inv := by
  unfold State.ethFrame
  split
  · exact h
  · split
    · exact h
    · split
      · exact h.updPort
      · split
        · exact h.each fun _ _ ht => ht.ptpIn
        · exact h.updPort

theorem State.Inv.ptpOut {b kind : Nat} (h : s.Inv) : (s.ptpOut b kind).Inv :=
  .ite h (.ite h.updPtp.ethOut h.updPtp.ethOut)

theorem State.Inv.ptpStatus {b : Nat} (h : s.Inv) : (s.ptpStatus b).2.Inv := .iteSnd h.drawNat h

theorem State.Inv.applyBases {p : List Byte} (h : s.Inv) : (s.applyBases p).Inv := h.each (fun _ _ ht => .ite ht ht.changeBase)

theorem State.Inv.applyTimeGlobal {p : Option (List Byte)} (h : s.Inv) : (s.applyTimeGlobal p).Inv :=
  (State.Inv.ite (h.updTime (by intro; rfl)).drivePins (h.updTime (by intro; rfl))).crystalCorrection

theorem State.Inv.latchBase {b : Nat} (h : s.Inv) : (s.latchBase b).Inv := .ite (h.updTime (by intro; rfl)) h.updBase

theorem State.Inv.advance (h : s.Inv) : s.advance.Inv := by
  unfold State.advance
  extract_lets k step old t u
  have ht : t.Inv := h.updTime (by simp [numbered_length])
  exact (State.Inv.ite ht.updPower ht).count

theorem State.Inv.cycle (h : s.Inv) : s.cycle.Inv := by
  unfold State.cycle
  split
  · exact h
  · extract_lets t
    have ht : t.Inv := h.updPower
    exact .ite ht.advance.trainLinks.retrainLimits.fuseStep (.ite (ht.updTime (by intro; rfl)) ht)

theorem State.Inv.timReadBody {c : Cmd} (h : s.Inv) : (timReadBody c s).Inv := h.reply

theorem State.Inv.timSetBody {c : Cmd} (h : s.Inv) : (timSetBody c s).Inv := by
  unfold Machine.timSetBody
  extract_lets p b x secs new d t u
  have ht : t.Inv := h.updBase
  have hu : u.Inv := .ite (.ite ht.setBaseSt ht) h
  split
  · exact h.badField
  · exact .ite h.badField (.ite h.raise.rephase.ok hu.stepBase.ok)

theorem State.Inv.timPtpStatusBody {c : Cmd} (h : s.Inv) : (timPtpStatusBody c s).Inv := .ite h.badField h.ptpStatus.reply

/-! ## Barrel -/

theorem State.Inv.runBarrel {j : Job} {f : JobFacts} (h : s.Inv) : (s.runBarrel j f).2.Inv := by
  unfold State.runBarrel
  extract_lets b x input room
  split
  · exact h
  · extract_lets t u
    have ht : t.Inv := h.updBrl
    have hu : u.Inv := .ite (ht.congr (by rfl)) ht
    exact hu.dmaOut

theorem State.Inv.brlRetired {j : Job} (h : s.Inv) : (s.brlRetired j).Inv := by
  unfold State.brlRetired
  extract_lets n t x x'
  have ht : t.Inv := h.updBrl
  split
  · exact ht.finish
  · exact ht

theorem State.Inv.brlOpenBody {c : Cmd} (h : s.Inv) : (brlOpenBody c s).Inv := by
  unfold Machine.brlOpenBody
  extract_lets n mode level free k w fresh
  clear_value k
  refine .ite h.badField (.ite h.badField (.ite h.badField (.ite h.badField ?_)))
  split
  · exact h.fail
  · exact h.updBrl.ok

theorem State.Inv.brlSubmitBody {c : Cmd} (h : s.Inv) : (brlSubmitBody c s).Inv := by
  unfold Machine.brlSubmitBody
  extract_lets p n x inLen outLen t u old j
  have ht : t.Inv := h.accept
  have hu : u.Inv := ht.updBrl.out
  split
  · exact h.badField
  · split
    · exact h.badField
    · exact .ite h.badField (.ite h.fail (.ite h.fail hu.addJob))

theorem State.Inv.brlCloseBody {c : Cmd} (h : s.Inv) : (brlCloseBody c s).Inv := .ite h.badField (.ite h.fail h.updBrl.ok)

theorem State.Inv.brlReadContextBody {c : Cmd} (h : s.Inv) : (brlReadContextBody c s).Inv :=
  .ite h.badField (.ite h.fail h.reply)

/-! ## The decoder -/

theorem State.Inv.ringIn {n : Nat} {d : List Byte} (h : s.Inv) : (s.ringIn n d).Inv := h.capWrite.capWrite.updDec

theorem State.Inv.claimSlot {j : Job} (h : s.Inv) : (s.claimSlot j).Inv := by
  unfold State.claimSlot
  split
  · exact h
  · dsimp only
    split
    · exact h.choose.updDec.updJob
    · exact h.choose

theorem State.Inv.patchRec {n pic : Nat} {f : List Byte → List Byte} (h : s.Inv) : (s.patchRec n pic f).Inv := h.updDec

theorem State.Inv.outputPic {n : Nat} {p : Stored} (h : s.Inv) : (s.outputPic n p).Inv :=
  h.updDec.patchRec.raise.each fun _ _ ht => ht.addUnit

theorem State.Inv.bump {n fuel : Nat} {more : List Stored → Bool} (h : s.Inv) : (s.bump n more fuel).Inv := by
  induction fuel generalizing s with
  | zero => exact h
  | succ fuel ih =>
    unfold State.bump
    dsimp only
    split
    · exact h
    · split
      · exact h
      · exact ih h.outputPic.updDec

theorem State.Inv.addDecRec {n pic : Nat} {r : List Byte} (h : s.Inv) : (s.addDecRec n pic r).Inv := h.updDec

theorem State.Inv.openPic {master n pic : Nat} {f : DecUnit} (h : s.Inv) : (s.openPic master n pic f).Inv := by
  unfold State.openPic
  extract_lets d t sub_ planes u
  have ht : t.Inv := h.updDec
  have hu : u.Inv := by
    unfold u
    refine ht.each fun _ v hv => ?_
    dsimp only
    refine State.Inv.raise ?_
    refine State.Inv.updDec ?_
    split
    · exact hv.choose.putTiles
    · exact hv.choose
  exact .ite (.ite hu.updDec hu.bump.updDec) hu.bump

theorem State.Inv.storePic {master n pic slot entry : Nat} {f : DecUnit} {r : Nat} (h : s.Inv) :
    (s.storePic master n pic slot entry f r).Inv :=
  h.openPic.drawNat.putTiles.putTiles.updDec.bump

theorem State.Inv.runDecode {j : Job} {facts : DecFacts} {cut : Bool} {g : JobFacts} (h : s.Inv) : (s.runDecode j facts cut g).2.Inv := by
  unfold State.runDecode
  extract_lets n d pic slot
  split
  · exact h
  · have hchosen := h.choose (l := d.freeEntries)
    generalize s.choose d.freeEntries = chosen at hchosen ⊢
    obtain ⟨place, u⟩ := chosen
    dsimp -zeta only at hchosen ⊢
    extract_lets entry reads g v f r st w keep hidden slotOf x y z
    have hv : v.Inv := hchosen.countMisses
    have hw : w.Inv := .ite hv.logError hv
    have hy : y.Inv := hw.addDecRec.updDec
    have hz : z.Inv := .ite hy.storePic hy.updDec
    exact .ite hz.updDec hz

theorem State.Inv.decRefused {n pic r : Nat} (h : s.Inv) : (s.decRefused n pic r).Inv := h.updDec.raiseLimited fun _ _ ht => ht.updDec

theorem State.Inv.finishSubmit {e : ExecCmd} (h : s.Inv) : (s.finishSubmit e).Inv := (State.Inv.ite h.updDec h.updDec.decRefused).finish

theorem State.Inv.decRetired {j : Job} (h : s.Inv) : (s.decRetired j).Inv := by
  unfold State.decRetired
  extract_lets n pic t u v
  have ht : t.Inv := h.addDecRec
  have hu : u.Inv := by
    unfold u
    split
    · split
      · exact ht.updDec
      · exact ht
    · exact h
  have hv : v.Inv := hu.patchRec
  split
  · exact hv.finishSubmit
  · exact hv

theorem State.Inv.endSubmit {e : ExecCmd} {r : Nat} (h : s.Inv) : (s.endSubmit e r).Inv := h.addDecRec.patchRec.finishSubmit

theorem State.Inv.cutPicture {e : ExecCmd} {luma : Option Nat} {data : List Byte} (h : s.Inv) : (s.cutPicture e luma data).Inv :=
  h.ringIn.addJob

theorem State.Inv.pumpFlush {n : Nat} (h : s.Inv) : (s.pumpFlush n).Inv := by
  unfold State.pumpFlush
  split
  · exact h
  · exact .ite h h.bump.updDec.finish

theorem State.Inv.applyDec {n : Nat} {e : Option (List Byte)} (h : s.Inv) : (s.applyDec n e).Inv := by
  unfold State.applyDec
  extract_lets k old old' d t
  have ht : t.Inv := h.release.release.release.updDec
  split
  · exact ht.alloc.alloc.alloc
  · exact ht

theorem State.Inv.decSubmitBody {c : Cmd} (h : s.Inv) : (decSubmitBody c s).Inv := by
  unfold Machine.decSubmitBody
  extract_lets n len d ring us_ t
  have ht : t.Inv := h.accept
  exact .ite h.badField (.ite h.badField (.ite h.fail ht.updDec.out))

theorem State.Inv.decFlushBody {c : Cmd} (h : s.Inv) : (decFlushBody c s).Inv := .ite h.badField h.accept.pumpFlush

theorem State.Inv.decRestartBody {c : Cmd} (h : s.Inv) : (decRestartBody c s).Inv :=
  .ite h.badField (.ite h.fail h.updDec.ok)

theorem State.Inv.giveBack {n k : Nat} (h : s.Inv) : (s.giveBack n k).Inv := h.updDec

theorem State.Inv.freeDecSlots (h : s.Inv) : s.freeDecSlots.Inv := h.each (fun _ _ ht => ht.each (fun _ _ hu => hu.giveBack))

theorem State.Inv.decReleaseBody {c : Cmd} (h : s.Inv) : (decReleaseBody c s).Inv :=
  .ite h.badField (.ite h.badField h.giveBack.ok)

theorem State.Inv.decRecordBody {c : Cmd} (h : s.Inv) : (decRecordBody c s).Inv :=
  .ite h.badField (.ite h.badField h.reply)

theorem State.Inv.decReadBody {c : Cmd} (h : s.Inv) : (decReadBody c s).Inv := by
  unfold Machine.decReadBody
  extract_lets p n k e tiles
  split
  · exact h.badField
  · split
    · exact h.badField
    · split
      · exact h.badField
      · exact .ite h.badField (.ite h.badField h.accept.updDec)

/-! ## The firmware's own work -/

theorem State.Inv.cutSteep {f : Frame} (h : s.Inv) : (s.cutSteep f).Inv := by
  unfold State.cutSteep
  extract_lets b landed t cls dl
  have ht : t.Inv := .ite h.beginDev h
  split
  · exact ht
  · exact .ite ht (ht.each (fun _ _ ht => ht.cutBand))

theorem State.Inv.makeMash {d : FrameDev} {k : Nat} (h : s.Inv) : (s.makeMash d k).Inv :=
  (State.Inv.foldl h fun _ _ hp => hp.addUnit).cutMash

theorem State.Inv.cutMashes {f : Frame} (h : s.Inv) : (s.cutMashes f).Inv := by
  unfold State.cutMashes
  split
  · exact h
  · exact .ite h (h.each (fun _ _ ht => ht.makeMash))

theorem State.Inv.cutEnc {f : Frame} {x : Nat × Nat × List Byte} (h : s.Inv) : (s.cutEnc f x).Inv :=
  .ite h (.ite h.newPicture (.ite h.updEnc h))

theorem State.Inv.addRaw {f : Frame} {n : Nat} (h : s.Inv) : (s.addRaw f n).Inv := (h.each (fun _ _ ht => ht.addUnit)).updFrame

theorem State.Inv.cutRaw {f : Frame} (h : s.Inv) : (s.cutRaw f).Inv := .ite h ((h.each (fun _ _ ht => ht.addRaw)).updFrame)

theorem State.Inv.cutFrame {c : Nat} {q : BitVec 32} (h : s.Inv) : (s.cutFrame c q).Inv := by
  unfold State.cutFrame
  split
  · exact h
  · exact .ite h ((h.cutSteep.cutMashes.each (fun _ _ ht => ht.cutEnc)).cutRaw)

theorem State.Inv.cutEncoding {e : Nat} (h : s.Inv) : (s.cutEncoding e).Inv := by
  unfold State.cutEncoding
  split
  · exact h
  · extract_lets last t todo
    have ht : t.Inv := h.cutGop
    refine ht.each fun _ u hu => ?_
    split
    · exact hu
    · exact hu.cutRows

theorem State.Inv.drainBurst {c : Nat} (h : s.Inv) : (s.drainBurst c).Inv :=
  .ite h (h.updCtx.each (fun _ _ ht => ht.each (fun _ _ hu => hu.addRaw)))

theorem State.Inv.cutAll (h : s.Inv) : s.cutAll.Inv := by
  unfold State.cutAll
  extract_lets t u v done
  have ht : t.Inv := h.each fun _ _ ht => ht.each fun _ _ hu => hu.cutFrame
  have hu : u.Inv := ht.each fun _ _ hu => hu.cutEncoding
  have hv : v.Inv := hu.each fun _ _ hv => hv.drainBurst
  clear_value v
  exact hv.resize (by simp [State.shape]) rfl

theorem State.Inv.admitJob {j : Job} (h : s.Inv) : (State.admitJob j s).Inv := by
  unfold State.admitJob
  extract_lets t
  have ht : t.Inv := h.letIn
  split
  · exact ht.claimWork
  · exact ht.claimOut
  · exact ht.issueRow
  · exact ht.issueRow
  · exact ht.claimSlot
  · exact ht

theorem State.Inv.addOut {n row key : Nat} {q : BitVec 32} {coded : Nat} {deadline : Option Nanos} (h : s.Inv) :
    (s.addOut n row key q coded deadline).Inv :=
  .ite h.addJob h.addFrameJob

theorem State.Inv.putLines {n row how bytes : Nat} (h : s.Inv) : (s.putLines n row how bytes).Inv := .ite h.out h.ethOut

theorem State.Inv.sendUnit {j : Job} (h : s.Inv) : (s.sendUnit j).Inv := (State.Inv.ite h.out h).putLines

theorem State.Inv.gapRow {n row : Nat} (h : s.Inv) : (s.gapRow n row).Inv := h.updStream.putLines.raiseLimited fun _ _ ht => ht.updStream

theorem State.Inv.unsent {j : Job} (h : s.Inv) : (s.unsent j).Inv := .ite h.updStream h.gapRow

theorem State.Inv.testWaits {j : Job} (h : s.Inv) : (s.testWaits j).Inv := h.updObs

theorem State.Inv.onEnd {j : Job} {status : Nat} {bytes : List Byte} (h : s.Inv) : (s.onEnd j status bytes).Inv := by
  unfold State.onEnd
  extract_lets bad t
  have ht : t.Inv := by
    unfold t
    split
    · exact h.bandEnded
    · exact h.mashEnd.endUnits
    · exact h.rowEnded.endUnits
    · exact h.rowEnded.endUnits
    · exact h.flickEnded
    · exact .ite h.testWaits h
    · exact .ite h.unsent h
    · exact h
  split
  · exact .ite ht.probationFail ht
  · exact ht

theorem State.Inv.retireJob {j : Job} (h : s.Inv) : (s.retireJob j).Inv := by
  unfold State.retireJob
  extract_lets t u v
  have ht : t.Inv := h.deliver.sample
  have hu : u.Inv := ht.congr (by rfl)
  have hv : v.Inv := by
    unfold v
    split
    · exact .ite hu hu.updFrame
    · exact hu
  split
  · exact hv.bandRetired
  · exact hv.mashRetired
  · exact hv.rowRetired
  · exact hv.rowRetired
  · exact hv.decRetired
  · exact hv.brlRetired
  · split
    · exact .ite hv.endMigration hv
    · exact hv
  · exact hv

theorem State.Inv.retireRefused (h : s.Inv) : s.retireRefused.Inv := h.each fun _ _ ht => ht.onEnd.retireJob

theorem State.Inv.recreate (h : s.Inv) : s.recreate.Inv := by
  unfold State.recreate
  extract_lets gone t owed u
  have ht : t.Inv := by
    unfold t
    refine h.each fun _ v hv => ?_
    extract_lets t' w
    have hw : w.Inv := hv.each fun _ _ ht => ht.addUnitJob.updStream
    exact hw.each (fun _ _ ht => ht.each (fun _ _ hu => hu.addUnitJob.mapPieces))
  have hu : u.Inv := ht.each fun _ _ ht => ht.addJob
  exact hu.each fun _ _ ht => ht.againMigration

theorem State.Inv.sendRow {n : Nat} {u : StreamUnit} (h : s.Inv) : (s.sendRow n u).Inv :=
  .ite h.updStream (.ite h h.addOut)

theorem State.Inv.readyUnit {n : Nat} {u : StreamUnit} (h : s.Inv) : (s.readyUnit n u).Inv := .ite h.updStream h.updStream

theorem State.Inv.releaseUnit {n : Nat} {u : StreamUnit} (h : s.Inv) : (s.releaseUnit n u).Inv := by
  unfold State.releaseUnit
  extract_lets t v
  have hv : v.Inv := .ite h.probationFail h
  exact .ite hv.recordUnit (.ite hv.sendRow hv.readyUnit)

theorem State.Inv.pumpUnits {n fuel : Nat} (h : s.Inv) : (s.pumpUnits n fuel).Inv := by
  induction fuel generalizing s with
  | zero => exact h
  | succ fuel ih =>
    unfold State.pumpUnits
    split
    · exact h
    · exact .ite h (ih h.updStream.releaseUnit)

theorem State.Inv.headTimeout {n : Nat} (h : s.Inv) : (s.headTimeout n).Inv := by
  unfold State.headTimeout
  split
  · exact h
  · split
    · exact h
    · extract_lets t u
      have ht : t.Inv := h.updStream
      have hu : u.Inv := by
        unfold u
        split
        · exact .ite ht.loseRow ht
        · exact ht
      exact hu.releaseUnit

theorem State.Inv.freeDev (h : s.Inv) : s.freeDev.Inv := (h.congr (by rfl)).congr (by rfl)

theorem State.Inv.pumpRelease {c : Nat} (h : s.Inv) : (s.pumpRelease c).Inv := by
  unfold State.pumpRelease
  extract_lets t
  have ht : t.Inv := h.updCtx
  exact ht.each (fun _ _ ht => .ite ht ((State.Inv.ite ht.updCtx ht).raise.finish))

theorem State.Inv.shrinkRing {c : Nat} (h : s.Inv) : (s.shrinkRing c).Inv := by
  unfold State.shrinkRing
  extract_lets x busy extent
  split
  · exact .ite h.alloc.updCtx h
  · exact .ite h.release.updCtx h
  · exact h

theorem State.Inv.countFinals {c : Nat} (h : s.Inv) : (s.countFinals c).Inv := h.each fun _ _ ht => ht.countFinal

theorem State.Inv.applyIdle {c : Nat} (h : s.Inv) : (s.applyIdle c).Inv :=
  .ite h (.ite (.ite h h.applyKeys) h.applyKeys)

theorem State.Inv.settleOnce (h : s.Inv) : s.settleOnce.Inv := by
  unfold State.settleOnce
  extract_lets t u v w x₁ x₂ x₃ x₄
  have ht : t.Inv := h.noteCaptured
  have hu : u.Inv := .ite ((ht.each (fun _ _ ht => ht.applyIdle)).goLive) ht
  have hv : v.Inv := hu.cutAll.retireRefused
  have hw : w.Inv := hv.each fun _ _ ht => ht.pumpUnits
  have hx₁ : x₁.Inv := hw.each fun _ _ ht => ht.pumpRecord
  have hx₂ : x₂.Inv := hx₁.each fun _ _ ht => ht.pumpFlush
  have hx₃ : x₃.Inv := hx₂.freeEncs.freeDev.drainLuts.freeDecSlots.retireWaiting
  have hx₄ : x₄.Inv := hx₃.each fun _ _ ht => ht.countFinals.pumpRelease.shrinkRing
  exact hx₄.freeOld

theorem State.Inv.settleN {fuel : Nat} (h : s.Inv) : (s.settleN fuel).Inv := by
  induction fuel generalizing s with
  | zero => exact h
  | succ fuel ih =>
    unfold State.settleN
    exact .ite (ih h.settleOnce) h.settleOnce

theorem State.Inv.settle (h : s.Inv) : s.settle.Inv := h.settleN

/-! ## Output streams -/

theorem State.Inv.putPayloadId {n : Nat} (h : s.Inv) : (s.putPayloadId n).Inv := h.each fun _ _ ht => ht.out

theorem State.Inv.beginFrame {n : Nat} (h : s.Inv) : (s.beginFrame n).Inv := by
  unfold State.beginFrame
  extract_lets t old prev dropped
  split
  · exact h
  · exact .ite h.updStream.out h.updStream.putPayloadId

theorem State.Inv.firstLine {n : Nat} (h : s.Inv) : (s.firstLine n).Inv := by
  unfold State.firstLine
  extract_lets t
  split
  · exact h
  · split
    · exact h
    · extract_lets more q u
      have hu : u.Inv := by
        unfold u
        dsimp only
        split
        · exact h.addOut
        · exact h.gapRow
      exact hu.updStream

theorem State.Inv.applyShift (h : s.Inv) : s.applyShift.Inv := by
  unfold State.applyShift
  split
  · exact h
  · exact (State.Inv.ite h.updBase h.updBase.moveBase).touchStep

theorem State.Inv.fsyncEdge {count : Nat} (h : s.Inv) : (s.fsyncEdge count).Inv := by
  unfold State.fsyncEdge
  refine h.each fun _ t ht => ?_
  extract_lets x u v
  have hu : u.Inv := .ite ht.updSensor ht
  have hv : v.Inv := hu.drivePins
  split
  · exact hu.releasePins
  · exact .ite hu.releasePins (.ite (.ite hv.out hv) hu)

theorem State.Inv.cadenceEdge (h : s.Inv) : s.cadenceEdge.Inv := by
  unfold State.cadenceEdge
  split
  · exact h
  · extract_lets t count u
    have ht : t.Inv := h.updBase
    have hu : u.Inv := ht.applyShift.fsyncEdge
    refine hu.each fun _ v hv => ?_
    exact .ite (.ite hv.updStream hv.updStream.beginFrame) hv

theorem State.Inv.applyStream {n : Nat} {e : Option (List Byte)} (h : s.Inv) : (s.applyStream n e).Inv :=
  .ite h h.sizeRange.updStream

theorem State.Inv.applyStreams {p : List Byte} (h : s.Inv) : (s.applyStreams p).Inv := (h.each (fun _ _ ht => ht.applyStream)).updSdi

/-! ## The power map -/

theorem State.Inv.updPwr {e : Nat} {f : PwrEntry → PwrEntry} (h : s.Inv) : (s.updPwr e f).Inv := h.updHealth

theorem State.Inv.switchRail {e : Nat} {on : Bool} (h : s.Inv) : (s.switchRail e on).Inv := by
  unfold State.switchRail
  extract_lets x pin t
  have ht : t.Inv := .ite h.drivePins.out h
  exact .ite ht.updPower ht

theorem State.Inv.nextRail {o : Nat × Nat} (h : s.Inv) : (s.nextRail o).Inv := by
  unfold State.nextRail
  extract_lets es
  split
  · exact h
  · split
    · exact h.updPwr.switchRail
    · exact h

theorem State.Inv.railOff {e : Nat} (h : s.Inv) : (s.railOff e).Inv := .ite h h.switchRail.updPwr

theorem State.Inv.sensorRails {n : Nat} (h : s.Inv) : (s.sensorRails n).Inv := by
  unfold State.sensorRails
  extract_lets up was t u
  have ht : t.Inv := h.updSensor
  have hu : u.Inv := by
    unfold u
    split
    · exact ht.each (fun _ _ ht => .ite ht.startTraining ht)
    · split
      · refine ht.each fun _ v hv => ?_
        exact ((State.Inv.ite hv.linkLost.linkLossInProbation hv).endLoopback.noteReceived).updShroud
      · exact ht
  exact hu.portSync

theorem State.Inv.allRails (h : s.Inv) : s.allRails.Inv := (h.each (fun _ _ ht => ht.sensorRails)).srefSync

theorem State.Inv.powerFault {e word : Nat} (h : s.Inv) : (s.powerFault e word).Inv := by
  unfold State.powerFault
  extract_lets o t u v w x₁
  have ht : t.Inv := h.each fun _ _ ht => ht.railOff
  have hu : u.Inv := ht.updPwr
  have hv : v.Inv := hu.allRails
  have hw : w.Inv := .ite hv.rootDown hv
  have hx₁ : x₁.Inv := hw.askVector.raise
  exact hx₁.logError

theorem State.Inv.pumpPower (h : s.Inv) : s.pumpPower.Inv :=
  ((h.updHealth.each (fun _ _ ht => ht.railOff)).each (fun _ _ ht => ht.nextRail)).allRails

theorem State.Inv.repower (h : s.Inv) : s.repower.Inv := .ite h.updHealth.pumpPower (.ite h.pumpPower h)

theorem State.Inv.applyPowerMap {p : List Byte} (h : s.Inv) : (s.applyPowerMap p).Inv :=
  h.each (fun _ _ ht => .ite (.ite ht.updPwr ht) ht.railOff.updPwr)

theorem State.Inv.holdFrom {e : Nat} (h : s.Inv) : (s.holdFrom e).Inv := h.congr rfl

theorem State.Inv.readVout {e mv : Nat} (h : s.Inv) : (s.readVout e mv).Inv := by
  unfold State.readVout
  extract_lets x t t'
  have ht : t.Inv := h.updPwr
  split
  · exact .ite ht.updPwr (.ite ht.updPwr.holdFrom.nextRail.allRails ht.updPwr)
  · exact .ite (.ite ht.drawNat.powerFault ht.updPwr) ht.updPwr
  · exact ht

/-! ## Windows, jobs and host transfers -/

theorem State.Inv.applyObs {p : Option (List Byte)} (h : s.Inv) : (s.applyObs p).Inv := (State.Inv.ite h.drivePins h).updObs

theorem State.Inv.applyAtTick {g : Gen} {type : Nat} (h : s.Inv) : (s.applyAtTick g type).Inv :=
  .ite h (.ite h.updCfg.applyObs h.updCfg)

theorem State.Inv.applyPolicy (h : s.Inv) : s.applyPolicy.Inv := by
  unfold State.applyPolicy
  split
  · exact .ite h.applyAtTick.applyAtTick.goLive h
  · exact h

theorem State.Inv.refuseDue (h : s.Inv) : s.refuseDue.Inv := by
  unfold State.refuseDue
  refine h.each fun _ t ht => ?_
  split
  · exact ht.refuseJob
  · exact ht

theorem State.Inv.withEgress {l : List (Nanos × Nat)} (h : s.Inv) : ({ s with egress := l } : State).Inv := h.congr rfl

theorem State.Inv.tick (h : s.Inv) : s.tick.Inv := by
  unfold State.tick
  split
  · exact h
  · extract_lets t l p u v w x₁ x₂
    have hu : u.Inv := h.applyPolicy.updLedger
    have hv : v.Inv := .ite hu.raise hu
    have hw : w.Inv := hv.recreate.refuseDue.settle
    have hx₁ : x₁.Inv := (hw.runWindow fun _ _ ht => ht.admitJob).chargeReceived.refusalEvent
    exact hx₁.withEgress.settle

theorem State.Inv.startNext {m : Nat} (h : s.Inv) : (s.startNext m).Inv := by
  have hstart : (s.startJob m).2.Inv := h.startJob
  unfold State.startNext
  split
  next hj =>
    rw [hj] at hstart
    exact .ite hstart.startWrite (.ite hstart.sendUnit hstart)
  next hj =>
    rw [hj] at hstart
    exact hstart

theorem State.Inv.runOut {j : Job} {f : JobFacts} (h : s.Inv) : (s.runOut j f).2.Inv := h.countMisses.flagTiles

theorem State.Inv.runJob {j : Job} {f : JobFacts} (h : s.Inv) : (s.runJob j f).2.2.Inv := by
  unfold State.runJob
  extract_lets f' plain
  split
  · exact h.runBand
  · exact h.runMash
  · exact h.runRow
  · exact h.runRow
  · exact h.runDecode
  · exact h.runBarrel
  · exact h.runCask
  · exact h.signNext
  · exact h.runOut
  · exact h

theorem State.Inv.endJob {j : Job} {run : State → Nat × List Byte × State} {f : JobFacts} (h : s.Inv)
    (hrun : ∀ t, t.Inv → (run t).2.2.Inv) : (s.endJob j run f).Inv := by
  unfold State.endJob
  cases j.superseded with
  | true =>
    dsimp only [if_true]
    split
    · exact h.eccSeen.countMisses.completeJob.onEnd
    · exact h.eccSeen.countMisses.completeJob
  | false =>
    dsimp only
    split
    · exact (hrun _ h.eccSeen).completeJob.onEnd
    · exact (hrun _ h.eccSeen).completeJob

theorem State.Inv.jobDone {tag : Nat} {f : JobFacts} (h : s.Inv) : (s.jobDone tag f).Inv := by
  unfold State.jobDone
  split
  · exact .ite ((h.endJob (fun _ ht => ht.runJob)).settle) h
  · exact h

theorem State.Inv.holdRead {c : Nat} {q : BitVec 32} {kind buffer : Nat} {by_ : Nat → Nat} (h : s.Inv) :
    (s.holdRead c q kind buffer by_).Inv := by
  unfold State.holdRead
  extract_lets t
  have ht : t.Inv := h.updFrame
  exact .ite ht (.ite ht.updDev (.ite ht.updOut ht))

theorem State.Inv.capReadBody {c : Cmd} (h : s.Inv) : (capReadBody c s).Inv := by
  unfold Machine.capReadBody
  extract_lets p k kind buffer first n
  split
  · exact h.fail
  · split
    · exact h.badCtx
    · split
      · exact h.badField
      · split
        · exact h.badField
        · split
          · exact h.badField
          · split
            · exact h.badField
            · split
              · exact h.fail
              · split
                · exact h.fail
                · split
                  · exact h.badField
                  · exact .ite h.badField (.ite h.badField h.accept.holdRead)

theorem State.Inv.copyOut {r : ReadPlan} {first n host : Nat} {f : DmaFacts} {whole : Bool} {ctx : Nat} (h : s.Inv) :
    (s.copyOut r first n host f whole ctx).2.2.2.Inv := by
  unfold State.copyOut
  extract_lets items lo len ks reads t g u failed subs data fault v w x₁
  have ht : t.Inv := h.eccSeen
  have hu : u.Inv := ht.reachTiles
  have hv : v.Inv := by
    unfold v
    split
    · exact hu.reach
    · exact hu
  have hw : w.Inv := hv.each fun _ _ ht => ht.tileMiss
  have hx₁ : x₁.Inv := .ite hw hw.dmaOut
  exact hx₁

theorem State.Inv.endCapRead {e : ExecCmd} {f : DmaFacts} {whole : Bool} (h : s.Inv) : (s.endCapRead e f whole).Inv := by
  unfold State.endCapRead
  extract_lets c q
  split
  · exact h.finish
  · exact (State.Inv.ite h.copyOut.updFrame h.copyOut).holdRead.finish

theorem State.Inv.endDecRead {e : ExecCmd} {f : DmaFacts} {whole : Bool} (h : s.Inv) : (s.endDecRead e f whole).Inv := by
  unfold State.endDecRead
  extract_lets n k
  dsimp only
  exact h.copyOut.updDec.freeDecSlots.finish

theorem State.Inv.dmaDone {b : Mbox} {f : DmaFacts} (h : s.Inv) : (s.dmaDone b f).Inv := by
  unfold State.dmaDone
  split
  · exact h
  · extract_lets whole t
    have ht : t.Inv := .ite h.countLink h
    split
    · exact ht.endCapRead
    · exact ht.endDecRead
    · exact .ite ht (.ite ht.cutPicture ht.endSubmit)
    · split
      · exact ht
      · split
        · exact ht.endJob (fun _ ht => ht)
        · exact ht
    · exact ht.hostCopied
    · exact ht.hostCopied
    · exact ht

theorem State.Inv.nrgCostReadBody {c : Cmd} (h : s.Inv) : (nrgCostReadBody c s).Inv := .ite h.badField h.reply

theorem State.Inv.nrgTraceBody {c : Cmd} (h : s.Inv) : (nrgTraceBody c s).Inv := .ite h.badField h.reply

theorem State.Inv.capReleaseBody {c : Cmd} (h : s.Inv) : (capReleaseBody c s).Inv :=
  .ite h.badCtx (.ite h.badField h.updCtx.accept)

/-! ## Commit and rollback -/

theorem State.Inv.applyShrouds {p : List Byte} (h : s.Inv) : (s.applyShrouds p).Inv := by
  unfold State.applyShrouds
  extract_lets es t
  have ht : t.Inv := h.each (fun _ _ ht => .ite ht ht.endLoopback.noteReceived.finishAll.updShroud.startTraining)
  exact ht.allRails

theorem State.Inv.applySensors {p : List Byte} (h : s.Inv) : (s.applySensors p).Inv :=
  (h.each (fun _ _ ht => .ite ht ht.updSensor.portSync.updSensor)).allRails

theorem State.Inv.abandon {n : Nat} (h : s.Inv) : (s.abandon n).Inv := (((h.each (fun _ _ ht => ht.endSubmit)).congr (by rfl))).mapJobs

theorem State.Inv.applyDecs {p : List Byte} (h : s.Inv) : (s.applyDecs p).Inv := h.each (fun _ _ ht => .ite ht ht.abandon.applyDec)

theorem State.Inv.applyMaps {p : List Byte} (h : s.Inv) : (s.applyMaps p).Inv := h.updMem (by intro; rfl)

theorem State.Inv.applyHealthPolicy {p : Option (List Byte)} (h : s.Inv) : (s.applyHealthPolicy p).Inv := h.updHealth

theorem State.Inv.applyGlobal {type : Nat} (h : s.Inv) : (s.applyGlobal type).Inv := by
  unfold State.applyGlobal
  split
  · exact h
  · extract_lets key new p t u
    have ht : t.Inv := h.updCfg
    have hu : u.Inv := by
      unfold u
      split
      · exact ht.applyShrouds
      · exact ht.applySensors
      · exact ht.applyDecs
      · exact ht.applyStreams
      · exact ht.applyMaps
      · exact ht.applyFlex
      · exact ht.applyTimeGlobal
      · exact ht.applyBases
      · exact ht.applyHealthPolicy
      · exact ht.applyPowerMap
      · exact ht.applyObs
      · exact ht
    exact hu.pumpPower

theorem State.Inv.applyIdleDecs {g : Gen} (h : s.Inv) : (s.applyIdleDecs g).Inv :=
  .ite (h.each (fun _ _ ht => .ite ht ht.applyDec)) h

theorem State.Inv.reachApply {cs : List Nat} (h : s.Inv) : (s.reachApply cs).Inv := h.updCfg

theorem State.Inv.applyOneGlobal {g : Gen} {type : Nat} (h : s.Inv) : (s.applyOneGlobal g type).Inv := h.applyGlobal.reachApply

theorem State.Inv.applyGlobals {g : Gen} {l : List Nat} (h : s.Inv) : (s.applyGlobals g l).Inv := by
  induction l generalizing s with
  | nil => exact h
  | cons t ts ih => exact .ite (ih h.applyOneGlobal) h

theorem State.Inv.forceCtx {c : Nat} (h : s.Inv) : (s.forceCtx c).Inv :=
  (State.Inv.ite h.frameTimeout.applyKeys.stopCapture h.frameTimeout.applyKeys).raise

theorem State.Inv.armExpires (h : s.Inv) : s.armExpires.Inv := by
  unfold State.armExpires
  split
  · exact h
  · extract_lets t u v
    have ht : t.Inv := h.each fun _ _ ht => ht.forceCtx
    have hu : u.Inv := ht.each fun _ _ ht => ht.applyKeys
    have hv : v.Inv := hu.each fun _ _ ht => ht.applyOneGlobal
    exact hv.settle

theorem State.Inv.installGen {g : Gen} (h : s.Inv) : (s.installGen g).Inv := by
  unfold State.installGen
  extract_lets t u v w x₁ x₂
  have ht : t.Inv := h.updCfg
  have hu : u.Inv := ht.loadLuts
  have hv : v.Inv := .ite hu.applyGlobal hu
  have hw : w.Inv := hv.each fun _ _ ht => ht.applyKeys
  have hx₁ : x₁.Inv := hw.each fun _ _ ht => ht.applyGlobal
  have hx₂ : x₂.Inv := hx₁.updCfg
  exact hx₂.policyLive

theorem State.Inv.restore (h : s.Inv) : s.restore.Inv := by
  unfold State.restore
  extract_lets copy first tryOne
  split
  · exact h.installGen.raise
  · exact h.installGen.raise
  · exact h.raise
  · exact h

theorem State.Inv.cfgValidateBody {c : Cmd} (h : s.Inv) : (cfgValidateBody c s).Inv := by
  unfold Machine.cfgValidateBody
  split
  · exact h.fail
  · extract_lets t
    have ht : t.Inv := h.accept
    split
    · exact ht.finishAll
    · exact ht.finishAll

theorem State.Inv.cfgCommitBody {c : Cmd} (h : s.Inv) : (cfgCommitBody c s).Inv := by
  unfold Machine.cfgCommitBody
  extract_lets p frames limit arm t limit'
  have ht : t.Inv := h.accept
  split
  · exact h.badField
  · split
    · exact h.badField
    · split
      · exact h.badField
      · split
        · exact h.fail
        · split
          · exact h.fail
          · split
            · exact ht.finishAll
            · exact ht.updCfg.armGen.settle

theorem State.Inv.cfgRollbackBody {c : Cmd} (h : s.Inv) : (cfgRollbackBody c s).Inv := by
  unfold Machine.cfgRollbackBody
  split
  · exact h.fail
  · split
    · exact h.fail
    · extract_lets t u
      have ht : t.Inv := h.accept
      have hu : u.Inv := ht.updCfg
      split
      · exact ht.finishAll
      · exact hu.armGen.settle

theorem State.Inv.nrgEstimateBody {c : Cmd} (h : s.Inv) : (nrgEstimateBody c s).Inv := by
  unfold Machine.nrgEstimateBody
  split
  · exact h.fail
  · exact h.ok

/-! ## Health -/

theorem State.Inv.hltEvent {code : Nat} {body : List Byte} (h : s.Inv) : (s.hltEvent code body).Inv := h.askVector.raise

theorem State.Inv.crossCheck {g : List Int} {i : Nat} (h : s.Inv) : (s.crossCheck g i).Inv := by
  unfold State.crossCheck
  extract_lets hgt ns dev k t k' u
  have ht : t.Inv := h.updHealth
  have hu : u.Inv := h.updHealth
  split
  · exact h
  · split
    · exact .ite ht.updHealth.hltEvent ht
    · exact .ite hu.updHealth.hltEvent hu

theorem State.Inv.dieZone (h : s.Inv) : s.dieZone.2.Inv := by
  unfold State.dieZone
  split
  · exact h.drawNat
  · exact h

theorem State.Inv.keepHistory (h : s.Inv) : s.keepHistory.Inv := h.updHealth

theorem State.Inv.evalEarly {rises : List Int} (h : s.Inv) : (s.evalEarly rises).Inv :=
  .ite h.updHealth (.ite h.updHealth h)

theorem State.Inv.setLevel {z new : Nat} {temp : Int} (h : s.Inv) : (s.setLevel z new temp).Inv := .ite h h.updHealth.hltEvent

theorem State.Inv.evalZone {z : Nat} (h : s.Inv) : (s.evalZone z).Inv := by
  unfold State.evalZone
  split
  · exact h.setLevel
  · exact h

theorem State.Inv.evalRemote {c : Nat} (h : s.Inv) : (s.evalRemote c).Inv := h.setLevel

theorem State.Inv.evalPending (h : s.Inv) : s.evalPending.Inv := .ite h.updHealth.hltEvent h.updHealth

theorem State.Inv.evalReef (h : s.Inv) : s.evalReef.Inv := .ite h.updHealth h.updHealth.hltEvent

theorem State.Inv.applyHealthDue (h : s.Inv) : s.applyHealthDue.Inv := by
  unfold State.applyHealthDue
  split
  · exact .ite h.applyOneGlobal.goLive.settle h
  · exact h

theorem State.Inv.healthEval {f : HealthFacts} (h : s.Inv) : (s.healthEval f).Inv := by
  unfold State.healthEval
  extract_lets t u v w
  have ht : t.Inv := h.applyHealthDue.repower
  have hu : u.Inv := ht.updHealth
  have hv : v.Inv := hu.each fun _ _ ht => ht.crossCheck
  have hw : w.Inv := hv.updHealth
  dsimp only
  refine State.Inv.updHealth ?_
  split
  · refine State.Inv.drivePins ?_
    refine State.Inv.evalReef ?_
    refine State.Inv.evalPending ?_
    refine (hw.dieZone.updHealth.updHealth.keepHistory.evalEarly.each (fun _ _ ht => ht.evalZone)).each fun _ x₁ hx₁ => ?_
    exact hx₁.evalRemote
  · refine State.Inv.evalReef ?_
    refine State.Inv.evalPending ?_
    refine (hw.dieZone.updHealth.updHealth.keepHistory.evalEarly.each (fun _ _ ht => ht.evalZone)).each fun _ x₁ hx₁ => ?_
    exact hx₁.evalRemote

theorem State.Inv.stackReading {k : Nat} {temp : Int} (h : s.Inv) : (s.stackReading k temp).Inv :=
  .ite h.updHealth.hotMode.hltEvent h.updHealth.hotMode

theorem State.Inv.remoteRead {c : Nat} {f : RemoteFacts} (h : s.Inv) : (s.remoteRead c f).Inv := h.drawBool.updHealth

theorem State.Inv.railRead {n mv : Nat} (h : s.Inv) : (s.railRead n mv).Inv := by
  unfold State.railRead
  extract_lets set d r now watch o5 o10 back since fault t u
  have ht : t.Inv := h.updHealth
  have hu : u.Inv := ht.hltEvent
  exact .ite ht (.ite hu.logError hu)

theorem State.Inv.droop {r : Nat} (h : s.Inv) : (s.droop r).Inv := h.updHealth.count.raiseLimited fun _ _ ht => ht.askVector.updHealth

theorem State.Inv.setVcore {mv : Nat} (h : s.Inv) : (s.setVcore mv).Inv := h.updHealth.updPower.out

theorem State.Inv.avs {f : AvsFacts} (h : s.Inv) : (s.avs f).Inv := by
  unfold State.avs
  extract_lets ratio run t v up u above w
  have ht : t.Inv := h.updHealth
  have hu : u.Inv := ht.updHealth
  have hw : w.Inv := .ite hu hu.setVcore
  exact .ite (.ite hw.updHealth.hltEvent hw) (.ite ht.setVcore ht)

theorem State.Inv.meanTemp (h : s.Inv) : s.meanTemp.2.Inv := by
  unfold State.meanTemp
  split
  · exact h.drawNat
  · exact h

theorem State.Inv.age (h : s.Inv) : s.age.Inv := .ite h.updHealth.updNv.updHealth h.updHealth

theorem State.Inv.hltSensorsBody {c : Cmd} (h : s.Inv) : (hltSensorsBody c s).Inv := h.reply

theorem State.Inv.hltFurlLogBody {c : Cmd} (h : s.Inv) : (hltFurlLogBody c s).Inv := h.reply

theorem State.Inv.hltAgeingBody {c : Cmd} (h : s.Inv) : (hltAgeingBody c s).Inv := h.ok

/-! ## Self-tests and Halyard -/

theorem State.Inv.testJob {t : Test} {deps : List Nat} (h : s.Inv) : (s.testJob t deps).Inv := h.addJob

theorem State.Inv.beginTest {t : Test} (h : s.Inv) : (s.beginTest t).Inv := by
  unfold State.beginTest
  extract_lets l id x u v
  have hu : u.Inv := h.scanAtOnce
  have hv : v.Inv := hu.updPort
  split
  · exact .ite h.testJob h.startMigration.testJob
  · exact .ite h.noteReceived.updShroud h
  · exact h.testJob
  · exact h.testJob
  · exact h
  · split
    · exact h.scanAtOnce
    · exact .ite (.ite hv.linkDown hv) (.ite hu hu.updPort)

theorem State.Inv.updTest {i : Nat} {f : Test → Test} (h : s.Inv) : (s.updTest i f).Inv := h.updObs

theorem State.Inv.startTest {i : Nat} (h : s.Inv) : (s.startTest i).Inv := by
  unfold State.startTest
  split
  · exact h
  · exact .ite h.updTest.beginTest h

theorem State.Inv.recordRetired {l : Loc} {cls : Nat} (h : s.Inv) : (s.recordRetired l cls).Inv := .ite h h.updNv

theorem State.Inv.retireResource {l : Loc} {cls : Nat} (h : s.Inv) : (s.retireResource l cls).Inv := h.recordRetired.raise

theorem State.Inv.lasting {cls : Nat} {l : Loc} (h : s.Inv) : (s.lasting cls l).2.Inv := by
  unfold State.lasting
  extract_lets t u
  have ht : t.Inv := h.updNv
  have hu : u.Inv := ht.retireResource
  split
  · exact .iteSnd ht.memLasting ht.memLasting.recordRetired
  · exact ht.updShroud.retireResource
  · exact .ite hu.updShroud hu.requeue
  · exact .ite hu.updShroud hu.requeue
  · exact ht
  · exact .iteSnd ht ht.retireResource

theorem State.Inv.spareAgain {p : Nat} (h : s.Inv) : (s.spareAgain p).Inv := .ite h h.updHbm

theorem State.Inv.selftestDone {seq status : Nat} (h : s.Inv) : (s.selftestDone seq status).Inv := h.finishAll

theorem State.Inv.endTest {i : Nat} {r : Option Bool} {result flags : Nat} {busy : Bool} (h : s.Inv) :
    (s.endTest i r result flags busy).Inv := by
  unfold State.endTest
  split
  · exact h
  · extract_lets t
    have ht : t.Inv := h.updObs
    dsimp only
    split
    · refine State.Inv.askWarm ?_
      exact ((State.Inv.iteSnd ht.lasting ht).each (fun _ _ ht => ht.errDecide)).each fun _ _ ht => ht.selftestDone
    · exact ((State.Inv.iteSnd ht.lasting ht).each (fun _ _ ht => ht.errDecide)).each fun _ _ ht => ht.selftestDone

theorem State.Inv.finishRun {t : Test} {f : TestFacts} (h : s.Inv) : (s.finishRun t f).Inv := by
  unfold State.finishRun
  extract_lets u v x w
  have hu : u.Inv := by
    unfold u
    split
    · exact h.completeJob
    · exact h
  have hv : v.Inv := hu.updPc
  have hw : w.Inv := hu.updShroud
  split
  · exact .ite hv hv.spareAgain
  · exact .ite hw.updShroud hw
  · exact hu

theorem State.Inv.obsSelftestBody {c : Cmd} (h : s.Inv) : (obsSelftestBody c s).Inv := by
  unfold Machine.obsSelftestBody
  extract_lets cls l t u seq v
  have ht : t.Inv := h.accept
  have hu : u.Inv := ht.errWrite
  have hv : v.Inv := hu.errQueue
  split
  · exact h.badField
  · split
    · exact h.badField
    · exact .ite h.fail (.ite hv hv.selftestDone)

theorem State.Inv.errHistory {first n : Nat} (h : s.Inv) : (s.errHistory first n).2.Inv := by
  induction n generalizing s first with
  | zero => exact h
  | succ n ih =>
    unfold State.errHistory
    split
    · exact ih h
    · exact ih h.drawNat

theorem State.Inv.obsErrHistoryBody {c : Cmd} (h : s.Inv) : (obsErrHistoryBody c s).Inv := .ite h.badField h.errHistory.reply

theorem State.Inv.obsRetiredBody {c : Cmd} (h : s.Inv) : (obsRetiredBody c s).Inv := .ite h.badField h.reply

theorem State.Inv.obsUnretireBody {c : Cmd} (h : s.Inv) : (obsUnretireBody c s).Inv := by
  unfold Machine.obsUnretireBody
  extract_lets l t u
  have ht : t.Inv := h.updNv
  have hu : u.Inv := .ite ht.updShroud ht
  exact .ite h.badField (.ite h.badField hu.ok)

theorem State.Inv.obsVectorBody {c : Cmd} (h : s.Inv) : (obsVectorBody c s).Inv := .ite h.badField h.updObs.ok

theorem State.Inv.obsHalyardArmBody {c : Cmd} (h : s.Inv) : (obsHalyardArmBody c s).Inv :=
  .ite h.badField (.ite h.badField (.ite h.badField h.updObs.ok))

theorem State.Inv.obsHalyardFireBody {c : Cmd} (h : s.Inv) : (obsHalyardFireBody c s).Inv := .ite h.halTrigger.ok h.drawNat.ok

/-! ## Resets and boot -/

theorem reset_shape : State.reset.shape = theShape := by
  simp only [State.shape, State.reset, Ncp.reset, MemCtl.reset, Time.reset, List.length_replicate, theShape]

/-- A reset of the whole device brings every table but the shrouds and the time bases to its reset value, and these two to values of
their own. -/
theorem State.Inv.wipe {warm : Bool} : (s.wipe warm).Inv := by
  have hbases : (s.resetTime warm).bases.length = 5 := by
    unfold State.resetTime
    split
    · exact List.length_replicate
    · exact List.length_replicate
  have hshrouds : s.resetShrouds.length = 56 := by simp only [State.resetShrouds, List.length_map, List.length_range]
  have hshape : (s.wipe warm).shape = theShape := by
    simp only [State.shape, State.wipe, hshrouds, hbases, State.reset, Ncp.reset, MemCtl.reset, List.length_replicate, theShape]
  exact ⟨hshape, rfl⟩

theorem State.Inv.copyFurl {flags : Nat} {peak : Int} {coolingMs : Nat} (h : s.Inv) : (s.copyFurl flags peak coolingMs).Inv := h.updNv

theorem State.Inv.furl {cause source : Nat} : (s.furl cause source).Inv := State.Inv.wipe.updHealth.updPower.out

theorem State.Inv.stopBoot {code : Byte} {stage : BootStage} (h : s.Inv) : (s.stopBoot code stage).Inv := h.updPower.setCause

theorem State.Inv.stopPower {code : Byte} (h : s.Inv) : (s.stopPower code).Inv := h.releasePins.updPower.stopBoot

theorem State.Inv.retireStack {k step : Nat} (h : s.Inv) : (s.retireStack k step).Inv := by
  have hretired := (h.updHbm (n := k) (f := fun x => { x with st := 3, failStep := step })).updMem
    (f := fun m => { m with pchans := (numbered m.pchans).map fun x => if x.1 / 32 = k then { x.2 with retired := true } else x.2 })
    (by simp [MemCtl.kept, MemCtl.lengths, numbered_length])
  exact (State.Inv.ite hretired hretired.updNv).raise

theorem State.Inv.applyRepairs {k : Nat} (h : s.Inv) : (s.applyRepairs k).Inv := h.updNv.updHbm.each fun _ _ ht => ht.retirePage

theorem State.Inv.takeSpares {k : Nat} (h : s.Inv) : (s.takeSpares k).Inv := h.drawNat.updHbm

theorem State.Inv.trainStack {k : Nat} (h : s.Inv) : (s.trainStack k).Inv := by
  unfold State.trainStack
  dsimp only
  refine .ite (State.Inv.retireStack ?trained) (.ite (State.Inv.retireStack ?trained)
    (State.Inv.takeSpares (State.Inv.updMem (State.Inv.updHbm (State.Inv.applyRepairs ?trained)) ?ready)))
  case trained => exact h.drawNat.drawNat.updMem (by simp [MemCtl.kept, MemCtl.lengths, numbered_length])
  case ready => simp [MemCtl.kept, MemCtl.lengths, numbered_length]

theorem State.Inv.linkSeen (h : s.Inv) : s.linkSeen.Inv := .ite h.updPower.raise h

theorem State.Inv.furlSeen (h : s.Inv) : s.furlSeen.Inv := .ite h.hltEvent.logError h

theorem State.Inv.bootFirmware (h : s.Inv) : s.bootFirmware.Inv := by
  unfold State.bootFirmware
  extract_lets t u v w
  have ht : t.Inv := h.each fun _ _ ht => ht.trainStack
  have hu : u.Inv := ht.updPower
  have hv : v.Inv := hu.restore
  have hw : w.Inv := hv.updPower.furlSeen
  exact .ite ht.updPower.stopBoot hw.updPower.setCause

theorem State.Inv.finishEnrol (h : s.Inv) : s.finishEnrol.Inv := .ite h.updNv.raise h

theorem State.Inv.fallback {failed : Option Byte} (h : s.Inv) : (s.fallback failed).Inv := h.drawNat.raise

theorem State.Inv.runFirst {img : List Byte} (h : s.Inv) : (s.runFirst img).Inv := h.updTrust.updPower

theorem State.Inv.runNimlek {img : List Byte} {source : Nat} (h : s.Inv) :
    (s.runNimlek img source).Inv := (h.updTrust.updNcp (by intro; rfl)).updPower

theorem State.Inv.bootNimlek {img : List Byte} {source : Nat} {fell : Bool} {failed : Option Byte} (h : s.Inv) :
    (s.bootNimlek img source fell failed).Inv := by
  unfold State.bootNimlek
  extract_lets t u v w
  have ht : t.Inv := h.runNimlek
  have hu : u.Inv := ht.finishEnrol.issueCerts
  have hv : v.Inv := .ite hu.hltEvent hu
  have hw : w.Inv := .ite hv.fallback hv
  exact hw.linkSeen.bootFirmware

theorem State.Inv.bootImages {fell : Bool} {srcs : List Nat} {failed last : Option Byte} (h : s.Inv) :
    (s.bootImages fell srcs failed last).Inv := by
  induction srcs generalizing s fell failed last with
  | nil => exact h.stopBoot
  | cons src rest ih =>
    unfold State.bootImages
    extract_lets t u v
    have hu : u.Inv := .ite h.updPower.updNv.updPower h.updPower
    split
    · exact ih hu
    · split
      · exact ih hu.runFirst
      · exact hu.runFirst.bootNimlek

theorem State.Inv.bootMast (h : s.Inv) : s.bootMast.Inv := by
  unfold State.bootMast
  extract_lets slot
  split
  · exact .ite h.updNv.bootImages (.ite h.updNv.bootImages h.bootImages)
  · exact h.bootImages
  · exact h.bootImages
  · exact h.drivePins.bootImages
  · exact h.updPower

theorem State.Inv.bootPlls (h : s.Inv) : s.bootPlls.Inv :=
  .ite ((State.Inv.ite h.updPower.drivePins.updEp h.updPower).bootMast) h.updPower

theorem State.Inv.bootVoltages {n : Nat} (h : s.Inv) : (s.bootVoltages n).Inv := (h.drivePins.each (fun _ _ ht => ht.out)).updPower

theorem State.Inv.bootRails (h : s.Inv) : s.bootRails.Inv := by
  unfold State.bootRails
  extract_lets acked t u on
  have ht : t.Inv := h.bootVoltages
  have hu : u.Inv := ht.drivePins
  exact .ite ht.stopPower (.ite hu.updPower.bootPlls hu.drawNat.updPower)

theorem State.Inv.bootXtal (h : s.Inv) : s.bootXtal.Inv := .ite h.updPower.bootRails h.updPower

theorem State.Inv.boot {env : BootEnv} (h : s.Inv) : (s.boot env).Inv := by
  unfold State.boot
  extract_lets t u v
  have hv : v.Inv := h.updPower.updNv.updHealth
  exact .ite .furl (.ite hv.stopBoot (.ite hv.updPower hv.bootXtal))

theorem State.Inv.leaveReset {env : BootEnv} (h : s.Inv) : (s.leaveReset env).Inv := .ite h.boot h

theorem State.Inv.dropRails {ordered : Bool} (h : s.Inv) : (s.dropRails ordered).Inv := h.each fun _ _ ht => ht.out

theorem State.Inv.enterWarm {cause : Byte} : (s.enterWarm cause).Inv := State.Inv.wipe.updPower

theorem State.Inv.enterCold {cause : Byte} : (s.enterCold cause).Inv := State.Inv.wipe.updPower

theorem State.Inv.crystalBack (h : s.Inv) : s.crystalBack.Inv := .ite h.updPower.updPower.bootXtal h.updPower

theorem State.Inv.crystalLoss {env : BootEnv} (h : s.Inv) : (s.crystalLoss env).Inv := .ite State.Inv.enterWarm.leaveReset h.updPower

theorem State.Inv.warmEntry {env : BootEnv} (h : s.Inv) : (s.warmEntry env).Inv := by
  unfold State.warmEntry
  split
  · exact h
  · exact .ite State.Inv.enterWarm.leaveReset h

theorem State.Inv.devResetBody {c : Cmd} (h : s.Inv) : (devResetBody c s).Inv :=
  .ite h.fail (.ite h.badField h.ok.askWarm.closeSegments)

theorem State.Inv.mgmtImageBeginBody {c : Cmd} (h : s.Inv) : (mgmtImageBeginBody c s).Inv :=
  .ite h.badField (.ite h.badField (.ite h.fail (h.updNcp (by intro; rfl)).ok))

theorem State.Inv.mgmtImageDataBody {c : Cmd} (h : s.Inv) : (mgmtImageDataBody c s).Inv := by
  unfold Machine.mgmtImageDataBody
  extract_lets d
  split
  · exact h.fail
  · split
    · exact h.badField
    · exact .ite h.badField (h.updNcp (by intro; rfl)).ok

theorem State.Inv.imageArrived {i : ImageIn} (h : s.Inv) : (s.imageArrived i).Inv := by
  unfold State.imageArrived
  extract_lets want short code st t
  clear_value code
  have ht : t.Inv := h.finishAll
  split
  · exact h.stopBoot.finishAll
  · exact .ite ht.runFirst.updPower ht.bootNimlek

theorem State.Inv.mgmtImageEndBody {c : Cmd} (h : s.Inv) : (mgmtImageEndBody c s).Inv := by
  unfold Machine.mgmtImageEndBody
  split
  · exact h.fail
  · extract_lets t
    have ht : t.Inv := h.accept
    split
    · exact ht.finishAll
    · exact (ht.updNcp (by intro; rfl)).imageArrived

/-! ## Host and management accesses -/

theorem State.Inv.readEffect {a : Nat} (h : s.Inv) : (s.readEffect a).Inv := by
  unfold State.readEffect
  split
  · exact h.congr (by rfl)
  · split
    · exact h.latchBase
    · exact h

theorem State.Inv.readStep {a : Nat} (h : s.Inv) : (s.readStep a).2.Inv := h.readEffect

theorem State.Inv.readWords {n a : Nat} (h : s.Inv) : (State.readWords n a s).2.Inv := by
  induction n generalizing s a with
  | zero => exact h
  | succ n ih => exact ih h.readStep

theorem State.Inv.hostRead {a len : Nat} (h : s.Inv) : (s.hostRead a len).Inv := h.readWords.out

theorem State.Inv.withLatches {l : List (Nat × Word)} (h : s.Inv) : ({ s with latches := l } : State).Inv := h.congr rfl

theorem State.Inv.withRejectBits {f : Ncp → BitVec 64} (h : s.Inv) :
    (s.updNcp fun n => { n with rejectBits := f n }).Inv := h.updNcp (by intro; rfl)

theorem State.Inv.clearBits {a v hw : Nat} (h : s.Inv) : (s.clearBits a v hw).Inv := by
  have hcause : (s.updNcp fun n => { n with globalCause := BitVec.ofNat 32 (rw1c n.globalCause.toNat v hw
    (rw1cMask a)) }).Inv := h.updNcp (by intro; rfl)
  exact .ite (h.updNcp (by intro; rfl)) (.ite (.ite hcause hcause.askVector)
    (.ite h.withRejectBits (.ite h.withRejectBits (.ite h h.updObs.withLatches))))

theorem State.Inv.writeMsix {off v : Nat} (h : s.Inv) : (s.writeMsix off v).Inv := by
  unfold State.writeMsix
  extract_lets n
  split
  · exact h.updVec
  · exact h.updVec
  · exact h.updVec
  · exact .ite h.updVec h.unmask

theorem State.Inv.writeWord {a v : Nat} (h : s.Inv) : (s.writeWord a v).Inv := by
  unfold State.writeWord
  split
  · exact h.clearBits
  · split
    · exact .ite h.halTrigger h
    · split
      · exact h.ringAll
      · split
        · exact h.releaseAll
        · exact .ite h.updSession (.ite (h.updNcp (by intro; rfl)).eqOwed (.ite h.writeMsix h))

theorem State.Inv.writeSlots {addr : Nat} {data : List Byte} (h : s.Inv) : (s.writeSlots addr data).Inv :=
  h.each (fun _ _ ht => .ite ht.writeSlot ht)

theorem State.Inv.writeRings {addr : Nat} {data : List Byte} (h : s.Inv) : (s.writeRings addr data).Inv :=
  .ite (h.updNcpMem (by intro; rfl) fun _ => Mem.writeN_wf _ _ _) h

theorem State.Inv.hostWrite {addr : Nat} {data : List Byte} (h : s.Inv) : (s.hostWrite addr data).Inv :=
  h.writeSlots.writeRings.each fun _ _ ht => ht.writeWord

theorem State.Inv.mgPut {l : Nat} {b : Byte} (h : s.Inv) : (s.mgPut l b).Inv :=
  .ite (h.updNcpMem (by intro; rfl) fun _ => Mem.write_wf _ _ _) h

theorem State.Inv.mgWrite {l : Nat} {d : List Byte} (h : s.Inv) : (s.mgWrite l d).Inv := by
  unfold State.mgWrite
  extract_lets ignored t u holds v
  have ht : t.Inv := h.each fun _ _ ht => ht.mgPut
  have hu : u.Inv := ht.updNcp (by intro; rfl)
  have hv : v.Inv := .ite hu.mgRing hu
  exact .ite hv.mgFree hv

theorem State.Inv.mgFrame {mosi : List Byte} {readLen : Nat} (h : s.Inv) : (s.mgFrame mosi readLen).Inv :=
  .ite h (.ite h.out (.ite h.mgWrite h))

/-! ## Supplies, pins and link resets -/

theorem State.Inv.aonRise (h : s.Inv) : s.aonRise.Inv := .ite h h.updPower

theorem State.Inv.furlCut (h : s.Inv) : s.furlCut.Inv := by
  unfold State.furlCut
  split
  · exact .ite h.drawBool.drawNat.drawNat.copyFurl h.drawBool.drawNat.drawNat
  · exact h

theorem State.Inv.supplyLoss {aon : Bool} (h : s.Inv) : (s.supplyLoss aon).Inv :=
  .ite h (.ite State.Inv.wipe.updPower.updHealth State.Inv.wipe.updPower)

theorem State.Inv.pwrokRise {bootsel : BitVec 3} {mgmtAddr : BitVec 2} {env : BootEnv} (h : s.Inv) :
    (s.pwrokRise bootsel mgmtAddr env).Inv :=
  .ite h (.ite h.updPower State.Inv.enterCold.leaveReset)

theorem State.Inv.pwrokFall (h : s.Inv) : s.pwrokFall.Inv := .ite h (.ite h.updPower .wipe)

theorem State.Inv.sysResetFall {lowNs : Nat} (h : s.Inv) : (s.sysResetFall lowNs).Inv := by
  unfold State.sysResetFall
  split
  · exact h
  · dsimp only
    split
    · exact .ite h.drawBool (.ite .enterWarm h.drawBool.updPower)
    · exact .ite h (.ite .enterWarm h.updPower)

/-- A table that a link reset brings to its reset value has the size of the shape. -/
theorem State.Inv.sessions_length (h : s.Inv) : s.ncp.sessions.length = 16 := by
  have hentry := congrArg (·[1]?) h.1
  simpa [State.shape, theShape] using hentry

theorem State.Inv.vecs_length (h : s.Inv) : s.vecs.length = 256 := by
  have hentry := congrArg (·[3]?) h.1
  simpa [State.shape, theShape] using hentry

theorem State.Inv.loseHost (h : s.Inv) : s.loseHost.Inv := by
  unfold State.loseHost
  extract_lets t cut u v
  have ht : t.Inv := h.each fun _ _ ht => ht.orphanWaiting
  clear_value t
  have hv : v.Inv := by
    refine ht.of_shape ?_ fun hok => ?_
    · simp only [State.shape, v, u, State.updNcp, List.length_map, List.length_replicate, ht.sessions_length, ht.vecs_length]
    · simp only [State.memoriesOk, v, u, State.updNcp, Bool.and_eq_true] at hok ⊢
      exact ⟨Mem.clear_wf _ _ _ hok.1, hok.2⟩
  exact hv.updObs

theorem State.Inv.linkReset {st : Nat} {keep : Bool} (h : s.Inv) : (s.linkReset st keep).Inv :=
  .ite h.loseHost.updEp.updPower.linkDown h.loseHost.updEp.updPower

theorem State.Inv.perstFall {lowNs : Nat} (h : s.Inv) : (s.perstFall lowNs).Inv :=
  .ite h (.ite h.updPower.linkReset h.updPower)

theorem State.Inv.perstRise (h : s.Inv) : s.perstRise.Inv :=
  .ite h ((State.Inv.ite h.updPower.drivePins.updEp h.updPower).linkSeen)

theorem State.Inv.hostLinkLost (h : s.Inv) : s.hostLinkLost.Inv := .ite h.linkReset.linkSeen h

theorem State.Inv.refclkStop (h : s.Inv) : s.refclkStop.Inv := .ite h.hostLinkLost h.updEp

theorem State.Inv.furlVote {cause source : Nat} (h : s.Inv) : (s.furlVote cause source).Inv := .ite .furl h

theorem State.Inv.furlRestart {cool : CoolFacts} {env : BootEnv} (h : s.Inv) : (s.furlRestart cool env).Inv :=
  .ite State.Inv.enterCold.leaveReset h

theorem State.Inv.furlRelease {v : Word} {cool : CoolFacts} {env : BootEnv} (h : s.Inv) : (s.furlRelease v cool env).Inv :=
  .ite State.Inv.enterCold.leaveReset h

end

/-! ## Every command and every step -/

section

variable {s t : State}

/-- Each command by the lemmas of the functions that its arm names. -/
theorem State.Inv.exec {c : Instr} (h : s.Inv) (hexec : exec c s = .next t) : t.Inv := by
  cases c <;> obtain rfl := Host.Outcome.next.inj hexec
  case doorbell => exact .ite h.ringAll h
  case slotRelease => exact .ite h.releaseAll h
  case slotWrite => exact .ite h.writeSlots h
  case rw1cClear => exact .ite h.clearBits h
  case loWordRead => exact .ite h.hostRead h
  case baseSecLoRead => exact .ite h h.latchBase.out
  case glbHalyardFire | halyardInEdge => exact .ite h.halTrigger h
  case registerWrite => exact .ite h.hostWrite h
  case mgmtFrame => exact h.mgFrame
  case mgDoorbell => exact h.mgRing
  case mgRelease => exact .ite h.mgFree h
  case mgFurlRelease => exact h.furlRelease
  case sessionOpen => exact h.take fun _ _ ht => ht.sessionOpenBody
  case sessionClose => exact h.take fun _ _ ht => ht.sessionCloseBody
  case sessionHeartbeat => exact h.take fun _ _ ht => ht.sessionHeartbeatBody
  case devInfo => exact h.take fun _ _ ht => ht.devInfoBody
  case devReset => exact (h.take (fun _ _ ht => ht.devResetBody)).settle
  case sessionOrphans => exact h.take fun _ _ ht => ht.sessionOrphansBody
  case eventMask => exact h.take fun _ _ ht => ht.eventMaskBody
  case primaryClaim => exact h.take fun _ _ ht => ht.primaryClaimBody
  case mgmtImageBegin => exact h.take fun _ _ ht => ht.mgmtImageBeginBody
  case mgmtImageData => exact h.take fun _ _ ht => ht.mgmtImageDataBody
  case mgmtImageEnd => exact h.take fun _ _ ht => ht.mgmtImageEndBody
  case cfgStageBegin => exact h.take fun _ _ ht => ht.cfgStageBeginBody
  case cfgStageBlock => exact h.take fun _ _ ht => ht.cfgStageBlockBody
  case cfgStageDiscard => exact h.take fun _ _ ht => ht.cfgStageDiscardBody
  case cfgValidate => exact h.take fun _ _ ht => ht.cfgValidateBody
  case cfgCommit => exact h.take fun _ _ ht => ht.cfgCommitBody
  case cfgRollback => exact h.take fun _ _ ht => ht.cfgRollbackBody
  case cfgStatus => exact h.take fun _ _ ht => ht.cfgStatusBody
  case cfgReadBlock => exact h.take fun _ _ ht => ht.cfgReadBlockBody
  case nrgCostRead => exact h.take fun _ _ ht => ht.nrgCostReadBody
  case nrgTrace => exact h.take fun _ _ ht => ht.nrgTraceBody
  case nrgEstimate => exact h.take fun _ _ ht => ht.nrgEstimateBody
  case slRetrain => exact (h.take (fun _ _ ht => ht.slRetrainBody)).settle
  case slEyeScan => exact h.take fun _ _ ht => ht.slEyeScanBody
  case slLoopback => exact h.take fun _ _ ht => ht.slLoopbackBody
  case slTrainLog => exact h.take fun _ _ ht => ht.slTrainLogBody
  case scpRead | scpWrite => exact h.take fun _ _ ht => ht.scpTransfer
  case capStart => exact h.take fun _ _ ht => ht.capStartBody
  case capStop => exact h.take fun _ _ ht => ht.capStopBody
  case capTrigger => exact h.take fun _ _ ht => ht.capTriggerBody
  case capSnap => exact h.take fun _ _ ht => ht.capSnapBody
  case capRelease => exact (h.take (fun _ _ ht => ht.capReleaseBody)).settle
  case capFrameRecord => exact h.take fun _ _ ht => ht.capFrameRecordBody
  case capRead => exact h.take fun _ _ ht => ht.capReadBody
  case capCounters => exact h.take fun _ _ ht => ht.capCountersBody
  case encForceIrap => exact h.take fun _ _ ht => ht.encForceIrapBody
  case encPictureRecord => exact h.take fun _ _ ht => ht.encPictureRecordBody
  case decSubmit => exact h.take fun _ _ ht => ht.decSubmitBody
  case decFlush => exact h.take fun _ _ ht => ht.decFlushBody
  case decRestart => exact h.take fun _ _ ht => ht.decRestartBody
  case decRelease => exact h.take fun _ _ ht => ht.decReleaseBody
  case decRecord => exact h.take fun _ _ ht => ht.decRecordBody
  case decRead => exact h.take fun _ _ ht => ht.decReadBody
  case recStart => exact (h.take (fun _ _ ht => ht.recStartBody)).settle
  case recStop => exact (h.take (fun _ _ ht => ht.recStopBody)).settle
  case recGrant => exact (h.take (fun _ _ ht => ht.recGrantBody)).settle
  case recRevoke => exact (h.take (fun _ _ ht => ht.recRevokeBody)).settle
  case recReport => exact h.take fun _ _ ht => ht.recReportBody
  case recAck => exact (h.take (fun _ _ ht => ht.recAckBody)).settle
  case recAdmin => exact h.take fun _ _ ht => ht.recAdminBody
  case recIo => exact h.take fun _ _ ht => ht.recIoBody
  case recPortReset => exact (h.take (fun _ _ ht => ht.recPortResetBody)).settle
  case brlOpen => exact h.take fun _ _ ht => ht.brlOpenBody
  case brlSubmit => exact (h.take (fun _ _ ht => ht.brlSubmitBody)).settle
  case brlClose => exact h.take fun _ _ ht => ht.brlCloseBody
  case brlReadContext => exact h.take fun _ _ ht => ht.brlReadContextBody
  case memLocate => exact h.take fun _ _ ht => ht.memLocateBody
  case memTrainLog => exact h.take fun _ _ ht => ht.memTrainLogBody
  case memRetired => exact h.take fun _ _ ht => ht.memRetiredBody
  case flxLinkInfo => exact h.take fun _ _ ht => ht.flxLinkInfoBody
  case flxMargin => exact h.take fun _ _ ht => ht.flxMarginBody
  case flxRetrain => exact h.take fun _ _ ht => ht.flxRetrainBody
  case timRead => exact h.take fun _ _ ht => ht.timReadBody
  case timSet => exact (h.take (fun _ _ ht => ht.timSetBody)).settle
  case timPtpStatus => exact h.take fun _ _ ht => ht.timPtpStatusBody
  case trsMuster => exact h.take fun _ _ ht => ht.trsMusterBody
  case trsCert => exact h.take fun _ _ ht => ht.trsCertBody
  case trsOwnerEnrol => exact h.take fun _ _ ht => ht.trsOwnerEnrolBody
  case trsFwBegin => exact h.take fun _ _ ht => ht.trsFwBeginBody
  case trsFwData => exact h.take fun _ _ ht => ht.trsFwDataBody
  case trsFwEnd => exact h.take fun _ _ ht => ht.trsFwEndBody
  case trsFwActivate => exact (h.take (fun _ _ ht => ht.trsFwActivateBody)).settle
  case trsFwConfirm => exact h.take fun _ _ ht => ht.trsFwConfirmBody
  case trsSvnCommit => exact h.take fun _ _ ht => ht.trsSvnCommitBody
  case trsRecipients => exact h.take fun _ _ ht => ht.trsRecipientsBody
  case trsDebugChallenge => exact h.take fun _ _ ht => ht.trsDebugChallengeBody
  case trsDebugUnlock => exact h.take fun _ _ ht => ht.trsDebugUnlockBody
  case hltSensors => exact h.take fun _ _ ht => ht.hltSensorsBody
  case hltFurlLog => exact h.take fun _ _ ht => ht.hltFurlLogBody
  case hltAgeing => exact h.take fun _ _ ht => ht.hltAgeingBody
  case obsSelftest => exact (h.take (fun _ _ ht => ht.obsSelftestBody)).settle
  case obsErrHistory => exact h.take fun _ _ ht => ht.obsErrHistoryBody
  case obsRetired => exact h.take fun _ _ ht => ht.obsRetiredBody
  case obsUnretire => exact h.take fun _ _ ht => ht.obsUnretireBody
  case obsVector => exact h.take fun _ _ ht => ht.obsVectorBody
  case obsHalyardArm => exact h.take fun _ _ ht => ht.obsHalyardArmBody
  case obsHalyardFire => exact h.take fun _ _ ht => ht.obsHalyardFireBody
  case vddAonRise => exact h.aonRise
  case supplyLoss => exact h.supplyLoss
  case pwrokRise => exact h.pwrokRise
  case pwrokFall => exact h.pwrokFall
  case sysResetNFall => exact h.sysResetFall
  case sysResetNRise => exact h.updPower.leaveReset
  case perstNFall => exact h.perstFall
  case perstNRise => exact h.perstRise
  case hotReset | dlDown => exact h.hostLinkLost
  case flr => exact .ite h.linkReset.linkSeen h
  case dStateChange => exact .ite h.updEp h
  case msixUnmask => exact .ite h.unmask h
  case refclkStop => exact h.refclkStop
  case crystalLoss => exact h.crystalLoss
  case trefInLoss => exact h.trefLoss
  case trefInRestore => exact h.trefRestore
  case trigInEdge => exact .ite h.trigEdge.settle h
  case ppsInEdge => exact .ite h.ppsEdge.settle h
  case genlockInEdge => exact .ite h.genlockEdge.settle h
  case pmb1Alert => exact h.each (fun _ _ ht => .ite ht.powerFault ht)
  case furlVote => exact h.furlVote
  case furlEntryEnd => exact h.updPower
  case furlRestart => exact h.furlRestart
  case droop => exact .ite h.droop h
  case ethFrameRx => exact h.ethFrame.settle
  case oslFs => exact h.fsCloses.settle.fs.settle
  case oslFe => exact h.fe.settle
  case oslLine => exact h.line.settle
  case oslLs | oslLe => exact h.mark
  case oslStat => exact h.stat
  case oslEmbedded | oslUser => exact h.data.settle
  case hdrCrc => exact h.hdrCrc.settle
  case orphan | hdrField => exact .ite h.updSensor h
  case badHead => exact h.badHead.settle
  case alignBlock => exact h.alignPeriod.settle
  case slLockLost => exact h.lockLost.settle
  case slHdrErrBurst => exact h.hdrErrBurst
  case shroudTrain => exact .ite h (.ite h.trainTimeout h.trainShroud)
  case shroudTrainTimeout =>
    split
    · exact .ite h.trainTimeout h
    · exact h
  case relockTimeout => exact h.relockTimeout
  case periodicEyeScan => exact h.resize (by simp [State.shape]) rfl
  case loopbackEnd => exact h.loopbackDone
  case scpWaitTimeout =>
    split
    · exact .ite h.updSensor.fail.sweepList h
    · exact h
  case ledgerTick => exact h.tick
  case leakageRefresh => exact .ite h.meanTemp.updLedger h
  case telemetryRead => exact .ite h.telemetry h
  case telemetryStale => exact .ite h.updLedger.raise h
  case jobStart => exact h.startNext
  case jobComplete => exact h.jobDone
  case jobRetire =>
    split
    · exact .ite h.retireJob.settle h
    · exact h
  case headTimeout => exact h.headTimeout.settle
  case frameTimeout => exact .ite h.frameTimeout.settle h
  case armTimeout => exact .ite h.armExpires h
  case globalBlockApply =>
    split
    · exact (State.Inv.ite h.applyGlobals.applyIdleDecs h.applyGlobals).settle
    · exact h
  case probationLimit =>
    split
    · exact h
    · exact .ite h h.probationPass
  case cfgPersistDone =>
    split
    · exact h
    · exact .ite h.updCfg.updNv.raise h.updCfg.raise
  case completionPost =>
    split
    · exact h
    · exact .ite h ((State.Inv.ite (h.updNcp (by intro; rfl)).postNow.closeSession (h.updNcp (by intro; rfl)).postNow).sweepList)
  case msixMessageSend => exact .ite h.sendVector h
  case sessionExpired => exact .ite h h.closeSession.setCause.raise
  case openSlotTimeout => exact .ite h.updSlot h
  case watchdogExpiry => exact .ite State.Inv.enterWarm.leaveReset h
  case warmResetEntry => exact h.warmEntry
  case xtalFail | railTimeout | pllLockFail | railDischarge => exact .ite h.stopPower h
  case refresh => exact h.refresh
  case timingRetune => exact h.updMem (by simp [MemCtl.kept, MemCtl.lengths])
  case stackReading => exact .ite h.stackReading h
  case stackUnread => exact .ite h.updHealth.hltEvent h
  case healthEval => exact .ite h.healthEval h
  case remoteChannelRead => exact .ite h.remoteRead h
  case railMonitorRead => exact .ite h.railRead h
  case avsUpdate => exact .ite h.avs h
  case ageingUpdate => exact .ite h.age h
  case powerMapReadVout => exact h.each (fun _ _ ht => .ite ht.readVout ht)
  case powerRampTimeout => exact .ite h.drawNat.powerFault h
  case healthClockWrite => exact .ite h.updNv h
  case selftestStart => exact h.startTest.settle
  case selftestEnd =>
    split
    · exact h
    · exact .ite h.finishRun.endTest.settle h
  case selftestRunTimeout =>
    split
    · exact h
    · exact .ite h (.ite h.endTest.settle h.endTest.settle)
  case halyardPendingFire =>
    split
    · exact .ite h.halPulse h
    · exact h
  case timeMatch =>
    split
    · exact .ite (.ite h.updObs.halTrigger h.updObs) h
    · exact h
  case tbvCadenceEdge => exact h.cadenceEdge.settle
  case tbvServoUpdate => exact h.tbvUpdate
  case announceReceiptTimeout => exact h.announceTimeout
  case ppsInLoss => exact h.ppsLoss
  case genlockInLoss => exact h.genlockLoss
  case crystalCorrection => exact .ite h.crystalCorrection h
  case xtalStale => exact h.markXtalStale
  case ppsOutPulse => exact h.ppsPulse
  case segmentTimeClose =>
    split
    · exact .ite h h.closeSegment.settle
    · exact h
  case manifestSigned =>
    split
    · exact (h.endJob (fun _ ht => ht.signNext)).settle
    · exact h
  case nvmeCompletion => exact h.nvmeDone.settle
  case nvmeCommandTimeout => exact h.nvmeTimeout.settle
  case controllerResetDone => exact h.resetDone.settle
  case linkActive => exact h.linkActive.settle
  case portRetryDetect => exact h.retryDetect
  case l1Entry => exact h.l1Entry
  case ethSignalLoss => exact h.ethDown
  case recoveryTimeout => exact h.recoveryTimeout.settle
  case flexMarginScan => exact h.marginScan
  case lut3dLoaded => exact h.congr (by rfl)
  case decodeBudgetExpiry =>
    split
    · exact .ite ((h.endJob (fun _ ht => ht.runDecode)).settle) h
    · exact h
  case hostDmaDone => exact h.dmaDone.settle
  case badControl => exact .ite h.updShroud h
  case eyeScanDone => exact h.eyeDone
  case flexMarginDone => exact h.marginDone
  case ethLinkUp => exact h.ethUp
  case endpointLinkActive => exact h.epActive
  case rootPortLinkDown => exact h.rootLinkDown.settle
  case pcieRecoveryEntry => exact h.recoveryEntry
  case flxLinkErrors => exact .ite h.flexErrors h
  case sramParityError | engineLogicFault | lockstepMismatch => exact .ite h.logError h
  case ptpMessageInterval => exact h.ptpOut
  case tbvResidualZero => exact h.residualZero
  case perstOutNRelease => exact h.perstRelease
  case crystalRunsAgain => exact h.crystalBack
  case railsDischarged => exact .ite h.updPower.bootXtal h
  case firstLineDue => exact h.firstLine.settle

theorem State.Inv.step (h : s.Inv) (hstep : step s = .next t) : t.Inv := by
  unfold Machine.step at hstep
  split at hstep
  · obtain rfl := Host.Outcome.next.inj hstep
    exact h.cycle
  next rest _ =>
    have hpopped : ({ s with pending := rest } : State).Inv := h.congr rfl
    exact hpopped.exec hstep

end

/-- Settles O8: an empty queue by the lemma of the cycle, a command by the lemma of its arm. -/
theorem stepKeepsInvariant : Obligations.StepKeepsInvariant := fun _ _ h hstep => h.step hstep

/-- Settles O7: the lengths are those of the reset value's lists, and both memories are empty. -/
theorem resetHasInvariant : Obligations.ResetHasInvariant := ⟨reset_shape, rfl⟩

end Sys2Proof.Machine

/-! SUPPORT. The commands of sessions and of the device that open and close nothing (R145, R147 to R151, R587, R591). -/

namespace Sys2Proof.Machine

open Sys2Proof

theorem eventMaskBody_fromPrimary {c : Cmd} {s : State} (hmask : fld c.payload 0 4 &&& 0xFFFF8003 = 0)
    (hprimary : s.fromPrimary c = true) :
    eventMaskBody c s = (s.updNcp fun n => { n with eventMask := BitVec.ofNat 32 (fld c.payload 0 4) }).ok c [] := by
  simp [eventMaskBody, hprimary, hmask]

theorem primaryClaimBody_free {c : Cmd} {s : State} (hnone : s.ncp.sessions.any (·.primary) = false) (hopen : s.orphaned c = false) :
    primaryClaimBody c s = (s.updSession c.session fun x => { x with primary := true }).ok c [] := by
  simp only [primaryClaimBody, hnone, hopen, Bool.false_eq_true, if_false]

theorem primaryClaimBody_taken {c : Cmd} {s : State} (hsome : s.ncp.sessions.any (·.primary) = true) :
    primaryClaimBody c s = s.fail c stBusy := by
  simp only [primaryClaimBody, hsome, if_true]

/-- NO_HOST_RESET forbids resets to host sessions alone (R587). -/
theorem mayReset_iff {s : State} {c : Cmd} : (bit s.policyFlags 1 && !c.box.isMgmt) = false ↔
    c.box.isMgmt = true ∨ bit s.policyFlags 1 = false := by
  cases c.box.isMgmt <;> simp

theorem devResetBody_confirmed {c : Cmd} {s : State} (hmay : c.box.isMgmt = true ∨ bit s.policyFlags 1 = false)
    (hword : fld c.payload 0 4 = 0x5741524D) :
    devResetBody c s = ((s.ok c []).askWarm (if c.box.isMgmt then 0x12 else 0x11)).closeSegments 3 := by
  simp [devResetBody, mayReset_iff.mpr hmay, hword]

theorem devResetBody_forbidden {c : Cmd} {s : State} (hhost : c.box.isMgmt = false) (hpolicy : bit s.policyFlags 1 = true) :
    devResetBody c s = s.fail c stNotAuthorised := by
  simp [devResetBody, hhost, hpolicy]

theorem devResetBody_otherWord {c : Cmd} {s : State} (hmay : c.box.isMgmt = true ∨ bit s.policyFlags 1 = false)
    (hword : fld c.payload 0 4 ≠ 0x5741524D) : devResetBody c s = s.badField c 0 := by
  simp [devResetBody, mayReset_iff.mpr hmay, hword]

theorem trsFwActivateBody_later {c : Cmd} {s : State} (hnow : fld c.payload 0 4 = 0) (hconfirmed : s.unconfirmed = false)
    (hwhole : (s.nv.slot s.otherSlot).whole = true) :
    trsFwActivateBody c s = (s.updNv fun n => { n with trial := 1 }).ok c [] := by
  have hbit : bit 0 0 = false := rfl
  simp [trsFwActivateBody, hnow, hbit, hconfirmed, hwhole]

theorem trsFwActivateBody_now {c : Cmd} {s : State} (hnow : fld c.payload 0 4 = 1) (hpolicy : bit s.policyFlags 1 = false)
    (hconfirmed : s.unconfirmed = false) (hwhole : (s.nv.slot s.otherSlot).whole = true) :
    trsFwActivateBody c s = (((s.updNv fun n => { n with trial := 1 }).ok c []).askWarm 0x11).closeSegments 3 := by
  have hbit : bit 1 0 = true := rfl
  simp [trsFwActivateBody, hnow, hbit, hpolicy, hconfirmed, hwhole]

/-- A command that passes the shared checks, of an arm that settles what follows from it. -/
theorem take_settle_next {s u : State} {b : Mbox} {f : Form} {k : Cmd → State → State} (h : Accepted s b f)
    (hk : k (s.cmdIn b) (s.taken b) = u) :
    (.next (s.take b f k).settle : Host.Outcome State Fault Refusal) = .next (u.sweep b).settle := by
  rw [take_accepted h, hk]

/-- Settles O25: each command passes the shared checks, and its body takes the branch that the clause names. BUSY of a claim while a
session is primary, the claimant itself included, is log entry 24, and the role tested before the mask's bits log entry 10. -/
theorem sessionAndDeviceCommands : Obligations.SessionAndDeviceCommands := by
  refine ⟨fun b s => ⟨?heartbeat, ?info, ?orphans, ?mask, ?claim, ?claimed⟩,
    fun b s => ⟨?reset, ?forbidden, ?word, ?activate, ?activateNow⟩⟩
  case heartbeat => exact fun h => take_next h rfl
  case info => exact fun h => take_next h rfl
  case orphans => exact fun h => take_next h rfl
  case mask => exact fun h hmask hprimary => take_next h (eventMaskBody_fromPrimary hmask hprimary)
  case claim => exact fun h hnone hopen => take_next h (primaryClaimBody_free hnone hopen)
  case claimed => exact fun h hsome => take_next h (primaryClaimBody_taken hsome)
  case reset => exact fun h hmay hword => take_settle_next h (devResetBody_confirmed hmay hword)
  case forbidden => exact fun h hhost hpolicy => take_settle_next h (devResetBody_forbidden hhost hpolicy)
  case word => exact fun h hmay hword => take_settle_next h (devResetBody_otherWord hmay hword)
  case activate => exact fun h hnow hconf hwhole => take_settle_next h (trsFwActivateBody_later hnow hconf hwhole)
  case activateNow => exact fun h hnow hpol hconf hwhole => take_settle_next h (trsFwActivateBody_now hnow hpol hconf hwhole)

end Sys2Proof.Machine

/-! SUPPORT. The checks that all commands share, one equation for each way a command can fail them (R122, R123, R128, R142). -/

namespace Sys2Proof.Machine

open Sys2Proof

/-! ## The sequence check -/

/-- A command in an open slot has no number to be advanced. -/
theorem advanceSeq_of_none {s : State} {c : Cmd} (h : s.expectedSeq c = none) : s.advanceSeq c = s := by
  unfold State.expectedSeq at h
  unfold State.advanceSeq
  cases hbox : c.box with
  | mgmt m => simp [hbox] at h
  | slot n =>
    cases hopen : c.box.isOpen with
    | true => simp [← hbox, hopen]
    | false =>
      simp only [hbox] at h hopen
      simp only [hopen, Bool.false_eq_true, if_false] at h
      split at h <;> cases h

theorem checkSeq_wrong {s : State} {c : Cmd} {k : State → State} {e : BitVec 32} (he : s.expectedSeq c = some e) (hne : c.seq ≠ e) :
    s.checkSeq c k = s.reply c stBadSequence (le 4 e.toNat) none := by
  simp [State.checkSeq, he, hne]

theorem checkSeq_right {s : State} {c : Cmd} {k : State → State} (h : s.expectedSeq c = none ∨ s.expectedSeq c = some c.seq) :
    s.checkSeq c k = k (s.advanceSeq c) := by
  rcases h with hnone | hseq
  · simp [State.checkSeq, hnone, advanceSeq_of_none hnone]
  · simp [State.checkSeq, hseq]

/-! ## The checks of the form -/

section

variable {s : State} {c : Cmd} {hdr : List Byte} {f : Form} {k : Cmd → State → State}

theorem checkForm_sender (h : s.mayCome c f = false) : s.checkForm c hdr f k = s.reply c stBadOpcode (le 2 c.opcode) none := by
  simp [State.checkForm, h]

theorem checkForm_range (hmay : s.mayCome c f = true) (h : f.hi < c.len ∨ c.len < f.lo ∨ c.box.limit < c.len) :
    s.checkForm c hdr f k = s.badLength c (if f.lo = f.hi then f.lo else min f.hi c.box.limit) := by
  have hrange : (f.hi < c.len || c.box.limit < c.len || c.len < f.lo) = true := by
    simp only [Bool.or_eq_true, decide_eq_true_eq]
    omega
  simp only [State.checkForm, hmay, hrange, Bool.not_true, Bool.false_eq_true, if_false, if_true]

theorem inRange_of (hlo : f.lo ≤ c.len) (hhi : c.len ≤ f.hi) (hfits : c.len ≤ c.box.limit) :
    ¬ ((f.hi < c.len ∨ c.box.limit < c.len) ∨ c.len < f.lo) := by
  omega

variable (hmay : s.mayCome c f = true) (hlo : f.lo ≤ c.len) (hhi : c.len ≤ f.hi) (hfits : c.len ≤ c.box.limit)

include hmay hlo hhi hfits

theorem checkForm_entries {n : Nat} (h : f.lens.fault c.payload c.len = some n) : s.checkForm c hdr f k = s.badLength c n := by
  simp [State.checkForm, hmay, inRange_of hlo hhi hfits, h]

theorem checkForm_field (hlens : f.lens.fault c.payload c.len = none) {off : Nat} (h : c.headerFault hdr f = some off) :
    s.checkForm c hdr f k = s.reply c stBadField (le 4 off) none := by
  simp [State.checkForm, hmay, inRange_of hlo hhi hfits, hlens, h]

theorem checkForm_target (hlens : f.lens.fault c.payload c.len = none) (hfield : c.headerFault hdr f = none)
    (htarget : f.target = true) (hsome : c.target ≠ 0) (hother : c.target ≠ s.liveNumber) :
    s.checkForm c hdr f k = s.reply c stValidationFailed (le 4 s.liveNumber ++ le 4 1) none := by
  simp [State.checkForm, hmay, inRange_of hlo hhi hfits, hlens, hfield, htarget, hsome, hother]

end

/-! ## The command that the firmware takes -/

/-- The firmware takes the command that is its sender's next, and sweeps undefined opcodes after it. -/
theorem take_next_checked {s : State} {b : Mbox} {f : Form} {k : Cmd → State → State} (hrung : s.boxSt b = .rung)
    (hop : (s.cmdIn b).opcode = f.op) (hserved : s.served b = true) (hfirst : s.firstWaits (s.cmdIn b) = false)
    (hnext : s.isNext b = true) :
    s.take b f k = ((s.markTaken (s.cmdIn b)).checkSeq (s.cmdIn b) fun s' =>
      s'.checkForm (s.cmdIn b) (s.boxBytes b 0 32) f k).sweep b := by
  simp [State.take, hrung, hop, hserved, hfirst, hnext]

/-- Settles O22, check by check in R122's order. The sweep of undefined opcodes behind it is assumption 5. -/
theorem sharedChecksInOrder : Obligations.SharedChecksInOrder := by
  intro b f k s hrung hop hserved hfirst hnext c
  have htake : s.take b f k = ((s.markTaken c).checkSeq c fun s' => s'.checkForm c (s.boxBytes b 0 32) f k).sweep b :=
    take_next_checked hrung hop hserved hfirst hnext
  refine ⟨fun e he hne => ?wrong, fun hseq => ?right⟩
  case wrong => rw [htake, checkSeq_wrong ((markTaken_expectedSeq s c).trans he) hne, stBadSequence]
  case right =>
    have hform : s.take b f k = ((s.taken b).checkForm c (s.boxBytes b 0 32) f k).sweep b := by
      rw [htake, checkSeq_right (by rwa [markTaken_expectedSeq]), State.taken]
    rw [hform]
    refine ⟨fun hmay => ?_, fun hmay hrange => ⟨if f.lo = f.hi then f.lo else min f.hi b.limit, ?_⟩,
      fun n hmay hlo hhi hfits hlens => ?_, fun hmay hlo hhi hfits hlens => ⟨fun off hfield => ?_, fun hfield htarget hsome hother => ?_⟩⟩
    · rw [checkForm_sender hmay, stBadOpcode]
    · rw [checkForm_range hmay hrange, State.badLength, stBadLength, cmdIn_box]
    · rw [checkForm_entries hmay hlo hhi hfits hlens, State.badLength, stBadLength]
    · rw [checkForm_field hmay hlo hhi hfits hlens hfield, stBadField]
    · rw [checkForm_target hmay hlo hhi hfits hlens hfield htarget hsome hother, stValidationFailed]

end Sys2Proof.Machine

/-! SUPPORT. Doorbells and releases (R113, R114, R116, R117): a register write with one bit set acts on that bit's mailbox alone. -/

namespace Sys2Proof.Machine

open Sys2Proof

/-! ## Words with one bit set -/

theorem setBits_two_pow {w i : Nat} (h : i < w) : setBits w (2 ^ i) = [i] := by
  unfold setBits
  induction w with
  | zero => omega
  | succ w ih =>
    rw [List.range_succ, List.filter_append]
    by_cases hi : i = w
    · subst hi
      have hbelow : (List.range i).filter (fun j => (2 ^ i).testBit j) = [] := by
        refine List.filter_eq_nil_iff.mpr fun j hj => ?_
        simp [Nat.ne_of_gt (List.mem_range.mp hj)]
      simp [hbelow]
    · rw [ih (by omega)]
      simp [Nat.testBit_two_pow, hi]

theorem setBits_oneHot {w i : Nat} (h : i < w) (hw : w ≤ 32) : setBits w (BitVec.ofNat 32 (2 ^ i)).toNat = [i] := by
  rw [BitVec.toNat_ofNat, Nat.mod_eq_of_lt (Nat.pow_lt_pow_right (by decide) (by omega)), setBits_two_pow h]

/-- The word and the bit that slot n has in the pair of registers that name all 64. -/
theorem slotOfBit {n : Nat} (h : n < 64) : (if decide (32 ≤ n) = true then 32 + n % 32 else n % 32) = n := by
  split
  next hhi =>
    have := of_decide_eq_true hhi
    omega
  next hlo =>
    have := of_decide_eq_false (Bool.not_eq_true _ ▸ hlo)
    omega

theorem ringAll_oneHot {n : Nat} {s : State} (h : n < 64) :
    s.ringAll (decide (32 ≤ n)) (BitVec.ofNat 32 (2 ^ (n % 32))) = s.ring n := by
  rw [State.ringAll, setBits_oneHot (by omega) (by omega), each_cons, each_nil, slotOfBit h]

/-! ## The reasons of R116 -/

section

variable {n : Nat} {s : State}

theorem served_slot (h : s.power.condition = .running) : s.served (.slot n) = s.fwReady := by
  simp [State.served, State.running, h, Mbox.isMgmt]

theorem ringReason_notReady (hserved : s.served (.slot n) = false) : s.ringReason n = 1 := by
  simp [State.ringReason, hserved]

theorem ringReason_notIdle (hserved : s.served (.slot n) = true) (h : (s.slot n).st ≠ .idle) : s.ringReason n = 2 := by
  simp [State.ringReason, hserved, h]

variable (hserved : s.served (.slot n) = true) (hidle : (s.slot n).st = .idle)

include hserved hidle

theorem ringReason_open (h : 60 ≤ n) : s.ringReason n = if fld (s.boxBytes (.slot n) 0 32) 4 1 = 0xFF then 0 else 4 := by
  simp [State.ringReason, hserved, hidle, h]

theorem ringReason_unowned (h : n < 60) (howner : (s.slot n).owner = none) :
    s.ringReason n = if (s.slot n).closing then 5 else 3 := by
  simp [State.ringReason, hserved, hidle, Nat.not_le.mpr h, howner]

theorem ringReason_owned {k : Nat} (h : n < 60) (howner : (s.slot n).owner = some k) :
    s.ringReason n = if fld (s.boxBytes (.slot n) 0 32) 4 1 ≠ k then 4
      else if (s.slot n).closing = true ∨ (s.session k).closing = true ∨ (s.session k).isOpen = false then 5 else 0 := by
  simp [State.ringReason, hserved, hidle, Nat.not_le.mpr h, howner, or_assoc]

end

/-- Settles O17: the write rings one slot, and the reasons follow the table's order. That an IDLE slot without an owner is still marked
as closing, so that its doorbell is rejected with reason 5, is the reading of log entry 6. -/
theorem doorbellsRingOrReject : Obligations.DoorbellsRingOrReject := by
  refine ⟨fun n s hreach hn => ?write, fun n s hrunning => ?reasons⟩
  case write =>
    intro c
    have hring : exec c s = .next (s.ring n) := by
      show Host.Outcome.next (if s.hostReaches then _ else s) = _
      rw [hreach, if_pos rfl, ringAll_oneHot hn]
    refine ⟨fun hnone => ?_, fun hsome => ?_⟩
    · rw [hring, State.ring]
      simp only [hnone, if_true]
    · rw [hring, State.ring]
      simp only [hsome, if_false]
  case reasons =>
    intro sess
    rw [← served_slot (n := n) hrunning]
    refine ⟨ringReason_notReady, ringReason_notIdle, fun hserved hidle => ⟨fun hn howner hclosing => ?_, fun hn howner hclosing => ?_,
      fun k hn howner hsess => ?_, fun k hn howner hsess hgone => ?_, fun k hn howner hsess hslot hclosing hopen => ?_,
      ringReason_open hserved hidle⟩⟩
    · simp [ringReason_unowned hserved hidle hn howner, hclosing]
    · simp [ringReason_unowned hserved hidle hn howner, hclosing]
    · rw [ringReason_owned hserved hidle hn howner, if_pos hsess]
    · rw [ringReason_owned hserved hidle hn howner, if_neg (not_not.mpr hsess), if_pos hgone]
    · rw [ringReason_owned hserved hidle hn howner, if_neg (not_not.mpr hsess)]
      simp [hslot, hclosing, hopen]

end Sys2Proof.Machine

/-! SUPPORT. Release registers, the limit of an open slot, and the side-band (R114, R138 to R142). -/

namespace Sys2Proof.Machine

open Sys2Proof

theorem releaseAll_oneHot {n : Nat} {s : State} (h : n < 64) :
    s.releaseAll (decide (32 ≤ n)) (BitVec.ofNat 32 (2 ^ (n % 32))) =
      s.updSlot n fun x => if x.st = .held then { x with st := .idle } else x := by
  rw [State.releaseAll, setBits_oneHot (by omega) (by omega), each_cons, each_nil, slotOfBit h]

theorem mgFree_oneHot {m : Nat} {s : State} (h : m < 2) :
    s.mgFree (BitVec.ofNat 32 (2 ^ m)).toNat = s.updMg m fun x => if x.st = .held then { x with st := .idle } else x := by
  rw [State.mgFree, setBits_oneHot h (by decide), each_cons, each_nil]

theorem mgRing_oneHot {m : Nat} {s : State} (h : m < 2) (hserved : s.served (.mgmt m) = true) (hidle : (s.mg m).st = .idle) :
    s.mgRing (BitVec.ofNat 32 (2 ^ m)).toNat = (s.updMg m fun x => { x with st := .rung }).sweep (.mgmt m) := by
  rw [State.mgRing, setBits_oneHot h (by decide), each_cons, each_nil]
  simp [hserved, hidle]

/-! ## Frames -/

theorem fld_one (p : List Byte) (off : Nat) : fld p off 1 = (p.getD off 0).toNat := by
  rw [fld, List.take_one, List.head?_drop, List.getD_eq_getElem?_getD]
  cases p[off]? <;> rfl

theorem mgFrame_read {mosi : List Byte} {readLen loc : Nat} {s : State} (hlen : 4 ≤ mosi.length)
    (haddr : fld mosi 0 1 = s.power.mgmtAddr.toNat * 64 + 1) (hrunning : s.running = true)
    (hloc : fld mosi 1 1 * 65536 + fld mosi 2 1 * 256 + fld mosi 3 1 = loc) :
    s.mgFrame mosi readLen = s.out (.miso (0 :: (List.range readLen).map fun k => s.mgByte (loc + k))) := by
  have hdev : (s.power.mgmtAddr.toNat * 64 + 1) / 64 = s.power.mgmtAddr.toNat := by omega
  have hop : (s.power.mgmtAddr.toNat * 64 + 1) % 64 = 1 := by omega
  simp [State.mgFrame, Nat.not_lt.mpr hlen, haddr, hdev, hop, hrunning, hloc]

theorem mgFrame_otherDevice {mosi : List Byte} {readLen : Nat} {s : State} (haddr : fld mosi 0 1 / 64 ≠ s.power.mgmtAddr.toNat) :
    s.mgFrame mosi readLen = s := by
  simp [State.mgFrame, haddr]

/-- The three location bytes of a frame, the highest first. -/
theorem location_of_bytes {l : Nat} (h : l < 2 ^ 24) :
    (BitVec.ofNat 8 (l / 65536)).toNat * 65536 + (BitVec.ofNat 8 (l / 256)).toNat * 256 + (BitVec.ofNat 8 l).toNat = l := by
  simp only [BitVec.toNat_ofNat]
  omega

/-- Settles O18, register by register. -/
theorem releasesAndSideBand : Obligations.ReleasesAndSideBand := by
  refine ⟨⟨fun n s hreach hn => ?release, fun m s hrunning hm => ?mgRelease, fun n s hopen hheld hdue => ?timeout,
    fun n s hearly => ?early⟩, fun m s hm hserved hidle => ?mgDoorbell, fun l n s hrunning hl => ?read,
    fun mosi n s _ _ haddr => ?other⟩
  case release =>
    show Host.Outcome.next (if s.hostReaches then _ else s) = _
    rw [hreach, if_pos rfl, releaseAll_oneHot hn]
  case mgRelease =>
    have hruns : s.running = true := by simp [State.running, hrunning]
    show Host.Outcome.next (if s.running then _ else s) = _
    rw [hruns, if_pos rfl, mgFree_oneHot hm]
  case timeout =>
    have hlimit : sec 1 = 1000000000 := rfl
    simp [exec, execOpenSlotTimeout, hopen, hheld, hlimit, hdue]
  case early =>
    have hlimit : sec 1 = 1000000000 := rfl
    simp [exec, execOpenSlotTimeout, hlimit, Nat.not_le.mpr hearly]
  case mgDoorbell =>
    show Host.Outcome.next (s.mgRing _) = _
    rw [mgRing_oneHot hm hserved hidle]
  case read =>
    have hruns : s.running = true := by simp [State.running, hrunning]
    have hfits := s.power.mgmtAddr.isLt
    show Host.Outcome.next (s.mgFrame _ n) = _
    rw [mgFrame_read (loc := l) (by simp) ?addr hruns ?loc]
    case addr =>
      simp only [fld_one, List.getD_cons_zero, BitVec.toNat_ofNat]
      omega
    case loc =>
      simp only [fld_one, List.getD_cons_succ, List.getD_cons_zero]
      exact location_of_bytes hl
  case other =>
    show Host.Outcome.next (s.mgFrame mosi n) = _
    rw [mgFrame_otherDevice haddr]

end Sys2Proof.Machine

/-! SUPPORT. Accesses of the host to BAR0 (R8 to R11, R109, R110, R113, R551): reads of words and their latches, writes of words. -/

namespace Sys2Proof.Machine

open Sys2Proof

/-! ## Folds that one element decides -/

theorem each_of_fixed {α σ : Type} {f : α → σ → σ} {l : List α} (h : ∀ a ∈ l, ∀ s, f a s = s) (s : σ) : each l f s = s := by
  induction l with
  | nil => rfl
  | cons a l ih =>
    rw [each_cons, h a List.mem_cons_self]
    exact ih fun b hb => h b (List.mem_cons_of_mem a hb)

theorem each_of_one {f : Nat → State → State} {w n : Nat} (hn : n < w) (h : ∀ m, m ≠ n → ∀ s, f m s = s) (s : State) :
    each (List.range w) f s = f n s := by
  obtain ⟨k, rfl⟩ : ∃ k, w = n + 1 + k := ⟨w - (n + 1), by omega⟩
  have hrange : List.range (n + 1 + k) = List.range n ++ n :: (List.range k).map (n + 1 + ·) := by
    rw [List.range_add, List.range_succ, List.append_assoc, List.singleton_append]
  rw [hrange, each, List.foldl_append, List.foldl_cons]
  have hbefore : each (List.range n) f s = s := each_of_fixed (fun m hm => h m (by have := List.mem_range.mp hm; omega)) s
  have hafter (t : State) : each ((List.range k).map (n + 1 + ·)) f t = t := by
    refine each_of_fixed (fun m hm => h m ?_) t
    obtain ⟨j, _, rfl⟩ := List.mem_map.mp hm
    omega
  exact (hafter _).trans (congrArg (f n) hbefore)

/-! ## Reads -/

theorem isPairLow_aligned {a : Nat} (h : isPairLow a = true) : a % 4 = 0 := by
  simp only [isPairLow, Bool.or_eq_true, Bool.and_eq_true, decide_eq_true_eq, beq_iff_eq, List.contains_eq_mem, List.mem_cons,
    List.not_mem_nil, or_false] at h
  omega

/-- A read inside one aligned word reads that word alone, and puts out the bytes addressed. -/
theorem hostRead_inWord {s : State} {a off len : Nat} (ha : a % 4 = 0) (hfits : off + len ≤ 4) (hlen : 0 < len) :
    s.hostRead (a + off) len = (s.readEffect a).out (.readData (a + off) (((le 4 (s.readWord a)).drop off).take len)) := by
  have hwords : (a + off + len + 3) / 4 - (a + off) / 4 = 1 := by omega
  have hfirst : (a + off) / 4 * 4 = a := by omega
  simp [State.hostRead, hwords, hfirst, State.readWords, State.readStep]

theorem readEffect_pairLow {s : State} {a : Nat} (h : isPairLow a = true) :
    s.readEffect a = { s with latches := (a, BitVec.ofNat 32 (s.regRead (a + 4))) :: s.latches.filter (fun l => l.1 != a) } := by
  simp [State.readEffect, h]

theorem readEffect_plain {s : State} {a : Nat} (hpair : isPairLow a = false) (hsec : secLoBase a = none) : s.readEffect a = s := by
  simp [State.readEffect, hpair, hsec]

/-- The high word of a pair is read from the latch of its low word. -/
theorem readWord_high {s : State} {a : Nat} (h : isPairLow a = true) : s.readWord (a + 4) = s.latched a := by
  simp [State.readWord, h]

theorem latched_of_head {s : State} {a : Nat} {w : Word} {l : List (Nat × Word)} (h : s.latches = (a, w) :: l) :
    s.latched a = w.toNat := by
  simp [State.latched, h]

/-! ## Bits that a write of 1 clears -/

theorem testBit_allOnes {i : Nat} (hi : i < 32) : (0xFFFFFFFF : Nat).testBit i = true := by
  rw [show 0xFFFFFFFF = 2 ^ 32 - 1 from rfl, Nat.testBit_two_pow_sub_one]
  exact decide_eq_true hi

/-- A cleared bit falls, but for one that hardware sets in the same cycle. -/
theorem testBit_rw1c {old clear sets mask i : Nat} (hi : i < 32) (hmask : mask.testBit i = true) :
    (rw1c old clear sets mask).testBit i = (old.testBit i && !clear.testBit i || sets.testBit i) := by
  simp [rw1c, testBit_allOnes hi, hmask]

theorem testBit_rw1c_unmasked {old clear sets mask i : Nat} (hi : i < 32) (hmask : mask.testBit i = false) :
    (rw1c old clear sets mask).testBit i = old.testBit i := by
  simp [rw1c, testBit_allOnes hi, hmask]

theorem rw1c_lt {old clear sets mask : Nat} (hold : old < 2 ^ 32) (hmask : mask < 2 ^ 32) : rw1c old clear sets mask < 2 ^ 32 :=
  Nat.or_lt_two_pow (lt_of_le_of_lt Nat.and_le_left hold) (lt_of_le_of_lt Nat.and_le_right hmask)

/-- The low half of a 64-bit register changes, its high half stays. -/
theorem getLsbD_lowHalf {x : BitVec 64} {low i : Nat} (hlow : low < 2 ^ 32) (hi : i < 64) :
    (BitVec.ofNat 64 (x.toNat / 2 ^ 32 * 2 ^ 32 + low)).getLsbD i = if i < 32 then low.testBit i else x.getLsbD i := by
  rw [BitVec.getLsbD_ofNat, Nat.mul_comm, Nat.testBit_two_pow_mul_add _ hlow, Nat.testBit_div_two_pow]
  by_cases hlt : i < 32
  · simp [hlt, hi]
  · simp only [hlt, if_false, hi, decide_true, Bool.true_and]
    rw [Nat.sub_add_cancel (by omega)]
    rfl

/-- The word after a clear, as a word. -/
theorem ofNat_rw1c (old clear sets mask : Word) :
    BitVec.ofNat 32 (rw1c old.toNat clear.toNat sets.toNat mask.toNat) = (old &&& ~~~(clear &&& mask)) ||| (sets &&& mask) := by
  refine BitVec.eq_of_getLsbD_eq fun i hi => ?_
  cases hmask : mask.getLsbD i with
  | false =>
    have hword := testBit_rw1c_unmasked (old := old.toNat) (clear := clear.toNat) (sets := sets.toNat) hi hmask
    rw [BitVec.getLsbD_ofNat, hword]
    simp only [BitVec.getLsbD_or, BitVec.getLsbD_and, BitVec.getLsbD_not, BitVec.testBit_toNat, hi, hmask, decide_true]
    simp
  | true =>
    have hword := testBit_rw1c (old := old.toNat) (clear := clear.toNat) (sets := sets.toNat) hi hmask
    rw [BitVec.getLsbD_ofNat, hword]
    simp only [BitVec.getLsbD_or, BitVec.getLsbD_and, BitVec.getLsbD_not, BitVec.testBit_toNat, hi, hmask, decide_true]
    simp

theorem clearBits_summary {s : State} {v hw : Word} :
    s.clearBits 0x20 v.toNat hw.toNat = s.updNcp fun n =>
      { n with intSummary := (n.intSummary &&& ~~~(v &&& 0x3FFFFF#32)) ||| (hw &&& 0x3FFFFF#32) } := by
  have hword (old : Word) := ofNat_rw1c old v hw 0x3FFFFF#32
  simp only [State.clearBits, rw1cMask, if_true, ← hword, BitVec.toNat_ofNat, Nat.reducePow, Nat.reduceMod]

/-- MBX_REJECT_LO: the low half of the reject bits, every bit RW1C. -/
theorem clearBits_rejectLow {s : State} {v hw : Word} :
    s.clearBits 0x10028 v.toNat hw.toNat = s.updNcp fun n =>
      { n with rejectBits := BitVec.ofNat 64
                 (n.rejectBits.toNat / 2 ^ 32 * 2 ^ 32 + rw1c (n.rejectBits.toNat % 2 ^ 32) v.toNat hw.toNat 0xFFFFFFFF) } := by
  simp [State.clearBits, rw1cMask]

/-! ## Writes -/

theorem writeSlots_below {s : State} {a : Nat} {d : List Byte} (h : a + d.length ≤ 0x100000) : s.writeSlots a d = s := by
  refine each_of_fixed (fun n _ t => ?_) s
  dsimp only
  rw [if_neg]
  simp only [Mbox.base]
  omega

theorem writeRings_below {s : State} {a : Nat} {d : List Byte} (h : a + d.length ≤ 0x100000) : s.writeRings a d = s := by
  simp only [State.writeRings]
  rw [if_neg (by omega)]

/-- Below the slots and rings, a write acts on the aligned registers that it covers. -/
theorem hostWrite_registers {s : State} {a : Nat} {d : List Byte} (h : a + d.length ≤ 0x100000) :
    s.hostWrite a d = each (List.range ((a + d.length - (a + 3) / 4 * 4) / 4)) (fun k t =>
      t.writeWord ((a + 3) / 4 * 4 + 4 * k) (fld d ((a + 3) / 4 * 4 + 4 * k - a) 4)) s := by
  rw [State.hostWrite, writeSlots_below h, writeRings_below h]

theorem hostWrite_word {s : State} {a : Nat} {d : List Byte} (ha : a % 4 = 0) (hlow : a + 4 ≤ 0x100000) (hd : d.length = 4) :
    s.hostWrite a d = s.writeWord a (fld d 0 4) := by
  have hfirst : (a + 3) / 4 * 4 = a := by omega
  have hone : (a + 4 - a) / 4 = 1 := by omega
  rw [hostWrite_registers (by omega), hfirst, hd, hone]
  simp [each]

theorem hostWrite_short {s : State} {a : Nat} {d : List Byte} (hlow : a + d.length ≤ 0x100000) (hd : d.length < 4) :
    s.hostWrite a d = s := by
  have hnone : (a + d.length - (a + 3) / 4 * 4) / 4 = 0 := by omega
  rw [hostWrite_registers hlow, hnone, List.range_zero, each_nil]

theorem fld_le_four {v : Nat} (h : v < 2 ^ 32) : fld (le 4 v) 0 4 = v := by
  simp only [fld, le, List.drop_zero, List.take_succ_cons, List.take_zero, leNat, BitVec.toNat_ofNat]
  omega

theorem writeWord_consumer {s : State} {k v : Nat} (hk : k < 16) :
    s.writeWord (0x10104 + 8 * k) v = s.updSession k fun x => { x with cons := v % 1024 } := by
  have hmask : rw1cMask (0x10104 + 8 * k) = 0 := by
    simp only [rw1cMask, Bool.or_eq_true, Bool.and_eq_true, decide_eq_true_eq]
    split_ifs <;> omega
  have hring : (0x10104 + 8 * k - 0x10100) / 8 = k := by omega
  have hregs : 0x10104 + 8 * k ≠ 0x30 ∧ 0x10104 + 8 * k ≠ 0x10000 ∧ 0x10104 + 8 * k ≠ 0x10004 ∧ 0x10104 + 8 * k ≠ 0x10020 ∧
      0x10104 + 8 * k ≠ 0x10024 ∧ 0x10100 ≤ 0x10104 + 8 * k ∧ 0x10104 + 8 * k < 0x10180 ∧
      (0x10104 + 8 * k) % 8 = 4 := by omega
  obtain ⟨hfire, hdb, hdbHi, hrel, hrelHi, hlo, hhi, halign⟩ := hregs
  simp only [State.writeWord, hmask, hfire, hdb, hdbHi, hrel, hrelHi, hlo, hhi, halign, hring]
  simp

/-- A write inside one slot acts on that slot alone. -/
theorem writeSlots_one {s : State} {n off : Nat} {d : List Byte} (hn : n < 64) (hsome : 0 < d.length) (hfits : off + d.length ≤ 0x4000) :
    s.writeSlots (0x100000 + 0x4000 * n + off) d = s.writeSlot n off d := by
  rw [State.writeSlots, each_of_one hn]
  · have hfrom : max (0x100000 + 0x4000 * n + off) (Mbox.slot n).base = 0x100000 + 0x4000 * n + off := by simp only [Mbox.base]; omega
    have hto : min (0x100000 + 0x4000 * n + off + d.length) ((Mbox.slot n).base + 0x4000) = 0x100000 + 0x4000 * n + off + d.length := by
      simp only [Mbox.base]; omega
    have hoff : 0x100000 + 0x4000 * n + off - (Mbox.slot n).base = off := by simp only [Mbox.base]; omega
    dsimp only
    rw [hfrom, hto, hoff, if_pos (by omega), Nat.sub_self, Nat.add_sub_cancel_left, List.drop_zero, List.take_length]
  · intro m hm t
    dsimp only
    rw [if_neg]
    simp only [Mbox.base]
    omega

/-- Settles O16, access by access. The pairs of R9 with MBX_REJECT_LO and MBX_REJECT_HI no pair, and RW1C bits that hardware sets in
the same cycle, are the readings of log entry 33. -/
theorem hostAccessesActOnRegisters : Obligations.HostAccessesActOnRegisters := by
  refine ⟨fun s hreach => ⟨fun a hpair => ?pair, fun a off len ha hfits hlen hpair hsec => ?word, fun b hb => ?base, ?tbm⟩,
    fun v hw s hreach => ⟨?summary, ?reject⟩, fun s hreach => ⟨fun a d ha hlow hd => ?write, fun k v hk hv => ?consumer,
      fun a d hlow hd => ?short⟩, fun n off d s hreach hn hsome hfits => ?slot⟩
  case pair =>
    have hread : exec (.loWordRead ⟨a, 4⟩) s = .next ((s.readEffect a).out (.readData a (le 4 (s.readWord a)))) := by
      have hword := hostRead_inWord (s := s) (off := 0) (isPairLow_aligned hpair) le_rfl (by decide : 0 < 4)
      rw [Nat.add_zero, List.drop_zero, List.take_of_length_le (le_length 4 _).le] at hword
      rw [← hword]
      exact congrArg Host.Outcome.next (if_pos hreach)
    refine ⟨_, hread, ?_⟩
    rw [readEffect_pairLow hpair]
    refine ⟨rfl, rfl, ?_⟩
    rw [readWord_high hpair, latched_of_head rfl, BitVec.toNat_ofNat]
  case word =>
    have hword := hostRead_inWord (s := s) ha hfits hlen
    rw [readEffect_plain hpair hsec] at hword
    rw [← hword]
    exact congrArg Host.Outcome.next (if_pos hreach)
  case base =>
    have hlow : ¬ 5 < b := by omega
    have hnot : b ≠ 5 := by omega
    simp [exec, execBaseSecLoRead, hreach, hlow, hnot, State.latchBase]
  case tbm => simp [exec, execBaseSecLoRead, hreach, State.latchBase]
  case summary =>
    rw [← clearBits_summary]
    exact congrArg Host.Outcome.next (if_pos hreach)
  case reject =>
    refine ⟨_, congrArg Host.Outcome.next (if_pos hreach), ?_⟩
    rw [clearBits_rejectLow]
    refine ⟨rfl, fun i hi => ?_⟩
    have hlow : s.ncp.rejectBits.toNat % 2 ^ 32 < 2 ^ 32 := Nat.mod_lt _ (by decide)
    refine (getLsbD_lowHalf (rw1c_lt (mask := 0xFFFFFFFF) hlow (by decide)) hi).trans ?_
    split
    next hlt =>
      rw [testBit_rw1c hlt (testBit_allOnes hlt), Nat.testBit_mod_two_pow]
      simp [hlt, BitVec.testBit_toNat]
    · rfl
  case write =>
    rw [← hostWrite_word ha hlow hd]
    exact congrArg Host.Outcome.next (if_pos hreach)
  case consumer =>
    have hword := hostWrite_word (s := s) (a := 0x10104 + 8 * k) (d := le 4 v) (by omega) (by omega) (le_length 4 v)
    rw [fld_le_four hv, writeWord_consumer hk] at hword
    exact congrArg Host.Outcome.next ((if_pos hreach).trans hword)
  case short =>
    exact congrArg Host.Outcome.next ((if_pos hreach).trans (hostWrite_short hlow hd))
  case slot =>
    refine congrArg Host.Outcome.next ((if_pos hreach).trans ((writeSlots_one hn hsome hfits).trans ?_))
    rw [State.writeSlot, Mbox.base, Nat.mul_comm n]

end Sys2Proof.Machine

/-! SUPPORT. Raising an event (R126, R127, R151, R153): the ring of events and its record. -/

namespace Sys2Proof.Machine

open Sys2Proof

theorem fit_length (n : Nat) (p : List Byte) : (fit n p).length = n := by
  simp only [fit, sub, List.drop_zero, List.length_append, List.length_replicate, List.length_take]
  omega

theorem eventRecord_length (code src : Nat) (t : Nanos) (phase : Bool) (body : List Byte) :
    (eventRecord code src t phase body).length = 32 := by
  simp [eventRecord, le_length, fit_length]

/-! ## The cases of a raised event -/

/-- The vectors that OBS_VECTOR maps to a code touch the summary of the vectors alone. -/
theorem askVectors_ncp (vs : List Nat) (s : State) :
    ∃ i, (each vs (fun v t => t.askVector v) s).ncp = { s.ncp with intSummary := i } := by
  refine each_keeps (P := fun t : State => ∃ i, t.ncp = { s.ncp with intSummary := i }) vs ⟨_, rfl⟩ fun v _ t ht => ?_
  obtain ⟨i, ht⟩ := ht
  obtain ⟨j, hask⟩ := askVector_ncp t v
  exact ⟨j, by rw [hask, ht]⟩

/-- So do they after another vector has been asked for. -/
theorem askVectors_askVector_ncp (vs : List Nat) (s : State) (v : Nat) :
    ∃ i, (each vs (fun v t => t.askVector v) (s.askVector v)).ncp = { s.ncp with intSummary := i } := by
  obtain ⟨i, hask⟩ := askVector_ncp s v
  obtain ⟨j, hasks⟩ := askVectors_ncp vs (s.askVector v)
  exact ⟨j, by rw [hasks, hask]⟩


theorem post_suppressed {code src : Nat} {body : List Byte} {s : State} (h : s.suppressed code = true) : s.post code src body = s := by
  simp [State.post, h]

theorem eqOwed_of_none {s : State} (h : s.ncp.eqLostSince = 0) : s.eqOwed = s := by
  simp [State.eqOwed, h]

theorem eqOwed_of_full {s : State} (h : s.eqFull = true) : s.eqOwed = s := by
  simp [State.eqOwed, h]

theorem post_room {code src : Nat} {body : List Byte} {s : State} (hopen : s.suppressed code = false) (hnone : s.ncp.eqLostSince = 0)
    (hroom : s.eqFull = false) :
    ∃ summary, (s.post code src body).ncp = { (s.eqWrite code src body).ncp with intSummary := summary } := by
  simp only [State.post, hopen, eqOwed_of_none hnone, hroom, Bool.false_eq_true, if_false]
  exact askVectors_askVector_ncp _ _ 17

theorem post_full {code src : Nat} {body : List Byte} {s : State} (hopen : s.suppressed code = false) (hfull : s.eqFull = true) :
    ∃ summary, (s.post code src body).ncp = { s.ncp with
      eqLost := s.ncp.eqLost + 1, eqLostSince := s.ncp.eqLostSince + 1, globalCause := s.ncp.globalCause ||| 4#32,
      intSummary := summary } := by
  simp only [State.post, hopen, eqOwed_of_full hfull, hfull, Bool.false_eq_true, if_false, if_true]
  exact askVectors_askVector_ncp _ _ 0

/-- Settles O21, by the three cases of a raised event; the vectors that it asks for touch no field of the ring. -/
theorem eventRingRecord : Obligations.EventRingRecord := by
  intro code src body s _ hwf
  refine ⟨post_suppressed, fun hopen hnone hroom => ?room, fun hopen hfull => ?full⟩
  case room =>
    intro t
    obtain ⟨summary, ht⟩ : ∃ summary, t.ncp = { (s.eqWrite code src body).ncp with intSummary := summary } :=
      post_room hopen hnone hroom
    have hmem : t.ncp.mem = s.ncp.mem.writeN (0x280000 + 32 * s.ncp.eqProd) (eventRecord code src s.now s.ncp.eqPhase body) := by
      simp only [ht, State.eqWrite, eqBase]
    have hlength := eventRecord_length code src s.now s.ncp.eqPhase body
    rw [hmem]
    refine ⟨?record, ?index, ?phase, fun a ha => Mem.read_writeN_of_not _ _ _ _ (by rwa [hlength])⟩
    case record =>
      rw [← hlength]
      exact Mem.readN_writeN _ _ _ hwf
    case index => rw [ht, State.eqWrite, eqSize]
    case phase => simp [ht, State.eqWrite, eqSize]
  case full =>
    intro t
    obtain ⟨summary, ht⟩ : ∃ summary, t.ncp = { s.ncp with
      eqLost := s.ncp.eqLost + 1, eqLostSince := s.ncp.eqLostSince + 1, globalCause := s.ncp.globalCause ||| 4#32,
      intSummary := summary } := post_full hopen hfull
    rw [ht]
    exact ⟨rfl, rfl, rfl, by simp⟩

end Sys2Proof.Machine

/-! SUPPORT. Sessions that open (R127, R128, R146, R153). -/

namespace Sys2Proof.Machine

open Sys2Proof

/-! ## A memory of which a range is cleared -/

theorem Mem.read_cons (a : Nat) (b : Byte) (m : Mem) (x : Nat) : Mem.read ((a, b) :: m) x = if a = x then b else m.read x := rfl

theorem Mem.read_clear (m : Mem) (lo n x : Nat) : (m.clear lo n).read x = if lo ≤ x ∧ x < lo + n then 0 else m.read x := by
  induction m with
  | nil => simp [Mem.clear, Mem.read]
  | cons c m ih =>
    obtain ⟨a, b⟩ := c
    have hcons : Mem.clear ((a, b) :: m) lo n = if a < lo ∨ lo + n ≤ a then (a, b) :: Mem.clear m lo n else Mem.clear m lo n := by
      simp [Mem.clear, List.filter_cons]
    rw [hcons]
    split
    · rw [Mem.read_cons, Mem.read_cons, ih]
      split
      · rw [if_neg (by omega)]
      · rfl
    · rw [Mem.read_cons, ih]
      split
      · rfl
      · rw [if_neg (by omega)]

/-! ## Slots that are granted -/

/-- The slot of a session that has just been opened. -/
def Slot.grant (k : Nat) (x : Slot) : Slot := { x with owner := some k, closing := false, expired := false }

/-- A slot number past the table names the slot of the reset. -/
theorem slot_of_length_le {n : Nat} {s : State} (h : s.ncp.slots.length ≤ n) : s.slot n = Slot.reset := List.getD_eq_default _ _ h

theorem grantAll_slot {k n : Nat} {slots : List Nat} {s : State} :
    (each slots (fun m t => t.updSlot m (Slot.grant k)) s).slot n =
      if n ∈ slots ∧ n < s.ncp.slots.length then (s.slot n).grant k else s.slot n := by
  induction slots generalizing s with
  | nil => simp [each_nil]
  | cons m slots ih =>
    rw [each_cons, ih]
    have hlength : (s.updSlot m (Slot.grant k)).ncp.slots.length = s.ncp.slots.length := upd_length ..
    rw [hlength]
    by_cases hm : n = m
    · subst hm
      by_cases hn : n < s.ncp.slots.length
      · simp [State.updSlot_slot_self s n _ hn, hn, Slot.grant]
      · have hpast := Nat.le_of_not_lt hn
        rw [slot_of_length_le hpast, slot_of_length_le (hlength ▸ hpast)]
        simp [hn]
    · simp [State.updSlot_slot_of_ne s m n _ hm, hm]

/-! ## The steps of opening -/

/-- The slots that the former session rang keep the number that it expected; the reset sequence number is drawn. -/
def State.numbersKept (s : State) (k : Nat) : State :=
  s.drawNat.2.updNcp fun x => { x with slots := x.slots.map (Slot.keepNumber k x.rings (s.session k).expected) }

/-- The session that is opened. -/
def State.opened (s : State) (primary : Bool) (heartbeat first : Nat) : Session :=
  { isOpen := true, closing := false, primary := primary, expected := BitVec.ofNat 32 first,
    heartbeat := if heartbeat = 0 then 5000 else heartbeat, lastTaken := s.now, lastSeq := BitVec.ofNat 32 s.drawNat.1,
    prod := 0, cons := 0, phase := true }

section

variable {k : Nat} {slots : List Nat} {primary : Bool} {heartbeat first : Nat} {s : State}

theorem openSession_eq : s.openSession k slots primary heartbeat first =
    (each slots (fun n t => t.updSlot n (Slot.grant k))
      ((s.numbersKept k).updSession k fun _ => s.opened primary heartbeat first)).updNcp fun x =>
        { x with mem := x.mem.clear (cqBase k) 0x8000 } := rfl

theorem keepNumber_of_user {x : Slot} {at_ : Nat} {e : BitVec 32} (h : x.user ≠ some k) : x.keepNumber k at_ e = x := by
  simp [Slot.keepNumber, h]

theorem keepNumber_st {x : Slot} {at_ : Nat} {e : BitVec 32} : (x.keepNumber k at_ e).st = x.st := by
  unfold Slot.keepNumber
  split
  · rfl
  · rfl

theorem numbersKept_slot {n : Nat} : (s.numbersKept k).slot n = (s.slot n).keepNumber k s.ncp.rings (s.session k).expected := by
  have hreset : Slot.reset = Slot.reset.keepNumber k s.ncp.rings (s.session k).expected := rfl
  show (s.ncp.slots.map (Slot.keepNumber k s.ncp.rings (s.session k).expected)).getD n Slot.reset = _
  rw [hreset, List.getD_map]
  rfl

theorem openSession_session (n : Nat) (h : k < s.ncp.sessions.length) :
    (s.openSession k slots primary heartbeat first).session n = if n = k then s.opened primary heartbeat first else s.session n := by
  have hgrant := each_proj (π := fun s => s.ncp.sessions) (f := fun n t => t.updSlot n (Slot.grant k)) (fun _ _ => rfl) slots
    ((s.numbersKept k).updSession k fun _ => s.opened primary heartbeat first)
  have hsession : (s.openSession k slots primary heartbeat first).session n =
      ((s.numbersKept k).updSession k fun _ => s.opened primary heartbeat first).session n := congrArg (·.getD n Session.reset) hgrant
  rw [hsession]
  split
  next hn =>
    subst hn
    exact State.updSession_session_self _ n _ h
  next hn => exact State.updSession_session_of_ne _ k n _ hn

theorem openSession_slot (n : Nat) : (s.openSession k slots primary heartbeat first).slot n =
    if n ∈ slots ∧ n < s.ncp.slots.length then ((s.slot n).keepNumber k s.ncp.rings (s.session k).expected).grant k
    else (s.slot n).keepNumber k s.ncp.rings (s.session k).expected := by
  have hgrant := grantAll_slot (k := k) (n := n) (slots := slots)
    (s := (s.numbersKept k).updSession k fun _ => s.opened primary heartbeat first)
  have hlength : ((s.numbersKept k).updSession k fun _ => s.opened primary heartbeat first).ncp.slots.length = s.ncp.slots.length :=
    List.length_map ..
  rw [hlength] at hgrant
  rw [← numbersKept_slot]
  exact hgrant

theorem openSession_read (a : Nat) : (s.openSession k slots primary heartbeat first).ncp.mem.read a =
    if cqBase k ≤ a ∧ a < cqBase k + 0x8000 then 0 else s.ncp.mem.read a := by
  have hgrant := each_proj (π := fun s => s.ncp.mem) (f := fun n t => t.updSlot n (Slot.grant k)) (fun _ _ => rfl) slots
    ((s.numbersKept k).updSession k fun _ => s.opened primary heartbeat first)
  have hmem : (s.openSession k slots primary heartbeat first).ncp.mem = Mem.clear s.ncp.mem (cqBase k) 0x8000 :=
    congrArg (fun m => Mem.clear m (cqBase k) 0x8000) hgrant
  rw [hmem, Mem.read_clear]

end

/-! ## The command -/

/-- The fields of SESSION_OPEN are legal, its session is closed, and the device has a slot and, if asked, the primary role to give. -/
theorem sessionOpenBody_opens {c : Cmd} {s : State} {k : Nat} (hk : k < 16) (hwant : fld c.payload 0 1 = k)
    (hclosed : (s.session k).isOpen = false) (hrole : fld c.payload 1 1 ≤ 1) (hsome : 1 ≤ fld c.payload 2 1)
    (hmost : fld c.payload 2 1 ≤ 60) (hbeat : fld c.payload 4 4 = 0 ∨ (100 ≤ fld c.payload 4 4 ∧ fld c.payload 4 4 ≤ 60000))
    (hmajor : fld c.payload 12 2 / 256 = 3) (hminor : fld c.payload 12 2 % 256 ≤ 2) (hfree : s.freeSlots ≠ [])
    (hprimary : fld c.payload 1 1 = 0 ∨ s.ncp.sessions.any (·.primary) = false) :
    sessionOpenBody c s =
      let slots := s.freeSlots.take (fld c.payload 2 1)
      let map := slots.foldl (fun v n => v + 2 ^ n) 0
      ((s.openSession k slots (fld c.payload 1 1 == 1) (fld c.payload 4 4) (fld c.payload 8 4)).raise 0x0103 (0x4000 + k)
        (le 1 k ++ le 1 (fld c.payload 1 1) ++ le 6 0 ++ le 8 map)).ok c
          (le 1 k ++ le 1 slots.length ++ le 2 0 ++ le 8 map ++ [3, 2, 3, 2]) := by
  have hflag : bit (fld c.payload 1 1) 0 = (fld c.payload 1 1 == 1) := by
    interval_cases fld c.payload 1 1
    · rfl
    · rfl
  have hid : (15 < fld c.payload 0 1 && fld c.payload 0 1 != 0xFF) = false := by simp; omega
  have hcount : (fld c.payload 2 1 == 0 || 60 < fld c.payload 2 1) = false := by simp; omega
  have htime : (fld c.payload 4 4 != 0 && (fld c.payload 4 4 < 100 || 60000 < fld c.payload 4 4)) = false := by simp; omega
  have hversion : (fld c.payload 12 2 / 256 != 3 || 2 < fld c.payload 12 2 % 256) = false := by simp; omega
  have hgive : (s.freeSlots.isEmpty || (fld c.payload 1 1 == 1 && s.ncp.sessions.any (·.primary))) = false := by
    rcases hprimary with hnone | hnone
    · simp [hfree, hnone]
    · simp [hfree, hnone]
  have hchosen : (if fld c.payload 0 1 = 0xFF then (List.range 16).find? (fun k => !(s.session k).isOpen)
      else if (s.session (fld c.payload 0 1)).isOpen then none else some (fld c.payload 0 1)) = some k := by
    rw [if_neg (by omega), hwant, hclosed]
    rfl
  unfold sessionOpenBody
  simp only [hid, hcount, htime, hversion, hgive, hchosen, hflag, Bool.false_eq_true, if_false]
  rfl

/-- Settles O23: the command by the branch of its body, the opening by its steps. That both indices of the ring start again at 0 is the
choice of log entry 33. -/
theorem sessionsOpen : Obligations.SessionsOpen := by
  refine ⟨fun b s h => ?command, fun k slots primary hb first s hk hsessions hslots => ?opening⟩
  case command =>
    intro t c p slots map k hk hwant hclosed hrole hsome hmost hbeat hmajor hminor hfree hprimary
    exact take_next h (sessionOpenBody_opens hk hwant hclosed hrole hsome hmost hbeat hmajor hminor hfree hprimary)
  case opening =>
    intro t
    have hsession (n : Nat) : t.session n = if n = k then s.opened primary hb first else s.session n :=
      openSession_session n (by omega)
    have hslot (n : Nat) : t.slot n =
        if n ∈ slots ∧ n < s.ncp.slots.length then ((s.slot n).keepNumber k s.ncp.rings (s.session k).expected).grant k
        else (s.slot n).keepNumber k s.ncp.rings (s.session k).expected := openSession_slot n
    have hread (a : Nat) : t.ncp.mem.read a = if cqBase k ≤ a ∧ a < cqBase k + 0x8000 then 0 else s.ncp.mem.read a :=
      openSession_read a
    have hbase : cqBase k = 0x200000 + 0x8000 * k := by rw [cqBase, Nat.mul_comm]
    have hopened : t.session k = s.opened primary hb first := by rw [hsession, if_pos rfl]
    rw [hopened]
    refine ⟨rfl, rfl, rfl, rfl, rfl, rfl, rfl, fun n hn hlt => ?granted, fun n hn => ?kept, fun n huser hn => ?other,
      fun j hj => by rw [hsession, if_neg hj], fun a hlo hhi => ?ring, fun a ha => ?rest⟩
    case granted =>
      rw [hslot, if_pos ⟨hn, by omega⟩]
      exact ⟨rfl, rfl, keepNumber_st⟩
    case kept => rw [hslot, if_neg (fun h => hn h.1)]
    case other => rw [hslot, if_neg (fun h => hn h.1), keepNumber_of_user huser]
    case ring => rw [hread, if_pos (by omega)]
    case rest => rw [hread, if_neg (by omega)]

end Sys2Proof.Machine

/-! SUPPORT. Sessions that close (R114, R128, R132, R133, R153). -/

namespace Sys2Proof.Machine

open Sys2Proof

/-! ## Completions with room leave nothing waiting -/

theorem setBox_waiting (s : State) (b : Mbox) (st : SlotState) : (s.setBox b st).ncp.waiting = s.ncp.waiting := by
  cases b with
  | slot n => rfl
  | mgmt m => rfl

theorem leaveBusy_waiting (s : State) (c : Cmd) (response : Option (List Byte)) :
    (s.leaveBusy c response).ncp.waiting = s.ncp.waiting := by
  cases response with
  | none => exact setBox_waiting s c.box .idle
  | some d => exact setBox_waiting (s.putResponse c d) c.box .held

theorem askVector_waiting (s : State) (v : Nat) : (s.askVector v).ncp.waiting = s.ncp.waiting := by
  obtain ⟨_, h⟩ := askVector_ncp s v
  rw [h]

theorem ncpWaiting_ite {c : Prop} [Decidable c] (s t : State) :
    (if c then s else t).ncp.waiting = if c then s.ncp.waiting else t.ncp.waiting := apply_ite (fun s : State => s.ncp.waiting) ..

theorem postNow_waiting (s : State) (w : WaitCpl) : (s.postNow w).ncp.waiting = s.ncp.waiting := by
  unfold State.postNow
  extract_lets c resp k q written advanced left
  have hleft : left.ncp.waiting = s.ncp.waiting := by
    simp only [left, ncpWaiting_ite, leaveBusy_waiting]
    exact ite_self _
  split
  · dsimp only
    split
    · exact leaveBusy_waiting _ _ _
    · rfl
  · split
    · dsimp only
      split
      · rfl
      · rfl
    · split
      · dsimp only
        split
        · exact leaveBusy_waiting _ _ _
        · rfl
      · split
        · exact hleft
        · exact (askVector_waiting _ _).trans hleft

theorem ring_session {w : WaitCpl} {k : Nat} (h : w.ring = some k) : w.cmd.session = k := by
  unfold WaitCpl.ring at h
  split at h
  · split at h
    · cases h
    · exact Option.some.inj h
  · cases h

/-- A completion that its ring has room for, and none before it, is posted at once. -/
theorem postCpl_of_room {s : State} {w : WaitCpl} (hnone : s.ncp.waiting = []) (hroom : s.cqFull w.cmd.session = false) :
    s.postCpl w = s.postNow w := by
  unfold State.postCpl
  split
  next k hring =>
    rw [← ring_session hring]
    simp [hroom, hnone]
  next => rfl

theorem cmdLatency_ncp (s : State) (c : Cmd) : (s.cmdLatency c).ncp = s.ncp := by
  unfold State.cmdLatency
  split
  · rfl
  · rfl

theorem ok_waiting {s : State} {c : Cmd} {d : List Byte} (hnone : s.ncp.waiting = []) (hroom : s.cqFull c.session = false) :
    (s.ok c d).ncp.waiting = [] := by
  have hlatency := cmdLatency_ncp s c
  have hfull : (s.cmdLatency c).cqFull c.session = s.cqFull c.session := by simp only [State.cqFull, State.session, hlatency]
  rw [State.ok, State.reply, postCpl_of_room (hlatency ▸ hnone) (hfull.trans hroom), postNow_waiting, hlatency, hnone]

/-! ## What taking a command leaves -/

theorem cqFull_updSession {s : State} {n k : Nat} {f : Session → Session} (hprod : ∀ x, (f x).prod = x.prod)
    (hcons : ∀ x, (f x).cons = x.cons) : (s.updSession n f).cqFull k = s.cqFull k := by
  have hp : ((s.updSession n f).session k).prod = (s.session k).prod := upd_getD_keep Session.prod hprod ..
  have hc : ((s.updSession n f).session k).cons = (s.session k).cons := upd_getD_keep Session.cons hcons ..
  rw [State.cqFull, State.cqFull, hp, hc]

theorem setBox_cqFull (s : State) (b : Mbox) (st : SlotState) (k : Nat) : (s.setBox b st).cqFull k = s.cqFull k := by
  cases b with
  | slot n => rfl
  | mgmt m => rfl

theorem markTaken_rings (s : State) (c : Cmd) (k : Nat) :
    (s.markTaken c).ncp.waiting = s.ncp.waiting ∧ (s.markTaken c).cqFull k = s.cqFull k := by
  have hbox (b : Mbox) := setBox_cqFull s b .busy k
  have hwaiting (b : Mbox) := setBox_waiting s b .busy
  unfold State.markTaken
  dsimp only
  split
  · exact ⟨hwaiting _, hbox _⟩
  · split
    · exact ⟨hwaiting _, hbox _⟩
    · exact ⟨hwaiting _, (cqFull_updSession (by intro; rfl) (by intro; rfl)).trans (hbox _)⟩

theorem advanceSeq_rings (s : State) (c : Cmd) (k : Nat) :
    (s.advanceSeq c).ncp.waiting = s.ncp.waiting ∧ (s.advanceSeq c).cqFull k = s.cqFull k := by
  unfold State.advanceSeq
  split
  · exact ⟨rfl, rfl⟩
  · split
    · exact ⟨rfl, rfl⟩
    · split
      · exact ⟨rfl, rfl⟩
      · exact ⟨rfl, cqFull_updSession (fun _ => rfl) fun _ => rfl⟩

theorem taken_rings (s : State) (b : Mbox) (k : Nat) :
    (s.taken b).ncp.waiting = s.ncp.waiting ∧ (s.taken b).cqFull k = s.cqFull k := by
  obtain ⟨hwaiting, hfull⟩ := markTaken_rings s (s.cmdIn b) k
  obtain ⟨hwaiting', hfull'⟩ := advanceSeq_rings (s.markTaken (s.cmdIn b)) (s.cmdIn b) k
  exact ⟨hwaiting'.trans hwaiting, hfull'.trans hfull⟩

/-- OK is posted, and then the session closes (R145). -/
theorem sessionCloseBody_closes {c : Cmd} {s : State} (hopen : s.orphaned c = false) (hposted : (s.ok c []).ncp.waiting = []) :
    sessionCloseBody c s = (s.ok c []).closeSession c.session false := by
  simp [sessionCloseBody, hopen, hposted]

/-! ## The slots of a session that closes -/

theorem close_of_other {sl : Slot} {n : Nat} {expired : Bool} (h : sl.owner ≠ some n) : sl.close n expired = sl := by
  simp [Slot.close, h]

/-- The slot is back in the pool, marked when its session expired. -/
def Slot.Pooled (expired : Bool) (sl : Slot) : Prop :=
  sl.st = .idle ∧ sl.owner = none ∧ sl.closing = expired ∧ sl.expired = expired

theorem close_pooled {sl : Slot} {n : Nat} {expired : Bool} (howner : sl.owner = some n) (hst : sl.st = .idle ∨ sl.st = .held) :
    (sl.close n expired).Pooled expired := by
  rcases hst with hst | hst
  · simp [Slot.close, howner, hst, Slot.Pooled]
  · simp [Slot.close, howner, hst, Slot.Pooled]

theorem slotsClosed_slot (s : State) (n m : Nat) (expired : Bool) :
    (s.updNcp fun x => { x with slots := x.slots.map (fun sl => sl.close n expired) }).slot m = (s.slot m).close n expired :=
  List.getD_map s.ncp.slots Slot.reset (fun sl => sl.close n expired)

/-- The last completion of a command whose session is gone returns its slot to the pool (R133). -/
theorem postNow_orphan_slot {s : State} {w : WaitCpl} {m n : Nat} (hbox : w.cmd.box = .slot m) :
    (s.postNow { w with orphan := true }).slot n = s.slot n ∨
      (s.postNow { w with orphan := true }).slot n =
        { s.slot n with st := .idle, owner := none, closing := (s.slot n).expired } := by
  simp only [State.postNow, hbox, if_true]
  split
  · by_cases hn : n = m
    · subst hn
      by_cases hlt : n < s.ncp.slots.length
      · exact .inr (upd_getD_self Slot.reset hlt)
      · have hpast := Nat.le_of_not_lt hlt
        have hslot := slot_of_length_le hpast
        refine .inl ((slot_of_length_le ?_).trans hslot.symm)
        exact (upd_length ..).trans_le hpast
    · exact .inl (upd_getD_of_ne Slot.reset hn)
  · exact .inl rfl

theorem postNow_orphan_sessions {s : State} {w : WaitCpl} {m : Nat} (hbox : w.cmd.box = .slot m) :
    (s.postNow { w with orphan := true }).ncp.sessions = s.ncp.sessions := by
  simp only [State.postNow, hbox, if_true]
  split
  · rfl
  · rfl

theorem ring_box {w : WaitCpl} {k : Nat} (h : w.ring = some k) : ∃ m, w.cmd.box = .slot m := by
  cases hbox : w.cmd.box with
  | slot m => exact ⟨m, rfl⟩
  | mgmt m => simp [WaitCpl.ring, hbox] at h

/-- Completions that waited for the ring go to the orphan log: no session changes, and a slot in the pool stays there. -/
theorem orphanWaiting_keeps (s : State) (n m : Nat) (expired : Bool) :
    (s.orphanWaiting n).ncp.sessions = s.ncp.sessions ∧ ((s.slot m).Pooled expired → ((s.orphanWaiting n).slot m).Pooled expired) := by
  refine each_keeps (P := fun t : State => t.ncp.sessions = s.ncp.sessions ∧ ((s.slot m).Pooled expired → (t.slot m).Pooled expired))
    _ ⟨rfl, id⟩ fun w hw t ht => ?_
  obtain ⟨hsessions, hpooled⟩ := ht
  obtain ⟨k, hbox⟩ := ring_box (eq_of_beq (List.mem_filter.1 hw).2)
  refine ⟨(postNow_orphan_sessions hbox).trans hsessions, fun h => ?_⟩
  obtain ⟨hst, howner, hclosing, hexpired⟩ := hpooled h
  rcases postNow_orphan_slot (s := t) (n := m) hbox with hsame | hfreed
  · rw [hsame]
    exact ⟨hst, howner, hclosing, hexpired⟩
  · rw [hfreed]
    exact ⟨rfl, rfl, hexpired, hexpired⟩

theorem orphanWaiting_of_none {s : State} {n : Nat} (h : s.ncp.waiting = []) : (s.orphanWaiting n).ncp.slots = s.ncp.slots := by
  simp [State.orphanWaiting, h, each_nil]

/-! ## A session that closes -/

section

variable {s : State} {n : Nat} {expired : Bool}

theorem closeSession_slot (m : Nat) : (s.closeSession n expired).slot m =
    ((s.updNcp fun x => { x with slots := x.slots.map (fun sl => sl.close n expired) }).orphanWaiting n).slot m :=
  congrArg (·.getD m Slot.reset) (raise_eventFrame _ 0x0104 _ _).slots

theorem closeSession_session (h : n < s.ncp.sessions.length) : (s.closeSession n expired).session n =
    { s.session n with isOpen := false, primary := false, closing := false } := by
  have hkept : ((s.updNcp fun x => { x with slots := x.slots.map (fun sl => sl.close n expired) }).orphanWaiting n).ncp.sessions =
      s.ncp.sessions := (orphanWaiting_keeps _ n n expired).1
  have hraised : (s.closeSession n expired).ncp.sessions = upd s.ncp.sessions n fun x =>
      { x with isOpen := false, primary := false, closing := false } :=
    (raise_eventFrame _ 0x0104 _ _).sessions.trans (congrArg (upd · n _) hkept)
  rw [State.session, hraised, upd_getD_self _ h]
  rfl

end

theorem lapsed_iff {s : State} {k : Nat} (hopen : (s.session k).isOpen = true) :
    s.lapsed k = true ↔ 2 * (s.session k).heartbeat * 1000000 + (s.session k).lastTaken ≤ s.now := by
  have hms : ms (2 * (s.session k).heartbeat) = 2 * (s.session k).heartbeat * 1000000 := rfl
  simp [State.lapsed, hopen, hms, Nat.add_comm]

/-- Settles O24: the command and the expiry by their tests, what closing leaves by its steps. That an expiry marks the slots which it
returns, so that their doorbells are rejected SESSION_INVALID, is the reading of log entry 6. -/
theorem sessionsClose : Obligations.SessionsClose := by
  refine ⟨fun b s h hnone hroom hopen => ?command, fun k s hopen => ⟨fun hdue => ?expired, fun hearly => ?early⟩,
    fun k expired s hk => ?closed⟩
  case command =>
    obtain ⟨hwaiting, hfull⟩ := taken_rings s b (s.cmdIn b).session
    exact take_next h (sessionCloseBody_closes hopen (ok_waiting (hwaiting.trans hnone) (hfull.trans hroom)))
  case expired =>
    have hlapsed := (lapsed_iff hopen).mpr hdue
    simp only [exec, execSessionExpired, hlapsed, Bool.not_true, Bool.false_eq_true, if_false]
    rfl
  case early =>
    have hlapsed : s.lapsed k = false := Bool.eq_false_iff.mpr fun h => absurd ((lapsed_iff hopen).mp h) (Nat.not_le.mpr hearly)
    simp only [exec, execSessionExpired, hlapsed, Bool.not_false, if_true]
  case closed =>
    intro t
    rw [show t.session k = _ from closeSession_session hk]
    refine ⟨rfl, rfl, fun n howner hst => ?pooled, fun n howner hnone => ?other, by simp [t], by simp [t]⟩
    case pooled =>
      have hclosed := close_pooled (expired := expired) howner hst
      rw [← slotsClosed_slot] at hclosed
      obtain ⟨hidle, hfree, hmarked, -⟩ := (orphanWaiting_keeps _ k n expired).2 hclosed
      rw [show t.slot n = _ from closeSession_slot n]
      exact ⟨hidle, hfree, hmarked⟩
    case other =>
      have hslots := orphanWaiting_of_none
        (s := s.updNcp fun x => { x with slots := x.slots.map (fun sl => sl.close k expired) }) (n := k) hnone
      rw [show t.slot n = _ from closeSession_slot n, State.slot, hslots]
      exact (slotsClosed_slot s k n expired).trans (close_of_other howner)

end Sys2Proof.Machine

/-! SUPPORT. Completions in a session's ring (R114, R115, R125, R127, R128). -/

namespace Sys2Proof.Machine

open Sys2Proof

theorem cplRecord_length {c : Cmd} {status : Nat} {phase response : Bool} {result : List Byte} (h : c.cookie.length = 8) :
    (cplRecord c status phase response result).length = 32 := by
  simp [cplRecord, le_length, fit_length, h]

/-! ## A mailbox that leaves BUSY -/

/-- The response that overwrites a command: length, sequence number, data. -/
def Cmd.responseBytes (c : Cmd) (d : List Byte) : List Byte := le 4 d.length ++ le 4 c.seq.toNat ++ d

theorem responseBytes_length (c : Cmd) (d : List Byte) : (c.responseBytes d).length = 8 + d.length := by
  simp only [Cmd.responseBytes, List.length_append, le_length]

theorem leaveBusy_none {s : State} {c : Cmd} {n : Nat} (hbox : c.box = .slot n) :
    s.leaveBusy c none = s.updSlot n fun x => { x with st := .idle } := by
  simp [State.leaveBusy, State.setBox, hbox]

theorem leaveBusy_some {s : State} {c : Cmd} {d : List Byte} {n : Nat} (hbox : c.box = .slot n) :
    s.leaveBusy c (some d) = (s.updNcp fun x => { x with mem := x.mem.writeN (Mbox.slot n).base (c.responseBytes d) }).updSlot n
      fun x => { x with st := .held } := by
  simp only [State.leaveBusy, State.putResponse, State.setBox, hbox]
  rfl

/-! ## A completion with room in its ring -/

/-- The record stands in the ring, and the session's producer index and phase have moved. -/
def State.cplRecorded (s : State) (w : WaitCpl) : State :=
  let q := s.session w.cmd.session
  (s.updNcp fun x => { x with mem := x.mem.writeN (cqBase w.cmd.session + 32 * q.prod)
                                (cplRecord w.cmd w.status q.phase (w.final && w.response.isSome) w.result) }).updSession w.cmd.session
    fun x => { x with prod := (q.prod + 1) % cqSize, phase := if q.prod + 1 = cqSize then !q.phase else q.phase }

/-- The mailbox of the command leaves BUSY with its last completion. -/
def State.cplReleased (s : State) (w : WaitCpl) : State := if w.final then s.leaveBusy w.cmd w.response else s

section

variable {s : State} {w : WaitCpl} {n k : Nat} (hbox : w.cmd.box = .slot n)

include hbox

theorem postNow_ring (hn : n < 60) (horphan : w.orphan = false) :
    ∃ i, (s.postNow w).ncp = { ((s.cplRecorded w).cplReleased w).ncp with intSummary := i } := by
  have hopen : (Mbox.slot n).isOpen = false := by simp [Mbox.isOpen, hn]
  have hpost : s.postNow w = if bit w.cmd.flags 0 then (s.cplRecorded w).cplReleased w
      else ((s.cplRecorded w).cplReleased w).askVector (1 + w.cmd.session) := by
    simp only [State.postNow, hbox, horphan, hopen, Bool.false_eq_true, if_false]
    rfl
  rw [hpost]
  split
  · exact ⟨_, rfl⟩
  · exact askVector_ncp _ _

theorem cplReleased_sessions (t : State) : (t.cplReleased w).ncp.sessions = t.ncp.sessions := by
  unfold State.cplReleased
  split
  · cases w.response with
    | none => rw [leaveBusy_none hbox]; rfl
    | some d => rw [leaveBusy_some hbox]; rfl
  · rfl

theorem cplReleased_st {t : State} (hn : n < t.ncp.slots.length) (hfinal : w.final = true) :
    ((t.cplReleased w).slot n).st = if w.response.isSome then .held else .idle := by
  rw [State.cplReleased, if_pos hfinal]
  cases w.response with
  | none =>
    rw [leaveBusy_none hbox]
    exact congrArg Slot.st (State.updSlot_slot_self _ n _ hn)
  | some d =>
    rw [leaveBusy_some hbox]
    exact congrArg Slot.st (State.updSlot_slot_self _ n _ hn)

theorem cplReleased_response {t : State} {d : List Byte} (hfinal : w.final = true) (hsome : w.response = some d) :
    (t.cplReleased w).ncp.mem = t.ncp.mem.writeN (Mbox.slot n).base (w.cmd.responseBytes d) := by
  rw [State.cplReleased, if_pos hfinal, hsome, leaveBusy_some hbox]
  rfl

/-- Outside its slot, the release of a mailbox changes no byte. -/
theorem cplReleased_read {t : State} {a : Nat} (hfits : ∀ d, w.response = some d → d.length ≤ 16352)
    (ha : a < 0x100000 + 0x4000 * n ∨ 0x100000 + 0x4000 * n + 0x4000 ≤ a) : (t.cplReleased w).ncp.mem.read a = t.ncp.mem.read a := by
  by_cases hfinal : w.final = true
  · cases hresp : w.response with
    | none =>
      rw [State.cplReleased, if_pos hfinal, hresp, leaveBusy_none hbox]
      rfl
    | some d =>
      rw [cplReleased_response hbox hfinal hresp]
      have hlength := responseBytes_length w.cmd d
      have hd := hfits d hresp
      exact Mem.read_writeN_of_not _ _ _ _ (by simp only [Mbox.base, hlength]; omega)
  · rw [State.cplReleased, if_neg hfinal]

end

theorem Mem.readN_congr {m m' : Mem} {x n : Nat} (h : ∀ a, x ≤ a → a < x + n → m.read a = m'.read a) : m.readN x n = m'.readN x n := by
  induction n generalizing x with
  | zero => rfl
  | succ n ih =>
    rw [Mem.readN, Mem.readN, h x le_rfl (by omega), ih fun a hlo hhi => h a (by omega) (by omega)]

/-- Settles O20: the record and the release by their steps, and the row of a ring that has got room by its branches. -/
theorem completionRecords : Obligations.CompletionRecords := by
  refine ⟨fun w n k s hbox hn horphan hsession hk hcookie hsessions hslots hwf hprod hfits => ?posted,
    fun k w s hfind hroom hop => ?room⟩
  case posted =>
    subst hsession
    intro t
    obtain ⟨i, ht⟩ : ∃ i, t.ncp = { ((s.cplRecorded w).cplReleased w).ncp with intSummary := i } := postNow_ring hbox hn horphan
    have hbase : cqBase w.cmd.session = 0x200000 + 0x8000 * w.cmd.session := by rw [cqBase, Nat.mul_comm]
    have hrecord := cplRecord_length (status := w.status) (phase := (s.session w.cmd.session).phase)
      (response := w.final && w.response.isSome) (result := w.result) hcookie
    have hmem : (s.cplRecorded w).ncp.mem = s.ncp.mem.writeN (0x200000 + 0x8000 * w.cmd.session + 32 * (s.session w.cmd.session).prod)
        (cplRecord w.cmd w.status (s.session w.cmd.session).phase (w.final && w.response.isSome) w.result) := by
      rw [← hbase]
      rfl
    have htmem : t.ncp.mem = ((s.cplRecorded w).cplReleased w).ncp.mem := by rw [ht]
    have htslot : t.slot n = ((s.cplRecorded w).cplReleased w).slot n := by simp only [State.slot, ht]
    have htsession : t.session w.cmd.session = (s.cplRecorded w).session w.cmd.session := by
      simp only [State.session, ht, cplReleased_sessions hbox]
    have hsessionNow : (s.cplRecorded w).session w.cmd.session = { s.session w.cmd.session with
        prod := ((s.session w.cmd.session).prod + 1) % cqSize
        phase := if (s.session w.cmd.session).prod + 1 = cqSize then !(s.session w.cmd.session).phase
          else (s.session w.cmd.session).phase } := by
      have hlt : w.cmd.session < s.ncp.sessions.length := by omega
      exact upd_getD_self Session.reset hlt
    have hslotsNow : (s.cplRecorded w).ncp.slots.length = 64 := hslots
    rw [htsession, hsessionNow, htslot, htmem]
    refine ⟨?record, rfl, ?phase, cplReleased_st hbox (by omega), fun hfinal => ?same,
      fun d hfinal hsome => ?response, fun a ha hslot => ?rest⟩
    case record =>
      have hkept : Mem.readN ((s.cplRecorded w).cplReleased w).ncp.mem
            (0x200000 + 0x8000 * w.cmd.session + 32 * (s.session w.cmd.session).prod) 32 =
          Mem.readN (s.cplRecorded w).ncp.mem (0x200000 + 0x8000 * w.cmd.session + 32 * (s.session w.cmd.session).prod) 32 :=
        Mem.readN_congr fun a hlo hhi => cplReleased_read hbox hfits (by omega)
      rw [hkept, hmem, ← hrecord]
      exact Mem.readN_writeN _ _ _ hwf
    case phase => simp [cqSize]
    case same =>
      rw [State.cplReleased, if_neg (by simp [hfinal])]
      rfl
    case response =>
      rw [cplReleased_response hbox hfinal hsome, ← responseBytes_length w.cmd d, Mbox.base, Nat.mul_comm n]
      exact Mem.readN_writeN _ _ _ (hmem ▸ Mem.writeN_wf _ _ _ hwf)
    case rest =>
      rw [cplReleased_read hbox hfits hslot, hmem]
      exact Mem.read_writeN_of_not _ _ _ _ (by rwa [hrecord])
  case room =>
    simp [exec, execCompletionPost, hfind, hroom, hop]

end Sys2Proof.Machine

/-! SUPPORT. Staging and reading generations: blocks of a list in canonical order, and what each command of group 0x02 that neither
commits nor rolls back answers (R155, R157 to R159, R164, R168, R181 to R187). -/

namespace Sys2Proof.Machine

open Sys2Proof

/-! ## A block put into a list -/

theorem find?_insertBy_of_neg {α : Type} {lt : α → α → Bool} {p : α → Bool} {a : α} (ha : p a = false) (l : List α) :
    (insertBy lt a l).find? p = l.find? p := by
  induction l with
  | nil => simp [insertBy, ha]
  | cons b bs ih =>
    rw [insertBy]
    split
    · rw [List.find?_cons, List.find?_cons, ih]
    · rw [List.find?_cons, ha]

theorem find?_insertBy_of_pos {α : Type} {lt : α → α → Bool} {p : α → Bool} {a : α} {l : List α} (ha : p a = true)
    (hl : l.find? p = none) : (insertBy lt a l).find? p = some a := by
  induction l with
  | nil => simp [insertBy, ha]
  | cons b bs ih =>
    obtain ⟨hb, hbs⟩ : p b = false ∧ bs.find? p = none := by simpa using hl
    rw [insertBy]
    split
    · rw [List.find?_cons, hb]
      exact ih hbs
    · rw [List.find?_cons, ha]

theorem isAt_iff {b : Block} {type target : Nat} : b.isAt type target = true ↔ b.type = type ∧ b.target = target := by
  simp [Block.isAt]

/-- A block has one type and target. -/
theorem isAt_of_ne {b : Block} {type target type' target' : Nat} (h : b.isAt type target = true)
    (hne : (type', target') ≠ (type, target)) : b.isAt type' target' = false := by
  obtain ⟨rfl, rfl⟩ := isAt_iff.1 h
  refine Bool.eq_false_iff.mpr fun h' => hne ?_
  obtain ⟨rfl, rfl⟩ := isAt_iff.1 h'
  rfl

theorem blockIn_putBlock_self (bs : List Block) (b : Block) : blockIn (putBlock bs b) b.type b.target = some b := by
  refine find?_insertBy_of_pos (p := fun x : Block => x.isAt b.type b.target) (isAt_iff.2 ⟨rfl, rfl⟩) ?_
  rw [List.find?_filter]
  simp

theorem blockIn_putBlock_of_ne (bs : List Block) {b : Block} {type target : Nat} (hne : (type, target) ≠ (b.type, b.target)) :
    blockIn (putBlock bs b) type target = blockIn bs type target := by
  refine (find?_insertBy_of_neg (p := fun x : Block => x.isAt type target)
    (isAt_of_ne (isAt_iff.2 ⟨rfl, rfl⟩) hne) _).trans ?_
  rw [List.find?_filter]
  refine congrArg (bs.find? ·) (funext fun x => Bool.eq_iff_iff.2 (decide_eq_true_iff.trans ?_))
  exact and_iff_right_of_imp fun hx => by rw [isAt_of_ne hx hne.symm]; rfl

/-- A first chunk that is the whole payload completes its block (R184). -/
theorem stageChunk_whole (g : Gen) (h : Block) (d : List Byte) : stageChunk g h d.length 0 d = .inl
    { g with blocks := putBlock g.blocks { h with payload := d },
             incomplete := g.incomplete.filter (fun x => !x.header.isAt h.type h.target) } := by
  simp [stageChunk]

/-! ## The commands -/

section

variable {c : Cmd} {s : State}

/-- A generation of these blocks begins, under the next number. -/
def State.stagesNext (s : State) (blocks : List Block) : State :=
  (s.updNv fun x => { x with highestGen := s.nv.highestGen + 1 }).updCfg fun x =>
    { x with staged := some { number := s.nv.highestGen + 1, blocks := blocks, incomplete := [] } }

theorem cfgStageBeginBody_empty (hstaged : s.cfg.staged = none) (harmed : s.cfg.armed = none) (hbase : fld c.payload 0 4 = 0) :
    cfgStageBeginBody c s = (s.stagesNext []).ok c (le 4 (s.nv.highestGen + 1)) := by
  simp [cfgStageBeginBody, State.stagesNext, hstaged, harmed, hbase]

theorem cfgStageBeginBody_copies {g : Gen} (hstaged : s.cfg.staged = none) (harmed : s.cfg.armed = none)
    (hbase : fld c.payload 0 4 = 1) (hlive : s.cfg.live = some g) :
    cfgStageBeginBody c s = (s.stagesNext g.blocks).ok c (le 4 (s.nv.highestGen + 1)) := by
  simp [cfgStageBeginBody, State.stagesNext, hstaged, harmed, hbase, hlive]

theorem cfgStageBlockBody_adds {g g' : Gen} (hstaged : s.cfg.staged = some g) (htarget : c.target = 0)
    (hheader : headerBreaks (stagedHeader c.payload).1 (stagedHeader c.payload).2 = none)
    (hflags : (stagedHeader c.payload).1.flags = 0)
    (hchunk : stageChunk g (stagedHeader c.payload).1 (stagedHeader c.payload).2 (fld c.payload 0 4) (c.payload.drop 24) = .inl g')
    (hbytes : chunkBreaks (stagedHeader c.payload).1.type
      (g.assembled (stagedHeader c.payload).1 (fld c.payload 0 4) (c.payload.drop 24)) (stagedHeader c.payload).2
      (fld c.payload 0 4) = none)
    (hblocks : g'.blocks.length + g'.incomplete.length ≤ 4096) (hlength : g'.fullLength ≤ 67108864) :
    cfgStageBlockBody c s = (s.updCfg fun x => { x with staged := some g' }).ok c [] := by
  have hflags' : ((stagedHeader c.payload).1.flags == 1) = false := by simp [hflags]
  simp only [cfgStageBlockBody, htarget, bne_self_eq_false, Bool.false_and, Bool.false_eq_true, if_false, hstaged, hheader, hflags',
    hchunk, hbytes, Nat.not_lt.mpr hblocks, Nat.not_lt.mpr hlength]

/-- A block for a generation that is not the STAGED one (R181). -/
theorem cfgStageBlockBody_locked {g : Gen} (hstaged : s.cfg.staged = some g) (hzero : c.target ≠ 0) (hother : c.target ≠ g.number) :
    cfgStageBlockBody c s = s.fail c stLiveLocked := by
  simp [cfgStageBlockBody, hstaged, hzero, hother.symm]

theorem cfgStageDiscardBody_drops (hstaged : s.cfg.staged.isSome = true) :
    cfgStageDiscardBody c s = (s.updCfg fun x => { x with staged := none }).ok c [] := by
  obtain ⟨g, hg⟩ := Option.isSome_iff_exists.1 hstaged
  simp [cfgStageDiscardBody, hg]

theorem cfgStageDiscardBody_none (hstaged : s.cfg.staged = none) : cfgStageDiscardBody c s = s.fail c stNoStaged := by
  simp [cfgStageDiscardBody, hstaged]

theorem cfgValidateBody_sound {g : Gen} (hstaged : s.cfg.staged = some g) (hsound : (s.accept c 0 []).validate g false = none) :
    cfgValidateBody c s = (s.accept c 0 []).finishAll 0x0204 0 stOk [] none := by
  simp only [cfgValidateBody, hstaged, hsound]

theorem cfgValidateBody_faulty {g : Gen} {f : Fail} (hstaged : s.cfg.staged = some g)
    (hfault : (s.accept c 0 []).validate g false = some f) : cfgValidateBody c s =
      (s.accept c 0 []).finishAll 0x0204 0 stValidationFailed ((s.accept c 0 []).failResult f) none := by
  simp only [cfgValidateBody, hstaged, hfault]

theorem cfgReadBlockBody_reads {g : Gen} {blk : Block} (hgen : s.genByNumber (fld c.payload 0 4) = some g)
    (hblock : blockIn g.blocks (fld c.payload 4 2) (fld c.payload 6 2) = some blk)
    (hoff : fld c.payload 12 4 ≤ blk.payload.length) : cfgReadBlockBody c s =
      s.reply c stOk [] (some (blk.header ++ (blk.payload.drop (fld c.payload 12 4)).take 16320)) := by
  simp only [cfgReadBlockBody, hgen, hblock, Nat.not_lt.mpr hoff, if_false]

end

/-- Settles O27, each command by the branch of its body that the clause names, and a whole block by what a list of blocks holds once
one is put into it. -/
theorem stagingAGeneration : Obligations.StagingAGeneration := by
  refine ⟨fun b s => ⟨fun h hstaged harmed => ⟨?empty, fun g => ?copies⟩, fun g g' h => ?adds, fun g h => ?locked, ?drops, ?none⟩,
    fun g g' h d hchunk => ?whole⟩
  case empty => exact fun hbase => take_next h (cfgStageBeginBody_empty hstaged harmed hbase)
  case copies => exact fun hbase hlive => take_next h (cfgStageBeginBody_copies hstaged harmed hbase hlive)
  case adds =>
    exact fun hstaged htarget hheader hflags hchunk hbytes hblocks hlength =>
      take_next h (cfgStageBlockBody_adds hstaged htarget hheader hflags hchunk hbytes hblocks hlength)
  case locked => exact fun hstaged hzero hother => take_next h (cfgStageBlockBody_locked hstaged hzero hother)
  case drops => exact fun h hstaged => take_next h (cfgStageDiscardBody_drops hstaged)
  case none => exact fun h hstaged => take_next h (cfgStageDiscardBody_none hstaged)
  case whole =>
    obtain rfl := Sum.inl.inj ((stageChunk_whole g h d).symm.trans hchunk)
    exact ⟨rfl, blockIn_putBlock_self g.blocks { h with payload := d },
      fun type target hne => blockIn_putBlock_of_ne g.blocks (b := { h with payload := d }) hne⟩

/-- Settles O28. That CFG_VALIDATE is accepted and ends in one step is the reading of log entry 24; CFG_STATUS has one branch. -/
theorem validatingAndReadingGenerations : Obligations.ValidatingAndReadingGenerations := by
  refine fun b s => ⟨fun g h hstaged hsound => ?sound, fun g f h hstaged hfault => ?faulty, fun h => ?status,
    fun g blk h hgen hblock hoff => ?block⟩
  case sound => exact take_next h (cfgValidateBody_sound hstaged hsound)
  case faulty => exact take_next h (cfgValidateBody_faulty hstaged hfault)
  case status => exact take_next h rfl
  case block => exact take_next h (cfgReadBlockBody_reads hgen hblock hoff)

end Sys2Proof.Machine

/-! SUPPORT. Generations that are armed, and the commands that arm them (R162, R163, R174, R177, R178, R182, R185, R395). -/

namespace Sys2Proof.Machine

open Sys2Proof

/-! ## Arming -/

/-- `t` is `s` but for 3D LUT units, mailboxes, vectors, observability, free values and what has left the device. -/
def LutFrame (s t : State) : Prop := ∃ l, MailFrame { s with luts := l } t

theorem LutFrame.trans {s t u : State} (h₁ : LutFrame s t) (h₂ : LutFrame t u) : LutFrame s u := by
  obtain ⟨_, _, _, _, _, _, rfl⟩ := h₁
  obtain ⟨_, _, _, _, _, _, rfl⟩ := h₂
  exact ⟨_, _, _, _, _, _, rfl⟩

theorem LutFrame.cfg {s t : State} (h : LutFrame s t) : t.cfg = s.cfg := by
  obtain ⟨_, _, _, _, _, _, rfl⟩ := h
  rfl

theorem LutFrame.eq {s t : State} (h : LutFrame s t) :
    t = { s with luts := t.luts, ncp := t.ncp, vecs := t.vecs, obs := t.obs, free := t.free, outs := t.outs } := by
  obtain ⟨_, _, _, _, _, _, rfl⟩ := h
  rfl

/-- A new 3D LUT takes a free unit, where one is free (R395). -/
theorem loadLuts_lutFrame (s : State) (bs : List Block) : LutFrame s (s.loadLuts bs) := by
  refine each_keeps (P := LutFrame s) _ ⟨_, .refl s⟩ fun b _ t ht => ht.trans ?_
  dsimp only
  split
  · exact ⟨_, .refl t⟩
  · obtain ⟨_, _, _, _, _, hchosen⟩ : MailFrame t (t.choose ((List.range 16).filter fun k =>
        (t.luts.getD k LutUnit.reset).st == 0)).2 := ⟨_, _, _, _, _, (choose_mailOnly t _).eq⟩
    rw [hchosen]
    split
    · exact ⟨_, _, _, _, _, _, rfl⟩
    · exact ⟨_, _, _, _, _, _, rfl⟩

/-- The generation stands ARMED and its changed blocks wait to apply (R163). -/
def State.arms (s : State) (g : Gen) (kind : ArmKind) (timeoutMs : Nat) : State :=
  s.updCfg fun c => { c with armed := some g, armKind := kind, armTbm := s.now, armTimeoutMs := timeoutMs,
                             unapplied := changedBlocks s.cfg.inForce g.blocks }

theorem armGen_lutFrame (s : State) (g : Gen) (kind : ArmKind) (timeoutMs : Nat) :
    LutFrame (s.arms g kind timeoutMs) (s.armGen g kind timeoutMs) :=
  (loadLuts_lutFrame (s.arms g kind timeoutMs) g.blocks).trans ⟨_, raise_mailFrame _ _ _ _⟩

/-! ## CFG_COMMIT and CFG_ROLLBACK -/

section

variable {c : Cmd} {s : State} {g : Gen}

/-- The probation that a CFG_COMMIT asks for, from the state that has accepted it (R174, R185). -/
def Cmd.probation (c : Cmd) (s : State) (g : Gen) : Probation :=
  { frames := fld c.payload 4 4, limitMs := if fld c.payload 8 4 = 0 then 60000 else fld c.payload 8 4, startTbm := s.now, landed := [],
    affected := s.affectedBy g }

/-- The generation leaves STAGED with what its CFG_COMMIT asks for (R162, R179, R185). -/
def State.commits (s : State) (c : Cmd) (g : Gen) : State :=
  s.updCfg fun x => { x with staged := none, persistReq := fld c.payload 0 4 == 1,
                             probation := if fld c.payload 4 4 = 0 then none else some (c.probation s g) }

/-- What a CFG_COMMIT that may arm a generation meets: nothing ARMED and no probation, the generation STAGED, and its fields in
range (R178, R185). -/
structure CommitFits (c : Cmd) (s : State) (g : Gen) : Prop where
  armed     : s.cfg.armed = none
  probation : s.cfg.probation = none
  staged    : s.cfg.staged = some g
  flags     : fld c.payload 0 4 ≤ 1
  frames    : fld c.payload 4 4 ≤ 16777215
  limit     : fld c.payload 8 4 = 0 ∨ (100 ≤ fld c.payload 8 4 ∧ fld c.payload 8 4 ≤ 3600000)
  timeout   : fld c.payload 12 4 = 0 ∨ (10 ≤ fld c.payload 12 4 ∧ fld c.payload 12 4 ≤ 60000)

/-- A field that is 0 or in its range passes its check. -/
theorem rangeCheck_passes {v lo hi : Nat} (h : v = 0 ∨ (lo ≤ v ∧ v ≤ hi)) :
    (v != 0 && (decide (v < lo) || decide (hi < v))) = false := by
  rcases h with rfl | ⟨hlo, hhi⟩
  · rfl
  · simp [Nat.not_lt.mpr hlo, Nat.not_lt.mpr hhi]

/-- PERSIST is the only flag. -/
theorem bit_zero_of_le_one {v : Nat} (h : v ≤ 1) : bit v 0 = (v == 1) := by
  interval_cases v
  · rfl
  · rfl

theorem cfgCommitBody_arms (h : CommitFits c s g) (hsound : (s.accept c 0 []).validate g (fld c.payload 0 4 == 1) = none) :
    cfgCommitBody c s = (((s.accept c 0 []).commits c g).armGen g .commit
      (if fld c.payload 12 4 = 0 then 1000 else fld c.payload 12 4)).settle := by
  simp only [cfgCommitBody, Nat.not_lt.mpr h.frames, rangeCheck_passes h.limit, rangeCheck_passes h.timeout, h.armed, h.probation,
    h.staged, bit_zero_of_le_one h.flags, hsound, Option.isSome_none, Bool.or_self, Bool.false_eq_true, if_false, State.commits,
    Cmd.probation]

theorem cfgCommitBody_faulty {f : Fail} (h : CommitFits c s g)
    (hfault : (s.accept c 0 []).validate g (fld c.payload 0 4 == 1) = some f) : cfgCommitBody c s =
      (s.accept c 0 []).finishAll 0x0205 0 stValidationFailed ((s.accept c 0 []).failResult f) none := by
  simp only [cfgCommitBody, Nat.not_lt.mpr h.frames, rangeCheck_passes h.limit, rangeCheck_passes h.timeout, h.armed, h.probation,
    h.staged, bit_zero_of_le_one h.flags, hfault, Option.isSome_none, Bool.or_self, Bool.false_eq_true, if_false]

theorem cfgRollbackBody_arms (harmed : s.cfg.armed = none) (hprevious : s.cfg.previous = some g)
    (hsound : (s.accept c 0 []).validate g false = none) : cfgRollbackBody c s =
      (((s.accept c 0 []).updCfg fun x => { x with previous := none, probation := none, persistReq := false }).armGen g
        .rollback 1000).settle := by
  simp only [cfgRollbackBody, harmed, hprevious, hsound, Option.isSome_none, Bool.false_eq_true, if_false]

theorem cfgRollbackBody_faulty {f : Fail} (harmed : s.cfg.armed = none) (hprevious : s.cfg.previous = some g)
    (hfault : (s.accept c 0 []).validate g false = some f) : cfgRollbackBody c s =
      (s.accept c 0 []).finishAll 0x0206 0 stValidationFailed ((s.accept c 0 []).failResult f) none := by
  simp only [cfgRollbackBody, harmed, hprevious, hfault, Option.isSome_none, Bool.false_eq_true, if_false]

theorem cfgRollbackBody_none (harmed : s.cfg.armed = none) (hprevious : s.cfg.previous = none) :
    cfgRollbackBody c s = s.fail c stNoPrevious := by
  simp [cfgRollbackBody, harmed, hprevious]

end

/-- The time does not pass while a command is taken and accepted. -/
theorem taken_accept_now (s : State) (b : Mbox) (c : Cmd) : ((s.taken b).accept c 0 []).now = s.now := by
  simp [State.now, State.taken]

/-- Settles O29, each command by its body after the shared checks, and arming by its steps. The arm timeout of a rollback and the probation
limit that runs from the commit are choices of log entry 33, that PREVIOUS is taken out and the probation ended is entry 26. -/
theorem commitAndRollbackArm : Obligations.CommitAndRollbackArm := by
  refine ⟨fun b g s => ?commands, fun g kind ms s => ?arming⟩
  case commands =>
    intro t c p a ms prob harmed
    refine ⟨fun h hprobation hstaged hflags hframes hlimit htimeout => ?commit, fun h hprevious => ⟨?sound, ?faulty⟩,
      fun h hprevious => ?nothing⟩
    case commit =>
      have hfits : CommitFits c t g := ⟨harmed, hprobation, hstaged, hflags, hframes, hlimit, htimeout⟩
      have hprob : prob = c.probation a g := by rw [Cmd.probation, taken_accept_now]
      rw [hprob]
      exact ⟨fun hsound => take_next h (cfgCommitBody_arms hfits hsound),
        fun f hfault => take_next h (cfgCommitBody_faulty hfits hfault)⟩
    case sound => exact fun hsound => take_next h (cfgRollbackBody_arms harmed hprevious hsound)
    case faulty => exact fun f hfault => take_next h (cfgRollbackBody_faulty harmed hprevious hfault)
    case nothing => exact take_next h (cfgRollbackBody_none harmed hprevious)
  case arming =>
    have hframe := armGen_lutFrame s g kind ms
    refine ⟨hframe.cfg, ?_⟩
    rw [hframe.cfg]
    exact hframe.eq

end Sys2Proof.Machine

/-! SUPPORT. A generation that applies, goes LIVE and is persisted (R169 to R174, R178, R179). -/

namespace Sys2Proof.Machine

open Sys2Proof

/-! ## Becoming LIVE -/

@[simp] theorem addJob_cfg (s : State) (j : Job) : (s.addJob j).2.cfg = s.cfg := by
  unfold State.addJob
  dsimp only
  split
  · rfl
  · split
    · rfl
    · rfl

theorem raiseLimited_cfg (s : State) (last : Option Nanos) (span : Nanos) (code src : Nat) (body : List Byte)
    {mark : Option Nanos → State → State} (hmark : ∀ t u, (mark t u).cfg = u.cfg) :
    (s.raiseLimited last span code src body mark).cfg = s.cfg := by
  unfold State.raiseLimited
  split
  · rw [hmark]
    exact (raise_mailOnly s code src body).2.1
  · rfl

/-- The manifest of a segment, its job and the event that it may raise are no part of a generation. -/
@[simp] theorem closeSegment_cfg (s : State) (n cause : Nat) : (s.closeSegment n cause).cfg = s.cfg := by
  unfold State.closeSegment
  dsimp only
  split
  next => rfl
  next =>
    split
    next =>
      split
      · rfl
      · rfl
    next =>
      split
      · rw [raiseLimited_cfg _ _ _ _ _ _ fun _ u => State.updTrust_cfg u _, addJob_cfg]
        rfl
      · rw [addJob_cfg]
        rfl

theorem closeSegments_cfg (s : State) (cause : Nat) : (s.closeSegments cause).cfg = s.cfg := by simp [State.closeSegments]

theorem closeSegments_mem (s : State) (cause : Nat) : (s.closeSegments cause).mem = s.mem := by simp [State.closeSegments]

/-- A policy that takes effect moves the policy counter alone (R589). -/
theorem policyLive_keeps (s : State) (before now : Option Gen) :
    (s.policyLive before now).cfg = s.cfg ∧ (s.policyLive before now).mem = s.mem := by
  unfold State.policyLive
  dsimp only
  split
  · exact ⟨rfl, rfl⟩
  · simp

/-- Capture memory and the generations are as before; probation and what is to be persisted may not be. -/
@[simp] abbrev KeepsGens (s t : State) : Prop :=
  t.mem = s.mem ∧ t.cfg.staged = s.cfg.staged ∧ t.cfg.armed = s.cfg.armed ∧ t.cfg.live = s.cfg.live ∧
    t.cfg.previous = s.cfg.previous ∧ t.cfg.inForce = s.cfg.inForce

@[simp] theorem startPersist_keepsGens (s : State) : KeepsGens s s.startPersist := by
  unfold State.startPersist
  split
  · exact ⟨rfl, rfl, rfl, rfl, rfl, rfl⟩
  · exact ⟨rfl, rfl, rfl, rfl, rfl, rfl⟩

@[simp] theorem probationPass_keepsGens (s : State) : KeepsGens s s.probationPass := by simp [State.probationPass]

@[simp] theorem noteCaptured_keepsGens (s : State) : KeepsGens s s.noteCaptured := by
  unfold State.noteCaptured
  split
  · exact ⟨rfl, rfl, rfl, rfl, rfl, rfl⟩
  · exact ⟨rfl, rfl, rfl, rfl, rfl, rfl⟩

theorem probationCheck_keepsGens (s : State) : KeepsGens s s.probationCheck := by
  unfold State.probationCheck
  dsimp only
  split
  · exact noteCaptured_keepsGens s
  · split
    · simp
    · exact noteCaptured_keepsGens s

/-- The ARMED generation is LIVE, the LIVE one PREVIOUS; its policy takes effect, open segments close and the command that armed it
completes (R173, R182, R589, R597). -/
def State.becomesLive (s : State) (g : Gen) : State :=
  let t := (s.updCfg fun c => { c with live := some g, previous := s.cfg.live, armed := none }).raise 0x0202 srcDevice
    (le 4 g.number ++ le 4 (genNumber s.cfg.live))
  let t := (t.policyLive s.cfg.live (some g)).closeSegments 5
  (t.finishAll 0x0205 0 stOk [] none).finishAll 0x0206 0 stOk [] none

theorem becomesLive_keeps (s : State) (g : Gen) :
    (s.becomesLive g).cfg = { s.cfg with live := some g, previous := s.cfg.live, armed := none } ∧ (s.becomesLive g).mem = s.mem := by
  simp [State.becomesLive, closeSegments_cfg, closeSegments_mem, policyLive_keeps]

/-- A generation that no automatic rollback has armed: after it is LIVE its copy is written, or its probation may have passed already. -/
theorem goLive_becomesLive {s : State} {g : Gen} (harmed : s.cfg.armed = some g) (hall : s.cfg.unapplied = [])
    (hkind : s.cfg.armKind = .commit ∨ s.cfg.armKind = .rollback) :
    s.goLive = (s.becomesLive g).startPersist ∨ s.goLive = (s.becomesLive g).probationCheck := by
  rcases hkind with hkind | hkind
  all_goals
    simp only [State.goLive, harmed, hall, hkind, List.isEmpty_nil, Bool.not_true, Bool.false_eq_true, if_false]
    split
    · exact .inl rfl
    · exact .inr rfl

theorem goLive_keepsGens {s : State} {g : Gen} (harmed : s.cfg.armed = some g) (hall : s.cfg.unapplied = [])
    (hkind : s.cfg.armKind = .commit ∨ s.cfg.armKind = .rollback) : KeepsGens (s.becomesLive g) s.goLive := by
  rcases goLive_becomesLive harmed hall hkind with h | h
  · rw [h]
    exact startPersist_keepsGens _
  · rw [h]
    exact probationCheck_keepsGens _

/-! ## Global blocks -/

theorem applyGlobals_cons (g : Gen) (type : Nat) (types : List Nat) (s : State) : s.applyGlobals g (type :: types) =
    if s.globalIdle g type then (s.applyOneGlobal g type).applyGlobals g types else s := rfl

/-! ## Time limits -/

theorem ms_eq (n : Nat) : ms n = 1000000 * n := Nat.mul_comm ..

theorem execProbationLimit_due {p : Probation} {s : State} (hp : s.cfg.probation = some p)
    (hdue : p.startTbm + 1000000 * p.limitMs ≤ s.now) : execProbationLimit s = .next s.probationPass := by
  simp [execProbationLimit, hp, ms_eq, Nat.not_lt.mpr hdue]

/-- What passes probation is put behind those to be persisted, when that was asked (R174, R179). -/
theorem startPersist_persisting (s : State) : s.startPersist.cfg.persisting = s.cfg.persisting ++
    (if s.cfg.persistReq then (s.cfg.armed.orElse fun _ => s.cfg.live).toList else []) := by
  unfold State.startPersist
  split
  · rfl
  · exact (List.append_nil _).symm

theorem startPersist_probation (s : State) : s.startPersist.cfg.probation = s.cfg.probation := by
  unfold State.startPersist
  split
  · rfl
  · rfl

theorem probationPass_passes (s : State) : s.probationPass.cfg.probation = none ∧ s.probationPass.cfg.persisting =
    s.cfg.persisting ++ (if s.cfg.persistReq then (s.cfg.armed.orElse fun _ => s.cfg.live).toList else []) := by
  simp [State.probationPass, startPersist_probation, startPersist_persisting]

/-! ## Persist copies -/

section

variable {g : Gen} {rest : List Gen} {s : State} (hfirst : s.cfg.persisting = g :: rest)

include hfirst

/-- A written copy stands in the place of the older, and is the newest (R179). -/
theorem execCfgPersistDone_written (status : Nat) : execCfgPersistDone true status s =
    .next (((s.updCfg fun c => { c with persisting := rest }).updNv fun n =>
      { n with persist := n.persist.set (1 - s.nv.newest) (some g), newest := 1 - s.nv.newest }).raise 0x0206 srcDevice
        (le 4 g.number)) := by
  simp only [execCfgPersistDone, hfirst, if_true, State.updCfg_nv]

theorem execCfgPersistDone_failed (status : Nat) : execCfgPersistDone false status s =
    .next ((s.updCfg fun c => { c with persisting := rest }).raise 0x0207 srcDevice (le 4 g.number ++ le 2 status)) := by
  simp only [execCfgPersistDone, hfirst, Bool.false_eq_true, if_false]

end

/-- Of two copies, one is set and the other is left. -/
theorem getD_set_newest {α : Type} {l : List α} {newest : Nat} (hlength : l.length = 2) (hnewest : newest < 2) (a d : α) :
    (l.set (1 - newest) a).getD (1 - newest) d = a ∧ (l.set (1 - newest) a).getD newest d = l.getD newest d := by
  have hself : 1 - newest < l.length := by omega
  have hother : 1 - newest ≠ newest := by omega
  simp [List.getD_eq_getElem?_getD, hself, hother]

/-- Settles O30, row by row. That a held block holds those behind it, and the queue of persist copies, are the reading of log entry 26;
that the probation limit runs from the commit is the choice of entry 33. -/
theorem generationsApplyAndPersist : Obligations.GenerationsApplyAndPersist := by
  refine ⟨fun g s harmed hall hkind => ?live, fun g s h => ?apply, fun g type s hwaiting hidle => ?one,
    fun g type types s hwaiting hheld => ?held, fun g s h hdue => ?forced, fun s hearly => ?early, fun p s hp hdue => ?limit,
    fun g rest s hfirst hnewest hlength => ⟨?written, fun status => ?failed⟩⟩
  case live =>
    intro t
    obtain ⟨⟨hpower, -⟩, hshrouds, -⟩ : KeepsCore s t := goLive_keepsCore s
    obtain ⟨hmem, hstaged, harmed', hlive, hprevious, hforce⟩ : KeepsGens (s.becomesLive g) t := goLive_keepsGens harmed hall hkind
    obtain ⟨hcfg, hmem'⟩ := becomesLive_keeps s g
    rw [hcfg] at hstaged harmed' hlive hprevious hforce
    exact ⟨hlive, hprevious, harmed', hstaged, hforce, hpower, hmem.trans hmem', hshrouds⟩
  case apply => simp only [exec, execGlobalBlockApply, h]
  case one =>
    rw [hwaiting]
    exact (applyGlobals_cons g type [] s).trans (if_pos hidle)
  case held =>
    rw [hwaiting]
    exact (applyGlobals_cons g type types s).trans (if_neg (Bool.eq_false_iff.mp hheld))
  case forced =>
    have hms : s.cfg.armTbm + ms s.cfg.armTimeoutMs ≤ s.now := ms_eq s.cfg.armTimeoutMs ▸ hdue
    simp only [exec, execArmTimeout, hms, decide_true, if_true, State.armExpires, h]
  case early =>
    have hms : ¬ s.cfg.armTbm + ms s.cfg.armTimeoutMs ≤ s.now := Nat.not_le.mpr (ms_eq s.cfg.armTimeoutMs ▸ hearly)
    simp only [exec, execArmTimeout, hms, decide_false, Bool.false_eq_true, if_false]
  case limit =>
    obtain ⟨hended, hpersisting⟩ := probationPass_passes s
    obtain ⟨-, -, -, hlive, -⟩ := probationPass_keepsGens s
    exact ⟨_, execProbationLimit_due hp hdue, hended, hlive, hpersisting⟩
  case written =>
    obtain ⟨hset, hleft⟩ := getD_set_newest hlength hnewest (some g) none
    exact ⟨_, execCfgPersistDone_written hfirst 0, by simp, by simp, by simpa using hset, by simpa using hleft⟩
  case failed => exact ⟨_, execCfgPersistDone_failed hfirst status, by simp, by simp⟩

end Sys2Proof.Machine

/-! SUPPORT. What leaves the energy ledger alone: all that the firmware does after an event and what a tick applies, one lemma for each
function in the model's order, but for the outcomes that a retired job delivers; those leave window, factors and trace. -/

namespace Sys2Proof.Machine

open Sys2Proof

/-! ## What leaves the ledger alone -/

/-! ### Pins and ports -/

@[simp] theorem drivePins_ledger (s : State) (g : PinGroup) : (s.drivePins g).ledger = s.ledger := by simp [State.drivePins]

@[simp] theorem updPort_ledger (s : State) (y k : Nat) (f : FlexPort → FlexPort) : (s.updPort y k f).ledger = s.ledger := by
  simp [State.updPort]

/-! ### Jobs and engines -/

@[simp] theorem updEngine_ledger (s : State) (m : Nat) (f : Engine → Engine) : (s.updEngine m f).ledger = s.ledger := by
  simp [State.updEngine]

@[simp] theorem updJob_ledger (s : State) (id : Nat) (f : Job → Job) : (s.updJob id f).ledger = s.ledger := by simp [State.updJob]

@[simp] theorem mapJobs_ledger (s : State) (f : Job → Job) : (s.mapJobs f).ledger = s.ledger := by simp [State.mapJobs]

@[simp] theorem refuseJob_ledger (s : State) (id reason : Nat) : (s.refuseJob id reason).ledger = s.ledger := by
  simp [State.refuseJob]

@[simp] theorem addJob_ledger (s : State) (j : Job) : (s.addJob j).2.ledger = s.ledger := by
  unfold State.addJob
  dsimp only
  split
  · simp
  · split <;> simp

@[simp] theorem letIn_ledger (s : State) (j : Job) : (s.letIn j).ledger = s.ledger := by
  unfold State.letIn
  dsimp only
  split <;> simp

@[simp] theorem updFrame_ledger (s : State) (c : Nat) (seq : BitVec 32) (f : Frame → Frame) :
    (s.updFrame c seq f).ledger = s.ledger := by
  simp [State.updFrame]

@[simp] theorem addFrameJob_ledger (s : State) (c : Nat) (seq : BitVec 32) (j : Job) :
    (s.addFrameJob c seq j).2.ledger = s.ledger := by
  simp [State.addFrameJob]

@[simp] theorem addUnitJob_ledger (s : State) (j : Job) : (s.addUnitJob j).2.ledger = s.ledger := by
  unfold State.addUnitJob
  dsimp only
  split <;> simp

/-! ### Generations and capture memory -/

@[simp] theorem loadLuts_ledger (s : State) (bs : List Block) : (s.loadLuts bs).ledger = s.ledger := by
  unfold State.loadLuts
  refine each_ledger (fun _ t => ?_) _ _
  dsimp only
  split
  · rfl
  · split <;> simp

@[simp] theorem armGen_ledger (s : State) (g : Gen) (kind : ArmKind) (timeoutMs : Nat) :
    (s.armGen g kind timeoutMs).ledger = s.ledger := by
  simp [State.armGen]

@[simp] theorem probationFail_ledger (s : State) (row ctx : Nat) : (s.probationFail row ctx).ledger = s.ledger := by
  unfold State.probationFail
  dsimp only
  split
  · simp
  · split
    · simp
    · split <;> simp

@[simp] theorem unmappedAt_ledger (s : State) (master addr : Nat) : (s.unmappedAt master addr).ledger = s.ledger := by
  unfold State.unmappedAt State.raiseLimited
  dsimp only
  split <;> simp

@[simp] theorem access_ledger (s : State) (event master addr n : Nat) (c : Cell) :
    (s.access event master addr n c).ledger = s.ledger := by
  simp [State.access]

@[simp] theorem reach_ledger (s : State) (event master addr n : Nat) : (s.reach event master addr n).ledger = s.ledger := by
  unfold State.reach
  refine each_ledger (fun _ t => ?_) _ _
  dsimp only
  split
  · split <;> simp
  · simp

@[simp] theorem reachPage_ledger (s : State) (page : Nat) : (s.reachPage page).ledger = s.ledger :=
  each_ledger (fun _ _ => by simp) _ _

@[simp] theorem capWrite_ledger (s : State) (master addr : Nat) (d : List Byte) : (s.capWrite master addr d).ledger = s.ledger := by
  simp [State.capWrite]

@[simp] theorem mapPage_ledger (s : State) (logical kind stack : Nat) : (s.mapPage logical kind stack).ledger = s.ledger := by
  unfold State.mapPage
  dsimp only
  split <;> simp

@[simp] theorem mapPages_ledger (s : State) (first kind : Nat) (js : List Nat) : (s.mapPages first kind js).ledger = s.ledger := by
  unfold State.mapPages
  refine each_ledger (fun _ t => ?_) _ _
  split
  · simp
  · rfl

@[simp] theorem unmapFrom_ledger (s : State) (r : Region) (j : Nat) : (s.unmapFrom r j).ledger = s.ledger := by
  simp [State.unmapFrom]

@[simp] theorem alloc_ledger (s : State) (use owner kind bytes : Nat) : (s.alloc use owner kind bytes).ledger = s.ledger := by
  unfold State.alloc
  generalize ceilDiv bytes pageBytes = pages
  revert pages
  -- `id` keeps the page count a variable for the kernel, which else evaluates the division on unary numbers
  refine id fun pages => ?_
  dsimp only
  split
  · simp
  · split <;> simp

@[simp] theorem release_ledger (s : State) (use owner : Nat) : (s.release use owner).ledger = s.ledger := by
  unfold State.release
  split <;> simp

@[simp] theorem retirePage_ledger (s : State) (p logical : Nat) : (s.retirePage p logical).ledger = s.ledger := by
  simp [State.retirePage]

@[simp] theorem startMigration_ledger (s : State) (p : Nat) (retireOld : Bool) :
    (s.startMigration p retireOld).ledger = s.ledger := by
  unfold State.startMigration
  dsimp only
  split <;> simp

@[simp] theorem endMigration_ledger (s : State) (m : Migration) : (s.endMigration m).ledger = s.ledger := by
  unfold State.endMigration
  dsimp only
  split <;> simp

@[simp] theorem retireWaiting_ledger (s : State) : s.retireWaiting.ledger = s.ledger := by simp [State.retireWaiting]

@[simp] theorem againMigration_ledger (s : State) (m : Migration) : (s.againMigration m).ledger = s.ledger := by
  simp [State.againMigration]

/-! ### Segments and seal records -/

@[simp] theorem openSegment_ledger (s : State) (n first : Nat) (discs : List (List Byte)) :
    (s.openSegment n first discs).ledger = s.ledger := by
  simp [State.openSegment]

@[simp] theorem addSealRec_ledger (s : State) (n kind : Nat) (bytes : List Byte) (signed : Bool) :
    (s.addSealRec n kind bytes signed).ledger = s.ledger := by
  simp [State.addSealRec]

@[simp] theorem closeSegment_ledger (s : State) (n cause : Nat) : (s.closeSegment n cause).ledger = s.ledger := by
  unfold State.closeSegment
  dsimp only
  split <;> simp [State.raiseLimited]

@[simp] theorem closeSegments_ledger (s : State) (cause : Nat) : (s.closeSegments cause).ledger = s.ledger := by
  simp [State.closeSegments]

/-! ### Generations as they apply -/

@[simp] theorem startPersist_ledger (s : State) : s.startPersist.ledger = s.ledger := by simp [State.startPersist]

@[simp] theorem probationPass_ledger (s : State) : s.probationPass.ledger = s.ledger := by simp [State.probationPass]

@[simp] theorem noteCaptured_ledger (s : State) : s.noteCaptured.ledger = s.ledger := by
  unfold State.noteCaptured
  split <;> simp

@[simp] theorem probationCheck_ledger (s : State) : s.probationCheck.ledger = s.ledger := by
  unfold State.probationCheck
  dsimp only
  split <;> simp

@[simp] theorem policyLive_ledger (s : State) (before now : Option Gen) : (s.policyLive before now).ledger = s.ledger := by
  unfold State.policyLive
  dsimp only
  split <;> simp

@[simp] theorem goLive_ledger (s : State) : s.goLive.ledger = s.ledger := by
  unfold State.goLive
  dsimp only
  split
  · simp
  · split
    · simp
    · split <;> simp

@[simp] theorem allocNew_ledger (s : State) (use c kind bytes : Nat) : (s.allocNew use c kind bytes).ledger = s.ledger := by
  simp [State.allocNew]

@[simp] theorem layRing_ledger (s : State) (c : Nat) : (s.layRing c).ledger = s.ledger := by
  unfold State.layRing
  split <;> simp

@[simp] theorem storeMap_ledger (s : State) (base : Nat) (p : List Byte) : (s.storeMap base p).ledger = s.ledger := by
  simp [State.storeMap]

@[simp] theorem setRing_ledger (s : State) (c : Nat) (k : RingKind) (r : FrameRing) : (s.setRing c k r).ledger = s.ledger := by
  unfold State.setRing
  split <;> simp

@[simp] theorem putRing_ledger (s : State) (c : Nat) (k : RingKind) (q : BitVec 32) (d : List Byte) :
    (s.putRing c k q d).ledger = s.ledger := by
  simp [State.putRing]

@[simp] theorem sizeRange_ledger (s : State) (use owner kind bytes : Nat) :
    (s.sizeRange use owner kind bytes).ledger = s.ledger := by
  simp [State.sizeRange]

@[simp] theorem layRings_ledger (s : State) (c : Nat) : (s.layRings c).ledger = s.ledger := by simp [State.layRings]

@[simp] theorem layDeveloper_ledger (s : State) (c : Nat) (types : List Nat) : (s.layDeveloper c types).ledger = s.ledger := by
  unfold State.layDeveloper
  extract_lets b hit give rings worked given base mapped
  have hgive (use bytes : Nat) (t : State) : (give use bytes t).ledger = t.ledger := by simp [give]
  have hworked : worked.ledger = s.ledger := by simp [worked, rings, hgive]
  have hmapped : mapped.ledger = s.ledger := by
    unfold mapped
    split
    · refine (each_ledger (fun i t => ?_) _ _).trans ((hgive _ _ _).trans hworked)
      split <;> simp
    · exact hworked
  simp [hgive, hmapped]

@[simp] theorem freeOld_ledger (s : State) : s.freeOld.ledger = s.ledger := by simp [State.freeOld]

@[simp] theorem setAside_ledger (s : State) (e : Nat) (upto : BitVec 32) : (s.setAside e upto).ledger = s.ledger := by
  simp [State.setAside]

@[simp] theorem freeEncs_ledger (s : State) : s.freeEncs.ledger = s.ledger := by
  unfold State.freeEncs
  refine each_ledger (fun k t => ?_) _ _
  dsimp only
  split
  · rfl
  · split <;> simp

@[simp] theorem layEncodings_ledger (s : State) (c : Nat) (before : List (Nat × Nat × List Byte)) :
    (s.layEncodings c before).ledger = s.ledger := by
  unfold State.layEncodings
  dsimp only
  refine (each_ledger (fun (e, codec, ent) t => ?laid) _ _).trans (each_ledger (fun (e, codec, ent) t => ?removed) _ _)
  case removed =>
    dsimp only
    split
    · rfl
    · split <;> simp
  case laid =>
    dsimp only
    split <;> split <;> (try split) <;> simp

@[simp] theorem applyKeys_ledger (s : State) (c : Nat) (keys : List (Nat × Nat)) : (s.applyKeys c keys).2.ledger = s.ledger := by
  unfold State.applyKeys
  split <;> simp

/-! ### Frames, bands and Mash -/

@[simp] theorem countFinal_ledger (s : State) (c : Nat) (seq : BitVec 32) : (s.countFinal c seq).ledger = s.ledger := by
  unfold State.countFinal
  dsimp only
  split <;> simp

@[simp] theorem updDev_ledger (s : State) (c : Nat) (q : BitVec 32) (f : FrameDev → FrameDev) :
    (s.updDev c q f).ledger = s.ledger := by
  simp [State.updDev]

@[simp] theorem claimWork_ledger (s : State) (c : Nat) (q : BitVec 32) : (s.claimWork c q).ledger = s.ledger := by
  unfold State.claimWork
  split <;> simp

@[simp] theorem beginDev_ledger (s : State) (f : Frame) : (s.beginDev f).ledger = s.ledger := by simp [State.beginDev]

@[simp] theorem cutBand_ledger (s : State) (d : FrameDev) (b cls : Nat) (deadline : Option Nanos) :
    (s.cutBand d b cls deadline).ledger = s.ledger := by
  simp [State.cutBand]

@[simp] theorem bandEnded_ledger (s : State) (j : Job) (ok : Bool) : (s.bandEnded j ok).ledger = s.ledger := by
  simp [State.bandEnded]

@[simp] theorem bandRetired_ledger (s : State) (j : Job) : (s.bandRetired j).ledger = s.ledger := by
  unfold State.bandRetired
  dsimp only
  split <;> simp

@[simp] theorem flickEnded_ledger (s : State) (j : Job) (outcome : BitVec 32) (refused : Bool) :
    (s.flickEnded j outcome refused).ledger = s.ledger := by
  simp [State.flickEnded]

@[simp] theorem updOut_ledger (s : State) (c : Nat) (q : BitVec 32) (o : Nat) (f : OutFrame → OutFrame) :
    (s.updOut c q o f).ledger = s.ledger := by
  simp [State.updOut]

@[simp] theorem claimOut_ledger (s : State) (c : Nat) (q : BitVec 32) : (s.claimOut c q).ledger = s.ledger := by
  unfold State.claimOut
  split
  · simp
  · split
    · simp
    · refine each_ledger (fun e t => ?_) _ _
      dsimp only
      split <;> simp

@[simp] theorem cutMash_ledger (s : State) (d : FrameDev) (b cls : Nat) (deadline : Option Nanos) (streams : List (Nat × Nat)) :
    (s.cutMash d b cls deadline streams).ledger = s.ledger := by
  simp [State.cutMash]

@[simp] theorem mashEnd_ledger (s : State) (j : Job) (ok : Bool) : (s.mashEnd j ok).ledger = s.ledger := by
  unfold State.mashEnd
  dsimp only
  split <;> simp

@[simp] theorem mashRetired_ledger (s : State) (j : Job) : (s.mashRetired j).ledger = s.ledger := by
  unfold State.mashRetired
  dsimp only
  split <;> simp

@[simp] theorem drainLuts_ledger (s : State) : s.drainLuts.ledger = s.ledger := by simp [State.drainLuts]

/-! ### Units and encoders -/

@[simp] theorem addUnit_ledger (s : State) (n : Nat) (u : StreamUnit) : (s.addUnit n u).ledger = s.ledger := by
  simp [State.addUnit]

@[simp] theorem mapUnits_ledger (s : State) (job : Nat) (f : StreamUnit → StreamUnit) : (s.mapUnits job f).ledger = s.ledger := by
  simp [State.mapUnits]

@[simp] theorem endUnits_ledger (s : State) (j : Job) (gap : Bool) (bytes : List Byte) (status : Nat) :
    (s.endUnits j gap bytes status).ledger = s.ledger := by
  simp [State.endUnits]

@[simp] theorem beginPicture_ledger (s : State) (e number : Nat) : (s.beginPicture e number).ledger = s.ledger := by
  unfold State.beginPicture
  dsimp only
  split <;> simp

@[simp] theorem updPic_ledger (s : State) (e number : Nat) (f : Picture → Picture) : (s.updPic e number f).ledger = s.ledger := by
  simp [State.updPic]

@[simp] theorem updRow_ledger (s : State) (e number k : Nat) (f : EncRow → EncRow) : (s.updRow e number k f).ledger = s.ledger := by
  simp [State.updRow]

@[simp] theorem issueRow_ledger (s : State) (j : Job) : (s.issueRow j).ledger = s.ledger := by
  unfold State.issueRow
  dsimp only
  split <;> split <;> simp

@[simp] theorem loseRow_ledger (s : State) (e number k status : Nat) : (s.loseRow e number k status).ledger = s.ledger := by
  unfold State.loseRow
  dsimp only
  split <;> simp

@[simp] theorem rowEnded_ledger (s : State) (j : Job) (status : Nat) : (s.rowEnded j status).ledger = s.ledger := by
  simp [State.rowEnded]

@[simp] theorem endPicture_ledger (s : State) (e : Nat) (p : Picture) : (s.endPicture e p).ledger = s.ledger := by
  simp [State.endPicture, State.raiseLimited]

@[simp] theorem rowRetired_ledger (s : State) (j : Job) : (s.rowRetired j).ledger = s.ledger := by
  unfold State.rowRetired
  dsimp only
  split <;> simp

@[simp] theorem newPicture_ledger (s : State) (e : Nat) (f : Frame) (ent : List Byte) (type refresh poc : Nat) (isRef : Bool) :
    (s.newPicture e f ent type refresh poc isRef).ledger = s.ledger := by
  simp [State.newPicture]

@[simp] theorem cutRow_ledger (s : State) (e : Nat) (p : Picture) (f : Frame) (k : Nat) : (s.cutRow e p f k).ledger = s.ledger := by
  simp [State.cutRow]

@[simp] theorem cutRows_ledger (s : State) (e number : Nat) (f : Frame) (landed : Nat → Bool) :
    (s.cutRows e number f landed).ledger = s.ledger := by
  unfold State.cutRows
  split
  · simp
  · refine each_ledger (fun k t => ?_) _ _
    split <;> simp

@[simp] theorem cutGop_ledger (s : State) (e c : Nat) (last : Bool) (fuel : Nat) : (s.cutGop e c last fuel).ledger = s.ledger := by
  induction fuel generalizing s with
  | zero => simp [State.cutGop]
  | succ fuel ih =>
    unfold State.cutGop
    extract_lets x entry blocks alike
    split
    next => rfl
    next =>
      split
      next => simp [ih]
      next =>
        extract_lets f ent n m cause opened started g g' frames more cut planned
        have hcut : cut.ledger = s.ledger := each_ledger (fun y t => by split <;> simp) _ _
        split
        · simp [ih, started, opened]
        · split
          · rfl
          · simp [ih, planned, hcut]

/-! ### Recording and drives -/

@[simp] theorem addRec_ledger (s : State) (n kind : Nat) (u : Option StreamUnit) (opened : List Byte) :
    (s.addRec n kind u opened).ledger = s.ledger := by
  simp [State.addRec]

@[simp] theorem recordUnit_ledger (s : State) (n : Nat) (u : StreamUnit) : (s.recordUnit n u).ledger = s.ledger := by
  simp [State.recordUnit]

@[simp] theorem stall_ledger (s : State) (n cause : Nat) : (s.stall n cause).ledger = s.ledger := by simp [State.stall]

@[simp] theorem keepStripe_ledger (s : State) (n : Nat) (z : Stripe) : (s.keepStripe n z).ledger = s.ledger := by
  have hfold : (z.pieces.foldl (fun (a : List Piece × State) p =>
      let (id, s) := a.2.addUnitJob (a.2.writeJob n z p)
      (a.1 ++ [{ p with job := id }], s)) (([] : List Piece), s)).2.ledger = s.ledger :=
    List.foldlRecOn (motive := fun a : List Piece × State => a.2.ledger = s.ledger) _ _ rfl fun a ha p _ => by simp [ha]
  simpa [State.keepStripe] using hfold

@[simp] theorem grantLow_ledger (s : State) (n : Nat) (placed : Bool) : (s.grantLow n placed).ledger = s.ledger := by
  simp [State.grantLow]

@[simp] theorem placeStripe_ledger (s : State) (n index : Nat) (d : List Byte) (relocated final : Bool) :
    (s.placeStripe n index d relocated final).ledger = s.ledger := by
  unfold State.placeStripe
  dsimp only
  split <;> simp

@[simp] theorem formStripes_ledger (s : State) (n fuel : Nat) : (s.formStripes n fuel).ledger = s.ledger := by
  induction fuel generalizing s with
  | zero => simp [State.formStripes]
  | succ fuel ih => simp [State.formStripes, ih]

@[simp] theorem placeSeals_ledger (s : State) (n fuel : Nat) : (s.placeSeals n fuel).ledger = s.ledger := by
  induction fuel generalizing s with
  | zero => simp [State.placeSeals]
  | succ fuel ih =>
    unfold State.placeSeals
    dsimp only
    split
    · simp
    · split
      · simp
      · split <;> simp [ih]

@[simp] theorem report_ledger (s : State) (n : Nat) (zs : List Stripe) : (s.report n zs).ledger = s.ledger := by
  unfold State.report
  extract_lets t runs logged
  have hlogged : logged.ledger = s.ledger := each_ledger (fun _ _ => by simp) _ _
  simp [hlogged, State.raiseLimited]

@[simp] theorem reportDurable_ledger (s : State) (n : Nat) : (s.reportDurable n).ledger = s.ledger := by
  simp [State.reportDurable]

@[simp] theorem nvmePost_ledger (s : State) (p op n : Nat) (isS : Bool) (job tries nsid : Nat) :
    (s.nvmePost p op n isS job tries nsid).ledger = s.ledger := by
  simp [State.nvmePost]

@[simp] theorem nvmeCmd_ledger (s : State) (p op n : Nat) (isS : Bool) (job tries nsid lba lbas : Nat) (data : List Byte) :
    (s.nvmeCmd p op n isS job tries nsid lba lbas data).ledger = s.ledger := by
  simp [State.nvmeCmd]

@[simp] theorem mapPieces_ledger (s : State) (n : Nat) (f : Stripe → Piece → Piece) : (s.mapPieces n f).ledger = s.ledger := by
  simp [State.mapPieces]

@[simp] theorem flush_ledger (s : State) (n p : Nat) : (s.flush n p).ledger = s.ledger := by simp [State.flush]

@[simp] theorem flushAll_ledger (s : State) (n : Nat) : (s.flushAll n).ledger = s.ledger := by simp [State.flushAll]

@[simp] theorem placeAgain_ledger (s : State) (n : Nat) : (s.placeAgain n).ledger = s.ledger := by simp [State.placeAgain]

@[simp] theorem dropRecs_ledger (s : State) (n : Nat) : (s.dropRecs n).ledger = s.ledger := by
  unfold State.dropRecs
  extract_lets t size safe done freed
  have hfreed : freed.ledger = s.ledger := by
    unfold freed
    split
    · refine each_ledger (fun r u => ?_) _ _
      split
      · split <;> simp
      · rfl
    · rfl
  simp [hfreed]

@[simp] theorem closeTake_ledger (s : State) (n : Nat) : (s.closeTake n).ledger = s.ledger := by simp [State.closeTake]

@[simp] theorem endTake_ledger (s : State) (n : Nat) : (s.endTake n).ledger = s.ledger := by simp [State.endTake]

@[simp] theorem stopIdle_ledger (s : State) (n : Nat) : (s.stopIdle n).ledger = s.ledger := by simp [State.stopIdle]

@[simp] theorem pumpRevoke_ledger (s : State) (n : Nat) : (s.pumpRevoke n).ledger = s.ledger := by simp [State.pumpRevoke]

@[simp] theorem pumpRecord_ledger (s : State) (n : Nat) : (s.pumpRecord n).ledger = s.ledger := by simp [State.pumpRecord]

/-! ### Barrel and the review decoder -/

@[simp] theorem brlRetired_ledger (s : State) (j : Job) : (s.brlRetired j).ledger = s.ledger := by
  unfold State.brlRetired
  dsimp only
  split <;> simp

@[simp] theorem claimSlot_ledger (s : State) (j : Job) : (s.claimSlot j).ledger = s.ledger := by
  unfold State.claimSlot
  dsimp only
  split
  · simp
  · split <;> simp

@[simp] theorem patchRec_ledger (s : State) (n pic : Nat) (f : List Byte → List Byte) : (s.patchRec n pic f).ledger = s.ledger := by
  simp [State.patchRec]

@[simp] theorem outputPic_ledger (s : State) (n : Nat) (p : Stored) : (s.outputPic n p).ledger = s.ledger := by
  simp [State.outputPic]

@[simp] theorem bump_ledger (s : State) (n : Nat) (more : List Stored → Bool) (fuel : Nat) :
    (s.bump n more fuel).ledger = s.ledger := by
  induction fuel generalizing s with
  | zero => simp [State.bump]
  | succ fuel ih =>
    unfold State.bump
    dsimp only
    split
    · simp
    · split <;> simp [ih]

@[simp] theorem addDecRec_ledger (s : State) (n pic : Nat) (r : List Byte) : (s.addDecRec n pic r).ledger = s.ledger := by
  simp [State.addDecRec]

@[simp] theorem decRefused_ledger (s : State) (n pic r : Nat) : (s.decRefused n pic r).ledger = s.ledger := by
  simp [State.decRefused, State.raiseLimited]

@[simp] theorem finishSubmit_ledger (s : State) (e : ExecCmd) : (s.finishSubmit e).ledger = s.ledger := by
  simp [State.finishSubmit]

@[simp] theorem decRetired_ledger (s : State) (j : Job) : (s.decRetired j).ledger = s.ledger := by
  unfold State.decRetired
  dsimp only
  repeat' split
  all_goals simp

@[simp] theorem pumpFlush_ledger (s : State) (n : Nat) : (s.pumpFlush n).ledger = s.ledger := by
  unfold State.pumpFlush
  split
  · simp
  · split <;> simp

@[simp] theorem giveBack_ledger (s : State) (n k : Nat) : (s.giveBack n k).ledger = s.ledger := by simp [State.giveBack]

@[simp] theorem freeDecSlots_ledger (s : State) : s.freeDecSlots.ledger = s.ledger := by simp [State.freeDecSlots]

/-! ### The work of the firmware after an event -/

@[simp] theorem cutSteep_ledger (s : State) (f : Frame) : (s.cutSteep f).ledger = s.ledger := by
  unfold State.cutSteep
  dsimp only
  split <;> simp

@[simp] theorem makeMash_ledger (s : State) (d : FrameDev) (k : Nat) : (s.makeMash d k).ledger = s.ledger := by
  unfold State.makeMash
  extract_lets cls dl id todo
  have hunits (nums : List (Nat × Nat)) : (todo.foldl (fun (a : List (Nat × Nat) × State) x =>
      let (e, t, n) := x
      (a.1 ++ [(n, (a.2.stream n).nextUnit)], a.2.addUnit n (unitOf d.frame id 0 t (outTilesY e) dl))) (nums, s)).2.ledger = s.ledger :=
    List.foldlRecOn (motive := fun a : List (Nat × Nat) × State => a.2.ledger = s.ledger) _ _ rfl fun a ha x _ => by simp [ha]
  simp [hunits]

@[simp] theorem cutMashes_ledger (s : State) (f : Frame) : (s.cutMashes f).ledger = s.ledger := by
  unfold State.cutMashes
  split <;> simp

@[simp] theorem cutEnc_ledger (s : State) (f : Frame) (x : Nat × Nat × List Byte) : (s.cutEnc f x).ledger = s.ledger := by
  simp [State.cutEnc]

@[simp] theorem addRaw_ledger (s : State) (f : Frame) (n : Nat) : (s.addRaw f n).ledger = s.ledger := by simp [State.addRaw]

@[simp] theorem cutRaw_ledger (s : State) (f : Frame) : (s.cutRaw f).ledger = s.ledger := by simp [State.cutRaw]

@[simp] theorem cutFrame_ledger (s : State) (c : Nat) (q : BitVec 32) : (s.cutFrame c q).ledger = s.ledger := by
  unfold State.cutFrame
  split <;> simp

@[simp] theorem cutEncoding_ledger (s : State) (e : Nat) : (s.cutEncoding e).ledger = s.ledger := by
  unfold State.cutEncoding
  split
  next => rfl
  next c _ =>
    refine (each_ledger (fun p t => ?_) _ _).trans (by simp)
    split <;> simp

@[simp] theorem drainBurst_ledger (s : State) (c : Nat) : (s.drainBurst c).ledger = s.ledger := by simp [State.drainBurst]

@[simp] theorem cutAll_ledger (s : State) : s.cutAll.ledger = s.ledger := by simp [State.cutAll]

@[simp] theorem admitJob_ledger (j : Job) (s : State) : (State.admitJob j s).ledger = s.ledger := by
  unfold State.admitJob
  split <;> simp

@[simp] theorem addOut_ledger (s : State) (n row key : Nat) (q : BitVec 32) (coded : Nat) (deadline : Option Nanos) :
    (s.addOut n row key q coded deadline).ledger = s.ledger := by
  simp [State.addOut]

@[simp] theorem gapRow_ledger (s : State) (n row : Nat) : (s.gapRow n row).ledger = s.ledger := by
  simp [State.gapRow, State.raiseLimited]

@[simp] theorem unsent_ledger (s : State) (j : Job) : (s.unsent j).ledger = s.ledger := by simp [State.unsent]

@[simp] theorem onEnd_ledger (s : State) (j : Job) (status : Nat) (bytes : List Byte) :
    (s.onEnd j status bytes).ledger = s.ledger := by
  unfold State.onEnd
  repeat' split
  all_goals simp

@[simp] theorem recreate_ledger (s : State) : s.recreate.ledger = s.ledger := by
  unfold State.recreate
  extract_lets gone rows owed signed
  have hrows : rows.ledger = s.ledger := each_ledger (fun n t => by
    dsimp only
    exact (each_ledger (fun z u => each_ledger (fun p v => by simp) _ _) _ _).trans (each_ledger (fun r u => by simp) _ _)) _ _
  have hsigned : signed.ledger = rows.ledger := each_ledger (fun _ _ => by simp) _ _
  exact (each_ledger (fun _ _ => by simp) _ _).trans (hsigned.trans hrows)

@[simp] theorem sendRow_ledger (s : State) (n : Nat) (u : StreamUnit) : (s.sendRow n u).ledger = s.ledger := by
  simp [State.sendRow]

@[simp] theorem readyUnit_ledger (s : State) (n : Nat) (u : StreamUnit) : (s.readyUnit n u).ledger = s.ledger := by
  simp [State.readyUnit]

@[simp] theorem releaseUnit_ledger (s : State) (n : Nat) (u : StreamUnit) : (s.releaseUnit n u).ledger = s.ledger := by
  simp [State.releaseUnit]

@[simp] theorem pumpUnits_ledger (s : State) (n fuel : Nat) : (s.pumpUnits n fuel).ledger = s.ledger := by
  induction fuel generalizing s with
  | zero => simp [State.pumpUnits]
  | succ fuel ih =>
    unfold State.pumpUnits
    split
    · simp
    · split <;> simp [ih]

@[simp] theorem freeDev_ledger (s : State) : s.freeDev.ledger = s.ledger := by simp [State.freeDev]

@[simp] theorem pumpRelease_ledger (s : State) (c : Nat) : (s.pumpRelease c).ledger = s.ledger := by simp [State.pumpRelease]

@[simp] theorem shrinkRing_ledger (s : State) (c : Nat) : (s.shrinkRing c).ledger = s.ledger := by
  unfold State.shrinkRing
  dsimp only
  split <;> simp

@[simp] theorem countFinals_ledger (s : State) (c : Nat) : (s.countFinals c).ledger = s.ledger := by simp [State.countFinals]

@[simp] theorem applyIdle_ledger (s : State) (c : Nat) : (s.applyIdle c).ledger = s.ledger := by simp [State.applyIdle]

/-! ### What a tick applies and refuses -/

@[simp] theorem applyObs_ledger (s : State) (p : Option (List Byte)) : (s.applyObs p).ledger = s.ledger := by
  simp [State.applyObs]

@[simp] theorem applyAtTick_ledger (s : State) (g : Gen) (type : Nat) : (s.applyAtTick g type).ledger = s.ledger := by
  simp [State.applyAtTick]

@[simp] theorem applyPolicy_ledger (s : State) : s.applyPolicy.ledger = s.ledger := by
  unfold State.applyPolicy
  split <;> simp

@[simp] theorem refuseDue_ledger (s : State) : s.refuseDue.ledger = s.ledger := by
  unfold State.refuseDue
  refine each_ledger (fun j t => ?_) _ _
  split <;> simp

/-! ## What only a tick writes of the ledger -/

/-- The window, the reef level and the factors in force are as before. -/
@[simp] abbrev SameWindow (s t : State) : Prop :=
  t.ledger.started = s.ledger.started ∧ t.ledger.window = s.ledger.window ∧ t.ledger.reefAtTick = s.ledger.reefAtTick ∧
    t.ledger.factors = s.ledger.factors

theorem SameWindow.trans {s t u : State} (h : SameWindow s t) (h' : SameWindow t u) : SameWindow s u := by
  simp_all

/-- The trace is as before besides. -/
@[simp] abbrev KeepsWindow (s t : State) : Prop := SameWindow s t ∧ t.ledger.trace = s.ledger.trace

@[simp] theorem deliver_keepsWindow (s : State) (j : Job) (w : BitVec 32) : KeepsWindow s (s.deliver j w) := by
  unfold State.deliver
  split <;> simp

@[simp] theorem retireJob_keepsWindow (s : State) (j : Job) : KeepsWindow s (s.retireJob j) := by
  unfold State.retireJob
  dsimp only
  repeat' split
  all_goals simp

@[simp] theorem retireRefused_keepsWindow (s : State) : KeepsWindow s s.retireRefused :=
  each_keeps (P := KeepsWindow s) _ (by simp) fun j _ t ht => by simp [ht]

@[simp] theorem settleOnce_keepsWindow (s : State) : KeepsWindow s s.settleOnce := by
  simp [State.settleOnce]

@[simp] theorem settleN_keepsWindow (s : State) (fuel : Nat) : KeepsWindow s (s.settleN fuel) := by
  induction fuel generalizing s with
  | zero => simp [State.settleN]
  | succ fuel ih =>
    unfold State.settleN
    dsimp only
    split
    · simp [ih]
    · simp

@[simp] theorem settle_keepsWindow (s : State) : KeepsWindow s s.settle := by
  unfold State.settle
  exact settleN_keepsWindow s 8

@[simp] theorem chargeReceived_keepsWindow (s : State) : KeepsWindow s s.chargeReceived := by
  simp [State.chargeReceived]

@[simp] theorem refusalEvent_keepsWindow (s : State) : KeepsWindow s s.refusalEvent := by
  unfold State.refusalEvent
  split <;> simp

end Sys2Proof.Machine

/-! SUPPORT. The energy ledger (chapter 06): the window and its tick, one job of the pass, rail telemetry, leakage and the ledger's
commands. -/

namespace Sys2Proof.Machine

open Sys2Proof

/-! ## The window, part by part (R191 to R194, R204) -/

/-- The credit of a window of 50 µs, in µJ (R190). -/
def State.windowCredit (s : State) : Rat := s.ledger.pEff * 50 / 1000

/-- What of a positive carry stays in the window (R204). -/
def State.windowKept (s : State) : Rat := min s.ledger.carry (min s.windowCredit (12000 - s.windowCredit))

def State.windowCarry (s : State) : Rat := if 0 < s.ledger.carry then s.windowKept else s.ledger.carry

def State.windowBank (s : State) : Rat :=
  if 0 < s.ledger.carry then min (s.bankCap : Rat) (s.ledger.bank + s.ledger.carry - s.windowKept) else s.ledger.bank

def State.windowBaseline (s : State) : Rat := (s.baselineGroups s.flexLanes).sum + s.leakWindow

/-- What landing and reception have cost, the charge of C0 (R191). -/
def State.windowLanded (s : State) : Rat := s.energy 0x01 (s.ledger.landedBytes : Nat) + s.energy 0x00 s.bitsReceived

/-- What the pass over the jobs starts from. -/
def State.firstPass (s : State) : Pass :=
  let avail := s.windowCredit - s.windowBaseline - s.windowLanded + s.windowCarry
  { avail := avail
    drawLeft := max 0 (min (if s.bankOpen then ((240000 - s.pSust : Nat) : Rat) * 50 / 1000 else 0)
      (12000 - s.windowCredit - max s.windowCarry 0))
    bank := s.windowBank, admitted := 0, stopped := false, halt := decide (avail < 0)
    charges := s.windowLanded :: List.replicate 6 0
    groups := upd (upd (s.baselineGroups s.flexLanes) 1 (· + s.energy 0x01 (s.ledger.landedBytes : Nat))) 2
      (· + s.energy 0x00 s.bitsReceived) }

/-- The numbers of the jobs that a window considers, in ledger order. -/
def State.windowIds (s : State) : List Nat := (sortBy ledgerBefore s.considered).map (·.id)

/-- The pass over the considered jobs. -/
def State.passed (s : State) (eligible : State → Job → Bool) (letIn : Job → State → State) : Pass × State :=
  s.windowIds.foldl (fun acc id => passOne eligible letIn id acc) (s.firstPass, s)

/-- Each listed job that is still pending has waited a tick (R207). -/
def State.waited (s : State) (ids : List Nat) : State :=
  s.mapJobs fun j => if ids.contains j.id && j.st == .pending then { j with waits := j.waits + 1 } else j

/-- What a pass leaves over is carried on after a stop, and as debt (R194, R204). -/
def Pass.keeps (p : Pass) : Bool := p.stopped || decide (p.avail < 0)

def Pass.bankAfter (p : Pass) (cap : Rat) : Rat := if p.keeps then p.bank else min cap (p.bank + p.avail)

def Pass.carryAfter (p : Pass) : Rat := if p.keeps then p.avail else 0

/-- The entry of the trace for the window that a pass ends, with the bank closed or not (R216). -/
def State.windowEntry (s : State) (p : Pass) (closed : Bool) : TraceEntry :=
  { window := s.ledger.window, credit := floorNat s.windowCredit, baseline := floorNat s.windowBaseline,
    charges := p.charges.map floorNat, reef := s.ledger.reefAtTick, debt := decide (p.carryAfter < 0), closed := closed,
    stopped := p.stopped, bank := floorNat (p.bankAfter s.bankCap), carry := p.carryAfter.floor, admitted := p.admitted }

theorem windowEntry_names (s : State) (p : Pass) (closed : Bool) :
    (s.windowEntry p closed).window = s.ledger.window ∧ (s.windowEntry p closed).reef = s.ledger.reefAtTick := ⟨rfl, rfl⟩

/-- What a pass that started from a state makes of the ledger. -/
def State.windowCloses (s : State) (p : Pass) (closed : Bool) (x : Ledger) : Ledger :=
  { x with bank := p.bankAfter s.bankCap, carry := p.carryAfter, debt := decide (p.carryAfter < 0), stopped := p.stopped,
           credit := s.windowCredit, baseline := s.windowBaseline, charges := p.charges, landedBytes := 0,
           trace := (s.windowEntry p closed :: x.trace).take 256, chargedGroup := List.zipWith (· + ·) x.chargedGroup p.groups }

/-- A window is its pass, the waiting of those left, and the ledger closed; debt raises its event, at a limited rate (R194). -/
theorem runWindow_eq {eligible : State → Job → Bool} {letIn : Job → State → State} {s u : State} {p : Pass}
    (h : s.passed eligible letIn = (p, u)) : s.runWindow eligible letIn =
    let v := (u.waited s.windowIds).updLedger (s.windowCloses p !(u.waited s.windowIds).bankOpen)
    if decide (p.carryAfter < 0) then
      v.raiseLimited v.ledger.lastOverrunEvent (ms 100) 0x0801 srcDevice (le 8 s.ledger.window ++ leInt 4 p.carryAfter.floor)
        fun t s => s.updLedger fun x => { x with lastOverrunEvent := t }
    else v := by
  unfold State.runWindow
  extract_lets l credit cap kept bank carry lanes baseG baseline c0mem c0bits avail draw draw' groups p0 ids
  have hpass : ids.foldl (fun acc id => passOne eligible letIn id acc) (p0, s) = (p, u) := h
  rw [hpass]
  rfl

/-- An event of limited rate leaves in the ledger its own mark only. -/
theorem raiseLimited_marks (s : State) (last : Option Nanos) (span : Nanos) (code src : Nat) (body : List Byte) :
    let t := s.raiseLimited last span code src body fun t s => s.updLedger fun x => { x with lastOverrunEvent := t }
    (∃ m, t.ledger = { s.ledger with lastOverrunEvent := m }) ∧ t.jobs = s.jobs := by
  unfold State.raiseLimited
  split
  · exact ⟨⟨some s.now, by simp⟩, by simp⟩
  · exact ⟨⟨s.ledger.lastOverrunEvent, rfl⟩, rfl⟩

/-- The ledger and the jobs after a window, from those after its pass. -/
theorem runWindow_closes {eligible : State → Job → Bool} {letIn : Job → State → State} {s u : State} {p : Pass}
    (h : s.passed eligible letIn = (p, u)) :
    let t := s.runWindow eligible letIn
    (∃ closed m, t.ledger = { s.windowCloses p closed u.ledger with lastOverrunEvent := m }) ∧
      t.jobs = (u.waited s.windowIds).jobs := by
  rw [runWindow_eq h]
  dsimp only
  split
  · obtain ⟨⟨m, hledger⟩, hjobs⟩ := raiseLimited_marks ((u.waited s.windowIds).updLedger (s.windowCloses p
      !(u.waited s.windowIds).bankOpen)) _ (ms 100) 0x0801 srcDevice (le 8 s.ledger.window ++ leInt 4 p.carryAfter.floor)
    exact ⟨⟨_, m, hledger⟩, hjobs⟩
  · exact ⟨⟨_, u.ledger.lastOverrunEvent, rfl⟩, rfl⟩

/-! ## A window with jobs -/

section

variable {letIn : Job → State → State} (hin : ∀ j t, (letIn j t).ledger = t.ledger) (eligible : State → Job → Bool)

include hin

theorem passOne_ledger (id : Nat) (p : Pass × State) : (passOne eligible letIn id p).2.ledger = p.2.ledger := by
  unfold passOne
  dsimp only
  split
  · rfl
  · split
    · rfl
    · split
      · rfl
      · split
        · split <;> rfl
        · simp [hin]

theorem passed_ledger (s : State) : (s.passed eligible letIn).2.ledger = s.ledger :=
  List.foldlRecOn (motive := fun p : Pass × State => p.2.ledger = s.ledger) _ _ rfl
    fun p hp id _ => (passOne_ledger hin eligible id p).trans hp

/-- A window stays the window that it is, and leaves one entry in the trace (R216). -/
theorem runWindow_traces (s : State) :
    SameWindow s (s.runWindow eligible letIn) ∧
      ∃ p closed, (s.runWindow eligible letIn).ledger.trace = s.windowEntry p closed :: s.ledger.trace.take 255 := by
  obtain ⟨⟨closed, m, hledger⟩, -⟩ := runWindow_closes (Prod.eta (s.passed eligible letIn)).symm
  rw [passed_ledger hin] at hledger
  rw [SameWindow, hledger]
  exact ⟨⟨rfl, rfl, rfl, rfl⟩, _, closed, rfl⟩

end

/-! ## A window without jobs -/

theorem passed_idle {s : State} (h : s.considered = []) (eligible : State → Job → Bool) (letIn : Job → State → State) :
    s.windowIds = [] ∧ s.passed eligible letIn = (s.firstPass, s) := by
  have hids : s.windowIds = [] := by simp [State.windowIds, h, sortBy]
  exact ⟨hids, by simp [State.passed, hids]⟩

theorem waited_nil (s : State) : (s.waited []).jobs = s.jobs := by
  simp [State.waited, State.mapJobs]

/-- What is below 0 after the pass is carried on as debt. -/
theorem Pass.after_debt {p : Pass} (cap : Rat) (h : p.avail < 0) : p.carryAfter = p.avail ∧ p.bankAfter cap = p.bank := by
  simp [Pass.carryAfter, Pass.bankAfter, Pass.keeps, h]

/-- What is left over of a pass that did not stop goes to the bank. -/
theorem Pass.after_paid {p : Pass} (cap : Rat) (hgo : p.stopped = false) (h : 0 ≤ p.avail) :
    p.carryAfter = 0 ∧ p.bankAfter cap = min cap (p.bank + p.avail) := by
  simp [Pass.carryAfter, Pass.bankAfter, Pass.keeps, hgo, not_lt.mpr h]

theorem Pass.carryAfter_neg_iff {p : Pass} (hgo : p.stopped = false) : p.carryAfter < 0 ↔ p.avail < 0 := by
  obtain h | h := lt_or_ge p.avail 0
  · rw [(after_debt 0 h).1]
  · simp [(after_paid 0 hgo h).1, h]

/-! ## The tick -/

/-- A tick opens its window: what telemetry, policy and reef have left comes into force, and a change of the power is reported. -/
def State.opensWindow (s : State) : State :=
  let t := s.applyPolicy
  let u := t.updLedger fun x =>
    { x with started := true, window := if t.ledger.started then t.ledger.window + 1 else 0, pEff := t.pEffNow,
             reefAtTick := t.health.reef, factors := x.nextFactors }
  if t.ledger.started && t.ledger.pEff != t.pEffNow then
    u.raise 0x0804 srcDevice (le 4 (floorNat t.ledger.pEff) ++ le 4 (floorNat t.pEffNow) ++ le 1 u.health.reef)
  else u

/-- The window's pass, the lanes charged for, the refusals reported, and old egress forgotten. -/
def State.endsWindow (s : State) : State :=
  let t := (s.runWindow State.eligible State.admitJob).chargeReceived.refusalEvent
  { t with egress := t.egress.filter fun e => t.now < e.1 + sec 1 }

theorem tick_eq {s : State} (hrun : s.nimlek = true) :
    s.tick = s.opensWindow.recreate.refuseDue.settle.endsWindow.settle := by
  unfold State.tick
  rw [hrun, Bool.not_true, if_neg Bool.false_ne_true]
  rfl

theorem opensWindow_ledger (s : State) :
    let l := s.opensWindow.ledger
    l.started = true ∧ l.window = (if s.ledger.started then s.ledger.window + 1 else 0) ∧ l.reefAtTick = s.health.reef ∧
      l.factors = s.ledger.nextFactors := by
  simp [State.opensWindow]

/-- What follows the pass, and the work after it, leave the window and its entry in the trace. -/
theorem endsWindow_settles (s : State) :
    SameWindow s s.endsWindow.settle ∧
      ∃ p closed, s.endsWindow.settle.ledger.trace = s.windowEntry p closed :: s.ledger.trace.take 255 := by
  obtain ⟨hwindow, p, closed, htrace⟩ := runWindow_traces admitJob_ledger State.eligible s
  have hends : KeepsWindow (s.runWindow State.eligible State.admitJob) s.endsWindow := by simp [State.endsWindow]
  have hsettles : KeepsWindow s.endsWindow s.endsWindow.settle := settle_keepsWindow s.endsWindow
  exact ⟨hwindow.trans (hends.1.trans hsettles.1), p, closed, hsettles.2.trans (hends.2.trans htrace)⟩

/-- Once Nimlek runs, a tick opens a window and leaves one entry in the trace for it (R189, R216). -/
theorem tick_traces {s : State} (hrun : s.nimlek = true) :
    SameWindow s.opensWindow s.tick ∧ ∃ e rest, s.tick.ledger.trace = e :: rest ∧
      e.window = s.opensWindow.ledger.window ∧ e.reef = s.opensWindow.ledger.reefAtTick ∧ rest.length ≤ 255 := by
  have hwork : KeepsWindow s.opensWindow s.opensWindow.recreate.refuseDue.settle := by simp
  rw [tick_eq hrun]
  generalize s.opensWindow.recreate.refuseDue.settle = u at hwork
  obtain ⟨hsame, p, closed, htrace⟩ := endsWindow_settles u
  obtain ⟨hnumber, hlevel⟩ := windowEntry_names u p closed
  obtain ⟨-, hwindow, hreef, -⟩ := hwork.1
  exact ⟨hwork.1.trans hsame, _, _, htrace, hnumber.trans hwindow, hlevel.trans hreef, List.length_take_le ..⟩

/-- In a window without jobs the ledger closes on what the pass starts from. -/
theorem runWindow_idle {s : State} (h : s.considered = []) (eligible : State → Job → Bool) (letIn : Job → State → State) :
    (∃ closed m, (s.runWindow eligible letIn).ledger =
      { s.windowCloses s.firstPass closed s.ledger with lastOverrunEvent := m }) ∧
      (s.runWindow eligible letIn).jobs = s.jobs := by
  obtain ⟨hids, hpassed⟩ := passed_idle h eligible letIn
  obtain ⟨hledger, hjobs⟩ := runWindow_closes hpassed
  rw [hids, waited_nil] at hjobs
  exact ⟨hledger, hjobs⟩

/-- Settles O31: a tick by its parts, a window without jobs by what its pass starts from. -/
theorem energyWindows : Obligations.EnergyWindows := by
  refine ⟨fun s hrun => ⟨s.tick, rfl, ?tick⟩, fun s hidle => ?idle⟩
  case tick =>
    obtain ⟨hstarted, hwindow, hreef, hfactors⟩ := opensWindow_ledger s
    obtain ⟨⟨hstarted', hwindow', hreef', hfactors'⟩, e, rest, htrace, hnumber, hlevel, hlength⟩ := tick_traces hrun
    exact ⟨hstarted'.trans hstarted, hwindow'.trans hwindow, hreef'.trans hreef, hfactors'.trans hfactors, e, rest, htrace,
      hnumber.trans hwindow'.symm, hlevel.trans hreef, hlength⟩
  case idle =>
    obtain ⟨⟨closed, m, hledger⟩, hjobs⟩ := runWindow_idle hidle State.eligible State.admitJob
    have hgo : s.firstPass.stopped = false := rfl
    dsimp only
    rw [hledger, hjobs]
    exact ⟨rfl, decide_eq_decide.mpr (Pass.carryAfter_neg_iff hgo), fun havail => Pass.after_debt _ havail,
      fun havail => Pass.after_paid _ hgo havail, rfl⟩

/-! ## One job of the pass (R192, R193, R204) -/

theorem sum_upd_add {l : List Rat} {i : Nat} (c : Rat) (h : i < l.length) : (upd l i (· + c)).sum = l.sum + c := by
  induction l generalizing i with
  | nil => exact absurd h (Nat.not_lt_zero i)
  | cons x xs ih =>
    cases i with
    | zero => simp [upd, add_right_comm]
    | succ i => simpa [upd, add_assoc] using ih (Nat.lt_of_succ_lt_succ h)

/-- What a pass carries on from a job of a class and a cost that it admits: what is not available is drawn from the bank. -/
def Pass.charge (a : Pass) (cls : Nat) (cost : Rat) (groups : List Rat) : Pass :=
  let take := max 0 (cost - a.avail)
  { a with bank := a.bank - take, drawLeft := a.drawLeft - take, avail := a.avail - cost + take, admitted := a.admitted + 1,
           charges := upd a.charges cls (· + cost), groups := groups }

/-- A job of the pass is passed over, stops the pass, or is admitted and charged. -/
theorem passOne_cases (eligible : State → Job → Bool) (letIn : Job → State → State) (id : Nat) (a : Pass) (s : State) :
    (passOne eligible letIn id (a, s)).1 = a ∨
    (passOne eligible letIn id (a, s)).1 = { a with stopped := true, halt := true } ∧ a.halt = false ∧ a.admitted ≠ 2048 ∨
    ∃ j, s.job id = some j ∧ a.halt = false ∧ a.admitted ≠ 2048 ∧ s.jobCost j ≤ a.avail + min a.drawLeft a.bank ∧
      (passOne eligible letIn id (a, s)).1 = a.charge j.cls (s.jobCost j) (s.jobGroups j a.groups) := by
  unfold passOne
  dsimp only
  split
  · exact .inl rfl
  next hgo =>
    obtain ⟨hhalt, hroom⟩ : a.halt = false ∧ a.admitted ≠ 2048 := by simpa using hgo
    split
    · exact .inl rfl
    next j hj =>
      split
      · exact .inl rfl
      · split
        next => 
          split
          · exact .inr (.inl ⟨rfl, hhalt, hroom⟩)
          · exact .inl rfl
        next hcost => exact .inr (.inr ⟨j, hj, hhalt, hroom, not_lt.mp hcost, rfl⟩)

section

variable {a : Pass} {cls : Nat} {cost : Rat} {groups : List Rat}

theorem Pass.charge_conserves (h : cls < a.charges.length) :
    (a.charge cls cost groups).avail + (a.charge cls cost groups).drawLeft + (a.charge cls cost groups).charges.sum =
      a.avail + a.drawLeft + a.charges.sum := by
  simp only [Pass.charge, sum_upd_add cost h]
  ring

theorem Pass.charge_draws : (a.charge cls cost groups).bank - (a.charge cls cost groups).drawLeft = a.bank - a.drawLeft := by
  simp only [Pass.charge, sub_sub_sub_cancel_right]

/-- What is drawn makes up what is not available. -/
theorem Pass.charge_avail_nonneg : 0 ≤ (a.charge cls cost groups).avail := by
  have htake : cost - a.avail ≤ max 0 (cost - a.avail) := le_max_right ..
  simp only [Pass.charge]
  linarith

/-- No more is drawn than may still be drawn. -/
theorem Pass.charge_drawLeft_nonneg (hcost : cost ≤ a.avail + min a.drawLeft a.bank) (hleft : 0 ≤ a.drawLeft) :
    0 ≤ (a.charge cls cost groups).drawLeft := by
  have hmin : min a.drawLeft a.bank ≤ a.drawLeft := min_le_left ..
  have htake : max 0 (cost - a.avail) ≤ a.drawLeft := max_le hleft (by linarith)
  exact sub_nonneg.mpr htake

end

/-- Settles O32, by what a pass can do with a job. -/
theorem passConservesEnergy : Obligations.PassConservesEnergy := by
  intro eligible letIn id a s hlength hcls
  dsimp only
  obtain hq | ⟨hq, hhalt, hroom⟩ | ⟨j, hj, hhalt, hroom, hcost, hq⟩ := passOne_cases eligible letIn id a s
  case inl => simp [hq]
  case inr.inl => simp [hq, hhalt, hroom]
  case inr.inr =>
    have hclass : j.cls < a.charges.length := hlength ▸ hcls j hj
    rw [hq]
    exact ⟨Pass.charge_conserves hclass, Pass.charge_draws, fun _ => Pass.charge_avail_nonneg,
      Pass.charge_drawLeft_nonneg hcost, le_rfl, fun h => absurd h hroom, fun h => absurd (hhalt.symm.trans h) nofun⟩

/-! ## Telemetry (R197 to R199) -/

/-- A reading of one rail group acts on the ledger alone: its factor from the next tick on, if it has been charged, its time and
its stale mark; the charges since the last reading start again. -/
theorem telemetry_oneGroup {g : Nat} (hg : g < 4) (e : Rat) (mw : Nat) (s : State) :
    s.telemetry { groups := (List.replicate 4 none).set g (some e), packageMw := mw } = s.updLedger fun x =>
      { x with nextFactors := if 0 < s.ledger.chargedGroup.getD g 0 then upd x.nextFactors g fun k =>
                   newFactor k (s.measuredEnergy g e) (s.ledger.chargedGroup.getD g 0)
                 else x.nextFactors,
               telemetryTbm := x.telemetryTbm.set g s.now, staleGroups := x.staleGroups.set g false,
               chargedGroup := List.replicate 4 0, measuredMw := mw } := by
  interval_cases g <;> rfl

theorem execTelemetryStale_due {seg addr g : Nat} {s : State} (hrun : s.nimlek = true)
    (hdue : s.ledger.telemetryTbm.getD g 0 + 100000000 ≤ s.now) : execTelemetryStale seg addr g s =
      .next ((s.updLedger fun x => { x with staleGroups := x.staleGroups.set g true }).raise 0x0803 0
        (le 1 seg ++ le 1 addr ++ le 1 g)) := by
  have hms : s.ledger.telemetryTbm.getD g 0 + ms 100 ≤ s.now := hdue
  simp only [execTelemetryStale, hrun, hms, decide_true, Bool.and_self, if_true]
  rfl

theorem execTelemetryStale_early {seg addr g : Nat} {s : State} (hearly : s.now < s.ledger.telemetryTbm.getD g 0 + 100000000) :
    execTelemetryStale seg addr g s = .next s := by
  have hms : ¬ s.ledger.telemetryTbm.getD g 0 + ms 100 ≤ s.now := Nat.not_le.mpr hearly
  simp only [execTelemetryStale, hms, decide_false, Bool.and_false, Bool.false_eq_true, if_false]

/-- The mean temperature is drawn where no sensor is valid, and is else read: only free values are used up. -/
theorem meanTemp_draws (s : State) : s.meanTemp.2 = { s with free := s.meanTemp.2.free } := by
  unfold State.meanTemp
  split <;> rfl

/-- The refreshed leakage in mW (R630). -/
def State.leakageNow (s : State) : Rat :=
  ((min s.nv.fuses.leakage 20000 : Nat) : Rat) * s.vRatio ^ 2 * exp2R ((s.meanTemp.1 - 100) / 25)

theorem execLeakageRefresh_runs {s : State} (hrun : s.running = true) (hnimlek : s.nimlek = true) : execLeakageRefresh s =
    .next { s with ledger := { s.ledger with leakage := s.leakageNow }, free := s.meanTemp.2.free } := by
  have hdraw := meanTemp_draws s
  simp only [execLeakageRefresh, hrun, hnimlek, Bool.and_self, if_true, State.updLedger]
  rw [hdraw]
  rfl

/-! ## The ledger's commands (R214 to R217) -/

theorem nrgCostReadBody_known {c : Cmd} {s : State} (hk : fld c.payload 0 1 ≤ 0x10) :
    nrgCostReadBody c s = s.reply c 0 [] (some (s.costEntry (fld c.payload 0 1))) :=
  if_neg (Nat.not_lt.mpr hk)

theorem nrgTraceBody_fits {c : Cmd} {s : State} (hsome : 1 ≤ fld c.payload 0 4) (hfits : fld c.payload 0 4 ≤ 256) :
    nrgTraceBody c s = s.reply c 0 [] (some (le 4 (s.ledger.trace.take (fld c.payload 0 4)).length ++ le 4 0 ++
      ((s.ledger.trace.take (fld c.payload 0 4)).map TraceEntry.bytes).flatten)) := by
  have hrange : ¬ (fld c.payload 0 4 = 0 || 256 < fld c.payload 0 4) := by
    simp only [Bool.or_eq_true, decide_eq_true_eq]
    omega
  exact if_neg hrange

theorem nrgEstimateBody_staged {c : Cmd} {s : State} {g : Gen} (hstaged : s.cfg.staged = some g) :
    nrgEstimateBody c s = s.reply c 0 ((s.estimate g).map fun v => le 4 v).flatten none := by
  simp only [nrgEstimateBody, hstaged]
  rfl

theorem nrgEstimateBody_none {c : Cmd} {s : State} (hstaged : s.cfg.staged = none) :
    nrgEstimateBody c s = s.reply c 0x0202 [] none := by
  simp only [nrgEstimateBody, hstaged]
  rfl

/-- Settles O33: a reading by its one equation, the commands by what their bodies answer. -/
theorem telemetryAndLedgerCommands : Obligations.TelemetryAndLedgerCommands := by
  refine ⟨⟨fun g e mw s hrun hg hfactors hstale hcharged => ?read, fun seg addr g s hrun =>
    ⟨fun hdue => execTelemetryStale_due hrun hdue, fun hearly => execTelemetryStale_early hearly⟩,
    fun s hrun hnimlek => ⟨_, execLeakageRefresh_runs hrun hnimlek, rfl, rfl, rfl, rfl⟩⟩,
    fun b s => ⟨fun h hk => take_next h (nrgCostReadBody_known hk),
      fun h hsome hfits => take_next h (nrgTraceBody_fits hsome hfits),
      fun g h hstaged => take_next h (nrgEstimateBody_staged hstaged),
      fun h hstaged => take_next h (nrgEstimateBody_none hstaged)⟩⟩
  intro energy
  have hread : exec (.telemetryRead { groups := (List.replicate 4 none).set g (some e), packageMw := mw }) s = .next _ :=
    congrArg Host.Outcome.next ((if_pos hrun).trans (telemetry_oneGroup hg e mw s))
  refine ⟨_, hread, rfl, ?moved, ?others, rfl, ?fresh, rfl, rfl, rfl⟩
  case moved =>
    simp only [State.updLedger_ledger, if_pos hcharged]
    exact upd_getD_self 1 (hfactors ▸ hg)
  case others =>
    simp only [State.updLedger_ledger, if_pos hcharged]
    exact fun j hj => upd_getD_of_ne 1 hj
  case fresh => simp [List.getD_eq_getElem?_getD, hstale, hg]

end Sys2Proof.Machine

/-! SUPPORT. Shrouds in training (R246, R248, R250): what failing, ending and starting a training leaves of the shrouds. -/

namespace Sys2Proof.Machine

open Sys2Proof

/-! ## What leaves the shrouds alone -/

/-- Shrouds and generations are as before. -/
@[simp] abbrev KeepsShrouds (s t : State) : Prop := t.shrouds = s.shrouds ∧ t.cfg = s.cfg

theorem KeepsShrouds.trans {s t u : State} (h : KeepsShrouds s t) (h' : KeepsShrouds t u) : KeepsShrouds s u :=
  ⟨h'.1.trans h.1, h'.2.trans h.2⟩

theorem MailOnly.shrouds {s t : State} (h : MailOnly s t) : t.shrouds = s.shrouds := by
  obtain ⟨-, -, -, hshrouds, -⟩ := h
  exact hshrouds

theorem shroud_of_shrouds {s t : State} (h : t.shrouds = s.shrouds) (n : Nat) : t.shroud n = s.shroud n := by
  simp only [State.shroud, h]

theorem updShroud_shrouds_length (s : State) (n : Nat) (f : Shroud → Shroud) :
    (s.updShroud n f).shrouds.length = s.shrouds.length := upd_length _ _ _

@[simp] theorem scpFault_keepsShrouds (s : State) (sensor failure addr reg : Nat) (firmware : Bool) :
    KeepsShrouds s (s.scpFault sensor failure addr reg firmware) := by
  simp [State.scpFault]

@[simp] theorem fwTransfer_keepsShrouds {done : State → State} (hdone : ∀ t, KeepsShrouds t (done t)) (s : State)
    (sensor addr reg : Nat) : KeepsShrouds s (s.fwTransfer sensor addr reg done) := by
  simp [State.fwTransfer, hdone]

@[simp] theorem flagOpen_keepsShrouds (s : State) (sensor vc b : Nat) : KeepsShrouds s (s.flagOpen sensor vc b) := by
  unfold State.flagOpen
  refine each_keeps (P := KeepsShrouds s) _ ⟨rfl, rfl⟩ fun a _ t ht => ht.trans ?_
  dsimp only
  split
  · exact ⟨rfl, rfl⟩
  · exact ⟨rfl, rfl⟩

@[simp] theorem linkLost_keepsShrouds (s : State) (sensor : Nat) : KeepsShrouds s (s.linkLost sensor) := by
  simp [State.linkLost, State.flagAll]

/-! ## A shroud that fails -/

/-- A shroud in FAILED (R248). -/
def Shroud.failed (x : Shroud) (reason : Nat) : Shroud :=
  { x with st := .failed, failReason := reason, testLane := none, trainTbm := none }

/-- LTC_STATE = QUIET, SL_TRAIN_FAILED, the flags of open frames and the ends of retrains touch no shroud. -/
theorem failShroud_keepsShrouds (s : State) (n reason lanes : Nat) :
    KeepsShrouds (s.updShroud n (·.failed reason)) (s.failShroud n reason lanes) := by
  simp [State.failShroud, Shroud.failed]

theorem failShroud_shroud_self {s : State} {n : Nat} (hn : n < s.shrouds.length) (reason lanes : Nat) :
    (s.failShroud n reason lanes).shroud n = (s.shroud n).failed reason := by
  rw [shroud_of_shrouds (failShroud_keepsShrouds s n reason lanes).1, State.updShroud_shroud_self _ _ _ hn]

theorem failShroud_shroud_of_ne (s : State) {n m : Nat} (h : m ≠ n) (reason lanes : Nat) :
    (s.failShroud n reason lanes).shroud m = s.shroud m := by
  rw [shroud_of_shrouds (failShroud_keepsShrouds s n reason lanes).1, State.updShroud_shroud_of_ne _ _ _ _ h]

theorem failShroud_cfg (s : State) (n reason lanes : Nat) : (s.failShroud n reason lanes).cfg = s.cfg :=
  (failShroud_keepsShrouds s n reason lanes).2

theorem trainTimeout_shroud_self {s : State} {n : Nat} (hn : n < s.shrouds.length) (micros : Nat) :
    (s.trainTimeout n micros).shroud n = { s.shroud n with trainUs := micros }.failed 0xB := by
  rw [State.trainTimeout, failShroud_shroud_self (by rwa [updShroud_shrouds_length]), State.updShroud_shroud_self _ _ _ hn]

theorem trainTimeout_cfg (s : State) (n micros : Nat) : (s.trainTimeout n micros).cfg = s.cfg := failShroud_cfg _ n 0xB 0

/-! ## A training, or a part of one -/

section

variable {n : Nat} {f : TrainFacts} {s : State}

/-- A shroud as far as its training has come; the time of LTC_STATE = TRAIN is noted when it is written. -/
def Shroud.trained (x : Shroud) (f : TrainFacts) (t : Nanos) : Shroud :=
  { (x.train f).sh with trainAt := if (x.train f).writes.contains (0xF002, 1) then some t else (x.train f).sh.trainAt }

/-- A training has come as far as it does: the shroud, the registers written and the event of a corrected map, before its end is
acted on. -/
def State.trainNoted (s : State) (n : Nat) (f : TrainFacts) : State :=
  let r := (s.shroud n).train f
  let t := each r.writes (fun w t => t.ltc (s.shroud n).sensorOf w.1 w.2) (s.updShroud n fun _ => (s.shroud n).trained f s.now)
  if r.corrected then
    t.raise 0x0305 (srcShroud n) (le 8 (packNibbles r.sh.lmap) ++ le 2 (bitmap (r.sh.lanes.map (·.inverted))))
  else t

theorem trainNoted_shrouds (s : State) (n : Nat) (f : TrainFacts) :
    (s.trainNoted n f).shrouds = (s.updShroud n fun _ => (s.shroud n).trained f s.now).shrouds := by
  simp [State.trainNoted]

theorem trainNoted_shrouds_length : (s.trainNoted n f).shrouds.length = s.shrouds.length := by
  rw [trainNoted_shrouds, updShroud_shrouds_length]

theorem trainNoted_shroud_self (hn : n < s.shrouds.length) : (s.trainNoted n f).shroud n = (s.shroud n).trained f s.now := by
  rw [shroud_of_shrouds (trainNoted_shrouds s n f), State.updShroud_shroud_self _ _ _ hn]

theorem trainNoted_shroud_of_ne {m : Nat} (h : m ≠ n) : (s.trainNoted n f).shroud m = s.shroud m := by
  rw [shroud_of_shrouds (trainNoted_shrouds s n f), State.updShroud_shroud_of_ne _ _ _ _ h]

theorem trainShroud_paused (hfail : ((s.shroud n).train f).fail = none) (hst : ((s.shroud n).train f).sh.st ≠ .active) :
    s.trainShroud n f = s.trainNoted n f := by
  simp only [State.trainShroud, hfail, hst, if_false]
  rfl

/-- A training that ends in ACTIVE leaves SL_TRAINED and the ends of the retrains that wait for it. -/
theorem trainShroud_succeeds (hfail : ((s.shroud n).train f).fail = none) (hst : ((s.shroud n).train f).sh.st = .active) :
    MailOnly ((s.trainNoted n f).updShroud n fun x => x.up f.micros (s.trainNoted n f).now) (s.trainShroud n f) := by
  have heq : s.trainShroud n f = (((s.trainNoted n f).updShroud n fun x => x.up f.micros (s.trainNoted n f).now).raise 0x0301
      (srcShroud n) (le 4 f.micros ++ le 1 (s.shroud n).sensorOf ++
        le 1 (((s.shroud n).train f).sh.lanes.filter (·.precodes)).length)).finishAll 0x0301 n stOk [] none := by
    simp only [State.trainShroud, hfail]
    exact if_pos hst
  rw [heq]
  exact (raise_mailOnly _ _ _ _).trans (finishAll_mailOnly _ _ _ _ _ _)

/-- The failure of a training, behind that of the port if a write was refused. -/
theorem trainShroud_fails {reason lanes : Nat} (hfail : ((s.shroud n).train f).fail = some (reason, lanes)) :
    ∃ t, KeepsShrouds (s.trainNoted n f) t ∧
      s.trainShroud n f = (t.updShroud n fun x => { x with trainUs := f.micros }).failShroud n reason lanes := by
  cases hrefused : ((s.shroud n).train f).refused with
  | none => exact ⟨s.trainNoted n f, ⟨rfl, rfl⟩, by simp only [State.trainShroud, hfail, hrefused]; rfl⟩
  | some reg =>
    let p := (s.trainNoted n f).pick 4
    have hfault := scpFault_keepsShrouds p.2 (s.shroud n).sensorOf (p.1 + 1) (p.2.sensor (s.shroud n).sensorOf).address reg true
    have hpick : KeepsShrouds (s.trainNoted n f) p.2 := by simp [p]
    exact ⟨_, hpick.trans hfault, by simp only [State.trainShroud, hfail, hrefused]; rfl⟩

theorem trainNoted_cfg : (s.trainNoted n f).cfg = s.cfg := by simp [State.trainNoted]

theorem trainNoted_ctxs : (s.trainNoted n f).ctxs = s.ctxs := by simp [State.trainNoted]

/-- A training acts on its own shroud, however it ends, and on no generation. -/
theorem trainShroud_keepsOthers (s : State) (n : Nat) (f : TrainFacts) :
    (∀ m, m ≠ n → (s.trainShroud n f).shroud m = s.shroud m) ∧ (s.trainShroud n f).cfg = s.cfg := by
  cases hfail : ((s.shroud n).train f).fail with
  | some p =>
    obtain ⟨t, ⟨hshrouds, hcfg⟩, heq⟩ := trainShroud_fails (reason := p.1) (lanes := p.2) hfail
    rw [heq]
    refine ⟨fun m hm => ?_, (failShroud_cfg _ _ _ _).trans (hcfg.trans trainNoted_cfg)⟩
    rw [failShroud_shroud_of_ne _ hm, State.updShroud_shroud_of_ne _ _ _ _ hm, shroud_of_shrouds hshrouds, trainNoted_shroud_of_ne hm]
  | none =>
    by_cases hst : ((s.shroud n).train f).sh.st = .active
    · obtain ⟨-, hcfg, -, hshrouds, -⟩ := trainShroud_succeeds hfail hst
      refine ⟨fun m hm => ?_, hcfg.trans trainNoted_cfg⟩
      rw [shroud_of_shrouds hshrouds, State.updShroud_shroud_of_ne _ _ _ _ hm, trainNoted_shroud_of_ne hm]
    · rw [trainShroud_paused hfail hst]
      exact ⟨fun m => trainNoted_shroud_of_ne, trainNoted_cfg⟩

theorem trainShroud_shroud_active (hn : n < s.shrouds.length) (hfail : ((s.shroud n).train f).fail = none)
    (hst : ((s.shroud n).train f).sh.st = .active) :
    (s.trainShroud n f).shroud n = ((s.shroud n).trained f s.now).up f.micros (s.trainNoted n f).now ∧
      (s.trainShroud n f).ctxs = s.ctxs := by
  obtain ⟨-, -, -, hshrouds, -, hctxs, -⟩ := trainShroud_succeeds hfail hst
  refine ⟨?_, hctxs.trans trainNoted_ctxs⟩
  rw [shroud_of_shrouds hshrouds, State.updShroud_shroud_self _ _ _ (by rwa [trainNoted_shrouds_length]), trainNoted_shroud_self hn]

theorem trainShroud_shroud_failed {reason lanes : Nat} (hn : n < s.shrouds.length)
    (hfail : ((s.shroud n).train f).fail = some (reason, lanes)) :
    (s.trainShroud n f).shroud n = { (s.shroud n).trained f s.now with trainUs := f.micros }.failed reason := by
  obtain ⟨t, ⟨hshrouds, -⟩, heq⟩ := trainShroud_fails hfail
  have hlen : n < t.shrouds.length := by rwa [hshrouds, trainNoted_shrouds_length]
  rw [heq, failShroud_shroud_self (by rwa [updShroud_shrouds_length]), State.updShroud_shroud_self _ _ _ hlen,
    shroud_of_shrouds hshrouds, trainNoted_shroud_self hn]

/-! ## The rows of training -/

theorem execShroudTrain_late (hmay : s.mayTrain n = true) (hlate : s.trainLate n f = true) :
    exec (.shroudTrain n f) s =
      .next (s.trainTimeout n (max (s.trainMicros n) (min f.micros (1000 * (s.shroud n).timeoutMs)))) := by
  simp only [exec, execShroudTrain, hmay, hlate, Bool.not_true, Bool.false_eq_true, if_false, if_true]

theorem execShroudTrain_inTime (hmay : s.mayTrain n = true) (hlate : s.trainLate n f = false) :
    exec (.shroudTrain n f) s = .next (s.trainShroud n f) := by
  simp only [exec, execShroudTrain, hmay, hlate, Bool.not_true, Bool.false_eq_true, if_false]

theorem execShroudTrainTimeout_eq {x : Nanos} (hbegun : (s.shroud n).trainTbm = some x) :
    exec (.shroudTrainTimeout n) s =
      .next (if x + ms (s.shroud n).timeoutMs ≤ s.now then s.trainTimeout n (s.trainMicros n) else s) := by
  simp only [exec, execShroudTrainTimeout, hbegun, decide_eq_true_eq]

/-- The test of R250's time limit on the latest entry to RELOCK. -/
theorem relockLimit_any {x : Nanos} (hentered : (s.shroud n).relockTbm.head? = some x) :
    (s.shroud n).relockTbm.head?.any (fun t => t + ms 10 ≤ s.now) = decide (x + ms 10 ≤ s.now) := by
  rw [hentered, Option.any_some]

theorem relockTimeout_due {x : Nanos} (hst : (s.shroud n).st = .relock) (hentered : (s.shroud n).relockTbm.head? = some x)
    (hdue : x + ms 10 ≤ s.now) :
    s.relockTimeout n = (s.drawSearch n).failShroud n 0xC (laneBits (s.shroud n).unlocked) :=
  if_pos (by rw [relockLimit_any hentered, decide_eq_true hst, decide_eq_true hdue, Bool.and_self])

theorem relockTimeout_early {x : Nanos} (hentered : (s.shroud n).relockTbm.head? = some x) (hearly : ¬ x + ms 10 ≤ s.now) :
    s.relockTimeout n = s :=
  if_neg (by rw [relockLimit_any hentered, decide_eq_false hearly, Bool.and_false]; exact Bool.false_ne_true)

end

theorem drawSearch_shrouds_length (s : State) (n : Nat) : (s.drawSearch n).shrouds.length = s.shrouds.length :=
  each_proj (π := fun t => t.shrouds.length) (fun k t => by
    split
    · rfl
    · simp [upd_length]) _ s

/-! ## Training starts -/

/-- A shroud as its training begins (R246). -/
def Shroud.quieted (x : Shroud) (t : Nanos) : Shroud :=
  { x with st := .quiet, failReason := 0, trainings := satInc 8 x.trainings, testLane := none, trainTbm := some t, trainAt := none,
           passes := 0, permuted := false, anyInverted := false, deskewRun := false, lanes := x.lanes.map Lane.untrained }

theorem noteReceived_shroud_self {s : State} {n : Nat} (hn : n < s.shrouds.length) :
    (s.noteReceived n).shroud n = { s.shroud n with rxTbm := s.now } := State.updShroud_shroud_self _ _ _ hn

theorem noteReceived_shroud_of_ne (s : State) {n m : Nat} (h : m ≠ n) : (s.noteReceived n).shroud m = s.shroud m :=
  State.updShroud_shroud_of_ne _ _ _ _ h

theorem noteReceived_shrouds_length (s : State) (n : Nat) : (s.noteReceived n).shrouds.length = s.shrouds.length := upd_length _ _ _

theorem startTraining_configured {s : State} {n : Nat} (hentry : (s.shroud n).entry.isSome = true) :
    s.startTraining n = (s.noteReceived n).updShroud n (·.quieted s.now) :=
  if_neg (by simp [Option.isSome_iff_ne_none.mp hentry])

theorem startTraining_shroud_self {s : State} {n : Nat} (hn : n < s.shrouds.length) (hentry : (s.shroud n).entry.isSome = true) :
    (s.startTraining n).shroud n = { s.shroud n with rxTbm := s.now }.quieted s.now := by
  rw [startTraining_configured hentry, State.updShroud_shroud_self _ _ _ (by rwa [noteReceived_shrouds_length]),
    noteReceived_shroud_self hn]

theorem startTraining_shroud_of_ne {s : State} {n m : Nat} (hentry : (s.shroud n).entry.isSome = true) (h : m ≠ n) :
    (s.startTraining n).shroud m = s.shroud m := by
  rw [startTraining_configured hentry, State.updShroud_shroud_of_ne _ _ _ _ h, noteReceived_shroud_of_ne s h]

/-- Settles O35: a training by where its run ends, each time limit on both sides of its boundary, the start by what it sets. -/
theorem shroudsTrain : Obligations.ShroudsTrain := by
  refine ⟨fun n s hn => ⟨fun f hmay hlate => ?late, fun f hmay hlate => ?inTime, fun x hbegun => ?limit,
    fun x hst hentered => ?relock⟩, fun n s hn hentry => ?starts⟩
  case late =>
    have hsh := trainTimeout_shroud_self hn (max (s.trainMicros n) (min f.micros (1000 * (s.shroud n).timeoutMs)))
    exact ⟨_, execShroudTrain_late hmay hlate, congrArg Shroud.st hsh, congrArg Shroud.failReason hsh, trainTimeout_cfg s n _⟩
  case inTime =>
    obtain ⟨hothers, hcfg⟩ := trainShroud_keepsOthers s n f
    refine ⟨_, execShroudTrain_inTime hmay hlate, hothers, hcfg, (trainShroud_undisturbed s n f).2, fun hfail hst => ?active,
      fun hfail hst => ?paused, fun reason lanes hfail => ?fails⟩
    case active =>
      obtain ⟨hsh, hctxs⟩ := trainShroud_shroud_active hn hfail hst
      rw [hsh]
      exact ⟨hst, rfl, rfl, rfl, hctxs⟩
    case paused =>
      rw [trainShroud_paused hfail hst, trainNoted_shroud_self hn]
      exact ⟨rfl, rfl, trainNoted_ctxs⟩
    case fails =>
      rw [trainShroud_shroud_failed hn hfail]
      exact ⟨rfl, rfl, rfl⟩
  case limit =>
    rw [execShroudTrainTimeout_eq hbegun, Nat.mul_comm 1000000]
    have hsh := trainTimeout_shroud_self hn (s.trainMicros n)
    exact ⟨fun hdue => ⟨_, congrArg _ (if_pos hdue), congrArg Shroud.st hsh, congrArg Shroud.failReason hsh⟩,
      fun hearly => congrArg _ (if_neg (Nat.not_le.mpr hearly))⟩
  case relock =>
    have hsh := failShroud_shroud_self (s := s.drawSearch n) (by rwa [drawSearch_shrouds_length]) 0xC
      (laneBits (s.shroud n).unlocked)
    exact ⟨fun hdue => ⟨_, congrArg Host.Outcome.next (relockTimeout_due hst hentered hdue), congrArg Shroud.st hsh,
        congrArg Shroud.failReason hsh⟩,
      fun hearly => congrArg Host.Outcome.next (relockTimeout_early hentered (Nat.not_le.mpr hearly))⟩
  case starts =>
    rw [startTraining_shroud_self hn hentry]
    refine ⟨rfl, rfl, rfl, fun l hl => ?_, fun m => startTraining_shroud_of_ne hentry⟩
    obtain ⟨l, -, rfl⟩ := List.mem_map.mp hl
    exact ⟨rfl, rfl, rfl⟩

end Sys2Proof.Machine

/-! SUPPORT. Lanes of an ACTIVE shroud (R229, R231, R237, R249 to R251): block lock lost, ALIGN periods and invalid sync headers. -/

namespace Sys2Proof.Machine

open Sys2Proof

/-! ## What moves on its own -/

/-- A lane without its tracked tap, its running scan and the mark of its last burst. -/
def Lane.bare (l : Lane) : Lane := { l with dfe := 0, scanning := false, burstTbm := none }

/-- A shroud of bare lanes, without the mark of its last burst event. -/
def Shroud.bare (x : Shroud) : Shroud := { x with lastBurstEvent := none, lanes := x.lanes.map Lane.bare }

/-- The shrouds are as before but for what moves on its own. -/
def SameBare (s t : State) : Prop := t.shrouds.map Shroud.bare = s.shrouds.map Shroud.bare

theorem map_upd_keep {α β : Type} {g : α → β} {f : α → α} (h : ∀ a, g (f a) = g a) (l : List α) (n : Nat) :
    (upd l n f).map g = l.map g := by
  refine List.ext_getElem? fun i => ?_
  simp only [upd, List.getElem?_map, List.getElem?_modify]
  by_cases hi : n = i
  · cases l[i]? <;> simp [hi, h]
  · simp [hi]

theorem SameBare.trans {s t u : State} (h : SameBare s t) (h' : SameBare t u) : SameBare s u := Eq.trans h' h

theorem sameBare_of_shrouds {s t : State} (h : t.shrouds = s.shrouds) : SameBare s t := congrArg (List.map Shroud.bare) h

theorem updShroud_sameBare (s : State) (n : Nat) {f : Shroud → Shroud} (h : ∀ x, (f x).bare = x.bare) :
    SameBare s (s.updShroud n f) := map_upd_keep h _ _

theorem updLane_sameBare (s : State) (n k : Nat) {f : Lane → Lane} (h : ∀ l, (f l).bare = l.bare) :
    SameBare s (s.updShroud n fun x => { x with lanes := upd x.lanes k f }) :=
  updShroud_sameBare s n fun x => by simp only [Shroud.bare, map_upd_keep h]

theorem SameBare.shrouds_length {s t : State} (h : SameBare s t) : t.shrouds.length = s.shrouds.length := by
  simpa using congrArg List.length h

theorem SameBare.shroud {s t : State} (h : SameBare s t) (n : Nat) : (t.shroud n).bare = (s.shroud n).bare := by
  have hmap (u : State) : (u.shroud n).bare = (u.shrouds.map Shroud.bare).getD n Shroud.reset.bare := (List.getD_map _ _ _).symm
  rw [hmap, hmap, h]

theorem lane_bare_of_shroud {x y : Shroud} (h : x.bare = y.bare) (k : Nat) :
    (x.lanes.getD k Lane.reset).bare = (y.lanes.getD k Lane.reset).bare := by
  have hmap (z : Shroud) : (z.lanes.getD k Lane.reset).bare = z.bare.lanes.getD k Lane.reset.bare := (List.getD_map _ _ _).symm
  rw [hmap, hmap, h]

theorem trackDfe_sameBare (s : State) (n : Nat) : SameBare s (s.trackDfe n) := by
  unfold State.trackDfe
  split
  · exact rfl
  · refine each_keeps (P := SameBare s) _ rfl fun k _ t ht => ht.trans ?_
    split
    · exact rfl
    · dsimp only
      exact (sameBare_of_shrouds (pick_mailOnly t 129).shrouds).trans (updLane_sameBare _ n k fun _ => rfl)

/-! ## Logging an error starts at most a scan -/

theorem scanAtOnce_sameBare (s : State) (l : Loc) : SameBare s (s.scanAtOnce l) := by
  unfold State.scanAtOnce
  split
  · exact updLane_sameBare _ _ _ fun _ => rfl
  · split
    · exact rfl
    · split
      · exact rfl
      · exact rfl

theorem errQueue_sameBare (s : State) (cls : Nat) (l : Loc) (seq : Nat) : SameBare s (s.errQueue cls l seq) := by
  unfold State.errQueue
  extract_lets retired merged dropped t
  split
  · exact sameBare_of_shrouds (errUpdated_mailOnly _ seq).shrouds
  · split
    · exact rfl
    · split
      · exact sameBare_of_shrouds (errUpdated_mailOnly _ seq).shrouds
      · exact scanAtOnce_sameBare _ l

theorem logError_sameBare (s : State) (cls : Nat) (l : Loc) (i : ErrInfo) : SameBare s (s.logError cls l i) := by
  have hwrite : SameBare s (s.errWrite cls l i) := sameBare_of_shrouds (by simp [State.errWrite])
  unfold State.logError
  dsimp only
  split
  · exact hwrite
  · exact hwrite.trans (errQueue_sameBare _ _ _ _)

/-! ## Invalid sync headers (R251) -/

/-- Invalid sync headers are counted on a lane. -/
def State.countHdrErr (s : State) (n lane count : Nat) : State := s.updShroud n fun x =>
  { x with lanes := upd x.lanes lane fun l => { l with hdrErr := l.hdrErr + BitVec.ofNat 32 count } }

section

variable {n : Nat} {s : State}

theorem countHdrErr_shroud_self (hn : n < s.shrouds.length) (lane count : Nat) : (s.countHdrErr n lane count).shroud n =
    { s.shroud n with lanes := upd (s.shroud n).lanes lane fun l => { l with hdrErr := l.hdrErr + BitVec.ofNat 32 count } } :=
  State.updShroud_shroud_self _ _ _ hn

theorem hdrErrBurst_few {lane count : Nat} (hst : (s.shroud n).st = .active) (hlane : lane < 16) (hfew : count ≤ 64) :
    s.hdrErrBurst n lane count = s.countHdrErr n lane count := by
  simp only [State.hdrErrBurst, hst, Nat.not_le.mpr hlane, hfew, if_true]
  rfl

/-- A burst adds its event, its entry in the error log and their marks to the count. -/
theorem hdrErrBurst_sameBare {lane count : Nat} (hst : (s.shroud n).st = .active) (hlane : lane < 16) :
    SameBare (s.countHdrErr n lane count) (s.hdrErrBurst n lane count) := by
  by_cases hfew : count ≤ 64
  · rw [hdrErrBurst_few hst hlane hfew]
    exact rfl
  · have hraised (t : State) (last : Option Nanos) (body : List Byte) : SameBare t (t.raiseLimited last (sec 1) 0x0306
        (srcShroud n) body fun m u => u.updShroud n fun x => { x with lastBurstEvent := m }) := by
      unfold State.raiseLimited
      split
      · exact (sameBare_of_shrouds (raise_mailOnly t _ _ _).shrouds).trans (updShroud_sameBare _ n fun _ => rfl)
      · exact rfl
    unfold State.hdrErrBurst
    extract_lets sh l setLane t u
    have hactive : ¬ ((sh.st == .off || sh.st == .quiet || decide (16 ≤ lane)) = true) := by
      simp [sh, hst, Nat.not_le.mpr hlane]
    rw [if_neg hactive, if_neg hfew]
    have hu : SameBare t u := hraised t _ _
    have hmarked : SameBare u (setLane u fun l => { l with burstTbm := some u.now }) := updLane_sameBare u n lane fun _ => rfl
    split
    · exact (hu.trans hmarked).trans (logError_sameBare _ _ _ _)
    · exact hu

end

/-! ## A shroud that enters RELOCK (R249, R250) -/

/-- The entries to RELOCK of the last second. -/
def Shroud.recentRelocks (x : Shroud) (t : Nanos) : List Nanos := x.relockTbm.filter fun r => t < r + sec 1

/-- A lane of a shroud that enters RELOCK: those that have lost block lock count it. -/
def Lane.relocking (gone : List Nat) (cdr : Option Nat) (k : Nat) (l : Lane) : Lane :=
  if gone.contains k then
    { l with blockLock := false, cdrLock := l.cdrLock && cdr != some k, lockLoss := satInc 16 l.lockLoss, foundSlip := none,
             candidates := 0 }
  else l

/-- A shroud in RELOCK, which it has entered at these times before. -/
def Shroud.relocking (x : Shroud) (t : Nanos) (recent : List Nanos) (gone : List Nat) (cdr : Option Nat) : Shroud :=
  { x with st := .relock, relocks := satInc 8 x.relocks, relockTbm := t :: recent, testLane := none, deskewRun := false,
           passes := if gone.isEmpty then x.passes else 0,
           lanes := (numbered x.lanes).map fun p => p.2.relocking gone cdr p.1 }

/-- A shroud has entered RELOCK, with SL_LOCK_LOST and what follows for open frames and a generation in probation. -/
def State.relockEntered (s : State) (n : Nat) (gone : List Nat) (cdr : Option Nat) : State :=
  let t := (s.noteReceived n).updShroud n (·.relocking s.now ((s.shroud n).recentRelocks s.now) gone cdr)
  let t := t.raise 0x0303 (srcShroud n) (le 2 (laneBits gone) ++ le 6 0 ++ le 8 (s.now / 1000000000))
  (t.linkLost (s.shroud n).sensorOf).linkLossInProbation n

section

variable {n : Nat} {s : State}

@[simp] theorem linkLossInProbation_shrouds (s : State) (n : Nat) : (s.linkLossInProbation n).shrouds = s.shrouds := by
  simp [State.linkLossInProbation]

theorem relockEntered_shrouds (gone : List Nat) (cdr : Option Nat) : (s.relockEntered n gone cdr).shrouds =
    ((s.noteReceived n).updShroud n (·.relocking s.now ((s.shroud n).recentRelocks s.now) gone cdr)).shrouds := by
  simp [State.relockEntered]

theorem relockEntered_shroud_self (hn : n < s.shrouds.length) (gone : List Nat) (cdr : Option Nat) :
    (s.relockEntered n gone cdr).shroud n =
      { s.shroud n with rxTbm := s.now }.relocking s.now ((s.shroud n).recentRelocks s.now) gone cdr := by
  rw [shroud_of_shrouds (relockEntered_shrouds gone cdr), State.updShroud_shroud_self _ _ _ (by rwa [noteReceived_shrouds_length]),
    noteReceived_shroud_self hn]

theorem relockEntered_shrouds_length (gone : List Nat) (cdr : Option Nat) :
    (s.relockEntered n gone cdr).shrouds.length = s.shrouds.length := by
  rw [relockEntered_shrouds, updShroud_shrouds_length, noteReceived_shrouds_length]

theorem endLoopback_of_active (hst : (s.shroud n).st = .active) (counted : Option (Nat × Nat)) : s.endLoopback n counted = s :=
  if_pos (by rw [hst]; rfl)

theorem enterRelock_stays {ls : List Nat} {cdr : Option Nat} (hst : (s.shroud n).st = .active)
    (counted : Option (Nat × Nat)) (hfew : ((s.shroud n).recentRelocks s.now).length < 3) :
    s.enterRelock n ls cdr counted none = s.relockEntered n (nub (ls ++ cdr.toList)) cdr := by
  simp only [State.enterRelock, endLoopback_of_active hst]
  exact if_neg (Nat.not_le.mpr hfew)

theorem enterRelock_fails {ls : List Nat} {cdr : Option Nat} (hst : (s.shroud n).st = .active)
    (counted : Option (Nat × Nat)) (relock : Option RelockFacts) (hmany : 3 ≤ ((s.shroud n).recentRelocks s.now).length) :
    s.enterRelock n ls cdr counted relock =
      (s.relockEntered n (nub (ls ++ cdr.toList)) cdr).failShroud n 0xC (laneBits (nub (ls ++ cdr.toList))) := by
  simp only [State.enterRelock, endLoopback_of_active hst]
  exact if_pos hmany

/-- However soon it follows on others, an entry is counted. -/
theorem enterRelock_counts {ls : List Nat} {cdr : Option Nat} (hn : n < s.shrouds.length) (hst : (s.shroud n).st = .active)
    (counted : Option (Nat × Nat)) :
    let u := s.enterRelock n ls cdr counted none
    ((u.shroud n).st = .relock ∨ (u.shroud n).st = .failed) ∧ (u.shroud n).relocks = satInc 8 (s.shroud n).relocks := by
  intro u
  rcases Nat.lt_or_ge ((s.shroud n).recentRelocks s.now).length 3 with hfew | hmany
  · have hu : u = _ := enterRelock_stays hst counted hfew
    rw [hu, relockEntered_shroud_self hn]
    exact ⟨.inl rfl, rfl⟩
  · have hu : u = _ := enterRelock_fails hst counted none hmany
    rw [hu, failShroud_shroud_self (by rwa [relockEntered_shrouds_length]),
      relockEntered_shroud_self hn]
    exact ⟨.inr rfl, rfl⟩

/-! ## Lanes that have lost lock -/

theorem mem_nub {α : Type} [DecidableEq α] {a : α} (l : List α) : a ∈ nub l ↔ a ∈ l := by
  induction l with
  | nil => rfl
  | cons b l ih =>
    by_cases hab : a = b
    · simp [nub, hab]
    · simp [nub, hab, ih]

theorem getD_map_numbered {α : Type} {l : List α} {k : Nat} (hk : k < l.length) (g : Nat → α → α) (d : α) :
    ((numbered l).map fun p => g p.1 p.2).getD k d = g k (l.getD k d) := by
  simp [numbered, hk]

/-- A set of lanes, as SL_LOCK_LOST gives it, as a list. -/
def lanesIn (lanes : BitVec 16) : List Nat := (List.range 16).filter lanes.getLsbD

theorem mem_lanesIn {lanes : BitVec 16} {l : Nat} : l ∈ lanesIn lanes ↔ lanes.getLsbD l = true := by
  simp only [lanesIn, List.mem_filter, List.mem_range, and_iff_right_iff_imp]
  exact BitVec.lt_of_getLsbD

theorem lanesIn_ne_nil {lanes : BitVec 16} (h : lanes ≠ 0) : lanesIn lanes ≠ [] := by
  intro hnil
  refine h (BitVec.eq_of_getLsbD_eq fun l _ => ?_)
  have hl : ¬ lanes.getLsbD l = true := by simp [← mem_lanesIn, hnil]
  simpa using hl

theorem lane_relocking_of_mem {gone : List Nat} {k : Nat} (h : k ∈ gone) (cdr : Option Nat) (l : Lane) :
    (l.relocking gone cdr k).blockLock = false ∧ (l.relocking gone cdr k).lockLoss = satInc 16 l.lockLoss := by
  rw [Lane.relocking, if_pos (List.contains_iff_mem.mpr h)]
  exact ⟨rfl, rfl⟩

theorem relocking_lane {x : Shroud} {k : Nat} (hk : k < x.lanes.length) (t : Nanos) (recent : List Nanos) (gone : List Nat)
    (cdr : Option Nat) : (x.relocking t recent gone cdr).lanes.getD k Lane.reset =
      (x.lanes.getD k Lane.reset).relocking gone cdr k :=
  getD_map_numbered hk (fun k l => l.relocking gone cdr k) Lane.reset

/-- Outside a loopback no lane is spared. -/
theorem lockLost_active {lanes : BitVec 16} (hst : (s.shroud n).st = .active) (htest : (s.shroud n).testLane = none)
    (hlanes : lanes ≠ 0) (f : LockLoss) : ∃ cdr, (f.cdr = false → cdr = none) ∧
      s.lockLost n lanes f = s.enterRelock n (lanesIn lanes) cdr (some (f.bits, f.errors)) f.relock := by
  unfold State.lockLost
  extract_lets sh spared zero cdr ls
  have hspared (k : Nat) : spared k = false := by simp [spared, sh, htest]
  have hls : ls = lanesIn lanes := by simp [ls, lanesIn, hspared]
  have hsome : ¬ ((ls.isEmpty && cdr.isNone) = true) := by simp [hls, lanesIn_ne_nil hlanes]
  refine ⟨cdr, fun hcdr => by simp [cdr, hcdr], ?_⟩
  have hrelock : ¬ sh.st = .relock := by simp [sh, hst]
  have hother : ¬ ((sh.st != .active && sh.st != .test) = true) := by simp [sh, hst]
  rw [if_neg hrelock, if_neg hother, if_neg hsome, hls]

theorem exec_slLockLost {lanes : BitVec 16} {f : LockLoss} {u : State} (h : s.lockLost n lanes f = u) :
    exec (.slLockLost n lanes f) s = .next u.settle := h ▸ rfl

/-! ## ALIGN periods (R231, R237) -/

/-- A lane takes over the precoder flag of its logical lane, in PAM4 (R230). -/
def Lane.flagged (precode : BitVec 16) (nrz : Bool) (l : Lane) : Lane :=
  match l.logical with
  | some k => { l with precodes := precode.getLsbD k && !nrz }
  | none => l

/-- A shroud after the ALIGN blocks of a period. -/
def Shroud.aligned (x : Shroud) (inStep : Bool) (precode : BitVec 16) (nrz : Bool) : Shroud :=
  { x with lanes := x.lanes.map (Lane.flagged precode nrz), deskewRun := !inStep,
           deskewErr := if inStep then x.deskewErr else satInc 16 x.deskewErr }

/-- The ALIGN blocks of a period have arrived, and the taps track on. -/
def State.aligned (s : State) (n : Nat) (inStep : Bool) (precode : BitVec 16) : State :=
  (s.updShroud n (·.aligned inStep precode (s.shroud n).nrz)).trackDfe n

theorem aligned_lane (x : Shroud) (inStep : Bool) (precode : BitVec 16) (nrz : Bool) (l : Nat) :
    (x.aligned inStep precode nrz).lanes.getD l Lane.reset = (x.lanes.getD l Lane.reset).flagged precode nrz :=
  List.getD_map _ Lane.reset (Lane.flagged precode nrz)

theorem flagged_precodes {l : Lane} {k : Nat} (hlogical : l.logical = some k) (precode : BitVec 16) (nrz : Bool) :
    (l.flagged precode nrz).precodes = (precode.getLsbD k && !nrz) := by
  simp only [Lane.flagged, hlogical]

theorem aligned_shrouds_length (inStep : Bool) (precode : BitVec 16) :
    (s.aligned n inStep precode).shrouds.length = s.shrouds.length := by
  rw [State.aligned, (trackDfe_sameBare _ n).shrouds_length, updShroud_shrouds_length]

theorem aligned_bare (hn : n < s.shrouds.length) (inStep : Bool) (precode : BitVec 16) :
    ((s.aligned n inStep precode).shroud n).bare = ((s.shroud n).aligned inStep precode (s.shroud n).nrz).bare := by
  rw [State.aligned, (trackDfe_sameBare _ n).shroud n, State.updShroud_shroud_self _ _ _ hn]

theorem alignPeriod_tolerated (p : AlignPeriod) (hst : (s.shroud n).st = .active)
    (hstep : p.inStep = true ∨ (s.shroud n).deskewRun = false) (precode : BitVec 16) :
    s.alignPeriod n p precode = s.aligned n p.inStep precode := by
  have hscrambled : (s.shroud n).scrambled = true := by simp [Shroud.scrambled, hst]
  have hlost : ¬ ((!p.inStep && (s.shroud n).deskewRun && ((s.shroud n).st == .active || (s.shroud n).st == .test)) = true) := by
    rcases hstep with h | h <;> simp [h]
  simp only [State.alignPeriod, hscrambled]
  exact if_neg hlost

theorem alignPeriod_lost {p : AlignPeriod} (hst : (s.shroud n).st = .active) (hstep : p.inStep = false)
    (hrun : (s.shroud n).deskewRun = true) (precode : BitVec 16) : s.alignPeriod n p precode =
      (s.aligned n false precode).enterRelock n [] none (some (p.bits, p.errors)) none := by
  have hscrambled : (s.shroud n).scrambled = true := by simp [Shroud.scrambled, hst]
  have hlost : (!p.inStep && (s.shroud n).deskewRun && ((s.shroud n).st == .active || (s.shroud n).st == .test)) = true := by
    simp [hstep, hrun, hst]
  simp only [State.alignPeriod, hscrambled]
  rw [← hstep]
  exact if_pos hlost

theorem exec_alignBlock {p : AlignPeriod} {precode : BitVec 16} {u : State} (h : s.alignPeriod n p precode = u) :
    exec (.alignBlock n p precode) s = .next u.settle := h ▸ rfl

end

/-- Settles O36: each row by its equation, what a search, a tap or a scan leaves of a shroud by what is bare of them. -/
theorem laneErrors : Obligations.LaneErrors := by
  refine ⟨fun n s => ⟨fun hscrambled => ?counted, fun hnot => ?dropped⟩, fun n s hn hst htest =>
    ⟨fun lanes f hlanes hcdr hrelock hfew => ?lost, fun lanes f hlanes hmany => ?limit, fun p pre hstep => ?inStep,
      fun p pre hstep hrun => ?first, fun p pre hstep hrun => ?second, fun lane count hlane hlen => ?headers⟩⟩
  case counted => exact congrArg Host.Outcome.next (if_pos hscrambled)
  case dropped => exact congrArg Host.Outcome.next (if_neg (by simp [hnot]))
  case lost =>
    obtain ⟨cdr, hnone, heq⟩ := lockLost_active hst htest hlanes f
    obtain rfl := hnone hcdr
    rw [hrelock, enterRelock_stays hst _ hfew] at heq
    refine ⟨_, exec_slLockLost heq, ?_⟩
    rw [relockEntered_shroud_self hn]
    refine ⟨rfl, rfl, rfl, fun l hl hlane => ?_⟩
    have hgone : l ∈ nub (lanesIn lanes ++ []) := (mem_nub _).mpr (List.mem_append_left _ (mem_lanesIn.mpr hlane))
    rw [relocking_lane (x := { s.shroud n with rxTbm := s.now }) hl]
    exact lane_relocking_of_mem hgone none _
  case limit =>
    obtain ⟨cdr, -, heq⟩ := lockLost_active hst htest hlanes f
    rw [enterRelock_fails hst _ _ hmany] at heq
    refine ⟨_, exec_slLockLost heq, ?_⟩
    rw [failShroud_shroud_self (by rwa [relockEntered_shrouds_length])]
    exact ⟨rfl, rfl⟩
  case inStep =>
    have heq := alignPeriod_tolerated p hst (.inl hstep) pre
    have hsh := aligned_bare hn p.inStep pre
    rw [hstep] at heq hsh
    refine ⟨_, exec_alignBlock heq, (congrArg Shroud.st hsh).trans hst, congrArg Shroud.deskewRun hsh,
      (congrArg Shroud.deskewErr hsh :), fun l k hl hlogical => ?_⟩
    have hlane := lane_bare_of_shroud hsh l
    rw [aligned_lane] at hlane
    exact (congrArg Lane.precodes hlane).trans (flagged_precodes hlogical pre _)
  case first =>
    have heq := alignPeriod_tolerated p hst (.inr hrun) pre
    have hsh := aligned_bare hn p.inStep pre
    rw [hstep] at heq hsh
    exact ⟨_, exec_alignBlock heq, (congrArg Shroud.st hsh).trans hst, congrArg Shroud.deskewErr hsh,
      congrArg Shroud.deskewRun hsh⟩
  case second =>
    have hsh := aligned_bare hn false pre
    have hrelocks : ((s.aligned n false pre).shroud n).relocks = (s.shroud n).relocks :=
      (congrArg Shroud.relocks hsh :)
    obtain ⟨hends, hcount⟩ := enterRelock_counts (ls := []) (cdr := none) (by rwa [aligned_shrouds_length])
      ((congrArg Shroud.st hsh).trans hst) (some (p.bits, p.errors))
    exact ⟨_, exec_alignBlock (alignPeriod_lost hst hstep hrun pre), hends, hrelocks ▸ hcount⟩
  case headers =>
    have hsh := (hdrErrBurst_sameBare (n := n) (count := count) hst hlane).shroud n
    rw [countHdrErr_shroud_self hn] at hsh
    have hbare := congrArg Lane.hdrErr (lane_bare_of_shroud hsh lane)
    refine ⟨_, rfl, hbare.trans ?_, (congrArg Shroud.st hsh).trans hst, fun hfew => ?_⟩
    · exact congrArg Lane.hdrErr (upd_getD_self Lane.reset (hlen ▸ hlane))
    · rw [hdrErrBurst_few hst hlane hfew]
      exact ⟨rfl, rfl⟩

end Sys2Proof.Machine

/-! SUPPORT. Eye scans, loopback and the commands of the lanes (R252, R253, R257 to R259). -/

namespace Sys2Proof.Machine

open Sys2Proof

/-! ## The periodic scan -/

/-- A lane of an ACTIVE shroud, on which a scan starts if it is in use. -/
def Lane.scanStarts (l : Lane) : Lane := if l.logical.isSome then { l with scanning := true } else l

/-- A shroud whose scans of the period start, while it is ACTIVE. -/
def Shroud.scansStart (x : Shroud) : Shroud := if x.st = .active then { x with lanes := x.lanes.map Lane.scanStarts } else x

theorem execPeriodicEyeScan_eq (s : State) :
    exec .periodicEyeScan s = .next { s with shrouds := s.shrouds.map Shroud.scansStart } := rfl

theorem scansStart_of_inactive {x : Shroud} (hst : x.st ≠ .active) : x.scansStart = x := if_neg hst

theorem scanStarts_scanning (l : Lane) : l.scanStarts.scanning = (l.scanning || l.logical.isSome) := by
  cases h : l.logical.isSome with
  | true => simp [Lane.scanStarts, h]
  | false => simp [Lane.scanStarts, h]

theorem scansStart_scanning {x : Shroud} (hst : x.st = .active) (l : Nat) : (x.scansStart.lanes.getD l Lane.reset).scanning =
    ((x.lanes.getD l Lane.reset).scanning || (x.lanes.getD l Lane.reset).logical.isSome) := by
  have hlane : (x.lanes.map Lane.scanStarts).getD l Lane.reset = (x.lanes.getD l Lane.reset).scanStarts :=
    List.getD_map _ Lane.reset Lane.scanStarts
  rw [Shroud.scansStart, if_pos hst, hlane, scanStarts_scanning]

theorem scansStart_shroud (s : State) (n : Nat) :
    { s with shrouds := s.shrouds.map Shroud.scansStart }.shroud n = (s.shroud n).scansStart :=
  List.getD_map _ Shroud.reset Shroud.scansStart

/-! ## The end of a scan and of a loopback -/

section

variable {n lane : Nat} {s : State}

/-- A lane whose scan has ended (R252). -/
def Lane.scanned (l : Lane) (nrz : Bool) (f : EyeFacts) (t : Nanos) : Lane :=
  { l with scanning := false, scanTbm := some t, eyeH := sat 8 (leastOf (eyesOf nrz f.h)),
           eyeV := sat 8 (leastOf (eyesOf nrz f.v) / 2) }

theorem eyeDone_lane {f : EyeFacts} (hn : n < s.shrouds.length) (hlane : lane < (s.shroud n).lanes.length)
    (hscan : ((s.shroud n).lanes.getD lane Lane.reset).scanning = true) :
    ((s.eyeDone n lane f).shroud n).lanes.getD lane Lane.reset =
      ((s.shroud n).lanes.getD lane Lane.reset).scanned (s.shroud n).nrz f s.now := by
  have hmail : MailOnly (s.updShroud n fun x => { x with lanes := upd x.lanes lane (·.scanned (s.shroud n).nrz f s.now) })
      (s.eyeDone n lane f) := by
    simp only [State.eyeDone, hscan]
    exact finishAll_mailOnly _ _ _ _ _ _
  rw [shroud_of_shrouds hmail.shrouds, State.updShroud_shroud_self _ _ _ hn]
  exact upd_getD_self _ hlane

/-- A shroud after a loopback of a host (R252, R257). -/
def Shroud.loopbackEnded (x : Shroud) (lane errors : Nat) (t : Nanos) : Shroud :=
  { x with st := .active, rxTbm := t, testLane := none, lanes := upd x.lanes lane fun y => { y with prbsErr := sat 32 errors } }

theorem loopbackDone_shroud {errors : Nat} (hn : n < s.shrouds.length) (htest : (s.shroud n).testLane = some lane)
    (hst : (s.shroud n).st = .test) (hexec : s.executing 0x0303 n ≠ []) (bits : Nat) :
    (s.loopbackDone n bits errors).shroud n = (s.shroud n).loopbackEnded lane errors s.now := by
  have hruns : ¬ (((s.shroud n).st != .test || (s.executing 0x0303 n).isEmpty) = true) := by simp [hst, hexec]
  have hmail : MailOnly (s.updShroud n (·.loopbackEnded lane errors s.now)) (s.loopbackDone n bits errors) := by
    simp only [State.loopbackDone, htest]
    rw [if_neg hruns]
    exact finishAll_mailOnly _ _ _ _ _ _
  rw [shroud_of_shrouds hmail.shrouds, State.updShroud_shroud_self _ _ _ hn]

end

/-! ## The commands -/

section

variable {c : Cmd} {s : State}

/-- FORCE decides only over a sensor that captures. -/
theorem slRetrainBody_restarts (hshroud : (genShroud s.cfg.live (fld c.payload 0 1)).isSome = true)
    (harmed : s.armedChanges (fld c.payload 0 1) = false)
    (hcaptures : s.sensorCaptures (s.shroud (fld c.payload 0 1)).sensorOf = false) : slRetrainBody c s =
      ((s.accept c (fld c.payload 0 1) []).endLoopback (fld c.payload 0 1) none).startTraining (fld c.payload 0 1) := by
  simp [slRetrainBody, Option.isSome_iff_ne_none.mp hshroud, harmed, hcaptures]

theorem slEyeScanBody_scans (hshroud : (genShroud s.cfg.live (fld c.payload 0 1)).isSome = true)
    (hlane : s.laneMapped (fld c.payload 0 1) (fld c.payload 1 1) = true) : slEyeScanBody c s =
      (s.updShroud (fld c.payload 0 1) fun x => { x with lanes := upd x.lanes (fld c.payload 1 1) fun l =>
        { l with scanning := true } }).accept c (16 * fld c.payload 0 1 + fld c.payload 1 1) [] := by
  simp [slEyeScanBody, Option.isSome_iff_ne_none.mp hshroud, hlane]

theorem slLoopbackBody_tests (hshroud : (genShroud s.cfg.live (fld c.payload 0 1)).isSome = true)
    (hlane : s.laneMapped (fld c.payload 0 1) (fld c.payload 1 1) = true) (hmin : 2 ≤ fld c.payload 4 4)
    (hmax : fld c.payload 4 4 ≤ 1000000) (hst : (s.shroud (fld c.payload 0 1)).st = .active)
    (hcaptures : s.sensorCaptures (s.shroud (fld c.payload 0 1)).sensorOf = false) : slLoopbackBody c s =
      ((s.noteReceived (fld c.payload 0 1)).updShroud (fld c.payload 0 1) fun x =>
        { x with st := .test, testLane := some (fld c.payload 1 1) }).accept c (fld c.payload 0 1)
        [fld c.payload 1 1, fld c.payload 4 4] := by
  simp [slLoopbackBody, Option.isSome_iff_ne_none.mp hshroud, hlane, Nat.not_lt.mpr hmin, Nat.not_lt.mpr hmax, hst, hcaptures]

theorem slTrainLogBody_answers (hshroud : (genShroud s.cfg.live (fld c.payload 0 1)).isSome = true) :
    slTrainLogBody c s = s.reply c 0 [] (some (s.shroud (fld c.payload 0 1)).trainLog) :=
  if_neg (by simp [Option.isSome_iff_ne_none.mp hshroud])

end

/-- Settles O37: scans and the end of a loopback by what they leave of the shroud, each command by its body after the shared
checks. -/
theorem laneTestsAndCommands : Obligations.LaneTestsAndCommands := by
  refine ⟨⟨fun s => ?periodic, fun n lane f s hn hlane hscan => ?scan,
    fun n lane bits errors s hn htest hlane hst hexec => ?loopback⟩, fun b s => ?commands⟩
  case periodic =>
    refine ⟨_, execPeriodicEyeScan_eq s, rfl, fun n hn => ?_⟩
    rw [scansStart_shroud]
    exact ⟨scansStart_of_inactive, fun hst l hl => scansStart_scanning hst l⟩
  case scan =>
    refine ⟨_, rfl, ?_⟩
    rw [eyeDone_lane hn hlane hscan]
    exact ⟨rfl, rfl, rfl, rfl⟩
  case loopback =>
    refine ⟨_, rfl, ?_⟩
    rw [loopbackDone_shroud hn htest hst hexec]
    exact ⟨rfl, rfl, congrArg Lane.prbsErr (upd_getD_self Lane.reset hlane)⟩
  case commands =>
    intro t c p n lane hshroud
    refine ⟨fun h hforce harmed hcaptures => ?_, fun h hmapped => ?_, fun h hmapped hmin hmax hst hcaptures => ?_, fun h => ?_⟩
    · exact take_settle_next h (slRetrainBody_restarts hshroud harmed hcaptures)
    · exact take_next h (slEyeScanBody_scans hshroud hmapped)
    · exact take_next h (slLoopbackBody_tests hshroud hmapped hmin hmax hst hcaptures)
    · exact take_next h (slTrainLogBody_answers hshroud)

end Sys2Proof.Machine

/-! SUPPORT. A transfer on a sensor's control port (R280–R284): what it answers once its operands have passed their checks. -/

namespace Sys2Proof.Machine

open Sys2Proof

theorem sensor_of_sensors {s t : State} (h : t.sensors = s.sensors) (n : Nat) : t.sensor n = s.sensor n := by
  simp only [State.sensor, h]

/-- The operands of a transfer pass their checks (R280, R281): a sensor with a port, an address, and a number of words in range. -/
structure ScpFits (s : State) (c : Cmd) : Prop where
  sensor : fld c.payload 0 1 < 16
  port : ∃ e, genSensor s.cfg.live (fld c.payload 0 1) = some e ∧ fld e 1 1 ≠ 0
  address : fld c.payload 1 1 < 128
  least : 1 ≤ fld c.payload 2 2
  most : fld c.payload 2 2 ≤ 4096

section

variable {s : State} {c : Cmd} {write : Bool} {f : ScpFacts}

/-- The register of a transfer is one of the firmware's (R283). -/
def State.scpHitsLock (s : State) (c : Cmd) : Bool :=
  s.scpLocked (fld c.payload 0 1) (fld c.payload 1 1) (fld c.payload 4 2) (fld c.payload 2 2)

/-- The address that a transfer goes to: the sensor's own when the command gives 0. -/
def State.scpAddr (s : State) (c : Cmd) : Nat :=
  if fld c.payload 1 1 = 0 then (s.sensor (fld c.payload 0 1)).address else fld c.payload 1 1

/-- What is left of a transfer whose operands pass their checks. -/
theorem scpTransfer_of_fits (h : ScpFits s c) : s.scpTransfer c write f =
    if write = true ∧ s.scpHitsLock c = true then s.fail c stLiveLocked
    else if f.starts = false ∨ (s.sensor (fld c.payload 0 1)).portState = 0 then
      s.updSensor (fld c.payload 0 1) fun x => { x with scpWait := x.scpWait ++ [(c, s.now)] }
    else if f.failure ≠ 0 then
      (s.scpFault (fld c.payload 0 1) f.failure (s.scpAddr c) (if f.failure = 2 then f.reached else fld c.payload 4 2)
        false).reply c stHwFault (le 4 f.failure ++ if f.failure = 2 then le 2 f.reached else []) none
    else
      let t := s.updSensor (fld c.payload 0 1) fun x => { x with portState := 1 }
      if write then (t.out (.scp (fld c.payload 0 1) (s.scpAddr c) (fld c.payload 4 2) (c.payload.drop 8))).ok c []
      else t.reply c stOk [] (some (fit (2 * fld c.payload 2 2) f.data)) := by
  obtain ⟨hsensor, ⟨e, he, hmode⟩, haddress, hleast, hmost⟩ := h
  simp [State.scpTransfer, State.scpHitsLock, State.scpAddr, Nat.not_le.mpr hsensor, he, hmode, Nat.not_le.mpr haddress,
    Nat.pos_iff_ne_zero.mp hleast, Nat.not_lt.mpr hmost]

theorem scpTransfer_locked (h : ScpFits s c) (hlock : s.scpHitsLock c = true) :
    s.scpTransfer c true f = s.fail c stLiveLocked := by
  rw [scpTransfer_of_fits h, if_pos ⟨rfl, hlock⟩]

/-- A transfer that the port cannot start, or whose port is off, waits (R66, R284). -/
theorem scpTransfer_waits (h : ScpFits s c) (hlock : ¬ (write = true ∧ s.scpHitsLock c = true))
    (hwaits : f.starts = false ∨ (s.sensor (fld c.payload 0 1)).portState = 0) : s.scpTransfer c write f =
      s.updSensor (fld c.payload 0 1) fun x => { x with scpWait := x.scpWait ++ [(c, s.now)] } := by
  rw [scpTransfer_of_fits h, if_neg hlock, if_pos hwaits]

section

variable (h : ScpFits s c) (hruns : ¬ (f.starts = false ∨ (s.sensor (fld c.payload 0 1)).portState = 0))

include h hruns

/-- A failure that is no NACK of a data byte carries no count of bytes in its result (R284). -/
theorem scpTransfer_read_fails (hfails : f.failure ≠ 0) (hnack : f.failure ≠ 2) : s.scpTransfer c false f =
    (s.scpFault (fld c.payload 0 1) f.failure (s.scpAddr c) (fld c.payload 4 2) false).reply c stHwFault
      (le 4 f.failure) none := by
  rw [scpTransfer_of_fits h, if_neg (by simp), if_neg hruns, if_pos hfails, if_neg hnack, if_neg hnack, List.append_nil]

theorem scpTransfer_read_acknowledged (hacked : f.failure = 0) : s.scpTransfer c false f =
    (s.updSensor (fld c.payload 0 1) fun x => { x with portState := 1 }).reply c stOk []
      (some (fit (2 * fld c.payload 2 2) f.data)) := by
  rw [scpTransfer_of_fits h, if_neg (by simp), if_neg hruns, if_neg (not_not.mpr hacked)]
  rfl

theorem scpTransfer_write_acknowledged (hlock : s.scpHitsLock c = false) (hacked : f.failure = 0) :
    s.scpTransfer c true f =
      ((s.updSensor (fld c.payload 0 1) fun x => { x with portState := 1 }).out
        (.scp (fld c.payload 0 1) (s.scpAddr c) (fld c.payload 4 2) (c.payload.drop 8))).ok c [] := by
  rw [scpTransfer_of_fits h, if_neg (by simp [hlock]), if_neg hruns, if_neg (not_not.mpr hacked)]
  rfl

end

/-- A failed transfer leaves its port in error and touches no context (R284). -/
theorem scpFault_ctxs (n failure addr reg : Nat) (firmware : Bool) : (s.scpFault n failure addr reg firmware).ctxs = s.ctxs := by
  simp [State.scpFault]

theorem scpFault_sensor_self {n : Nat} (hn : n < s.sensors.length) (failure addr reg : Nat) (firmware : Bool) :
    (s.scpFault n failure addr reg firmware).sensor n =
      { s.sensor n with scpErr := satInc 16 (s.sensor n).scpErr, portState := 3 } := by
  obtain ⟨-, -, -, -, hsensors, -⟩ := raise_mailOnly
    (s.updSensor n fun x => { x with scpErr := satInc 16 x.scpErr, portState := 3 }) 0x0312 n
    (le 1 failure ++ le 1 addr ++ le 2 reg ++ le 1 (b2n firmware))
  rw [State.scpFault, sensor_of_sensors hsensors, State.updSensor_sensor_self _ _ _ hn]

theorem execScpWaitTimeout_eq {n : Nat} {x : Nanos} {rest : List (Cmd × Nanos)} (hwait : (s.sensor n).scpWait = (c, x) :: rest) :
    exec (.scpWaitTimeout n) s = .next (if x + ms 10 ≤ s.now then
      ((s.updSensor n fun x => { x with scpWait := rest }).fail c stBusy).sweepList (s.rungAfter c) else s) := by
  simp only [exec, execScpWaitTimeout, hwait, decide_eq_true_eq]

end

/-- Taking a command takes no time (assumption 1). -/
theorem taken_now (s : State) (b : Mbox) : (s.taken b).now = s.now := by
  simp [State.now, State.taken]

/-- Settles O38: each command by its transfer after the shared checks, the 10 ms on both sides of the boundary. That a transfer on a
port that is off waits is the choice of log entry 35. -/
theorem controlPortTransfers : Obligations.ControlPortTransfers := by
  refine ⟨fun b f e s => ?command, fun n c x rest s hwait => ⟨fun hdue => ?due, fun hearly => ?early⟩⟩
  case command =>
    intro t c p n addr hn he hmode haddr hmin hmax
    have hfits : ScpFits t c := ⟨hn, ⟨e, he, hmode⟩, haddr, hmin, hmax⟩
    have hopen : t.scpHitsLock c = false → ¬ (true = true ∧ t.scpHitsLock c = true) := by simp
    have hruns (hstarts : f.starts = true) (hport : (t.sensor n).portState ≠ 0) :
        ¬ (f.starts = false ∨ (t.sensor n).portState = 0) := by simp [hstarts, hport]
    refine ⟨fun hwaits => ⟨fun h => ?_, fun h hlock => ?_⟩,
      fun hstarts hport => ⟨fun h hacked => ?_, fun h hacked _ hlock => ?_, fun h _ hlock => ?_, fun h hfails hnack => ?_⟩⟩
    · exact take_next h ((scpTransfer_waits hfits (by simp) hwaits).trans (by rw [taken_now]))
    · exact take_next h ((scpTransfer_waits hfits (hopen hlock) hwaits).trans (by rw [taken_now]))
    · exact take_next h (scpTransfer_read_acknowledged hfits (hruns hstarts hport) hacked)
    · exact take_next h (scpTransfer_write_acknowledged hfits (hruns hstarts hport) hlock hacked)
    · exact take_next h (scpTransfer_locked hfits hlock)
    · refine ⟨_, take_next h (scpTransfer_read_fails hfits (hruns hstarts hport) hfails hnack), scpFault_ctxs _ _ _ _ _,
        fun hlen => ?_⟩
      rw [scpFault_sensor_self hlen]
      exact ⟨rfl, rfl⟩
  case due => exact (execScpWaitTimeout_eq hwait).trans (congrArg Host.Outcome.next (if_pos hdue))
  case early => exact (execScpWaitTimeout_eq hwait).trans (congrArg Host.Outcome.next (if_neg (Nat.not_le.mpr hearly)))

end Sys2Proof.Machine

/-! SUPPORT. Open frames of a sensor's virtual channels (R272): what leaves them alone, and what closing one leaves. -/

namespace Sys2Proof.Machine

open Sys2Proof

/-! ## Open frames -/

theorem openAt_of_sensors {s t : State} (h : t.sensors = s.sensors) (sensor vc : Nat) :
    t.openAt sensor vc = s.openAt sensor vc := by
  rw [State.openAt, State.openAt, sensor_of_sensors h]

/-- A change of a sensor that is none of its open frames leaves every open frame. -/
theorem updSensor_openAt {f : Sensor → Sensor} (hf : ∀ x, (f x).openFrames = x.openFrames) (s : State) (n sensor vc : Nat) :
    (s.updSensor n f).openAt sensor vc = s.openAt sensor vc :=
  congrArg (List.find? fun o : OpenFrame => o.vc == vc) (upd_getD_keep Sensor.openFrames hf s.sensors n sensor Sensor.reset)

/-! ## Closing a frame -/

@[simp] theorem refusing_keepsCore (s : State) (c : Nat) (flagged : Bool) (seq : BitVec 32) :
    KeepsCore s (s.refusing c flagged seq) := by
  simp [State.refusing, State.raiseLimited]

@[simp] theorem freeze_keepsCore (s : State) (c : Nat) : KeepsCore s (s.freeze c) := by
  simp [State.freeze]

@[simp] theorem snapDone_keepsCore (s : State) (c : Nat) : KeepsCore s (s.snapDone c) := by
  simp [State.snapDone]

@[simp] theorem storeRow_keepsCore (s : State) (master addr w d row : Nat) (bytes : List Byte) :
    KeepsCore s (s.storeRow master addr w d row bytes) := by
  simp [State.storeRow]

@[simp] theorem countLanded_keepsCore (s : State) (n : Nat) : KeepsCore s (s.countLanded n) := by
  simp [State.countLanded]

@[simp] theorem landBand_keepsCore (s : State) (master : Nat) (f : Frame) (b : Nat) : KeepsCore s (s.landBand master f b) := by
  simp [State.landBand]

@[simp] theorem addFlicker_keepsCore (s : State) (c : Nat) (q : BitVec 32) (gen form tNum tDen tRef : Nat)
    (first : BitVec 32) (tap : FlickTap) (fk : List Byte) :
    KeepsCore s (s.addFlicker c q gen form tNum tDen tRef first tap fk) := by
  simp [State.addFlicker]

@[simp] theorem rowProfile_keepsCore (s : State) (c : Nat) (f : Frame) (fk core : List Byte) :
    KeepsCore s (s.rowProfile c f fk core) := by
  simp [State.rowProfile]

@[simp] theorem seriesSample_keepsCore (s : State) (c : Nat) (f : Frame) (fk core : List Byte) :
    KeepsCore s (s.seriesSample c f fk core) := by
  simp [State.seriesSample]

@[simp] theorem landedSteep_keepsCore (s : State) (c : Nat) (q : BitVec 32) : KeepsCore s (s.landedSteep c q) := by
  unfold State.landedSteep
  split
  · simp
  · split <;> simp

@[simp] theorem probationLanded_keepsCore (s : State) (c opened : Nat) : KeepsCore s (s.probationLanded c opened) := by
  simp [State.probationLanded]

@[simp] theorem closeRecord_keepsCore (s : State) (o : OpenFrame) (q w : BitVec 32) (cause : Nat) :
    KeepsCore s (s.closeRecord o q w cause) := by
  unfold State.closeRecord
  dsimp only
  split <;> simp [State.raiseLimited, State.fenceDone]

theorem closeRecord_sensors (s : State) (o : OpenFrame) (q w : BitVec 32) (cause : Nat) :
    (s.closeRecord o q w cause).sensors = s.sensors := by
  simp

theorem updOpen_sensors_length (s : State) (sensor vc : Nat) (f : OpenFrame → OpenFrame) :
    (s.updOpen sensor vc f).sensors.length = s.sensors.length := upd_length _ _ _

/-- A row marks its open frame, and what it stores touches no sensor. -/
theorem fillRow_sensors_length (s : State) (sensor vc row : Nat) (bytes : List Byte) (asPad : Bool) :
    (s.fillRow sensor vc row bytes asPad).sensors.length = s.sensors.length := by
  have hlen (c : Prop) [Decidable c] (l k : List Sensor) : (if c then l else k).length = if c then l.length else k.length :=
    apply_ite ..
  unfold State.fillRow
  dsimp only
  split
  · rfl
  · split
    · simp [hlen, updOpen_sensors_length]
    · split <;> simp [hlen, updOpen_sensors_length]

theorem closeFrame_openAt {s : State} {sensor : Nat} (hsensor : sensor < s.sensors.length) (vc cause : Nat) :
    (s.closeFrame sensor vc cause).openAt sensor vc = none := by
  unfold State.closeFrame
  split
  next hnone => exact hnone
  next o ho =>
    extract_lets h missing w row padded closed
    have hlen : sensor < padded.sensors.length := by
      have := each_proj (π := fun t => t.sensors.length)
        (fun r t => fillRow_sensors_length t sensor vc r row true) missing s
      exact this ▸ hsensor
    have hclosed : closed.openAt sensor vc = none := by
      rw [State.openAt, State.updSensor_sensor_self _ _ _ hlen]
      simp
    clear_value closed
    split
    · rw [openAt_of_sensors (closeRecord_sensors _ _ _ _ _), hclosed]
    · exact hclosed

/-! ## The ends of frames -/

theorem next_settle {t u : State} (h : t = u) :
    (.next t.settle : Host.Outcome State Fault Refusal) = .next u.settle := by
  rw [h]

section

variable {s : State} {n vc : Nat} {k : Word} {o : OpenFrame} (hdelivers : s.delivers n = true)
  (hctx : (s.ctxAt (s.shroud n).sensorOf vc).isSome = true)

include hdelivers hctx

theorem fe_unopened (hopen : s.openAt (s.shroud n).sensorOf vc = none) : s.fe n vc k = s.stray (s.shroud n).sensorOf := by
  simp [State.fe, hdelivers, Option.isSome_iff_ne_none.mp hctx, hopen]

/-- An FE that carries the number of a closed frame and not the open one's is that frame's (R272). -/
theorem fe_of_closed (hopen : s.openAt (s.shroud n).sensorOf vc = some o) (hnumber : o.number ≠ k)
    (hclosed : (s.sensor (s.shroud n).sensorOf).lastClosed.contains (vc, k) = true) :
    s.fe n vc k = s.stray (s.shroud n).sensorOf := by
  have hother : (k != o.number) = true := bne_iff_ne.mpr hnumber.symm
  simp [State.fe, hdelivers, Option.isSome_iff_ne_none.mp hctx, hopen, List.contains_iff_mem.mp hclosed, hother]

/-- The last shroud of the bond closes the frame (R271, R272). -/
theorem fe_last (hopen : s.openAt (s.shroud n).sensorOf vc = some o) (hnumber : o.number = k)
    (hfirst : o.feFrom.contains n = false) (hfs : o.fsFrom.contains n = true)
    (hlast : (s.shroudsOf (s.shroud n).sensorOf).all (fun m => m == n || o.feFrom.contains m) = true) : s.fe n vc k =
      (s.updOpen (s.shroud n).sensorOf vc fun o => { o with feFrom := o.feFrom ++ [n] }).closeFrame (s.shroud n).sensorOf vc 0 := by
  have hsame : (k != o.number) = false := by rw [hnumber, bne_self_eq_false]
  have hall : ((s.updOpen (s.shroud n).sensorOf vc fun o => { o with feFrom := o.feFrom ++ [n] }).shroudsOf
      (s.shroud n).sensorOf).all (fun m => m == n || o.feFrom.contains m) = true := hlast
  simp only [State.fe, hdelivers, Option.isNone_iff_eq_none, Option.isSome_iff_ne_none.mp hctx, hopen, hfirst, hfs, hsame, hall,
    Bool.not_true, Bool.or_false, Bool.and_false, Bool.false_eq_true, if_false, if_true]

end

/-! ## The frame timeout -/

section

variable {s : State} {c : Nat} {link : List Byte} {o : OpenFrame} (hlink : s.link c = some link)
  (hopen : s.openAt (fld link 0 1) (fld link 1 1) = some o)

include hlink hopen

theorem frameOverdue_eq : s.frameOverdue c =
    decide (o.openTbm + us (if fld o.link 12 4 = 0 then 100000 else fld o.link 12 4) ≤ s.now) := by
  simp only [State.frameOverdue, hlink, hopen]

theorem frameTimeout_own (hctx : o.ctx = c) (cause : Nat) :
    s.frameTimeout c cause = s.closeFrame (fld link 0 1) (fld link 1 1) cause := by
  simp only [State.frameTimeout, hlink, hopen, hctx, if_true]

end

/-- Settles O40: an FE by the case it falls into, the timeout on both sides of its boundary, a closing by the frame that it takes
away. That an FE with the number of a closed frame is that frame's is the reading of log entry 36. -/
theorem frameEndCloses : Obligations.FrameEndCloses := by
  refine ⟨fun n vc k s hdelivers => ?ends, fun c link o s hlink hopen hctx => ?timeout,
    fun sensor vc cause s hsensor => closeFrame_openAt hsensor vc cause⟩
  case ends =>
    intro sensor hctx
    exact ⟨fun hopen => next_settle (fe_unopened hdelivers hctx hopen),
      fun o hopen hnumber hfirst hfs hlast =>
        next_settle (fe_last hdelivers hctx hopen hnumber hfirst hfs hlast),
      fun o hopen hnumber hclosed =>
        next_settle (fe_of_closed hdelivers hctx hopen hnumber hclosed)⟩
  case timeout =>
    intro limit
    have hus : us (if fld o.link 12 4 = 0 then 100000 else fld o.link 12 4) = limit := Nat.mul_comm _ _
    have hoverdue : s.frameOverdue c = decide (o.openTbm + limit ≤ s.now) := hus ▸ frameOverdue_eq hlink hopen
    refine ⟨fun hdue => ?_, fun hearly => ?_⟩
    · rw [decide_eq_true hdue] at hoverdue
      exact congrArg Host.Outcome.next ((if_pos hoverdue).trans (congrArg State.settle (frameTimeout_own hlink hopen hctx 2)))
    · rw [decide_eq_false (Nat.not_le.mpr hearly)] at hoverdue
      exact congrArg Host.Outcome.next (if_neg (by simp [hoverdue]))

end Sys2Proof.Machine

/-! SUPPORT. FS packets (R272) and the records of frames that open (R298, R310). -/

namespace Sys2Proof.Machine

open Sys2Proof

/-! ## FS packets -/

section

variable {s : State} {n vc c : Nat} {k : Word} {o : OpenFrame} (hdelivers : s.delivers n = true)

theorem fsCloses_unopened
    (hnone : s.ctxAt (s.shroud n).sensorOf vc = none ∨ s.openAt (s.shroud n).sensorOf vc = none) : s.fsCloses n vc k = s := by
  unfold State.fsCloses
  rcases hnone with hctx | hopen
  · simp [hctx]
  · simp [hopen]

theorem lastFs_openAt (sensor : Nat) :
    (s.updSensor sensor fun x => { x with lastFs := k }).openAt sensor vc = s.openAt sensor vc :=
  updSensor_openAt (f := fun x => { x with lastFs := k }) (fun _ => rfl) s sensor sensor vc

include hdelivers

theorem fs_unbound (hctx : s.ctxAt (s.shroud n).sensorOf vc = none) : s.fs n vc k = s.unbound (s.shroud n).sensorOf := by
  simp [State.fs, hdelivers, hctx]

variable (hctx : s.ctxAt (s.shroud n).sensorOf vc = some c)

include hctx

theorem fsCloses_eq (hopen : s.openAt (s.shroud n).sensorOf vc = some o) :
    s.fsCloses n vc k = if o.owns n k then s else s.closeFrame (s.shroud n).sensorOf vc 1 := by
  simp [State.fsCloses, hdelivers, hctx, hopen]

theorem fs_opens (hopen : s.openAt (s.shroud n).sensorOf vc = none) : s.fs n vc k =
    (s.updSensor (s.shroud n).sensorOf fun x => { x with lastFs := k }).openFrame (s.shroud n).sensorOf vc n k c := by
  simp only [State.fs, hdelivers, hctx, lastFs_openAt, hopen, Bool.not_true, Bool.false_eq_true, if_false]

theorem fs_joins (hopen : s.openAt (s.shroud n).sensorOf vc = some o) : s.fs n vc k =
    (s.updSensor (s.shroud n).sensorOf fun x => { x with lastFs := k }).updOpen (s.shroud n).sensorOf vc
      fun o => { o with fsFrom := o.fsFrom ++ [n] } := by
  simp only [State.fs, hdelivers, hctx, lastFs_openAt, hopen, Bool.not_true, Bool.false_eq_true, if_false]

end

/-! ## Records of frames that open -/

/-- A context once the lander has taken a slot for its next frame. -/
def Context.slotTaken (x : Context) (k : Nat) : Context :=
  { x with frames := x.frames.filter (fun f => !x.inSlot k f), lastSlot := some k, slotsWritten := x.slotsWritten + 1,
           wrapped := x.wrapped || decide (x.slotCount ≤ x.slotsWritten + 1) }

/-- A context whose next landing sequence has been given away, in STREAM or BURST (R309, R320). -/
def Context.seqTaken (x : Context) : Context := { x with nextSeq := x.nextSeq + 1, counts := upd x.counts 0 (· + 1) }

/-- A context with the record of one more frame. -/
def Context.withFrame (x : Context) (f : Frame) : Context := { x with frames := x.frames ++ [f] }

/-- A context that has refused the frame f at its FS (R298, R313, R320). -/
def Context.refused (x : Context) (f : Frame) : Context :=
  { x.seqTaken with refusalLog := (f :: x.refusalLog).take 256, counts := upd x.seqTaken.counts 2 (· + 1) }

/-- The frames and counters of a context are as before. -/
def Context.SameFrames (x y : Context) : Prop :=
  y.nextSeq = x.nextSeq ∧ y.frames = x.frames ∧ y.counts = x.counts ∧ y.refusalLog = x.refusalLog

theorem ctx_of_ctxs {s t : State} (h : t.ctxs = s.ctxs) (c : Nat) : t.ctx c = s.ctx c := by
  simp only [State.ctx, h]

theorem probationFail_idle {s : State} (h : s.cfg.probation = none) (row c : Nat) : s.probationFail row c = s := by
  simp only [State.probationFail, h]

theorem refusing_cfg (s : State) (c : Nat) (flagged : Bool) (q : BitVec 32) : (s.refusing c flagged q).cfg = s.cfg := by
  simp [State.refusing, State.raiseLimited]

section

variable {s : State} {c k : Nat} {number : BitVec 32} {g : Bool}

theorem takeSlot_ctx (hc : c < s.ctxs.length) (k : Nat) : (s.takeSlot c k).ctx c = (s.ctx c).slotTaken k :=
  State.updCtx_ctx_self _ _ _ hc

/-- What CAP_REFUSING reports is in fields of its own (R325). -/
theorem refusing_sameFrames (hc : c < s.ctxs.length) (flagged : Bool) (q : BitVec 32) :
    (s.ctx c).SameFrames ((s.refusing c flagged q).ctx c) := by
  unfold State.refusing
  extract_lets t x
  have ht : (s.ctx c).SameFrames (t.ctx c) := by
    rw [State.updCtx_ctx_self _ _ _ hc]
    exact ⟨rfl, rfl, rfl, rfl⟩
  have hlen : t.ctxs.length = s.ctxs.length := upd_length _ _ _
  clear_value t
  unfold State.raiseLimited
  split
  · have hraise (code src : Nat) (body : List Byte) : (t.raise code src body).ctxs = t.ctxs := by simp
    rw [State.updCtx_ctx_self _ _ _ (by rwa [hraise, hlen]), ctx_of_ctxs (hraise _ _ _)]
    exact ht
  · exact ht

theorem chooseSlot_free (hslot : (s.ctx c).streamSlot = some k) : s.chooseSlot c 0 = (some k, s.takeSlot c k) := by
  simp [State.chooseSlot, hslot]

theorem chooseSlot_full (hslot : (s.ctx c).streamSlot = none) : s.chooseSlot c 0 = (none, s) := by
  simp [State.chooseSlot, hslot]

theorem newFrame_takeSlot_seq (hc : c < s.ctxs.length) :
    ((s.takeSlot c k).newFrame c number (some k) g).seq = (s.ctx c).nextSeq := by
  change ((s.takeSlot c k).ctx c).nextSeq = _
  rw [takeSlot_ctx hc]
  rfl

/-- The record gives the bytes of its slot (R296, R310). -/
theorem newFrame_takeSlot_addr (hc : c < s.ctxs.length) :
    ((s.takeSlot c k).newFrame c number (some k) g).addr = (s.ctx c).ringBase + k * (s.ctx c).slotSize := by
  change ((s.takeSlot c k).ctx c).slotAddr k = _
  rw [takeSlot_ctx hc]
  rfl

/-- A frame of a STREAM context that finds a slot takes the next sequence, and its record goes behind the others (R298, R309). -/
theorem openRecord_lands (hc : c < s.ctxs.length) (hmode : s.landMode c = 0) (hslot : (s.ctx c).streamSlot = some k)
    (htrig : (s.ctx c).trigWait = none) : ∃ t, s.openRecord c number g = ((s.ctx c).nextSeq, true, t) ∧
      t.ctx c = ((s.ctx c).slotTaken k).seqTaken.withFrame ((s.takeSlot c k).newFrame c number (some k) g) := by
  have hchosen : s.chooseSlot c (s.landMode c) = (some k, s.takeSlot c k) := hmode ▸ chooseSlot_free hslot
  unfold State.openRecord
  extract_lets mode
  rw [hchosen]
  dsimp -zeta only
  extract_lets f counted recorded t
  have hstream : mode = 0 := hmode
  have hlen : c < (s.takeSlot c k).ctxs.length := lt_of_lt_of_eq hc (upd_length _ _ _).symm
  have hcounted : counted.ctx c = ((s.ctx c).slotTaken k).seqTaken := by
    rw [State.updCtx_ctx_self _ _ _ hlen, takeSlot_ctx hc]
    simp [hstream, Context.seqTaken]
  have hrecorded : recorded.ctx c = ((s.ctx c).slotTaken k).seqTaken.withFrame f := by
    rw [State.updCtx_ctx_self _ _ _ (lt_of_lt_of_eq hlen (upd_length _ _ _).symm), hcounted]
    rfl
  have hwait : (recorded.ctx c).trigWait = none := (congrArg Context.trigWait hrecorded).trans htrig
  have ht : t = recorded := by simp only [t, hwait]
  have hseq : f.seq = (s.ctx c).nextSeq := newFrame_takeSlot_seq hc
  exact ⟨t, by rw [hseq], by rw [ht, hrecorded]⟩

/-- Without a free slot it takes its sequence too, and is refused (R298, R313). -/
theorem openRecord_refuses (hc : c < s.ctxs.length) (hmode : s.landMode c = 0) (hslot : (s.ctx c).streamSlot = none)
    (hprobation : s.cfg.probation = none) : ∃ t, s.openRecord c number g = ((s.ctx c).nextSeq, false, t) ∧
      ((s.ctx c).refused (s.newFrame c number none g)).SameFrames (t.ctx c) := by
  have hchosen : s.chooseSlot c (s.landMode c) = (none, s) := hmode ▸ chooseSlot_full hslot
  unfold State.openRecord
  extract_lets mode
  rw [hchosen]
  dsimp -zeta only
  extract_lets f counted logged
  have hstream : mode = 0 := hmode
  have hcounted : counted.ctx c = (s.ctx c).seqTaken := by
    rw [State.updCtx_ctx_self _ _ _ hc]
    simp [hstream, Context.seqTaken]
  have hlen : c < counted.ctxs.length := lt_of_lt_of_eq hc (upd_length _ _ _).symm
  have hlogged : logged.ctx c = (s.ctx c).refused (s.newFrame c number none g) := by
    rw [State.updCtx_ctx_self _ _ _ hlen, hcounted]
    rfl
  have hidle : (logged.refusing c false f.seq).cfg.probation = none := by
    rw [refusing_cfg]
    exact hprobation
  rw [probationFail_idle hidle]
  exact ⟨_, rfl, hlogged ▸ refusing_sameFrames (lt_of_lt_of_eq hlen (upd_length _ _ _).symm) false _⟩

end

/-- Settles O39: the packet by the case it falls into, a record by its slot. That the closing of the frame before, and what follows
from it, come first is the reading of log entry 30. -/
theorem framesOpen : Obligations.FramesOpen := by
  refine ⟨fun n vc k s => ⟨rfl, fun hdelivers => ?packet⟩, fun c number g s hc htrig hmode hprobation hcounts =>
    ⟨fun k hslot => ?lands, fun hslot => ?refuses⟩⟩
  case packet =>
    refine ⟨fsCloses_unopened, fun c o hctx hopen => ⟨fun hnumber hfirst => ?owned, fun hother => ?closed⟩, fs_unbound hdelivers,
      fun c => fs_opens hdelivers, fun c o => fs_joins hdelivers⟩
    case owned =>
      rw [fsCloses_eq hdelivers hctx hopen, if_pos (by rw [OpenFrame.owns, hnumber, beq_self_eq_true, hfirst]; rfl)]
    case closed =>
      rw [fsCloses_eq hdelivers hctx hopen, if_neg]
      rcases hother with hnumber | hagain
      · simp [OpenFrame.owns, hnumber]
      · rw [OpenFrame.owns, hagain, Bool.not_true, Bool.and_false]
        exact Bool.false_ne_true
  case lands =>
    obtain ⟨t, heq, ht⟩ := openRecord_lands (number := number) (g := g) hc hmode hslot htrig
    rw [heq]
    dsimp only
    rw [ht]
    have hlen : 0 < (s.ctx c).counts.length := by rw [hcounts]; decide
    exact ⟨rfl, rfl, rfl, rfl, upd_getD_self 0 hlen, _, List.getLast?_concat, newFrame_takeSlot_seq hc, rfl, rfl, rfl,
      newFrame_takeSlot_addr hc, rfl, rfl⟩
  case refuses =>
    obtain ⟨t, heq, hseq, hframes, hcount, hlog⟩ := openRecord_refuses (number := number) (g := g) hc hmode hslot hprobation
    rw [heq]
    dsimp only
    rw [hseq, hframes, hcount, hlog]
    refine ⟨rfl, rfl, rfl, rfl, ?_, _, rfl, rfl, rfl, rfl, rfl⟩
    have hlen : 2 < (s.ctx c).seqTaken.counts.length := by
      rw [Context.seqTaken, upd_length, hcounts]
      decide
    exact (upd_getD_self 0 hlen).trans (congrArg (· + 1) (upd_getD_of_ne 0 (by decide)))

end Sys2Proof.Machine

/-! SUPPORT. Packets of the sensor link (R267–R274): where each goes, and what each counts. -/

namespace Sys2Proof.Machine

open Sys2Proof

theorem raise_sensors (s : State) (code src : Nat) (body : List Byte) : (s.raise code src body).sensors = s.sensors := by
  simp

section

variable {s : State} {n c : Nat} {p : LongPacket} {o : OpenFrame}

theorem checkPayload_good (hgood : LongPacketBad p = false) (sensor : Nat) (line : Bool) : s.checkPayload sensor p line = s :=
  if_pos (by rw [hgood]; rfl)

theorem markerLine_openAt (sensor shroud vc : Nat) : (s.markerLine sensor shroud p).openAt sensor vc = s.openAt sensor vc := by
  refine updSensor_openAt (fun x => ?_) s sensor sensor vc
  rfl

/-! ## Long packets -/

section

variable (hdelivers : s.delivers n = true) (hgood : LongPacketBad p = false)
  (hctx : s.ctxAt (s.shroud n).sensorOf p.vc = some c)

include hdelivers hgood hctx

section

variable (htype : fld ((s.link c).getD []) 2 1 = p.dataType)

include htype

theorem line_placed (hopen : s.openAt (s.shroud n).sensorOf p.vc = some o) :
    s.line n p = (s.markerLine (s.shroud n).sensorOf n p).placeLine (s.shroud n).sensorOf n p o := by
  simp [State.line, hdelivers, checkPayload_good hgood, hctx, htype, markerLine_openAt, hopen]

theorem line_unopened (hopen : s.openAt (s.shroud n).sensorOf p.vc = none) :
    s.line n p = (s.markerLine (s.shroud n).sensorOf n p).noFrame (s.shroud n).sensorOf := by
  simp [State.line, hdelivers, checkPayload_good hgood, hctx, htype, markerLine_openAt, hopen]

end

/-- EMBEDDED and USER packets that the context takes (R269, R272). -/
theorem data_placed {user : Bool} (htakes : bit (fld ((s.link c).getD []) 3 1) (b2n user) = true)
    (hopen : s.openAt (s.shroud n).sensorOf p.vc = some o) :
    s.data n p user = s.placeEmbedded (s.shroud n).sensorOf p.vc o p.payload user := by
  simp [State.data, hdelivers, checkPayload_good hgood, hctx, htakes, hopen]

end

/-! ## Errors of packets -/

theorem badHead_uncut (hdelivers : s.delivers n = true) : s.badHead n none =
    s.updSensor (s.shroud n).sensorOf fun x => { x with badHead := satInc 8 x.badHead } :=
  if_neg (by simp [hdelivers])

theorem hdrCrc_uncut (hdelivers : s.delivers n = true) : s.hdrCrc n none =
    (s.updSensor (s.shroud n).sensorOf fun x => { x with hdrCrc := satInc 16 x.hdrCrc }).flagAll (s.shroud n).sensorOf
      lfHeaderLost :=
  if_neg (by simp [hdelivers])

/-! ## Markers and status -/

variable {vc line : Nat} {v : Word}

/-- The marker or line y is of virtual channel vc on shroud n (R274). -/
def markOf (n vc : Nat) (y : Nat × Nat × Nat) : Bool := y.1 == n && y.2.1 == vc

/-- LS waits for the line that follows it on its shroud and virtual channel. -/
def Sensor.lineStarts (x : Sensor) (n vc line : Nat) : Sensor :=
  { x with lsPending := (n, vc, line) :: x.lsPending.filter (fun y => !markOf n vc y) }

/-- LE is held against the line before it. -/
def Sensor.lineEnds (x : Sensor) (n vc line : Nat) : Sensor :=
  { x with marker := if x.lastLine.any (fun y => markOf n vc y && y.2.2 != line) then satInc 16 x.marker else x.marker,
           lastLine := x.lastLine.filter (fun y => !markOf n vc y) }

section

variable (hdelivers : s.delivers n = true) (hctx : s.ctxAt (s.shroud n).sensorOf vc = some c)

include hdelivers hctx

theorem mark_start : s.mark n vc line true = s.updSensor (s.shroud n).sensorOf (·.lineStarts n vc line) := by
  simp only [State.mark, hdelivers, hctx, Bool.not_true, Option.isNone_some, Bool.false_eq_true, if_false, if_true]
  rfl

theorem mark_end : s.mark n vc line false = s.updSensor (s.shroud n).sensorOf (·.lineEnds n vc line) := by
  simp only [State.mark, hdelivers, hctx, Bool.not_true, Option.isNone_some, Bool.false_eq_true, if_false]
  rfl

/-- The value of a STAT packet stands in its sensor, whether its event is raised or held back (R290). -/
theorem stat_lastStat (hsensor : (s.shroud n).sensorOf < s.sensors.length) :
    ((s.stat n vc v).sensor (s.shroud n).sensorOf).lastStat = v := by
  have hlast : ((s.updSensor (s.shroud n).sensorOf fun x => { x with lastStat := v }).sensor (s.shroud n).sensorOf).lastStat = v := by
    rw [State.updSensor_sensor_self _ _ _ hsensor]
  simp only [State.stat, hdelivers, hctx, Bool.not_true, Bool.false_eq_true, if_false, Option.isNone_some]
  split
  · rw [sensor_of_sensors (raise_sensors _ _ _ _),
      State.updSensor_sensor_self _ _ _ (lt_of_lt_of_eq hsensor (upd_length _ _ _).symm)]
    exact hlast
  · exact hlast

end

theorem stat_ctxs : (s.stat n vc v).ctxs = s.ctxs := by
  simp [State.stat, State.unbound]

theorem stat_mem : (s.stat n vc v).mem = s.mem := (stat_undisturbed s n vc v).2

end

/-- Settles O41: each packet by its one branch. That LS and LE pair with the line that follows on their shroud and channel is the
reading of log entry 30; ORPHAN counts in 32 bits and wraps. -/
theorem packetsArePlacedOrCounted : Obligations.PacketsArePlacedOrCounted := by
  refine ⟨fun n c p s hdelivers hgood => ?long, fun n s hdelivers => ?short⟩
  case long =>
    intro sensor hctx
    exact ⟨fun htype => ⟨fun o hopen => next_settle (line_placed hdelivers hgood hctx htype hopen),
        fun hopen => next_settle (line_unopened hdelivers hgood hctx htype hopen)⟩,
      fun o htakes hopen => next_settle (data_placed hdelivers hgood hctx htakes hopen),
      fun o htakes hopen => next_settle (data_placed hdelivers hgood hctx htakes hopen)⟩
  case short =>
    refine ⟨congrArg Host.Outcome.next (if_pos hdelivers), congrArg Host.Outcome.next (if_pos hdelivers),
      next_settle (badHead_uncut hdelivers), next_settle (hdrCrc_uncut hdelivers),
      fun vc line c hctx => ⟨?starts, ?ends⟩, fun vc v c hctx hsensor =>
        ⟨_, rfl, stat_lastStat hdelivers hctx hsensor, stat_ctxs, stat_mem⟩⟩
    case starts =>
      refine ⟨_, congrArg Host.Outcome.next (mark_start hdelivers hctx), rfl, fun hsensor => ?_⟩
      rw [State.updSensor_sensor_self _ _ _ hsensor]
      rfl
    case ends =>
      refine ⟨_, congrArg Host.Outcome.next (mark_end hdelivers hctx), rfl, fun hsensor => ?_⟩
      rw [State.updSensor_sensor_self _ _ _ hsensor]
      rfl

end Sys2Proof.Machine

/-! SUPPORT. CAP_START, CAP_STOP, CAP_TRIGGER and CAP_SNAP (R294, R302, R305, R323): what each does once its checks have passed. -/

namespace Sys2Proof.Machine

open Sys2Proof

/-! ## Pending starts and stops -/

theorem upd_congr {α : Type} {l : List α} {i : Nat} {f g : α → α} (d : α) (h : f (l.getD i d) = g (l.getD i d)) :
    upd l i f = upd l i g := by
  refine List.ext_getElem (by simp [upd]) fun j hj _ => ?_
  have hlen : j < l.length := upd_length l i f ▸ hj
  by_cases hi : i = j
  · subst hi
    rw [List.getD_eq_getElem _ _ hlen] at h
    simp [upd, h]
  · simp [upd, hi]

/-- A change of a context counts only by what it makes of that context as it is. -/
theorem updCtx_congr {s : State} {k : Nat} {f g : Context → Context} (h : f (s.ctx k) = g (s.ctx k)) :
    s.updCtx k f = s.updCtx k g := by
  rw [State.updCtx, upd_congr Context.reset h, State.updCtx]

section

variable {c : Cmd} {s : State} {k : Nat}

theorem capStartBody_starts (hmask : s.maskCtxs c.payload = some [k]) (hst : (s.ctx k).st = .stopped)
    (hstop : (s.ctx k).stopPending = false) :
    capStartBody c s = (s.updCtx k fun x => { x with startPending := true }).ok c [] := by
  have hthawed : ([k].any fun j => (s.ctx j).st == .frozen) = false := by simp [hst]
  simp only [capStartBody, hmask, hthawed, each_cons, each_nil, Bool.false_eq_true, if_false]
  rw [updCtx_congr (g := fun x => { x with startPending := true }) (by simp [hst, hstop])]

theorem capStartBody_frozen {ks : List Nat} (hmask : s.maskCtxs c.payload = some ks)
    (hfrozen : ∃ k ∈ ks, (s.ctx k).st = .frozen) : capStartBody c s = s.fail c stBusy := by
  have hany : (ks.any fun j => (s.ctx j).st == .frozen) = true := by simpa using hfrozen
  simp only [capStartBody, hmask, hany, if_true]

theorem capStopBody_stops (hmask : s.maskCtxs c.payload = some [k]) (hst : (s.ctx k).st = .running)
    (hstart : (s.ctx k).startPending = false) :
    capStopBody c s = (s.updCtx k fun x => { x with stopPending := true }).ok c [] := by
  simp only [capStopBody, hmask, each_cons, each_nil]
  rw [updCtx_congr (g := fun x => { x with stopPending := true }) (by simp [hst, hstart])]

/-! ## Triggers and snaps -/

theorem capTriggerBody_triggers {ks : List Nat} (hmask : s.maskCtxs c.payload = some ks) : capTriggerBody c s =
    (s.triggerAll ks 0).2.ok c (le 8 (s.triggerAll ks 0).1 ++ le 8 ((s.triggerAll ks 0).2.now / 1000000000)) := by
  simp only [capTriggerBody, hmask]

theorem capSnapBody_begins (hland : s.hasLanding c.ctx = true) (hmode : s.landMode c.ctx = 2) (hmin : 1 ≤ fld c.payload 0 4)
    (hmax : fld c.payload 0 4 ≤ 65535) (hst : (s.ctx c.ctx).st = .running) (hsnap : (s.ctx c.ctx).snapOutstanding = false)
    (hfree : fld c.payload 0 4 ≤ (s.ctx c.ctx).freeSlots.length) : capSnapBody c s =
      (s.updCtx c.ctx fun x => { x with snapLeft := fld c.payload 0 4, snapOpen := 0, snapLanded := 0,
                                        snapFirst := x.nextSeq }).ok c [] := by
  simp [capSnapBody, hland, hmode, Nat.pos_iff_ne_zero.mp hmin, Nat.not_lt.mpr hmax, hst, hsnap, Nat.not_lt.mpr hfree]

end

/-- Settles O43, each command by its body after the shared checks. -/
theorem captureControl : Obligations.CaptureControl := by
  intro b s t c p
  refine ⟨fun k h hmask hst hpending => ?start, fun ks h hmask hfrozen => ?busy, fun k h hmask hst hpending => ?stop,
    fun ks h hmask => ?trigger, fun h hland hmode hmin hmax hst hsnap hfree => ?snap⟩
  case start =>
    exact ⟨_, take_next h (capStartBody_starts hmask hst hpending), rfl, State.updCtx_ctx_self _ _ _,
      fun j hj => State.updCtx_ctx_of_ne _ _ _ _ hj⟩
  case busy => exact take_next h (capStartBody_frozen hmask hfrozen)
  case stop =>
    exact ⟨_, take_next h (capStopBody_stops hmask hst hpending), rfl, State.updCtx_ctx_self _ _ _,
      fun j hj => State.updCtx_ctx_of_ne _ _ _ _ hj⟩
  case trigger => exact take_next h (capTriggerBody_triggers hmask)
  case snap => exact take_next h (capSnapBody_begins hland hmode hmin hmax hst hsnap hfree)

end Sys2Proof.Machine

/-! SUPPORT. Triggers of BURST contexts, TRIG_IN edges and freezing (R302–R304). -/

namespace Sys2Proof.Machine

open Sys2Proof

/-! ## The trigger frame -/

/-- A change of frames that tells those of the ring as it is laid out now how far from the trigger frame q they are (R304). -/
structure IndexesFrom (q : BitVec 32) (mark : Frame → Frame) : Prop where
  seq : ∀ f, (mark f).seq = f.seq
  mode : ∀ f, (mark f).mode = f.mode
  oldRing : ∀ f, (mark f).oldRing = f.oldRing
  trigIndex : ∀ f, f.mode = 1 → f.oldRing = false → (mark f).trigIndex = (f.seq - q).toInt

theorem IndexesFrom.map_seq {q : BitVec 32} {mark : Frame → Frame} (h : IndexesFrom q mark) (fs : List Frame) :
    (fs.map mark).map (·.seq) = fs.map (·.seq) := by
  rw [List.map_map]
  exact List.map_congr_left fun f _ => h.seq f

theorem IndexesFrom.trigIndex_of_mem {q : BitVec 32} {mark : Frame → Frame} (h : IndexesFrom q mark) {fs : List Frame} {g : Frame}
    (hg : g ∈ fs.map mark) (hmode : g.mode = 1) (hring : g.oldRing = false) : g.trigIndex = (g.seq - q).toInt := by
  obtain ⟨f, -, rfl⟩ := List.mem_map.mp hg
  rw [h.seq]
  exact h.trigIndex f (h.mode f ▸ hmode) (h.oldRing f ▸ hring)

/-- A context whose trigger frame is q, with p frames still to land after it (R303). -/
def Context.triggered (x : Context) (q : BitVec 32) (p : Nat) (mark : Frame → Frame) : Context :=
  { x with st := .postTrigger, trigSeq := some q, trigWait := none, postLeft := p + 1, frames := x.frames.map mark }

section

variable {s : State} {c source : Nat}

theorem raise_ctx (s : State) (code src : Nat) (body : List Byte) (c : Nat) : (s.raise code src body).ctx c = s.ctx c :=
  ctx_of_ctxs (by simp) c

theorem setTrigger_ctx (hc : c < s.ctxs.length) (q : BitVec 32) (t : Nanos) (source fsNs : Nat) : ∃ mark, IndexesFrom q mark ∧
    (s.setTrigger c q t source fsNs).ctx c = (s.ctx c).triggered q (fld (s.landBlock c) 8 4) mark := by
  unfold State.setTrigger
  extract_lets x p room earlier short mark u d
  refine ⟨mark, ⟨fun _ => rfl, fun _ => rfl, fun _ => rfl, fun f hmode hring => ?_⟩, ?_⟩
  · simp [mark, hmode, hring, Machine.trigIndex]
  · rw [raise_ctx]
    exact State.updCtx_ctx_self _ _ _ hc

/-! ## A trigger -/

section

variable (hmode : s.landMode c = 1) (hforce : (s.inForce 0x0203 c).isSome = true)

include hmode hforce

theorem trigger_open {f : Frame} (hst : (s.ctx c).st = .running) (hopen : (s.ctx c).frames.find? (fun f => f.state == 0) = some f) :
    s.trigger c source = (true, s.setTrigger c f.seq s.now source (f.fsTbm / 2 ^ 32)) := by
  simp [State.trigger, hmode, Option.isSome_iff_ne_none.mp hforce, hst, hopen]

/-- A context that is triggered already counts the trigger in CAP_COUNTERS (R302, R320). -/
theorem trigger_counted (hst : (s.ctx c).st = .postTrigger ∨ (s.ctx c).st = .frozen) :
    s.trigger c source = (false, s.updCtx c fun y => { y with counts := upd y.counts 6 (· + 1) }) := by
  rcases hst with hst | hst
  · simp [State.trigger, hmode, Option.isSome_iff_ne_none.mp hforce, hst]
  · simp [State.trigger, hmode, Option.isSome_iff_ne_none.mp hforce, hst]

end

/-! ## TRIG_IN -/

/-- The contexts whose landing block names a TRIG_IN pin and an edge of it. -/
def State.trigNamed (s : State) (pin : Nat) (rising : Bool) : List Nat :=
  (List.range 64).filter fun k =>
    fld (s.landBlock k) 2 1 == pin + 1 && (fld (s.landBlock k) 3 1 == 2 || fld (s.landBlock k) 3 1 == b2n (!rising))

theorem mem_trigNamed {pin k : Nat} {rising : Bool} : k ∈ s.trigNamed pin rising ↔
    k < 64 ∧ fld (s.landBlock k) 2 1 = pin + 1 ∧
      (fld (s.landBlock k) 3 1 = 2 ∨ fld (s.landBlock k) 3 1 = if rising then 0 else 1) := by
  have hedge : b2n (!rising) = if rising then 0 else 1 := by cases rising <;> rfl
  simp [State.trigNamed, hedge]

theorem trigEdge_held {pin hold : Nat} (hpin : pin < 4) (hheld : 20 ≤ hold) (rising : Bool) :
    s.trigEdge pin rising hold = (s.triggerAll (s.trigNamed pin rising) (pin + 1)).2 :=
  if_neg (by simp [hpin, hheld])

theorem trigEdge_short {hold : Nat} (hshort : hold < 20) (pin : Nat) (rising : Bool) : s.trigEdge pin rising hold = s :=
  if_pos (by simp [hshort])

theorem execTrigInEdge_running (hrun : s.running = true) (pin hold : Nat) (rising : Bool) :
    exec (.trigInEdge pin rising hold) s = .next (s.trigEdge pin rising hold).settle :=
  congrArg Host.Outcome.next (if_pos hrun)

/-! ## Freezing -/

/-- A frozen ring holds what it held (R303). -/
theorem freeze_ctx (hc : c < s.ctxs.length) : (s.freeze c).ctx c =
    { s.ctx c with st := .frozen, postLeft := 0, trigWait := none, drain := true } := by
  rw [State.freeze, raise_ctx]
  exact State.updCtx_ctx_self _ _ _ hc

end

/-- Settles O44: a trigger by the state of its context, an edge on both sides of the 20 ns, freezing by the context it leaves. -/
theorem triggersFreezeTheRing : Obligations.TriggersFreezeTheRing := by
  refine ⟨fun c source f s hc hmode hforce hst hopen => ?triggered, fun c source s => trigger_counted,
    fun pin hold rising s hrun hpin hheld => ?held, fun pin hold rising s hshort hrun => ?short, fun c s hc => ?frozen⟩
  case triggered =>
    intro r
    have hr : r = (true, s.setTrigger c f.seq s.now source (f.fsTbm / 2 ^ 32)) := trigger_open hmode hforce hst hopen
    obtain ⟨mark, hmark, hctx⟩ := setTrigger_ctx hc f.seq s.now source (f.fsTbm / 2 ^ 32)
    rw [hr, hctx]
    exact ⟨rfl, rfl, rfl, rfl, hmark.map_seq _, fun g hg => hmark.trigIndex_of_mem hg⟩
  case held =>
    exact ⟨_, (execTrigInEdge_running hrun _ _ _).trans (next_settle (trigEdge_held hpin hheld rising)), fun _ => mem_trigNamed⟩
  case short => exact (execTrigInEdge_running hrun _ _ _).trans (next_settle (trigEdge_short hshort _ _))
  case frozen =>
    rw [freeze_ctx hc]
    exact ⟨rfl, rfl, rfl⟩

end Sys2Proof.Machine

/-! SUPPORT. CAP_FRAME_RECORD, CAP_COUNTERS, CAP_RELEASE and CAP_READ (R306, R309, R310, R320, R323, R324). -/

namespace Sys2Proof.Machine

open Sys2Proof

section

variable {c : Cmd} {s : State} (hland : s.hasLanding c.ctx = true)

include hland

theorem capFrameRecordBody_answers (hmin : 1 ≤ fld c.payload 4 4) (hmax : fld c.payload 4 4 ≤ 127) : capFrameRecordBody c s =
    s.reply c 0 [] (some ((List.range (fld c.payload 4 4)).map (fun i =>
      (s.ctx c.ctx).recordBytes c.ctx (BitVec.ofNat 32 (fld c.payload 0 4) + BitVec.ofNat 32 i))).flatten) := by
  simp [capFrameRecordBody, hland, Nat.pos_iff_ne_zero.mp hmin, Nat.not_lt.mpr hmax, stOk]

theorem capCountersBody_answers : capCountersBody c s =
    s.reply c 0 [] (some (((s.ctx c.ctx).counts.map (fun v => le 4 v.toNat)).flatten)) :=
  if_neg (by simp [hland])

/-- The frames that CAP_RELEASE names: landed, in its range, and of a mode and state in which they may be released (R306). -/
def Context.releases (x : Context) (first n : Nat) (f : Frame) : Bool :=
  f.state == 1 && (n == 0xFFFFFFFF || decide ((f.seq - BitVec.ofNat 32 first).toNat < n)) &&
    (f.mode == 2 || (f.mode == 1 && x.st == .frozen))

theorem capReleaseBody_releases (hmin : 1 ≤ fld c.payload 4 4) : capReleaseBody c s =
    let hit := (s.ctx c.ctx).releases (fld c.payload 0 4) (fld c.payload 4 4)
    (s.updCtx c.ctx fun y => { y with frames := y.frames.map (fun f => if hit f then { f with state := 4 } else f) }).accept c c.ctx
      (fld c.payload 8 4 :: ((s.ctx c.ctx).frames.filter hit).map (fun f => f.seq.toNat)) := by
  have hknown : ¬ ((!s.hasLanding c.ctx) = true) := by simp [hland]
  exact (if_neg hknown).trans (if_neg (Nat.pos_iff_ne_zero.mp hmin))

/-- The operands of CAP_READ fit the frame f and the plan r of what is read of it (R324). -/
structure CapReadFits (s : State) (c : Cmd) (f : Frame) (r : ReadPlan) : Prop where
  record : (s.ctx c.ctx).record (BitVec.ofNat 32 (fld c.payload 0 4)) = some f
  kind : fld c.payload 4 1 ≤ 3
  buffer : fld c.payload 4 1 = 3 ∨ fld c.payload 5 1 = 0
  aligned : fld c.payload 16 8 % 64 = 0
  plan : s.readPlan f (fld c.payload 4 1) (fld c.payload 5 1) = some r
  least : 1 ≤ fld c.payload 12 4
  within : fld c.payload 8 4 + fld c.payload 12 4 ≤ r.total
  most : fld c.payload 12 4 * r.size ≤ 268435456

theorem capReadBody_holds {f : Frame} {r : ReadPlan} (hfits : CapReadFits s c f r) (hpolicy : bit s.policyFlags 3 = false)
    (hquiet : s.landMode c.ctx = 1 → (s.ctx c.ctx).st ≠ .running ∧ (s.ctx c.ctx).st ≠ .postTrigger)
    (hstate : f.state = 1 ∨ f.state = 4) : capReadBody c s =
      (s.accept c c.ctx [f.seq.toNat, fld c.payload 4 1, fld c.payload 5 1, fld c.payload 8 4, fld c.payload 12 4,
        fld c.payload 16 8]).holdRead c.ctx f.seq (fld c.payload 4 1) (fld c.payload 5 1) (· + 1) := by
  obtain ⟨hrecord, hkind, hbuffer, haligned, hplan, hleast, hwithin, hmost⟩ := hfits
  have hbuf : ¬ (fld c.payload 4 1 ≠ 3 ∧ fld c.payload 5 1 ≠ 0) := fun ⟨hk, hb⟩ => hbuffer.elim hk hb
  have hcalm : ¬ (s.landMode c.ctx = 1 ∧ ((s.ctx c.ctx).st = .running ∨ (s.ctx c.ctx).st = .postTrigger)) :=
    fun ⟨hburst, hbusy⟩ => (hquiet hburst).elim fun hrun hpost => hbusy.elim hrun hpost
  have hdone : ¬ (f.state ≠ 1 ∧ f.state ≠ 4) := fun ⟨hlanded, hreleased⟩ => hstate.elim hlanded hreleased
  have hfirst : ¬ (r.total < fld c.payload 8 4) := by omega
  have hcount : ¬ ((fld c.payload 12 4 = 0 ∨ r.total < fld c.payload 8 4 + fld c.payload 12 4) ∨
      268435456 < fld c.payload 12 4 * r.size) := by omega
  simp only [capReadBody, hpolicy, hland, hrecord, hplan, Bool.not_true, Bool.false_eq_true, if_false, Bool.and_eq_true,
    Bool.or_eq_true, decide_eq_true_eq, beq_iff_eq]
  rw [if_neg (Nat.not_lt.mpr hkind), if_neg hbuf, if_neg (not_not.mpr haligned), if_neg hcalm, if_neg hdone, if_neg hfirst,
    if_neg hcount]

end

/-- Settles O45, each command by its body after the shared checks. It states the beginning of CAP_READ's host transfer; the end of
a transfer is in O47. -/
theorem captureReads : Obligations.CaptureReads := by
  intro b s t c p
  refine ⟨fun h hland hmin hmax => ?record, fun h hland => ?counters, fun h hland hmin _ => ?release,
    fun f r h hpolicy hland hrecord hkind hbuffer haligned hquiet hstate hplan hleast hwithin hmost => ?read⟩
  case record => exact take_next h (capFrameRecordBody_answers hland hmin hmax)
  case counters => exact take_next h (capCountersBody_answers hland)
  case release => exact take_settle_next h (capReleaseBody_releases hland hmin)
  case read =>
    exact take_next h (capReadBody_holds hland ⟨hrecord, hkind, hbuffer, haligned, hplan, hleast, hwithin, hmost⟩ hpolicy hquiet
      hstate)

end Sys2Proof.Machine

/-! SUPPORT. 3D LUT units, ENC_FORCE_IRAP, ENC_PICTURE_RECORD and the commands of Barrel (R395, R418, R424, R473, R476, R478, R485): what each
does once its checks have passed. -/

namespace Sys2Proof.Machine

open Sys2Proof

/-! ## Jobs as they are created -/

/-- A change of jobs that leaves alone which work each is. -/
structure SameWork (f : Job → Job) : Prop where
  kind : ∀ j, (f j).kind = j.kind
  cls : ∀ j, (f j).cls = j.cls
  object : ∀ j, (f j).object = j.object

/-- The state in which a new job is PENDING, before it may be refused (R208). -/
def State.listed (s : State) (j : Job) : State :=
  { s with jobs := s.jobs ++ [{ j with id := s.nextJob, pendingTbm := s.now, pendingWindow := s.ledger.window }], nextJob := s.nextJob + 1 }

theorem refuseJob_sameWork (s : State) (id reason : Nat) : ∃ f, SameWork f ∧ s.refuseJob id reason = s.mapJobs f := by
  refine ⟨_, ⟨fun j => ?_, fun j => ?_, fun j => ?_⟩, rfl⟩
  all_goals split <;> rfl

/-- A new job goes to the end of the list, and a refusal changes no job's work. -/
theorem addJob_sameWork (s : State) (j : Job) : ∃ f, SameWork f ∧ (s.addJob j).2 = (s.listed j).mapJobs f := by
  unfold State.addJob
  dsimp only
  split
  · exact refuseJob_sameWork (s.listed j) _ _
  · split
    · exact refuseJob_sameWork (s.listed j) _ _
    · exact ⟨id, ⟨fun _ => rfl, fun _ => rfl, fun _ => rfl⟩, by simp [State.mapJobs, State.listed]⟩

theorem addJob_jobs_length (s : State) (j : Job) : (s.addJob j).2.jobs.length = s.jobs.length + 1 := by
  obtain ⟨f, -, hadd⟩ := addJob_sameWork s j
  simp [hadd, State.mapJobs, State.listed]

theorem addJob_mem_jobs (s : State) (j : Job) :
    ∃ i, i ∈ (s.addJob j).2.jobs ∧ i.object = j.object ∧ i.kind = j.kind ∧ i.cls = j.cls := by
  obtain ⟨f, hf, hadd⟩ := addJob_sameWork s j
  rw [hadd]
  exact ⟨_, List.mem_map_of_mem (List.mem_concat_self ..), hf.object _, hf.kind _, hf.cls _⟩

theorem addJob_brl (s : State) (j : Job) : (s.addJob j).2.brl = s.brl := by
  obtain ⟨f, -, hadd⟩ := addJob_sameWork s j
  rw [hadd]
  rfl

section

variable {c : Cmd} {s : State}

/-! ## Encoders -/

theorem encForceIrapBody_hevc (hcodec : s.liveEnc (fld c.payload 0 1) = some 1) :
    encForceIrapBody c s = (s.updEnc (fld c.payload 0 1) fun x => x.wantRefresh 1).ok c [] := by
  simp only [encForceIrapBody, hcodec]

theorem encForceIrapBody_refuses (hcodec : s.liveEnc (fld c.payload 0 1) ≠ some 1) : encForceIrapBody c s = s.badField c 0 := by
  unfold encForceIrapBody
  dsimp only
  split
  next hhevc => exact absurd hhevc hcodec
  next => rfl

/-- A record that the ring no longer holds, or does not hold yet, answers as 0xFFFF_FFFF (R424). -/
theorem encPictureRecordBody_answers (hlive : (s.liveEnc (fld c.payload 0 1)).isSome = true) (hmin : 1 ≤ fld c.payload 2 2)
    (hmax : fld c.payload 2 2 ≤ 255) : encPictureRecordBody c s =
      s.reply c 0 [] (some ((List.range (fld c.payload 2 2)).map (fun i =>
        (((s.enc (fld c.payload 0 1)).records.find? (fun r => r.1 == (fld c.payload 4 4 + i) % 2 ^ 32)).map (·.2)).getD
          (le 4 0xFFFFFFFF ++ zeros 60))).flatten) := by
  have hknown : ¬ ((s.liveEnc (fld c.payload 0 1)).isNone = true) := by simp [Option.isSome_iff_ne_none.mp hlive]
  have hcount : ¬ ((decide (fld c.payload 2 2 = 0) || decide (255 < fld c.payload 2 2)) = true) := by
    simp only [Bool.or_eq_true, decide_eq_true_eq]
    omega
  refine ((if_neg hknown).trans (if_neg hcount)).trans ?_
  refine congrArg (fun l : List (List Byte) => s.reply c 0 [] (some l.flatten)) (List.map_congr_left fun i _ => ?_)
  cases (s.enc (fld c.payload 0 1)).records.find? (fun r => r.1 == (fld c.payload 4 4 + i) % 2 ^ 32) with
  | none => rfl
  | some r => rfl

/-! ## BRL_OPEN -/

/-- The context that BRL_OPEN opens: the one it names, when that is free, and for 0xFF the lowest free one (R485). -/
def State.brlChosen (s : State) (n : Nat) : Option Nat :=
  let free := (List.range 64).filter (fun k => !(s.brlCtx k).isOpen)
  if n = 0xFF then free.head? else if free.contains n then some n else none

theorem brlChosen_named {n : Nat} (hn : n < 64) (hclosed : (s.brlCtx n).isOpen = false) : s.brlChosen n = some n := by
  have hname : n ≠ 0xFF := by omega
  simp [State.brlChosen, hname, hn, hclosed]

theorem brlChosen_lowest {n k : Nat} (hn : n = 0xFF) (hk : k < 64) (hclosed : (s.brlCtx k).isOpen = false)
    (hbelow : ∀ j, j < k → (s.brlCtx j).isOpen = true) : s.brlChosen n = some k := by
  have hfind : (List.range 64).find? (fun j => !(s.brlCtx j).isOpen) = some k := by
    rw [List.find?_range_eq_some]
    exact ⟨by simp [hclosed], List.mem_range.mpr hk, fun j hj => by simp [hbelow j hj]⟩
  simpa only [State.brlChosen, hn, if_true, List.head?_filter] using hfind

/-- A context as BRL_OPEN opens it: a compressor has its wrapper's header to send, a decompressor expects it (R473, R474). -/
def brlFresh (mode wrapper level : Nat) : BrlCtx :=
  { BrlCtx.reset with isOpen := true, mode := mode, wrapper := wrapper, level := level, check := if wrapper = 1 then 1 else 0,
                      queue := if mode = 0 then byteWords (wrapHeader wrapper level) else [], inf := Inflate.start wrapper }

theorem brlOpenBody_opens {k : Nat} (hname : fld c.payload 0 1 < 64 ∨ fld c.payload 0 1 = 0xFF)
    (hmode : (fld c.payload 1 1 = 0 ∧ 1 ≤ fld c.payload 3 1 ∧ fld c.payload 3 1 ≤ 3) ∨ (fld c.payload 1 1 = 1 ∧ fld c.payload 3 1 = 0))
    (hwrap : fld c.payload 2 1 ≤ 2) (hchosen : s.brlChosen (fld c.payload 0 1) = some k) : brlOpenBody c s =
      (s.updBrl k fun _ => brlFresh (fld c.payload 1 1) (fld c.payload 2 1) (fld c.payload 3 1)).ok c (le 1 k) := by
  have hnumber : ¬ (64 ≤ fld c.payload 0 1 ∧ fld c.payload 0 1 ≠ 0xFF) := by omega
  have hmodes : ¬ (1 < fld c.payload 1 1) := by omega
  have hlevel : ¬ ((fld c.payload 1 1 = 0 ∧ (fld c.payload 3 1 = 0 ∨ 3 < fld c.payload 3 1)) ∨
      (fld c.payload 1 1 = 1 ∧ fld c.payload 3 1 ≠ 0)) := by omega
  unfold State.brlChosen at hchosen
  simp only [brlOpenBody, Bool.and_eq_true, Bool.or_eq_true, decide_eq_true_eq]
  rw [if_neg hnumber, if_neg hmodes, if_neg (Nat.not_lt.mpr hwrap), if_neg hlevel, hchosen]
  rfl

/-! ## The state that BRL_SUBMIT leaves -/

/-- The state in which the job of a BRL_SUBMIT is created: ACCEPTED, the context with a job pending, its input being read (R473, R485). -/
def State.brlPends (s : State) (c : Cmd) : State :=
  ((s.accept c (fld c.payload 0 1) []).updBrl (fld c.payload 0 1) fun x => { x with pending := true }).out
    (.hostRead (fld c.payload 8 8) (fld c.payload 4 4))

theorem brlPends_keeps : (s.brlPends c).jobs = s.jobs ∧ (s.brlPends c).cfg = s.cfg ∧ (s.brlPends c).mem = s.mem ∧
    (s.brlPends c).brl = upd s.brl (fld c.payload 0 1) fun x => { x with pending := true } := by
  simp [State.brlPends]

/-- `u` is `s` after a job of Barrel's context n has been created: the context has it pending in the status that it had (R473). -/
structure BrlSubmitted (s u : State) (n : Nat) : Prop where
  status : (u.brlCtx n).st = (s.brlCtx n).st
  pending : n < s.brl.length → (u.brlCtx n).pending = true
  count : u.jobs.length = s.jobs.length + 1
  cfg : u.cfg = s.cfg
  mem : u.mem = s.mem
  job : ∃ j, j ∈ u.jobs ∧ j.object = n ∧ j.kind = .barrel ∧ j.cls = 6

theorem addJob_brlSubmitted {j : Job} (hobject : j.object = fld c.payload 0 1) (hkind : j.kind = .barrel) (hcls : j.cls = 6) :
    BrlSubmitted s ((s.brlPends c).addJob j).2 (fld c.payload 0 1) := by
  obtain ⟨hjobs, hcfg, hmem, hbrl⟩ := brlPends_keeps (c := c) (s := s)
  obtain ⟨i, hi, hiobject, hikind, hicls⟩ := addJob_mem_jobs (s.brlPends c) j
  have hctx : ((s.brlPends c).addJob j).2.brlCtx (fld c.payload 0 1) =
      (upd s.brl (fld c.payload 0 1) fun x => { x with pending := true }).getD (fld c.payload 0 1) BrlCtx.reset := by
    rw [State.brlCtx, addJob_brl, hbrl]
  exact {
    status := by
      rw [hctx]
      exact upd_getD_keep BrlCtx.st (f := fun x => { x with pending := true }) (fun _ => rfl) _ _ _ _
    pending := fun hlen => by rw [hctx, upd_getD_self _ hlen]
    count := by rw [addJob_jobs_length, hjobs]
    cfg := (addJob_cfg _ _).trans hcfg
    mem := (addJob_keepsRim _ _).2.trans hmem
    job := ⟨i, hi, hiobject.trans hobject, hikind.trans hkind, hicls.trans hcls⟩ }

/-! ## Commands on an open context -/

section

variable (hn : fld c.payload 0 1 < 64) (hopen : (s.brlCtx (fld c.payload 0 1)).isOpen = true)

include hn hopen

/-- The number of an open context passes the check of the field (R485). -/
theorem brl_known : ¬ ((decide (64 ≤ fld c.payload 0 1) || !(s.brlCtx (fld c.payload 0 1)).isOpen) = true) := by
  simp [hopen, hn]

theorem brlCloseBody_closes (hidle : (s.brlCtx (fld c.payload 0 1)).pending = false) :
    brlCloseBody c s = (s.updBrl (fld c.payload 0 1) fun _ => BrlCtx.reset).ok c [] :=
  (if_neg (brl_known hn hopen)).trans (if_neg (by simp [hidle]))

theorem brlCloseBody_busy (hpending : (s.brlCtx (fld c.payload 0 1)).pending = true) : brlCloseBody c s = s.fail c stBusy :=
  (if_neg (brl_known hn hopen)).trans (if_pos hpending)

theorem brlReadContextBody_answers (hst : (s.brlCtx (fld c.payload 0 1)).st ≠ 3) :
    brlReadContextBody c s = s.reply c stOk [] (some ((s.brlCtx (fld c.payload 0 1)).header (fld c.payload 0 1))) :=
  (if_neg (brl_known hn hopen)).trans (if_neg hst)

theorem brlReadContextBody_dataError (hst : (s.brlCtx (fld c.payload 0 1)).st = 3) :
    brlReadContextBody c s = s.fail c stValidationFailed :=
  (if_neg (brl_known hn hopen)).trans (if_pos hst)

theorem brlSubmitBody_adds (hin : fld c.payload 4 4 ≤ 268435456) (hmin : 1 ≤ fld c.payload 16 4)
    (hmax : fld c.payload 16 4 ≤ 268435456) (hidle : (s.brlCtx (fld c.payload 0 1)).pending = false)
    (hst : (s.brlCtx (fld c.payload 0 1)).st ≠ 3) : ∃ j : Job, j.object = fld c.payload 0 1 ∧ j.kind = .barrel ∧ j.cls = 6 ∧
      brlSubmitBody c s = ((s.brlPends c).addJob j).2 := by
  have hout : ¬ ((decide (fld c.payload 16 4 = 0) || decide (268435456 < fld c.payload 16 4)) = true) := by
    simp only [Bool.or_eq_true, decide_eq_true_eq]
    omega
  refine ⟨_, ?_, ?_, ?_, (if_neg (brl_known hn hopen)).trans ((if_neg (Nat.not_lt.mpr hin)).trans ((if_neg hout).trans
    ((if_neg (by simp [hidle])).trans (if_neg hst))))⟩
  all_goals rfl

end

end

/-- Settles O46, each command by its body after the shared checks. That BRL_READ_CONTEXT answers VALIDATION_FAILED in DATA_ERROR is the
reading of log entry 38. -/
theorem colourEncoderAndBarrelCommands : Obligations.ColourEncoderAndBarrelCommands := by
  refine ⟨⟨fun unit s => rfl, ?encoders⟩, ?barrel⟩
  case encoders =>
    intro b s t c p e
    exact ⟨fun h hcodec => take_next h (encForceIrapBody_hevc hcodec), fun h hcodec => take_next h (encForceIrapBody_refuses hcodec),
      fun h hlive hmin hmax => take_next h (encPictureRecordBody_answers hlive hmin hmax)⟩
  case barrel =>
    intro b s t c p n modeOk fresh
    refine ⟨fun h hmode hwrap hn hclosed => ?named, fun k h hmode hwrap hn hk hclosed hbelow => ?lowest, fun hn hopen =>
      ⟨fun h _ hin hmin hmax hidle hst => ?submit, fun h hidle => ?close, fun h hpending => ?busy, fun h hst => ?header,
        fun h hst => ?dataError⟩⟩
    case named => exact take_next h (brlOpenBody_opens (.inl hn) hmode hwrap (brlChosen_named hn hclosed))
    case lowest => exact take_next h (brlOpenBody_opens (.inr hn) hmode hwrap (brlChosen_lowest hn hk hclosed hbelow))
    case submit =>
      obtain ⟨j, hobject, hkind, hcls, hbody⟩ := brlSubmitBody_adds hn hopen hin hmin hmax hidle hst
      obtain ⟨hstatus, hpends, hcount, hcfg, hmem, hjob⟩ := addJob_brlSubmitted (s := t) hobject hkind hcls
      exact ⟨_, take_settle_next h hbody, hstatus, hpends, hcount, hcfg, hmem, hjob⟩
    case close => exact take_next h (brlCloseBody_closes hn hopen hidle)
    case busy => exact take_next h (brlCloseBody_busy hn hopen hpending)
    case header => exact take_next h (brlReadContextBody_answers hn hopen hst)
    case dataError => exact take_next h (brlReadContextBody_dataError hn hopen hst)

end Sys2Proof.Machine

/-! SUPPORT. No command stops the block, and none changes the queue of the commands that wait: part by part, for the functions whose
frames above do not speak of the queue. -/

namespace Sys2Proof.Machine

open Sys2Proof

/-! ## The queue of waiting commands, through the blocks of a generation -/

/-- A choice keeps the queue when both of its sides do. -/
theorem ite_pending {c : Prop} [Decidable c] {s t u : State} (ht : t.pending = s.pending) (hu : u.pending = s.pending) :
    (if c then t else u).pending = s.pending := by
  split
  · exact ht
  · exact hu

@[simp] theorem abandon_pending (s : State) (n : Nat) : (s.abandon n).pending = s.pending :=
  each_pending (fun e t => by simp) _ _

@[simp] theorem applyDec_pending (s : State) (n : Nat) (e : Option (List Byte)) : (s.applyDec n e).pending = s.pending := by
  unfold State.applyDec
  dsimp only
  split <;> simp

@[simp] theorem applyStream_pending (s : State) (n : Nat) (e : Option (List Byte)) : (s.applyStream n e).pending = s.pending := by
  simp [State.applyStream]

@[simp] theorem updSdi_pending (s : State) : s.updSdi.pending = s.pending := by
  unfold State.updSdi
  dsimp only
  refine each_pending (fun y t => ?_) _ _
  exact (each_pending (fun l u => by split <;> [skip; split] <;> simp) _ _).trans rfl

@[simp] theorem applySlot_pending (s : State) (y k : Nat) (old new : Option (List Byte)) : (s.applySlot y k old new).pending = s.pending := by
  simp [State.applySlot]

@[simp] theorem applyYard_pending (s : State) (y : Nat) (new : Option (List Byte)) : (s.applyYard y new).pending = s.pending := by
  unfold State.applyYard
  dsimp only
  split
  · rfl
  · split <;> simp

@[simp] theorem pumpPower_pending (s : State) : s.pumpPower.pending = s.pending := by
  simp [State.pumpPower]

@[simp] theorem applyShrouds_pending (s : State) (p : List Byte) : (s.applyShrouds p).pending = s.pending := by
  simp [State.applyShrouds]

@[simp] theorem applySensors_pending (s : State) (p : List Byte) : (s.applySensors p).pending = s.pending := by
  simp [State.applySensors]

@[simp] theorem applyDecs_pending (s : State) (p : List Byte) : (s.applyDecs p).pending = s.pending := by
  simp [State.applyDecs]

@[simp] theorem applyStreams_pending (s : State) (p : List Byte) : (s.applyStreams p).pending = s.pending := by
  simp [State.applyStreams]

@[simp] theorem applyMaps_pending (s : State) (p : List Byte) : (s.applyMaps p).pending = s.pending := by
  simp [State.applyMaps]

@[simp] theorem applyFlex_pending (s : State) (p : List Byte) : (s.applyFlex p).pending = s.pending := by
  simp [State.applyFlex]

@[simp] theorem applyTimeGlobal_pending (s : State) (p : Option (List Byte)) : (s.applyTimeGlobal p).pending = s.pending := by
  simp [State.applyTimeGlobal]

@[simp] theorem applyBases_pending (s : State) (p : List Byte) : (s.applyBases p).pending = s.pending := by
  simp [State.applyBases]

@[simp] theorem applyHealthPolicy_pending (s : State) (p : Option (List Byte)) : (s.applyHealthPolicy p).pending = s.pending := by
  simp [State.applyHealthPolicy]

@[simp] theorem applyPowerMap_pending (s : State) (p : List Byte) : (s.applyPowerMap p).pending = s.pending := by
  simp [State.applyPowerMap]

@[simp] theorem applyObs_pending (s : State) (p : List Byte) : (s.applyObs p).pending = s.pending := by
  simp [State.applyObs]

@[simp] theorem applyGlobal_pending (s : State) (type : Nat) : (s.applyGlobal type).pending = s.pending := by
  unfold State.applyGlobal
  split
  · rfl
  · dsimp only
    split <;> simp

@[simp] theorem applyOneGlobal_pending (s : State) (g : Gen) (type : Nat) : (s.applyOneGlobal g type).pending = s.pending := by
  simp [State.applyOneGlobal, State.reachApply]

@[simp] theorem applyGlobals_pending (s : State) (g : Gen) (types : List Nat) : (s.applyGlobals g types).pending = s.pending := by
  induction types generalizing s with
  | nil => rfl
  | cons type types ih => simp [applyGlobals_cons, ih]

@[simp] theorem applyIdleDecs_pending (s : State) (g : Gen) : (s.applyIdleDecs g).pending = s.pending := by
  unfold State.applyIdleDecs
  split
  · exact each_pending (fun n t => by simp) _ _
  · rfl

/-! ## The queue through an arming and a reading of health -/

@[simp] theorem forceCtx_pending (s : State) (c : Nat) : (s.forceCtx c).pending = s.pending := by
  simp [State.forceCtx]

@[simp] theorem armExpires_pending (s : State) : s.armExpires.pending = s.pending := by
  unfold State.armExpires
  split
  · rfl
  next g _ =>
    extract_lets forced keyed globals
    have hforced : forced.pending = s.pending := by simp [forced]
    have hkeyed : keyed.pending = forced.pending := by simp [keyed]
    have hglobals : globals.pending = keyed.pending := by simp [globals]
    simp [hglobals, hkeyed, hforced]

@[simp] theorem applyHealthDue_pending (s : State) : s.applyHealthDue.pending = s.pending := by
  unfold State.applyHealthDue
  split <;> simp

@[simp] theorem repower_pending (s : State) : s.repower.pending = s.pending := by
  simp [State.repower]

@[simp] theorem crossCheck_pending (s : State) (g : List Int) (i : Nat) : (s.crossCheck g i).pending = s.pending := by
  simp [State.crossCheck]

@[simp] theorem dieZone_pending (s : State) : s.dieZone.2.pending = s.pending := by
  unfold State.dieZone
  split <;> simp

@[simp] theorem setLevel_pending (s : State) (z new : Nat) (temp : Int) : (s.setLevel z new temp).pending = s.pending := by
  simp [State.setLevel]

@[simp] theorem evalZone_pending (s : State) (z : Nat) : (s.evalZone z).pending = s.pending := by
  unfold State.evalZone
  split <;> simp

@[simp] theorem evalRemote_pending (s : State) (c : Nat) : (s.evalRemote c).pending = s.pending := by
  simp [State.evalRemote]

@[simp] theorem keepHistory_pending (s : State) : s.keepHistory.pending = s.pending := State.updHealth_pending s _

@[simp] theorem evalEarly_pending (s : State) (rises : List Int) : (s.evalEarly rises).pending = s.pending := by
  simp [State.evalEarly]

@[simp] theorem evalPending_pending (s : State) : s.evalPending.pending = s.pending := by
  simp [State.evalPending]

@[simp] theorem evalReef_pending (s : State) : s.evalReef.pending = s.pending := by
  simp [State.evalReef]

@[simp] theorem healthEval_pending (s : State) (f : HealthFacts) : (s.healthEval f).pending = s.pending := by
  unfold State.healthEval
  extract_lets due read checked graded
  have hread : read.pending = s.pending := (State.updHealth_pending due _).trans (by simp [due])
  have hgraded : graded.pending = s.pending := by
    clear_value read
    rw [State.updHealth_pending, each_pending fun i t => crossCheck_pending t f.g i, hread]
  clear_value graded
  dsimp only
  rw [State.updHealth_pending]
  refine ite_pending ?_ ?_ <;> simp [hgraded]

/-! ## The queue through resets and the boot -/

@[simp] theorem wipe_pending (s : State) (warm : Bool) : (s.wipe warm).pending = s.pending := rfl

@[simp] theorem furl_pending (s : State) (cause source : Nat) : (s.furl cause source).pending = s.pending := rfl

@[simp] theorem copyFurl_pending (s : State) (flags : Nat) (peak : Int) (coolingMs : Nat) :
    (s.copyFurl flags peak coolingMs).pending = s.pending := State.updNv_pending s _

@[simp] theorem furlCut_pending (s : State) : s.furlCut.pending = s.pending := by
  simp [State.furlCut]

@[simp] theorem retireStack_pending (s : State) (k step : Nat) : (s.retireStack k step).pending = s.pending := by
  unfold State.retireStack
  extract_lets failed cut logged
  have hlogged : logged.pending = s.pending := by
    unfold logged
    split <;> simp [cut, failed]
  simp [hlogged]

@[simp] theorem applyRepairs_pending (s : State) (k : Nat) : (s.applyRepairs k).pending = s.pending := by
  simp [State.applyRepairs]

@[simp] theorem takeSpares_pending (s : State) (k : Nat) : (s.takeSpares k).pending = s.pending := by
  simp [State.takeSpares]

@[simp] theorem trainStack_pending (s : State) (k : Nat) : (s.trainStack k).pending = s.pending := by
  unfold State.trainStack
  dsimp only
  exact ite_pending (by simp) (ite_pending (by simp) (by simp))

@[simp] theorem installGen_pending (s : State) (g : Gen) : (s.installGen g).pending = s.pending := by
  simp [State.installGen]

@[simp] theorem restore_pending (s : State) : s.restore.pending = s.pending := by
  unfold State.restore
  dsimp only
  split <;> simp

@[simp] theorem bootFirmware_pending (s : State) : s.bootFirmware.pending = s.pending := by
  simp [State.bootFirmware, State.stopBoot, State.furlSeen]

@[simp] theorem bootNimlek_pending (s : State) (img : List Byte) (source : Nat) (fell : Bool) (failed : Option Byte) :
    (s.bootNimlek img source fell failed).pending = s.pending := by
  simp [State.bootNimlek, State.runNimlek, State.finishEnrol, State.issueCerts, State.fallback]

@[simp] theorem bootImages_pending (s : State) (fell : Bool) (srcs : List Nat) (failed last : Option Byte) :
    (s.bootImages fell srcs failed last).pending = s.pending := by
  induction srcs generalizing s fell failed last with
  | nil => simp [State.bootImages, State.stopBoot]
  | cons src rest ih =>
    unfold State.bootImages
    dsimp only
    split
    · simp [ih]
    · split <;> simp [ih, State.runFirst]

@[simp] theorem bootMast_pending (s : State) : s.bootMast.pending = s.pending := by
  unfold State.bootMast
  dsimp only
  split <;> simp

@[simp] theorem bootVoltages_pending (s : State) (n : Nat) : (s.bootVoltages n).pending = s.pending := by
  simp [State.bootVoltages, each_pending (f := fun i t => State.out t _) (fun _ _ => rfl)]

@[simp] theorem bootXtal_pending (s : State) : s.bootXtal.pending = s.pending := by
  simp [State.bootXtal, State.bootRails, State.bootPlls, State.stopPower, State.stopBoot]

@[simp] theorem leaveReset_pending (s : State) (env : BootEnv) : (s.leaveReset env).pending = s.pending := by
  simp [State.leaveReset, State.boot, State.stopBoot]

@[simp] theorem dropRails_pending (s : State) (ordered : Bool) : (s.dropRails ordered).pending = s.pending := by
  unfold State.dropRails
  exact each_pending (fun i t => by simp) _ _

@[simp] theorem enterWarm_pending (s : State) (cause : Byte) : (s.enterWarm cause).pending = s.pending := by
  simp [State.enterWarm]

@[simp] theorem enterCold_pending (s : State) (cause : Byte) : (s.enterCold cause).pending = s.pending := rfl

@[simp] theorem crystalBack_pending (s : State) : s.crystalBack.pending = s.pending := by
  simp [State.crystalBack]

@[simp] theorem crystalLoss_pending (s : State) (env : BootEnv) : (s.crystalLoss env).pending = s.pending := by
  simp [State.crystalLoss]

@[simp] theorem warmEntry_pending (s : State) (env : BootEnv) : (s.warmEntry env).pending = s.pending := by
  unfold State.warmEntry
  split <;> simp

@[simp] theorem supplyLoss_pending (s : State) (aon : Bool) : (s.supplyLoss aon).pending = s.pending := by
  simp [State.supplyLoss]

@[simp] theorem pwrokRise_pending (s : State) (bootsel : BitVec 3) (mgmtAddr : BitVec 2) (env : BootEnv) :
    (s.pwrokRise bootsel mgmtAddr env).pending = s.pending := by
  simp [State.pwrokRise]

@[simp] theorem pwrokFall_pending (s : State) : s.pwrokFall.pending = s.pending := by
  simp [State.pwrokFall]

@[simp] theorem sysResetFall_pending (s : State) (lowNs : Nat) : (s.sysResetFall lowNs).pending = s.pending := by
  simp [State.sysResetFall]

@[simp] theorem furlVote_pending (s : State) (cause source : Nat) : (s.furlVote cause source).pending = s.pending := by
  simp [State.furlVote]

@[simp] theorem furlRestart_pending (s : State) (cool : CoolFacts) (env : BootEnv) : (s.furlRestart cool env).pending = s.pending := by
  simp [State.furlRestart]

@[simp] theorem furlRelease_pending (s : State) (v : Word) (cool : CoolFacts) (env : BootEnv) :
    (s.furlRelease v cool env).pending = s.pending := by
  simp [State.furlRelease]

@[simp] theorem imageArrived_pending (s : State) (i : ImageIn) : (s.imageArrived i).pending = s.pending := by
  unfold State.imageArrived
  dsimp only
  split <;> simp [State.stopBoot, State.runFirst]

@[simp] theorem mgmtImageEndBody_pending (c : Cmd) (s : State) : (mgmtImageEndBody c s).pending = s.pending := by
  unfold mgmtImageEndBody
  dsimp only
  split
  · simp
  · split <;> simp

/-! ## Every command -/

theorem exec_completes (c : Instr) (s : State) : ∃ t, exec c s = .next t := by
  cases c <;> exact ⟨_, rfl⟩

theorem step_completes (s : State) : ∃ t, step s = .next t := by
  unfold step
  split
  · exact ⟨_, rfl⟩
  · exact exec_completes _ _

theorem exec_pending {c : Instr} {s t : State} (h : exec c s = .next t) : t.pending = s.pending := by
  cases c <;> obtain rfl := Host.Outcome.next.inj h
  any_goals simp; done
  all_goals split <;> simp

theorem run_completes (n : Nat) (s : State) : ∃ t, core.run n s = .next t := by
  induction n generalizing s with
  | zero => exact ⟨s, rfl⟩
  | succ n ih =>
    obtain ⟨t, hstep⟩ := step_completes s
    obtain ⟨u, hrun⟩ := ih t
    refine ⟨u, ?_⟩
    simp only [Host.Core.run, core, hstep] at hrun ⊢
    exact hrun

/-- Settles O1: with a command in front, a step is exec of it by definition. -/
theorem stepRunsFrontCommand : Obligations.StepRunsFrontCommand := fun _ _ _ => rfl

/-- Settles O3: each arm answers a next state, and so does every run, by induction on its length. -/
theorem noCommandStops : Obligations.NoCommandStops := ⟨exec_completes, fun s n => run_completes n s⟩

/-- Settles O4: each arm by the lemmas of the functions that it is made of. -/
theorem commandsLeaveTheQueue : Obligations.CommandsLeaveTheQueue := fun _ _ _ h => exec_pending h

end Sys2Proof.Machine

/-! SUPPORT. MSI-X (R526, R527): what sending the message of a vector, and unmasking it, leave. -/

namespace Sys2Proof.Machine

open Sys2Proof

/-! ## Sending -/

/-- The message of a vector is due: the debt is cleared, the time noted and the summary bit of a vector 0 to 21 set (R526). -/
def State.noteSent (s : State) (v : Nat) : State :=
  { s with vecs := upd s.vecs v (fun x => { x with owed := false, lastSent := some s.now }),
           ncp := { s.ncp with intSummary := if v < 22 then s.ncp.intSummary ||| BitVec.ofNat 32 (2 ^ v) else s.ncp.intSummary } }

/-- What is sent of a message that is due, in D0. -/
theorem sendVector_eq {s : State} {v : Nat} (hd0 : s.ep.d3 = false) : s.sendVector v =
    if s.ep.msixEn = false then s.noteSent v
    else if (s.vec v).masked || s.ep.fnMask then (s.noteSent v).updVec v (fun x => { x with pendingBit := true })
    else (s.noteSent v).out (.msix v (s.vec v).addr (s.vec v).data) := by
  unfold State.sendVector State.noteSent
  by_cases hlow : v < 22 <;> simp [hlow, hd0] <;> rfl

/-- `t` is `s` after the message of vector v has been sent or pends: only vectors, outputs and the summary differ. -/
structure Noted (s t : State) (v : Nat) : Prop where
  owed : (t.vec v).owed = false
  lastSent : (t.vec v).lastSent = some s.now
  others : ∀ w, w ≠ v → t.vec w = s.vec w
  summary : t.ncp.intSummary = if v < 22 then s.ncp.intSummary ||| BitVec.ofNat 32 (2 ^ v) else s.ncp.intSummary
  frame : t = { s with vecs := t.vecs, outs := t.outs, ncp := { s.ncp with intSummary := t.ncp.intSummary } }

section

variable {s : State} {v : Nat}

theorem noteSent_vec (hv : v < s.vecs.length) : (s.noteSent v).vec v = { s.vec v with owed := false, lastSent := some s.now } :=
  upd_getD_self _ hv

theorem noteSent_noted (hv : v < s.vecs.length) : Noted s (s.noteSent v) v where
  owed := by rw [noteSent_vec hv]
  lastSent := by rw [noteSent_vec hv]
  others _ hw := upd_getD_of_ne _ hw
  summary := rfl
  frame := rfl

theorem noteSent_pends_noted (hv : v < s.vecs.length) : Noted s ((s.noteSent v).updVec v (fun x => { x with pendingBit := true })) v := by
  have hlen : v < (s.noteSent v).vecs.length := by simpa [State.noteSent, upd_length] using hv
  exact {
    owed := by rw [State.updVec_vec_self _ _ _ hlen, noteSent_vec hv]
    lastSent := by rw [State.updVec_vec_self _ _ _ hlen, noteSent_vec hv]
    others := fun w hw => (State.updVec_vec_of_ne _ _ _ _ hw).trans (upd_getD_of_ne _ hw)
    summary := rfl
    frame := rfl }

theorem sendVector_noted (hd0 : s.ep.d3 = false) (hv : v < s.vecs.length) : Noted s (s.sendVector v) v := by
  rw [sendVector_eq hd0]
  split
  · exact noteSent_noted hv
  · split
    · exact noteSent_pends_noted hv
    · have ⟨howed, hlast, hothers, hsummary, _⟩ := noteSent_noted hv
      exact ⟨howed, hlast, hothers, hsummary, rfl⟩

theorem sendVector_leaves (hd0 : s.ep.d3 = false) (hon : s.ep.msixEn = true) (hopen : (s.vec v).masked = false)
    (hfn : s.ep.fnMask = false) : (s.sendVector v).outs = .msix v (s.vec v).addr (s.vec v).data :: s.outs := by
  simp [sendVector_eq hd0, hon, hopen, hfn, State.noteSent]

theorem sendVector_pends (hd0 : s.ep.d3 = false) (hv : v < s.vecs.length) (hon : s.ep.msixEn = true)
    (hmask : (s.vec v).masked = true ∨ s.ep.fnMask = true) :
    (s.sendVector v).outs = s.outs ∧ ((s.sendVector v).vec v).pendingBit = true := by
  have hlen : v < (s.noteSent v).vecs.length := by simpa [State.noteSent, upd_length] using hv
  have heq : s.sendVector v = (s.noteSent v).updVec v (fun x => { x with pendingBit := true }) := by
    simp [sendVector_eq hd0, hon, hmask]
  rw [heq, State.updVec_vec_self _ _ _ hlen]
  exact ⟨rfl, rfl⟩

/-! ## Unmasking -/

/-- A pending message leaves at the unmasking when nothing else holds it. -/
theorem unmask_eq (hd0 : s.ep.d3 = false) (hv : v < s.vecs.length) : s.unmask v =
    if ((s.vec v).pendingBit && s.ep.msixEn && !s.ep.fnMask) = true then
      ((s.updVec v (fun x => { x with masked := false })).updVec v (fun x => { x with pendingBit := false })).out
        (.msix v (s.vec v).addr (s.vec v).data)
    else s.updVec v (fun x => { x with masked := false }) := by
  simp [State.unmask, State.updVec_vec_self _ _ _ hv, hd0]

theorem unmask_opens (hd0 : s.ep.d3 = false) (hv : v < s.vecs.length) : ((s.unmask v).vec v).masked = false ∧
    s.unmask v = { s with vecs := (s.unmask v).vecs, outs := (s.unmask v).outs } ∧ ∀ w, w ≠ v → (s.unmask v).vec w = s.vec w := by
  have hlen : v < (s.updVec v (fun x => { x with masked := false })).vecs.length := by simpa [upd_length] using hv
  rw [unmask_eq hd0 hv]
  split
  · refine ⟨?_, rfl, fun w hw => (State.updVec_vec_of_ne _ _ _ _ hw).trans (State.updVec_vec_of_ne _ _ _ _ hw)⟩
    exact congrArg Vec.masked ((State.updVec_vec_self _ _ _ hlen).trans (congrArg _ (State.updVec_vec_self _ _ _ hv)))
  · exact ⟨by rw [State.updVec_vec_self _ _ _ hv], rfl, fun w hw => State.updVec_vec_of_ne _ _ _ _ hw⟩

theorem unmask_sends (hd0 : s.ep.d3 = false) (hv : v < s.vecs.length) (hon : s.ep.msixEn = true) (hfn : s.ep.fnMask = false)
    (hpend : (s.vec v).pendingBit = true) : ((s.unmask v).vec v).pendingBit = false ∧
      (s.unmask v).outs = .msix v (s.vec v).addr (s.vec v).data :: s.outs := by
  have hlen : v < (s.updVec v (fun x => { x with masked := false })).vecs.length := by simpa [upd_length] using hv
  rw [unmask_eq hd0 hv, if_pos (by simp [hpend, hon, hfn])]
  exact ⟨congrArg Vec.pendingBit (State.updVec_vec_self _ _ _ hlen), rfl⟩

theorem unmask_silent (hd0 : s.ep.d3 = false) (hv : v < s.vecs.length) (hpend : (s.vec v).pendingBit = false) :
    (s.unmask v).outs = s.outs := by
  rw [unmask_eq hd0 hv, if_neg (by simp [hpend])]
  rfl

end

/-- Settles O19. That a message sent at the unmasking leaves the summary as it was is the choice of log entry 33 (State.unmask). -/
theorem vectorsSendOrPend : Obligations.VectorsSendOrPend := by
  refine ⟨fun v s => ⟨fun howed hspaced => ?due, fun hnot => ?early, fun hreach => ?opens, fun hnot => ?ignored⟩,
    fun v s hd0 hv => ⟨?sent, ?unmasked⟩⟩
  case due => exact congrArg Host.Outcome.next (if_pos (by simpa [us, howed] using hspaced))
  case early =>
    refine congrArg Host.Outcome.next (if_neg ?_)
    rcases hnot with howed | hspaced
    · simp [howed]
    · simp [us, hspaced]
  case opens => exact congrArg Host.Outcome.next (if_pos hreach)
  case ignored => exact congrArg Host.Outcome.next (if_neg (by simp [hnot]))
  case sent =>
    obtain ⟨howed, hlast, hothers, hsummary, hframe⟩ := sendVector_noted hd0 hv
    exact ⟨howed, hlast, hothers, hsummary, sendVector_leaves hd0, sendVector_pends hd0 hv, hframe⟩
  case unmasked =>
    obtain ⟨hopen, hframe, hothers⟩ := unmask_opens hd0 hv
    exact ⟨hopen, hframe, hothers, unmask_sends hd0 hv, unmask_silent hd0 hv⟩

end Sys2Proof.Machine

/-! SUPPORT. Flex ports, the commands of flex lanes and margin scans (R538, R540, R542, R546). -/

namespace Sys2Proof.Machine

open Sys2Proof

/-! ## Ports -/

section

variable {s : State} {y k : Nat} {f : FlexPort → FlexPort}

/-- A port that differs from the reset value stands in the table. -/
theorem port_listed (h : s.port y k ≠ FlexPort.reset) : y - 1 < s.yards.length ∧ k < (s.yard y).ports.length := by
  have hk : k < (s.yard y).ports.length := by
    by_contra hpast
    exact h (List.getD_eq_default _ _ (Nat.le_of_not_lt hpast))
  refine ⟨?_, hk⟩
  by_contra hpast
  have hyard : s.yard y = Yard.reset := List.getD_eq_default _ _ (Nat.le_of_not_lt hpast)
  refine h ?_
  rw [hyard, Yard.reset, List.length_replicate] at hk
  rw [State.port, hyard, Yard.reset]
  exact List.getD_replicate _ hk

theorem updPort_yard_self (hy : y - 1 < s.yards.length) :
    (s.updPort y k f).yard y = { s.yard y with ports := upd (s.yard y).ports k f } := upd_getD_self _ hy

theorem updPort_yard_of_ne {z : Nat} (h : z - 1 ≠ y - 1) : (s.updPort y k f).yard z = s.yard z := upd_getD_of_ne _ h

theorem updPort_port_self (h : s.port y k ≠ FlexPort.reset) : (s.updPort y k f).port y k = f (s.port y k) := by
  obtain ⟨hy, hk⟩ := port_listed h
  rw [State.port, updPort_yard_self hy]
  exact upd_getD_self _ hk

theorem port_congr {t : State} (h : t.yards = s.yards) : t.port y k = s.port y k := by
  simp [State.port, State.yard, h]

theorem port_ne_reset_of_st (h : (s.port y k).st ≠ 0) : s.port y k ≠ FlexPort.reset := fun heq => h (congrArg FlexPort.st heq)

theorem port_ne_reset_of_port {p : Nat} (h : (s.port y k).port = some p) : s.port y k ≠ FlexPort.reset :=
  fun heq => Option.some_ne_none p (h.symm.trans (congrArg FlexPort.port heq))

theorem port_ne_reset_of_scanning (h : (s.port y k).scanning = true) : s.port y k ≠ FlexPort.reset :=
  fun heq => Bool.false_ne_true ((congrArg FlexPort.scanning heq).symm.trans h)

end

/-! ## Commands -/

section

variable {c : Cmd} {s : State}

theorem flxLinkInfoBody_endpoint (hy : fld c.payload 0 1 = 0) (hk : fld c.payload 1 1 = 0) : flxLinkInfoBody c s =
    s.reply c 0 (le 4 s.regEpStatus ++ le 4 s.ep.trainUs ++ le 4 (s.marginWord s.ep.margin s.ep.marginTbm)) none := by
  simp only [flxLinkInfoBody, hy, hk]
  rfl

section

variable (hlow : 1 ≤ fld c.payload 0 1) (hhigh : fld c.payload 0 1 ≤ 7)

include hlow hhigh

theorem flxLinkInfoBody_port (hk : fld c.payload 1 1 ≤ 3) (hmode : (s.yard (fld c.payload 0 1)).mode ≠ 4) : flxLinkInfoBody c s =
    s.reply c 0 (le 4 (s.regPortStatus (fld c.payload 0 1) (fld c.payload 1 1)) ++
      le 4 (s.port (fld c.payload 0 1) (fld c.payload 1 1)).trainUs ++
      le 4 (s.marginWord (s.port (fld c.payload 0 1) (fld c.payload 1 1)).margin
        (s.port (fld c.payload 0 1) (fld c.payload 1 1)).marginTbm)) none := by
  unfold flxLinkInfoBody
  dsimp only
  rw [if_neg (Nat.not_lt.2 hhigh), if_neg (Nat.ne_of_gt hlow), if_neg hmode, if_neg (Nat.not_lt.2 hk)]
  rfl

variable (hport : s.flexPortAt (fld c.payload 0 1) (fld c.payload 1 1) = true)

include hport

/-- The link that the command names is ACTIVE and is scanned, or has no margin and the command ends HW_FAULT. -/
theorem flxMarginBody_port : flxMarginBody c s =
    if (s.port (fld c.payload 0 1) (fld c.payload 1 1)).st = 6 then
      (s.accept c (16 * fld c.payload 0 1 + fld c.payload 1 1) []).updPort (fld c.payload 0 1) (fld c.payload 1 1) fun x =>
        { x with scanning := true }
    else (s.accept c (16 * fld c.payload 0 1 + fld c.payload 1 1) []).finishAll 0x0E02
      (16 * fld c.payload 0 1 + fld c.payload 1 1) 0x0501 [] none := by
  unfold flxMarginBody
  dsimp only
  rw [if_neg (Nat.not_lt.2 hhigh), if_neg (by simp [hport]), if_neg (Nat.ne_of_gt hlow), if_neg (Nat.ne_of_gt hlow), ite_not]
  rfl

/-- A root port or an Ethernet port trains again (R542). -/
theorem flxRetrainBody_port : flxRetrainBody c s =
    let y := fld c.payload 0 1
    let k := fld c.payload 1 1
    let t := s.accept c (16 * y + k) [s.now]
    if (s.yard y).mode = 3 then
      let u := t.updPort y k fun x => { x with st := if x.st = 6 then 9 else 2 }
      if (s.port y k).st = 6 then u.linkDown y k (s.port y k).port 9 else u
    else if (s.port y k).perstHeld then t.retrainEnds y k false
    else t.updPort y k fun x => { x with st := if x.st = 6 ∨ x.st = 8 ∨ x.st = 7 then 7 else 2, holdSince := s.now } := by
  have hyard (key : Nat) (args : List Nat) : (s.accept c key args).yard (fld c.payload 0 1) = s.yard (fld c.payload 0 1) := by
    simp [State.yard]
  have hnow (key : Nat) (args : List Nat) : (s.accept c key args).now = s.now := by simp [State.now]
  unfold flxRetrainBody
  dsimp only
  rw [if_neg (by simp; omega), if_neg (by simp [hport])]
  simp only [hyard, hnow, Bool.or_eq_true, decide_eq_true_eq, or_assoc]
  rfl

end

theorem flxMarginBody_endpoint (hy : fld c.payload 0 1 = 0) (hk : fld c.payload 1 1 = 0) (hst : s.ep.st = 6) :
    flxMarginBody c s = (s.accept c (fld c.payload 1 1) []).updEp fun e => { e with scanning := true } := by
  have hactive : s.ep.st = fxActive := hst
  simp [flxMarginBody, hy, hk, State.flexPortAt, hactive]

end

/-! ## Margin scans -/

section

variable {s : State}

theorem marginScan_port {y k : Nat} (hy : y < s.yards.length) (hk : k < (s.yard (y + 1)).ports.length) :
    s.marginScan.port (y + 1) k = { s.port (y + 1) k with
      scanning := (s.port (y + 1) k).scanning || ((s.port (y + 1) k).port.isSome && (s.port (y + 1) k).st == 6) } := by
  have hyard : s.yard (y + 1) = s.yards[y] := List.getD_eq_getElem _ _ hy
  rw [hyard] at hk
  simp [State.marginScan, State.port, State.yard, hy, hk, fxActive]

/-- The smallest margin that a scan has measured. -/
theorem marginDone_endpoint {f : MarginFacts} {a v : Nat} {as vs : List Nat} (htiming : f.timing = a :: as)
    (hvoltage : f.voltage = v :: vs) (hscan : s.ep.scanning = true) :
    (s.marginDone 0 0 f).ep = { s.ep with margin := (as.foldl min a, vs.foldl min v), marginTbm := some s.now, scanning := false } ∧
      (s.marginDone 0 0 f).yards = s.yards := by
  simp [State.marginDone, hscan, htiming, hvoltage]

theorem marginDone_port {f : MarginFacts} {a v y k : Nat} {as vs : List Nat} (htiming : f.timing = a :: as)
    (hvoltage : f.voltage = v :: vs) (hy : 1 ≤ y) (hscan : (s.port y k).scanning = true) :
    (s.marginDone y k f).port y k =
        { s.port y k with margin := (as.foldl min a, vs.foldl min v), marginTbm := some s.now, scanning := false } ∧
      (s.marginDone y k f).ep = s.ep := by
  have hyard : y ≠ 0 := by omega
  constructor
  · refine (port_congr ?_).trans (updPort_port_self (f := fun x =>
      { x with margin := (as.foldl min a, vs.foldl min v), marginTbm := some s.now, scanning := false })
      (port_ne_reset_of_scanning hscan))
    simp [State.marginDone, hscan, htiming, hvoltage, hyard]
  · simp [State.marginDone, hscan, hyard]

end

/-- Settles O51: the commands by their bodies, the scans field by field. That FLX_MARGIN of a port that is not ACTIVE ends HW_FAULT, and
that an Ethernet retrain goes from ACTIVE to ALIGN, are readings of log entry 29. -/
theorem flexCommandsAndMargins : Obligations.FlexCommandsAndMargins := by
  refine ⟨?commands, fun s => ⟨s.marginScan, rfl, rfl, rfl, fun y k hy hk => marginScan_port hy hk⟩,
    fun f a v as vs s htiming hvoltage => ⟨fun hscan => ?endpointDone, fun y k hy _ hscan => ?portDone⟩⟩
  case commands =>
    intro b s t c y k
    refine ⟨?infoEndpoint, ?infoPort, ?marginEndpoint, ?marginActive, ?marginFault, ?retrainRoot, ?retrainEth, ?retrainEthDown⟩
    case infoEndpoint => exact fun h hy hk => take_next h (flxLinkInfoBody_endpoint hy hk)
    case infoPort => exact fun h hlow hhigh hk hmode => take_next h (flxLinkInfoBody_port hlow hhigh hk hmode)
    case marginEndpoint => exact fun h hy hk hst => take_next h (flxMarginBody_endpoint hy hk hst)
    case marginActive =>
      exact fun h hlow hhigh hport hst => take_next h ((flxMarginBody_port hlow hhigh hport).trans (if_pos hst))
    case marginFault =>
      exact fun h hlow hhigh hport hst => take_next h ((flxMarginBody_port hlow hhigh hport).trans (if_neg hst))
    case retrainRoot =>
      intro h hlow hhigh hport hmode hperst
      exact take_next h ((flxRetrainBody_port hlow hhigh hport).trans ((if_neg hmode).trans (if_neg (ne_true_of_eq_false hperst))))
    case retrainEth =>
      exact fun h hlow hhigh hport hmode hst =>
        take_next h ((flxRetrainBody_port hlow hhigh hport).trans ((if_pos hmode).trans (if_neg hst)))
    case retrainEthDown =>
      exact fun h hlow hhigh hport hmode hst =>
        take_next h ((flxRetrainBody_port hlow hhigh hport).trans ((if_pos hmode).trans (if_pos hst)))
  case endpointDone =>
    obtain ⟨hep, hyards⟩ := marginDone_endpoint htiming hvoltage hscan
    exact ⟨_, rfl, by rw [hep], by rw [hep], by rw [hep], hyards⟩
  case portDone =>
    obtain ⟨hport, hep⟩ := marginDone_port htiming hvoltage hy hscan
    exact ⟨_, rfl, by rw [hport], by rw [hport], by rw [hport], hep⟩

end Sys2Proof.Machine

/-! SUPPORT. Observability and the error log: what events and Halyard leave of it, and what an entry of the log holds (R640, R641, R644). -/

namespace Sys2Proof.Machine

open Sys2Proof

/-! ## Events leave observability alone but for Halyard's own fields -/

@[simp] theorem obs_ite (c : Prop) [Decidable c] (s t : State) : (if c then s else t).obs = if c then s.obs else t.obs := apply_ite ..

@[simp] theorem sendVector_obs (s : State) (v : Nat) : (s.sendVector v).obs = s.obs := by
  simp [State.sendVector]

@[simp] theorem askVector_obs (s : State) (v : Nat) : (s.askVector v).obs = s.obs := by
  unfold State.askVector
  split <;> simp

@[simp] theorem setCause_obs (s : State) (b : Nat) : (s.setCause b).obs = s.obs := by simp [State.setCause]

@[simp] theorem eqOwed_obs (s : State) : s.eqOwed.obs = s.obs := by
  simp [State.eqOwed, State.eqWrite]

theorem eachAsk_obs (vs : List Nat) (s : State) : (each vs (fun v s => s.askVector v) s).obs = s.obs :=
  each_proj (π := State.obs) (fun v t => askVector_obs t v) vs s

@[simp] theorem post_obs (s : State) (code src : Nat) (body : List Byte) : (s.post code src body).obs = s.obs := by
  simp [State.post, eachAsk_obs, State.eqWrite]

/-- What a Halyard pulse leaves of observability: the next number, the counters and histograms frozen, and a pulse of its own that
pends when the event it posts is listed (R649, R651, R652). -/
theorem halPulse_obs (s : State) (sources merged : Nat) : (s.halPulse sources merged).obs =
    { s.obs with
      halSeq := s.obs.halSeq + 1, halLast := some s.now, halPending := if s.halListed 0x0904 then some (2, 0) else none,
      snpSources := sources, snpSeq := s.obs.halSeq + 1,
      banks := s.obs.banks.set ((s.obs.halSeq + 1).toNat % 2) (snapRecords s (s.obs.halSeq + 1) sources),
      freezeSeq := s.obs.halSeq + 1, counters := s.obs.counters.map (fun c => { c with frozen := c.value, frozenOvf := c.overflow }),
      hists := s.obs.hists.map (fun h => { h with frozen := h.bins }) } := by
  unfold State.halPulse
  extract_lets n o recs frozen pinned asked posted
  have hpinned : pinned.obs = frozen.obs := by
    unfold pinned
    split <;> rfl
  have hposted : posted.obs = frozen.obs := by simp [posted, asked, hpinned]
  have hlisted : posted.halListed 0x0904 = s.halListed 0x0904 := by
    unfold State.halListed State.halSource State.obsSet
    rw [hposted]
  rw [hlisted]
  split
  · exact congrArg (fun o : Obs => { o with halPending := some (2, 0) }) hposted
  · exact hposted

/-- The self-tests and the counts of the classes are as before. -/
structure SameTests (s t : State) : Prop where
  tests : t.obs.tests = s.obs.tests
  counts : t.obs.classCount = s.obs.classCount

theorem SameTests.trans {s t u : State} (h : SameTests s t) (h' : SameTests t u) : SameTests s u :=
  ⟨h'.tests.trans h.tests, h'.counts.trans h.counts⟩

theorem sameTests_of_obs {s t : State} (h : t.obs = s.obs) : SameTests s t := ⟨by rw [h], by rw [h]⟩

theorem SameTests.ite {c : Prop} [Decidable c] {s t u : State} (ht : SameTests s t) (hu : SameTests s u) :
    SameTests s (if c then t else u) := by
  split
  · exact ht
  · exact hu

theorem halPulse_sameTests (s : State) (sources merged : Nat) : SameTests s (s.halPulse sources merged) :=
  ⟨by rw [halPulse_obs], by rw [halPulse_obs]⟩

theorem halTrigger_sameTests (s : State) (source : Nat) : SameTests s (s.halTrigger source) := by
  unfold State.halTrigger
  split
  · exact ⟨rfl, rfl⟩
  · exact .ite (halPulse_sameTests s _ _) ⟨rfl, rfl⟩

theorem raise_sameTests (s : State) (code src : Nat) (body : List Byte) : SameTests s (s.raise code src body) :=
  (sameTests_of_obs (post_obs s code src body)).trans (.ite (halTrigger_sameTests _ 1) ⟨rfl, rfl⟩)

theorem errUpdated_sameTests (s : State) (seq : Nat) : SameTests s (s.errUpdated seq) := by
  unfold State.errUpdated
  split
  · exact ⟨rfl, rfl⟩
  · exact (sameTests_of_obs (askVector_obs s 21)).trans (raise_sameTests _ _ _ _)

theorem errDecide_sameTests (s : State) (seq : Nat) (passed : Option Bool) (result extra : Nat) :
    SameTests s (s.errDecide seq passed result extra) :=
  SameTests.trans (t := s.setErrEntry seq _) ⟨rfl, rfl⟩ (errUpdated_sameTests _ seq)

/-! ## A new entry -/

/-- The entry of an error as it is written (R641). -/
def State.errEntry (s : State) (cls : Nat) (l : Loc) (i : ErrInfo) : ErrEntry :=
  { seq := s.nv.errSeq + 1, cls := cls, outcome := if 7 ≤ cls then ocLogOnly else ocPending, flags := i.flags, loc := l,
    tbm := s.now, clock := s.healthClock, count := sat 8 (s.errCount l + if bit i.flags 5 then 0 else 1),
    master := i.master, tag := i.tag, ctx := i.ctx, detail := i.detail, result := 0 }

section

variable (s : State) (cls : Nat) (l : Loc) (i : ErrInfo)

theorem errWrite_nv : (s.errWrite cls l i).nv =
    { s.nv with errLog := s.errEntry cls l i :: s.nv.errLog.take 16383, errSeq := s.nv.errSeq + 1 } := by
  simp [State.errWrite, State.errEntry]

theorem errWrite_tests : (s.errWrite cls l i).obs.tests = s.obs.tests ∧ (s.errWrite cls l i).obs.classCount =
    upd s.obs.classCount cls (· + BitVec.ofNat 32 (if bit i.flags 5 then 0 else 1)) := by
  unfold State.errWrite
  extract_lets seq counted e obs nv written asked raised
  have hraised : SameTests written raised :=
    (sameTests_of_obs (askVector_obs written 21)).trans (raise_sameTests asked _ _ _)
  have hlast : SameTests written (if raised.halSource 3 && bit (fld raised.obsSet 8 2) cls then raised.halTrigger 3 else raised) :=
    .ite (hraised.trans (halTrigger_sameTests raised 3)) hraised
  exact ⟨hlast.tests, hlast.counts⟩

/-- A change of entries that leaves alone which error each is of, and what was found when it was written. -/
structure SameError (f : ErrEntry → ErrEntry) : Prop where
  seq : ∀ e, (f e).seq = e.seq
  cls : ∀ e, (f e).cls = e.cls
  loc : ∀ e, (f e).loc = e.loc
  tbm : ∀ e, (f e).tbm = e.tbm
  master : ∀ e, (f e).master = e.master
  tag : ∀ e, (f e).tag = e.tag
  ctx : ∀ e, (f e).ctx = e.ctx
  detail : ∀ e, (f e).detail = e.detail

theorem SameError.comp {f g : ErrEntry → ErrEntry} (hg : SameError g) (hf : SameError f) : SameError (g ∘ f) where
  seq e := (hg.seq _).trans (hf.seq e)
  cls e := (hg.cls _).trans (hf.cls e)
  loc e := (hg.loc _).trans (hf.loc e)
  tbm e := (hg.tbm _).trans (hf.tbm e)
  master e := (hg.master _).trans (hf.master e)
  tag e := (hg.tag _).trans (hf.tag e)
  ctx e := (hg.ctx _).trans (hf.ctx e)
  detail e := (hg.detail _).trans (hf.detail e)

/-- Flags, outcome and result of the entry with a number change. -/
theorem sameError_marks (seq : Nat) (flags outcome result : ErrEntry → Nat) :
    SameError fun e => if e.seq = seq then { e with flags := flags e, outcome := outcome e, result := result e } else e := by
  refine ⟨?_, ?_, ?_, ?_, ?_, ?_, ?_, ?_⟩
  all_goals
    intro e
    split <;> rfl

variable {s cls l i}

/-- `t` has the log of `s`, but for flags, outcomes and results of its entries. -/
def SameErrors (s t : State) : Prop := ∃ f, SameError f ∧ t.nv = { s.nv with errLog := s.nv.errLog.map f }

theorem SameErrors.trans {t u : State} (h : SameErrors s t) (h' : SameErrors t u) : SameErrors s u := by
  obtain ⟨f, hf, ht⟩ := h
  obtain ⟨g, hg, hu⟩ := h'
  exact ⟨g ∘ f, hg.comp hf, by rw [hu, ht, ← List.map_map]⟩

theorem sameErrors_of_nv {t : State} (h : t.nv = s.nv) : SameErrors s t :=
  ⟨id, ⟨fun _ => rfl, fun _ => rfl, fun _ => rfl, fun _ => rfl, fun _ => rfl, fun _ => rfl, fun _ => rfl, fun _ => rfl⟩,
    by rw [h, List.map_id]⟩

theorem setErrEntry_sameErrors (seq : Nat) (flags outcome result : ErrEntry → Nat) : SameErrors s
    (s.setErrEntry seq fun e => { e with flags := flags e, outcome := outcome e, result := result e }) :=
  ⟨_, sameError_marks seq flags outcome result, rfl⟩

theorem errUpdated_sameErrors (s : State) (seq : Nat) : SameErrors s (s.errUpdated seq) := sameErrors_of_nv (by simp)

theorem errDecide_sameErrors (s : State) (seq : Nat) (passed : Option Bool) (result extra : Nat) :
    SameErrors s (s.errDecide seq passed result extra) :=
  (setErrEntry_sameErrors seq _ _ _).trans (errUpdated_sameErrors _ seq)

@[simp] theorem updPort_nv (s : State) (y k : Nat) (f : FlexPort → FlexPort) : (s.updPort y k f).nv = s.nv := rfl

@[simp] theorem updPort_obs (s : State) (y k : Nat) (f : FlexPort → FlexPort) : (s.updPort y k f).obs = s.obs := rfl

@[simp] theorem scanAtOnce_nv (s : State) (l : Loc) : (s.scanAtOnce l).nv = s.nv := by
  simp [State.scanAtOnce]

@[simp] theorem scanAtOnce_obs (s : State) (l : Loc) : (s.scanAtOnce l).obs = s.obs := by
  simp [State.scanAtOnce]

theorem errQueue_sameErrors (s : State) (cls : Nat) (l : Loc) (seq : Nat) : SameErrors s (s.errQueue cls l seq) := by
  unfold State.errQueue
  split
  · exact (setErrEntry_sameErrors seq _ _ _).trans (errUpdated_sameErrors _ seq)
  · split
    · exact setErrEntry_sameErrors seq _ _ _
    · split
      · exact (setErrEntry_sameErrors seq _ _ _).trans (errDecide_sameErrors _ _ _ _ _)
      · exact sameErrors_of_nv (by simp)

theorem errQueue_counts (s : State) (cls : Nat) (l : Loc) (seq : Nat) :
    (s.errQueue cls l seq).obs.classCount = s.obs.classCount := by
  unfold State.errQueue
  split
  · exact (errUpdated_sameTests _ seq).counts
  · split
    · rfl
    · split
      · exact (errDecide_sameTests _ _ _ _ _).counts
      · simp

/-- `e` is the entry of an error that `s` has just met. -/
structure EntryOf (s : State) (cls : Nat) (l : Loc) (i : ErrInfo) (e : ErrEntry) : Prop where
  seq : e.seq = s.nv.errSeq + 1
  cls : e.cls = cls
  loc : e.loc = l
  tbm : e.tbm = s.now
  master : e.master = i.master
  tag : e.tag = i.tag
  ctx : e.ctx = i.ctx
  detail : e.detail = i.detail

theorem errEntry_entryOf : EntryOf s cls l i (s.errEntry cls l i) := ⟨rfl, rfl, rfl, rfl, rfl, rfl, rfl, rfl⟩

theorem EntryOf.map {e : ErrEntry} {f : ErrEntry → ErrEntry} (he : EntryOf s cls l i e) (hf : SameError f) :
    EntryOf s cls l i (f e) where
  seq := (hf.seq e).trans he.seq
  cls := (hf.cls e).trans he.cls
  loc := (hf.loc e).trans he.loc
  tbm := (hf.tbm e).trans he.tbm
  master := (hf.master e).trans he.master
  tag := (hf.tag e).trans he.tag
  ctx := (hf.ctx e).trans he.ctx
  detail := (hf.detail e).trans he.detail

/-- A logged error has the newest entry, with the next number; nothing else of the non-volatile store changes but other entries. -/
theorem logError_nv (s : State) (cls : Nat) (l : Loc) (i : ErrInfo) : ∃ e rest, EntryOf s cls l i e ∧
    (s.logError cls l i).nv = { s.nv with errLog := e :: rest, errSeq := s.nv.errSeq + 1 } := by
  unfold State.logError
  dsimp only
  split
  · exact ⟨_, _, errEntry_entryOf, errWrite_nv s cls l i⟩
  · obtain ⟨f, hf, hnv⟩ := errQueue_sameErrors (s.errWrite cls l i) cls l (s.errWrite cls l i).nv.errSeq
    exact ⟨_, _, errEntry_entryOf.map hf, by rw [hnv, errWrite_nv, List.map_cons]⟩

theorem logError_errSeq (s : State) (cls : Nat) (l : Loc) (i : ErrInfo) : (s.logError cls l i).nv.errSeq = s.nv.errSeq + 1 := by
  obtain ⟨e, rest, -, hnv⟩ := logError_nv s cls l i
  rw [hnv]

theorem logError_counts (s : State) (cls : Nat) (l : Loc) (i : ErrInfo) : (s.logError cls l i).obs.classCount =
    upd s.obs.classCount cls (· + BitVec.ofNat 32 (if bit i.flags 5 then 0 else 1)) := by
  unfold State.logError
  dsimp only
  split
  · exact (errWrite_tests s cls l i).2
  · exact (errQueue_counts _ _ _ _).trans (errWrite_tests s cls l i).2

/-- From class 7 on an error is logged and not tested (R641). -/
theorem logError_only (s : State) {cls : Nat} (l : Loc) (i : ErrInfo) (h : 7 ≤ cls) :
    (s.logError cls l i).nv.errLog = s.errEntry cls l i :: s.nv.errLog.take 16383 ∧
      (s.logError cls l i).obs.tests = s.obs.tests := by
  have hwrite : s.logError cls l i = s.errWrite cls l i := if_pos h
  rw [hwrite, errWrite_nv]
  exact ⟨rfl, (errWrite_tests s cls l i).1⟩

end

end Sys2Proof.Machine

/-! SUPPORT. Links of root ports, Ethernet ports and the endpoint, and the errors of a flex port (R530 to R542, R547). -/

namespace Sys2Proof.Machine

open Sys2Proof

/-! ## What leaves links and drives in their states -/

/-- Every flex port is as before, and every drive in the state that it had. -/
structure SameLinks (s t : State) : Prop where
  yards : t.yards = s.yards
  drives : ∀ p, (t.drive p).st = (s.drive p).st

theorem SameLinks.trans {s t u : State} (h : SameLinks s t) (h' : SameLinks t u) : SameLinks s u :=
  ⟨h'.yards.trans h.yards, fun p => (h'.drives p).trans (h.drives p)⟩

theorem SameLinks.refl (s : State) : SameLinks s s := ⟨rfl, fun _ => rfl⟩

theorem sameLinks_of_eq {s t : State} (hyards : t.yards = s.yards) (hdrives : t.drives = s.drives) : SameLinks s t :=
  ⟨hyards, fun p => by rw [State.drive, State.drive, hdrives]⟩

theorem SameLinks.each {α : Type} {f : α → State → State} (hf : ∀ a t, SameLinks t (f a t)) (l : List α) (s : State) :
    SameLinks s (each l f s) :=
  each_keeps (P := SameLinks s) l (.refl s) fun a _ t ht => ht.trans (hf a t)

theorem updDrive_sameLinks (s : State) (p : Nat) {f : Drive → Drive} (hf : ∀ d, (f d).st = d.st) : SameLinks s (s.updDrive p f) :=
  ⟨rfl, fun q => upd_getD_keep Drive.st hf s.drives p q Drive.reset⟩

theorem finishAll_sameLinks (s : State) (op key status : Nat) (result : List Byte) (response : Option (List Byte)) :
    SameLinks s (s.finishAll op key status result response) := sameLinks_of_eq (by simp) (by simp)

theorem raise_sameLinks (s : State) (code src : Nat) (body : List Byte) : SameLinks s (s.raise code src body) :=
  sameLinks_of_eq (by simp) (by simp)

theorem loadLuts_sameLinks (s : State) (bs : List Block) : SameLinks s (s.loadLuts bs) := by
  refine .each (fun b t => ?_) _ s
  dsimp only
  split
  · exact .refl t
  · split <;> exact sameLinks_of_eq (by simp) (by simp)

theorem armGen_sameLinks (s : State) (g : Gen) (kind : ArmKind) (timeoutMs : Nat) : SameLinks s (s.armGen g kind timeoutMs) :=
  ((sameLinks_of_eq rfl rfl : SameLinks s (s.updCfg _)).trans (loadLuts_sameLinks _ _)).trans (raise_sameLinks _ _ _ _)

theorem probationFail_sameLinks (s : State) (row ctx : Nat) : SameLinks s (s.probationFail row ctx) := by
  unfold State.probationFail
  split
  · exact .refl s
  · split
    · exact .refl s
    · dsimp only
      split
      · refine SameLinks.trans ?_ (loadLuts_sameLinks _ _)
        exact sameLinks_of_eq (by simp) (by simp)
      · refine SameLinks.trans ?_ (armGen_sameLinks _ _ _ _)
        exact sameLinks_of_eq rfl rfl
      · exact sameLinks_of_eq rfl rfl

theorem relocate_sameLinks (s : State) (n p : Nat) : SameLinks s (s.relocate n p).2 := by
  unfold State.relocate
  extract_lets t zs ids hit cut ended failed unqueued dropped
  have hfailed : SameLinks s failed := by
    refine SameLinks.trans (t := ended) (sameLinks_of_eq rfl rfl) (.each (fun j u => ?_) _ ended)
    split
    · exact probationFail_sameLinks u _ _
    · exact .refl u
  have hdropped : SameLinks failed dropped :=
    SameLinks.trans (t := unqueued) (sameLinks_of_eq rfl rfl) (updDrive_sameLinks unqueued p fun _ => rfl)
  refine (hfailed.trans hdropped).trans (.each (fun z u => ?_) _ dropped)
  split <;> exact sameLinks_of_eq rfl rfl

theorem relocateAll_sameLinks (s : State) (p : Nat) : SameLinks s (s.relocateAll p).2 :=
  List.foldlRecOn (motive := fun a : Nat × State => SameLinks s a.2) _ _ (.refl s) fun a ha n _ =>
    ha.trans (relocate_sameLinks a.2 n p)

theorem errWrite_sameLinks (s : State) (cls : Nat) (l : Loc) (i : ErrInfo) : SameLinks s (s.errWrite cls l i) :=
  sameLinks_of_eq (by simp [State.errWrite]) (by simp [State.errWrite])

theorem logError_of_high (s : State) {cls : Nat} (l : Loc) (i : ErrInfo) (h : 7 ≤ cls) : s.logError cls l i = s.errWrite cls l i :=
  if_pos h

theorem driveFault_sameLinks (s : State) (p status : Nat) : SameLinks s (s.driveFault p status) := by
  unfold State.driveFault
  dsimp only
  rw [logError_of_high _ _ _ (Nat.le_refl 7)]
  exact ((relocateAll_sameLinks s p).trans (raise_sameLinks _ _ _ _)).trans (errWrite_sameLinks _ _ _ _)

/-- A port reset leaves every link and every other drive's state, and its own drive RESETTING (R458, R466). -/
theorem portReset_links (s : State) (p : Nat) (fault : Option Nat) : (s.portReset p fault).yards = s.yards ∧
    (p < s.drives.length → ((s.portReset p fault).drive p).st = .resetting) := by
  unfold State.portReset
  extract_lets began gone
  have hgone : SameLinks began gone := by
    unfold gone
    split
    · exact driveFault_sameLinks began p _
    · exact relocateAll_sameLinks began p
  have hlast : SameLinks began ((gone.updDrive p fun d => { d with cmds := [] }).failAtDrive p) :=
    (hgone.trans (updDrive_sameLinks gone p (f := fun d => { d with cmds := [] }) fun _ => rfl)).trans (sameLinks_of_eq (by simp) (by simp))
  refine ⟨hlast.yards, fun hp => (hlast.drives p).trans ?_⟩
  exact congrArg Drive.st (upd_getD_self Drive.reset hp)

/-- The command that brings a drive up wakes its port from L1 alone, and puts the drive in INIT (R456, R531). -/
theorem bringUp_links {s : State} {p : Nat} (hlisted : s.port (rootYard p) (rootSlot p) ≠ FlexPort.reset)
    (hst : (s.port (rootYard p) (rootSlot p)).st ≠ 8) :
    (s.bringUp p).port (rootYard p) (rootSlot p) = s.port (rootYard p) (rootSlot p) ∧
      (p < s.drives.length → ((s.bringUp p).drive p).st = .init) := by
  refine ⟨(updPort_port_self (f := fun x => if x.st = 8 then { x with st := 6 } else x) hlisted).trans (if_neg hst), fun hp => ?_⟩
  refine (upd_getD_keep Drive.st (f := fun d => { d with cmds := d.cmds ++ [_], idleSince := _ }) (fun _ => rfl) _ p p
    Drive.reset).trans ?_
  exact congrArg Drive.st (upd_getD_self Drive.reset hp)

/-! ## Root ports -/

section

variable {s : State} {y k : Nat}

@[simp] theorem updPort_drives (s : State) (y k : Nat) (f : FlexPort → FlexPort) : (s.updPort y k f).drives = s.drives := rfl

@[simp] theorem testScan_drives (s : State) (y k : Nat) : (s.testScan y k).drives = s.drives := by
  simp [State.testScan]

theorem testScan_port (h : s.port y k ≠ FlexPort.reset) :
    ∃ b, (s.testScan y k).port y k = { s.port y k with scanning := b } := by
  unfold State.testScan
  split
  · exact ⟨true, updPort_port_self h⟩
  · exact ⟨_, rfl⟩

theorem retrainEnds_idle {ok : Bool} (h : s.executing 0x0E03 (16 * y + k) = []) : s.retrainEnds y k ok = s := by
  simp [State.retrainEnds, State.finishAll, h, each_nil]

theorem retrainEnds_sameLinks (s : State) (y k : Nat) (ok : Bool) : SameLinks s (s.retrainEnds y k ok) :=
  finishAll_sameLinks s _ _ _ _ _

end

/-- The slot that the row of a root port names stands as a root port's in FLEX_SET. -/
structure RootPort (s : State) (p : Nat) : Prop where
  mode : (s.yard (rootYard p)).mode = 2
  port : (s.port (rootYard p) (rootSlot p)).port = some p

section

variable {s : State} {p : Nat}

/-- A root port after its link has been measured and, when it came up afresh, reported (R534, R547). -/
def State.measured (s : State) (p : Nat) (f : LinkFacts) : State :=
  (s.updPort (rootYard p) (rootSlot p) fun x => { x with rate := f.rate, width := f.width, trainUs := f.micros }).linkUp
    (rootYard p) (rootSlot p) (some p) f.rate f.width f.micros

theorem linkUp_yards (s : State) (y k : Nat) (port : Option Nat) (rate width micros : Nat) :
    (s.linkUp y k port rate width micros).yards = s.yards := by simp

@[simp] theorem measured_drives (s : State) (p : Nat) (f : LinkFacts) : (s.measured p f).drives = s.drives := by
  simp [State.measured]

theorem measured_port (h : s.port (rootYard p) (rootSlot p) ≠ FlexPort.reset) (f : LinkFacts) :
    (s.measured p f).port (rootYard p) (rootSlot p) =
      { s.port (rootYard p) (rootSlot p) with rate := f.rate, width := f.width, trainUs := f.micros } :=
  (port_congr (linkUp_yards _ _ _ _ _ _ _)).trans (updPort_port_self h)

/-- Whether a link that was measured lies below the minimum of its slot (R534). -/
def State.fallsShort (s : State) (p : Nat) (f : LinkFacts) : Bool :=
  f.rate < fld (s.slotIn (rootYard p) (rootSlot p)) 4 1 || f.width < fld (s.slotIn (rootYard p) (rootSlot p)) 5 1

/-- A measured link becomes ACTIVE: it is scanned for a running test, reported when it is newly degraded, its idle time starts, a
retrain that was asked for ends, and an absent drive is brought up (R456, R531, R534, R646). -/
def State.settlesActive (s : State) (p : Nat) (f : LinkFacts) (short warn : Bool) : State :=
  let active := (s.updPort (rootYard p) (rootSlot p) fun x => { x with st := 6, degraded := short, retrainFails := 0 }).testScan
    (rootYard p) (rootSlot p)
  let warned := if warn then active.raise 0x0E03 (srcYard (rootYard p)) (le 1 (rootSlot p) ++ le 1 p ++ le 1 f.rate ++ le 1 f.width)
    else active
  let ended := (warned.updDrive p fun d => { d with idleSince := warned.now }).retrainEnds (rootYard p) (rootSlot p) true
  if (ended.drive p).st == .absent then ended.bringUp p else ended

/-- A training that starts from DETECT ends in ACTIVE, or trains once more through RECOVERY (R534). -/
theorem linkActive_eq (h : RootPort s p) (f : LinkFacts) (hlow : 2 ≤ (s.port (rootYard p) (rootSlot p)).st)
    (hhigh : (s.port (rootYard p) (rootSlot p)).st ≤ 5) (hkept : s.flexRetired (rootYard p) (rootSlot p) = false) :
    s.linkActive p f =
      if (s.fallsShort p f && !(s.port (rootYard p) (rootSlot p)).retried) = true then
        (s.measured p f).updPort (rootYard p) (rootSlot p) fun x =>
          { x with st := 7, retried := true, holdSince := (s.measured p f).now }
      else (s.measured p f).settlesActive p f (s.fallsShort p f)
        (s.fallsShort p f && !(s.port (rootYard p) (rootSlot p)).degraded) := by
  have hgoes : ¬ (((s.yard (rootYard p)).mode != 2 || (s.port (rootYard p) (rootSlot p)).port != some p ||
      !(decide (fxDetect ≤ (s.port (rootYard p) (rootSlot p)).st) && decide ((s.port (rootYard p) (rootSlot p)).st ≤ 5) ||
        (s.port (rootYard p) (rootSlot p)).st == fxRecovery) ||
      (s.flexRetired (rootYard p) (rootSlot p) && (s.port (rootYard p) (rootSlot p)).st != fxRecovery)) = true) := by
    simp [h.mode, h.port, hkept, fxDetect, hlow, hhigh]
  have hfresh : (s.port (rootYard p) (rootSlot p)).st ≠ fxRecovery := by simp only [fxRecovery]; omega
  unfold State.linkActive
  dsimp only
  rw [if_neg hgoes, if_pos hfresh]
  rfl

/-- Where a training ends that meets the minimum, or that was tried before (R534). -/
theorem settlesActive_links {s : State} (h : s.port (rootYard p) (rootSlot p) ≠ FlexPort.reset) (f : LinkFacts) (short warn : Bool) :
    (∃ b, (s.settlesActive p f short warn).port (rootYard p) (rootSlot p) =
      { s.port (rootYard p) (rootSlot p) with st := 6, degraded := short, retrainFails := 0, scanning := b }) ∧
      (p < s.drives.length → (s.drive p).st = .absent → ((s.settlesActive p f short warn).drive p).st = .init) := by
  unfold State.settlesActive
  extract_lets active warned ended
  have hset : (s.updPort (rootYard p) (rootSlot p) fun x => { x with st := 6, degraded := short, retrainFails := 0 }).port
      (rootYard p) (rootSlot p) =
        { s.port (rootYard p) (rootSlot p) with st := 6, degraded := short, retrainFails := 0 } := updPort_port_self h
  obtain ⟨b, hactive⟩ := testScan_port (port_ne_reset_of_st ((congrArg FlexPort.st hset).trans_ne (by simp)))
  rw [hset] at hactive
  have hwarned : warned.yards = active.yards ∧ warned.drives = s.drives := by
    unfold warned
    split <;> simp [active]
  have hended : ended.yards = active.yards ∧ ended.drives = upd s.drives p fun d => { d with idleSince := warned.now } := by
    simp [ended, hwarned]
  obtain ⟨hyards, hdrives⟩ := hended
  have hport := (port_congr hyards).trans hactive
  have hdrive : (ended.drive p).st = (s.drive p).st := by
    rw [State.drive, hdrives]
    exact upd_getD_keep Drive.st (f := fun d => { d with idleSince := warned.now }) (fun _ => rfl) _ p p _
  split
  next =>
    have hst : (ended.port (rootYard p) (rootSlot p)).st = 6 := by rw [hport]
    obtain ⟨hbrought, hinit⟩ := bringUp_links (port_ne_reset_of_st (hst.trans_ne (by decide))) (hst.trans_ne (by decide))
    exact ⟨⟨b, hbrought.trans hport⟩, fun hp _ => hinit (by rwa [hdrives, upd_length])⟩
  next hpresent => exact ⟨⟨b, hport⟩, fun _ habsent => absurd (by simp [hdrive, habsent]) hpresent⟩

/-- A root port departs: its link is down in a state, its departures count, and a drive that was ready or in INIT is reset (R466, R539). -/
theorem rootDown_links (h : s.port (rootYard p) (rootSlot p) ≠ FlexPort.reset) (st : Nat) :
    (s.rootDown p st).port (rootYard p) (rootSlot p) =
        { s.port (rootYard p) (rootSlot p) with
          st := st, degraded := false, retried := false, rate := 0, width := 0,
          linkDowns := satInc 16 (s.port (rootYard p) (rootSlot p)).linkDowns, holdSince := s.now } ∧
      (p < s.drives.length → (s.drive p).st = .ready → ((s.rootDown p st).drive p).st = .resetting) := by
  unfold State.rootDown
  extract_lets y k left told
  have htold : told.yards = left.yards ∧ told.drives = s.drives := by simp [told, left]
  obtain ⟨hyards, hdrives⟩ := htold
  obtain ⟨hreset, hresetting⟩ := portReset_links told p (some 0)
  have hport : told.port y k = { s.port y k with st := st, degraded := false, retried := false, rate := 0, width := 0, linkDowns := satInc 16 (s.port y k).linkDowns, holdSince := s.now } :=
    (port_congr hyards).trans (updPort_port_self h)
  split
  · exact ⟨(port_congr hreset).trans hport, fun hp _ => hresetting (by rwa [hdrives])⟩
  next hleft =>
    refine ⟨hport, fun _ hready => absurd ?_ hleft⟩
    simp [State.drive, hdrives] at hready ⊢
    simp [hready]

/-! ## Time limits of a root port -/

theorem retryDetect_early (hnow : s.now < (s.port (rootYard p) (rootSlot p)).holdSince + 1000000000) : s.retryDetect p = s := by
  unfold State.retryDetect
  exact if_pos (by simpa [sec] using .inr hnow)

/-- With no FLX_RETRAIN asked for, none fails (R539). -/
theorem countRetrain_unasked {y k : Nat} (hidle : s.executing 0x0E03 (16 * y + k) = []) : s.countRetrain y k =
    (0xA, s.updPort y k fun x => { x with retrainFails := (s.port y k).retrainFails }) := by
  simp [State.countRetrain, hidle, b2n, fxDown]

section

variable (h : RootPort s p)

include h

theorem retryDetect_due (hnow : (s.port (rootYard p) (rootSlot p)).holdSince + 1000000000 ≤ s.now) :
    ¬ (((s.port (rootYard p) (rootSlot p)).port != some p || (s.yard (rootYard p)).mode != 2 ||
      decide (s.now < (s.port (rootYard p) (rootSlot p)).holdSince + sec 1)) = true) := by
  simpa [h.port, h.mode, sec] using hnow

/-- A port that has trained for 1 s in vain rests (R534). -/
theorem retryDetect_rests (hnow : (s.port (rootYard p) (rootSlot p)).holdSince + 1000000000 ≤ s.now)
    (hidle : s.executing 0x0E03 (16 * rootYard p + rootSlot p) = [])
    (hlow : 2 ≤ (s.port (rootYard p) (rootSlot p)).st) (hhigh : (s.port (rootYard p) (rootSlot p)).st ≤ 5) :
    s.retryDetect p = { s with yards := (s.retryDetect p).yards } ∧ ((s.retryDetect p).port (rootYard p) (rootSlot p)).st = 0xA := by
  have hlisted := port_ne_reset_of_port h.port
  have hsame : (s.updPort (rootYard p) (rootSlot p) fun x =>
      { x with retrainFails := (s.port (rootYard p) (rootSlot p)).retrainFails }).port (rootYard p) (rootSlot p) =
      s.port (rootYard p) (rootSlot p) := updPort_port_self hlisted
  have heq : s.retryDetect p = ((s.updPort (rootYard p) (rootSlot p) fun x =>
      { x with retrainFails := (s.port (rootYard p) (rootSlot p)).retrainFails }).updPort (rootYard p) (rootSlot p) fun x =>
        { x with st := 0xA, holdSince := s.now }) := by
    unfold State.retryDetect
    dsimp only
    rw [if_neg (retryDetect_due h hnow), if_pos (by simp [fxDetect, hlow, hhigh]), countRetrain_unasked hidle]
    exact retrainEnds_idle hidle
  rw [heq, updPort_port_self (by rwa [hsame])]
  exact ⟨rfl, rfl⟩

theorem retryDetect_restarts (hnow : (s.port (rootYard p) (rootSlot p)).holdSince + 1000000000 ≤ s.now)
    (hst : (s.port (rootYard p) (rootSlot p)).st = 0xA) : s.retryDetect p =
      s.updPort (rootYard p) (rootSlot p) fun x => { x with st := 2, retried := false, holdSince := s.now } := by
  unfold State.retryDetect
  dsimp only
  rw [if_neg (retryDetect_due h hnow), if_neg (by simp [hst])]
  exact if_pos hst

theorem l1Entry_idle (hst : (s.port (rootYard p) (rootSlot p)).st = 6) (hcmds : (s.drive p).cmds = [])
    (hnow : (s.drive p).idleSince + 100000 ≤ s.now) : s.l1Entry p =
      if bit (fld (s.slotIn (rootYard p) (rootSlot p)) 6 1) 1 then
        s.updPort (rootYard p) (rootSlot p) fun x => { x with st := 8 }
      else s := by
  simp [State.l1Entry, h.mode, h.port, hst, hcmds, us, hnow, fxActive, fxLow]

/-- RECOVERY that lasts 100 ms takes the link down (R539). -/
theorem recoveryTimeout_falls (hst : (s.port (rootYard p) (rootSlot p)).st = 7)
    (hidle : s.executing 0x0E03 (16 * rootYard p + rootSlot p) = [])
    (hnow : (s.port (rootYard p) (rootSlot p)).holdSince + 100000000 ≤ s.now) :
    ((s.recoveryTimeout p).port (rootYard p) (rootSlot p)).st = 0xA ∧
      ((s.recoveryTimeout p).port (rootYard p) (rootSlot p)).linkDowns =
        satInc 16 (s.port (rootYard p) (rootSlot p)).linkDowns := by
  have hlisted := port_ne_reset_of_port h.port
  have hcounted : (s.updPort (rootYard p) (rootSlot p) fun x =>
      { x with retrainFails := (s.port (rootYard p) (rootSlot p)).retrainFails }).port (rootYard p) (rootSlot p) =
      s.port (rootYard p) (rootSlot p) := updPort_port_self hlisted
  have hdue : ¬ (((s.yard (rootYard p)).mode != 2 || (s.port (rootYard p) (rootSlot p)).port != some p ||
      (s.port (rootYard p) (rootSlot p)).st != fxRecovery ||
      decide (s.now < (s.port (rootYard p) (rootSlot p)).holdSince + ms 100)) = true) := by
    simp only [h.mode, h.port, hst, fxRecovery, ms, bne_self_eq_false, Bool.false_or]
    exact fun hearly => Nat.not_lt.2 hnow (of_decide_eq_true hearly)
  have heq : s.recoveryTimeout p = ((s.updPort (rootYard p) (rootSlot p) fun x =>
      { x with retrainFails := (s.port (rootYard p) (rootSlot p)).retrainFails }).rootDown p 0xA).retrainEnds
        (rootYard p) (rootSlot p) false := by
    unfold State.recoveryTimeout
    dsimp only
    rw [if_neg hdue, countRetrain_unasked hidle]
  rw [heq, port_congr (retrainEnds_sameLinks _ _ _ _).yards, (rootDown_links (by rwa [hcounted]) _).1, hcounted]
  exact ⟨rfl, rfl⟩

theorem rootLinkDown_active (hst : (s.port (rootYard p) (rootSlot p)).st = 6 ∨ (s.port (rootYard p) (rootSlot p)).st = 7 ∨
    (s.port (rootYard p) (rootSlot p)).st = 8) : s.rootLinkDown p = s.rootDown p 2 := by
  refine if_pos ?_
  rcases hst with hst | hst | hst
  all_goals simp [h.mode, h.port, hst, fxActive, fxLow, fxRecovery]

theorem recoveryEntry_root (hp : p ≠ 28) (hst : (s.port (rootYard p) (rootSlot p)).st = 6) : s.recoveryEntry p =
    s.updPort (rootYard p) (rootSlot p) fun x => { x with st := 7, holdSince := s.now } := by
  simp [State.recoveryEntry, hp, h.mode, h.port, hst, fxActive, fxRecovery]

/-- PERST_OUT_N is released once the slot's power is on and its hold has passed (R533). -/
theorem perstRelease_eq (hheld : (s.port (rootYard p) (rootSlot p)).perstHeld = true)
    (hon : 15 ≤ fld (s.slotIn (rootYard p) (rootSlot p)) 2 1 ∨ (s.pwr (fld (s.slotIn (rootYard p) (rootSlot p)) 2 1)).st = .on) :
    s.perstRelease p =
      if s.now < (s.port (rootYard p) (rootSlot p)).holdSince + 10000000 * max (fld (s.slotIn (rootYard p) (rootSlot p)) 7 1) 10 then s
      else s.updPort (rootYard p) (rootSlot p) fun x => { x with st := 2, perstHeld := false, holdSince := s.now } := by
  have hpower : (decide (15 ≤ fld (s.slotIn (rootYard p) (rootSlot p)) 2 1) ||
      (s.health.power.getD (fld (s.slotIn (rootYard p) (rootSlot p)) 2 1) PwrEntry.reset).st == .on) = true := by
    simpa only [Bool.or_eq_true, decide_eq_true_eq, beq_iff_eq, State.pwr] using hon
  have hms : ms (10 * max (fld (s.slotIn (rootYard p) (rootSlot p)) 7 1) 10) =
      10000000 * max (fld (s.slotIn (rootYard p) (rootSlot p)) 7 1) 10 := by
    simp only [ms]
    ring
  unfold State.perstRelease
  dsimp only
  rw [hpower, hms]
  simp only [h.port, hheld, bne_self_eq_false, Bool.not_true, Bool.or_self, Bool.false_or, decide_eq_true_eq]
  rfl

end

theorem recoveryTimeout_early (hnow : s.now < (s.port (rootYard p) (rootSlot p)).holdSince + 100000000) : s.recoveryTimeout p = s := by
  unfold State.recoveryTimeout
  exact if_pos (by simpa [ms] using .inr (decide_eq_true hnow))

theorem l1Entry_early (hnow : s.now < (s.drive p).idleSince + 100000) : s.l1Entry p = s := by
  unfold State.l1Entry
  refine if_neg ?_
  rintro hgoes
  have hdue := of_decide_eq_true (Bool.and_eq_true_iff.1 hgoes).2
  exact absurd hdue (Nat.not_le.2 hnow)

end

/-! ## Ethernet ports and the endpoint -/

section

variable {s : State} {p y k : Nat}

theorem ethAt_port (h : s.ethAt p = some (y, k)) : s.port y k ≠ FlexPort.reset := by
  have hfound := List.find?_some h
  simp only [Bool.and_eq_true, beq_iff_eq] at hfound
  exact port_ne_reset_of_port hfound.2

theorem ethDown_active (h : s.ethAt p = some (y, k)) (hst : (s.port y k).st = 6) : s.ethDown p =
    (s.updPort y k fun x => { x with st := 0xA, linkDowns := satInc 16 x.linkDowns }).raise 0x0E02 (0x6000 + y)
      (le 1 k ++ le 1 p ++ le 1 0xA) := by
  have hactive : ¬ (((s.port y k).st != fxActive) = true) := by simp [hst, fxActive]
  unfold State.ethDown
  rw [h]
  exact if_neg hactive

theorem ethUp_active {micros : Nat} (h : s.ethAt p = some (y, k))
    (hst : (s.port y k).st = 2 ∨ (s.port y k).st = 9 ∨ (s.port y k).st = 0xA) (hkept : s.flexRetired y k = false) :
    ((s.ethUp p micros).port y k).st = 6 ∧ ((s.ethUp p micros).port y k).trainUs = micros ∧ (s.ethUp p micros).ep = s.ep ∧
      (s.ethUp p micros).drives = s.drives := by
  have hset : (s.updPort y k fun x => { x with st := fxActive, trainUs := micros }).port y k =
      { s.port y k with st := 6, trainUs := micros } := updPort_port_self (ethAt_port h)
  obtain ⟨b, hscan⟩ := testScan_port (port_ne_reset_of_st ((congrArg FlexPort.st hset).trans_ne (by simp)))
  have heq : s.ethUp p micros = (((s.updPort y k fun x => { x with st := fxActive, trainUs := micros }).testScan y k).linkUp y k
      (some p) 0 (s.port y k).width micros).retrainEnds y k true := by
    have hgoes : ¬ ((!((s.port y k).st == fxDetect || (s.port y k).st == fxAlign || (s.port y k).st == fxDown) ||
        s.flexRetired y k) = true) := by
      rcases hst with hst | hst | hst <;> simp [hst, hkept, fxDetect, fxAlign, fxDown]
    unfold State.ethUp
    rw [h]
    exact if_neg hgoes
  have hport : (s.ethUp p micros).port y k = { s.port y k with st := 6, trainUs := micros, scanning := b } := by
    rw [heq, port_congr (retrainEnds_sameLinks _ _ _ _).yards, port_congr (linkUp_yards _ _ _ _ _ _ _), hscan, hset]
  rw [hport]
  refine ⟨rfl, rfl, ?_, ?_⟩
  · simp [heq, State.testScan, apply_ite State.ep]
  · simp [heq]

theorem epActive_up {f : EpFacts} (hlow : 2 ≤ s.ep.st) (hhigh : s.ep.st ≤ 5) : (s.epActive f).ep =
      { s.ep with st := 6, rate := f.link.rate, width := f.link.width, flit := f.link.flit, bme := f.bme, mse := f.mse,
                  msixEn := f.msixEn, fnMask := f.fnMask, trainUs := f.link.micros } ∧ (s.epActive f).cfg = s.cfg := by
  have hgoes : ¬ ((!(decide (fxDetect ≤ s.ep.st) && decide (s.ep.st ≤ 5) || s.ep.st == fxActive || s.ep.st == fxRecovery)) = true) := by
    simp [fxDetect, hlow, hhigh]
  unfold State.epActive
  dsimp only
  rw [if_neg hgoes]
  simp [hhigh, fxActive, apply_ite State.cfg]

theorem recoveryEntry_endpoint (hst : s.ep.st = 6) : s.recoveryEntry 28 = { s with ep := { s.ep with st := 7 } } := by
  simp [State.recoveryEntry, hst, fxActive, fxRecovery, State.updEp]

end

/-! ## Errors of a flex port -/

@[simp] theorem setErrEntry_yards (s : State) (seq : Nat) (f : ErrEntry → ErrEntry) : (s.setErrEntry seq f).yards = s.yards := rfl

@[simp] theorem errUpdated_yards (s : State) (seq : Nat) : (s.errUpdated seq).yards = s.yards := by simp

@[simp] theorem errDecide_yards (s : State) (seq : Nat) (passed : Option Bool) (result extra : Nat) :
    (s.errDecide seq passed result extra).yards = s.yards := errUpdated_yards _ seq

section

variable {s : State} {y k corr unc : Nat}

/-- A state after many errors of a port, counted and told, before their entry is made (R540, R547). -/
def State.manyErrors (s : State) (y k corr unc : Nat) : State :=
  let counted := (s.updPort y k fun x =>
    { x with rxErr := x.rxErr + BitVec.ofNat 32 corr, uncorr := sat 16 (x.uncorr + unc) }).updPort y k fun x =>
      { x with lastErrEvent := some s.now }
  counted.raise 0x0E04 (srcYard y) (le 1 k ++ le 1 ((counted.port y k).port.getD 0xFF) ++ le 2 0 ++ le 4 corr ++ le 4 unc)

theorem manyErrors_nv : (s.manyErrors y k corr unc).nv = s.nv := by simp [State.manyErrors]

theorem manyErrors_port (hlisted : (s.port y k).port.isSome = true) :
    (s.manyErrors y k corr unc).port y k = { s.port y k with
      rxErr := (s.port y k).rxErr + BitVec.ofNat 32 corr, uncorr := sat 16 ((s.port y k).uncorr + unc),
      lastErrEvent := some s.now } := by
  obtain ⟨p, hp⟩ := Option.isSome_iff_exists.1 hlisted
  have hcounted := updPort_port_self (f := fun x => { x with rxErr := x.rxErr + BitVec.ofNat 32 corr, uncorr := sat 16 (x.uncorr + unc) })
    (port_ne_reset_of_port hp)
  refine (port_congr (raise_sameLinks _ _ _ _).yards).trans ((updPort_port_self (f := fun x => { x with lastErrEvent := some s.now })
    (port_ne_reset_of_port ((congrArg FlexPort.port hcounted).trans hp))).trans ?_)
  rw [hcounted]

variable (hy : 1 ≤ y)

include hy

theorem flexErrors_few (hcorr : corr ≤ 1000) (hunc : unc = 0) : s.flexErrors y k corr unc = s.updPort y k fun x =>
    { x with rxErr := x.rxErr + BitVec.ofNat 32 corr, uncorr := sat 16 (x.uncorr + unc) } := by
  have hyard : y ≠ 0 := by omega
  simp [State.flexErrors, hyard, Nat.not_lt.2 hcorr, hunc]

/-- An error of a port leaves the port alone, but for the scan that its test asks for. -/
theorem errQueue_port {cls seq : Nat} {l : Loc} (hkind : l.kind = 6) (hunit : l.unit = y) (hsub : l.sub = k)
    (hlisted : s.port y k ≠ FlexPort.reset) :
    ∃ b, (s.errQueue cls l seq).port y k = { s.port y k with scanning := b } := by
  have hyard : l.unit ≠ 0 := by omega
  unfold State.errQueue
  split
  · exact ⟨_, port_congr (errUpdated_yards _ seq)⟩
  · split
    · exact ⟨_, rfl⟩
    · split
      · exact ⟨_, port_congr (errDecide_yards _ _ _ _ _)⟩
      · have hscan : ∀ t : State, t.scanAtOnce l =
            t.updPort l.unit l.sub fun x => { x with scanning := x.scanning || (x.port.isSome && x.st == fxActive) } := by
          intro t
          simp [State.scanAtOnce, hkind, hyard]
        rw [hscan, hunit, hsub]
        exact ⟨_, updPort_port_self hlisted⟩

theorem logError_port {cls : Nat} {l : Loc} {i : ErrInfo} (hkind : l.kind = 6) (hunit : l.unit = y) (hsub : l.sub = k)
    (hlisted : s.port y k ≠ FlexPort.reset) : ∃ b, (s.logError cls l i).port y k = { s.port y k with scanning := b } := by
  have hwrite : (s.errWrite cls l i).port y k = s.port y k := port_congr (errWrite_sameLinks s cls l i).yards
  unfold State.logError
  dsimp only
  split
  · exact ⟨_, hwrite⟩
  · obtain ⟨b, hport⟩ := errQueue_port (cls := cls) (seq := (s.errWrite cls l i).nv.errSeq) hy hkind hunit hsub
      (s := s.errWrite cls l i) (by rwa [hwrite])
    exact ⟨b, by rw [hport, hwrite]⟩

/-- Many errors raise the event, at most once per second, and log an error of class 6 (R540, R547). -/
theorem flexErrors_many (hmany : 1000 < corr ∨ 0 < unc) (hfirst : (s.port y k).lastErrEvent = none) :
    s.flexErrors y k corr unc =
      (s.manyErrors y k corr unc).logError 6 { Loc.none with kind := 6, unit := y, sub := k } { detail := corr } := by
  have hyard : y ≠ 0 := by omega
  have hraised : (decide (1000 < corr) || decide (0 < unc)) = true := by simpa using hmany
  simp only [State.flexErrors, if_neg hyard, hraised, hfirst]
  rfl

end

/-- Settles O52: the root ports clause by clause, then Ethernet ports, the endpoint and the errors of a port. RECOVERY once below the
minimum, the detect retry between DOWN and DETECT, a recovery timeout that counts a link down, and the class 6 entry that goes with the
rate-limited event are readings of log entry 29. -/
theorem linksComeAndGo : Obligations.LinksComeAndGo := by
  refine ⟨fun s => ⟨?root, ?eth, ?endpoint, fun hst => congrArg Host.Outcome.next (recoveryEntry_endpoint hst)⟩, ?errors⟩
  case root =>
    intro p y k hmode hport
    have h : RootPort s p := ⟨hmode, hport⟩
    have hlisted : s.port y k ≠ FlexPort.reset := port_ne_reset_of_port hport
    refine ⟨fun f hlow hhigh hkept => ⟨?meets, ?short⟩, ?retry, ?retryEarly, ?idle, ?recovery, ?down, ?entry, ?perst⟩
    case meets =>
      intro hrate hwidth u
      have hshort : s.fallsShort p f = false := by simpa [State.fallsShort] using ⟨hrate, hwidth⟩
      have hu : u = (s.measured p f).settlesActive p f false false := by
        simpa only [hshort, Bool.false_and, Bool.false_eq_true, if_false] using linkActive_eq h f hlow hhigh hkept
      have hmeasured := measured_port hlisted f
      obtain ⟨⟨b, hsettled⟩, hdrive⟩ := settlesActive_links (s := s.measured p f) (p := p)
        (port_ne_reset_of_port ((congrArg FlexPort.port hmeasured).trans hport)) f false false
      rw [← hu, hmeasured] at hsettled
      refine ⟨rfl, by rw [hsettled], by rw [hsettled], by rw [hsettled], by rw [hsettled], by rw [hsettled], fun hp habsent => ?_⟩
      rw [hu]
      exact hdrive (by simpa using hp) (by simpa [State.drive] using habsent)
    case short =>
      intro hless u
      have hshort : s.fallsShort p f = true := by simpa [State.fallsShort] using hless
      have hmeasured := measured_port hlisted f
      have hlisted' := port_ne_reset_of_port ((congrArg FlexPort.port hmeasured).trans hport)
      have hu := linkActive_eq h f hlow hhigh hkept
      rw [hshort, Bool.true_and] at hu
      refine ⟨rfl, fun hfresh => ?_, fun htried => ?_⟩
      · have hu' : u = _ := hu.trans (if_pos (by rw [hfresh]; rfl))
        have hretrain : u.port y k = _ := (congrArg (fun t => State.port t y k) hu').trans (updPort_port_self hlisted')
        exact ⟨by rw [hretrain], by rw [hretrain], by rw [hu', updPort_drives, measured_drives]⟩
      · have hu' : u = _ := hu.trans (if_neg (by rw [htried]; simp))
        obtain ⟨⟨b, hsettled⟩, -⟩ := settlesActive_links (s := s.measured p f) (p := p) hlisted' f true
          (true && !(s.port (rootYard p) (rootSlot p)).degraded)
        have hend : u.port y k = _ := (congrArg (fun t => State.port t y k) hu').trans hsettled
        exact ⟨by rw [hend], by rw [hend]⟩
    case retry =>
      refine fun hnow hidle => ⟨fun hlow hhigh => ?_, fun hst => congrArg Host.Outcome.next (retryDetect_restarts h hnow hst)⟩
      obtain ⟨heq, hst⟩ := retryDetect_rests h hnow hidle hlow hhigh
      exact ⟨_, rfl, heq, hst⟩
    case retryEarly => exact fun hnow => congrArg Host.Outcome.next (retryDetect_early hnow)
    case idle =>
      exact fun hst hcmds => ⟨fun hnow => congrArg Host.Outcome.next (l1Entry_idle h hst hcmds hnow),
        fun hnow => congrArg Host.Outcome.next (l1Entry_early hnow)⟩
    case recovery =>
      exact fun hst hidle => ⟨fun hnow => ⟨_, rfl, recoveryTimeout_falls h hst hidle hnow⟩,
        fun hnow => congrArg (fun t => Host.Outcome.next (State.settle t)) (recoveryTimeout_early hnow)⟩
    case down =>
      intro hst u
      obtain ⟨hu, hdrive⟩ := rootDown_links hlisted 2
      exact ⟨congrArg (fun t => Host.Outcome.next (State.settle t)) (rootLinkDown_active h hst), by rw [hu], by rw [hu], by rw [hu], hdrive⟩
    case entry => exact fun hp hst => congrArg Host.Outcome.next (recoveryEntry_root h hp hst)
    case perst =>
      exact fun hheld hon => ⟨fun hnow => congrArg Host.Outcome.next ((perstRelease_eq h hheld hon).trans (if_neg (Nat.not_lt.2 hnow))),
        fun hnow => congrArg Host.Outcome.next ((perstRelease_eq h hheld hon).trans (if_pos hnow))⟩
  case eth =>
    refine fun p y k hat => ⟨fun hst => congrArg Host.Outcome.next (ethDown_active hat hst), fun micros hst hkept _ => ?_⟩
    exact ⟨_, rfl, ethUp_active hat hst hkept⟩
  case endpoint =>
    intro f hlow hhigh
    obtain ⟨hep, hcfg⟩ := epActive_up (f := f) hlow hhigh
    exact ⟨_, rfl, by rw [hep], by rw [hep], by rw [hep], by rw [hep], by rw [hep], by rw [hep], by rw [hep], hcfg⟩
  case errors =>
    intro y k corr unc s hy hport
    have hreaches : (decide (y = 0) || (s.port y k).port.isSome) = true := by simp [hport]
    refine ⟨fun hcorr hunc => congrArg Host.Outcome.next ((if_pos hreaches).trans (flexErrors_few hy hcorr hunc)), fun hmany hfirst => ?_⟩
    obtain ⟨p, hp⟩ := Option.isSome_iff_exists.1 hport
    have hcounted := manyErrors_port (corr := corr) (unc := unc) hport
    obtain ⟨b, hend⟩ := logError_port (cls := 6) (l := { Loc.none with kind := 6, unit := y, sub := k }) (i := { detail := corr }) hy rfl rfl rfl
      (port_ne_reset_of_port ((congrArg FlexPort.port hcounted).trans hp))
    obtain ⟨e, rest, he, hnv⟩ := logError_nv (s.manyErrors y k corr unc) 6 { Loc.none with kind := 6, unit := y, sub := k }
      { detail := corr }
    have hseq := he.seq
    rw [hcounted] at hend
    rw [manyErrors_nv] at hnv hseq
    exact ⟨_, congrArg Host.Outcome.next ((if_pos hreaches).trans (flexErrors_many hy hmany hfirst)), by rw [hend], by rw [hend], by rw [hnv], e, rest,
      by rw [hnv], hseq, he.cls, by rw [he.loc], by rw [he.loc], by rw [he.loc], he.detail⟩

end Sys2Proof.Machine

/-! SUPPORT. Identity and debug commands of trust (R578, R584, R585, R594, R605, R608, R610). -/

namespace Sys2Proof.Machine

open Sys2Proof

theorem sub_length (p : List Byte) (off n : Nat) : (sub p off n).length = n := by
  simp [sub]

theorem sub_append_left {p q : List Byte} {off n : Nat} (hoff : p.length = off) (hn : q.length = n) (r : List Byte) :
    sub (p ++ (q ++ r)) off n = q := by
  subst hoff hn
  simp [sub]

theorem fld_append_left {p q : List Byte} {off n : Nat} (hoff : p.length = off) (hn : q.length = n) (r : List Byte) :
    fld (p ++ (q ++ r)) off n = leNat q := by
  subst hoff hn
  simp [fld]

section

variable {c : Cmd} {s : State}

/-! ## Muster reports and certificates -/

theorem musterBody_congr {t : State} (hnv : t.nv = s.nv) (htrust : t.trust = s.trust) (hcfg : t.cfg = s.cfg) (hpower : t.power = s.power)
    (htime : t.time = s.time) (nonce : List Byte) : t.musterBody nonce = s.musterBody nonce := by
  simp only [State.musterBody, State.ownerHash, State.policyBundle, State.liveNumber, State.tbmField, hnv, htrust, hcfg, hpower, htime]

theorem trsMusterBody_vendor (h : s.nv.fuses.lifecycle = 0) : trsMusterBody c s = s.fail c stNotAuthorised :=
  if_pos (beq_iff_eq.2 h)

/-- A report is signed once, and carries the certificate of the key that signs it (R610). -/
theorem trsMusterBody_signed (h : s.nv.fuses.lifecycle ≠ 0) : ∃ (u : State) (sig : List Byte), sig.length = 4627 ∧
    trsMusterBody c s =
      u.finishAll 0x0701 0 0 [] (some (s.musterBody c.payload ++ sig ++ zeros 5 ++ fit 7368 (s.trust.certs.getD 0 []))) ∧
    u.trust = { s.trust with signatures := s.trust.signatures + 1 } ∧ u.nv = s.nv := by
  have hbody : (s.accept c 0 []).musterBody c.payload = s.musterBody c.payload :=
    musterBody_congr (by simp) (by simp) (by simp) (by simp) (by simp) c.payload
  have htrust : (s.accept c 0 []).trust = s.trust := by simp
  have hbodyEq : trsMusterBody c s = ((s.accept c 0 []).sign (s.accept c 0 []).aliasSeed (s.musterBody c.payload)).2.finishAll
      0x0701 0 0 [] (some (s.musterBody c.payload ++
        ((s.accept c 0 []).sign (s.accept c 0 []).aliasSeed (s.musterBody c.payload)).1 ++ zeros 5 ++
          fit 7368 (s.trust.certs.getD 0 []))) := by
    unfold trsMusterBody
    rw [if_neg (by simpa using h), ← hbody, ← htrust]
    rfl
  refine ⟨_, _, fit_length 4627 _, hbodyEq, ?_, ?_⟩
  · simp [State.sign]
  · simp [State.sign]

theorem trsCertBody_held {d : List Byte} (hkind : fld c.payload 0 1 ≤ 2) (hheld : s.certOf (fld c.payload 0 1) = some d) :
    trsCertBody c s = s.reply c 0 [] (some d) := by
  simp [trsCertBody, Nat.not_lt.2 hkind, hheld, stOk]

/-! ## The first owner, and recipients -/

/-- The first owner takes the next free slot (R585). -/
theorem trsOwnerEnrolBody_first {j : Nat} (hlifecycle : s.nv.fuses.lifecycle = 1) (hfree : s.nv.fuses.freeSlot = some j)
    (hslot : fld c.payload 0 1 = j) (hidle : s.trust.fusing = none) :
    trsOwnerEnrolBody c s = s.fuse c (.enrol j (sub c.payload 8 2592)) := by
  have hj : j ≤ 2 := Nat.le_of_lt_succ (List.mem_range.1 (List.mem_of_find?_eq_some hfree))
  simp [trsOwnerEnrolBody, State.fuseFinish, hidle, hslot, Nat.not_lt.2 hj, hlifecycle, hfree]

section

variable (hstream : fld c.payload 0 1 ≤ 31) (hcount : fld c.payload 1 1 ≤ 8)

include hstream hcount

theorem trsRecipientsBody_bad {k : Nat × List Byte}
    (hbad : (numbered (entriesFrom c.payload 8 1568 (fld c.payload 1 1))).find? (fun k => !kemCheck k.2) = some k) :
    trsRecipientsBody c s = s.reply c 0x0103 (le 4 (40 + 1568 * k.1)) none := by
  have hat : 8 + 1568 * k.1 + 32 = 40 + 1568 * k.1 := by omega
  unfold trsRecipientsBody
  dsimp only
  rw [if_neg (Nat.not_lt.2 hstream), if_neg (Nat.not_lt.2 hcount), hbad, ← hat]
  rfl

theorem trsRecipientsBody_good
    (hgood : (numbered (entriesFrom c.payload 8 1568 (fld c.payload 1 1))).find? (fun k => !kemCheck k.2) = none) :
    trsRecipientsBody c s = (s.updStream (fld c.payload 0 1) fun x =>
      { x with recipients := entriesFrom c.payload 8 1568 (fld c.payload 1 1) }).ok c [] := by
  unfold trsRecipientsBody
  dsimp only
  rw [if_neg (Nat.not_lt.2 hstream), if_neg (Nat.not_lt.2 hcount), hgood]

end

/-! ## Debug -/

/-- A debug challenge: its label, the serial, fresh entropy and the life cycle (R594). -/
def State.challengeOf (s : State) : List Byte :=
  label "OUV7-DBG" ++ (fit 8 s.nv.fuses.serial ++ (fit 32 (Config.entropy s.free) ++ (le 1 s.nv.fuses.lifecycle ++ le 15 0)))

theorem trsDebugChallengeBody_eq : trsDebugChallengeBody c s =
    (State.updTrust { s with free := s.free + 1 } fun t => { t with challenge := some (s.challengeOf, s.now) }).reply c 0 []
      (some s.challengeOf) := by
  simp [trsDebugChallengeBody, State.challengeOf, State.now, stOk]

theorem label_debug_length : (label "OUV7-DBG").length = 8 := by decide

theorem challengeOf_fields : s.challengeOf.take 8 = label "OUV7-DBG" ∧ sub s.challengeOf 8 8 = fit 8 s.nv.fuses.serial ∧
    fld s.challengeOf 48 1 = s.nv.fuses.lifecycle % 256 ∧ s.challengeOf.length = 64 := by
  refine ⟨List.take_left' label_debug_length, sub_append_left label_debug_length (fit_length _ _) _, ?_, ?_⟩
  · have hsplit : s.challengeOf =
        (label "OUV7-DBG" ++ fit 8 s.nv.fuses.serial ++ fit 32 (Config.entropy s.free)) ++ (le 1 s.nv.fuses.lifecycle ++ le 15 0) := by
      simp [State.challengeOf]
    rw [hsplit, fld_append_left (by simp [label_debug_length, fit_length]) (le_length 1 _)]
    simp [le, leNat]
  · simp [State.challengeOf, label_debug_length, fit_length, le_length]

/-- The debug port open: TDO driven, the challenge spent. -/
def State.unlocked (s : State) : State :=
  ((s.updTrust fun t => { t with challenge := none }).drivePins .tdo).updTrust fun t => { t with debugUnlocked := true }

@[simp] theorem unlocked_trust (s : State) : s.unlocked.trust = { s.trust with challenge := none, debugUnlocked := true } := rfl

@[simp] theorem unlocked_nv (s : State) : s.unlocked.nv = s.nv := rfl

section

variable (hpolicy : bit s.policyFlags 2 = false) (hclosed : s.streams.any (·.takeOpen) = false)

include hpolicy hclosed

/-- A debug unlock spends the challenge, and unlocks within its 60 s with a good signature alone (R594). -/
theorem trsDebugUnlockBody_eq : trsDebugUnlockBody c s =
    match s.trust.challenge with
    | none => (s.updTrust fun t => { t with challenge := none }).fail c stSignatureInvalid
    | some (d, at_) =>
      if (decide (at_ + 60000000000 < s.now) || !s.debugVerifies d (c.payload.take 4627)) = true then
        (s.updTrust fun t => { t with challenge := none }).fail c stSignatureInvalid
      else (s.unlocked.raise 0x0704 srcDevice (le 1 s.nv.fuses.lifecycle ++ le 1 (b2n (s.nv.fuses.lifecycle == 2)))).ok c [] := by
  unfold trsDebugUnlockBody
  rw [if_neg (ne_true_of_eq_false hpolicy), if_neg (ne_true_of_eq_false hclosed)]
  rfl

end

end

/-- Settles O56: each command by the branch of its body that the clause names. TRS_MUSTER's ACCEPTED and its end in one step are log entry
24, and the enrolment's programming is log entry 14. -/
theorem identityAndDebugCommands : Obligations.IdentityAndDebugCommands := by
  intro b s t c p
  refine ⟨fun h hlifecycle => ?muster, fun h hvendor => take_next h (trsMusterBody_vendor hvendor),
    fun d h hkind hheld => take_next h (trsCertBody_held hkind hheld),
    fun j h _ hlifecycle hfree hslot hidle => take_next h (trsOwnerEnrolBody_first hlifecycle hfree hslot hidle),
    fun h hstream hcount _ => ?recipients, fun h => ?challenge,
    fun h hpolicy hclosed => ⟨fun d at_ hheld hnow => ?timely, fun hnone => ?unasked, fun d at_ hheld hlate => ?late⟩⟩
  case muster =>
    obtain ⟨u, sig, hlength, hbody, htrust, hnv⟩ := trsMusterBody_signed (c := c) hlifecycle
    exact ⟨u, sig, hlength, take_next h hbody, htrust, hnv⟩
  case recipients =>
    split
    next k hbad => exact take_next h (trsRecipientsBody_bad hstream hcount hbad)
    next hgood => exact take_next h (trsRecipientsBody_good hstream hcount hgood)
  case challenge =>
    exact ⟨t.challengeOf, _, take_next h trsDebugChallengeBody_eq, rfl, rfl, challengeOf_fields⟩
  case timely =>
    have hbody := trsDebugUnlockBody_eq (c := c) hpolicy hclosed
    simp only [hheld, decide_eq_false (Nat.not_lt.2 hnow), Bool.false_or] at hbody
    split
    next hgood =>
      rw [if_neg (by simpa using hgood)] at hbody
      exact ⟨_, take_next h hbody, by simp, by simp⟩
    next hbad => exact take_next h (hbody.trans (if_pos (by simpa using hbad)))
  case unasked =>
    have hbody := trsDebugUnlockBody_eq (c := c) hpolicy hclosed
    rw [hnone] at hbody
    exact take_next h hbody
  case late =>
    have hbody := trsDebugUnlockBody_eq (c := c) hpolicy hclosed
    simp only [hheld, decide_eq_true hlate, Bool.true_or, if_true] at hbody
    exact take_next h hbody

end Sys2Proof.Machine

/-! SUPPORT. The evaluation of health, and the faults of regulators that clear (R612 to R622, R633). -/

namespace Sys2Proof.Machine

open Sys2Proof

/-! ## Regulators -/

section

variable {s : State} {e : Nat}

@[simp] theorem sendCcc_health (s : State) (n addr : Nat) (c : Ccc) : (s.sendCcc n addr c).health = s.health := by
  simp [State.sendCcc]

@[simp] theorem portSync_health (s : State) (n : Nat) : (s.portSync n).health = s.health := by
  simp [State.portSync]

@[simp] theorem srefSync_health (s : State) : s.srefSync.health = s.health := by
  refine each_health (fun g t => ?_) _ s
  dsimp only
  split <;> simp

@[simp] theorem sensorRails_health (s : State) (n : Nat) : (s.sensorRails n).health = s.health := by
  simp [State.sensorRails]

@[simp] theorem allRails_health (s : State) : s.allRails.health = s.health := by
  simp [State.allRails]

@[simp] theorem switchRail_health (s : State) (e : Nat) (on : Bool) : (s.switchRail e on).health = s.health := by
  simp [State.switchRail]

theorem pwr_congr {t : State} (h : t.health = s.health) : t.pwr e = s.pwr e := by
  rw [State.pwr, h, State.pwr]

theorem pwr_listed (h : (s.pwr e).entry.isSome = true) : e < s.health.power.length := by
  by_contra hpast
  have hreset : s.pwr e = PwrEntry.reset := List.getD_eq_default _ _ (Nat.le_of_not_lt hpast)
  rw [hreset] at h
  exact absurd h (by decide)

theorem updPwr_pwr_self (h : e < s.health.power.length) (f : PwrEntry → PwrEntry) : (s.updPwr e f).pwr e = f (s.pwr e) :=
  upd_getD_self _ h

theorem updPwr_pwr_of_ne {k : Nat} (h : e ≠ k) (f : PwrEntry → PwrEntry) : (s.updPwr k f).pwr e = s.pwr e :=
  upd_getD_of_ne _ h

/-- An entry that is not in fault stays out of it, with its owner and figures. -/
structure Sound (s t : State) (e : Nat) : Prop where
  entry : (t.pwr e).entry = (s.pwr e).entry
  st : (s.pwr e).st ≠ .fault → (t.pwr e).st ≠ .fault

theorem Sound.refl (s : State) (e : Nat) : Sound s s e := ⟨rfl, id⟩

theorem Sound.trans {s t u : State} (h : Sound s t e) (h' : Sound t u e) : Sound s u e :=
  ⟨h'.entry.trans h.entry, fun hst => h'.st (h.st hst)⟩

theorem sound_of_health {t : State} (h : t.health = s.health) : Sound s t e :=
  ⟨congrArg PwrEntry.entry (pwr_congr h), fun hst => by rwa [pwr_congr h]⟩

theorem updPwr_sound (s : State) (k e : Nat) {f : PwrEntry → PwrEntry} (hentry : ∀ x, (f x).entry = x.entry)
    (hst : ∀ x, (f x).st ≠ .fault) : Sound s (s.updPwr k f) e := by
  refine ⟨upd_getD_keep PwrEntry.entry hentry _ k e _, fun h => ?_⟩
  by_cases hk : e = k
  · by_cases hlisted : e < s.health.power.length
    · rw [← hk, updPwr_pwr_self hlisted]
      exact hst _
    · rw [State.pwr, List.getD_eq_default _ _ (by simpa [State.updPwr, upd_length] using hlisted)]
      decide
  · rwa [updPwr_pwr_of_ne hk]

theorem railOff_sound (s : State) (k e : Nat) : Sound s (s.railOff k) e := by
  unfold State.railOff
  split
  · exact .refl s e
  · exact (sound_of_health (switchRail_health s k false)).trans
      (updPwr_sound _ k e (f := fun x => { x with st := .off, badReads := 0, settled := none }) (fun _ => rfl) (fun _ => PwrSt.noConfusion))

theorem nextRail_sound (s : State) (o : Nat × Nat) (e : Nat) : Sound s (s.nextRail o) e := by
  unfold State.nextRail
  dsimp only
  split
  · exact .refl s e
  · split
    next k _ =>
      refine Sound.trans (updPwr_sound s k e (f := fun x =>
        { x with st := .ramping, vout := 0, badReads := 0, settled := none, rampTbm := s.now }) (fun _ => rfl) (fun _ => PwrSt.noConfusion)) ?_
      exact sound_of_health (switchRail_health _ k true)
    · exact .refl s e

theorem each_sound {α : Type} {f : α → State → State} {e : Nat} (hf : ∀ a t, Sound t (f a t) e) (l : List α) (s : State) :
    Sound s (each l f s) e :=
  each_keeps (P := fun t => Sound s t e) l (.refl s e) fun a _ t ht => ht.trans (hf a t)

/-- What turning regulators on and off by what is called for leaves of one. -/
theorem pumpPower_sound (s : State) (e : Nat) : Sound s s.pumpPower e := by
  unfold State.pumpPower
  extract_lets called again u off v owners
  have hcalled : called.length = s.health.power.length := by simp [called, numbered]
  have hu : Sound s u e := by
    by_cases hlisted : e < s.health.power.length
    · have hpwr : u.pwr e = again (called[e]'(by omega), s.health.power[e]) := by
        simp [u, State.pwr, hlisted, hcalled]
      have hs : s.pwr e = s.health.power[e] := List.getD_eq_getElem _ _ hlisted
      rw [← hs] at hpwr
      refine ⟨(congrArg PwrEntry.entry hpwr).trans rfl, fun hst => ?_⟩
      rw [hpwr]
      show (if _ then PwrSt.off else (s.pwr e).st) ≠ .fault
      split
      · decide
      · exact hst
    · have hpwr : u.pwr e = s.pwr e := by
        rw [State.pwr, State.pwr, List.getD_eq_default _ _ (Nat.le_of_not_lt hlisted), List.getD_eq_default]
        simp [u]
        omega
      exact ⟨by rw [hpwr], fun hst => by rwa [hpwr]⟩
  have hv : Sound u v e := each_sound (fun k t => railOff_sound t k e) off u
  exact ((hu.trans hv).trans (each_sound (fun o t => nextRail_sound t o e) owners v)).trans (sound_of_health (allRails_health _))

/-- A fault from before the LIVE generation, which the next evaluation clears (R633). -/
def State.faultOver (s : State) (x : PwrEntry) : Bool := x.entry.isSome && x.st == .fault && x.faultGen != s.liveNumber

theorem repower_clears (hentry : (s.pwr e).entry.isSome = true) (hst : (s.pwr e).st = .fault)
    (hgen : (s.pwr e).faultGen ≠ s.liveNumber) : (s.repower.pwr e).st ≠ .fault ∧ (s.repower.pwr e).entry = (s.pwr e).entry := by
  have hover : s.faultOver (s.pwr e) = true := by simp [State.faultOver, hentry, hst, hgen]
  have hlisted := pwr_listed hentry
  have hpwr : s.pwr e = s.health.power[e] := List.getD_eq_getElem _ _ hlisted
  have hany : s.health.power.any s.faultOver = true :=
    List.any_eq_true.2 ⟨s.pwr e, by rw [hpwr]; exact List.getElem_mem hlisted, hover⟩
  have heq : s.repower = (s.updHealth fun h =>
      { h with power := h.power.map fun x => if s.faultOver x then { x with st := .off, wanted := false } else x }).pumpPower :=
    if_pos hany
  have hcleared : (s.updHealth fun h =>
      { h with power := h.power.map fun x => if s.faultOver x then { x with st := .off, wanted := false } else x }).pwr e =
      { s.pwr e with st := .off, wanted := false } := by
    rw [hpwr] at hover ⊢
    simp [State.pwr, hlisted, hover]
  obtain ⟨hkept, hsound⟩ := pumpPower_sound (s.updHealth fun h =>
      { h with power := h.power.map fun x => if s.faultOver x then { x with st := .off, wanted := false } else x }) e
  rw [hcleared] at hkept hsound
  rw [heq]
  exact ⟨hsound (by simp), hkept⟩

theorem repower_idle (hdue : s.boardDue = false)
    (hpower : ∀ x ∈ s.health.power, x.entry.isSome = true → x.st = .fault → x.faultGen = s.liveNumber) : s.repower = s := by
  have hnone : ¬ s.health.power.any s.faultOver = true := by
    intro hany
    obtain ⟨x, hx, hover⟩ := List.any_eq_true.1 hany
    simp only [State.faultOver, Bool.and_eq_true, beq_iff_eq, bne_iff_ne] at hover
    obtain ⟨⟨hentry, hst⟩, hgen⟩ := hover
    exact hgen (hpower x hx hentry hst)
  exact (if_neg hnone).trans (if_neg (ne_true_of_eq_false hdue))

end

/-! ## The parts of an evaluation -/

/-- `t` has the health `h`, and time, contexts and configuration of `s`. -/
structure Evaluates (s t : State) (h : Health) : Prop where
  health : t.health = h
  time : t.time = s.time
  ctxs : t.ctxs = s.ctxs
  cfg : t.cfg = s.cfg

section

variable {s : State}

theorem Evaluates.trans {t u : State} {h h' : Health} (hst : Evaluates s t h) (htu : Evaluates t u h') : Evaluates s u h' :=
  ⟨htu.health, htu.time.trans hst.time, htu.ctxs.trans hst.ctxs, htu.cfg.trans hst.cfg⟩

theorem evaluates_refl : Evaluates s s s.health := ⟨rfl, rfl, rfl, rfl⟩

theorem updHealth_evaluates (f : Health → Health) : Evaluates s (s.updHealth f) (f s.health) := ⟨rfl, rfl, rfl, rfl⟩

theorem hltEvent_evaluates (code : Nat) (body : List Byte) : Evaluates s (s.hltEvent code body) s.health := by
  constructor <;> simp [State.hltEvent]

/-- A change of health that may be told. -/
theorem told_evaluates {t u : State} {h : Health} {c : Prop} [Decidable c] {code : Nat} {body : List Byte} (ht : Evaluates s t h)
    (hu : u = if c then t.hltEvent code body else t) : Evaluates s u h := by
  rw [hu]
  split
  · exact ht.trans (ht.health ▸ hltEvent_evaluates code body)
  · exact ht

/-- The cross-check changes the marks of sensors alone (R615). -/
theorem crossCheck_evaluates (g : List Int) (i : Nat) : ∃ strikes suspect good,
    Evaluates s (s.crossCheck g i) { s.health with strikes := strikes, suspect := suspect, good := good } := by
  unfold State.crossCheck
  extract_lets h ns dev k t k' u
  split
  · exact ⟨_, _, _, evaluates_refl⟩
  · split
    · split
      · exact ⟨_, _, _, (updHealth_evaluates _).trans ((updHealth_evaluates _).trans (hltEvent_evaluates _ _))⟩
      · exact ⟨_, _, _, updHealth_evaluates _⟩
    · split
      · exact ⟨_, _, _, (updHealth_evaluates _).trans ((updHealth_evaluates _).trans (hltEvent_evaluates _ _))⟩
      · exact ⟨_, _, _, updHealth_evaluates _⟩

theorem crossChecks_evaluates (g : List Int) (l : List Nat) : ∃ strikes suspect good,
    Evaluates s (each l (fun i s => s.crossCheck g i) s) { s.health with strikes := strikes, suspect := suspect, good := good } := by
  refine each_keeps (P := fun t => ∃ strikes suspect good,
    Evaluates s t { s.health with strikes := strikes, suspect := suspect, good := good }) l ⟨_, _, _, evaluates_refl⟩ ?_
  rintro i - t ⟨strikes, suspect, good, ht⟩
  obtain ⟨strikes', suspect', good', hu⟩ := crossCheck_evaluates (s := t) g i
  rw [ht.health] at hu
  exact ⟨strikes', suspect', good', ht.trans hu⟩

theorem dieZone_evaluates : Evaluates s s.dieZone.2 s.health := by
  unfold State.dieZone
  split
  · exact ⟨rfl, rfl, rfl, rfl⟩
  · exact evaluates_refl

theorem evalEarly_evaluates (rises : List Int) : ∃ early exceed,
    Evaluates s (s.evalEarly rises) { s.health with earlyReef := early, lastExceed := exceed } := by
  unfold State.evalEarly
  dsimp only
  split
  · exact ⟨_, _, updHealth_evaluates _⟩
  · split
    · exact ⟨_, _, updHealth_evaluates _⟩
    · exact ⟨_, _, evaluates_refl⟩

theorem set_getD_self {l : List Nat} {z : Nat} (h : z < l.length) : l.set z (l.getD z 0) = l := by
  rw [List.getD_eq_getElem _ _ h]
  exact List.set_getElem_self _

theorem setLevel_zone {z : Nat} (hz : z < 5) (hlevels : s.health.levels.length = 5) (new : Nat) (temp : Int) :
    Evaluates s (s.setLevel z new temp) { s.health with levels := s.health.levels.set z new } := by
  unfold State.setLevel
  simp only [if_pos hz]
  split
  next hsame =>
    rw [← hsame, set_getD_self (hlevels ▸ hz)]
    exact evaluates_refl
  · exact (updHealth_evaluates _).trans (hltEvent_evaluates _ _)

theorem setLevel_remote {z : Nat} (hz : 5 ≤ z) (new : Nat) (temp : Int) : ∃ levels,
    Evaluates s (s.setLevel z new temp) { s.health with remoteLevels := levels } := by
  unfold State.setLevel
  simp only [if_neg (Nat.not_lt.2 hz)]
  split
  · exact ⟨_, evaluates_refl⟩
  · exact ⟨_, (updHealth_evaluates _).trans (hltEvent_evaluates _ _)⟩

theorem evalRemotes_evaluates (l : List Nat) : ∃ levels,
    Evaluates s (each l (fun c s => s.evalRemote c) s) { s.health with remoteLevels := levels } := by
  refine each_keeps (P := fun t => ∃ levels, Evaluates s t { s.health with remoteLevels := levels }) l ⟨_, evaluates_refl⟩ ?_
  rintro c - t ⟨levels, ht⟩
  obtain ⟨levels', hu⟩ := setLevel_remote (s := t) (Nat.le_add_right 5 c) _ _
  rw [ht.health] at hu
  exact ⟨levels', ht.trans hu⟩

/-- The level that an evaluation gives a zone (R617): a stack that was never read keeps its own. -/
def State.zoneLevel (s : State) (z : Nat) : Nat :=
  match s.zoneTemp z with
  | some t => levelOf (s.thresholds z) s.hysteresis t (s.health.levels.getD z 0)
  | none => s.health.levels.getD z 0

theorem evalZone_evaluates {z : Nat} (hz : z < 5) (hlevels : s.health.levels.length = 5) :
    Evaluates s (s.evalZone z) { s.health with levels := s.health.levels.set z (s.zoneLevel z) } := by
  cases htemp : s.zoneTemp z with
  | some t =>
    simp only [State.evalZone, State.zoneLevel, htemp]
    exact setLevel_zone hz hlevels _ _
  | none =>
    simp only [State.evalZone, State.zoneLevel, htemp, set_getD_self (hlevels ▸ hz)]
    exact evaluates_refl

/-- A zone's temperature, thresholds and hysteresis are not what its level is. -/
theorem zone_congr {t : State} {levels remote : List Nat} {z : Nat}
    (h : t.health = { s.health with levels := levels, remoteLevels := remote }) :
    t.zoneTemp z = s.zoneTemp z ∧ t.thresholds z = s.thresholds z ∧ t.hysteresis = s.hysteresis := by
  simp [State.zoneTemp, State.thresholds, State.hysteresis, State.policyByte, State.healthPolicy, h]

theorem each_concat {α σ : Type} (l : List α) (a : α) (f : α → σ → σ) (s : σ) : each (l ++ [a]) f s = f a (each l f s) := by
  simp [each]

theorem evalZones_evaluates (hlevels : s.health.levels.length = 5) {n : Nat} (hn : n ≤ 5) : ∃ levels, levels.length = 5 ∧
    Evaluates s (each (List.range n) (fun z s => s.evalZone z) s) { s.health with levels := levels } ∧
    ∀ z < 5, levels.getD z 0 = if z < n then s.zoneLevel z else s.health.levels.getD z 0 := by
  induction n with
  | zero => exact ⟨_, hlevels, evaluates_refl, fun z _ => rfl⟩
  | succ n ih =>
    obtain ⟨levels, hlength, ht, hget⟩ := ih (by omega)
    rw [List.range_succ, each_concat]
    generalize each (List.range n) (fun z s => s.evalZone z) s = t at ht
    have hu := evalZone_evaluates (s := t) (z := n) (by omega) (by rw [ht.health]; exact hlength)
    obtain ⟨htemp, hthresholds, hhysteresis⟩ := zone_congr (s := s) (z := n) (remote := s.health.remoteLevels) ht.health
    have hlevel : t.zoneLevel n = s.zoneLevel n := by
      have hold : t.health.levels.getD n 0 = s.health.levels.getD n 0 := by
        rw [ht.health]
        exact (hget n (by omega)).trans (if_neg (Nat.lt_irrefl n))
      simp only [State.zoneLevel, htemp, hthresholds, hhysteresis, hold]
    rw [ht.health, hlevel] at hu
    refine ⟨levels.set n (s.zoneLevel n), by simpa using hlength, ht.trans hu, fun z hz => ?_⟩
    by_cases hzn : z = n
    · rw [hzn, if_pos (Nat.lt_succ_self n)]
      simp [hlength, show n < 5 by omega]
    · have hkept : (levels.set n (s.zoneLevel n)).getD z 0 = levels.getD z 0 := by simp [List.getD, Ne.symm hzn]
      rw [hkept, hget z hz]
      simp only [show (z < n + 1) = (z < n) from propext (by omega)]

/-- Whether the die is close to furling (R622). -/
def Health.nearFurl (h : Health) : Bool :=
  (h.comparatorsTripped &&& ~~~h.comparatorsFailed) != 0 || decide (64 * ((h.dieFurl : Int) - 2) ≤ h.dieTemp)

theorem evalPending_evaluates : Evaluates s s.evalPending { s.health with furlPending := s.health.nearFurl } :=
  told_evaluates (updHealth_evaluates _) rfl

theorem evalReef_evaluates : Evaluates s s.evalReef { s.health with reef := s.reefWanted } := by
  unfold State.evalReef
  dsimp only
  split
  · exact updHealth_evaluates _
  · exact (updHealth_evaluates _).trans (hltEvent_evaluates _ _)

theorem reefWanted_congr {t : State} {reef : Nat} {low : Bool} (h : t.health = { s.health with reef := reef, alertLow := low }) :
    t.reefWanted = s.reefWanted := by
  simp [State.reefWanted, State.reefSources, h]

theorem alert_congr {t : State} {low : Bool} (h : t.health = { s.health with alertLow := low }) : t.alert = s.alert := by
  simp [State.alert, h]

/-- The readings of an evaluation, the cross-check and whether sensing is degraded (R612, R615, R616). -/
def State.judged (s : State) (f : HealthFacts) (sensors : List Nat) : State :=
  let read := s.updHealth fun h =>
    { h with sensors := sensors.map (fun i => f.temps.getD i 0), comparatorsTripped := f.tripped }
  (each sensors (fun i s => s.crossCheck f.g i) read).updHealth fun h =>
    { h with degraded := decide ((h.suspect.filter (!·)).length < 36) }

/-- The die's temperature, the rises of the last second and early reef (R617, R618). -/
def State.gauged (s : State) : State :=
  let die := s.dieZone.2.updHealth fun h => { h with dieTemp := s.dieZone.1 }
  ((die.updHealth fun h => { h with dieRise := die.rises.getD 4 0 }).keepHistory).evalEarly die.rises

/-- The levels of the zones and of the remote channels, and furl pending. -/
def State.levelled (s : State) : State :=
  (each (List.range 12) (fun c s => s.evalRemote c) (each (List.range 5) (fun z s => s.evalZone z) s)).evalPending

/-- Reef and ALERT_N after the levels. -/
def State.announced (s : State) : State :=
  let reefed := s.evalReef
  (if reefed.alert then reefed.drivePins .alert else reefed).updHealth fun h => { h with alertLow := reefed.alert }

theorem healthEval_eq (f : HealthFacts) :
    s.healthEval f = (s.applyHealthDue.repower.judged f (List.range 48)).gauged.levelled.announced := by
  unfold State.healthEval State.judged
  generalize List.range 48 = l
  rfl

theorem judged_evaluates (f : HealthFacts) (l : List Nat) : Evaluates s (s.judged f l) (s.judged f l).health ∧
    (s.judged f l).health.sensors = l.map (fun i => f.temps.getD i 0) ∧
    (s.judged f l).health.comparatorsTripped = f.tripped ∧
    (s.judged f l).health.degraded = decide (((s.judged f l).health.suspect.filter (!·)).length < 36) ∧
    (s.judged f l).health.levels = s.health.levels := by
  obtain ⟨strikes, suspect, good, hchecked⟩ := crossChecks_evaluates (s := s.updHealth fun h =>
    { h with sensors := l.map (fun i => f.temps.getD i 0), comparatorsTripped := f.tripped }) f.g l
  have hjudged : (s.judged f l).health = _ :=
    congrArg (fun h : Health => { h with degraded := decide ((h.suspect.filter (!·)).length < 36) }) hchecked.health
  exact ⟨⟨rfl, hchecked.time, hchecked.ctxs, hchecked.cfg⟩, by rw [hjudged]; rfl, by rw [hjudged]; rfl, by rw [hjudged],
    by rw [hjudged]; rfl⟩

theorem Evaluates.upd {t : State} {h : Health} (ht : Evaluates s t h) (f : Health → Health) : Evaluates s (t.updHealth f) (f h) :=
  ⟨congrArg f ht.health, ht.time, ht.ctxs, ht.cfg⟩

theorem keepHistory_evaluates : ∃ history, s.keepHistory = s.updHealth fun h => { h with history := history } := ⟨_, rfl⟩

theorem gauged_evaluates : ∃ temp rise history early exceed, Evaluates s s.gauged
    { s.health with dieTemp := temp, dieRise := rise, history := history, earlyReef := early, lastExceed := exceed } := by
  unfold State.gauged
  extract_lets die
  have hdie : Evaluates s die { s.health with dieTemp := s.dieZone.1 } := dieZone_evaluates.upd fun h => { h with dieTemp := s.dieZone.1 }
  obtain ⟨history, hkeep⟩ := keepHistory_evaluates (s := die.updHealth fun h => { h with dieRise := die.rises.getD 4 0 })
  have hkept := (hdie.upd fun h => { h with dieRise := die.rises.getD 4 0 }).upd fun h => { h with history := history }
  rw [← hkeep] at hkept
  obtain ⟨early, exceed, hearly⟩ := evalEarly_evaluates
    (s := (die.updHealth fun h => { h with dieRise := die.rises.getD 4 0 }).keepHistory) die.rises
  rw [hkept.health] at hearly
  exact ⟨_, _, history, early, exceed, hkept.trans hearly⟩

theorem levelled_evaluates (hlevels : s.health.levels.length = 5) : ∃ levels remote,
    (∀ z < 5, levels.getD z 0 = s.zoneLevel z) ∧
    Evaluates s s.levelled { s.health with levels := levels, remoteLevels := remote, furlPending := s.health.nearFurl } := by
  obtain ⟨levels, -, hzones, hget⟩ := evalZones_evaluates hlevels (Nat.le_refl 5)
  obtain ⟨remote, hremotes⟩ := evalRemotes_evaluates (s := each (List.range 5) (fun z s => s.evalZone z) s) (List.range 12)
  rw [hzones.health] at hremotes
  have hpending := evalPending_evaluates
    (s := each (List.range 12) (fun c s => s.evalRemote c) (each (List.range 5) (fun z s => s.evalZone z) s))
  rw [hremotes.health] at hpending
  exact ⟨levels, remote, fun z hz => (hget z hz).trans (if_pos hz), (hzones.trans hremotes).trans hpending⟩

theorem announced_evaluates :
    Evaluates s s.announced { s.health with reef := s.announced.reefWanted, alertLow := s.announced.alert } := by
  have hreefed := evalReef_evaluates (s := s)
  have hend : Evaluates s s.announced { s.health with reef := s.reefWanted, alertLow := s.evalReef.alert } := by
    refine hreefed.trans (t := s.evalReef) ?_
    unfold State.announced
    dsimp only
    split
    all_goals exact ⟨congrArg (fun h : Health => { h with alertLow := s.evalReef.alert }) hreefed.health, rfl, rfl, rfl⟩
  have hreef : s.announced.reefWanted = s.reefWanted := reefWanted_congr hend.health
  have halert : s.announced.alert = s.evalReef.alert := alert_congr (hend.health.trans (by rw [hreefed.health]))
  rw [hreef, halert]
  exact hend

/-- The evaluation's outcome, field by field, over the sensors of a list. -/
theorem evaluation_outcome (f : HealthFacts) (l : List Nat) (hlevels : s.health.levels.length = 5) {t : State}
    (ht : t = (s.judged f l).gauged.levelled.announced) :
    t.health.sensors = l.map (fun i => f.temps.getD i 0) ∧ t.health.comparatorsTripped = f.tripped ∧
      t.health.degraded = decide ((t.health.suspect.filter (!·)).length < 36) ∧
      (∀ z x, z < 5 → t.zoneTemp z = some x →
        t.health.levels.getD z 0 = levelOf (t.thresholds z) t.hysteresis x (s.health.levels.getD z 0)) ∧
      t.health.furlPending = ((f.tripped &&& ~~~t.health.comparatorsFailed) != 0 ||
        decide (64 * ((t.health.dieFurl : Int) - 2) ≤ t.health.dieTemp)) ∧ t.health.reef = t.reefWanted ∧ t.health.alertLow = t.alert ∧
      t.time = s.time ∧ t.ctxs = s.ctxs ∧ t.cfg = s.cfg := by
  obtain ⟨hjudged, hsensors, htripped, hdegraded, hkept⟩ := judged_evaluates (s := s) f l
  obtain ⟨temp, rise, history, early, exceed, hgauged⟩ := gauged_evaluates (s := s.judged f l)
  have hlevels' : (s.judged f l).gauged.health.levels = s.health.levels := by
    rw [hgauged.health]
    exact hkept
  obtain ⟨levels, remote, hget, hlevelled⟩ := levelled_evaluates (s := (s.judged f l).gauged) (hlevels' ▸ hlevels)
  have hall := ((hjudged.trans hgauged).trans hlevelled).trans announced_evaluates
  rw [← ht, hlevelled.health] at hall
  have hsame (z : Nat) : t.zoneTemp z = (s.judged f l).gauged.zoneTemp z ∧ t.thresholds z = (s.judged f l).gauged.thresholds z ∧
      t.hysteresis = (s.judged f l).gauged.hysteresis := by
    simp [State.zoneTemp, State.thresholds, State.hysteresis, State.policyByte, State.healthPolicy, hall.health]
  have hhealth := hall.health
  rw [hgauged.health] at hhealth
  refine ⟨?_, ?_, ?_, fun z x hz htemp => ?_, ?_, congrArg Health.reef hhealth, congrArg Health.alertLow hhealth, hall.time, hall.ctxs, hall.cfg⟩
  · exact (congrArg Health.sensors hhealth).trans hsensors
  · exact (congrArg Health.comparatorsTripped hhealth).trans htripped
  · rw [hhealth]
    exact hdegraded
  · obtain ⟨hzone, hthresholds, hhysteresis⟩ := hsame z
    rw [hzone] at htemp
    rw [hthresholds, hhysteresis, ← hlevels']
    refine (congrArg (fun h : Health => h.levels.getD z 0) hhealth).trans ((hget z hz).trans ?_)
    simp only [State.zoneLevel, htemp]
  · rw [← htripped, hhealth]
    rfl

end

/-- Settles O57: the evaluation in its three parts, the faults that clear, and the three commands by their bodies. That a power fault
clears at the first evaluation with another LIVE number is log entry 16. -/
theorem healthEvaluationAndCommands : Obligations.HealthEvaluationAndCommands := by
  refine ⟨?evaluation, fun e s _ hentry hst hgen => repower_clears hentry hst hgen, fun b s => ?commands⟩
  case evaluation =>
    intro f s hrunning hnimlek harming hlevels hdue hpower
    have hdueNone : s.applyHealthDue = s := by simp [State.applyHealthDue, harming]
    have heq : s.healthEval f = (s.judged f (List.range 48)).gauged.levelled.announced := by
      rw [healthEval_eq, hdueNone, repower_idle hdue hpower]
    have hruns : (s.running && s.nimlek) = true := by rw [hrunning, hnimlek]; rfl
    exact ⟨_, congrArg Host.Outcome.next (if_pos hruns), evaluation_outcome f (List.range 48) hlevels heq⟩
  case commands =>
    exact ⟨fun h => take_next h rfl, fun h => take_next h rfl, fun h => take_next h rfl⟩

end Sys2Proof.Machine

/-! SUPPORT. Errors and the commands of errors, self-tests, vectors and Halyard (R640 to R646, R649, R650, R653, R663, R664). -/

namespace Sys2Proof.Machine

open Sys2Proof

/-! ## Completions leave the tests alone -/

@[simp] theorem drawBool_obs (s : State) : s.drawBool.2.obs = s.obs := rfl

theorem leaveBusy_obs (s : State) (c : Cmd) (response : Option (List Byte)) : (s.leaveBusy c response).obs = s.obs := by
  have hbox (t : State) (b : Mbox) (st : SlotState) : (t.setBox b st).obs = t.obs := by cases b <;> rfl
  unfold State.leaveBusy
  split
  all_goals exact hbox _ _ _

theorem postNow_obs (s : State) (w : WaitCpl) : (s.postNow w).obs = s.obs := by
  unfold State.postNow
  dsimp only
  split <;> simp [leaveBusy_obs]

theorem hist_sameTests (s : State) (kind ns : Nat) (master cls : Option Nat) : SameTests s (s.hist kind ns master cls) := ⟨rfl, rfl⟩

theorem cmdLatency_sameTests (s : State) (c : Cmd) : SameTests s (s.cmdLatency c) := by
  unfold State.cmdLatency
  split
  · exact hist_sameTests _ _ _ _ _
  · exact sameTests_of_obs rfl

theorem postCpl_sameTests (s : State) (w : WaitCpl) : SameTests s (s.postCpl w) := by
  unfold State.postCpl
  split
  · exact .ite (sameTests_of_obs rfl) (sameTests_of_obs (postNow_obs _ _))
  · exact sameTests_of_obs (postNow_obs _ _)

theorem accept_sameTests (s : State) (c : Cmd) (key : Nat) (args : List Nat) : SameTests s (s.accept c key args) :=
  ((cmdLatency_sameTests s c).trans (postCpl_sameTests _ _)).trans (sameTests_of_obs rfl)

/-! ## Commands -/

section

variable {c : Cmd} {s : State}

theorem nanosField_length (t : Nanos) : (nanosField t).length = 16 := by simp [nanosField, timeField, le_length]

theorem entryBytes_length (e : ErrEntry) : e.bytes.length = 64 := by
  simp [ErrEntry.bytes, Loc.bytes, nanosField_length, le_length]

/-- The entries from a sequence on (R663): one that is not held has sequence 0xFFFF_FFFF. -/
structure HistoryOf (s : State) (first n : Nat) (d : List Byte) : Prop where
  length : d.length = 64 * n
  held : ∀ i < n, ∀ e, s.nv.errLog.find? (fun e => e.seq == first + i) = some e → sub d (64 * i) 64 = e.bytes
  missing : ∀ i < n, s.nv.errLog.find? (fun e => e.seq == first + i) = none → fld d (64 * i) 4 = 0xFFFFFFFF

theorem sub_append_right {p q : List Byte} {k : Nat} (hp : p.length = k) (off n : Nat) : sub (p ++ q) (k + off) n = sub q off n := by
  subst hp
  simp [sub, ← List.drop_drop]

theorem fld_append_right {p q : List Byte} {k : Nat} (hp : p.length = k) (off n : Nat) : fld (p ++ q) (k + off) n = fld q off n := by
  subst hp
  simp [fld, ← List.drop_drop]

/-- One more entry in front. -/
theorem HistoryOf.cons {t : State} {first n : Nat} {x d : List Byte} (h : HistoryOf t (first + 1) n d) (hnv : t.nv = s.nv)
    (hx : x.length = 64) (hheld : ∀ e, s.nv.errLog.find? (fun e => e.seq == first) = some e → x = e.bytes)
    (hmissing : s.nv.errLog.find? (fun e => e.seq == first) = none → fld x 0 4 = 0xFFFFFFFF) :
    HistoryOf s first (n + 1) (x ++ d) := by
  have hshift (i : Nat) : 64 * (i + 1) = 64 + 64 * i := by omega
  have hseq (i : Nat) : first + (i + 1) = first + 1 + i := by omega
  refine ⟨by rw [List.length_append, hx, h.length]; omega, fun i hi e he => ?_, fun i hi he => ?_⟩
  · cases i with
    | zero =>
      rw [hheld e he] at hx ⊢
      exact sub_append_left (p := []) rfl hx d
    | succ i =>
      rw [hshift, sub_append_right hx]
      exact h.held i (by omega) e (by rw [hnv, ← hseq]; exact he)
  · cases i with
    | zero =>
      have hfront : fld (x ++ d) 0 4 = fld x 0 4 := by simp [fld, List.take_append_of_le_length, hx]
      exact hfront.trans (hmissing he)
    | succ i =>
      rw [hshift, fld_append_right hx]
      exact h.missing i (by omega) (by rw [hnv, ← hseq]; exact he)

theorem errHistory_historyOf (s : State) (first n : Nat) : HistoryOf s first n (s.errHistory first n).1 ∧
    (s.errHistory first n).2 = { s with free := (s.errHistory first n).2.free } := by
  induction n generalizing s first with
  | zero => exact ⟨⟨rfl, fun i hi => absurd hi (Nat.not_lt_zero i), fun i hi => absurd hi (Nat.not_lt_zero i)⟩, rfl⟩
  | succ n ih =>
    unfold State.errHistory
    split
    next e he =>
      obtain ⟨hrest, hfree⟩ := ih s (first + 1)
      exact ⟨hrest.cons rfl (entryBytes_length e) (fun e' he' => by rw [he] at he'; rw [Option.some.inj he'])
        (fun hnone => by rw [he] at hnone; cases hnone), hfree⟩
    next hnone =>
      obtain ⟨hrest, hfree⟩ := ih s.drawNat.2 (first + 1)
      have hlength : (le 4 0xFFFFFFFF ++ le 60 s.drawNat.1).length = 64 := by
        rw [List.length_append, le_length, le_length]
      have hmark : fld (le 4 0xFFFFFFFF ++ le 60 s.drawNat.1) 0 4 = 0xFFFFFFFF :=
        (congrArg leNat (List.take_left' (le_length 4 _))).trans (fld_le_four (v := 0xFFFFFFFF) (by norm_num))
      exact ⟨hrest.cons rfl hlength (fun e he => by rw [hnone] at he; cases he) (fun _ => hmark), hfree⟩

theorem obsErrHistoryBody_held (hlow : 1 ≤ fld c.payload 4 2) (hhigh : fld c.payload 4 2 ≤ 255) : obsErrHistoryBody c s =
    (s.errHistory (fld c.payload 0 4) (fld c.payload 4 2)).2.reply c 0 []
      (some (s.errHistory (fld c.payload 0 4) (fld c.payload 4 2)).1) := by
  unfold obsErrHistoryBody
  dsimp only
  rw [if_neg (by simp; omega)]
  cases s.errHistory (fld c.payload 0 4) (fld c.payload 4 2)
  rfl

theorem obsRetiredBody_listed (hlow : 1 ≤ fld c.payload 4 2) (hhigh : fld c.payload 4 2 ≤ 511) : obsRetiredBody c s =
    s.reply c 0 [] (some (le 4 s.nv.retired.length ++
      le 4 ((s.nv.retired.drop (fld c.payload 0 4)).take (fld c.payload 4 2)).length ++
      (((s.nv.retired.drop (fld c.payload 0 4)).take (fld c.payload 4 2)).map (fun r => r.1.bytes ++ le 1 r.2.1 ++ le 7 0 ++
        le 8 r.2.2)).flatten)) := by
  unfold obsRetiredBody
  dsimp only
  rw [if_neg (by simp; omega)]
  rfl

theorem obsVectorBody_set (h : 22 ≤ fld c.payload 0 1) : obsVectorBody c s = (s.updObs fun o =>
    { o with vectors := o.vectors.filter (fun x => x.1 != fld c.payload 0 1) ++
        (if fld c.payload 2 2 = 0 then [] else [(fld c.payload 0 1, fld c.payload 2 2)]) }).ok c [] :=
  if_neg (Nat.not_lt.2 h)

theorem obsHalyardArmBody_armed (hbase : fld c.payload 0 1 ≤ 4) (hsource : s.halSource 4 = true)
    (hon : (s.base (fld c.payload 0 1)).st ≠ .off) (hmatch : fld c.payload 1 1 ≤ 3) (hns : fld c.payload 16 4 ≤ 999999999) :
    obsHalyardArmBody c s = (s.updObs fun o => { o with matches_ := o.matches_.set (fld c.payload 1 1) (some (fld c.payload 0 1,
      (((fld c.payload 8 8 * 1000000000 + fld c.payload 16 4) * 2 ^ 32 + fld c.payload 20 2 * 2 ^ 16 : Nat) : Int))) }).ok c [] := by
  unfold obsHalyardArmBody
  dsimp only
  rw [if_neg (by simp [hsource, hon]; omega), if_neg (Nat.not_lt.2 hmatch), if_neg (Nat.not_lt.2 hns)]

theorem obsHalyardFireBody_fires (hsource : s.halSource 1 = true) :
    obsHalyardFireBody c s = (s.halTrigger 1).ok c (le 4 (s.obs.halSeq + 1).toNat) := if_pos hsource

/-- A retired lane or link that is listed leaves the list, and its lane is used again (R664). -/
def State.unretired (s : State) (l : Loc) : State :=
  let freed := s.updNv fun n => { n with retired := n.retired.filter (fun r => !r.1.same l) }
  if l.kind = 2 && !freed.unitRetired l.unit then
    freed.updShroud l.unit fun x => { x with lanes := upd x.lanes l.sub (fun y => { y with retired := false }) }
  else freed

theorem obsUnretireBody_listed (hkind : (Loc.ofBytes c.payload).kind = 2 ∨ (Loc.ofBytes c.payload).kind = 6)
    (hlisted : s.nv.retired.any (fun r => r.1.same (Loc.ofBytes c.payload)) = true) :
    obsUnretireBody c s = (s.unretired (Loc.ofBytes c.payload)).ok c [] := by
  unfold obsUnretireBody
  dsimp only
  rw [if_neg (by rcases hkind with hkind | hkind <;> simp [hkind]), if_neg (by simp [hlisted])]
  rfl

theorem unretired_nv (l : Loc) :
    (s.unretired l).nv = { s.nv with retired := s.nv.retired.filter (fun r => !r.1.same l) } := by
  unfold State.unretired
  dsimp only
  split <;> rfl

theorem unretired_obs (l : Loc) : (s.unretired l).obs = s.obs := by
  unfold State.unretired
  dsimp only
  split <;> rfl

theorem unretired_lane {l : Loc} (hkind : l.kind = 2) (hkept : (s.unretired l).unitRetired l.unit = false)
    (hunit : l.unit < s.shrouds.length) (hsub : l.sub < (s.shroud l.unit).lanes.length) :
    (((s.unretired l).shroud l.unit).lanes.getD l.sub Lane.reset).retired = false := by
  have hfreed : (s.updNv fun n => { n with retired := n.retired.filter (fun r => !r.1.same l) }).unitRetired l.unit = false := by
    unfold State.unitRetired at hkept ⊢
    rwa [unretired_nv] at hkept
  have heq : s.unretired l = (s.updNv fun n => { n with retired := n.retired.filter (fun r => !r.1.same l) }).updShroud l.unit
      fun x => { x with lanes := upd x.lanes l.sub (fun y => { y with retired := false }) } := if_pos (by simp [hkind, hfreed])
  rw [heq, State.updShroud_shroud_self (s.updNv fun n => { n with retired := n.retired.filter (fun r => !r.1.same l) }) _ _ hunit]
  exact congrArg Lane.retired (upd_getD_self (f := fun y : Lane => { y with retired := false }) Lane.reset hsub)

/-! ## A self-test on demand -/

theorem scanAtOnce_frame (s : State) (l : Loc) : (s.scanAtOnce l).ctxs = s.ctxs ∧ (s.scanAtOnce l).jobs = s.jobs := by
  unfold State.scanAtOnce
  split
  · exact ⟨rfl, rfl⟩
  · split
    · exact ⟨rfl, rfl⟩
    · split
      · exact ⟨rfl, rfl⟩
      · exact ⟨rfl, rfl⟩

theorem errQueue_frame (s : State) (cls : Nat) (l : Loc) (seq : Nat) :
    (s.errQueue cls l seq).ctxs = s.ctxs ∧ (s.errQueue cls l seq).jobs = s.jobs := by
  have htold (t : State) : (t.errUpdated seq).ctxs = t.ctxs ∧ (t.errUpdated seq).jobs = t.jobs := by simp
  unfold State.errQueue
  split
  · exact htold _
  · split
    · exact ⟨rfl, rfl⟩
    · split
      · exact htold _
      · exact scanAtOnce_frame _ l

theorem logError_frame (s : State) (cls : Nat) (l : Loc) (i : ErrInfo) :
    (s.logError cls l i).ctxs = s.ctxs ∧ (s.logError cls l i).jobs = s.jobs := by
  have hwrite : (s.errWrite cls l i).ctxs = s.ctxs ∧ (s.errWrite cls l i).jobs = s.jobs := by simp [State.errWrite]
  unfold State.logError
  dsimp only
  split
  · exact hwrite
  · obtain ⟨hctxs, hjobs⟩ := errQueue_frame (s.errWrite cls l i) cls l (s.errWrite cls l i).nv.errSeq
    exact ⟨hctxs.trans hwrite.1, hjobs.trans hwrite.2⟩

theorem isRetired_congr {t : State} (hretired : t.nv.retired = s.nv.retired) (hpages : t.nv.retiredPages = s.nv.retiredPages) (l : Loc) :
    t.isRetired l = s.isRetired l := by
  unfold State.isRetired State.unitRetired
  rw [hretired, hpages]

/-- An error whose place is not retired, is not under test and finds room is tested (R644). -/
theorem errQueue_queues {cls seq : Nat} {l : Loc} (hretired : s.isRetired l = false)
    (hfresh : s.obs.tests.any (fun t => t.loc.same l) = false) (hroom : (s.obs.tests.filter (fun t => !t.running)).length < 64) :
    s.errQueue cls l seq = (s.updObs fun o =>
      { o with tests := o.tests ++ [{ cls := cls, loc := l, entries := [seq], running := false, since := s.now }] }).scanAtOnce l := by
  unfold State.errQueue
  rw [if_neg (ne_true_of_eq_false hretired), if_neg (ne_true_of_eq_false hfresh), if_neg (Nat.not_le.2 hroom)]

variable {cls : Nat} {l : Loc}

/-- The entry of a test on demand counts in no class (log entry 17). -/
theorem obsSelftestBody_queues (hl : l = Loc.ofBytes (sub c.payload 8 16)) (hlow : 1 ≤ fld c.payload 0 1)
    (hhigh : fld c.payload 0 1 ≤ 6) (hfault : l.fault (fld c.payload 0 1) = none)
    (hfresh : s.obs.tests.any (fun t => t.loc.same l) = false) (hretired : s.isRetired l = false)
    (hroom : (s.obs.tests.filter (fun t => !t.running)).length < 64) {u : State} (hu : obsSelftestBody c s = u) :
    u.nv.errSeq = s.nv.errSeq + 1 ∧ u.obs.tests = s.obs.tests ++
        [{ cls := fld c.payload 0 1, loc := l, entries := [s.nv.errSeq + 1], running := false, since := s.now }] ∧
      (∃ e rest, u.nv.errLog = e :: rest ∧ e.seq = s.nv.errSeq + 1 ∧ e.flags = 32 ∧ e.outcome = 0 ∧ e.loc = l) ∧
      u.nv.retired = s.nv.retired ∧ u.obs.classCount = s.obs.classCount := by
  obtain ⟨htests, hcounts⟩ := accept_sameTests s c (s.nv.errSeq + 1) []
  have hnv : (s.accept c (s.nv.errSeq + 1) []).nv = s.nv := by simp
  have hnow : (s.accept c (s.nv.errSeq + 1) []).now = s.now := by simp [State.now]
  unfold obsSelftestBody at hu
  dsimp only at hu
  rw [← hl, if_neg (by simp; omega), hfault] at hu
  dsimp only at hu
  rw [if_neg (ne_true_of_eq_false hfresh)] at hu
  generalize s.accept c (s.nv.errSeq + 1) [] = a at hu htests hcounts hnv hnow
  have hwrite := errWrite_nv a (fld c.payload 0 1) l { flags := efOnDemand }
  obtain ⟨hwtests, hwcounts⟩ := errWrite_tests a (fld c.payload 0 1) l { flags := efOnDemand }
  have hwnow : (a.errWrite (fld c.payload 0 1) l { flags := efOnDemand }).now = s.now := by simpa [State.now] using hnow
  generalize a.errWrite (fld c.payload 0 1) l { flags := efOnDemand } = w at hu hwrite hwtests hwcounts hwnow
  have hqueued := errQueue_queues (cls := fld c.payload 0 1) (seq := w.nv.errSeq) (l := l) (s := w)
    (by rw [isRetired_congr (s := s) (by rw [hwrite, hnv]) (by rw [hwrite, hnv]), hretired]) (by rw [hwtests, htests, hfresh])
    (by rw [hwtests, htests]; exact hroom)
  rw [hqueued, if_pos (by simp)] at hu
  have hobs : u.obs = _ := (congrArg State.obs hu).symm.trans (scanAtOnce_obs _ l)
  have hunv : u.nv = w.nv := (congrArg State.nv hu).symm.trans (scanAtOnce_nv _ l)
  refine ⟨?_, ?_, ⟨a.errEntry (fld c.payload 0 1) l { flags := efOnDemand }, _, congrArg Nv.errLog (hunv.trans hwrite), ?_, rfl, ?_, rfl⟩, ?_, ?_⟩
  · rw [hunv, hwrite, hnv]
  · rw [hobs, hwnow]
    simp [hwtests, htests, hwrite, hnv]
  · rw [← hnv]
    rfl
  · exact if_neg (by omega)
  · rw [hunv, hwrite, hnv]
  · rw [hobs]
    refine hwcounts.trans ?_
    rw [hcounts]
    have huncounted : (fun n : BitVec 32 => n + BitVec.ofNat 32 (if bit efOnDemand 5 then 0 else 1)) = id := by
      funext n
      exact BitVec.add_zero n
    exact (congrArg (upd s.obs.classCount (fld c.payload 0 1)) huncounted).trans (List.modify_id _ _)

end

/-- Settles O59: the commands by their bodies, the errors by what a logged error leaves. That the entry of OBS_SELFTEST counts in no class
is log entry 17. -/
theorem errorsAndTheirCommands : Obligations.ErrorsAndTheirCommands := by
  refine ⟨fun b s => ?commands, fun master bank s hnimlek => ⟨fun hplace => ?_, fun hplace => ?_, fun hpair => ?_⟩,
    fun cls l i s hcls hflags => ?logged⟩
  case commands =>
    intro t c p
    refine ⟨fun l h hl hlow hhigh hfault hfresh hretired hroom => ?selftest, fun h hlow hhigh => ?history,
      fun h hlow hhigh => take_next h (obsRetiredBody_listed hlow hhigh), fun l h hl hkind hlisted => ?unretire,
      fun h hv => take_next h (obsVectorBody_set hv),
      fun h hbase hsource hon hmatch hns => take_next h (obsHalyardArmBody_armed hbase hsource hon hmatch hns),
      fun h hsource => take_next h (obsHalyardFireBody_fires hsource)⟩
    case selftest =>
      exact ⟨_, take_settle_next h rfl, obsSelftestBody_queues hl hlow hhigh hfault hfresh hretired hroom rfl⟩
    case history =>
      obtain ⟨hd, hfree⟩ := errHistory_historyOf t (fld p 0 4) (fld p 4 2)
      exact ⟨_, _, take_next h (obsErrHistoryBody_held hlow hhigh), hfree, hd.length,
        fun i hi => ⟨hd.held i hi, hd.missing i hi⟩⟩
    case unretire =>
      subst hl
      exact ⟨_, take_next h (obsUnretireBody_listed hkind hlisted), unretired_nv _, unretired_obs _,
        fun hlane hkept hunit hsub => unretired_lane hlane hkept hunit hsub⟩
  · exact congrArg Host.Outcome.next (if_pos (by simp [hnimlek, hplace]))
  · exact congrArg Host.Outcome.next (if_pos (by simp [hnimlek, hplace]))
  · exact congrArg Host.Outcome.next (if_pos (by simp [hnimlek, hpair]))
  case logged =>
    intro t
    obtain ⟨e, rest, he, hnv⟩ := logError_nv s cls l i
    refine ⟨logError_errSeq s cls l i, ?_, ⟨e, rest, by rw [hnv], he.seq, he.cls, he.loc, he.tbm, he.master, he.tag, he.ctx, he.detail⟩,
      fun hhigh => ?_, by simp [t], logError_frame s cls l i⟩
    · have hcounted : bit i.flags 5 = false := by rw [hflags]; rfl
      rw [logError_counts, hcounted]
      exact upd_getD_self _ hcls
    · obtain ⟨hlog, htests⟩ := logError_only s l i hhigh
      exact ⟨_, _, hlog, if_pos hhigh, htests⟩

end Sys2Proof.Machine

/-! SUPPORT. Self-tests and the triggers of Halyard (R644 to R653). -/

namespace Sys2Proof.Machine

open Sys2Proof

/-! ## What leaves the tests and the non-volatile store alone -/

/-- The non-volatile store, and the self-tests, are as before. -/
structure SameRecord (s t : State) : Prop where
  nv : t.nv = s.nv
  tests : t.obs.tests = s.obs.tests

theorem SameRecord.refl (s : State) : SameRecord s s := ⟨rfl, rfl⟩

theorem SameRecord.trans {s t u : State} (h : SameRecord s t) (h' : SameRecord t u) : SameRecord s u :=
  ⟨h'.nv.trans h.nv, h'.tests.trans h.tests⟩

theorem SameRecord.ite {s t u : State} {c : Prop} [Decidable c] (ht : SameRecord s t) (hu : SameRecord s u) :
    SameRecord s (if c then t else u) := by
  split
  · exact ht
  · exact hu

theorem raise_sameRecord (s : State) (code src : Nat) (body : List Byte) : SameRecord s (s.raise code src body) :=
  ⟨by simp, (raise_sameTests s code src body).tests⟩

theorem count_sameTests (s : State) (event n : Nat) (t : Tagged) : SameTests s (s.count event n t) := by
  unfold State.count
  extract_lets hit crossed obs counted
  split
  · exact sameTests_of_obs rfl
  · exact .ite (SameTests.trans (t := counted) ⟨rfl, rfl⟩ (halTrigger_sameTests _ _)) ⟨rfl, rfl⟩

theorem completeJob_sameRecord (s : State) (j : Job) (status : Nat) : SameRecord s (s.completeJob j status) := by
  unfold State.completeJob
  extract_lets st w ended freed counted
  have hcounted : SameRecord freed counted := ⟨by simp [counted], (count_sameTests freed _ _ _).tests⟩
  exact ⟨hcounted.nv, hcounted.tests⟩

theorem addJob_sameRecord (s : State) (j : Job) : SameRecord s (s.addJob j).2 := by
  unfold State.addJob
  dsimp only
  split
  · exact ⟨rfl, rfl⟩
  · split
    · exact ⟨rfl, rfl⟩
    · exact ⟨rfl, rfl⟩

theorem testJob_sameRecord (s : State) (t : Test) (deps : List Nat) : SameRecord s (s.testJob t deps) := addJob_sameRecord s _

theorem startMigration_sameRecord (s : State) (p : Nat) : SameRecord s (s.startMigration p false) := by
  unfold State.startMigration
  dsimp only
  split
  · split
    · exact ⟨rfl, rfl⟩
    · exact (addJob_sameRecord s _).trans ⟨rfl, rfl⟩
  · exact SameRecord.trans (t := s.updHbm _ _) ⟨rfl, rfl⟩ (raise_sameRecord _ _ _ _)
  · exact .refl s

theorem scanAtOnce_sameRecord (s : State) (l : Loc) : SameRecord s (s.scanAtOnce l) :=
  ⟨scanAtOnce_nv s l, congrArg Obs.tests (scanAtOnce_obs s l)⟩

/-! ## Start -/

/-- What a test begins with leaves the log, and the tests. -/
theorem beginTest_sameRecord (s : State) (t : Test) : SameRecord s (s.beginTest t) := by
  unfold State.beginTest
  extract_lets l
  split
  · exact .ite (testJob_sameRecord s t _) ((startMigration_sameRecord s _).trans (testJob_sameRecord _ t _))
  · exact .ite ⟨rfl, rfl⟩ (.refl s)
  · exact testJob_sameRecord s t _
  · exact testJob_sameRecord s t _
  · exact .refl s
  · refine .ite (scanAtOnce_sameRecord s l) ((scanAtOnce_sameRecord s l).trans ?_)
    refine .ite (.ite ?_ ⟨rfl, rfl⟩) (.ite (.refl _) ⟨rfl, rfl⟩)
    exact SameRecord.trans (t := (s.scanAtOnce l).updPort l.unit l.sub _) ⟨rfl, rfl⟩ (raise_sameRecord _ _ _ _)

section

variable {s : State} {i : Nat} {x : Test}

theorem startTest_listed (h : s.obs.tests[i]? = some x) (hnimlek : s.nimlek = true) : s.startTest i =
    if s.mayStart x = true then (s.updTest i fun t => { t with running := true }).beginTest x else s := by
  simp [State.startTest, h, hnimlek]

theorem updTest_listed (h : s.obs.tests[i]? = some x) (f : Test → Test) : (s.updTest i f).obs.tests[i]? = some (f x) := by
  simp [State.updTest, upd, h]

/-! ## End -/

theorem finishRun_sameRecord (f : TestFacts) : SameRecord s (s.finishRun x f) := by
  unfold State.finishRun
  extract_lets ended marched z tested
  have hended : SameRecord s ended := by
    unfold ended
    split
    · exact completeJob_sameRecord s _ _
    · exact .refl s
  have hspare (t : State) (p : Nat) : SameRecord t (t.spareAgain p) := .ite (.refl t) ⟨rfl, rfl⟩
  split
  · exact .ite (hended.trans ⟨rfl, rfl⟩) ((hended.trans (u := marched) ⟨rfl, rfl⟩).trans (hspare _ _))
  · exact .ite (hended.trans ⟨rfl, rfl⟩) (hended.trans ⟨rfl, rfl⟩)
  · exact hended

/-- The outcome of an entry whose test ended, by how often its error has come (R647). -/
def outcomeOf (r : Option Bool) (count : Nat) : Nat :=
  match r with
  | some false => ocLasting
  | none => ocNotRun
  | some true => if 3 ≤ count then ocIntermittent else ocTransient

/-- `g` is the entry `e`, decided when `due` says so. -/
structure DecidedFrom (r : Option Bool) (result : Nat) (e g : ErrEntry) (due : Prop) : Prop where
  seq : g.seq = e.seq
  loc : g.loc = e.loc
  count : g.count = e.count
  decided : due → g.outcome = outcomeOf r e.count ∧ g.result = if r = none then 0 else result

/-- An entry once its test has ended. -/
def decidedEntry (seq : Nat) (r : Option Bool) (result extra : Nat) (e : ErrEntry) : ErrEntry :=
  if e.seq = seq then
    { e with flags := e.flags ||| extra, result := if r = none then 0 else result, outcome := outcomeOf r e.count }
  else e

theorem errDecide_nv (seq : Nat) (r : Option Bool) (result extra : Nat) : (s.errDecide seq r result extra).nv =
    { s.nv with errLog := s.nv.errLog.map (decidedEntry seq r result extra) } := by
  have hnv (t : State) : (t.errUpdated seq).nv = t.nv := by simp
  unfold State.errDecide
  refine (hnv _).trans ?_
  rfl

/-- Every entry of a test that ended is decided. -/
theorem eachDecide_decides (r : Option Bool) (result extra : Nat) (l : List Nat) (s : State) (e : ErrEntry) (he : e ∈ s.nv.errLog) :
    ∃ g ∈ (each l (fun seq s => s.errDecide seq r result extra) s).nv.errLog, DecidedFrom r result e g
      (e.seq ∈ l ∨ (e.outcome = outcomeOf r e.count ∧ e.result = if r = none then 0 else result)) := by
  induction l generalizing s e with
  | nil => exact ⟨e, he, rfl, rfl, rfl, fun h => h.resolve_left List.not_mem_nil⟩
  | cons a l ih =>
    have hmem : decidedEntry a r result extra e ∈ (s.errDecide a r result extra).nv.errLog := by
      rw [errDecide_nv]
      exact List.mem_map_of_mem he
    obtain ⟨g, hg, hgseq, hgloc, hgcount, hdecided⟩ := ih (s.errDecide a r result extra) _ hmem
    refine ⟨g, hg, ?_⟩
    by_cases hseq : e.seq = a
    · rw [decidedEntry, if_pos hseq] at hgseq hgloc hgcount hdecided
      exact ⟨hgseq, hgloc, hgcount, fun _ => hdecided (.inr ⟨rfl, rfl⟩)⟩
    · rw [decidedEntry, if_neg hseq] at hgseq hgloc hgcount hdecided
      refine ⟨hgseq, hgloc, hgcount, fun h => hdecided (h.imp_left fun hmem => ?_)⟩
      exact (List.mem_cons.1 hmem).resolve_left hseq

theorem eachDecide_kept (r : Option Bool) (result extra : Nat) (l : List Nat) (s : State) :
    SameTests s (each l (fun seq s => s.errDecide seq r result extra) s) ∧
      (each l (fun seq s => s.errDecide seq r result extra) s).nv.retired = s.nv.retired ∧
      (each l (fun seq s => s.errDecide seq r result extra) s).shrouds = s.shrouds := by
  refine each_keeps (P := fun t : State => SameTests s t ∧ t.nv.retired = s.nv.retired ∧ t.shrouds = s.shrouds) l
    ⟨sameTests_of_obs rfl, rfl, rfl⟩ ?_
  rintro seq - t ⟨htests, hretired, hshrouds⟩
  have hkept (u : State) : (u.errUpdated seq).shrouds = u.shrouds := by simp
  exact ⟨htests.trans (errDecide_sameTests t seq r result extra), (congrArg Nv.retired (errDecide_nv seq r result extra)).trans hretired,
    (hkept _).trans hshrouds⟩

theorem finish_sameTests (s : State) (e : ExecCmd) (status : Nat) (result : List Byte) (response : Option (List Byte)) :
    SameTests s (s.finish e status result response) :=
  SameTests.trans (t := s.updNcp fun n => { n with exec := n.exec.erase e }) ⟨rfl, rfl⟩ (postCpl_sameTests _ _)

theorem finishAll_sameTests (s : State) (op key status : Nat) (result : List Byte) (response : Option (List Byte)) :
    SameTests s (s.finishAll op key status result response) :=
  each_keeps (P := SameTests s) _ (sameTests_of_obs rfl) fun e _ t ht => ht.trans (finish_sameTests t e status result response)

/-- The commands that asked for a test are completed: tests, log and shrouds stay. -/
theorem eachDone_kept (status : Nat) (l : List Nat) (s : State) :
    SameTests s (each l (fun seq s => s.selftestDone seq status) s) ∧
      (each l (fun seq s => s.selftestDone seq status) s).nv = s.nv ∧
      (each l (fun seq s => s.selftestDone seq status) s).shrouds = s.shrouds := by
  refine each_keeps (P := fun t : State => SameTests s t ∧ t.nv = s.nv ∧ t.shrouds = s.shrouds) l ⟨sameTests_of_obs rfl, rfl, rfl⟩ ?_
  rintro seq - t ⟨htests, hnv, hshrouds⟩
  refine ⟨htests.trans (finishAll_sameTests t _ _ _ _ _), Eq.trans ?_ hnv, Eq.trans ?_ hshrouds⟩
  · simp [State.selftestDone]
  · simp [State.selftestDone]

/-- What remains to be done when a test has ended: its entries are decided, and the commands that asked for it complete. -/
def State.testDecided (s : State) (x : Test) (r : Option Bool) (result flags : Nat) (status : Nat) : State :=
  each x.entries (fun seq s => s.selftestDone seq status) (each x.entries (fun seq s => s.errDecide seq r result flags) s)

theorem testDecided_kept (r : Option Bool) (result flags status : Nat) : SameTests s (s.testDecided x r result flags status) ∧
    (s.testDecided x r result flags status).nv.retired = s.nv.retired ∧
    (s.testDecided x r result flags status).shrouds = s.shrouds := by
  obtain ⟨htests, hretired, hshrouds⟩ := eachDecide_kept r result flags x.entries s
  obtain ⟨htests', hnv, hshrouds'⟩ := eachDone_kept status x.entries (each x.entries (fun seq s => s.errDecide seq r result flags) s)
  exact ⟨htests.trans htests', (congrArg Nv.retired hnv).trans hretired, hshrouds'.trans hshrouds⟩

theorem testDecided_entries (r : Option Bool) (result flags status : Nat) {e : ErrEntry} (he : e ∈ s.nv.errLog)
    (hseq : e.seq ∈ x.entries) : ∃ g ∈ (s.testDecided x r result flags status).nv.errLog, DecidedFrom r result e g True := by
  obtain ⟨g, hg, hgseq, hgloc, hgcount, hdecided⟩ := eachDecide_decides r result flags x.entries s e he
  obtain ⟨-, hnv, -⟩ := eachDone_kept status x.entries (each x.entries (fun seq s => s.errDecide seq r result flags) s)
  exact ⟨g, by rw [State.testDecided, hnv]; exact hg, hgseq, hgloc, hgcount, fun _ => hdecided (.inl hseq)⟩

/-- A test that did not fail ends with its entries decided alone. -/
theorem endTest_unfailed (h : s.obs.tests[i]? = some x) {r : Option Bool} (hr : r ≠ some false) (result flags : Nat) (busy : Bool) :
    s.endTest i r result flags busy = (s.updObs fun o => { o with tests := o.tests.eraseIdx i }).testDecided x r result flags
      (if busy || r = none then stBusy else if r = some true then stOk else stSelftestFailed) := by
  simp [State.endTest, h, hr, State.testDecided]

/-- A lane whose test fails is retired (R648, R649). -/
def State.laneRetired (s : State) (l : Loc) : State :=
  ((s.updNv fun n => { n with lastings := n.lastings ++ [(l, 2, s.healthClock)] }).updShroud l.unit fun x =>
    { x with lanes := upd x.lanes l.sub (fun y => { y with retired := true }) }).retireResource l 2

theorem endTest_laneFailed (h : s.obs.tests[i]? = some x) (hcls : x.cls = 2) (result flags : Nat) (busy : Bool) :
    s.endTest i (some false) result flags busy = ((s.updObs fun o => { o with tests := o.tests.eraseIdx i }).laneRetired x.loc).testDecided
      x (some false) result (flags ||| efRetired) (if busy then stBusy else stSelftestFailed) := by
  simp [State.endTest, h, hcls, State.testDecided, State.lasting, State.laneRetired]

theorem recordRetired_lists (l : Loc) (cls : Nat) : (s.recordRetired l cls).nv.retired.any (fun r => r.1.same l) = true := by
  unfold State.recordRetired
  split
  next h => exact h
  · simp [State.updNv, Loc.same]

theorem recordRetired_kept (l : Loc) (cls : Nat) : (s.recordRetired l cls).obs = s.obs ∧ (s.recordRetired l cls).shrouds = s.shrouds ∧
    (s.recordRetired l cls).nv.errLog = s.nv.errLog := by
  unfold State.recordRetired
  split
  · exact ⟨rfl, rfl, rfl⟩
  · exact ⟨rfl, rfl, rfl⟩

theorem laneRetired_outcome (l : Loc) : (s.laneRetired l).obs.tests = s.obs.tests ∧ (s.laneRetired l).nv.errLog = s.nv.errLog ∧
    (s.laneRetired l).nv.retired.any (fun r => r.1.same l) = true ∧
    (l.unit < s.shrouds.length → l.sub < (s.shroud l.unit).lanes.length →
      (((s.laneRetired l).shroud l.unit).lanes.getD l.sub Lane.reset).retired = true) := by
  unfold State.laneRetired State.retireResource
  generalize hmarked : (s.updNv fun n => { n with lastings := n.lastings ++ [(l, 2, s.healthClock)] }).updShroud l.unit (fun x =>
    { x with lanes := upd x.lanes l.sub (fun y => { y with retired := true }) }) = t
  obtain ⟨hobs, hshrouds, hlog⟩ := recordRetired_kept (s := t) l 2
  have htold : ((t.recordRetired l 2).raise 0x0903 srcDevice l.bytes).nv = (t.recordRetired l 2).nv ∧
      ((t.recordRetired l 2).raise 0x0903 srcDevice l.bytes).shrouds = (t.recordRetired l 2).shrouds := by simp
  refine ⟨(raise_sameTests _ _ _ _).tests.trans ?_, ?_, ?_, fun hunit hsub => ?_⟩
  · rw [hobs, ← hmarked]
    rfl
  · rw [htold.1, hlog, ← hmarked]
    rfl
  · rw [htold.1]
    exact recordRetired_lists l 2
  · rw [State.shroud, htold.2, hshrouds, ← hmarked]
    refine (congrArg (fun z : Shroud => (z.lanes.getD l.sub Lane.reset).retired) (upd_getD_self Shroud.reset hunit)).trans ?_
    exact congrArg Lane.retired (upd_getD_self (f := fun y : Lane => { y with retired := true }) Lane.reset hsub)

/-- As many shrouds and lanes as before. -/
structure SameLanes (s t : State) : Prop where
  length : t.shrouds.length = s.shrouds.length
  lanes : ∀ n, (t.shroud n).lanes.length = (s.shroud n).lanes.length

theorem SameLanes.trans {s t u : State} (h : SameLanes s t) (h' : SameLanes t u) : SameLanes s u :=
  ⟨h'.length.trans h.length, fun n => (h'.lanes n).trans (h.lanes n)⟩

theorem sameLanes_of_shrouds {s t : State} (h : t.shrouds = s.shrouds) : SameLanes s t :=
  ⟨by rw [h], fun n => by rw [State.shroud, h, State.shroud]⟩

theorem updShroud_sameLanes (s : State) (n : Nat) {f : Shroud → Shroud} (hf : ∀ z, (f z).lanes.length = z.lanes.length) :
    SameLanes s (s.updShroud n f) :=
  ⟨upd_length _ _ _, fun k => upd_getD_keep (fun z : Shroud => z.lanes.length) hf s.shrouds n k _⟩

theorem finishRun_sameLanes (f : TestFacts) (hcls : x.cls = 2) : SameLanes s (s.finishRun x f) := by
  unfold State.finishRun
  extract_lets ended marched z tested
  have hended : SameLanes s ended := by
    refine sameLanes_of_shrouds ?_
    unfold ended
    split
    · simp [State.completeJob, State.updEngine, State.updJob]
    · rfl
  have htested : SameLanes ended tested := updShroud_sameLanes ended _ fun z => upd_length _ _ _
  simp only [hcls]
  split
  · exact (hended.trans htested).trans (updShroud_sameLanes tested _ fun _ => rfl)
  · exact hended.trans htested

end

/-! ## Halyard -/

section

variable {s : State}

theorem halTrigger_idle (h : s.obs.halPending = none) (src : Nat) : s.halTrigger src =
    if s.mayRaise s.obs.halLast 1000 = true then s.halPulse (2 ^ src) 0
    else { s with obs := { s.obs with halPending := some (2 ^ src, 0) } } := by
  simp [State.halTrigger, h, us]

theorem halTrigger_merges {v m : Nat} (h : s.obs.halPending = some (v, m)) (src : Nat) : s.halTrigger src =
    { s with obs := { s.obs with halPending := some (v ||| 2 ^ src, m + 1), halMerged := satInc 16 s.obs.halMerged } } := by
  simp [State.halTrigger, h]

end

/-- Settles O60: a test's start and its end by what is left of tests and log, then Halyard's triggers case by case. -/
theorem selftestsAndHalyard : Obligations.SelftestsAndHalyard := by
  refine ⟨fun i x s hlisted hnimlek => ⟨fun hmay => ?start, fun hmay => ?waits, fun f hmay hpass => ?passes, fun f hmay hfail hcls => ?fails,
    fun f hmay => ?runs, fun f hidle hcls hcls' hnow => ?notRun, fun f hidle hcls hscan hnow => ?partly, fun f hearly => ?early⟩,
    fun s => ⟨fun v m hunlisted => ?pulse, fun src _ => ?trigger, fun v => ?register, fun hold => ?pin, fun v m hpends => ?pending,
      fun m b at_ hrunning hmatch hon => ?timeMatch⟩⟩
  case start =>
    intro u
    have hstart : s.startTest i = u := (startTest_listed hlisted hnimlek).trans (if_pos hmay)
    obtain ⟨hnv, htests⟩ := beginTest_sameRecord (s.updTest i fun t => { t with running := true }) x
    exact ⟨congrArg (fun t => Host.Outcome.next (State.settle t)) hstart,
      (congrArg (fun l : List Test => l[i]?) htests).trans (updTest_listed hlisted _), hnv⟩
  case waits =>
    exact congrArg (fun t => Host.Outcome.next (State.settle t))
      ((startTest_listed hlisted hnimlek).trans (if_neg (ne_true_of_eq_false hmay)))
  case passes =>
    intro u
    obtain ⟨hnv, htests⟩ := finishRun_sameRecord (s := s) (x := x) f
    have hu : u = _ := endTest_unfailed (by rw [htests]; exact hlisted) (by decide) (s.testPasses x f false).2 0 false
    obtain ⟨hkept, hretired, -⟩ := testDecided_kept (x := x) (s := (s.finishRun x f).updObs fun o => { o with tests := o.tests.eraseIdx i })
      (some true) (s.testPasses x f false).2 0 stOk
    refine ⟨?_, ?_, ?_, fun e he hseq => ?_⟩
    · simp [execSelftestEnd, exec, hlisted, hnimlek, hmay, hpass, u]
    · rw [hu]
      exact hkept.tests.trans (congrArg (fun l : List Test => l.eraseIdx i) htests)
    · rw [hu]
      exact hretired.trans (congrArg Nv.retired hnv)
    · obtain ⟨g, hg, hd⟩ := testDecided_entries (x := x)
        (s := (s.finishRun x f).updObs fun o => { o with tests := o.tests.eraseIdx i }) (some true) (s.testPasses x f false).2 0 stOk
        (e := e) (by rw [State.updObs_nv, hnv]; exact he) hseq
      obtain ⟨houtcome, hresult⟩ := hd.decided trivial
      rw [hu]
      exact ⟨g, hg, hd.seq, houtcome, hd.loc, hresult⟩
  case fails =>
    intro u
    obtain ⟨hnv, htests⟩ := finishRun_sameRecord (s := s) (x := x) f
    obtain ⟨hlength, hlanes⟩ := finishRun_sameLanes (s := s) f hcls
    have hu : u = _ := endTest_laneFailed (by rw [htests]; exact hlisted) hcls (s.testPasses x f false).2 0 false
    obtain ⟨hwas, hlog, hlists, hlane⟩ := laneRetired_outcome (s := (s.finishRun x f).updObs fun o => { o with tests := o.tests.eraseIdx i }) x.loc
    generalize ((s.finishRun x f).updObs fun o => { o with tests := o.tests.eraseIdx i }).laneRetired x.loc = t at hu hwas hlog hlists hlane
    obtain ⟨hkept, hretired, hshrouds⟩ := testDecided_kept (x := x) (s := t) (some false) (s.testPasses x f false).2 (0 ||| efRetired)
      (if false then stBusy else stSelftestFailed)
    refine ⟨?_, ?_, ?_, fun hunit hsub => ?_, fun e he hseq => ?_⟩
    · simp [execSelftestEnd, exec, hlisted, hnimlek, hmay, hfail, u]
    · rw [hu]
      exact (hkept.tests.trans hwas).trans (congrArg (fun l : List Test => l.eraseIdx i) htests)
    · rw [hu, hretired]
      exact hlists
    · rw [hu, State.shroud, hshrouds]
      exact hlane (hlength ▸ hunit) (hlanes x.loc.unit ▸ hsub)
    · obtain ⟨g, hg, hd⟩ := testDecided_entries (x := x) (s := t) (some false) (s.testPasses x f false).2 (0 ||| efRetired)
        (if false then stBusy else stSelftestFailed) (e := e) (by rw [hlog, State.updObs_nv, hnv]; exact he) hseq
      rw [hu]
      exact ⟨g, hg, hd.seq, (hd.decided trivial).1⟩
  case runs => simp [execSelftestEnd, exec, hlisted, hmay]
  case notRun =>
    intro u
    have hdue : ¬ s.now < x.since + sec 60 := Nat.not_lt.2 hnow
    have hu : u = _ := endTest_unfailed hlisted (by decide) 0 0 true
    obtain ⟨hkept, -, -⟩ := testDecided_kept (x := x) (s := s.updObs fun o => { o with tests := o.tests.eraseIdx i }) none 0 0 stBusy
    refine ⟨?_, ?_, fun e he hseq => ?_⟩
    · simp [execSelftestRunTimeout, exec, hlisted, hnimlek, hidle, hcls, hcls', hdue, State.testScanning, u]
    · rw [hu]
      exact hkept.tests
    · obtain ⟨g, hg, hd⟩ := testDecided_entries (x := x) (s := s.updObs fun o => { o with tests := o.tests.eraseIdx i }) none 0 0 stBusy
        (e := e) he hseq
      obtain ⟨houtcome, hresult⟩ := hd.decided trivial
      rw [hu]
      exact ⟨g, hg, hd.seq, houtcome, hresult⟩
  case partly =>
    have hdue : ¬ s.now < x.since + sec 60 := Nat.not_lt.2 hnow
    simp [execSelftestRunTimeout, exec, hlisted, hnimlek, hidle, hcls, hscan, hdue, efPartial]
  case early =>
    have hwaits : x.running = true ∨ s.now < x.since + sec 60 := hearly
    rcases hwaits with hrunning | hnow
    · simp [execSelftestRunTimeout, exec, hlisted, hrunning]
    · simp [execSelftestRunTimeout, exec, hlisted, hnow]
  case pulse =>
    intro t
    have hobs : t.obs = _ := halPulse_obs s v m
    rw [hobs]
    exact ⟨rfl, rfl, rfl, if_neg (ne_true_of_eq_false hunlisted), rfl, by simp [t]⟩
  case trigger =>
    exact ⟨fun hidle hdue => (halTrigger_idle hidle src).trans (if_pos hdue),
      fun hidle hearly => (halTrigger_idle hidle src).trans (if_neg (ne_true_of_eq_false hearly)),
      fun v m hpends => halTrigger_merges hpends src⟩
  case register =>
    refine ⟨fun hreaches hset => congrArg Host.Outcome.next (if_pos (by rw [hreaches, hset]; rfl)), fun hnot => congrArg Host.Outcome.next (if_neg ?_)⟩
    rcases hnot with hnot | hnot
    · simp [hnot]
    · simp only [hnot, Bool.and_false, Bool.false_eq_true, not_false_eq_true]
  case pin =>
    refine ⟨fun hrunning hlong hsource => congrArg Host.Outcome.next (if_pos (by simp [hrunning, hlong, hsource])),
      fun hnot => congrArg Host.Outcome.next (if_neg ?_)⟩
    rcases hnot with hnot | hnot
    · simp [Nat.not_le.2 hnot]
    · simp [hnot]
  case pending =>
    refine ⟨fun hdue => ?_, fun hearly => ?_⟩
    · simp [execHalyardPendingFire, exec, hpends, us, hdue]
    · simp [execHalyardPendingFire, exec, hpends, us, hearly]
  case timeMatch =>
    refine ⟨fun hdue => ?_, fun hearly => ?_⟩
    · intro u
      have hgoes : (s.running && (s.base b).st != .off && decide (at_ ≤ (s.base b).time)) = true := by simp [hrunning, hon, hdue]
      have hsource : u.halSource 4 = s.halSource 4 := rfl
      simp only [exec, execTimeMatch, hmatch, hgoes, if_true, ← hsource]
      rfl
    · have hstays : (s.running && (s.base b).st != .off && decide (at_ ≤ (s.base b).time)) = false := by simp [Int.not_le.2 hearly]
      simp only [exec, execTimeMatch, hmatch, hstays, Bool.false_eq_true, if_false]

end Sys2Proof.Machine

/-! SUPPORT. Time bases: their changes, steps and losses, PTP and PPS_OUT (R551 to R573). -/

namespace Sys2Proof.Machine

open Sys2Proof

/-! ## What leaves contexts and sensors alone -/

section

variable (s : State)

@[simp] theorem openSegment_ctxs (n first : Nat) (discs : List (List Byte)) : (s.openSegment n first discs).ctxs = s.ctxs := rfl

@[simp] theorem addJob_ctxs (j : Job) : (s.addJob j).2.ctxs = s.ctxs := by
  unfold State.addJob
  dsimp only
  split
  · rfl
  · split <;> rfl

@[simp] theorem addSealRec_ctxs (n kind : Nat) (body : List Byte) (last : Bool) : (s.addSealRec n kind body last).ctxs = s.ctxs := by
  simp [State.addSealRec]

@[simp] theorem raiseLimited_ctxs (last : Option Nanos) (span : Nanos) (code src : Nat) (body : List Byte)
    (mark : Option Nanos → State → State) (hmark : ∀ t u, (mark t u).ctxs = u.ctxs) :
    (s.raiseLimited last span code src body mark).ctxs = s.ctxs := by
  unfold State.raiseLimited
  split
  · simp [hmark]
  · rfl

@[simp] theorem closeSegment_ctxs (n cause : Nat) : (s.closeSegment n cause).ctxs = s.ctxs := by
  unfold State.closeSegment
  dsimp only
  split
  · rfl
  · split
    · split <;> rfl
    · split
      · rw [raiseLimited_ctxs _ _ _ _ _ _ _ fun _ u => State.updTrust_ctxs u _, addJob_ctxs]
        rfl
      · simp

theorem discontinuity_frame (base cause : Nat) (stepNs : Int) : (s.discontinuity base cause stepNs).time = s.time ∧
    (s.discontinuity base cause stepNs).ctxs = s.ctxs := by
  refine each_keeps (P := fun t : State => t.time = s.time ∧ t.ctxs = s.ctxs) _ ⟨rfl, rfl⟩ ?_
  rintro n - t ⟨htime, hctxs⟩
  dsimp only
  split
  · exact ⟨htime, hctxs⟩
  · split
    · exact ⟨htime, hctxs⟩
    · refine ⟨Eq.trans ?_ htime, Eq.trans ?_ hctxs⟩ <;> simp

end

/-! ## Changes of a base -/

section

variable {s : State} {b : Nat}

theorem changeBase_frame (s : State) (b : Nat) (f : Base → Base) : (s.changeBase b f).time = (s.updBase b f).time ∧
    (s.changeBase b f).ctxs = s.ctxs ∧ (s.changeBase b f).sensors = s.sensors := by
  refine each_keeps (P := fun t : State => t.time = (s.updBase b f).time ∧ t.ctxs = s.ctxs ∧ t.sensors = s.sensors) _ ⟨rfl, rfl, rfl⟩ ?_
  rintro k - t ht
  dsimp only
  split
  · exact ht
  · simpa using ht

theorem base_congr {t : State} (h : t.time = s.time) (n : Nat) : t.base n = s.base n := by rw [State.base, h, State.base]

theorem changeBase_base_self (hb : b < s.time.bases.length) (f : Base → Base) : (s.changeBase b f).base b = f (s.base b) :=
  (base_congr (changeBase_frame s b f).1 b).trans (State.updBase_base_self _ _ _ hb)

theorem changeBase_base_of_ne {n : Nat} (h : n ≠ b) (f : Base → Base) : (s.changeBase b f).base n = s.base n :=
  (base_congr (changeBase_frame s b f).1 n).trans (State.updBase_base_of_ne _ _ _ _ h)

/-- The words of a base that stepped: its time, and the count of its steps (R551). -/
def Base.moved (x : Base) (d : Rat) : Base := { x with time := x.time + toUnits d, steps := satInc 8 x.steps }

theorem moveBase_time (s : State) (b : Nat) (d : Rat) : (s.moveBase b d).time =
    (s.updBase b fun x => { x with time := (s.base b).time + toUnits d, steps := satInc 8 x.steps }).time := by
  simp [State.moveBase]

theorem moveBase_base_self (hb : b < s.time.bases.length) (d : Rat) : (s.moveBase b d).base b = (s.base b).moved d :=
  (base_congr (moveBase_time s b d) b).trans (State.updBase_base_self _ _ _ hb)

theorem moveBase_base_of_ne {n : Nat} (h : n ≠ b) (d : Rat) : (s.moveBase b d).base n = s.base n :=
  (base_congr (moveBase_time s b d) n).trans (State.updBase_base_of_ne _ _ _ _ h)

/-- A re-phase changes TBV alone, and is told (R569). -/
theorem rephase_eq (s : State) (d : Rat) (whole : Bool) :
    ∃ f body, s.rephase d whole = (s.updBase 4 f).raise 0x0604 srcDevice body := ⟨_, _, rfl⟩

/-- What follows the move of a base leaves its own words, all but TBV's: TBM, contexts and sensors stay. -/
structure Followed (s t : State) : Prop where
  tbm : t.time.tbm = s.time.tbm
  length : t.time.bases.length = s.time.bases.length
  bases : ∀ n, n ≠ 4 → t.base n = s.base n
  ctxs : t.ctxs = s.ctxs
  sensors : t.sensors = s.sensors

theorem followed_of_time {t : State} (htime : t.time = s.time) (hctxs : t.ctxs = s.ctxs) (hsensors : t.sensors = s.sensors) :
    Followed s t :=
  ⟨by rw [htime], by rw [htime], fun n _ => base_congr htime n, hctxs, hsensors⟩

theorem Followed.trans {t u : State} (h : Followed s t) (h' : Followed t u) : Followed s u :=
  ⟨h'.tbm.trans h.tbm, h'.length.trans h.length, fun n hn => (h'.bases n hn).trans (h.bases n hn), h'.ctxs.trans h.ctxs,
    h'.sensors.trans h.sensors⟩

theorem raise_followed (s : State) (code src : Nat) (body : List Byte) : Followed s (s.raise code src body) :=
  followed_of_time (by simp) (by simp) (by simp)

theorem rephase_followed (s : State) (d : Rat) (whole : Bool) : Followed s (s.rephase d whole) := by
  obtain ⟨f, body, heq⟩ := rephase_eq s d whole
  rw [heq]
  have hmoved : Followed s (s.updBase 4 f) := ⟨rfl, upd_length _ _ _, fun n hn => State.updBase_base_of_ne _ _ _ _ hn, rfl, rfl⟩
  exact hmoved.trans (raise_followed _ _ _ _)

/-! ## Steps -/

/-- A base that has moved, the step told and TBV taken along. -/
def State.steps (s : State) (b cause : Nat) (d : Rat) : State :=
  let told := (s.moveBase b d).raise 0x0601 srcDevice (le 1 b ++ le 1 cause ++ le 2 0 ++ leInt 8 (roundRat d))
  if told.follows == some b && (told.base 4).taken then told.rephase d false else told

theorem stepBase_eq (s : State) (b cause : Nat) (d : Rat) : s.stepBase b cause d = (s.steps b cause d).touchStep b cause d := rfl

theorem steps_followed (s : State) (b cause : Nat) (d : Rat) : Followed (s.moveBase b d) (s.steps b cause d) := by
  unfold State.steps
  dsimp only
  split
  · exact (raise_followed _ _ _ _).trans (rephase_followed _ _ _)
  · exact raise_followed _ _ _ _

theorem touchStep_time (s : State) (b cause : Nat) (d : Rat) : (s.touchStep b cause d).time = s.time :=
  (discontinuity_frame _ _ _ _).1

/-- A base of the first four that stepped: its time word, its count, and nothing else of it (R567). -/
theorem stepBase_base_self (hb : b < 4) (hlength : s.time.bases.length = 5) (cause : Nat) (d : Rat) :
    (s.stepBase b cause d).base b = (s.base b).moved d := by
  rw [stepBase_eq, base_congr (touchStep_time _ b cause d), (steps_followed s b cause d).bases b (by omega)]
  exact moveBase_base_self (by omega) d

theorem stepBase_base_of_ne {n : Nat} (hn : n ≠ b) (hn4 : n ≠ 4) (cause : Nat) (d : Rat) : (s.stepBase b cause d).base n = s.base n := by
  rw [stepBase_eq, base_congr (touchStep_time _ b cause d), (steps_followed s b cause d).bases n hn4]
  exact moveBase_base_of_ne hn d

theorem stepBase_tbm (s : State) (b cause : Nat) (d : Rat) : (s.stepBase b cause d).time.tbm = s.time.tbm := by
  rw [stepBase_eq, touchStep_time, (steps_followed s b cause d).tbm, moveBase_time]
  rfl

/-- Whether a frame is open at a sensor. -/
def State.frameOpen (s : State) (f : Frame) : Bool :=
  s.sensors.any (fun x => x.openFrames.any (fun o => o.ctx == f.ctx && o.seq == some f.seq))

/-- What a step leaves of a frame (R570). -/
def State.stepMark (s : State) (b : Nat) (f : Frame) : Frame :=
  if f.timeBase = b && s.frameOpen f then { f with landFlags := setFlag f.landFlags gfTimeStep } else f

theorem touchStep_ctxs (s : State) (b cause : Nat) (d : Rat) : (s.touchStep b cause d).ctxs = s.ctxs.map fun x =>
    { x with frames := x.frames.map (s.stepMark b), refusalLog := x.refusalLog.map (s.stepMark b) } := by
  unfold State.touchStep
  exact (discontinuity_frame _ _ _ _).2

theorem stepBase_ctx {k : Nat} (hk : k < s.ctxs.length) (b cause : Nat) (d : Rat) : (s.stepBase b cause d).ctx k =
    { s.ctx k with frames := (s.ctx k).frames.map (s.stepMark b), refusalLog := (s.ctx k).refusalLog.map (s.stepMark b) } := by
  have hsteps := steps_followed s b cause d
  have hmoved : (s.moveBase b d).ctxs = s.ctxs ∧ (s.moveBase b d).sensors = s.sensors := by simp [State.moveBase]
  have hctxs := hsteps.ctxs.trans hmoved.1
  have hmark : (s.steps b cause d).stepMark b = s.stepMark b := by
    funext f
    unfold State.stepMark State.frameOpen
    rw [hsteps.sensors, hmoved.2]
  rw [State.ctx, stepBase_eq, touchStep_ctxs, hmark, hctxs, State.ctx]
  simp [hk]

theorem stepMark_open {f : Frame} (hbase : f.timeBase = b)
    (hopen : ∃ z ∈ s.sensors, ∃ o ∈ z.openFrames, o.ctx = f.ctx ∧ o.seq = some f.seq) :
    s.stepMark b f = { f with landFlags := setFlag f.landFlags gfTimeStep } := by
  obtain ⟨z, hz, o, ho, hctx, hseq⟩ := hopen
  have hopen' : s.frameOpen f = true :=
    List.any_eq_true.2 ⟨z, hz, List.any_eq_true.2 ⟨o, ho, by rw [hctx, hseq]; simp⟩⟩
  exact if_pos (by rw [hbase, hopen']; simp)

/-! ## Losses -/

/-- A base in HOLDOVER: at the mean rate (R553). -/
def Base.held (x : Base) : Base := { x with st := .holdover, rate := x.meanRate, goodRun := 0 }

theorem holdover_base_self (hb : b < s.time.bases.length) (hst : (s.base b).st = .acquiring ∨ (s.base b).st = .locked) :
    (s.holdover b).base b = (s.base b).held := by
  have heq : s.holdover b = s.changeBase b Base.held := if_pos (by rcases hst with hst | hst <;> rw [hst] <;> rfl)
  rw [heq]
  exact changeBase_base_self hb _

theorem holdover_base_of_ne {n : Nat} (h : n ≠ b) : (s.holdover b).base n = s.base n := by
  unfold State.holdover
  dsimp only
  split
  · exact changeBase_base_of_ne h _
  · rfl

end

/-! ## Commands -/

section

variable {c : Cmd} {s : State}

theorem timSetBody_free (hb : fld c.payload 0 1 < 4) (hentry : (s.base (fld c.payload 0 1)).entry.isSome = true)
    (hsource : (s.base (fld c.payload 0 1)).source = 0) (hns : fld c.payload 16 4 ≤ 999999999) : timSetBody c s =
    (s.stepBase (fld c.payload 0 1) 1 (((fld c.payload 8 8 * 1000000000 : Nat) + (fld c.payload 16 4 : Nat) : Int) +
      (fld c.payload 20 2 : Rat) / 65536 - (s.base (fld c.payload 0 1)).ns)).ok c [] := by
  have hnone : (s.base (fld c.payload 0 1)).entry.isNone = false := by simp [hentry]
  unfold timSetBody
  dsimp only
  rw [hsource, hnone, if_neg (by simp; omega), if_neg (Nat.not_lt.2 hns), if_neg (by omega), if_neg (by omega), if_neg (by omega)]

theorem timSetBody_disciplined (hsource : (s.base (fld c.payload 0 1)).source = 1) : timSetBody c s =
    s.reply c 0x0103 (le 4 32) none := by
  unfold timSetBody
  dsimp only
  rw [hsource, if_pos (by simp)]
  rfl

theorem timPtpStatusBody_ptp (hb : fld c.payload 0 1 ≤ 4) (hentry : (s.base (fld c.payload 0 1)).entry.isSome = true)
    (hrole : (s.base (fld c.payload 0 1)).role ≠ 0) : timPtpStatusBody c s =
    (s.ptpStatus (fld c.payload 0 1)).2.reply c 0 [] (some (s.ptpStatus (fld c.payload 0 1)).1) := by
  have hnone : (s.base (fld c.payload 0 1)).entry.isNone = false := by simp [hentry]
  unfold timPtpStatusBody
  dsimp only
  rw [hnone, if_neg (by simp [hrole]; omega)]
  rfl

end

/-! ## Frames of an Ethernet port, and PTP -/

section

variable {s : State} {port y k b : Nat} {f : EthFrame}

section

variable (hat : s.ethAt port = some (y, k)) (hst : (s.port y k).st = 6)

include hat hst

theorem ethFrame_bad (hfcs : f.fcsOk = false) :
    s.ethFrame port f = s.updPort y k fun x => { x with rxErrors := satInc 16 x.rxErrors } := by
  simp [State.ethFrame, hat, hst, fxActive, hfcs]

theorem ethFrame_foreign (hfcs : f.fcsOk = true) (hours : f.ours = false ∨ f.ptp = none) :
    s.ethFrame port f = s.updPort y k fun x => { x with rxDropped := satInc 16 x.rxDropped } := by
  rcases hours with hours | hours
  · simp [State.ethFrame, hat, hst, fxActive, hfcs, hours]
  · cases hmine : f.ours <;> simp [State.ethFrame, hat, hst, fxActive, hfcs, hours, hmine]

theorem ethFrame_ptp {m : PtpMsg} (hfcs : f.fcsOk = true) (hours : f.ours = true) (hptp : f.ptp = some m) (hb : b < 4)
    (hbase : ∀ n, n < 4 → ((s.base n).entry.isSome && (s.base n).role != 0 && (s.base n).ethPort == port &&
      (s.base n).domain == m.domain) = (n == b)) : s.ethFrame port f = s.ptpIn b m := by
  have hmine : (List.range 4).filter (fun n => (s.base n).entry.isSome && (s.base n).role != 0 && (s.base n).ethPort == port &&
      (s.base n).domain == m.domain) = [b] := by
    rw [List.filter_congr fun n hn => hbase n (List.mem_range.1 hn)]
    interval_cases b <;> rfl
  simp only [State.ethFrame, hat, hst, fxActive, hfcs, hours, hptp, hmine]
  rfl

end

theorem ptpIn_delayResp {m : PtpMsg} (hrole : (s.base b).role = 1) (hmaster : (s.base b).ptp.master = true)
    (hparent : fit 10 m.source = (s.base b).ptp.parent) (hkind : m.kind = 9) (hp2p : (s.base b).p2p = false)
    (hseq : m.seq = (s.base b).ptp.reqSeq) : s.ptpIn b m = s.updBase b fun x => { x with ptp :=
      { x.ptp with pathDelay := (x.ptp.lastMs + (m.stamp - m.correction - x.ptp.reqSent)) / 2, haveDelay := true } } := by
  simp [State.ptpIn, hrole, hmaster, hparent, hkind, hp2p, hseq, State.updPtp]

/-- A base without another master heard of. -/
def State.masterless (s : State) (b : Nat) : State :=
  (s.updPtp b fun p => { p with foreign := p.foreign.filter (fun f => sub f 16 10 != p.parent) }).updPtp b fun p => { p with master := false }

section

variable (hparent : ∀ f ∈ (s.base b).ptp.foreign, sub f 16 10 = (s.base b).ptp.parent)

include hparent

theorem noForeign : (s.base b).ptp.foreign.filter (fun f => sub f 16 10 != (s.base b).ptp.parent) = [] :=
  List.filter_eq_nil_iff.2 fun f hf => by simp [hparent f hf]

variable (hb : b < s.time.bases.length)

include hb

theorem masterless_base : (s.masterless b).base b = { s.base b with ptp := { (s.base b).ptp with foreign := [], master := false } } := by
  have hlength : b < (s.updPtp b fun p => { p with foreign := p.foreign.filter (fun f => sub f 16 10 != p.parent) }).time.bases.length :=
    (upd_length _ _ _).symm ▸ hb
  refine (State.updBase_base_self _ _ _ hlength).trans ?_
  rw [State.updPtp, State.updBase_base_self _ _ _ hb]
  exact congrArg (fun l => { s.base b with ptp := { (s.base b).ptp with foreign := l, master := false } }) (noForeign hparent)

/-- Without another master heard of, the base loses its source (R553). -/
theorem announceTimeout_alone (hentry : (s.base b).entry.isSome = true) (hsource : (s.base b).source = 1)
    (hmaster : (s.base b).ptp.master = true)
    (hold : ∀ f ∈ (s.base b).ptp.foreign, fld f 27 8 + fld (s.base b).ent 11 1 * (s.base b).announceNs ≤ s.now)
    (hheard : (s.base b).ptp.foreign ≠ []) : s.announceTimeout b = (s.masterless b).holdover b := by
  obtain ⟨f, l, hl⟩ := List.exists_cons_of_ne_nil hheard
  have hf : f ∈ (s.base b).ptp.foreign := hl ▸ List.mem_cons_self
  have hfind : (s.base b).ptp.foreign.find? (fun f => sub f 16 10 == (s.base b).ptp.parent) = some f := by
    rw [hl, List.find?_cons_of_pos (by simp [hparent f hf])]
  have hdue : ¬ ((!((s.base b).entry.isSome && (s.base b).source = 1 && (s.base b).ptp.master) ||
      decide (s.now < fld f 27 8 + fld (s.base b).ent 11 1 * (s.base b).announceNs)) = true) := by
    simp [hentry, hsource, hmaster, hold f hf]
  have hleft : ((s.updPtp b fun p => { p with foreign := p.foreign.filter (fun f => sub f 16 10 != p.parent) }).base b).ptp.foreign = [] := by
    rw [State.updPtp, State.updBase_base_self _ _ _ hb]
    exact noForeign hparent
  have hselect : (s.updPtp b fun p => { p with foreign := p.foreign.filter (fun f => sub f 16 10 != p.parent) }).selectMaster b =
      s.masterless b := by
    simp only [State.selectMaster, PtpState.qualified, hleft]
    rfl
  unfold State.announceTimeout
  dsimp only
  rw [hfind]
  dsimp only [Option.map_some, Option.getD_some]
  rw [if_neg hdue, hselect, if_neg (by rw [masterless_base hparent hb]; simp)]

end

/-! ## Messages that the device sends, and PPS_OUT -/

theorem ethOut_uncounted {m : OutMsg} {n : Nat} (h : s.obs.counters.any (fun c => c.selects 0x11) = false) : s.ethOut m n = s.out m := by
  have hnone : ¬ (s.out m).obs.counters.any (fun c => c.selects 0x11) = true := by simpa using h
  exact if_neg hnone

theorem ppsPulse_on (h : fld s.timeGlobal 3 1 = 5 ∨
    (fld s.timeGlobal 3 1 < 5 ∧ (s.base (fld s.timeGlobal 3 1)).st ≠ .off ∧ (s.base (fld s.timeGlobal 3 1)).st ≠ .unset)) :
    s.ppsPulse = s.out (.ppsOut (10 * fld s.timeGlobal 4 4)) := by
  unfold State.ppsPulse
  rcases h with h | ⟨hlow, hoff, hunset⟩
  · simp [h]
  · simp [hlow, hoff, hunset]

theorem ppsPulse_off (hlow : fld s.timeGlobal 3 1 < 5)
    (h : (s.base (fld s.timeGlobal 3 1)).st = .off ∨ (s.base (fld s.timeGlobal 3 1)).st = .unset) : s.ppsPulse = s := by
  unfold State.ppsPulse
  rcases h with h | h
  · simp [h, Nat.ne_of_lt hlow]
  · simp [h, Nat.ne_of_lt hlow]

end

/-- Settles O53: the commands by their bodies, a step by what follows the move of a base, then PTP and PPS_OUT. That a base steps by the
offset rounded to 2^-32 ns is log entry 29. -/
theorem timeCommandsAndNetworkTime : Obligations.TimeCommandsAndNetworkTime := by
  refine ⟨⟨fun b s => ?commands, fun n cause d s hn hlength => ?step⟩, fun s => ⟨fun port y k f hat hst => ?frames,
    fun b m hrole hmaster hparent hkind hp2p hseq => ptpIn_delayResp hrole hmaster hparent hkind hp2p hseq,
    fun b hb hentry hsource hmaster hparent hold hheard hst => ?announce, fun b hentry => ?messages,
    fun m n h => ethOut_uncounted h, fun h => congrArg Host.Outcome.next (ppsPulse_on (.inl h)),
    fun b hb hlow hoff hunset => ?pulse, fun b hb hlow hst => ?silent⟩⟩
  case commands =>
    intro t c p n
    exact ⟨fun h => take_next h rfl, fun h hb hentry hsource hns => take_settle_next h (timSetBody_free hb hentry hsource hns),
      fun h _ _ hsource => take_settle_next h (timSetBody_disciplined hsource),
      fun h hb hentry hrole => take_next h (timPtpStatusBody_ptp hb hentry hrole)⟩
  case step =>
    intro t
    have ht : t = s.stepBase n cause d := rfl
    clear_value t
    have hself : t.base n = (s.base n).moved d := ht ▸ stepBase_base_self hn hlength cause d
    have htime : t.time.tbm = s.time.tbm := ht ▸ stepBase_tbm s n cause d
    have hmoved : (t.base n).time = (s.base n).time + roundRat (d * 4294967296) := congrArg Base.time hself
    refine ⟨hmoved, congrArg Base.steps hself, (congrArg Base.st hself).trans rfl, htime,
      fun m hm hm4 => ht ▸ stepBase_base_of_ne hm hm4 cause d, fun k x hk hbase hopen => ?_⟩
    have hctx := ht ▸ stepBase_ctx hk n cause d
    rw [hctx, ← stepMark_open hbase hopen]
    exact ⟨List.mem_map_of_mem, List.mem_map_of_mem⟩
  case frames =>
    exact ⟨fun hfcs => congrArg (fun t => Host.Outcome.next (State.settle t)) (ethFrame_bad hat hst hfcs),
      fun hfcs hours => congrArg (fun t => Host.Outcome.next (State.settle t)) (ethFrame_foreign hat hst hfcs hours),
      fun m b hfcs hours hptp hb hbase =>
        congrArg (fun t => Host.Outcome.next (State.settle t)) (ethFrame_ptp hat hst hfcs hours hptp hb hbase)⟩
  case announce =>
    have hmasterless := masterless_base hparent hb
    have hheld := holdover_base_self (s := s.masterless b) (b := b) (by simpa [State.masterless, State.updPtp, upd_length] using hb)
      (by rw [hmasterless]; exact hst)
    refine ⟨_, congrArg Host.Outcome.next (announceTimeout_alone hparent hb hentry hsource hmaster hold hheard), by rw [hheld]; rfl,
      by rw [hheld, hmasterless]; rfl, by rw [hheld, hmasterless]; rfl, fun n hn => ?_⟩
    rw [holdover_base_of_ne hn, State.masterless, State.updPtp, State.updPtp, State.updBase_base_of_ne _ _ _ _ hn,
      State.updBase_base_of_ne _ _ _ _ hn]
  case messages =>
    intro x seq asked said
    have hnone : (s.base b).entry.isNone = false := by simp [hentry]
    refine ⟨fun hrole hst => ⟨?_, ?_⟩, fun hrole hp2p hmaster => ?_, fun hrole hp2p => ?_⟩
    · simp [exec, execPtpMessageInterval, State.ptpOut, hnone, hrole, hst, x, seq, said, State.updPtp]
    · simp [exec, execPtpMessageInterval, State.ptpOut, hnone, hrole, hst, x, seq, said, State.updPtp]
    · simp [exec, execPtpMessageInterval, State.ptpOut, hnone, hrole, hp2p, hmaster, x, seq, asked, State.updPtp]
    · simp [exec, execPtpMessageInterval, State.ptpOut, hnone, hrole, hp2p, x, seq, asked, State.updPtp]
  case pulse =>
    subst hb
    exact congrArg Host.Outcome.next (ppsPulse_on (.inr ⟨hlow, hoff, hunset⟩))
  case silent =>
    subst hb
    exact congrArg Host.Outcome.next (ppsPulse_off hlow hst)

end Sys2Proof.Machine

/-! SUPPORT. The servo of a time base, and its references (R552 to R569). -/

namespace Sys2Proof.Machine

open Sys2Proof

/-! ## The servo -/

/-- The magnitude of an offset. -/
def offsetAbs (theta : Rat) : Rat := if theta < 0 then -theta else theta

/-- The rate that an update sets: the PI law within the slew limit (R567). -/
def State.servoRate (s : State) (x : Base) (theta : Rat) : Rat :=
  max (-slewLimit false x) (min (slewLimit false x)
    (-(theta / 4 + (x.integral + theta / 16)) / (s.now - x.lastUpdate.getD s.now : Nat)))

/-- The updates in a row within 1 us of the reference. -/
def Base.servoRun (x : Base) (theta : Rat) : Nat := if offsetAbs theta < 1000 then x.goodRun + 1 else 0

/-- The state after an update within the threshold, from a state (R552, R553). -/
def Base.servoSt (x : Base) (theta : Rat) (st : BaseSt) : BaseSt :=
  if st == .acquiring && 8 ≤ x.servoRun theta then .locked
  else if st == .locked && 10000 < offsetAbs theta then .acquiring else st

theorem servoSt_acquiring (x : Base) (theta : Rat) : x.servoSt theta .acquiring =
    if offsetAbs theta < 1000 ∧ 7 ≤ x.goodRun then .locked else .acquiring := by
  have hrun : 8 ≤ x.servoRun theta ↔ offsetAbs theta < 1000 ∧ 7 ≤ x.goodRun := by
    unfold Base.servoRun
    split
    next h => simp [h]
    next h => simp [h]
  simp [Base.servoSt, hrun]

theorem servoSt_locked (x : Base) (theta : Rat) : x.servoSt theta .locked =
    if 10000 < offsetAbs theta then .acquiring else .locked := by
  simp [Base.servoSt]

/-- The offset noted; a base in HOLDOVER acquires again. -/
def State.servoNoted (s : State) (b : Nat) (theta : Rat) : State :=
  let s := s.updBase b fun y => { y with theta := roundRat theta }
  if (s.base b).st == .holdover then s.changeBase b (fun y => { y with st := .acquiring, goodRun := 0 }) else s

/-- An update within the threshold, over what was known of the base before. -/
def State.servoSlews (s : State) (b : Nat) (x : Base) (theta : Rat) : State :=
  s.changeBase b fun y =>
    { y with integral := x.integral + theta / 16, rate := s.servoRate x theta,
             goodRun := if x.servoSt theta (s.base b).st == .acquiring && (s.base b).st == .locked then 0 else x.servoRun theta,
             lastUpdate := some s.now, st := x.servoSt theta (s.base b).st,
             history := (s.now, s.servoRate x theta) :: y.history.filter (fun h => s.now < h.1 + sec 16) }

/-- An update that steps, of a base that is not TBV: an UNSET base starts so. -/
def State.servoSteps (s : State) (b : Nat) (x : Base) (theta : Rat) : State :=
  let s := s.updBase b fun y => { y with integral := 0, goodRun := 0, lastUpdate := some s.now }
  let s := if x.st == .unset && (x.source ≠ 2 || x.taken) then s.changeBase b (fun y => { y with st := .acquiring, taken := true }) else s
  s.stepBase b (if x.st == .unset then 2 else 0) (-theta)

section

variable {s : State} {b : Nat} {theta : Rat}

theorem servo_eq (hb : b ≠ 4) : s.servo b theta =
    if ((s.base b).st == .unset || decide (((s.base b).threshold : Rat) < offsetAbs theta)) = true then
      (s.servoNoted b theta).servoSteps b (s.base b) theta
    else (s.servoNoted b theta).servoSlews b (s.base b) theta := by
  have htbv : (b == 4) = false := by simp [hb]
  unfold State.servo
  simp only [htbv]
  rfl

section

variable (hb : b < 4) (hlength : s.time.bases.length = 5)

include hb hlength

theorem servoNoted_eq (hst : (s.base b).st ≠ .holdover) :
    s.servoNoted b theta = s.updBase b fun y => { y with theta := roundRat theta } := by
  have hmarked : (s.updBase b fun y => { y with theta := roundRat theta }).base b = { s.base b with theta := roundRat theta } :=
    State.updBase_base_self _ _ _ (by omega)
  refine if_neg ?_
  rw [hmarked]
  simpa using hst

/-- An update within the threshold (R567). -/
theorem servo_base_slews (hst : (s.base b).st = .acquiring ∨ (s.base b).st = .locked)
    (habs : offsetAbs theta ≤ ((s.base b).threshold : Rat)) : (s.servo b theta).base b = { s.base b with
      theta := roundRat theta, integral := (s.base b).integral + theta / 16, rate := s.servoRate (s.base b) theta,
      goodRun := if (s.base b).servoSt theta (s.base b).st == .acquiring && (s.base b).st == .locked then 0
        else (s.base b).servoRun theta,
      lastUpdate := some s.now, st := (s.base b).servoSt theta (s.base b).st,
      history := (s.now, s.servoRate (s.base b) theta) :: (s.base b).history.filter (fun h => s.now < h.1 + sec 16) } := by
  have hheld : (s.base b).st ≠ .holdover := by rcases hst with hst | hst <;> rw [hst] <;> decide
  have hwithin : ¬ ((s.base b).st == .unset || decide (((s.base b).threshold : Rat) < offsetAbs theta)) = true := by
    rcases hst with hst | hst <;> simpa [hst] using habs
  have hmarked : (s.updBase b fun y => { y with theta := roundRat theta }).base b = { s.base b with theta := roundRat theta } :=
    State.updBase_base_self _ _ _ (by omega)
  rw [servo_eq (by omega), if_neg hwithin, servoNoted_eq hb hlength hheld, State.servoSlews,
    changeBase_base_self (by simp [upd_length]; omega), hmarked]
  rfl

/-- An update that steps leaves the state that the base had, or acquires. -/
theorem servo_base_steps (hst : (s.base b).st ≠ .holdover)
    (hsteps : (s.base b).st = .unset ∨ ((s.base b).threshold : Rat) < offsetAbs theta) {started : Bool}
    (hstarted : started = ((s.base b).st == .unset && (decide ((s.base b).source ≠ 2) || (s.base b).taken))) :
    (s.servo b theta).base b = Base.moved { s.base b with
      theta := roundRat theta, integral := 0, goodRun := 0, lastUpdate := some s.now,
      st := if started then .acquiring else (s.base b).st, taken := if started then true else (s.base b).taken } (-theta) := by
  have hbeyond : ((s.base b).st == .unset || decide (((s.base b).threshold : Rat) < offsetAbs theta)) = true := by
    simpa using hsteps
  have hmarked : (s.updBase b fun y => { y with theta := roundRat theta }).base b = { s.base b with theta := roundRat theta } :=
    State.updBase_base_self _ _ _ (by omega)
  rw [servo_eq (by omega), if_pos hbeyond, servoNoted_eq hb hlength hst]
  generalize hs : (s.updBase b fun y => { y with theta := roundRat theta }) = t at hmarked
  have hnow : t.now = s.now := by rw [← hs]; rfl
  have hlength' : t.time.bases.length = 5 := by rw [← hs]; exact (upd_length _ _ _).trans hlength
  have hcleared : (t.updBase b fun y => { y with integral := 0, goodRun := 0, lastUpdate := some t.now }).base b =
      { s.base b with theta := roundRat theta, integral := 0, goodRun := 0, lastUpdate := some s.now } := by
    rw [State.updBase_base_self _ _ _ (by omega), hmarked, hnow]
  have hlength'' : (t.updBase b fun y => { y with integral := 0, goodRun := 0, lastUpdate := some t.now }).time.bases.length = 5 :=
    (upd_length _ _ _).trans hlength'
  unfold State.servoSteps
  generalize (t.updBase b fun y => { y with integral := 0, goodRun := 0, lastUpdate := some t.now }) = u at hcleared hlength'' ⊢
  dsimp only
  rw [← hstarted]
  cases started with
  | true =>
    simp only [if_true]
    have hstart : (u.changeBase b (fun y => { y with st := .acquiring, taken := true })).time.bases.length = 5 := by
      rw [(changeBase_frame _ _ _).1]
      exact (upd_length _ _ _).trans hlength''
    rw [stepBase_base_self hb hstart, changeBase_base_self (by omega), hcleared]
  | false =>
    simp only [Bool.false_eq_true, if_false]
    rw [stepBase_base_self hb hlength'', hcleared]

end

end

/-! ## Losses of references -/

section

variable {s : State}

theorem refEvent_time (s : State) (ref : Nat) (lost : Bool) : (s.refEvent ref lost).time = s.time := by simp

theorem holdover_length (s : State) (b : Nat) : (s.holdover b).time.bases.length = s.time.bases.length := by
  unfold State.holdover
  dsimp only
  split
  · rw [(changeBase_frame _ _ _).1]
    exact upd_length _ _ _
  · rfl

theorem holdover_held {b : Nat} {x : Base} (h : s.base b = x.held) : s.holdover b = s :=
  if_neg (by rw [h]; exact (by decide : ¬ (BaseSt.holdover == .acquiring || BaseSt.holdover == .locked) = true))

/-- Of the bases of a lost source one is as it was, or in HOLDOVER already. -/
def HeldOrSame (s : State) (b : Nat) (t : State) : Prop :=
  t.time.bases.length = s.time.bases.length ∧ (t.base b = s.base b ∨ t.base b = (s.base b).held)

section

variable {b : Nat} (hlength : b < s.time.bases.length) (hst : (s.base b).st = .acquiring ∨ (s.base b).st = .locked)

include hlength hst

theorem heldOrSame_holds {t : State} (h : HeldOrSame s b t) : (t.holdover b).base b = (s.base b).held := by
  obtain ⟨hsame, hbase | hbase⟩ := h
  · rw [holdover_base_self (hsame ▸ hlength) (hbase ▸ hst), hbase]
  · rw [holdover_held hbase, hbase]

/-- The bases of a lost source go to HOLDOVER (R553). -/
theorem eachHoldover_base {l : List Nat} (hb : b ∈ l) : (each l (fun b s => s.holdover b) s).base b = (s.base b).held := by
  have hstep {t : State} (a : Nat) (ht : HeldOrSame s b t) : HeldOrSame s b (t.holdover a) := by
    refine ⟨(holdover_length t a).trans ht.1, ?_⟩
    by_cases ha : b = a
    · exact .inr (ha ▸ heldOrSame_holds hlength hst ht)
    · rw [holdover_base_of_ne ha]
      exact ht.2
  obtain ⟨l₁, l₂, rfl⟩ := List.append_of_mem hb
  have hfront : HeldOrSame s b (each l₁ (fun b s => s.holdover b) s) :=
    each_keeps (P := HeldOrSame s b) l₁ ⟨rfl, .inl rfl⟩ fun a _ t ht => hstep a ht
  have hhere := heldOrSame_holds hlength hst hfront
  have hback := each_keeps (P := fun t : State => t.base b = (s.base b).held) l₂ hhere (f := fun b (s : State) => s.holdover b) fun a _ t ht => by
    by_cases ha : b = a
    · rwa [← ha, holdover_held ht]
    · rwa [holdover_base_of_ne ha]
  rw [each, List.foldl_append]
  exact hback

end

theorem eachHoldover_time_frame (l : List Nat) (s : State) :
    (each l (fun b s => s.holdover b) s).time = { s.time with bases := (each l (fun b s => s.holdover b) s).time.bases } := by
  refine each_keeps (P := fun t : State => t.time = { s.time with bases := t.time.bases }) l rfl fun a _ t ht => ?_
  unfold State.holdover
  dsimp only
  split
  · rw [(changeBase_frame _ _ _).1]
    exact congrArg (fun x : Time => { x with bases := upd t.time.bases a Base.held }) ht
  · exact ht

/-! ## The crystal -/

theorem crystalCorrection_time (s : State) : ∃ k temp tbm stale,
    s.crystalCorrection.time = { s.time with k := k, xtalTemp := temp, xtalTbm := tbm, xtalStale := stale } := by
  unfold State.crystalCorrection
  dsimp only
  split
  · exact ⟨_, _, _, _, rfl⟩
  · split
    · exact ⟨_, _, _, _, rfl⟩
    · split
      · exact ⟨_, _, _, _, rfl⟩
      · split
        · exact ⟨_, _, _, _, refEvent_time _ _ _⟩
        · exact ⟨_, _, _, _, rfl⟩

theorem crystalCorrection_valid {c : Nat} (htref : s.time.onTref = false) (hchannel : s.xtalChannel = some c)
    (hvalid : (s.health.remotes.getD c Remote.reset).valid = true) : s.crystalCorrection.time =
      { s.time with k := s.correction (s.health.remotes.getD c Remote.reset).temp,
                    xtalTemp := (s.health.remotes.getD c Remote.reset).temp, xtalTbm := some s.now, xtalStale := false } := by
  unfold State.crystalCorrection
  dsimp only
  rw [if_neg (ne_true_of_eq_false htref), hchannel]
  dsimp only
  rw [if_neg (by rw [hvalid]; decide)]
  split
  · exact refEvent_time _ _ _
  · rfl

theorem markXtalStale_eq {c : Nat} (hchannel : s.xtalChannel = some c) (hfresh : s.time.xtalStale = false) : s.markXtalStale =
    if s.now < s.time.xtalTbm.getD 0 + 1000000000 then s
    else (s.updTime fun t => { t with xtalStale := true }).raise 0x0605 0 (le 1 3 ++ le 1 1) := by
  simp only [State.markXtalStale, hchannel, hfresh, Option.isNone_some, Bool.false_or, decide_eq_true_eq]
  rfl

/-! ## TBV -/

theorem fsyncEdge_time (s : State) (count : Nat) : (s.fsyncEdge count).time = s.time := by
  refine each_proj (π := State.time) (fun n t => ?_) _ s
  dsimp only
  split
  · simp
  · split
    · simp
    · simp

theorem beginFrame_time (s : State) (n : Nat) : (s.beginFrame n).time = s.time := by
  unfold State.beginFrame
  dsimp only
  split
  · rfl
  · split
    · rfl
    · simp

theorem applyShift_base (hlength : s.time.bases.length = 5) : (s.applyShift.base 4).lastEdge = (s.base 4).lastEdge ∧
    (s.applyShift.base 4).toApply = none ∧
    (s.applyShift.base 4).time = (s.base 4).time + toUnits ((s.base 4).toApply.getD 0) := by
  have hzero : toUnits 0 = 0 := by decide +kernel
  unfold State.applyShift
  split
  next hnone => exact ⟨rfl, hnone, by rw [hnone, Option.getD_none, hzero, Int.add_zero]⟩
  next d hd =>
    dsimp only
    have hcleared : (s.updBase 4 fun x => { x with toApply := none, rephased := 0 }).base 4 =
        { s.base 4 with toApply := none, rephased := 0 } := State.updBase_base_self _ _ _ (by omega)
    rw [base_congr (touchStep_time _ _ _ _), hd, Option.getD_some]
    split
    next hd0 => rw [hcleared, hd0, hzero, Int.add_zero]; exact ⟨rfl, rfl, rfl⟩
    next =>
      rw [moveBase_base_self (by simp [upd_length]; omega), hcleared]
      exact ⟨rfl, rfl, rfl⟩

theorem residualZero_eq (hleft : (s.base 4).residual ≠ 0) (hslew : (s.base 4).slew = 0) : s.residualZero =
    (s.updBase 4 fun x => { x with time := x.time + toUnits x.residual, residual := 0 }).raise 0x0604 srcDevice (zeros 16) := by
  simp [State.residualZero, hleft, hslew]

/-- An edge of TBV's cadence: it counts, and the re-phase that is due is applied (R568, R571). -/
theorem cadenceEdge_base (hentry : (s.base 4).entry.isSome = true) (hlength : s.time.bases.length = 5) :
    (s.cadenceEdge.base 4).lastEdge = (s.base 4).lastEdge + 1 ∧ (s.cadenceEdge.base 4).toApply = none ∧
      (s.cadenceEdge.base 4).time = (s.base 4).time + toUnits ((s.base 4).toApply.getD 0) := by
  have hcounted : (s.updBase 4 fun x => { x with lastEdge := x.lastEdge + 1 }).base 4 =
      { s.base 4 with lastEdge := (s.base 4).lastEdge + 1 } := State.updBase_base_self _ _ _ (by omega)
  obtain ⟨hedge, hnone, htime⟩ := applyShift_base (s := s.updBase 4 fun x => { x with lastEdge := x.lastEdge + 1 })
    ((upd_length _ _ _).trans hlength)
  rw [hcounted] at hedge htime
  have hsame : s.cadenceEdge.time = (s.updBase 4 fun x => { x with lastEdge := x.lastEdge + 1 }).applyShift.time := by
    unfold State.cadenceEdge
    rw [if_neg (ne_true_of_eq_false (by simp [hentry]))]
    refine (each_proj (π := State.time) (fun n t => ?_) _ _).trans (fsyncEdge_time _ _)
    dsimp only
    split
    · split
      · rfl
      · exact beginFrame_time _ n
    · rfl
  rw [base_congr hsame]
  exact ⟨hedge, hnone, htime⟩

end

/-- The references that are lost together: each of their bases that ran is in HOLDOVER. -/
theorem lostBases_held {s : State} {l : List Nat} {f : Time → Time} (hbases : ∀ t, (f t).bases = t.bases) {ref b : Nat} (hb : b ∈ l)
    (hlength : b < s.time.bases.length) (hst : (s.base b).st = .acquiring ∨ (s.base b).st = .locked) :
    (((each l (fun b s => s.holdover b) (s.updTime f)).refEvent ref true).base b).st = .holdover ∧
      (((each l (fun b s => s.holdover b) (s.updTime f)).refEvent ref true).base b).rate = (s.base b).meanRate := by
  have hsame : (s.updTime f).base b = s.base b := congrArg (fun l : List Base => l.getD b Base.reset) (hbases s.time)
  have hlength' : b < (s.updTime f).time.bases.length := by
    rw [State.updTime_time, hbases]
    exact hlength
  rw [base_congr (refEvent_time _ _ _), eachHoldover_base hlength' (hsame ▸ hst) hb, hsame]
  exact ⟨rfl, rfl⟩

theorem basesOf_lt {s : State} {src b : Nat} (h : b ∈ s.basesOf src) : b < 5 := List.mem_range.1 (List.mem_filter.1 h).1

/-- The loss of a reference. -/
theorem sourceLost_outcome {s t : State} {src ref : Nat} {f : Time → Time} (hbases : ∀ t, (f t).bases = t.bases)
    (hlength : s.time.bases.length = 5)
    (ht : t = (each (s.basesOf src) (fun b s => s.holdover b) (s.updTime f)).refEvent ref true) :
    t.time = { f s.time with bases := t.time.bases } ∧
      ∀ b, b ∈ s.basesOf src → (s.base b).st = .acquiring ∨ (s.base b).st = .locked →
        (t.base b).st = .holdover ∧ (t.base b).rate = (s.base b).meanRate := by
  subst ht
  refine ⟨?_, fun b hb hst => lostBases_held hbases hb (hlength ▸ basesOf_lt hb) hst⟩
  rw [refEvent_time]
  exact eachHoldover_time_frame _ _

theorem foldl_max_le {l : List Nat} {bound first : Nat} (hfirst : first ≤ bound) (h : ∀ x ∈ l, x ≤ bound) : l.foldl max first ≤ bound := by
  induction l generalizing first with
  | nil => exact hfirst
  | cons x l ih =>
    exact ih (max_le hfirst (h x List.mem_cons_self)) fun y hy => h y (List.mem_cons_of_mem x hy)

/-- Settles O54: the servo in its two branches, then the references one by one. Steps rounded to 2^-32 ns, the update that steps leaving
the rest of the base's state, and TBV's re-phase whole at the next edge are log entry 29. -/
theorem servoAndReferences : Obligations.ServoAndReferences := by
  refine ⟨fun b theta s hb hlength => ?servo, fun s => ⟨fun htref => ?trefLoss, fun hselected hlost => ?trefBack,
    fun hrunning b hof => ⟨fun rising hsense => ?ppsOther, fun rising hsense hfresh hst => ?ppsEdge⟩, fun hrunning b hof hfresh => ?genlock,
    fun hentry hlength => ⟨_, rfl, cadenceEdge_base hentry hlength⟩, fun n hfollows hoff hunset => ?tbv,
    fun hof hfresh hlength hold => ?ppsLoss, fun hof hfresh hlength hold => ?genlockLoss,
    fun hnimlek htref c hchannel hvalid => ?crystal, fun c hchannel hfresh => ⟨fun hnow => ?stale, fun hnow => ?known⟩,
    fun hslew => ?slews, fun hleft hslew => ?residual⟩⟩
  case servo =>
    intro x abs gap integral lim limit y
    refine ⟨fun hst habs => ?within, fun hst habs => ?beyond, fun hst hsource => ?unset⟩
    case within =>
      have hy : y = _ := servo_base_slews hb hlength hst (theta := theta) habs
      refine ⟨by rw [hy], by rw [hy]; rfl, by rw [hy], by rw [hy], by rw [hy], fun hacq => ?_, fun hlock => ?_⟩
      · have hst' : y.st = x.servoSt theta x.st := by rw [hy]
        rw [hst', hacq]
        exact servoSt_acquiring x theta
      · have hst' : y.st = x.servoSt theta x.st := by rw [hy]
        rw [hst', hlock]
        exact servoSt_locked x theta
    case beyond =>
      have hunset : (s.base b).st ≠ .unset := by rcases hst with hst | hst <;> rw [hst] <;> decide
      have hy : y = _ := servo_base_steps hb hlength (theta := theta) (by rcases hst with hst | hst <;> rw [hst] <;> decide) (.inr habs)
        (started := false) (by simp [hunset])
      exact ⟨by rw [hy]; rfl, by rw [hy]; rfl, by rw [hy]; rfl, by rw [hy]; rfl, by rw [hy]; rfl, by rw [hy]; rfl⟩
    case unset =>
      have hsource' : (s.base b).source ≠ 2 := hsource
      have hst' : (s.base b).st = .unset := hst
      have hy : y = _ := servo_base_steps hb hlength (theta := theta) (by rw [hst']; decide) (.inl hst')
        (started := true) (by simp [hst', hsource'])
      exact ⟨by rw [hy]; rfl, by rw [hy]; rfl, by rw [hy]; rfl⟩
  case trefLoss =>
    obtain ⟨k, temp, tbm, stale, htime⟩ := crystalCorrection_time (s.updTime fun t => { t with onTref := false, trefLost := true })
    have heq : s.trefLoss.time = _ := (congrArg State.time (if_neg (by rw [htref]; decide))).trans ((refEvent_time _ _ _).trans htime)
    refine ⟨s.trefLoss, rfl, ?_⟩
    rw [heq]
    exact ⟨rfl, rfl, rfl, rfl⟩
  case trefBack =>
    have heq : s.trefRestore.time = _ := (congrArg State.time (if_neg (by rw [hselected, hlost]; decide))).trans (refEvent_time _ _ _)
    refine ⟨s.trefRestore, rfl, ?_⟩
    rw [heq]
    exact ⟨rfl, rfl, rfl, rfl⟩
  case ppsOther => simp [exec, execPpsInEdge, hrunning, State.ppsEdge, ← hsense]
  case ppsEdge =>
    have hgoes : ¬ (rising == (fld s.timeGlobal 36 1 == 1)) = true := by simpa using hsense
    simp only [exec, execPpsInEdge, hrunning, if_true, State.ppsEdge, if_neg hgoes, hof, each_cons, each_nil, hst, hfresh]
    rfl
  case genlock =>
    simp only [exec, execGenlockInEdge, hrunning, if_true, State.genlockEdge, hof, each_cons, each_nil, hfresh]
    rfl
  case tbv =>
    have hgoes : ¬ ((s.base n).st == .off || (s.base n).st == .unset) = true := by simp [hoff, hunset]
    simp only [exec, execTbvServoUpdate, State.tbvUpdate, hfollows, if_neg hgoes]
  case ppsLoss =>
    obtain ⟨b₀, l, hl⟩ := List.exists_cons_of_ne_nil hof
    have hfirst : 2000000000 ≤ s.now := le_trans (Nat.le_add_left _ _) (hold b₀ (hl ▸ List.mem_cons_self))
    have hlast : ((s.basesOf 2).map (fun b => (s.base b).lastUpdate.getD 0)).foldl max 0 ≤ s.now - 2000000000 := by
      refine foldl_max_le (Nat.zero_le _) fun x hx => ?_
      obtain ⟨b, hb, rfl⟩ := List.mem_map.1 hx
      exact Nat.le_sub_of_add_le (hold b hb)
    have hdue : ¬ s.now < ((s.basesOf 2).map (fun b => (s.base b).lastUpdate.getD 0)).foldl max 0 + sec 2 :=
      Nat.not_lt.2 (Nat.add_le_of_le_sub hfirst hlast)
    have heq : s.ppsLoss = (each (s.basesOf 2) (fun b s => s.holdover b) (s.updTime fun t => { t with ppsLost := true })).refEvent 1 true :=
      if_neg (by simp [hof, hfresh, hdue])
    obtain ⟨htime, hheld⟩ := sourceLost_outcome (f := fun t => { t with ppsLost := true }) (fun _ => rfl) hlength heq
    exact ⟨s.ppsLoss, rfl, by rw [htime], hheld⟩
  case genlockLoss =>
    have heq : s.genlockLoss =
        (each (s.basesOf 3) (fun b s => s.holdover b) (s.updTime fun t => { t with genlockLost := true })).refEvent 2 true :=
      if_neg (by simpa [hof, hfresh] using hold)
    obtain ⟨htime, hheld⟩ := sourceLost_outcome (f := fun t => { t with genlockLost := true }) (fun _ => rfl) hlength heq
    exact ⟨s.genlockLoss, rfl, by rw [htime], hheld⟩
  case crystal =>
    have htime := crystalCorrection_valid htref hchannel hvalid
    exact ⟨_, congrArg Host.Outcome.next (if_pos hnimlek), by rw [htime], by rw [htime], by rw [htime], by rw [htime], by simp⟩
  case stale => exact congrArg Host.Outcome.next ((markXtalStale_eq hchannel hfresh).trans (if_neg (Nat.not_lt.2 hnow)))
  case known => exact congrArg Host.Outcome.next ((markXtalStale_eq hchannel hfresh).trans (if_pos hnow))
  case slews => exact congrArg Host.Outcome.next (if_pos (by simp [hslew]))
  case residual =>
    have hbase (b : Nat) : (s.residualZero).base b =
        (s.updBase 4 fun x => { x with time := x.time + toUnits x.residual, residual := 0 }).base b := by
      rw [residualZero_eq hleft hslew]
      exact base_congr (by simp) b
    refine ⟨s.residualZero, rfl, fun hlength => ?_, fun b hb => (hbase b).trans (State.updBase_base_of_ne s 4 b _ hb)⟩
    rw [hbase, State.updBase_base_self _ _ _ (by omega)]
    exact ⟨rfl, rfl⟩

end Sys2Proof.Machine

/-! SUPPORT. Readings of stacks, remote channels and rails, droops, voltage and ageing; the regulators of the power map (R499, R612 to
R642). -/

namespace Sys2Proof.Machine

open Sys2Proof

/-! ## What leaves the non-volatile store alone -/

section

variable (s : State)

theorem loadLuts_nv (bs : List Block) : (s.loadLuts bs).nv = s.nv := by
  refine each_proj (π := State.nv) (fun b t => ?_) _ s
  dsimp only
  split
  · rfl
  · split <;> simp

theorem armGen_nv (g : Gen) (kind : ArmKind) (timeoutMs : Nat) : (s.armGen g kind timeoutMs).nv = s.nv := by
  simp [State.armGen, loadLuts_nv]

theorem probationFail_nv (row ctx : Nat) : (s.probationFail row ctx).nv = s.nv := by
  unfold State.probationFail
  split
  · rfl
  · split
    · rfl
    · dsimp only
      split
      · rw [loadLuts_nv]
        simp
      · rw [armGen_nv]
        rfl
      · rfl

theorem linkLossInProbation_nv (n : Nat) : (s.linkLossInProbation n).nv = s.nv :=
  each_proj (π := State.nv) (fun c t => probationFail_nv t 5 c) _ s

theorem pick_nv (n : Nat) : (s.pick n).2.nv = s.nv := by
  unfold State.pick
  split <;> rfl

theorem scpFault_nv (n failure addr reg : Nat) (firmware : Bool) : (s.scpFault n failure addr reg firmware).nv = s.nv := by
  simp [State.scpFault]

theorem sendCcc_nv (n addr : Nat) (c : Ccc) : (s.sendCcc n addr c).nv = s.nv := by
  unfold State.sendCcc State.fwTransfer
  dsimp only
  split
  · exact pick_nv s 2
  · split
    · exact pick_nv s 2
    · rw [scpFault_nv, pick_nv, pick_nv]

theorem portSync_nv (n : Nat) : (s.portSync n).nv = s.nv := by
  unfold State.portSync
  dsimp only
  split
  · split
    · rw [sendCcc_nv, sendCcc_nv]
      rfl
    · rfl
  · split
    · split
      · exact sendCcc_nv _ _ _ _
      · rfl
    · rfl

theorem srefSync_nv : s.srefSync.nv = s.nv := by
  refine each_proj (π := State.nv) (fun g t => ?_) _ s
  dsimp only
  split
  · rfl
  · rfl

theorem startTraining_nv (n : Nat) : (s.startTraining n).nv = s.nv := by
  unfold State.startTraining
  split
  · rfl
  · rfl

theorem endLoopback_nv (n : Nat) (counted : Option (Nat × Nat)) : (s.endLoopback n counted).nv = s.nv := by
  unfold State.endLoopback
  dsimp only
  split
  · rfl
  · simp

theorem flagOpen_nv (n vc b : Nat) : (s.flagOpen n vc b).nv = s.nv := by
  refine each_proj (π := State.nv) (fun o t => ?_) _ s
  dsimp only
  split <;> rfl

/-- What a shroud of a sensor that loses its rails goes through. -/
def State.quietShroud (s : State) (n k : Nat) : State :=
  let s := if (s.shroud k).st == .active then (s.linkLost n).linkLossInProbation k else s
  let s := (s.endLoopback k none).noteReceived k
  s.updShroud k fun x => { x with st := .quiet, testLane := none, lanes := x.lanes.map Lane.unpowered }

theorem linkLost_nv (n : Nat) : (s.linkLost n).nv = s.nv :=
  each_proj (π := State.nv) (fun vc t => flagOpen_nv t n vc lfLinkLost) _ s

theorem noteReceived_nv (n : Nat) : (s.noteReceived n).nv = s.nv := rfl

theorem quietShroud_nv (n k : Nat) : (s.quietShroud n k).nv = s.nv := by
  unfold State.quietShroud
  extract_lets t u
  have hlost : t.nv = s.nv := by
    unfold t
    split
    · exact (linkLossInProbation_nv _ k).trans (linkLost_nv s n)
    · rfl
  have hu : u.nv = t.nv := (noteReceived_nv _ k).trans (endLoopback_nv t k none)
  exact hu.trans hlost

theorem sensorRails_nv (n : Nat) : (s.sensorRails n).nv = s.nv := by
  unfold State.sensorRails
  extract_lets up was u v
  have hv : v.nv = u.nv := by
    unfold v
    split
    · refine each_proj (π := State.nv) (fun k t => ?_) _ u
      split
      · exact startTraining_nv t k
      · rfl
    · split
      · exact each_proj (π := State.nv) (f := fun k t => State.quietShroud t n k) (fun k t => quietShroud_nv t n k) _ u
      · rfl
  exact (portSync_nv v n).trans hv

theorem allRails_nv : s.allRails.nv = s.nv := by
  unfold State.allRails
  rw [srefSync_nv]
  exact each_proj (π := State.nv) (fun n t => sensorRails_nv t n) _ s

theorem switchRail_nv (e : Nat) (on : Bool) : (s.switchRail e on).nv = s.nv := by
  unfold State.switchRail
  dsimp only
  split
  · split <;> rfl
  · split <;> rfl

theorem railOff_nv (e : Nat) : (s.railOff e).nv = s.nv := by
  unfold State.railOff
  split
  · rfl
  · exact switchRail_nv s e false

theorem relocate_nv (n p : Nat) : (s.relocate n p).2.nv = s.nv := by
  unfold State.relocate
  extract_lets t zs ids hit cut ended failed unqueued dropped
  have hfailed : failed.nv = s.nv := by
    refine (each_proj (π := State.nv) (fun j u => ?_) _ _).trans (rfl : ended.nv = s.nv)
    split
    · exact probationFail_nv u 1 _
    · rfl
  refine (each_proj (π := State.nv) (fun z u => ?_) _ _).trans (hfailed : dropped.nv = s.nv)
  split <;> rfl

theorem relocateAll_nv (p : Nat) : (s.relocateAll p).2.nv = s.nv :=
  List.foldlRecOn (motive := fun a : Nat × State => a.2.nv = s.nv) _ _ rfl fun a ha n _ => (relocate_nv a.2 n p).trans ha

theorem driveFault_errSeq (p status : Nat) : (s.driveFault p status).nv.errSeq = s.nv.errSeq + 1 := by
  unfold State.driveFault
  dsimp only
  rw [logError_errSeq]
  simp [relocateAll_nv]

theorem failAtDrive_nv (p : Nat) : (s.failAtDrive p).nv = s.nv :=
  each_proj (π := State.nv) (fun e t => by simp) _ s

theorem portReset_errSeq (p status : Nat) : (s.portReset p (some status)).nv.errSeq = s.nv.errSeq + 1 := by
  unfold State.portReset
  rw [failAtDrive_nv]
  exact driveFault_errSeq _ p status

theorem linkDown_nv (y k : Nat) (port : Option Nat) (st : Nat) : (s.linkDown y k port st).nv = s.nv := by
  simp [State.linkDown]

theorem rootDown_errSeq (p st : Nat) : s.nv.errSeq ≤ (s.rootDown p st).nv.errSeq := by
  unfold State.rootDown
  extract_lets y k t u
  have hu : u.nv = s.nv := linkDown_nv t y k (some p) st
  split
  · rw [portReset_errSeq, hu]
    exact Nat.le_succ _
  · rw [hu]

end

/-! ## Regulators that turn off together -/

theorem mem_insertBy {α : Type} {lt : α → α → Bool} {a x : α} (l : List α) : x ∈ insertBy lt a l ↔ x = a ∨ x ∈ l := by
  induction l with
  | nil => simp [insertBy]
  | cons b bs ih =>
    unfold insertBy
    split
    · simp only [List.mem_cons, ih]
      exact or_left_comm
    · simp

theorem mem_sortBy {α : Type} {lt : α → α → Bool} {x : α} (l : List α) : x ∈ sortBy lt l ↔ x ∈ l := by
  induction l with
  | nil => simp [sortBy]
  | cons a as ih => rw [sortBy, mem_insertBy, ih, List.mem_cons]

section

variable {s : State} {e k : Nat}

theorem mem_owned {o : Nat × Nat} : e ∈ s.owned o ↔ e < 15 ∧ (s.pwr e).entry.isSome = true ∧ (s.pwr e).owner = o := by
  simp [State.owned, mem_sortBy]

theorem railOff_length (s : State) (k : Nat) : (s.railOff k).health.power.length = s.health.power.length := by
  unfold State.railOff
  split
  · rfl
  · simp [State.updPwr, upd_length]

theorem railOff_turnsOff (h : e < s.health.power.length) : ((s.railOff e).pwr e).st = .off := by
  unfold State.railOff
  split
  next hoff => exact hoff
  · rw [updPwr_pwr_self (by simpa using h)]

theorem railOff_pwr_of_ne (h : e ≠ k) : (s.railOff k).pwr e = s.pwr e := by
  unfold State.railOff
  split
  · rfl
  · rw [updPwr_pwr_of_ne h, pwr_congr (switchRail_health s k false)]

theorem railOff_keepsOff (h : (s.pwr e).st = .off) : ((s.railOff k).pwr e).st = .off := by
  by_cases hk : e = k
  · rwa [← hk, State.railOff, if_pos h]
  · rwa [railOff_pwr_of_ne hk]

theorem railsOff_keepOff {l : List Nat} (h : (s.pwr e).st = .off) : ((each l (fun k s => s.railOff k) s).pwr e).st = .off :=
  each_keeps (P := fun t : State => (t.pwr e).st = .off) l h fun _ _ _ ht => railOff_keepsOff ht

theorem railsOff_length (l : List Nat) (s : State) :
    (each l (fun k s => s.railOff k) s).health.power.length = s.health.power.length :=
  each_proj (π := fun t : State => t.health.power.length) (fun k t => railOff_length t k) l s

theorem railsOff_turnOff {l : List Nat} (hmem : e ∈ l) (h : e < s.health.power.length) :
    ((each l (fun k s => s.railOff k) s).pwr e).st = .off := by
  induction l generalizing s with
  | nil => simp at hmem
  | cons a as ih =>
    rcases List.mem_cons.mp hmem with rfl | hlater
    · exact railsOff_keepOff (s := s.railOff e) (railOff_turnsOff h)
    · exact ih hlater (by rwa [railOff_length])

/-- The state in which a fault of a regulator has turned its owner's others off. -/
def State.railsDropped (s : State) (e : Nat) : State :=
  let s := each (s.owned (s.pwr e).owner).reverse (fun k s => s.railOff k) s
  s.updPwr e fun x => { x with st := .fault, faultGen := s.liveNumber }

theorem powerFault_health (s : State) (e word : Nat) : (s.powerFault e word).health = (s.railsDropped e).health := by
  unfold State.powerFault
  extract_lets o t u v w x
  have hw : w.health = u.health := by
    unfold w
    split
    · exact (show (v.rootDown o.2 fxDown).health = v.health by simp).trans (allRails_health u)
    · exact allRails_health u
  have hx : x.health = w.health := by simp [x]
  exact (show (x.logError 8 Loc.none { detail := e }).health = x.health by simp).trans (hx.trans hw)

theorem powerFault_errSeq (s : State) (e word : Nat) : s.nv.errSeq < (s.powerFault e word).nv.errSeq := by
  unfold State.powerFault
  extract_lets o t u v w x
  have ht : t.nv = s.nv := each_proj (π := State.nv) (fun k t => railOff_nv t k) _ s
  have hv : v.nv = s.nv := (allRails_nv u).trans ht
  have hw : s.nv.errSeq ≤ w.nv.errSeq := by
    unfold w
    split
    · exact (congrArg Nv.errSeq hv).ge.trans (rootDown_errSeq v o.2 fxDown)
    · exact (congrArg Nv.errSeq hv).ge
  have hx : x.nv = w.nv := by simp [x]
  rw [logError_errSeq, hx]
  exact Nat.lt_succ_of_le hw

theorem railsDropped_faults (h : e < s.health.power.length) : ((s.railsDropped e).pwr e).st = .fault := by
  unfold State.railsDropped
  dsimp only
  rw [updPwr_pwr_self (by rwa [railsOff_length])]

theorem railsDropped_turnsOff (hne : k ≠ e) (hmem : k ∈ s.owned (s.pwr e).owner) (h : k < s.health.power.length) :
    ((s.railsDropped e).pwr k).st = .off := by
  unfold State.railsDropped
  dsimp only
  rw [updPwr_pwr_of_ne hne]
  exact railsOff_turnOff (List.mem_reverse.mpr hmem) h

theorem powerFault_faults (h : e < s.health.power.length) (word : Nat) : ((s.powerFault e word).pwr e).st = .fault := by
  rw [pwr_congr (powerFault_health s e word)]
  exact railsDropped_faults h

theorem powerFault_turnsOff (hlen : s.health.power.length = 15) (hne : k ≠ e) (hentry : (s.pwr k).entry.isSome = true)
    (howner : (s.pwr k).owner = (s.pwr e).owner) (word : Nat) : ((s.powerFault e word).pwr k).st = .off := by
  have hlisted : k < s.health.power.length := pwr_listed hentry
  rw [pwr_congr (powerFault_health s e word)]
  exact railsDropped_turnsOff hne (mem_owned.mpr ⟨hlen ▸ hlisted, hentry, howner⟩) hlisted

/-! ## What a reading, a timeout and an alert do to a regulator -/

theorem us_eq (n : Nat) : us n = 1000 * n := Nat.mul_comm ..

theorem execReadVout_one {mv : Nat} (he : e < 15) : exec (.powerMapReadVout [(e, mv)]) s = .next (s.readVout e mv) :=
  congrArg Host.Outcome.next (if_pos he)

theorem readVout_short {mv : Nat} (hst : (s.pwr e).st = .ramping) (hlow : mv * 100 < 95 * (s.pwr e).mv) :
    s.readVout e mv = (s.updPwr e fun x => { x with vout := mv }).updPwr e fun x => { x with settled := none } := by
  simp [State.readVout, hst, hlow]

theorem readVout_reaches {mv : Nat} (hst : (s.pwr e).st = .ramping) (hhigh : 95 * (s.pwr e).mv ≤ mv * 100)
    (hnew : (s.pwr e).settled = none) (hdelay : 1 ≤ fld (s.pwr e).ent 10 2) :
    s.readVout e mv = (s.updPwr e fun x => { x with vout := mv }).updPwr e fun x => { x with settled := some s.now } := by
  have hlater : ¬ s.now + us (fld (s.pwr e).ent 10 2) ≤ s.now :=
    Nat.not_le.mpr (Nat.lt_add_of_pos_right (us_eq _ ▸ Nat.mul_pos (by decide) hdelay))
  have hnow : (s.updPwr e fun x => { x with vout := mv }).now = s.now := rfl
  simp [State.readVout, hst, Nat.not_lt.mpr hhigh, hnew, hnow, hlater]

theorem readVout_good {mv : Nat} (hst : (s.pwr e).st = .on) (hlow : 9 * (s.pwr e).mv ≤ mv * 10)
    (hhigh : mv * 10 ≤ 11 * (s.pwr e).mv) :
    s.readVout e mv = (s.updPwr e fun x => { x with vout := mv }).updPwr e fun x => { x with badReads := 0 } := by
  simp [State.readVout, hst, Nat.not_lt.mpr hlow, Nat.not_lt.mpr hhigh]

theorem readVout_firstBad {mv : Nat} (hst : (s.pwr e).st = .on)
    (hbad : mv * 10 < 9 * (s.pwr e).mv ∨ 11 * (s.pwr e).mv < mv * 10) (hreads : (s.pwr e).badReads = 0) :
    s.readVout e mv = (s.updPwr e fun x => { x with vout := mv }).updPwr e fun x => { x with badReads := x.badReads + 1 } := by
  simp [State.readVout, hst, hbad, hreads]

theorem readVout_secondBad {mv : Nat} (hst : (s.pwr e).st = .on)
    (hbad : mv * 10 < 9 * (s.pwr e).mv ∨ 11 * (s.pwr e).mv < mv * 10) (hreads : 1 ≤ (s.pwr e).badReads) :
    s.readVout e mv = ((s.updPwr e fun x => { x with vout := mv }).drawNat.2).powerFault e
      ((s.updPwr e fun x => { x with vout := mv }).drawNat.1 % 65536) := by
  simp [State.readVout, hst, hbad, hreads]

theorem nextRail_keepsOn (h : (s.pwr e).st = .on) (o : Nat × Nat) : (s.nextRail o).pwr e = s.pwr e := by
  unfold State.nextRail
  dsimp only
  split
  · rfl
  · split
    next k hk =>
      have hoff : (s.pwr k).st = .off := by
        have := List.find?_some hk
        simp only [Bool.and_eq_true, beq_iff_eq] at this
        exact this.2
      have hne : e ≠ k := by
        rintro rfl
        simp [h] at hoff
      rw [pwr_congr (switchRail_health _ k true), updPwr_pwr_of_ne hne]
    · rfl

theorem readVout_settles {mv x : Nat} (hlisted : e < s.health.power.length) (hst : (s.pwr e).st = .ramping)
    (hhigh : 95 * (s.pwr e).mv ≤ mv * 100) (hsince : (s.pwr e).settled = some x)
    (hstays : x + 1000 * fld (s.pwr e).ent 10 2 ≤ s.now) :
    ((s.readVout e mv).pwr e).st = .on ∧ ((s.readVout e mv).pwr e).vout = mv := by
  have hus : x + us (fld (s.pwr e).ent 10 2) ≤ s.now := by rwa [us_eq]
  obtain ⟨u, hu⟩ : ∃ u, u = (s.updPwr e fun x => { x with vout := mv }).updPwr e fun x =>
    { x with st := .on, badReads := 0, settled := none } := ⟨_, rfl⟩
  have hpwr : u.pwr e = { s.pwr e with vout := mv, st := .on, badReads := 0, settled := none } := by
    rw [hu, updPwr_pwr_self (by simpa [State.updPwr, upd_length] using hlisted), updPwr_pwr_self hlisted]
  have hread : s.readVout e mv = ((u.holdFrom e).nextRail (s.pwr e).owner).allRails := by
    have hnow : (s.updPwr e fun x => { x with vout := mv }).now = s.now := rfl
    simp [State.readVout, hst, Nat.not_lt.mpr hhigh, hsince, hnow, hus, hu]
  have hkept : (s.readVout e mv).pwr e = u.pwr e := by
    rw [hread, pwr_congr (allRails_health _)]
    exact nextRail_keepsOn (s := u.holdFrom e) (congrArg PwrEntry.st hpwr) _
  rw [hkept, hpwr]
  exact ⟨rfl, rfl⟩

theorem rampTimeout_faults (hlen : s.health.power.length = 15) (he : e < 15) (hst : (s.pwr e).st = .ramping)
    (hnew : (s.pwr e).settled = none) (hlate : (s.pwr e).rampTbm + 1000000 * (s.pwr e).rampMs ≤ s.now) :
    ∃ t, exec (.powerRampTimeout e) s = .next t ∧ (t.pwr e).st = .fault ∧
      (∀ k, k ≠ e → (s.pwr k).entry.isSome = true → (s.pwr k).owner = (s.pwr e).owner → (t.pwr k).st = .off) := by
  have hms : (s.pwr e).rampTbm + ms (s.pwr e).rampMs ≤ s.now := by rwa [ms_eq]
  refine ⟨s.drawNat.2.powerFault e (s.drawNat.1 % 65536), ?_, ?_, fun k hne hentry howner => ?_⟩
  · exact congrArg Host.Outcome.next (if_pos (by simp [hst, hnew, hms]))
  · exact powerFault_faults (s := s.drawNat.2) (hlen ▸ he) _
  · exact powerFault_turnsOff (s := s.drawNat.2) hlen hne hentry howner _

theorem rampTimeout_early (hearly : s.now < (s.pwr e).rampTbm + 1000000 * (s.pwr e).rampMs) :
    exec (.powerRampTimeout e) s = .next s := by
  have hms : ¬ (s.pwr e).rampTbm + ms (s.pwr e).rampMs ≤ s.now := by rwa [ms_eq, Nat.not_le]
  exact congrArg Host.Outcome.next (if_neg (by simp [hms]))

theorem pmb1Alert_one (he : e < 15) (w : Nat) : exec (.pmb1Alert [(e, w)]) s = .next (
    if w ≠ 0 ∧ ((s.pwr e).st = .ramping ∨ (s.pwr e).st = .on) then s.powerFault e (w % 65536) else s) := by
  refine congrArg Host.Outcome.next (if_congr ?_ rfl rfl)
  simp [he]

theorem readVout_bad {mv : Nat} (hlen : s.health.power.length = 15) (he : e < 15) (hst : (s.pwr e).st = .on)
    (hbad : mv * 10 < 9 * (s.pwr e).mv ∨ 11 * (s.pwr e).mv < mv * 10) (hreads : 1 ≤ (s.pwr e).badReads) :
    ∃ t, exec (.powerMapReadVout [(e, mv)]) s = .next t ∧ (t.pwr e).st = .fault ∧ s.nv.errSeq < t.nv.errSeq := by
  refine ⟨_, execReadVout_one he, ?_⟩
  rw [readVout_secondBad hst hbad hreads]
  refine ⟨powerFault_faults ?_ _, powerFault_errSeq (State.drawNat (s.updPwr e fun x => { x with vout := mv })).2 e _⟩
  change e < (upd s.health.power e _).length
  rwa [upd_length, hlen]

end

/-! ## Readings of stacks -/

section

variable {s : State}

theorem hbm_congr {t : State} {k : Nat} (h : t.mem = s.mem) : t.hbm k = s.hbm k := by
  rw [State.hbm, h, State.hbm]

theorem hotMode_stack {k : Nat} (h : k < s.mem.hbm.length) (temp : Int) : ((s.hotMode k temp).hbm k).temp = temp ∧
    ((s.hotMode k temp).hbm k).hot = (if (s.hbm k).hot then decide (81 * 64 < temp) else decide (85 * 64 < temp)) := by
  have hself : ∀ f : Stack → Stack, (s.updHbm k f).hbm k = f (s.hbm k) := fun f => upd_getD_self _ h
  unfold State.hotMode
  extract_lets x hot t
  have ht : t.hbm k = { s.hbm k with temp := temp, hot := hot } := hself _
  have hraise : ∀ code src body, (t.raise code src body).hbm k = t.hbm k := fun code src body =>
    hbm_congr (by simp)
  split
  · rw [hraise, ht]
    exact ⟨rfl, rfl⟩
  · rw [ht]
    exact ⟨rfl, rfl⟩

theorem hotMode_frame (k : Nat) (temp : Int) : (s.hotMode k temp).health = s.health ∧
    (s.hotMode k temp).mem.bytes = s.mem.bytes ∧ (s.hotMode k temp).power = s.power := by
  unfold State.hotMode
  dsimp only
  split
  · simp
  · simp

theorem stackReading_outcome {k : Nat} {temp : Int} (hk : k < 4) (htemp : s.health.stackTemp.length = 4)
    (htbm : s.health.stackTbm.length = 4) (hunread : s.health.stackUnread.length = 4) (hhbm : s.mem.hbm.length = 4) :
    ∃ t, s.stackReading k temp = t ∧ t.health.stackTemp.getD k 0 = temp ∧
      t.health.stackTbm.getD k none = some s.now ∧ t.health.stackUnread.getD k true = false ∧ (t.hbm k).temp = temp ∧
      (t.hbm k).hot = (if (s.hbm k).hot then decide (81 * 64 < temp) else decide (85 * 64 < temp)) ∧
      t.mem.bytes = s.mem.bytes ∧ t.power = s.power := by
  unfold State.stackReading
  extract_lets was hits u v
  obtain ⟨hhealth, hbytes, hpower⟩ := hotMode_frame (s := u) k temp
  obtain ⟨hstack, hhot⟩ := hotMode_stack (s := u) (k := k) (hhbm ▸ hk) temp
  have hend : ∀ code body, (v.hltEvent code body).health = v.health ∧ (v.hltEvent code body).mem = v.mem ∧
      (v.hltEvent code body).power = v.power := fun code body => by simp
  have hu : u.health.stackTemp.getD k 0 = temp ∧ u.health.stackTbm.getD k none = some s.now ∧
      u.health.stackUnread.getD k true = false := by
    refine ⟨?_, ?_, ?_⟩
    · simp [u, htemp, hk]
    · simp [u, htbm, hk]
    · simp [u, hunread, hk]
  refine ⟨_, rfl, ?_⟩
  split
  · obtain ⟨hh, hm, hp⟩ := hend 0x0822 (le 1 1 ++ le 1 k ++ le 1 0)
    rw [State.hbm, hh, hm, hp]
    rw [show v.health = u.health from hhealth]
    exact ⟨hu.1, hu.2.1, hu.2.2, hstack, hhot, hbytes, hpower⟩
  · rw [show v.health = u.health from hhealth]
    exact ⟨hu.1, hu.2.1, hu.2.2, hstack, hhot, hbytes, hpower⟩

theorem ms_ten : ms 10 = 10000000 := rfl

theorem stackUnread_late {k : Nat} (hk : k < 4) (hrun : s.running = true) (hnimlek : s.nimlek = true)
    (hread : s.health.stackUnread.getD k false = false)
    (hlate : s.health.stackTbm.getD k none = none ∨ (∃ x, s.health.stackTbm.getD k none = some x ∧ x + 10000000 ≤ s.now)) :
    exec (.stackUnread k) s =
      .next ((s.updHealth fun h => { h with stackUnread := h.stackUnread.set k true }).hltEvent 0x0822
        (le 1 1 ++ le 1 k ++ le 1 1)) := by
  have hdue : (s.health.stackTbm.getD k none).all (fun t => decide (t + ms 10 ≤ s.now)) = true := by
    rcases hlate with hnone | ⟨x, hx, hle⟩
    · rw [hnone]
      rfl
    · rw [hx, Option.all_some, ms_ten]
      exact decide_eq_true hle
  refine congrArg Host.Outcome.next (if_pos ?_)
  rw [hrun, hnimlek, hread, hdue, decide_eq_true hk]
  rfl

theorem stackUnread_early {k x : Nat} (hx : s.health.stackTbm.getD k none = some x) (hearly : s.now < x + 10000000) :
    exec (.stackUnread k) s = .next s := by
  have hdue : (s.health.stackTbm.getD k none).all (fun t => decide (t + ms 10 ≤ s.now)) = false := by
    rw [hx, Option.all_some, ms_ten]
    exact decide_eq_false (Nat.not_le.mpr hearly)
  refine congrArg Host.Outcome.next (if_neg ?_)
  rw [hdue, Bool.and_false]
  exact Bool.false_ne_true


/-! ## Remote channels and rails -/

theorem remoteRead_outcome {k : Nat} (hk : k < s.health.remotes.length) (f : RemoteFacts) :
    ∃ t, s.remoteRead k f = t ∧ t = { s with health := t.health, free := t.free } ∧
      (f.fault = true → (t.health.remotes.getD k Remote.reset).valid = false) ∧
      ((t.health.remotes.getD k Remote.reset).valid = true → -2560 ≤ (t.health.remotes.getD k Remote.reset).temp ∧
        (t.health.remotes.getD k Remote.reset).temp ≤ 9600) ∧
      ∀ j, j ≠ k → t.health.remotes.getD j Remote.reset = s.health.remotes.getD j Remote.reset := by
  unfold State.remoteRead
  dsimp -zeta only [State.drawBool]
  extract_lets e t valid furl
  have hself : ∀ g : Remote → Remote, (upd s.health.remotes k g).getD k Remote.reset = g (s.health.remotes.getD k Remote.reset) :=
    fun g => upd_getD_self _ hk
  refine ⟨_, rfl, rfl, fun hfault => ?_, ?_, fun j hj => ?_⟩
  · have hvalid : valid = false := by simp [valid, t, hfault]
    change ((upd s.health.remotes k _).getD k Remote.reset).valid = false
    rw [hself, hvalid]
    rfl
  · change ((upd s.health.remotes k _).getD k Remote.reset).valid = true → -2560 ≤ ((upd s.health.remotes k _).getD k Remote.reset).temp ∧
      ((upd s.health.remotes k _).getD k Remote.reset).temp ≤ 9600
    rw [hself]
    cases ht : t with
    | none => simp [valid, ht]
    | some x =>
      by_cases hvalid : valid = true
      · have hrange : -40 * 64 ≤ x ∧ x ≤ 150 * 64 := by simpa [valid, ht] using hvalid
        have hx : t.getD 0 = x := by rw [ht, Option.getD_some]
        simp only [hvalid, Bool.not_true, Bool.false_eq_true, if_false, true_imp_iff]
        omega
      · simp [hvalid]
  · exact upd_getD_of_ne _ hj

theorem railRead_clean {n mv : Nat} (hn : n < s.health.rails.length)
    (hnear : 20 * ((mv : Int) - s.setPoint n).natAbs ≤ s.setPoint n) (hfault : (s.health.rails.getD n Rail.reset).fault = false) :
    ∃ t, s.railRead n mv = t ∧ t = { s with health := t.health } ∧ (t.health.rails.getD n Rail.reset).mv = mv % 4096 ∧
      (t.health.rails.getD n Rail.reset).fault = false ∧ (t.health.rails.getD n Rail.reset).out5 = none := by
  unfold State.railRead
  extract_lets set d r now watch o5 o10 back since fault u
  have ho5 : o5 = none := by simp [o5, set, d, Nat.not_lt.mpr hnear]
  have hf : fault = false := by
    rw [show fault = since o5 (us 100) from if_neg (Bool.eq_false_iff.mp hfault), ho5]
  rw [if_pos (hf.trans hfault.symm)]
  have hrail : u.health.rails.getD n Rail.reset =
      { mv := mv % 4096, set := set, fault := fault, out5 := o5, out10 := o10, back := back, reef := since o10 (ms 1) } :=
    by simp [u, hn]
  refine ⟨u, rfl, rfl, ?_⟩
  rw [hrail]
  exact ⟨rfl, hf, ho5⟩

theorem us_hundred : us 100 = 100000 := rfl

theorem railRead_faults {n mv x : Nat} (hn : n < s.health.rails.length)
    (hfar : s.setPoint n < 20 * ((mv : Int) - s.setPoint n).natAbs) (hup : s.power.railsUp = true) (hnimlek : s.nimlek = true)
    (hfault : (s.health.rails.getD n Rail.reset).fault = false) (hsince : (s.health.rails.getD n Rail.reset).out5 = some x)
    (hlate : x + 100000 ≤ s.now) :
    ∃ t, s.railRead n mv = t ∧ (t.health.rails.getD n Rail.reset).fault = true ∧ t.nv.errSeq = s.nv.errSeq + 1 := by
  unfold State.railRead
  extract_lets set d r now watch o5 o10 back since fault u v
  have ho5 : o5 = some x := by
    have hout : some (r.out5.getD now) = some x := by rw [show r.out5 = some x from hsince, Option.getD_some]
    exact (if_pos (by simp [watch, hup, hnimlek, set, d, hfar])).trans hout
  have hf : fault = true := by
    rw [show fault = since o5 (us 100) from if_neg (Bool.eq_false_iff.mp hfault), ho5, us_hundred]
    exact decide_eq_true hlate
  have hne : fault ≠ r.fault := by
    rw [hf, show r.fault = false from hfault]
    exact Bool.noConfusion
  have hrail : u.health.rails.getD n Rail.reset =
      { mv := mv % 4096, set := set, fault := fault, out5 := o5, out10 := o10, back := back, reef := since o10 (ms 1) } :=
    by simp [u, hn]
  rw [if_neg hne, if_pos hf]
  have hv : v.health = u.health ∧ v.nv = u.nv := by simp [v]
  refine ⟨v.logError 8 Loc.none { detail := n }, rfl, ?_, ?_⟩
  · rw [show (v.logError 8 Loc.none { detail := n }).health = v.health by simp, hv.1, hrail]
    exact hf
  · rw [logError_errSeq, hv.2]
    rfl

/-! ## Droops, voltage and ageing -/

theorem droop_outcome {r : Nat} (hr : r < s.health.droops.length) :
    ∃ t, s.droop r = t ∧ (t.health.droops.getD r (0, [])).1 = satInc 16 (s.health.droops.getD r (0, [])).1 ∧
      (t.health.droops.getD r (0, [])).2.head? = some s.now ∧ t.power = s.power ∧ t.time = s.time := by
  unfold State.droop
  extract_lets recent u v
  have hu : u.health.droops.getD r (0, []) = (satInc 16 (s.health.droops.getD r (0, [])).1, recent) := upd_getD_self _ hr
  have hv : v.health = u.health ∧ v.power = u.power ∧ v.time = u.time := by simp [v]
  obtain ⟨hhealth, hpower, htime⟩ := hv
  refine ⟨_, rfl, ?_⟩
  have hraise : ∀ code src body, ((v.raise code src body).askVector 18).health = u.health ∧
      ((v.raise code src body).askVector 18).power = u.power ∧ ((v.raise code src body).askVector 18).time = u.time :=
    fun code src body => by simp [hhealth, hpower, htime]
  unfold State.raiseLimited
  split
  · obtain ⟨hh, hp, ht⟩ := hraise 0x0824 srcDevice (((List.range 8).map (fun k => le 1 (sat 8 (v.droopsIn k).length))).flatten)
    have hd := (congrArg (fun h : Health => h.droops.getD r (0, [])) hh).trans hu
    exact ⟨congrArg Prod.fst hd, congrArg (fun d : Nat × List Nanos => d.2.head?) hd, hp, ht⟩
  · rw [hhealth, hpower, htime, hu]
    exact ⟨rfl, rfl, rfl, rfl⟩

variable {f : AvsFacts}

/-- The droops of the last second, over all regions. -/
def State.recentDroops (s : State) : Nat := ((List.range 8).map (fun r => (s.droopsIn r).length)).sum

theorem setVcore_outs (mv : Nat) : (s.setVcore mv).outs = .pmbus 0 0x44 mv :: s.outs := rfl

theorem avs_slow (hslow : f.count * 100 < 98 * f.target) (hv : s.health.vcore ≤ 840) :
    ∃ t, s.avs f = t ∧ t.health.vcore = s.health.vcore + 10 ∧ t.health.lastRaise = some s.now ∧
      t.power.vout = s.power.vout.set 4 (s.health.vcore + 10) ∧ t.outs = .pmbus 0 0x44 (s.health.vcore + 10) :: s.outs := by
  unfold State.avs
  extract_lets ratio run u v up w above x
  have hup : up = 10 := if_pos hslow
  have hvc : v = s.health.vcore := rfl
  have hmin : min 850 (v + up) = s.health.vcore + 10 := by omega
  have habove : above = false := decide_eq_false (by omega)
  have hx : x = w.setVcore (s.health.vcore + 10) := by
    rw [← hmin]
    exact if_neg (by omega)
  refine ⟨_, if_pos (by omega), ?_⟩
  rw [habove, Bool.false_and, if_neg Bool.false_ne_true, hx]
  exact ⟨rfl, rfl, rfl, rfl⟩

theorem avsRaise_steady (htarget : f.target ≤ f.count) (hdroops : s.recentDroops ≤ 1000) : s.avsRaise f = 0 := by
  have hslow : ¬ f.count * 100 < 98 * f.target := by omega
  have hbelow : (decide (f.count < f.target) || decide (1000 < s.recentDroops)) = false := by
    simp [htarget, hdroops]
  exact (if_neg hslow).trans (if_neg (Bool.eq_false_iff.mp hbelow))

theorem avs_steady (htarget : f.target ≤ f.count) (hdroops : s.recentDroops ≤ 1000) (hfast : 100 * f.count ≤ 103 * f.target) :
    ∃ t, s.avs f = t ∧ t = { s with health := t.health } ∧ t.health.vcore = s.health.vcore ∧ t.health.avsHighRun = 0 ∧
      t.health.lastRaise = s.health.lastRaise := by
  unfold State.avs
  extract_lets ratio run u v up
  have hup : up = 0 := avsRaise_steady (s := u) htarget hdroops
  have hrun : run = 0 := if_neg (Nat.not_lt.mpr hfast)
  have hhigh : ¬ (decide (100 ≤ run) && u.mayRaise u.health.lastRaise (sec 1) && decide (705 ≤ v)) = true := by
    simp [hrun]
  rw [if_neg (by omega), if_neg hhigh]
  refine ⟨u, rfl, rfl, rfl, ?_, rfl⟩
  change min run 100 = 0
  rw [hrun, Nat.zero_min]

theorem avs_fast (hfast : 103 * f.target < 100 * f.count) (hdroops : s.recentDroops ≤ 1000) (hrun : 99 ≤ s.health.avsHighRun)
    (hraise : s.mayRaise s.health.lastRaise 1000000000 = true) (hv : 705 ≤ s.health.vcore) :
    ∃ t, s.avs f = t ∧ t.health.vcore = s.health.vcore - 5 ∧ t.outs = .pmbus 0 0x44 (s.health.vcore - 5) :: s.outs ∧
      t.health.lastRaise = s.health.lastRaise := by
  unfold State.avs
  extract_lets ratio run u v up
  have hup : up = 0 := avsRaise_steady (s := u) (by omega) hdroops
  have hruns : 100 ≤ run := by
    rw [show run = s.health.avsHighRun + 1 from if_pos hfast]
    omega
  have hmay : u.mayRaise u.health.lastRaise (sec 1) = true := hraise
  rw [if_neg (by omega), if_pos (by simp [hruns, hmay, show 705 ≤ v from hv])]
  exact ⟨_, rfl, rfl, rfl, rfl⟩

theorem age_outcome : ∃ t, s.age = t ∧ t = { s with health := t.health, nv := t.nv } ∧
    t.health.ageing = s.health.ageing + exp2R (((s.health.dieTemp : Rat) / 64 - 95) / 10) * ((s.health.vcore : Rat) / 800) ^ 4 ∧
    (t.nv.ageing = if s.health.ageWrite + 60000000000 ≤ s.now then t.health.ageing else s.nv.ageing) := by
  have hminute : sec 60 = 60000000000 := rfl
  unfold State.age
  extract_lets temp u
  have hdue : (u.health.ageWrite + sec 60 ≤ u.now) = (s.health.ageWrite + 60000000000 ≤ s.now) := by rw [hminute]; rfl
  simp only [hdue]
  split
  · exact ⟨_, rfl, rfl, rfl, rfl⟩
  · exact ⟨_, rfl, rfl, rfl, rfl⟩

end

/-! ## Readings, droops, voltage, ageing and the power map -/

/-- Settles O58. A power fault is what log entry 12 presumes it to be (any STATUS_WORD other than 0), and the rows of voltage stand in
the order of log entry 16. -/
theorem healthReadingsAndPowerMap : Obligations.HealthReadingsAndPowerMap := by
  unfold Obligations.HealthReadingsAndPowerMap
  refine ⟨fun s hrun => ⟨?stack, ?unread, ?remote, ?rail, ?droop, ?avs, ?age⟩, fun e mv s he hlen => ?power⟩
  case stack =>
    intro k temp hk hup htemp htbm hunread hhbm
    obtain ⟨t, ht, hend⟩ := stackReading_outcome (temp := temp) hk htemp htbm hunread hhbm
    exact ⟨t, congrArg Host.Outcome.next ((if_pos (by simp [hk, hrun, hup])).trans ht), hend⟩
  case unread =>
    exact fun k hk hnimlek hread => ⟨stackUnread_late hk hrun hnimlek hread, fun x hx hearly => stackUnread_early hx hearly⟩
  case remote =>
    intro k f hk hremotes hmode
    obtain ⟨t, ht, hend⟩ := remoteRead_outcome (k := k) (hremotes ▸ hk) f
    have hdue : (decide (k < 12) && s.running && (s.health.remotes.getD k Remote.reset).mode != 0) = true := by
      rw [decide_eq_true hk, hrun, bne_iff_ne.mpr hmode]
      rfl
    exact ⟨t, congrArg Host.Outcome.next ((if_pos hdue).trans ht), hend⟩
  case rail =>
    intro n mv hn hrails
    have hread : exec (.railMonitorRead n mv) s = .next (s.railRead n mv) :=
      congrArg Host.Outcome.next (if_pos (by simp [hn, hrun]))
    refine ⟨fun hnear hfault => ?_, fun hfar hup hnimlek hfault ⟨x, hx, hlate⟩ => ?_⟩
    · obtain ⟨t, ht, hend⟩ := railRead_clean (hrails ▸ hn) hnear hfault
      exact ⟨t, hread.trans (congrArg Host.Outcome.next ht), hend⟩
    · obtain ⟨t, ht, hend⟩ := railRead_faults (hrails ▸ hn) hfar hup hnimlek hfault hx hlate
      exact ⟨t, hread.trans (congrArg Host.Outcome.next ht), hend⟩
  case droop =>
    intro r hr hup hdroops
    obtain ⟨t, ht, hend⟩ := droop_outcome (s := s) (r := r) (hdroops ▸ hr)
    exact ⟨t, congrArg Host.Outcome.next ((if_pos (by simp [hr, hrun, hup])).trans ht), hend⟩
  case avs =>
    intro hnimlek f
    have hread : exec (.avsUpdate f) s = .next (s.avs f) := congrArg Host.Outcome.next (if_pos (by simp [hrun, hnimlek]))
    refine ⟨fun hslow hv => ?_, fun htarget hdroops hfast => ?_, fun hfast hdroops hruns hraise hv => ?_⟩
    · obtain ⟨t, ht, hend⟩ := avs_slow hslow hv
      exact ⟨t, hread.trans (congrArg Host.Outcome.next ht), hend⟩
    · obtain ⟨t, ht, hend⟩ := avs_steady htarget hdroops hfast
      exact ⟨t, hread.trans (congrArg Host.Outcome.next ht), hend⟩
    · obtain ⟨t, ht, hend⟩ := avs_fast hfast hdroops hruns hraise hv
      exact ⟨t, hread.trans (congrArg Host.Outcome.next ht), hend⟩
  case age =>
    intro hnimlek
    obtain ⟨t, ht, hend⟩ := age_outcome (s := s)
    exact ⟨⟨t, congrArg Host.Outcome.next ((if_pos (by simp [hrun, hnimlek])).trans ht), hend⟩,
      congrArg Host.Outcome.next (if_pos (by simp [hrun, hnimlek]))⟩
  case power =>
    refine ⟨fun hst hlow => ?_, fun hst hhigh hnew hdelay => ?_, fun x hst hhigh hsince hstays => ?_, fun hst hlow hhigh => ?_,
      fun hst hbad => ⟨fun hreads => ?_, fun hreads => readVout_bad hlen he hst hbad hreads⟩,
      fun hst hnew => ⟨fun hlate => rampTimeout_faults hlen he hst hnew hlate, fun hearly => rampTimeout_early hearly⟩,
      fun w => pmb1Alert_one he w⟩
    · rw [execReadVout_one he, readVout_short hst hlow]
    · rw [execReadVout_one he, readVout_reaches hst hhigh hnew hdelay]
    · exact ⟨s.readVout e mv, execReadVout_one he, readVout_settles (hlen ▸ he) hst hhigh hsince hstays⟩
    · rw [execReadVout_one he, readVout_good hst hlow hhigh]
    · rw [execReadVout_one he, readVout_firstBad hst hbad hreads]

end Sys2Proof.Machine

/-! SUPPORT. The review decoder's commands, the ends of host transfers, the cycle budget and the flush (R430 to R449, R528). -/

namespace Sys2Proof.Machine

open Sys2Proof

/-! ## Commands -/

section

variable {c : Cmd} {s : State}

theorem dec_congr {t : State} (h : t.decs = s.decs) (n : Nat) : t.dec n = s.dec n := by
  rw [State.dec, h, State.dec]

theorem accept_dec (c : Cmd) (s : State) (key : Nat) (args : List Nat) (n : Nat) : (s.accept c key args).dec n = s.dec n :=
  dec_congr (by simp) n

theorem updDec_congr {n : Nat} {f g : DecStream → DecStream} (h : f (s.dec n) = g (s.dec n)) : s.updDec n f = s.updDec n g := by
  rw [State.updDec, upd_congr DecStream.reset h, State.updDec]

theorem decSubmitBody_fits (hlive : s.liveDec (fld c.payload 0 1) = true)
    (hentry : (s.dec (fld c.payload 0 1)).entry.isSome = true) (hsome : 1 ≤ fld c.payload 4 4)
    (hring : fld c.payload 4 4 ≤ fld (s.dec (fld c.payload 0 1)).ent 12 4 * 1024)
    (hcount : (s.submissions (fld c.payload 0 1)).length < 16)
    (hroom : s.decRing (fld c.payload 0 1) + fld c.payload 4 4 ≤ fld (s.dec (fld c.payload 0 1)).ent 12 4 * 1024) :
    decSubmitBody c s = ((s.accept c (fld c.payload 0 1) [(s.dec (fld c.payload 0 1)).next, fld c.payload 4 4,
      if fld c.payload 16 4 = 0 then 0 else s.now + 1000 * fld c.payload 16 4 + 1]).updDec (fld c.payload 0 1) fun d =>
        { d with next := ((s.dec (fld c.payload 0 1)).next + 1) % 2 ^ 32 }).out (.hostRead (fld c.payload 8 8) (fld c.payload 4 4)) := by
  have hlen : ¬ (decide (fld c.payload 4 4 = 0) || decide (fld (s.dec (fld c.payload 0 1)).ent 12 4 * 1024 < fld c.payload 4 4)) = true := by
    simp only [Bool.or_eq_true, decide_eq_true_eq]
    omega
  have hfull : ¬ (decide (16 ≤ (s.submissions (fld c.payload 0 1)).length) ||
      decide (fld (s.dec (fld c.payload 0 1)).ent 12 4 * 1024 < s.decRing (fld c.payload 0 1) + fld c.payload 4 4)) = true := by
    simp only [Bool.or_eq_true, decide_eq_true_eq]
    omega
  unfold decSubmitBody
  dsimp only
  rw [if_neg (by simp [hlive, Option.isSome_iff_ne_none.mp hentry]), if_neg hlen, if_neg hfull, us_eq]
  refine congrArg (fun t : State => t.out (.hostRead (fld c.payload 8 8) (fld c.payload 4 4))) (updDec_congr ?_)
  rw [accept_dec]

theorem decSubmitBody_full (hlive : s.liveDec (fld c.payload 0 1) = true)
    (hentry : (s.dec (fld c.payload 0 1)).entry.isSome = true) (hsome : 1 ≤ fld c.payload 4 4)
    (hring : fld c.payload 4 4 ≤ fld (s.dec (fld c.payload 0 1)).ent 12 4 * 1024)
    (hcount : 16 ≤ (s.submissions (fld c.payload 0 1)).length) : decSubmitBody c s = s.reply c 0x0401 [] none := by
  have hlen : ¬ (decide (fld c.payload 4 4 = 0) || decide (fld (s.dec (fld c.payload 0 1)).ent 12 4 * 1024 < fld c.payload 4 4)) = true := by
    simp only [Bool.or_eq_true, decide_eq_true_eq]
    omega
  unfold decSubmitBody
  dsimp only
  rw [if_neg (by simp [hlive, Option.isSome_iff_ne_none.mp hentry]), if_neg hlen, if_pos (by simp [hcount])]
  rfl

theorem decFlushBody_live (hlive : s.liveDec (fld c.payload 0 1) = true) :
    decFlushBody c s = (s.accept c (fld c.payload 0 1) []).pumpFlush (fld c.payload 0 1) := by
  simp [decFlushBody, hlive]

theorem decRestartBody_idle (hlive : s.liveDec (fld c.payload 0 1) = true) (hidle : s.submissions (fld c.payload 0 1) = []) :
    decRestartBody c s = (s.updDec (fld c.payload 0 1) fun d =>
      { d with store := [], awaitIrap := true, slots := d.slots.map (fun v => if v = 1 then 0 else v) }).ok c [] := by
  simp [decRestartBody, hlive, hidle]

theorem decReleaseBody_held (hlive : s.liveDec (fld c.payload 0 1) = true)
    (hheld : (s.dec (fld c.payload 0 1)).slots.getD (fld c.payload 1 1) 0 = 2)
    (hkept : (s.dec (fld c.payload 0 1)).slotReleased.getD (fld c.payload 1 1) false = false) :
    decReleaseBody c s = (s.giveBack (fld c.payload 0 1) (fld c.payload 1 1)).ok c [] := by
  unfold decReleaseBody
  dsimp only
  rw [hlive, hheld, hkept]
  rfl

theorem decRecordBody_live (hlive : s.liveDec (fld c.payload 0 1) = true) (hsome : 1 ≤ fld c.payload 2 2)
    (hmost : fld c.payload 2 2 ≤ 255) :
    decRecordBody c s = s.reply c 0 [] (some ((List.range (fld c.payload 2 2)).map (fun i =>
      (((s.dec (fld c.payload 0 1)).records.find? (fun r => r.1 == (fld c.payload 4 4 + i) % 2 ^ 32)).map (·.2)).getD
        (le 4 0xFFFFFFFF ++ zeros 60))).flatten) := by
  have hcount : ¬ (decide (fld c.payload 2 2 = 0) || decide (255 < fld c.payload 2 2)) = true := by
    simp only [Bool.or_eq_true, decide_eq_true_eq]
    omega
  unfold decRecordBody
  dsimp only
  rw [hlive, if_neg (by decide), if_neg hcount]
  refine congrArg (fun l : List (List Byte) => s.reply c 0 [] (some l.flatten)) (List.map_congr_left fun i _ => ?_)
  cases (s.dec (fld c.payload 0 1)).records.find? (fun r => r.1 == (fld c.payload 4 4 + i) % 2 ^ 32) with
  | none => rfl
  | some r => rfl

theorem decReadBody_held (hlive : s.liveDec (fld c.payload 0 1) = true)
    (hheld : (s.dec (fld c.payload 0 1)).slots.getD (fld c.payload 1 1) 0 = 2) (hsome : 1 ≤ fld c.payload 8 4)
    (htiles : fld c.payload 4 4 + fld c.payload 8 4 ≤
      decTilesX (s.dec (fld c.payload 0 1)).ent * decTilesY (s.dec (fld c.payload 0 1)).ent)
    (hmost : fld c.payload 8 4 ≤ 131072) (haligned : fld c.payload 16 8 % 64 = 0) :
    decReadBody c s = (s.accept c (fld c.payload 0 1) [fld c.payload 1 1, fld c.payload 4 4, fld c.payload 8 4]).updDec
      (fld c.payload 0 1) fun d => { d with slotReads := upd d.slotReads (fld c.payload 1 1) (· + 1) } := by
  obtain ⟨tiles, htotal⟩ : ∃ m, decTilesX (s.dec (fld c.payload 0 1)).ent * decTilesY (s.dec (fld c.payload 0 1)).ent = m := ⟨_, rfl⟩
  rw [htotal] at htiles
  have hlen : ¬ (decide (fld c.payload 8 4 = 0) || decide (tiles < fld c.payload 4 4 + fld c.payload 8 4) ||
      decide (268435456 < fld c.payload 8 4 * 2048)) = true := by
    simp only [Bool.or_eq_true, decide_eq_true_eq]
    omega
  unfold decReadBody
  dsimp only
  rw [htotal, if_neg (by simp [hlive]), if_neg (not_not.mpr hheld), if_neg (by omega), if_neg hlen, if_neg (not_not.mpr haligned)]

end

/-! ## A frame that is given back -/

section

variable {s : State} {n k : Nat}

theorem giveBack_frees (hn : n < s.decs.length) (hk : k < (s.dec n).slots.length) (hreads : (s.dec n).slotReads.getD k 0 = 0)
    (hsending : ∀ x ∈ s.streams, x.sending = none) (hjobs : ∀ j ∈ s.jobs, j.kind ≠ .outUnit) :
    ((s.giveBack n k).dec n).slots.getD k 2 = 0 := by
  unfold State.giveBack
  extract_lets sent
  have hsent : sent = false := by
    have hstreams : s.streams.any (fun t => t.srcKind == 3 && t.srcIndex == n && t.sending.any (fun x => x.1 % 256 == k)) = false :=
      List.any_eq_false.mpr fun x hx => by simp [hsending x hx]
    have hunits : s.jobs.any (fun j => j.kind == .outUnit && j.st != .complete && (s.stream j.object).srcKind == 3 &&
        (s.stream j.object).srcIndex == n && j.args.getD 1 0 % 256 == k) = false :=
      List.any_eq_false.mpr fun j hj => by simp [hjobs j hj]
    exact congrArg₂ or hstreams hunits
  rw [State.updDec_dec_self _ _ _ hn, hsent, hreads]
  simp [hk]

theorem giveBack_waits (hn : n < s.decs.length) (hk : k < (s.dec n).slotReleased.length)
    (hreads : (s.dec n).slotReads.getD k 0 ≠ 0) : ((s.giveBack n k).dec n).slots = (s.dec n).slots ∧
      ((s.giveBack n k).dec n).slotReleased.getD k false = true := by
  unfold State.giveBack
  extract_lets sent
  rw [State.updDec_dec_self _ _ _ hn, if_neg (by simp only [Bool.and_eq_true, decide_eq_true_eq]; exact fun h => hreads h.1)]
  exact ⟨rfl, by simp [hk]⟩

end

/-! ## Ends of host transfers -/

section

variable {s : State} {b : Mbox} {f : DmaFacts} {e : ExecCmd}

/-- What an executing command's host transfer has moved is counted (R655). -/
def State.linkCounted (s : State) (f : DmaFacts) : State := s.countLink 0x0F f.bytes { privilege := some 0, master := some 0x6A }

theorem linkCounted_jobs (s : State) (f : DmaFacts) : (s.linkCounted f).jobs = s.jobs := by
  simp [State.linkCounted]

/-- The transfer ended whole and its command stands. -/
def State.wholeEnd (s : State) (e : ExecCmd) (f : DmaFacts) : Bool := f.complete && s.ep.bme && s.ep.st == 6 && !e.cut

variable (hexec : s.ncp.exec.find? (fun e => e.cmd.box == b) = some e)

include hexec

theorem dmaDone_capRead (hop : e.cmd.opcode = 0x0407) : s.dmaDone b f = s.endCapRead e f (s.wholeEnd e f) := by
  simp only [State.dmaDone, hexec, hop, ExecCmd.readsHost]
  rfl

theorem dmaDone_decRead (hop : e.cmd.opcode = 0x0A06) : s.dmaDone b f = s.endDecRead e f (s.wholeEnd e f) := by
  simp only [State.dmaDone, hexec, hop, ExecCmd.readsHost]
  rfl

theorem dmaDone_decSubmit (hop : e.cmd.opcode = 0x0A01) (hidle : s.jobs = []) : s.dmaDone b f =
    if s.wholeEnd e f then (s.linkCounted f).cutPicture e f.luma (fit (e.arg 1) f.data) else (s.linkCounted f).endSubmit e 0xC := by
  have hjobs : (s.linkCounted f).jobs = [] := (linkCounted_jobs s f).trans hidle
  unfold State.linkCounted at hjobs
  simp only [State.dmaDone, hexec, hop, ExecCmd.readsHost, if_true, hjobs, List.any_nil, Bool.false_eq_true, if_false]
  rfl

theorem dmaDone_barrel_whole (hop : e.cmd.opcode = 0x0B02) (hwhole : s.wholeEnd e f = true) : s.dmaDone b f = s.linkCounted f := by
  unfold State.wholeEnd at hwhole
  simp only [State.dmaDone, hexec, hop, ExecCmd.readsHost, if_true, hwhole]
  rfl

theorem dmaDone_barrel_cut {j : Job} (hop : e.cmd.opcode = 0x0B02) (hcut : s.wholeEnd e f = false)
    (hj : s.jobs.find? (fun j => j.kind == .barrel && j.object == e.key && j.st == .running) = some j) :
    s.dmaDone b f = (s.linkCounted f).endJob j (fun s => (0x0501, [], s)) := by
  unfold State.wholeEnd at hcut
  rw [← linkCounted_jobs s f] at hj
  unfold State.linkCounted at hj
  simp only [State.dmaDone, hexec, hop, ExecCmd.readsHost, if_true, hcut, hj, Bool.false_eq_true, if_false]
  rfl

theorem dmaDone_host (hop : e.cmd.opcode = 0x0507 ∨ e.cmd.opcode = 0x0508) : s.dmaDone b f =
    (if e.args.headD 0 = 0 then s.linkCounted f else s).hostCopied e (s.wholeEnd e f) f.data := by
  rcases hop with hop | hop
  · simp only [State.dmaDone, hexec, hop, ExecCmd.readsHost, beq_iff_eq]
    rfl
  · simp only [State.dmaDone, hexec, hop, ExecCmd.readsHost, beq_iff_eq]
    rfl

end

/-! ## The cycle budget -/

section

variable {s : State} {tag : Nat} {f : DecFacts} {j : Job}

theorem budgetExpiry_cuts (hj : s.byTag tag = some j) (hst : j.st = .running) (hkind : j.kind = .decPicture)
    (hlate : j.runTbm + s.decBudget j ≤ s.now) : exec (.decodeBudgetExpiry tag f) s = .next (s.endJob j (fun s =>
      ((s.runDecode j f true JobFacts.empty).1, [], (s.runDecode j f true JobFacts.empty).2))).settle := by
  change Host.Outcome.next _ = _
  rw [hj]
  dsimp only
  rw [if_pos (by simp [hst, hkind, hlate])]

theorem budgetExpiry_early (hj : s.byTag tag = some j) (hearly : s.now < j.runTbm + s.decBudget j) :
    exec (.decodeBudgetExpiry tag f) s = .next s := by
  change Host.Outcome.next _ = _
  rw [hj]
  dsimp only
  rw [if_neg (by simp [hearly])]

end

/-! ## A flush -/

section

variable {s : State} {n : Nat}

/-- The table of decode streams keeps its size and the configuration stands. -/
structure SameShape (s t : State) : Prop where
  decs : t.decs.length = s.decs.length
  cfg : t.cfg = s.cfg

theorem SameShape.trans {t u : State} (h : SameShape s t) (h' : SameShape t u) : SameShape s u :=
  ⟨h'.decs.trans h.decs, h'.cfg.trans h.cfg⟩

theorem updDec_sameShape (s : State) (n : Nat) (f : DecStream → DecStream) : SameShape s (s.updDec n f) :=
  ⟨upd_length s.decs n f, rfl⟩

theorem raise_sameShape (s : State) (code src : Nat) (body : List Byte) : SameShape s (s.raise code src body) :=
  ⟨by simp, by simp⟩

theorem outputPic_sameShape (s : State) (n : Nat) (p : Stored) : SameShape s (s.outputPic n p) := by
  unfold State.outputPic
  extract_lets num slot t u v ns
  have hv : SameShape s v := ((updDec_sameShape s n _).trans (updDec_sameShape t n _)).trans (raise_sameShape u _ _ _)
  exact each_keeps (P := SameShape s) ns hv fun k _ w hw => ⟨hw.decs, hw.cfg⟩

theorem bump_sameShape (n : Nat) (more : List Stored → Bool) (fuel : Nat) (s : State) : SameShape s (s.bump n more fuel) := by
  induction fuel generalizing s with
  | zero => exact ⟨rfl, rfl⟩
  | succ fuel ih =>
    unfold State.bump
    dsimp only
    split
    · exact ⟨rfl, rfl⟩
    · split
      · exact ⟨rfl, rfl⟩
      · exact ((outputPic_sameShape s n _).trans (updDec_sameShape _ n _)).trans (ih _)

theorem pumpFlush_empties (hn : n < s.decs.length) (hwaits : s.executing 0x0A02 n ≠ []) (hidle : s.submissions n = []) :
    ((s.pumpFlush n).dec n).store = [] ∧ ((s.pumpFlush n).dec n).awaitIrap = true ∧ (s.pumpFlush n).cfg = s.cfg := by
  obtain ⟨e, es, he⟩ := List.exists_cons_of_ne_nil hwaits
  obtain ⟨t, hshape, status, result, hflush⟩ : ∃ t : State, SameShape s t ∧ ∃ status result, s.pumpFlush n =
      (t.updDec n fun d => { d with store := [], awaitIrap := true }).finish e status result none := by
    refine ⟨s.bump n anyNeeded 17, bump_sameShape n anyNeeded 17 s, ?_⟩
    unfold State.pumpFlush
    rw [he, hidle]
    exact ⟨_, _, rfl⟩
  obtain ⟨u, hu⟩ : ∃ u, u = t.updDec n fun d => { d with store := [], awaitIrap := true } := ⟨_, rfl⟩
  have hdec : u.dec n = { t.dec n with store := [], awaitIrap := true } := by
    rw [hu, State.updDec_dec_self _ _ _ (hshape.decs ▸ hn)]
  have hcfg : u.cfg = s.cfg := hu ▸ hshape.cfg
  rw [hflush, ← hu, dec_congr (s := u) (by simp), hdec]
  exact ⟨rfl, rfl, by simp [hcfg]⟩

end

/-- Settles O47: each command by its body once its checks have passed, each transfer by the opcode of the command that executes. -/
theorem decoderCommandsAndTransfers : Obligations.DecoderCommandsAndTransfers := by
  unfold Obligations.DecoderCommandsAndTransfers
  refine ⟨?commands, ?transfers, ?budget, ?flush⟩
  case commands =>
    intro b s t c p n k hlive
    refine ⟨fun h hentry hsome hring hcount hroom => take_next h (decSubmitBody_fits hlive hentry hsome hring hcount hroom),
      fun h hentry hsome hring hcount => take_next h (decSubmitBody_full hlive hentry hsome hring hcount),
      fun h => take_next h (decFlushBody_live hlive), fun h hidle => take_next h (decRestartBody_idle hlive hidle),
      fun h hheld hkept => take_next h (decReleaseBody_held hlive hheld hkept),
      fun h hsome hmost => take_next h (decRecordBody_live hlive hsome hmost),
      fun hn hk hreleased => ⟨fun hreads hsending hjobs => giveBack_frees hn hk hreads hsending hjobs,
        fun hreads => giveBack_waits hn hreleased hreads⟩,
      fun h hheld hsome htiles hmost haligned => take_next h (decReadBody_held hlive hheld hsome htiles hmost haligned)⟩
  case transfers =>
    intro b f e s hexec whole r
    refine ⟨fun hop => ?_, fun hop => ?_, fun hop hidle => ?_, fun hop hwhole => ?_, fun j hop hcut hj => ?_, fun hop => ?_⟩
    · exact congrArg (fun t => Host.Outcome.next (State.settle t)) (dmaDone_capRead hexec hop)
    · exact congrArg (fun t => Host.Outcome.next (State.settle t)) (dmaDone_decRead hexec hop)
    · exact congrArg (fun t => Host.Outcome.next (State.settle t)) (dmaDone_decSubmit hexec hop hidle)
    · exact congrArg (fun t => Host.Outcome.next (State.settle t)) (dmaDone_barrel_whole hexec hop hwhole)
    · exact congrArg (fun t => Host.Outcome.next (State.settle t)) (dmaDone_barrel_cut hexec hop hcut hj)
    · exact congrArg (fun t => Host.Outcome.next (State.settle t)) (dmaDone_host hexec hop)
  case budget =>
    exact fun tag f j s hj hst hkind => ⟨fun hlate => budgetExpiry_cuts hj hst hkind hlate, fun hearly => budgetExpiry_early hj hearly⟩
  case flush =>
    exact fun n s hn hwaits hidle => pumpFlush_empties hn hwaits hidle

end Sys2Proof.Machine

/-! SUPPORT. The commands of recording and the start of a take (R455 to R468, R482 to R484). -/

namespace Sys2Proof.Machine

open Sys2Proof

/-! ## Takes -/

section

variable {s : State} {c : Cmd}

theorem recStartBody_opens (hlive : s.liveRecord (fld c.payload 0 1) = true) (hseal : s.sealDisabled = false)
    (hkeys : (s.stream (fld c.payload 0 1)).encrypt = false ∨ s.recipientsOk (s.stream (fld c.payload 0 1)) = true)
    (hclosed : (s.stream (fld c.payload 0 1)).takeOpen = false) : recStartBody c s =
      (s.openTake (fld c.payload 0 1)).ok c (le 4 ((s.openTake (fld c.payload 0 1)).stream (fld c.payload 0 1)).take) := by
  have hallowed : (s.sealDisabled || ((s.stream (fld c.payload 0 1)).encrypt && !s.recipientsOk (s.stream (fld c.payload 0 1)))) = false := by
    rcases hkeys with h | h
    · simp [hseal, h]
    · simp [hseal, h]
  unfold recStartBody
  dsimp only
  rw [hlive, hallowed, hclosed]
  rfl

theorem recStartBody_disabled (hlive : s.liveRecord (fld c.payload 0 1) = true) (hseal : s.sealDisabled = true) :
    recStartBody c s = s.reply c 0x0301 [] none := by
  unfold recStartBody
  dsimp only
  rw [hlive, hseal]
  rfl

theorem recStopBody_stops (hlive : s.liveRecord (fld c.payload 0 1) = true) (hopen : (s.stream (fld c.payload 0 1)).takeOpen = true)
    (hstop : (s.stream (fld c.payload 0 1)).stopAtFs = false) : recStopBody c s =
      (s.accept c (fld c.payload 0 1) []).updStream (fld c.payload 0 1) fun y =>
        { y with stopAtFs := true, st := if y.st == .stalled then .stalled else .stopping } := by
  unfold recStopBody
  dsimp only
  rw [hlive, hopen, hstop]
  rfl

theorem recStopBody_closed (hlive : s.liveRecord (fld c.payload 0 1) = true) (hclosed : (s.stream (fld c.payload 0 1)).takeOpen = false) :
    recStopBody c s = s.reply c 0 (le 8 (s.stream (fld c.payload 0 1)).lastResult.1 ++
      le 4 (s.stream (fld c.payload 0 1)).lastResult.2) none := by
  unfold recStopBody
  dsimp only
  rw [hlive, hclosed]
  rfl

/-! ## Grants -/

theorem recGrantBody_grants {gs : List Grant} (hlive : s.liveRecord (fld c.payload 0 1) = true) (hkind : fld c.payload 1 1 ≤ 1)
    (hsome : 1 ≤ fld c.payload 2 2) (hmost : fld c.payload 2 2 ≤ 512)
    (hlist : s.grantList (s.stream (fld c.payload 0 1)) (fld c.payload 1 1 == 1) 8 (entriesFrom c.payload 8 24 (fld c.payload 2 2)) [] = .inr gs)
    (hquota : ((s.stream (fld c.payload 0 1)).grants.filter Grant.isOut).length + fld c.payload 2 2 ≤ 1024) :
    recGrantBody c s = (({ s with nextGrant := s.nextGrant + fld c.payload 2 2 } : State).updStream (fld c.payload 0 1) fun y =>
      { y with grants := y.grants ++ gs }).ok c (le 4 s.nextGrant) := by
  have hcount : ¬ (decide (fld c.payload 2 2 = 0) || decide (512 < fld c.payload 2 2)) = true := by
    simp only [Bool.or_eq_true, decide_eq_true_eq]
    omega
  unfold recGrantBody
  dsimp only
  rw [hlist, if_neg (by simp [hlive]), if_neg (by omega), if_neg hcount]
  dsimp only
  rw [if_neg (by omega)]

/-- The one outstanding grant with an identifier. -/
theorem grants_of_id {l : List Grant} {g : Grant} (hmem : g ∈ l) (hout : g.isOut = true) (hid : g.id ≠ 0xFFFFFFFF)
    (hunique : ∀ h, h ∈ l → h.id = g.id → h = g) (hcount : l.count g = 1) :
    (l.filter Grant.isOut).filter (fun h => g.id == 0xFFFFFFFF || h.id == g.id) = [g] := by
  have hfilter : (l.filter Grant.isOut).filter (fun h => g.id == 0xFFFFFFFF || h.id == g.id) = l.filter (· == g) := by
    rw [List.filter_filter]
    refine List.filter_congr fun h hh => ?_
    rw [Bool.eq_iff_iff]
    simp only [beq_eq_false_iff_ne.mpr hid, Bool.false_or, Bool.and_eq_true, beq_iff_eq]
    exact ⟨fun ⟨heq, _⟩ => hunique h hh heq, fun heq => by subst heq; exact ⟨rfl, hout⟩⟩
  rw [hfilter, List.filter_beq, hcount]
  rfl

/-- What a revocation of the grants of a list leaves of a stream. -/
def Stream.revoked (x : Stream) (ids : List Nat) : Stream :=
  { x with grants := x.grants.map (fun g => if ids.contains g.id then { g with count := g.used } else g) }

theorem recRevokeBody_one {g : Grant} (hlive : s.liveRecord (fld c.payload 0 1) = true)
    (hmem : g ∈ (s.stream (fld c.payload 0 1)).grants) (hout : g.isOut = true) (hfld : fld c.payload 4 4 = g.id)
    (hid : g.id ≠ 0xFFFFFFFF) (hunique : ∀ h, h ∈ (s.stream (fld c.payload 0 1)).grants → h.id = g.id → h = g)
    (hcount : (s.stream (fld c.payload 0 1)).grants.count g = 1) : recRevokeBody c s =
      (s.updStream (fld c.payload 0 1) fun x => x.revoked [g.id]).accept c (fld c.payload 0 1) [g.count - g.used, g.id] := by
  unfold recRevokeBody
  dsimp only
  rw [hfld, grants_of_id hmem hout hid hunique hcount, if_neg (by simp [hlive]), if_neg (by simp)]
  rfl

/-! ## Reports -/

theorem recReportBody_live (hlive : s.liveRecord (fld c.payload 0 1) = true) (hsome : 1 ≤ fld c.payload 2 2)
    (hmost : fld c.payload 2 2 ≤ 340) : recReportBody c s =
      s.reply c 0 [] (some (le 4 ((s.nv.reports.getD (fld c.payload 0 1) []).take (fld c.payload 2 2)).length ++ le 4 0 ++
        ((s.nv.reports.getD (fld c.payload 0 1) []).take (fld c.payload 2 2)).flatten)) := by
  have hcount : ¬ (decide (fld c.payload 2 2 = 0) || decide (340 < fld c.payload 2 2)) = true := by
    simp only [Bool.or_eq_true, decide_eq_true_eq]
    omega
  unfold recReportBody
  dsimp only
  rw [if_neg (by simp [hlive]), if_neg hcount]
  rfl

theorem recAckBody_live (hlive : s.liveRecord (fld c.payload 0 1) = true) : recAckBody c s =
    (s.updNv fun y => { y with reports := upd y.reports (fld c.payload 0 1) (fun es =>
      es.filter (fun e => fld c.payload 4 4 < fld e 28 4)) }).ok c [] := by
  unfold recAckBody
  dsimp only
  rw [if_neg (by simp [hlive])]

/-! ## Drives -/

theorem drive_congr {t : State} (h : t.drives = s.drives) (n : Nat) : t.drive n = s.drive n := by
  rw [State.drive, h, State.drive]

theorem accept_drive (c : Cmd) (s : State) (key : Nat) (args : List Nat) (n : Nat) : (s.accept c key args).drive n = s.drive n :=
  drive_congr (by simp) n

section

variable (hlive : s.livePort (fld c.payload 0 1) = true) (hready : (s.drive (fld c.payload 0 1)).st = .ready)

include hlive hready

theorem recAdminBody_starts (hlen : fld c.payload 4 4 ≤ 65536) (hbarred : adminBarred c.payload = false)
    (hguarded : adminGuarded c.payload = false) : recAdminBody c s = s.startHost c (fld c.payload 0 1) := by
  unfold recAdminBody
  dsimp only
  rw [if_neg (by simp [hlive]), if_neg (by omega), if_neg (by simp [hbarred]), if_neg (by simp [hready, hguarded])]

theorem recIoBody_reads (hop : fld c.payload 1 1 = 0)
    (hlen : fld c.payload 16 4 * s.lba (fld c.payload 0 1) (fld c.payload 4 4) ≤ 16777216) :
    recIoBody c s = s.startHost c (fld c.payload 0 1) := by
  unfold recIoBody
  dsimp only
  rw [if_neg (by simp [hlive]), if_neg (by omega), if_neg (by simp [hready]), if_neg (by simp [hop, hlen]), if_neg (by simp [hop])]

theorem recIoBody_deallocates (hop : fld c.payload 1 1 = 1)
    (hclear : (s.grantsOn (fld c.payload 0 1)).any (fun g => g.meets (fld c.payload 4 4) (fld c.payload 8 8) (fld c.payload 16 4)) = false) :
    recIoBody c s = s.startHost c (fld c.payload 0 1) := by
  unfold recIoBody
  dsimp only
  rw [if_neg (by simp [hlive]), if_neg (by omega), if_neg (by simp [hready]), if_neg (by simp [hop]), hclear, if_neg (by simp)]

theorem recPortResetBody_resets : recPortResetBody c s =
    (s.accept c (fld c.payload 0 1) []).portReset (fld c.payload 0 1) none := by
  unfold recPortResetBody
  dsimp only
  rw [if_neg (by simp [hlive]), accept_drive, hready]
  rfl

end

end

/-! ## A take that opens -/

section

variable {s : State} {n : Nat}

theorem stream_congr {t : State} (h : t.streams = s.streams) (n : Nat) : t.stream n = s.stream n := by
  rw [State.stream, h, State.stream]

theorem addJob_streams (s : State) (j : Job) : (s.addJob j).2.streams = s.streams := by
  obtain ⟨f, -, hadd⟩ := addJob_sameWork s j
  rw [hadd]
  rfl

/-- A stream with one more record, whose job may still wait. -/
def Stream.withRec (x : Stream) (r : TakeRec) : Stream := { x with recs := x.recs ++ [r], recIndex := x.recIndex + 1 }

/-- A record of no unit is a job and an entry in its stream's list of records. -/
theorem addRec_noUnit (s : State) (n kind : Nat) (opened : List Byte) : ∃ j r,
    s.addRec n kind none opened = (s.addJob j).2.updStream n fun x => x.withRec r := by
  unfold State.addRec
  extract_lets t r
  have hctx : (s.caskJob n r).ctx = none := rfl
  have hjob : s.addUnitJob (s.caskJob n r) = s.addJob (s.caskJob n r) := by
    unfold State.addUnitJob
    rw [hctx]
  exact ⟨s.caskJob n r, { r with job := (s.addJob (s.caskJob n r)).1 }, by rw [hjob]; rfl⟩

/-- The stream that a take opens in, with its certificate as the first manifest record. -/
structure TakeBegun (s t : State) (n : Nat) : Prop where
  mem : t.mem = s.mem
  cfg : t.cfg = s.cfg
  others : ∀ m, m ≠ n → t.stream m = s.stream m
  takeOpen : (t.stream n).takeOpen = true
  st : (t.stream n).st = .running
  take : (t.stream n).take = s.nv.takeNumbers.getD n 0 + 1
  sealRecs : (t.stream n).sealRecs.length = 1

theorem openTake_plain (hplain : (s.stream n).encrypt = false) (hn : n < s.streams.length) : ∃ t opened body,
    s.openTake n = (t.addRec n 0 none opened).raise 0x0501 (srcStream n) body ∧ TakeBegun s t n ∧ n < t.streams.length := by
  unfold State.openTake
  extract_lets x no key s₁ s₂ start s₃ s₄ s₅
  have h₁ : s₁ = s := if_neg (Bool.eq_false_iff.mp hplain)
  have h₅ : s₅ = s₄ := if_neg (Bool.eq_false_iff.mp hplain)
  clear_value s₁ s₅
  subst h₁ h₅
  have hn₂ : n < s₂.streams.length := hn
  have hn₃ : n < s₃.streams.length := by simpa [s₃, upd_length] using hn₂
  have hopened := State.updStream_stream_self s₂ n (h := hn₂)
  have hsealed := State.updStream_stream_self s₃ n (h := hn₃)
  refine ⟨s₄, s₄.openPayload n, le 4 no, rfl, ⟨rfl, rfl, fun m hm => ?_, ?_, ?_, ?_, ?_⟩, ?_⟩
  · exact (State.updStream_stream_of_ne s₃ n m _ hm).trans (State.updStream_stream_of_ne s₂ n m _ hm)
  · exact (congrArg Stream.takeOpen (hsealed _)).trans (congrArg Stream.takeOpen (hopened _))
  · exact (congrArg Stream.st (hsealed _)).trans (congrArg Stream.st (hopened _))
  · exact (congrArg Stream.take (hsealed _)).trans (congrArg Stream.take (hopened _))
  · have hnone : (s₃.stream n).sealRecs = [] := congrArg Stream.sealRecs (hopened _)
    refine (congrArg (fun y : Stream => y.sealRecs.length) (hsealed _)).trans ?_
    dsimp only
    rw [hnone]
    rfl
  · simpa [s₄, State.addSealRec, upd_length] using hn₃

theorem openTake_outcome (hplain : (s.stream n).encrypt = false) (hn : n < s.streams.length) : TakeBegun s (s.openTake n) n := by
  obtain ⟨t, opened, body, hopen, hbegun, hlen⟩ := openTake_plain hplain hn
  obtain ⟨j, r, hrec⟩ := addRec_noUnit t n 0 opened
  obtain ⟨u, hu⟩ : ∃ u, u = (t.addJob j).2.updStream n fun x => x.withRec r := ⟨_, rfl⟩
  have hstream : ∀ m, (s.openTake n).stream m = u.stream m := fun m => by
    rw [hopen, hrec, ← hu]
    exact stream_congr (by simp) m
  have hother : ∀ m, (t.addJob j).2.stream m = t.stream m := stream_congr (addJob_streams t j)
  have hself : u.stream n = (t.stream n).withRec r := by
    rw [hu, State.updStream_stream_self _ _ _ (addJob_streams t j ▸ hlen), hother]
  have hmem : (s.openTake n).mem = t.mem := by simp [hopen, hrec]
  have hcfg : (s.openTake n).cfg = t.cfg := by simp [hopen, hrec]
  refine ⟨hmem.trans hbegun.mem, hcfg.trans hbegun.cfg, fun m hm => ?_, ?_, ?_, ?_, ?_⟩
  · rw [hstream, hu, State.updStream_stream_of_ne _ _ _ _ hm, hother, hbegun.others m hm]
  · rw [hstream, hself]
    exact hbegun.takeOpen
  · rw [hstream, hself]
    exact hbegun.st
  · rw [hstream, hself]
    exact hbegun.take
  · rw [hstream, hself]
    exact hbegun.sealRecs

end

/-! ## The commands of recording -/

/-- Settles O48. That a stream is STOPPING from the acceptance of REC_STOP on is log entry 25 (R468 has it take effect at the next FS). -/
theorem recordingCommands : Obligations.RecordingCommands := by
  unfold Obligations.RecordingCommands
  intro b s t c p n x
  refine ⟨fun hlive => ⟨?start, ?disabled, ?stop, ?stopped, ?grant, ?revoke, ?report, ?ack⟩,
    fun hlive hready => ⟨?admin, ?read, ?deallocate, ?reset⟩, fun hplain hn => ?opens⟩
  case start =>
    exact fun h hseal hkeys hclosed => take_settle_next h (recStartBody_opens hlive hseal hkeys hclosed)
  case disabled => exact fun h hseal => take_settle_next h (recStartBody_disabled hlive hseal)
  case stop => exact fun h hopen hstop => take_settle_next h (recStopBody_stops hlive hopen hstop)
  case stopped => exact fun h hclosed => take_settle_next h (recStopBody_closed hlive hclosed)
  case grant =>
    exact fun gs h hkind hsome hmost _ hlist hquota =>
      take_settle_next h (recGrantBody_grants hlive hkind hsome hmost hlist hquota)
  case revoke =>
    intro g h hmem hout hfld hid hunique hcount
    refine ⟨t.updStream n fun x => x.revoked [g.id],
      take_settle_next h (recRevokeBody_one hlive hmem hout hfld hid hunique hcount), rfl, fun hn => ?_⟩
    rw [State.updStream_stream_self _ _ _ hn]
    simp [Stream.revoked, x]
  case report => exact fun h hsome hmost => take_next h (recReportBody_live hlive hsome hmost)
  case ack => exact fun h => take_settle_next h (recAckBody_live hlive)
  case admin =>
    exact fun h hlen hbarred hguarded => take_next h (recAdminBody_starts hlive hready hlen hbarred hguarded)
  case read => exact fun h hop hlen => take_next h (recIoBody_reads hlive hready hop hlen)
  case deallocate => exact fun h hop hclear => take_next h (recIoBody_deallocates hlive hready hop hclear)
  case reset => exact fun h => take_settle_next h (recPortResetBody_resets hlive hready)
  case opens =>
    obtain ⟨hmem, hcfg, hothers, hopen, hst, htake, hrecs⟩ := openTake_outcome hplain hn
    exact ⟨hopen, hst, htake, hrecs, hothers, hmem, hcfg⟩

end Sys2Proof.Machine
